-- ==== Sys2Proof/Word.lean ====
section
/-!
DEFINITION. The word types of the TZ-960: bytes, 32-bit register words, byte strings, and the small
arithmetic on them that no rule of the spec can change.
-/

namespace Sys2Proof

/-- A byte of memory, of a record or of a message. -/
abbrev Byte := BitVec 8

/-- A 32-bit word: a peripheral register (R20), a Serge register, an instruction. -/
abbrev Word := BitVec 32

/-- A byte string, byte 0 first. -/
abbrev Bytes := List Byte

end Sys2Proof
end

