-- ==== Sys2Proof/Machine/Bits.lean ====
section
/-!
DEFINITION. Bit fields of register words, little-endian byte strings (R14), the sparse maps that hold registers and
memory in one canonical form, and CRC-32C. Every rule about bytes and fields goes through these few functions.
-/

namespace Sys2Proof.Machine

/-- Bits `hi:lo` of a word, as a number. -/
def bits (w : Word) (hi lo : Nat) : Nat := (w.toNat >>> lo) % 2 ^ (hi + 1 - lo)

/-- Bit `i` of a word. -/
def bit (w : Word) (i : Nat) : Bool := w.getLsbD i

/-- The word with bits `hi:lo` replaced by the low bits of `v`. -/
def setBits (w : Word) (hi lo v : Nat) : Word :=
  let m : Word := BitVec.ofNat 32 ((2 ^ (hi + 1 - lo) - 1) <<< lo)
  (w &&& ~~~m) ||| (BitVec.ofNat 32 (v <<< lo) &&& m)

/-- The word with bit `i` set to `b`. -/
def setBit (w : Word) (i : Nat) (b : Bool) : Word := setBits w i i b.toNat

/-- A field of a register word built from nothing: `v` at bit `lo`, `hi + 1 - lo` bits wide. -/
def field (hi lo v : Nat) : Word := BitVec.ofNat 32 ((v % 2 ^ (hi + 1 - lo)) <<< lo)

/-- The `n` low bytes of a number, little-endian (R14). -/
def le : Nat → Nat → Bytes
  | 0, _ => []
  | n + 1, v => BitVec.ofNat 8 v :: le n (v / 256)

/-- The number a little-endian byte string holds (R14). -/
def ofLe : Bytes → Nat
  | [] => 0
  | b :: bs => b.toNat + 256 * ofLe bs

/-- A word from up to four little-endian bytes. -/
def wordOf (bs : Bytes) : Word := BitVec.ofNat 32 (ofLe (bs.take 4))

/-- `n` zero bytes: a reserved field (R185). -/
def zeros (n : Nat) : Bytes := List.replicate n 0

/-- The first `n` bytes of a byte string, filled up with zeros. -/
def fit : Nat → Bytes → Bytes
  | 0, _ => []
  | n + 1, [] => 0 :: fit n []
  | n + 1, b :: bs => b :: fit n bs

/-- `n` bytes of a string from offset `off`. -/
def slice (bs : Bytes) (off n : Nat) : Bytes := (bs.drop off).take n

/-- The 32-bit words of a byte string, byte 0 in the low byte of word 0; `n` words. -/
def wordsOf : Nat → Bytes → List Word
  | 0, _ => []
  | n + 1, bs => wordOf (fit 4 bs) :: wordsOf n (bs.drop 4)

/-- The low 32 bits of a number, as a word. -/
def loWord (n : Nat) : Word := BitVec.ofNat 32 n

/-- Bits 63:32 of a number, as a word. -/
def hiWord (n : Nat) : Word := BitVec.ofNat 32 (n / 2 ^ 32)

/-- A count that saturates at the largest value of `w` bits (R1092). -/
def satInc (w n : Nat) : Nat := if n + 1 < 2 ^ w then n + 1 else 2 ^ w - 1

/-- A saturating count raised by `k` (R1092). -/
def satAdd (w n k : Nat) : Nat := if n + k < 2 ^ w then n + k else 2 ^ w - 1

/-- The two's-complement reading of the low `w` bits of a number. -/
def signed (w n : Nat) : Int := if n % 2 ^ w < 2 ^ (w - 1) then (n % 2 ^ w : Nat) else (n % 2 ^ w : Nat) - (2 ^ w : Nat)

/-- The low `w` bits of an integer, two's complement. -/
def unsigned (w : Nat) (i : Int) : Nat := (i % (2 ^ w : Nat)).toNat

/-- Entry `i` of a table, or the type's default beyond its end. -/
def nth {α : Type} [Inhabited α] (l : List α) (i : Nat) : α := l.getD i default

/-- The table with entry `i` changed by `f`; nothing changes beyond the table's end. -/
def upd {α : Type} (l : List α) (i : Nat) (f : α → α) : List α := l.modify i f

/-! ### Sparse maps -/

/-- What a sparse map holds at `k`; an unlisted key holds `d k`. -/
def sget {α : Type} (d : Nat → α) : List (Nat × α) → Nat → α
  | [], k => d k
  | (j, v) :: t, k => if k = j then v else sget d t k

/-- The map without its entries for `k`. -/
def serase {α : Type} : List (Nat × α) → Nat → List (Nat × α)
  | [], _ => []
  | (j, v) :: t, k => if k = j then serase t k else (j, v) :: serase t k

/-- The map with an entry put in at its place in rising key order. -/
def sinsert {α : Type} : List (Nat × α) → Nat → α → List (Nat × α)
  | [], k, v => [(k, v)]
  | (j, w) :: t, k, v => if k < j then (k, v) :: (j, w) :: t else (j, w) :: sinsert t k v

/-- A write: the value an unlisted key holds anyway is not listed, so equal maps are equal lists. -/
def sset {α : Type} [DecidableEq α] (d : Nat → α) (m : List (Nat × α)) (k : Nat) (v : α) : List (Nat × α) :=
  if v = d k then serase m k else sinsert (serase m k) k v

/-- The canonical form of a sparse map: keys strictly rising, no entry equal to what its key holds unlisted. -/
def swf {α : Type} [DecidableEq α] (d : Nat → α) : List (Nat × α) → Bool
  | [] => true
  | (k, v) :: t => decide (v ≠ d k) && (match t with | [] => true | (j, _) :: _ => decide (k < j)) && swf d t

/-! ### CRC-32C -/

/-- One bit of the reflected CRC register, polynomial 0x1EDC_6F41 reflected (0x82F6_3B78). -/
def crcBit (c : Word) : Word := if c.getLsbD 0 then (c >>> 1) ^^^ 0x82F63B78#32 else c >>> 1

/-- One byte into the CRC register. -/
def crcByte (c : Word) (b : Byte) : Word :=
  let x := c ^^^ b.setWidth 32
  crcBit (crcBit (crcBit (crcBit (crcBit (crcBit (crcBit (crcBit x)))))))

/-- CRC-32C as the custody descriptor's CHECK uses it: Castagnoli, reflected, initial value and final XOR all ones. -/
def crc32c (bs : Bytes) : Word := ~~~ (bs.foldl crcByte 0xFFFFFFFF#32)

end Sys2Proof.Machine
end

