-- ==== Sys2Proof/Machine/StateMgmt.lean ====
section
/-!
DEFINITION. The management plane's state: diagnostic log, Gingham with its sessions and CAN controllers, the PCIe
endpoint, Felt, the dictionary engine. Settings, event flags and statistics that the spec gives a register lie in the
register file; what stands here is the state behind them.
-/

namespace Sys2Proof.Machine

/-- A diagnostic-log entry (table *Diagnostic-log entry, 16 bytes*). -/
structure DiagEntry where
  evt : Nat := 0
  type : Nat := 0
  src : Nat := 0
  code : Nat := 0
  arg : Nat := 0
  deriving DecidableEq, Repr, Inhabited

/-- The diagnostic log's working state; entries lie in MRAM, NEXT, DIAGCNT and DROP in their registers. -/
structure Diag where
  /-- entries that wait for the end of replay (R1105) -/
  queued : List DiagEntry := []
  /-- pushes accepted in the current EVT second (R1106) -/
  pushSec : Nat := 0
  pushes : Nat := 0
  deriving DecidableEq, Repr, Inhabited

/-! ## Gingham -/

/-- Session states (table *Session states*). -/
inductive SessSt where
  | closed | challenged | openSess | suspended
  deriving DecidableEq, Repr, Inhabited

/-- A YDP session (R623–R640). -/
structure Sess where
  st : SessSt := .closed
  princ : Nat := 0
  /-- 0 CAN0, 1 CAN1, 2 UART -/
  carrier : Nat := 0
  node : Nat := 0
  /-- the principal's KEY handle at phase 1 -/
  handle : Nat := 0
  /-- the 35 bytes S of *Session opening* -/
  nonces : Bytes := []
  /-- TAG of phase 1 (R631) -/
  tag : Nat := 0
  /-- session keys, peer to device and device to peer (R629) -/
  inKey : Bytes := []
  outKey : Bytes := []
  txctr : Nat := 0
  rxctr : Nat := 0
  tagFails : Nat := 0
  /-- instants, ns: phase 2 sent, last accepted peer frame, suspension -/
  chalAt : Nat := 0
  heardAt : Nat := 0
  suspAt : Nat := 0
  /-- queued NOTIFY bodies, at most 8 (R657) -/
  notify : List Bytes := []
  deriving DecidableEq, Repr, Inhabited

/-- How a YDP frame is authenticated (R621): zero TAG, the principal's key with C = 0, or the session's key and counter. -/
inductive YAuth where
  | none | key (handle : Nat) | session
  deriving DecidableEq, Repr, Inhabited

/-- A YDP message that waits to be sent; its counter value is taken when it is sent (R623, R664). -/
structure YMsg where
  sess : Option Nat := none
  cls : Nat := 0
  dest : Nat := 0
  tag : Nat := 0
  msg : Nat := 0
  flags : Nat := 0
  body : Bytes := []
  auth : YAuth := .session
  /-- CTRLO of a message without a counter (R658) -/
  ctrlo : Nat := 0
  /-- it is the reply that ends an open transaction (R642) -/
  closes : Bool := false
  deriving DecidableEq, Repr, Inhabited

/-- CAN controller states (CSTAT.STATE). -/
inductive CanSt where
  | off | integrating | active | passive | busoff | stuck | paused
  deriving DecidableEq, Repr, Inhabited

/-- A frame on the bus (R604, R612). -/
structure CanFrame where
  id : Nat := 0
  xtd : Bool := true
  fdf : Bool := true
  brs : Bool := false
  rtr : Bool := false
  data : Bytes := []
  deriving DecidableEq, Repr, Inhabited

/-- An entry of the firmware RX FIFO (register RXWIN). -/
structure RxEntry where
  frame : CanFrame := {}
  filter : Nat := 0
  ts : Nat := 0
  evt : Nat := 0
  deriving DecidableEq, Repr, Inhabited

/-- One CAN FD controller. -/
structure Can where
  st : CanSt := .off
  /-- the state that PAUSED interrupted (R667) -/
  before : CanSt := .off
  tec : Nat := 0
  rec_ : Nat := 0
  rxLow : Bool := false
  /-- CCTRL, NBT, DBT and TDC of the last integration -/
  cfg : List Word := [0, 0, 0, 0]
  fifo : List RxEntry := []
  /-- YDP messages for this bus, oldest first -/
  ydp : List YMsg := []
  /-- firmware buffers whose cancel was sampled too late (R664) -/
  late : List Nat := []
  /-- the last frame that the controller sent -/
  sent : Option CanFrame := none
  /-- EVT at the last wrap of TSCNT (R611) -/
  wrapEvt : Nat := 0
  /-- the next TSCNT wrap, ns -/
  wrapAt : Nat := 0
  deriving DecidableEq, Repr, Inhabited

/-- Gingham. -/
structure Ging where
  sess : List Sess := List.replicate 8 {}
  can : List Can := List.replicate 2 {}
  /-- the last message that the UART sent -/
  uartSent : Option YMsg := none
  /-- sessions opened per principal (object :05 SESSIONS) -/
  opened : List Nat := List.replicate 16 0
  /-- HEARTBEATs sent -/
  beats : Nat := 0
  deriving DecidableEq, Repr, Inhabited

/-! ## PCI Express -/

/-- An MSI-X table entry. -/
structure Msix where
  addr : Nat := 0
  data : Nat := 0
  masked : Bool := true
  pending : Bool := false
  deriving DecidableEq, Repr, Inhabited

/-- A read job for a read door or a card export (R703). -/
structure ExpJob where
  cust : Nat := 0
  /-- requested bounds (R695, R745) -/
  first : Nat := 0
  last : Nat := 0
  plain : Bool := false
  /-- it waits for the ANCHOR it asked for (R701) -/
  anchorWait : Bool := false
  /-- the resolved package; none before the first pass is done -/
  pkg : Option Bytes := none
  omitted : Nat := 0
  deriving DecidableEq, Repr, Inhabited

/-- A read door's working state; its settings are registers. -/
structure ReadDoor where
  job : Option ExpJob := none
  cfg : Word := 0x04100000#32
  wrptr : Nat := 0
  /-- WRPTR at the last status block (R699) -/
  marked : Nat := 0
  /-- last advance of RDPTR or of the job, ns (R700) -/
  movedAt : Nat := 0
  deriving DecidableEq, Repr, Inhabited

/-- The PCIe endpoint. -/
structure Pcie where
  up : Bool := false
  bme : Bool := false
  perst : Bool := false
  dstate : Nat := 0
  speed : Nat := 0
  width : Nat := 0
  flr : Bool := false
  msixEn : Bool := false
  msixAllMasked : Bool := false
  msix : List Msix := List.replicate 64 {}
  vsel : List Nat := (List.range 64).map (fun n => 10 + n % 54)
  notifyQ : List Bytes := []
  notifySeq : Nat := 0
  /-- TAG of the transaction that each mailbox slot holds (MBSTAT.BUSY) -/
  slots : List (Option Nat) := [none, none, none, none]
  /-- a response that waits because RSPVALID is 1 (R683) -/
  held : List (Option Bytes) := [none, none, none, none]
  doors : List ReadDoor := List.replicate 8 {}
  deriving DecidableEq, Repr, Inhabited

/-! ## Felt -/

/-- A tamper source's filter (R1001, R1002) and, for a pin, its previous level and PRBS-15 state (R998, R999). -/
structure TSrc where
  abnormal : Nat := 0
  normal : Nat := 0
  tripped : Bool := false
  level : Option Bool := none
  prbs : Nat := 1
  deriving DecidableEq, Repr, Inhabited

/-- Felt: the always-on domain. Its settings are registers marked cell. -/
structure Felt where
  /-- the bridge copy of EVT (R980) -/
  evt : Nat := 0
  /-- Felt's EVT with its 16 further fraction bits (R977) -/
  sub : Nat := 0
  mono : Nat := 0
  rtc : Nat := 0
  slewRem : Nat := 0
  /-- FSTAT.SUPPLY 1: VBAT supplies Felt (R969) -/
  onVbat : Bool := false
  vbat : Bool := true
  /-- the instant at which the supply switchover under way completes (R969) -/
  switchEnd : Nat := 0
  maghi : Bool := false
  xrtcFail : Bool := false
  cellOut : Bool := false
  /-- the alive signature is present (R972) -/
  alive : Bool := true
  /-- CELL_LOST was decided for this boot, with or without a TIMECK entry (R1024, R1025) -/
  cellLost : Bool := false
  /-- accepted PPS edges in a row, and the capture of the last accepted edge in ns of EVT (R982–R985) -/
  ppsRun : Nat := 0
  ppsAt : Option Nat := none
  /-- PPSERR of the last consecutive outliers, newest first, at most 4 -/
  outliers : List Int := []
  /-- ADJ holds the limit until an edge is accepted (R985) -/
  adjHeld : Bool := false
  /-- EVT up to which an accepted edge's ADJ runs (R984, R986) -/
  adjUntil : Nat := 0
  /-- sources 0–19 -/
  src : List TSrc := List.replicate 20 {}
  /-- the epoch source queue and its overflow count (R1009) -/
  epqSrc : List Nat := []
  epqOvf : Nat := 0
  /-- the event log: 256 entries of 16 bytes, sparse (R1026) -/
  log : List (Nat × Byte) := []
  next : Nat := 0
  pinned : Nat := 0
  /-- EVT second of the last SHDW_REJECT entry (R1028) -/
  rejSec : Option Nat := none
  /-- the built-in test that runs (R1015) -/
  tbist : Option Nat := none
  /-- the posted writes, oldest first (R1029) -/
  queue : List (Nat × Word) := []
  /-- a held first half of a shadow pair (R1019): address, word -/
  half : Option (Nat × Word) := none
  /-- EVT of the recording resume after the last full reset of cause 0x07 (R1013) -/
  frResume : Option Nat := none
  /-- LBSTAGE and DEFERRED of the previous run, in Felt RAM (R520, R525) -/
  lbstage : Nat := 0
  deferred : Nat := 0
  deriving DecidableEq, Repr, Inhabited

/-! ## Dictionary engine -/

/-- Where a request came from and its reply goes: a local descriptor, a driver-card descriptor, a mailbox slot, a session. -/
inductive Carrier where
  | loc (addr : Nat)
  | card (addr : Nat) (slot : Nat)
  | mbox (slot : Nat)
  | sess (n : Nat)
  deriving DecidableEq, Repr, Inhabited

/-- Status of a procedure (R586): STATE 0 IDLE, 1 RUNNING, 2 DONE, the principal that last started it, outcome code. -/
structure PStat where
  st : Nat := 0
  princ : Nat := 0
  code : Nat := 0
  deriving DecidableEq, Repr, Inhabited

/-- A request passed to firmware (R581, R595). -/
structure FwReq where
  carrier : Carrier := .loc 0
  tag : Nat := 0
  op : Nat := 0
  index : Nat := 0
  sub : Nat := 0
  type : Nat := 0
  princ : Nat := 0
  /-- DOMAIN bytes: what is to be written, or what came back so far (R596) -/
  data : Bytes := []
  offset : Nat := 0
  at_ : Nat := 0
  /-- 0 a plain request, 1 the value of a READ_SEG, 2 the value of a WRITE_SEG; its block size and last segment number -/
  form : Nat := 0
  blk : Nat := 1
  sno : Nat := 0
  /-- the requester's room for a value that is read -/
  room : Nat := 65536
  deriving DecidableEq, Repr, Inhabited

/-- A segmented transfer (R646–R653). -/
structure Xfer where
  carrier : Carrier := .loc 0
  tag : Nat := 0
  princ : Nat := 0
  index : Nat := 0
  sub : Nat := 0
  type : Nat := 0
  write : Bool := false
  total : Nat := 0
  blk : Nat := 1
  /-- bytes received in order, or the value that is read -/
  data : Bytes := []
  /-- bytes acknowledged of a read -/
  acked : Nat := 0
  /-- segments of the current block received in order, or sent -/
  inBlk : Nat := 0
  /-- a segment has been discarded behind a gap -/
  gap : Bool := false
  /-- instant of its last frame, ns -/
  at_ : Nat := 0
  deriving DecidableEq, Repr, Inhabited

/-- The dictionary engine. Objects are keyed by index × 256 + subindex. -/
structure Dict where
  /-- CPT values accepted and not yet applied (R563, R566), ascending -/
  pending : List (Nat × Bytes) := []
  /-- values in the MRAM configuration area: applied CPT sets and BOOT values (R560, R565) -/
  stored : List (Nat × Bytes) := []
  /-- the stored record fails its CRC (R572) -/
  storedBad : Bool := false
  /-- values in force that no register holds; an unlisted object has its default -/
  held : List (Nat × Bytes) := []
  procs : List (Nat × PStat) := []
  /-- a warm restart is under way (R582) -/
  restarting : Bool := false
  /-- the eight firmware slots (R595) -/
  fw : List (Option FwReq) := List.replicate 8 none
  xfers : List Xfer := []
  /-- local descriptors that wait, at most 4 (R593) -/
  localQ : List Nat := []
  aborts : Nat := 0
  deriving DecidableEq, Repr, Inhabited

end Sys2Proof.Machine
end

