-- ==== Sys2Proof/Machine/StatePlatform.lean ====
section
/-!
DEFINITION. The platform's state: power and reset, Tweed's clocks, Serge, the card blocks, fuses and boot. Settings,
event flags and statistics that the spec gives a register lie in the register file; what stands here is the state
behind them.
-/

namespace Sys2Proof.Machine

/-! ## Power and reset -/

/-- Power states (table *Power states*). -/
inductive PowerSt where
  | off | vault | parked | run | lastBreath
  deriving DecidableEq, Repr, Inhabited

/-- Power and reset. RSTCAUSE, PWRSTAT.STATE and RESUMEMS are registers; the stage lies in Felt. -/
structure Power where
  st : PowerSt := .run
  /-- the highest last-breath step completed in this run, 0 outside it (R520) -/
  lb : Nat := 0
  /-- ingest is open (PWRSTAT.INGEST) -/
  ingest : Bool := false
  /-- recording has resumed in this boot (PWRSTAT.RESUMED) -/
  resumed : Bool := false
  /-- step 4 from reset release is done: the stored configuration is applied -/
  configured : Bool := false
  /-- last-breath steps completed in this run (R520) -/
  lbDone : List Nat := []
  /-- a full reset is asserted: its cause -/
  rst : Option Nat := none
  /-- the core is released: reset step 5 is done and nothing holds it -/
  released : Bool := true
  /-- WARMPOR: the core is held in reset because VDD_CORE stayed up (R505) -/
  warmHold : Bool := false
  /-- PMIC_EN (R501) -/
  pmicEn : Bool := true
  /-- pin levels of PFAIL_N, RST_N and IGN_IN -/
  pfailN : Bool := true
  rstN : Bool := true
  ignIn : Bool := true
  /-- the instant of the last edge of RST_N, ns (R533, R535) -/
  rstEdge : Nat := 0
  /-- RST_N is ignored after a stuck declaration (R535) -/
  rstIgnored : Bool := false
  /-- VDD_IO18, VDD_CORE and every other monitored rail lie above their thresholds -/
  io18 : Bool := true
  rails : Bool := true
  /-- the next reset sequence reports WARMPOR (R505) -/
  warmPor : Bool := false
  /-- the instant at which PARKED was entered -/
  parkedAt : Nat := 0
  /-- the instant of the last reset release -/
  releasedAt : Nat := 0
  deriving DecidableEq, Repr, Inhabited

/-! ## Tweed: clocks -/

/-- A switchable root: SRC, CUR, BUSY and the outcome flags are in ROOTSEL. -/
structure Root where
  /-- the new source of a switch in flight, and the source it left (R924) -/
  target : Option Nat := none
  old : Nat := 0
  deriving DecidableEq, Repr, Inhabited

/-- A PLL: LOCK, REFIRC, HOLDOVER, PARKED and LOSSCNT are in PLLSTAT. -/
structure Pll where
  /-- failed retries of a lock loss that is being retried (R957) -/
  retries : Option Nat := none
  /-- the roots that the lock loss moved to IRC96, to switch back (R957) -/
  moved : List Nat := []
  /-- the SSC word in force (R932) -/
  ssc : Word := 0
  deriving DecidableEq, Repr, Inhabited

/-- Tweed's clocks and monitors. -/
structure Tweed where
  roots : List Root := List.replicate 41 {}
  plls : List Pll := List.replicate 6 {}
  /-- the instant since which every XIN window has passed (R952) -/
  xinGood : Nat := 0
  /-- consecutive trim windows with an error within ±0.5 % (R942) -/
  trimGood : Nat := 0
  /-- a PLL was parked: CLKFAIL stays until a full reset (R958) -/
  parkFail : Bool := false
  /-- CLKOUTCFG in force (R939) -/
  clkout : List Word := [0x2000#32, 0x2000#32]
  /-- gating requests that wait for idle: (CKEN register, bit) (R961) -/
  gating : List (Nat × Nat) := []
  /-- blocks gated while busy: their state is undefined until a full reset (R962) -/
  lost : List (Nat × Nat) := []
  deriving DecidableEq, Repr, Inhabited

/-! ## Serge -/

/-- A buffered store (R837): address, bytes, value, and whether its region is a device (ORD 1). -/
structure StoreEnt where
  addr : Nat := 0
  size : Nat := 4
  data : Word := 0
  ord : Nat := 0
  deriving DecidableEq, Repr, Inhabited

/-- Serge (R780–R853), its interrupt controller's stacks and its watchdog's service sequence. -/
structure Serge where
  pc : Word := 0
  /-- the physical register file: commons c1–c7 at 1–7, t0–t7 and d0–d7 of window w from 8 + 16·w (R788) -/
  rf : List (Nat × Word) := []
  /-- PSTAT -/
  priv : Bool := true
  ie : Bool := false
  tw : Bool := false
  ct : Bool := false
  epc : Word := 0
  epstat : Word := 0
  ecause : Word := 0
  eval : Word := 0
  tvec : Word := 0
  cwp : Nat := 0
  oldest : Nat := 0
  count : Nat := 1
  cycles : Nat := 0
  instret : Nat := 0
  buf : List StoreEnt := []
  /-- WFI has stalled issue (R828) -/
  waiting : Bool := false
  /-- a safe halt (R881), until a reset or a warm restart -/
  halted : Bool := false
  /-- levels that the taken interrupts replaced, and their sources, last taken first (R865, R866) -/
  levels : List Nat := []
  taken : List Nat := []
  /-- a STOREERR has been taken for the record that SERRINFO holds (R883) -/
  storeErrTaken : Bool := false
  /-- the core cycle at which the first key of a watchdog service was written (R894) -/
  wdKey : Option Nat := none
  /-- TIMEOUT and WIN in force (R897), milliseconds and sixteenths -/
  wdTimeout : Nat := 2000
  wdWin : Nat := 0
  /-- the instant of the watchdog's last restart, ns -/
  wdAt : Nat := 0
  deriving DecidableEq, Repr, Inhabited

/-! ## Cards -/

/-- A raw card command in flight (R740). -/
structure CardCmd where
  index : Nat := 0
  arg : Word := 0
  rsp : Nat := 0
  data : Bool := false
  write : Bool := false
  dma : Nat := 0
  blocks : Nat := 0
  deriving DecidableEq, Repr, Inhabited

/-- A Chambray port; STATE, SPEED, TAP, WPTMP, WPPERM, CD and TUNING are in PSTAT. -/
structure CardPort where
  /-- PWR_EN and, on port A, SDA_VSEL (R715) -/
  powered : Bool := false
  vsel : Bool := false
  /-- the UHS-I voltage switch failed once: 3.3 V modes only (R719) -/
  only33 : Bool := false
  xfer : Option CardCmd := none
  /-- CRC failures of the command in flight (R730) -/
  retries : Nat := 0
  /-- results of the running sweep, tap 0 first (R723, R724) -/
  sweep : List Bool := []
  /-- instant of the trigger of a retune by timer or temperature that still runs (R726) -/
  retuneAt : Option Nat := none
  /-- instant and die temperature, 0.1 °C, of the last tuning (R725) -/
  tunedAt : Nat := 0
  tunedTemp : Int := 0
  /-- the tuned mode and tap to return to after CLKFAIL (R732) -/
  wanted : Option Nat := none
  /-- the CID of the last export that ended OK or PARTIAL since the insertion (R760) -/
  exported : Option Bytes := none
  /-- instant at which the port last became idle (R722) -/
  idleAt : Nat := 0
  /-- the user area of the cartridge shows a write protect (R746, R756) -/
  areaWp : Bool := false
  deriving DecidableEq, Repr, Inhabited

/-- The export job (R744–R756); STATE, ABORTSTAT, RESULT, bytes and digest are registers. -/
structure Export where
  job : Option ExpJob := none
  port : Nat := 0
  lba : Nat := 0
  share : Nat := 0
  preErase : Bool := false
  princ : Nat := 0
  /-- the step of WRITING and PROTECTING: 0 erase, 1 package, 2 record block, 3 CSD -/
  phase : Nat := 0
  /-- the record block as formed (table *Export record block*) -/
  record : Bytes := []
  result : Nat := 0
  deriving DecidableEq, Repr, Inhabited

/-- COURT_COPY once armed (R758): principal, target, instant. -/
structure Court where
  princ : Nat := 0
  target : Nat := 0
  at_ : Nat := 0
  deriving DecidableEq, Repr, Inhabited

/-- A Percale slot; STATE, CLASS, T1, AUTH, AUTHPRINC and CSTOP are in SSTAT. -/
structure CardSlot where
  present : Bool := false
  /-- a PPS response is awaited (R767) -/
  pps : Bool := false
  /-- the next activation keeps Fi 372 and Di 1 with no PPS (R767) -/
  noPps : Bool := false
  /-- Fi and Di applied, as the FI and DI codes -/
  fi : Nat := 1
  di : Nat := 1
  tx : Bytes := []
  rx : Bytes := []
  /-- repetitions of the character under way (R770) -/
  repeats : Nat := 0
  /-- the T=1 block that is being received, as far as it has come -/
  blk : Bytes := []
  deriving DecidableEq, Repr, Inhabited

/-- Chambray and Percale. -/
structure Cards where
  ports : List CardPort := List.replicate 2 {}
  exp : Export := {}
  court : Option Court := none
  /-- a second COURT_COPY run has set CMD27 going on this port (R759) -/
  courtRun : Option Nat := none
  slots : List CardSlot := List.replicate 2 {}
  /-- principal requests that wait, oldest first: descriptor address, slot (R778) -/
  preq : List (Nat × Nat) := []
  /-- AUTH: the slot and principal of the running challenge (R776) -/
  auth : Option (Nat × Nat) := none
  /-- AUTHRSP[0–3] as written -/
  authRsp : List Word := List.replicate 4 0
  deriving DecidableEq, Repr, Inhabited

/-! ## Lifecycle, fuses -/

/-- Lifecycle states (R1038). -/
inductive Life where
  | blank | personalise | fieldLife | rma | scrap
  deriving DecidableEq, Repr, Inhabited

/-- What three references sense of a physical word (R1041). -/
structure Sense where
  word : Nat := 0
  nominal : Word := 0
  low : Word := 0
  high : Word := 0
  deriving DecidableEq, Repr, Inhabited

/-- A fuse operation under way (R1050): its code, ADDR, and the physical words still to program with their bits. -/
structure FuseOp where
  op : Nat := 0
  addr : Nat := 0
  words : List (Nat × Word) := []
  deriving DecidableEq, Repr, Inhabited

/-- The fuse array. Effective C0–C3 and T0–T15 are in CRIT and THERMO. -/
structure Fuse where
  /-- the programmed bits of the 1,024 physical words; an unlisted word is blank (R1034) -/
  words : List (Nat × Word) := []
  /-- effective C0–C20 and T0–T15 (R1047) and the marginal logical words at step 2 -/
  crit : List Word := List.replicate 21 0
  thermo : List Nat := List.replicate 16 0
  marginal : List Nat := []
  life : Life := .blank
  op : Option FuseOp := none
  deriving DecidableEq, Repr, Inhabited

/-! ## Boot -/

/-- A copy of the preference record (R1076); `valid` is its CRC. -/
structure Pref where
  valid : Bool := false
  seq : Nat := 0
  slotB : Bool := false
  trial : Bool := false
  tries : Nat := 0
  rbmin : Nat := 0
  deriving DecidableEq, Repr, Inhabited

/-- The step that a warm restart has reached (table *Warm restart, from the request*). -/
inductive Warm where
  | idle | draining | loading
  deriving DecidableEq, Repr, Inhabited

/-- A flash operation under way: an erase of a slot, or a chunk's program (R1075). -/
inductive FlashOp where
  | erase (slotB : Bool)
  | program (off : Nat) (data : Bytes)
  deriving DecidableEq, Repr, Inhabited

/-- Secure boot, firmware update, debug unlock. -/
structure Boot where
  prefA : Pref := {}
  prefB : Pref := {}
  /-- flash bytes; an unlisted byte is erased (0xFF) -/
  flash : List (Nat × Byte) := []
  flashOp : Option FlashOp := none
  /-- FW_OFFSET, and the runs of bytes programmed since the erase (R1078) -/
  offset : Nat := 0
  written : List (Nat × Nat) := []
  warm : Warm := .idle
  /-- the header of the running image, empty while no firmware runs (R1071) -/
  header : Bytes := []
  /-- the image that recovery has received so far, and the wait for its blocks (R1070) -/
  recovery : Bool := false
  uart : Bytes := []
  /-- the byte that answered the last block: 0x06 or 0x15 (R1070) -/
  uartAns : Option Byte := none
  /-- the certificate chain in the MRAM configuration area (R1063) -/
  chain : Bytes := []
  chainBad : Bool := false
  /-- the debug challenge in force and its instant (R1087) -/
  challenge : Option (Bytes × Nat) := none
  /-- debug unlock opened all JTAG instructions and master 0x02 (R1089) -/
  unlocked : Bool := false
  deriving DecidableEq, Repr, Inhabited

end Sys2Proof.Machine
end

