-- ==== Sys2Proof/Machine/StateVideo.lean ====
section
/-!
DEFINITION. The state of the data plane's front: Canvas (position, reference, slots, windows), Muslin (ports, doors,
custodies, open and dropped stripes) and Linen (chains, anchors, epochs, escrow). Plain data. Values that are
registers and nothing else (settings, event flags, statistics) live in the register file instead.
-/

namespace Sys2Proof.Machine

/-! ## Canvas -/

/-- A Canvas position: frame epoch, FRAME, LINE (R56–R58, R184). -/
structure Pos where
  epoch : Nat := 0
  frame : Nat := 0
  line : Nat := 0
  deriving DecidableEq, Repr, Inhabited

/-- Canvas states (table *Canvas states*). -/
inductive CanvasSt where
  | acquire | locked | flywheel | pullin
  deriving DecidableEq, Repr, Inhabited

/-- One event slot as applied (registers SLOTA, SLOTB, SLOTC). -/
structure Slot where
  en : Bool := false
  rel : Bool := false
  action : Nat := 0
  target : Nat := 0
  line : Nat := 0
  period : Nat := 1
  phase : Nat := 0
  deriving DecidableEq, Repr, Inhabited

/-- An active slot: its settings, its countdown (R84), whether it is armed for this frame and has fired. -/
structure SlotState where
  slot : Slot := {}
  count : Nat := 0
  armed : Bool := false
  fired : Bool := false
  deriving DecidableEq, Repr, Inhabited

/-- The CTRL settings in force; a write takes effect at the next Canvas frame start (R70). -/
structure CanvasCtl where
  fspol : Bool := false
  reacq : Bool := false
  refvc : Nat := 0
  refport : Nat := 0
  refsel : Nat := 2
  deriving DecidableEq, Repr, Inhabited

/-- Canvas. -/
structure Canvas where
  /-- position (R56–R58) -/
  pos : Pos := {}
  /-- CTRL.EN as in effect (R108, R110) -/
  enabled : Bool := true
  /-- reference settings in force (R70) -/
  ctl : CanvasCtl := {}
  /-- STAT.STATE (R63–R79) -/
  st : CanvasSt := .acquire
  /-- STAT.BLANK (R81) -/
  blank : Bool := false
  /-- blanking ticks since the frame end (R85) -/
  blankTicks : Nat := 0
  /-- instant of the last Canvas frame start, ns -/
  frameStartAt : Nat := 0
  /-- predicted next frame start, ns (R76, R83) -/
  nextFrameAt : Nat := 33333333
  /-- instant of the last reference frame end, ns (R67) -/
  frameEndAt : Option Nat := none
  /-- instant of the last reference frame start, ns (R68, R71) -/
  refAt : Option Nat := none
  /-- position of the last reference frame start (R74) -/
  refPos : Pos := {}
  /-- last frame-start intervals, newest first, at most 8 (R67) -/
  intervals : List Nat := []
  /-- last FE-to-FS intervals, newest first, at most 8 (R67) -/
  blanks : List Nat := []
  /-- consecutive qualifying frame starts (R69) -/
  qualRun : Nat := 0
  /-- the next acquisition steps whatever REACQ holds (R78, R110) -/
  stepNext : Bool := true
  /-- the 32 active slots (R84) -/
  slots : List SlotState := List.replicate 32 {}
  /-- SLOTUPD.PENDING: a staged set waits for the next frame start (R95) -/
  applyPending : Bool := false
  /-- GC window opened by a slot (R89) -/
  gcOpen : Bool := false
  /-- CAL window opened by slots, one bit per class (R89) -/
  calOpen : Nat := 0
  /-- instant of the last commit point, ns (R99–R101) -/
  lastCommitAt : Nat := 0
  /-- COMMITCNT, 64 bits (R102) -/
  commitCnt : Nat := 0
  /-- active pulses: outputs 0, 1 FSYNC_OUT and 8–31 GPIO (R104) -/
  pulses : List Bool := List.replicate 32 false
  /-- frame starts still to come before the next FRAME-mode pulse of each FSYNC_OUT (R103) -/
  fsCount : List Nat := [0, 0]
  /-- a FRAME-mode pulse is due on each FSYNC_OUT after its OFFSET (R103) -/
  fsDue : List Bool := [false, false]
  /-- IRQ actions queued during a warm restart (table *Canvas races*) -/
  irqQueue : List Nat := []
  deriving DecidableEq, Repr, Inhabited

/-! ## Ledger record bodies -/

/-- The body of a ledger record (tables *STRIPE body* to *TIMEMAP body*). -/
inductive Body where
  | stripe (first last : Pos) (offset ns gen length cause flags keyver : Nat) (digest : Bytes)
  | gap (reason sub : Nat) (fromPos toPos : Pos) (fromEvt mono arg0 arg1 : Nat)
  | drop (reason prio packets : Nat) (first last : Pos) (bytes dtag : Nat)
  | desc (cause : Nat) (descriptor : Bytes)
  | descSkew (mgen lgen tgen : Nat)
  | keywrap (kind alg wraplen keygen : Nat) (ownerid ephpub wrapped kcv : Bytes)
  | anchor (root : Bytes) (mono epoch flags : Nat) (keyid : Bytes) (live : Nat) (sig : Bytes)
  | epoch (newEpoch reason source mono : Nat) (newPub newKeyId signerId sig : Bytes)
  | timemap (utcoff disc leap ppserr mono : Nat)
  deriving DecidableEq, Repr, Inhabited

/-! ## Muslin -/

/-- A custody descriptor copy (table *Custody descriptor, 64 bytes*). -/
structure Desc where
  gen : Nat := 0
  valid : Bool := false
  door : Bool := false
  feclose : Bool := false
  prioOk : Bool := false
  dtAny : Bool := false
  src : Nat := 0
  dt : Nat := 0
  stripeKib : Nat := 16
  prio : Nat := 0
  ns : Nat := 0
  ledgerKey : Nat := 0
  escrow : Nat := 0
  /-- bytes 0x00–0x3B, which a DESC record carries -/
  raw : Bytes := []
  deriving DecidableEq, Repr, Inhabited

/-- Where a byte comes from: a camera port's line buffer or a host door. -/
inductive Source where
  | port (p : Nat)
  | door (d : Nat)
  deriving DecidableEq, Repr, Inhabited

/-- What waits in a camera port, in arrival order (R121): a line admitted whole on its header (R152), or a frame start or
frame end packet of a virtual channel behind the lines that came before it. -/
inductive Line where
  | data (cust : Nat) (bytes : Bytes) (err : Bool)
  | fs (vc : Nat)
  | fe (vc : Nat)
  deriving DecidableEq, Repr, Inhabited

/-- Why a stripe closed, in the code of the STRIPE record (R39). -/
inductive Cause where
  | size | frameEnd | seal | sealNow | partialStripe
  deriving DecidableEq, Repr, Inhabited

/-- Losses coalesced for one DROP record (R128). -/
structure DropAcc where
  packets : Nat := 0
  bytes : Nat := 0
  first : Pos := {}
  last : Pos := {}
  deriving DecidableEq, Repr, Inhabited

/-- A DROP of reason FETCH that is due (R140). -/
structure DropFetch where
  door : Nat := 0
  index : Nat := 0
  tag : Nat := 0
  bytes : Nat := 0
  pos : Pos := {}
  deriving DecidableEq, Repr, Inhabited

/-- A descriptor of a door, named by the door and its ring index. -/
structure DescRef where
  door : Nat := 0
  index : Nat := 0
  deriving DecidableEq, Repr, Inhabited

/-- The losses and marks that belong to the stripe that was open when they arose, or to the next one (R128). -/
structure Losses where
  header : Option DropAcc := none
  overrun : Option DropAcc := none
  fetch : List DropFetch := []
  deriving DecidableEq, Repr, Inhabited

/-- A custody's open stripe. -/
structure OpenStripe where
  jsn : Nat := 0
  /-- its length limit in bytes, of the copy in force when it opened (R26, R146) -/
  size : Nat := 0
  /-- bytes of a line or part that has not yet been tagged -/
  untagged : Bool := false
  data : Bytes := []
  first : Option Pos := none
  last : Pos := {}
  errmark : Bool := false
  hostpos : Bool := false
  /-- tiles reserved and not yet taken (R155, R432) -/
  reserve : Nat := 0
  /-- tile of each unit, unit 0 first (R430, R431) -/
  tiles : List Nat := []
  /-- key version of the custody when the stripe opened (R211) -/
  keyver : Nat := 0
  /-- descriptors with bytes in the stripe, and those whose last byte lies in it (R138, R139) -/
  parts : List DescRef := []
  ends : List DescRef := []
  losses : Losses := {}
  deriving DecidableEq, Repr, Inhabited

/-- A stripe that was not admitted: its bytes are discarded until it would have closed (R158, R160). -/
structure DroppedStripe where
  prio : Nat := 0
  size : Nat := 0
  untagged : Bool := false
  len : Nat := 0
  first : Option Pos := none
  last : Pos := {}
  parts : List DescRef := []
  ends : List DescRef := []
  deriving DecidableEq, Repr, Inhabited

/-- A closed stripe whose records are not yet in MRAM (table *Stripe close to seal*). -/
structure ClosedStripe where
  stripe : OpenStripe := {}
  cause : Cause := .size
  /-- the copy under which Linen seals it (R167, R186), and the namespace of Twill's copy -/
  desc : Desc := {}
  ns : Nat := 0
  /-- KEYWRAP records that this close releases (R190, R211) -/
  keywraps : List Body := []
  /-- MGEN, LGEN, TGEN when a DESC_SKEW is required (R171) -/
  skew : Option (Nat × Nat × Nat) := none
  /-- the copy a switch at this close adopts, and the DESC record's CAUSE (R167, R171) -/
  switch : Option (Desc × Nat) := none
  deriving DecidableEq, Repr, Inhabited

/-- One custody as Muslin, Linen and Twill see it. -/
structure Custody where
  /-- the copies that Muslin, Linen and Twill use (R169, R170) -/
  mDesc : Desc := {}
  lDesc : Desc := {}
  tDesc : Desc := {}
  /-- the held copy of an INVAL, its APPLYAT, and whether the frame start it waits for has come (R164–R168) -/
  held : Option Desc := none
  applyAt : Bool := false
  frameSeen : Bool := false
  /-- CUSTSTAT.CRCERR (R162) and DUP (R119) -/
  crcErr : Bool := false
  dup : Bool := false
  /-- a camera or door frame is open (R124) -/
  frameOpen : Bool := false
  openStripe : Option OpenStripe := none
  dropped : Option DroppedStripe := none
  /-- losses that wait for the next stripe (R128) -/
  nextLosses : Losses := {}
  /-- the previous line's tag (R135) -/
  lastTag : Pos := {}
  /-- closed stripes whose records are not yet written, oldest first -/
  sealing : List ClosedStripe := []
  deriving DecidableEq, Repr, Inhabited

/-- One camera port. -/
structure Port where
  /-- in a high-speed burst (STAT.PORTACT) -/
  burst : Bool := false
  /-- data discarded to the burst end after an uncorrectable header (R126) -/
  discard : Bool := false
  /-- the PORTCFG in effect; a write waits for the stop state -/
  cfg : Word := 0x0060E406#32
  /-- lines and frame packets not yet taken (R152) -/
  lines : List Line := []
  /-- a packet whose payload is still short of its word count: custody, bytes so far, word count (R126) -/
  short : Option (Nat × Bytes × Nat) := none
  /-- bytes of the head line already accepted -/
  taken : Nat := 0
  /-- lanes aligned by the last deskew sequence (R115) -/
  aligned : Bool := false
  deriving DecidableEq, Repr, Inhabited

/-- A door descriptor that Muslin has fetched and not yet completed. -/
structure DoorDesc where
  index : Nat := 0
  addr : Nat := 0
  len : Nat := 0
  fs : Bool := false
  fe : Bool := false
  sealNow : Bool := false
  prio : Bool := false
  posmode : Nat := 0
  tag : Nat := 0
  pos : Nat := 0
  /-- bytes read from the host and bytes accepted or discarded -/
  read : Nat := 0
  taken : Nat := 0
  /-- the first byte has been taken: FS, SEGMENT and CAPTURE checks are done (R124, R135, R136) -/
  started : Bool := false
  /-- the supplied position tags its lines (R135) -/
  hostPos : Option Pos := none
  posRej : Bool := false
  /-- no more of its data will come, and its last byte has been taken -/
  ended : Bool := false
  /-- stripes that hold its bytes and are not yet sealed (R139) -/
  unsealed : Nat := 0
  /-- INVALID, a byte in a dropped stripe (R141), a failed read (R140) -/
  invalid : Bool := false
  droppedBytes : Bool := false
  fetchErr : Bool := false
  /-- SEQ of its completion, once known (R138) -/
  seq : Option Nat := none
  dropSeq : Option Nat := none
  deriving DecidableEq, Repr, Inhabited

/-- One host stream door (registers RINGLO … CFG hold its settings). -/
structure Door where
  en : Bool := false
  head : Nat := 0
  tail : Nat := 0
  cplidx : Nat := 0
  phase : Bool := false
  descs : List DoorDesc := []
  /-- data read and not yet accepted -/
  buf : Bytes := []
  /-- number of the previous SEGMENT-mode descriptor (R136) -/
  segment : Option Nat := none
  deriving DecidableEq, Repr, Inhabited

/-- Muslin. -/
structure Muslin where
  ports : List Port := List.replicate 4 {}
  doors : List Door := List.replicate 64 {}
  cust : List Custody := List.replicate 64 {}
  /-- classes 0–3 that refuse stripes (R159) -/
  refusing : List Bool := [false, false, false, false]
  /-- highest OCC since reset, in tiles (JOCC.PEAK) -/
  peak : Nat := 0
  /-- the door whose round-robin turn it is, and bytes taken in the turn (R151) -/
  rrDoor : Nat := 0
  rrBytes : Nat := 0
  deriving DecidableEq, Repr, Inhabited

/-! ## Linen -/

/-- A written ledger record: header, body and TAG (R183). -/
structure Rec where
  cust : Nat := 0
  seq : Nat := 0
  evt : Nat := 0
  prev : Bytes := []
  body : Body := .timemap 0 0 0 0 0
  tag : Bytes := []
  deriving DecidableEq, Repr, Inhabited

/-- One of the 65 chains: next SEQ, head, and the records written, oldest first (R177, R180). -/
structure Chain where
  seq : Nat := 0
  head : Bytes := List.replicate 32 0
  recs : List Rec := []
  deriving DecidableEq, Repr, Inhabited

/-- What an ANCHOR is for (R197). -/
structure AnchorJob where
  requested : Bool := false
  lastBreath : Bool := false
  /-- it waits for the records of these stripes, closed by SEAL, before its snapshot (R87): custody, JSN -/
  after : List (Nat × Nat) := []
  /-- the snapshot has been taken and the sign job issued (R198, R199) -/
  signing : Bool := false
  retried : Bool := false
  evt : Nat := 0
  mono : Nat := 0
  root : Bytes := []
  live : Nat := 0
  /-- next SEQ of each custody chain in the snapshot (R198) -/
  seqs : List Nat := []
  deriving DecidableEq, Repr, Inhabited

/-- Why an epoch opens (EPOCH body REASON). -/
inductive EpochReason where
  | genesis | roll | tamper | request | keylost
  deriving DecidableEq, Repr, Inhabited

/-- A pending epoch request: its reason and, for TAMPER, the Felt source (R202). -/
structure EpochReq where
  reason : EpochReason := .roll
  source : Nat := 0xFF
  deriving DecidableEq, Repr, Inhabited

/-- The step an epoch sequence has reached (table *Epoch sequence*). -/
inductive EpochStep where
  | keygen | sign | record
  deriving DecidableEq, Repr, Inhabited

/-- An epoch sequence in progress. -/
structure EpochSeq where
  req : EpochReq := {}
  step : EpochStep := .keygen
  retried : Bool := false
  newPub : Bytes := []
  deriving DecidableEq, Repr, Inhabited

/-- A KEYWRAP in progress (R211): request, and the ephemeral public key once generated. -/
structure KwJob where
  cust : Nat := 0
  kind : Nat := 0
  alg : Nat := 0
  source : Nat := 0
  eph : Bytes := []
  deriving DecidableEq, Repr, Inhabited

/-- Linen. -/
structure Linen where
  /-- chains 0–63 and, at 64, the device chain (R176) -/
  chains : List Chain := List.replicate 65 {}
  anchor : Option AnchorJob := none
  /-- a further ANCHOR that waits for a running epoch sequence (table *Linen races*) -/
  anchorNext : Option AnchorJob := none
  epochSeq : Option EpochSeq := none
  /-- EPOCHQ.PEND as the list of requests, oldest first; held in Felt RAM (R202, R203) -/
  epochQ : List EpochReq := []
  /-- EPOCHQ.LOST (R204) -/
  epochLost : Nat := 0
  /-- LINEN.EPOCH and EPSLOT.ACTIVE (R206) -/
  epoch : Nat := 0
  active : Bool := false
  /-- the epoch key was opened at least once: LINEN.EPOCH names a real epoch -/
  opened : Bool := false
  /-- an abandoned sequence runs again at the next commit point (R348) -/
  epochHold : Bool := false
  /-- the slots of LINEN.EPSLOT in effect since the last full reset -/
  slotA : Nat := 2
  slotB : Nat := 3
  /-- a KEYLOST epoch runs before the operation that found the active slot unusable (R207) -/
  keylostDue : Bool := false
  /-- requests of earlier boots that run before the first ANCHOR of this one (R203) -/
  epochFirst : Nat := 0
  /-- KEYVER per custody (R211) -/
  keyver : List Nat := List.replicate 64 0
  /-- the KCVs of the latest and of the one earlier waiting version: (version, KCV) (R270) -/
  kcv : List (List (Nat × Bytes)) := List.replicate 64 []
  /-- ledger-key escrows counted per custody (KEYWRAP body KEYGEN of KIND 2) -/
  escrows : List Nat := List.replicate 64 0
  kw : Option KwJob := none
  /-- KEYWRAP records held for each custody's next stripe close (R211, R214) -/
  kwPending : List (List Body) := List.replicate 64 []
  /-- what each ANCHOR record covers: its device SEQ, next SEQ of each custody in its snapshot (R198, R216) -/
  anchors : List (Nat × List Nat) := []
  /-- SEQ and EVT of the last ANCHOR (ANCSEQ, object 0x3201:04) -/
  ancSeq : Nat := 0
  ancEvt : Nat := 0
  /-- EVT of the last TIMEMAP record (R189) -/
  tmapEvt : Nat := 0
  deriving DecidableEq, Repr, Inhabited

end Sys2Proof.Machine
end

