-- ==== Sys2Proof/Machine/StateTwill.lean ====
section
/-!
DEFINITION. The state of Twill: NAND channels, LUNs, LDPC lanes, superpages; journal tiles, metadata log, checkpoints;
namespaces, segments, run maps, garbage collection and read jobs. Plain data.
-/

namespace Sys2Proof.Machine

/-- Channel state (CHSTAT.STATE). -/
inductive ChSt where
  | absent | init | ready | degraded | parked
  deriving DecidableEq, Repr, Inhabited

/-- LUN state (LUNSTAT). -/
inductive LunSt where
  | absent | active | retired | parked
  deriving DecidableEq, Repr, Inhabited

/-- Kinds of NAND operation (table *Operation timeouts*). -/
inductive NandKind where
  | program | erase | read | reset
  deriving DecidableEq, Repr, Inhabited

/-- What a read serves. -/
inductive ReadFor where
  | scrub
  /-- a garbage-collection copy of a unit of a namespace, from a data slot of the source -/
  | gc (ns unit slot : Nat)
  /-- a unit of an export read job -/
  | export_ (job ns unit : Nat)
  deriving DecidableEq, Repr, Inhabited

/-- A NAND operation queued or in flight on a channel. -/
structure NandOp where
  kind : NandKind := .read
  lun : Nat := 0
  seg : Nat := 0
  /-- superpage index for program and read, block for erase -/
  page : Nat := 0
  issued : Bool := false
  overdue : Bool := false
  /-- a read of a codeword on a parked unit goes straight to rung 4 (R416) -/
  rebuild : Bool := false
  serves : ReadFor := .scrub
  deriving DecidableEq, Repr, Inhabited

/-- Corrections summed for level tracking of one page type (R392). -/
structure TrackSum where
  n01 : Nat := 0
  n10 : Nat := 0
  words : Nat := 0
  deriving DecidableEq, Repr, Inhabited

/-- A channel LUN. -/
structure Lun where
  st : LunSt := .absent
  /-- signed offsets of levels 0–6 (R391) -/
  offsets : List Int := List.replicate 7 0
  /-- the offsets last sent to the LUN (R391) -/
  sent : List Int := List.replicate 7 0
  /-- hint step of the read ladder (R376) -/
  hint : Nat := 1
  spares : List Nat := []
  bad : List Nat := []
  sums : List TrackSum := List.replicate 3 {}
  /-- level of the next probe (R395) -/
  probeLevel : Nat := 0
  /-- reads of each block since its erase (R400) -/
  blockReads : List (Nat × Nat) := []
  deriving DecidableEq, Repr, Inhabited

/-- The parameter-page fields that set geometry and timing (R364): CELL, PLANES, PAGESZ codes, pages − 1, blocks − 1, LUNs,
and the maxima in µs. -/
structure TargetGeom where
  cell : Nat := 0
  planes : Nat := 0
  pagesz : Nat := 0
  ppbm1 : Nat := 0
  blkm1 : Nat := 0
  luns : Nat := 1
  tprog : Nat := 0
  tbers : Nat := 0
  tr : Nat := 0
  trst : Nat := 0
  deriving DecidableEq, Repr, Inhabited

/-- A target: its package is present, parked, and answered these Read ID bytes and parameter page. -/
structure Target where
  present : Bool := false
  parked : Bool := false
  id : Bytes := []
  geom : TargetGeom := {}
  deriving DecidableEq, Repr, Inhabited

/-- A NAND channel. -/
structure Channel where
  st : ChSt := .init
  targets : List Target := List.replicate 4 {}
  luns : List Lun := List.replicate 16 {}
  ops : List NandOp := []
  draining : Bool := false
  rbLow : Bool := false
  trainFail : Bool := false
  train : Word := 0#32
  /-- WP_N high (R360) -/
  wpHigh : Bool := false
  deriving DecidableEq, Repr, Inhabited

/-- The geometry record of MEDIA_INIT (R364): the geometry, LUN sets in use (R371), and per channel its targets. -/
structure Geometry where
  geom : TargetGeom := {}
  lunSets : List Nat := []
  targets : List (List Target) := []
  deriving DecidableEq, Repr, Inhabited

/-- What a data slot of a superpage holds. -/
inductive SlotUse where
  /-- unit `idx` of journal stripe `jsn`, at internal unit number `unit` of namespace `ns` -/
  | stripe (ns unit jsn idx : Nat)
  /-- a ledger unit -/
  | ledger (ns unit : Nat) (recs : List Rec)
  /-- a garbage-collection copy of a live unit from a source segment and slot -/
  | copy (ns unit srcSeg srcSlot : Nat)
  /-- a table page of the system area -/
  | table
  | pad
  deriving DecidableEq, Repr, Inhabited

/-- A superpage that is being filled, or has been formed (R382, R383). -/
structure Superpage where
  seg : Nat := 0
  idx : Nat := 0
  slots : List SlotUse := []
  firstFill : Nat := 0
  formedAt : Nat := 0
  /-- member channels whose page has passed -/
  passed : List Nat := []
  abandoned : Bool := false
  /-- every page read back at rung 1 (R383); worst corrected bits of a codeword (R479) -/
  verified : Bool := true
  worst : Nat := 0
  /-- its MAPDELTA is in the log -/
  mapped : Bool := false
  deriving DecidableEq, Repr, Inhabited

/-- Segment states (table *Segment-table entry*). -/
inductive SegSt where
  | free | allocating | allocated | openSeg | closed | unusable
  deriving DecidableEq, Repr, Inhabited

/-- A segment-table entry. -/
structure Seg where
  st : SegSt := .free
  ns : Nat := 0xFF
  members : List Nat := []
  lunSet : Nat := 0
  erases : Nat := 0
  filled : Nat := 0
  openEvt : Nat := 0
  refresh : Bool := false
  rebuild : Bool := false
  gcsrc : Bool := false
  orphans : Bool := false
  wlcold : Bool := false
  /-- it receives only garbage-collection copies (R478) -/
  forGc : Bool := false
  blk : List (Nat × Nat) := []
  deriving DecidableEq, Repr, Inhabited

/-- A run-map entry (R465). -/
structure Run where
  unit : Nat := 0
  seg : Nat := 0
  slot : Nat := 0
  count : Nat := 0
  deriving DecidableEq, Repr, Inhabited

/-- A namespace's unit space and maps (NSCFG, NSRES hold its settings). -/
structure Namespace where
  wp : Nat := 0
  low : Nat := 0
  /-- released unit ranges, inclusive (R461) -/
  released : List (Nat × Nat) := []
  runs : List Run := []
  lost : List Nat := []
  full : Bool := false
  /-- records of the open ledger unit (R469) -/
  ledgerUnit : List Rec := []
  /-- sealed stripes with units to place, JSN order (R471) -/
  toPlace : List Nat := []
  /-- units to be placed again (R385, R412) -/
  redo : List SlotUse := []
  cur : Option Nat := none
  ahead : Option Nat := none
  /-- the superpage being filled -/
  filling : Option Superpage := none
  /-- what the mapped units hold on NAND: unit number and bytes (ciphertext, or a ledger unit's records) -/
  stored : List (Nat × Bytes) := []
  deriving DecidableEq, Repr, Inhabited

/-- A sealed stripe in the journal. -/
structure JStripe where
  jsn : Nat := 0
  cust : Nat := 0
  ns : Nat := 0
  keyver : Nat := 0
  /-- first internal unit number (R456) -/
  unit : Nat := 0
  data : Bytes := []
  tiles : List Nat := []
  seq : Nat := 0
  /-- encrypted and out of stripe SRAM (R149, R272) -/
  encrypted : Bool := false
  cipher : Bytes := []
  /-- unit indices not yet in a superpage, and not yet mapped -/
  unplaced : List Nat := []
  unmapped : List Nat := []
  deriving DecidableEq, Repr, Inhabited

/-- State of a tile (R433, R435). -/
inductive TileSt where
  | free | taken | sealed
  deriving DecidableEq, Repr, Inhabited

/-- The kind of a metadata-log entry (table *Log entry types*). -/
inductive LogBody where
  | pad (n : Nat)
  | ledger (jsn : Nat) (head : Bytes) (r : Rec)
  | mapdelta (ns reason count unit seg slot oldSeg oldSlot : Nat)
  | frelease (first count : Nat)
  | segstate (seg st ns erases flags : Nat)
  | reclaim (ns newLow : Nat)
  | release (ns fromU toU : Nat)
  | badblk (channel lun block : Nat)
  | timeck (evt mono : Nat)
  | ckpt (slot cklsn : Nat)
  | nscfg (ns cls en reserve quota : Nat)
  | lost (ns unit : Nat)
  deriving DecidableEq, Repr, Inhabited

/-- A log entry in the ring: LSN, ring offset, body. -/
structure LogEntry where
  lsn : Nat := 0
  off : Nat := 0
  body : LogBody := .timeck 0 0
  /-- a LEDGER entry whose ledger unit is mapped (R474); other entries are placed from the start -/
  placed : Bool := true
  deriving DecidableEq, Repr, Inhabited

/-- Garbage-collection phase (GCSTAT.STATE). -/
inductive GcSt where
  | idle | copy | verify | urgent
  deriving DecidableEq, Repr, Inhabited

/-- The collection in progress: source, destination, units still to be read, units read, destination superpages formed. -/
structure Gc where
  st : GcSt := .idle
  src : Option Nat := none
  dst : Option Nat := none
  reading : List (Nat × Nat × Nat) := []
  got : List SlotUse := []
  deriving DecidableEq, Repr, Inhabited

/-- An export read job (table *Read job status*): the segments it references, units still to deliver. -/
structure ReadJob where
  id : Nat := 0
  segs : List Nat := []
  left : Nat := 0
  rebuilt : Bool := false
  lostAny : Bool := false
  done : Bool := false
  aborted : Bool := false
  deriving DecidableEq, Repr, Inhabited

/-- Twill, the media side. -/
structure Media where
  ch : List Channel := List.replicate 8 {}
  geo : Option Geometry := none
  /-- parked LDPC lanes: decoders 0–15, encoders 16–19 (R421–R424) -/
  ldpcParked : List Nat := []
  decTest : Nat := 0
  encTest : Nat := 0
  rrTable : List (Nat × Byte) := []
  pairTable : List (Nat × Nat) := []
  superpages : List Superpage := []
  jobs : List ReadJob := []
  rdAbortStat : Nat := 0
  /-- LOSTCNT (keep) -/
  lostCnt : Nat := 0
  /-- segments in use by the geometry record -/
  segCount : Nat := 0
  /-- EVT of the last patrol read (R401) -/
  patrolEvt : Nat := 0
  deriving DecidableEq, Repr, Inhabited

/-- Twill, the journal side. -/
structure Journal where
  tiles : List TileSt := List.replicate 1792 .free
  next : Nat := 0
  jsn : Nat := 0
  wear : Nat := 0
  stripes : List JStripe := []
  /-- log entries not yet behind the tail, oldest first -/
  log : List LogEntry := []
  lsn : Nat := 0
  logOff : Nat := 0
  logStopped : Bool := false
  /-- entries that wait for log space outside the last breath's reserve (R442, notes/assumptions/23.md) -/
  logWait : List LogBody := []
  /-- a checkpoint runs, with its CKLSN (R443) -/
  ckRunning : Option Nat := none
  ckSlot : Bool := false
  ckLsn : Nat := 0
  ckMerge : Nat := 0
  /-- table pages of the running checkpoint that are not yet safe -/
  ckPages : Nat := 0
  /-- the snapshot's bytes (table *Checkpoint slot contents*) -/
  ckImage : Bytes := []
  replaying : Bool := true
  /-- table pages have been read: placement may begin (R494) -/
  tablesRead : Bool := false
  field : Bool := false
  /-- EVT and MONO of the last TIMECK entry (R439) -/
  timeckEvt : Nat := 0
  timeckMono : Nat := 0
  /-- namespaces 0–15 and, at 16, the system area (R467) -/
  ns : List Namespace := List.replicate 17 {}
  segs : List (Nat × Seg) := []
  gc : Gc := {}
  replayUs : Nat := 0
  scrubEvt : Nat := 0
  /-- highest line position in any ledger record (checkpoint slot, R61) -/
  topPos : Pos := {}
  deriving DecidableEq, Repr, Inhabited

end Sys2Proof.Machine
end

