-- ==== Sys2Proof/Machine/Operand.lean ====
section
/-!
DEFINITION. The kinds of operands that commands carry where they report a physical outcome: what a header looked like, how
a NAND operation or a PK run ended, which lanes fail their test.
-/

namespace Sys2Proof.Machine

/-- What channel initialisation finds on one channel: its targets, whether training passed within two tries, the TRAIN
result, RB_N stuck (R362, R363). -/
structure Probe where
  targets : List Target := []
  trained : Bool := true
  train : Nat := 0
  rbStuck : Bool := false
  deriving DecidableEq, Repr, Inhabited

/-- How a packet header arrives (table *Camera packet errors*). -/
inductive Header where
  | ok | corrected | uncorrectable
  deriving DecidableEq, Repr, Inhabited

/-- The outcome of both runs of a job (R334, R335, R338, R339). -/
inductive PkCheck where
  | agree | repeatFault | selfVerify | ramEcc
  deriving DecidableEq, Repr, Inhabited

/-- How a NAND operation ends: program or erase passed, with the read-back of its page (the worst corrected bits of a
codeword, none when one does not decode at rung 1); FAIL; or a read, by what each rung of the ladder would give
(R359, R376, R383). -/
inductive NandRes where
  | pass (readback : Option Nat)
  | fail
  | read (hard : Option (Nat × Nat)) (retry : Option (Nat × Nat)) (soft : Option Nat) (rebuilt : Bool)
  deriving DecidableEq, Repr, Inhabited

/-- Which of the two units. -/
inductive UnitId where
  | digest | cipher
  deriving DecidableEq, Repr, Inhabited

/-- Lanes that would fail the lane tests of a CAL window with class bit 2 (R296, R423). -/
structure LaneFails where
  digest : List Nat := []
  cipher : List Nat := []
  ldpc : List Nat := []
  deriving DecidableEq, Repr, Inhabited

/-- What the initialisation of a card finds (R717–R720): it reaches ready in time and belongs to a supported kind; it accepts
UHS-I and the voltage switch succeeds; CID, capacity in blocks; the modes it offers, one bit per SPEED code; the taps that
pass, one 64-bit mask per sweep; the die temperature; the write protects that its CSD and its user area show. -/
structure CardInit where
  ready : Bool := true
  uhs : Bool := false
  switchOk : Bool := true
  cid : Bytes := []
  blocks : Nat := 0
  modes : Nat := 0
  sweeps : List Nat := []
  temp : Int := 250
  wpTmp : Bool := false
  wpPerm : Bool := false
  wpArea : Bool := false
  deriving DecidableEq, Repr, Inhabited

/-- How a card command ends: its response and the data of a read; a CRC failure with the taps that pass in the sweep that
follows; no response. -/
inductive CardOut where
  | done (resp : List Word) (data : Bytes)
  | crc (sweep : Nat)
  | silent
  deriving DecidableEq, Repr, Inhabited

/-- What the hardware finds on its way from a reset to the first instruction (tables *Reset sequence* and *From reset
release*): fuse words whose three references differ from their programmed bits, the die temperature in 0.1 °C, XIN within
its window, PLLs that do not lock, core SRAM or lockstep self-test groups that fail, channel initialisation, torn log
entries, the replay time in µs, lanes that fail their known-answer test, whether the entropy start-up test passes, BOOT0 and
BOOT1, the level of PFAIL_N at reset release. -/
structure BootOut where
  senses : List Sense := []
  temp : Int := 250
  xinOk : Bool := true
  pllBad : List Nat := []
  lsGroups : Nat := 0
  probes : List Probe := []
  torn : Nat := 0
  replayUs : Nat := 0
  lanes : LaneFails := {}
  entropyOk : Bool := true
  straps : Nat := 0
  pfailN : Bool := true
  deriving DecidableEq, Repr, Inhabited

/-- What an environment reports to a procedure that looks at hardware: factory bad blocks (R367), lanes that fail their
known-answer test (R296). -/
structure ProcEnv where
  bad : List (Nat × Nat × Nat) := []
  badDigest : List Nat := []
  badCipher : List Nat := []
  deriving DecidableEq, Repr, Inhabited

/-- Where a dictionary or YDP request stands when the engine takes it up: the oldest local descriptor (R593), the oldest
driver-card request (R778), a mailbox slot (R682), or a YDP frame on carrier 0, 1 (CAN) or 2 (UART) with its 29-bit
identifier and payload (R604, R661). -/
inductive ReqIn where
  | loc
  | card
  | mbox (slot : Fin 4)
  | ydp (carrier : Fin 3) (id : BitVec 29) (payload : Bytes)
  deriving DecidableEq, Repr

/-- A cause of link loss (R710). -/
inductive LinkCause where
  | perst | down | hotReset | flr | d3 | bmeCleared
  deriving DecidableEq, Repr, Inhabited

/-- What the surroundings decide when a register is written: lanes that fail a lane test at once, whether a block that must
be idle is so, the die temperature, whether a second half of a shadow pair comes within 16 core cycles, characters that a
card took before, whether an abort meets a completion latched on its edge, buffers past their arbitration point, how a
card command aborted on its edge ended, what a procedure finds. -/
structure WriteEnv where
  lf : LaneFails := {}
  idle : Bool := true
  temp : Int := 250
  inTime : Bool := true
  sent : Nat := 0
  refused : Bool := false
  tie : Bool := false
  late : Word := 0
  cardTie : Option CardOut := none
  proc : ProcEnv := {}
  deriving DecidableEq, Repr, Inhabited

/-- How a word of SECDED memory reads (R889–R891). -/
inductive Ecc where
  | ok | corrected | uncorrectable
  deriving DecidableEq, Repr, Inhabited

/-- What the surroundings of an instruction decide: its instant, how the words of its fetch and of its data read (of a fill's
16 words, which one), the word that the host answers to a read of the outbound window (none: the completion fails, R714),
and what a register write meets. -/
structure CoreEnv where
  t : Nat := 0
  fetch : Ecc := .ok
  data : Ecc := .ok
  which : Fin 16 := 0
  host : Option Word := none
  io : WriteEnv := {}
  deriving DecidableEq, Repr, Inhabited

/-- A register as the writer addresses it: a Serge-view address (R43, R44), or the word of an offset in the host's BAR0 or BAR2
(R674–R676). -/
inductive RegAddr where
  | dev (a : Word)
  | bar0 (word : BitVec 14)
  | bar2 (word : BitVec 18)
  deriving DecidableEq, Repr, Inhabited

end Sys2Proof.Machine
end

