-- ==== Sys2Proof/Syntax.lean ====
section
/-!
DEFINITION. The commands of the TZ-960, one constructor per row of spec/opcode_table.json. `t` is the instant of the command in
nanoseconds (notes/assumptions/2.md); what the surroundings decide stands in further operands. An instruction of Serge carries
its surroundings in `env`.
-/

namespace Sys2Proof

open Sys2Proof.Machine

/-- A command. -/
inductive Instr where
  /-- REF_FRAME_START (R63) -/
  | refFrameStart (t : Nat) (lf : LaneFails)
  /-- FLYWHEEL_FRAME_START (R72) -/
  | flywheelFrameStart (t : Nat) (lf : LaneFails)
  /-- REFLOST_TAKEOVER (R71) -/
  | reflostTakeover (t : Nat) (lf : LaneFails)
  /-- FRAME_END (R81) -/
  | frameEnd (t : Nat) (lf : LaneFails)
  /-- LINE_TICK (R58) -/
  | lineTick (t : Nat) (lf : LaneFails)
  /-- COMMIT_POINT_TIMER (R99) -/
  | commitPointTimer (t : Nat)
  /-- FSYNC_OUT_FRAME_PULSE (R103) -/
  | fsyncOutFramePulse (t : Nat) (n : Fin 2)
  /-- PULSE_END (R104) -/
  | pulseEnd (t : Nat) (n : Fin 32)
  /-- CANVAS_DISABLE (R108) -/
  | canvasDisable (t : Nat) (lf : LaneFails)
  /-- CANVAS_ENABLE (R110) -/
  | canvasEnable (t : Nat) (lf : LaneFails)
  /-- APPLY (R95) -/
  | apply (t : Nat)
  /-- LONG_PACKET (R117) -/
  | longPacket (t : Nat) (p : Fin 4) (vc : Fin 16) (dt : BitVec 6) (wc : BitVec 16) (payload : Bytes) (h : Header) (crcOk : Bool)
  /-- FS_PACKET (R124) -/
  | fsPacket (t : Nat) (p : Fin 4) (vc : Fin 16)
  /-- FE_PACKET (R125) -/
  | fePacket (t : Nat) (p : Fin 4) (vc : Fin 16)
  /-- DESKEW_SEQUENCE (R115) -/
  | deskewSequence (t : Nat) (p : Fin 4) (aligned : Bool)
  /-- BYTE_ACCEPTED (R120) -/
  | byteAccepted (t : Nat) (cam : Fin 4)
  /-- STRIPE_RECORD_WRITTEN (R40) -/
  | stripeRecordWritten (t : Nat) (c : Fin 64)
  /-- INVAL (R164) -/
  | inval (t : Nat) (n : Fin 64) (applyAt : Bool)
  /-- DOORBELL (R175) -/
  | doorbell (t : Nat) (d : Fin 64) (tail : BitVec 10)
  /-- DESCRIPTOR_FETCH_DONE (R133) -/
  | descriptorFetchDone (t : Nat) (d : Fin 64) (ok : Bool) (b : Bytes)
  /-- DOOR_DATA_READ_DONE (R140) -/
  | doorDataReadDone (t : Nat) (d : Fin 64) (ok : Bool) (b : Bytes)
  /-- DOOR_DISABLE (R143) -/
  | doorDisable (t : Nat) (d : Fin 64) (w : Word)
  /-- ANCHOR_NOW (R197) -/
  | anchorNow (t : Nat)
  /-- ANCHOR_SIGNED (R199) -/
  | anchorSigned (t : Nat)
  /-- EPOCH_NOW (R202) -/
  | epochNow (t : Nat)
  /-- TIMEMAP_NOW (R189) -/
  | timemapNow (t : Nat)
  /-- TIMEMAP_PERIOD (R189) -/
  | timemapPeriod (t : Nat)
  /-- EPOCH_SEQUENCE_START (R205) -/
  | epochSequenceStart (t : Nat)
  /-- EPOCH_KEYGEN_DONE (R346) -/
  | epochKeygenDone (t : Nat)
  /-- EPOCH_SIGNED (R205) -/
  | epochSigned (t : Nat)
  /-- KEYWRAP (R211) -/
  | keywrap (t : Nat) (c : Fin 64) (kind alg : BitVec 2) (src : BitVec 16)
  /-- KEYWRAP_DONE (R211) -/
  | keywrapDone (t : Nat)
  /-- ALLOC (R230) -/
  | alloc (t : Nat) (n : Fin 256)
  /-- ZEROIZE (R230) -/
  | zeroize (t : Nat) (h : BitVec 16)
  /-- NARROW (R233) -/
  | narrow (t : Nat) (h : BitVec 16)
  /-- GENERATE (R234) -/
  | generate (t : Nat) (n : Fin 256) (h : BitVec 16)
  /-- IMPORT (R236) -/
  | importKey (t : Nat) (h : BitVec 16)
  /-- KEYMOVE (R265) -/
  | keymove (t : Nat) (n : Fin 256) (ctx : BitVec 16)
  /-- RESTORE (R271) -/
  | restore (t : Nat) (n : Fin 256) (ctx : BitVec 16)
  /-- FELT_WRITE_THROUGH_DONE (R238) -/
  | feltWriteThroughDone (t : Nat) (n : Fin 16)
  /-- DIGEST_SUBMIT (R250) -/
  | digestSubmit (t : Nat) (a : Word)
  /-- DIGEST_JOB_START (R251) -/
  | digestJobStart (t : Nat)
  /-- DIGEST_JOB_DONE (R252) -/
  | digestJobDone (t : Nat) (l : Fin 8) (ue : Bool)
  /-- DIGEST_ABORT (R301) -/
  | digestAbort (t : Nat) (a : Word) (tie : Bool)
  /-- CIPHER_SUBMIT (R262) -/
  | cipherSubmit (t : Nat) (a : Word)
  /-- CIPHER_JOB_START (R266) -/
  | cipherJobStart (t : Nat)
  /-- CIPHER_JOB_DONE (R282) -/
  | cipherJobDone (t : Nat) (l : Fin 8) (ue : Bool)
  /-- CIPHER_ABORT (R301) -/
  | cipherAbort (t : Nat) (a : Word) (tie : Bool)
  /-- CTXSEL_COMMIT (R263) -/
  | ctxselCommit (t : Nat) (ctx : BitVec 7) (ty : BitVec 3) (du : Bool)
  /-- STRIPE_ENCRYPT (R272) -/
  | stripeEncrypt (t jsn : Nat) (ue : Option Word)
  /-- LANE_MISMATCH (R297) -/
  | laneMismatch (t : Nat) (u : UnitId) (l : Fin 8)
  /-- SELFTEST (R296) -/
  | selftest (t : Nat) (princ : BitVec 4) (env : ProcEnv)
  /-- HEALTH_TEST_FAILURE (R289) -/
  | healthTestFailure (t : Nat)
  /-- START_UP_TEST_DONE (R288) -/
  | startUpTestDone (t : Nat)
  /-- DRBG_REQUEST (R293) -/
  | drbgRequest (t : Nat) (n : Fin 4096)
  /-- DRBG_WAIT_EXPIRY (R293) -/
  | drbgWaitExpiry (t : Nat)
  /-- OUT_READ (R294) -/
  | outRead (t : Nat)
  /-- PK_SUBMIT (R313) -/
  | pkSubmit (t : Nat) (a : Word)
  /-- PK_JOB_START (R322) -/
  | pkJobStart (t : Nat)
  /-- PK_JOB_DONE (R319) -/
  | pkJobDone (t : Nat) (check : PkCheck)
  /-- PREEMPT (R323) -/
  | preempt (t : Nat)
  /-- PK_ABORT (R350) -/
  | pkAbort (t : Nat) (a : Word) (tie : Bool)
  /-- PK_GATE (R341) -/
  | pkGate (t : Nat)
  /-- PK_WIPE_DONE (R328) -/
  | pkWipeDone (t : Nat)
  /-- NAND_OPERATION_DONE (R359) -/
  | nandOperationDone (t : Nat) (n : Fin 8) (j : Fin 16) (res : NandRes) (badLane : Option (Fin 20))
  /-- NAND_OPERATION_ISSUE (R355) -/
  | nandOperationIssue (t : Nat) (n : Fin 8) (rbHigh : Bool)
  /-- MEDIA_INIT (R367) -/
  | mediaInit (t : Nat) (princ : BitVec 4) (env : ProcEnv)
  /-- PAIRDATA_WRITE (R388) -/
  | pairdataWrite (t : Nat) (v : BitVec 16)
  /-- RRDATA_WRITE (R399) -/
  | rrdataWrite (t : Nat) (w : Word)
  /-- OFFDATA_WRITE (R391) -/
  | offdataWrite (t : Nat) (n : Fin 8) (v : BitVec 8)
  /-- SUPERPAGE_PROGRAM (R382) -/
  | superpageProgram (t : Nat) (n : Fin 17)
  /-- FILLMAX_EXPIRY (R382) -/
  | fillmaxExpiry (t : Nat) (n : Fin 17)
  /-- PAIRMAX_EXPIRY (R390) -/
  | pairmaxExpiry (t k : Nat)
  /-- PROBE (R394) -/
  | probe (t : Nat) (n : Fin 8) (j : Fin 16) (decoded : Bool) (mism : List Nat)
  /-- SCRUB_PATROL (R401) -/
  | scrubPatrol (t : Nat)
  /-- OPERATION_OVERDUE (R406) -/
  | operationOverdue (t : Nat) (n : Fin 8) (j : Fin 16)
  /-- OPERATION_TIMEOUT (R407) -/
  | operationTimeout (t : Nat) (n : Fin 8) (j : Fin 16) (completed : Bool)
  /-- RBSTUCK_EXPIRY (R409) -/
  | rbstuckExpiry (t : Nat) (n : Fin 8)
  /-- ENCODER_LANE_FAILURE (R422) -/
  | encoderLaneFailure (t : Nat) (lane : Fin 4)
  /-- RDABORT (R425) -/
  | rdabort (t : Nat) (id : BitVec 16) (tie : Bool)
  /-- CHECKPOINT_NOW (R443) -/
  | checkpointNow (t : Nat)
  /-- CHECKPOINT_START (R443) -/
  | checkpointStart (t : Nat)
  /-- CHECKPOINT_DONE (R444) -/
  | checkpointDone (t : Nat)
  /-- TIMECK (R439) -/
  | timeck (t : Nat)
  /-- MRAM_SCRUB (R448) -/
  | mramScrub (t corrected : Nat)
  /-- FIELD_SENSOR_ASSERT (R450) -/
  | fieldSensorAssert (t : Nat)
  /-- FIELD_SENSOR_DEASSERT (R451) -/
  | fieldSensorDeassert (t corrected : Nat) (badTile : Bool)
  /-- HOLD_RELEASE (R461) -/
  | holdRelease (t : Nat) (princ : BitVec 4) (n : BitVec 8) (lo hi : BitVec 64)
  /-- NS_PURGE (R462) -/
  | nsPurge (t : Nat) (princ : BitVec 4) (n : BitVec 8)
  /-- SEGMENT_ALLOCATION (R486) -/
  | segmentAllocation (t : Nat) (n : Fin 17) (gc : Bool)
  /-- SEGMENT_ERASE_DONE (R487) -/
  | segmentEraseDone (t k : Nat)
  /-- GC_COPY (R479) -/
  | gcCopy (t : Nat)
  /-- READ_JOB_END (R485) -/
  | readJobEnd (t id : Nat)
  /-- TABLE_PAGES_READ (R494) -/
  | tablePagesRead (t : Nat)
  /-- PFAIL_N_FALL (R510) -/
  | pfailNFall (t : Nat)
  /-- LAST_BREATH_FLUSH (R515) -/
  | lastBreathFlush (t : Nat)
  /-- NAND_PARK (R518) -/
  | nandPark (t : Nat)
  /-- PARK (R507) -/
  | park (t : Nat)
  /-- OPEN (R542) -/
  | openRecording (t : Nat)
  /-- IGNITION_PARK (R506) -/
  | ignitionPark (t : Nat)
  /-- WAKE (R504) -/
  | wake (t : Nat) (src : Fin 4)
  /-- WARMPOR_HOLD (R505) -/
  | warmporHold (t : Nat)
  /-- POR (R1119) -/
  | por (t : Nat) (o : BootOut)
  /-- SUPPLY_MONITOR_FALL (R1119) -/
  | supplyMonitorFall (t : Nat) (io18Lost : Bool)
  /-- FULL_RESET (R526) -/
  | fullReset (t : Nat) (o : BootOut)
  /-- RSTREQ (R528) -/
  | rstreq (t : Nat)
  /-- RESET (R529) -/
  | reset (t : Nat)
  /-- RST_N_FALL (R533) -/
  | rstNFall (t : Nat)
  /-- RST_N_RISE (R533) -/
  | rstNRise (t : Nat)
  /-- RSTHOLD_MAX_EXPIRY (R535) -/
  | rstholdMaxExpiry (t : Nat)
  /-- RST_N_REARM (R535) -/
  | rstNRearm (t : Nat)
  /-- PFAIL_STUCK_CHECK (R538) -/
  | pfailStuckCheck (t : Nat)
  /-- INGEST_OPEN_AFTER_PFAIL (R539) -/
  | ingestOpenAfterPfail (t : Nat)
  /-- RECORDING_RESUME (R544) -/
  | recordingResume (t : Nat)
  /-- READ (R576) -/
  | read (t : Nat) (r : ReqIn) (env : ProcEnv) (tie : Bool)
  /-- WRITE (R576) -/
  | write (t : Nat) (r : ReqIn) (env : ProcEnv) (tie : Bool)
  /-- READ_SEG (R650) -/
  | readSeg (t : Nat) (r : ReqIn) (env : ProcEnv) (tie : Bool)
  /-- WRITE_SEG (R589) -/
  | writeSeg (t : Nat) (r : ReqIn) (env : ProcEnv) (tie : Bool)
  /-- SEGMENT (R648) -/
  | segment (t : Nat) (r : ReqIn) (env : ProcEnv) (tie : Bool)
  /-- BLOCK_ACK (R649) -/
  | blockAck (t : Nat) (r : ReqIn) (env : ProcEnv) (tie : Bool)
  /-- ABORT (R651) -/
  | abort (t : Nat) (r : ReqIn) (env : ProcEnv) (tie : Bool)
  /-- BLOCK_GAP_EXPIRY (R649) -/
  | blockGapExpiry (t n : Nat)
  /-- SEGTMO_EXPIRY (R591) -/
  | segtmoExpiry (t n : Nat)
  /-- LSUBMIT (R593) -/
  | lsubmit (t : Nat) (a : Word)
  /-- FWRSP (R596) -/
  | fwrsp (t : Nat) (w : Word)
  /-- FWTMO_EXPIRY (R583) -/
  | fwtmoExpiry (t : Nat) (i : Fin 8)
  /-- FWSERVE (R582) -/
  | fwserve (t : Nat) (v : Bool)
  /-- RESTORE_DEFAULTS (R573) -/
  | restoreDefaults (t : Nat) (princ : BitVec 4) (arg : BitVec 16)
  /-- CLEAR_STICKY (R1099) -/
  | clearSticky (t : Nat) (princ : BitVec 4) (n : BitVec 8)
  /-- CAN_FRAME_RECEIVE (R607) -/
  | canFrameReceive (t : Nat) (n : Fin 2) (fr : CanFrame) (ts : BitVec 16) (env : ProcEnv) (tie : Bool)
  /-- SESSION_OPEN (R632) -/
  | sessionOpen (t : Nat) (c : Fin 3) (id : BitVec 29) (p : Bytes)
  /-- RESPONSE (R634) -/
  | response (t : Nat) (c : Fin 3) (id : BitVec 29) (p : Bytes)
  /-- PHASE_3_TIMEOUT (R634) -/
  | phase3Timeout (t : Nat) (i : Fin 8)
  /-- SESSION_CLOSE (R638) -/
  | sessionClose (t : Nat) (r : ReqIn) (env : ProcEnv) (tie : Bool)
  /-- IDLE_EXPIRY (R638) -/
  | idleExpiry (t : Nat) (i : Fin 8)
  /-- SUSPEND_EXPIRY (R637) -/
  | suspendExpiry (t : Nat) (i : Fin 8)
  /-- HEARTBEAT (R641) -/
  | heartbeat (t : Nat) (r : ReqIn) (env : ProcEnv) (tie : Bool)
  /-- HEARTBEAT_PERIOD (R658) -/
  | heartbeatPeriod (t : Nat)
  /-- FWNOTIFY (R656) -/
  | fwnotify (t : Nat) (w : Word)
  /-- TXREQ (R606) -/
  | txreq (t : Nat) (n : Fin 2) (mask : Word)
  /-- TXCANCEL (R663) -/
  | txcancel (t : Nat) (n : Fin 2) (mask late : Word)
  /-- CAN_TX_DONE (R664) -/
  | canTxDone (t : Nat) (n : Fin 2) (err : Bool)
  /-- SESS_CLOSE_GO (R638) -/
  | sessCloseGo (t : Nat) (i : Fin 8)
  /-- BUS_OFF (R665) -/
  | busOff (t : Nat) (n : Fin 2)
  /-- BUS_OFF_RECOVERY (R665) -/
  | busOffRecovery (t : Nat) (n : Fin 2)
  /-- CCTRL_MODE_WRITE (R665) -/
  | cctrlModeWrite (t : Nat) (n : Fin 2) (w : Word)
  /-- STUCK (R666) -/
  | stuck (t : Nat) (n : Fin 2)
  /-- STUCK_RECHECK (R666) -/
  | stuckRecheck (t : Nat) (n : Fin 2) (recessive : Bool)
  /-- TSCNT_WRAP (R611) -/
  | tscntWrap (t : Nat) (n : Fin 2)
  /-- POP (R690) -/
  | pop (t : Nat) (q : Option (Fin 2))
  /-- RSPVALID_CLEAR (R683) -/
  | rspvalidClear (t : Nat) (k : Fin 4)
  /-- LINK_LOSS (R710) -/
  | linkLoss (t : Nat) (c : LinkCause)
  /-- START (R696) -/
  | start (t : Nat) (r : Fin 8)
  /-- FIRST_PASS_DONE (R703) -/
  | firstPassDone (t : Nat) (id : Fin 9)
  /-- RDPTR_WRITE (R698) -/
  | rdptrWrite (t : Nat) (r : Fin 8) (v : BitVec 64)
  /-- STATUS_BLOCK (R699) -/
  | statusBlock (t : Nat) (r : Fin 8)
  /-- STALL_EXPIRY (R700) -/
  | stallExpiry (t : Nat) (r : Fin 8)
  /-- READ_DOOR_ABORT (R709) -/
  | readDoorAbort (t : Nat) (r : Fin 8) (tie : Bool)
  /-- READ_DOOR_COMPLETION (R709) -/
  | readDoorCompletion (t : Nat) (r : Fin 8)
  /-- VSEL_WRITE (R679) -/
  | vselWrite (t : Nat) (n : Fin 64) (v : BitVec 6)
  /-- INSERTION (R718) -/
  | insertion (t : Nat) (p : Fin 2)
  /-- CARD_READY (R719) -/
  | cardReady (t : Nat) (p : Fin 2) (r : CardInit)
  /-- REMOVAL (R736) -/
  | removal (t : Nat) (p : Fin 2)
  /-- CMD (R740) -/
  | cmd (t : Nat) (p : Fin 2) (w : Word)
  /-- CARD_TRANSFER_DONE (R742) -/
  | cardTransferDone (t : Nat) (p : Fin 2) (out : CardOut)
  /-- PABORT (R742) -/
  | pabort (t : Nat) (p : Fin 2) (tie : Option CardOut)
  /-- BUSY_TIMEOUT (R734) -/
  | busyTimeout (t : Nat) (p : Fin 2)
  /-- RETUNE_TRIGGER (R725) -/
  | retuneTrigger (t : Nat) (p : Fin 2) (temp : Int)
  /-- RETUNE_STEP (R724) -/
  | retuneStep (t : Nat) (p : Fin 2) (mask : Nat) (temp : Int)
  /-- REINIT (R735) -/
  | reinit (t : Nat) (p : Fin 2)
  /-- SLEEP (R722) -/
  | sleep (t : Nat)
  /-- EXPORT_START (R745) -/
  | exportStart (t : Nat) (princ : BitVec 4)
  /-- EXPORT_ABORT (R753) -/
  | exportAbort (t : Nat) (princ : BitVec 4) (tie : Bool)
  /-- EXPORT_COMPLETION (R750) -/
  | exportCompletion (t : Nat)
  /-- COURT_COPY (R759) -/
  | courtCopy (t : Nat) (princ : BitVec 4) (target : BitVec 8)
  /-- COURT_COPY_TIMEOUT (R760) -/
  | courtCopyTimeout (t : Nat)
  /-- PRESENCE (R762) -/
  | presence (t : Nat) (i : Fin 2) (level : Bool)
  /-- ACTIVATE (R763) -/
  | activate (t : Nat) (i : Fin 2)
  /-- ATR (R765) -/
  | atr (t : Nat) (i : Fin 2) (bs : Bytes) (parityBad : Bool)
  /-- ATR_TIMEOUT (R763) -/
  | atrTimeout (t : Nat) (i : Fin 2)
  /-- PPS_RESPONSE (R767) -/
  | ppsResponse (t : Nat) (i : Fin 2) (confirms : Bool)
  /-- DEACT (R772) -/
  | deact (t : Nat) (i : Fin 2)
  /-- IO_STUCK (R773) -/
  | ioStuck (t : Nat) (i : Fin 2)
  /-- OVERCURRENT (R774) -/
  | overcurrent (t : Nat) (i : Fin 2)
  /-- CLOCK_STOP (R771) -/
  | clockStop (t : Nat) (i : Fin 2)
  /-- TXFIFO_WRITE (R770) -/
  | txfifoWrite (t : Nat) (i : Fin 2) (b : Byte) (sent : Nat) (refused : Bool)
  /-- CHARACTER_RECEIVED (R770) -/
  | characterReceived (t : Nat) (i : Fin 2) (b : Byte) (parityErr : Bool)
  /-- AUTHCTL_START (R776) -/
  | authctlStart (t : Nat) (w : Word)
  /-- AUTHRSP_WRITE (R777) -/
  | authrspWrite (t : Nat) (k : Fin 4) (w : Word)
  /-- PREQ (R778) -/
  | preq (t : Nat) (a : Word)
  /-- ADD (R824) -/
  | add (rd rs1 rs2 : BitVec 5) (env : CoreEnv)
  /-- SUB (R824) -/
  | sub (rd rs1 rs2 : BitVec 5) (env : CoreEnv)
  /-- AND (R824) -/
  | and (rd rs1 rs2 : BitVec 5) (env : CoreEnv)
  /-- OR (R824) -/
  | or (rd rs1 rs2 : BitVec 5) (env : CoreEnv)
  /-- XOR (R824) -/
  | xor (rd rs1 rs2 : BitVec 5) (env : CoreEnv)
  /-- ANDN (R824) -/
  | andn (rd rs1 rs2 : BitVec 5) (env : CoreEnv)
  /-- SLL (R824) -/
  | sll (rd rs1 rs2 : BitVec 5) (env : CoreEnv)
  /-- SRL (R824) -/
  | srl (rd rs1 rs2 : BitVec 5) (env : CoreEnv)
  /-- SRA (R824) -/
  | sra (rd rs1 rs2 : BitVec 5) (env : CoreEnv)
  /-- ROR (R824) -/
  | ror (rd rs1 rs2 : BitVec 5) (env : CoreEnv)
  /-- SLT (R824) -/
  | slt (rd rs1 rs2 : BitVec 5) (env : CoreEnv)
  /-- SLTU (R824) -/
  | sltu (rd rs1 rs2 : BitVec 5) (env : CoreEnv)
  /-- MIN (R824) -/
  | min (rd rs1 rs2 : BitVec 5) (env : CoreEnv)
  /-- MAX (R824) -/
  | max (rd rs1 rs2 : BitVec 5) (env : CoreEnv)
  /-- MINU (R824) -/
  | minu (rd rs1 rs2 : BitVec 5) (env : CoreEnv)
  /-- MAXU (R824) -/
  | maxu (rd rs1 rs2 : BitVec 5) (env : CoreEnv)
  /-- CSEL (R824) -/
  | csel (rd rs1 rs2 : BitVec 5) (env : CoreEnv)
  /-- CLZ (R824) -/
  | clz (rd rs1 : BitVec 5) (env : CoreEnv)
  /-- CTZ (R824) -/
  | ctz (rd rs1 : BitVec 5) (env : CoreEnv)
  /-- POPC (R824) -/
  | popc (rd rs1 : BitVec 5) (env : CoreEnv)
  /-- BSWAP (R824) -/
  | bswap (rd rs1 : BitVec 5) (env : CoreEnv)
  /-- SEXTB (R824) -/
  | sextb (rd rs1 : BitVec 5) (env : CoreEnv)
  /-- SEXTH (R824) -/
  | sexth (rd rs1 : BitVec 5) (env : CoreEnv)
  /-- ZEXTH (R824) -/
  | zexth (rd rs1 : BitVec 5) (env : CoreEnv)
  /-- MUL (R824) -/
  | mul (rd rs1 rs2 : BitVec 5) (env : CoreEnv)
  /-- MULH (R824) -/
  | mulh (rd rs1 rs2 : BitVec 5) (env : CoreEnv)
  /-- MULHU (R824) -/
  | mulhu (rd rs1 rs2 : BitVec 5) (env : CoreEnv)
  /-- MULHSU (R824) -/
  | mulhsu (rd rs1 rs2 : BitVec 5) (env : CoreEnv)
  /-- DIV (R821) -/
  | div (rd rs1 rs2 : BitVec 5) (env : CoreEnv)
  /-- DIVU (R821) -/
  | divu (rd rs1 rs2 : BitVec 5) (env : CoreEnv)
  /-- REM (R821) -/
  | rem (rd rs1 rs2 : BitVec 5) (env : CoreEnv)
  /-- REMU (R821) -/
  | remu (rd rs1 rs2 : BitVec 5) (env : CoreEnv)
  /-- ADDI (R820) -/
  | addi (rd rs1 : BitVec 5) (imm : BitVec 14) (env : CoreEnv)
  /-- ANDI (R820) -/
  | andi (rd rs1 : BitVec 5) (imm : BitVec 14) (env : CoreEnv)
  /-- ORI (R820) -/
  | ori (rd rs1 : BitVec 5) (imm : BitVec 14) (env : CoreEnv)
  /-- XORI (R820) -/
  | xori (rd rs1 : BitVec 5) (imm : BitVec 14) (env : CoreEnv)
  /-- SLTI (R824) -/
  | slti (rd rs1 : BitVec 5) (imm : BitVec 14) (env : CoreEnv)
  /-- SLTIU (R824) -/
  | sltiu (rd rs1 : BitVec 5) (imm : BitVec 14) (env : CoreEnv)
  /-- SLLI (R824) -/
  | slli (rd rs1 shamt : BitVec 5) (env : CoreEnv)
  /-- SRLI (R824) -/
  | srli (rd rs1 shamt : BitVec 5) (env : CoreEnv)
  /-- SRAI (R824) -/
  | srai (rd rs1 shamt : BitVec 5) (env : CoreEnv)
  /-- RORI (R824) -/
  | rori (rd rs1 shamt : BitVec 5) (env : CoreEnv)
  /-- LUI (R824) -/
  | lui (rd : BitVec 5) (imm : BitVec 20) (env : CoreEnv)
  /-- PCA (R824) -/
  | pca (rd : BitVec 5) (imm : BitVec 20) (env : CoreEnv)
  /-- LB (R833) -/
  | lb (rd rs1 : BitVec 5) (imm : BitVec 14) (env : CoreEnv)
  /-- LBU (R833) -/
  | lbu (rd rs1 : BitVec 5) (imm : BitVec 14) (env : CoreEnv)
  /-- LH (R833) -/
  | lh (rd rs1 : BitVec 5) (imm : BitVec 14) (env : CoreEnv)
  /-- LHU (R833) -/
  | lhu (rd rs1 : BitVec 5) (imm : BitVec 14) (env : CoreEnv)
  /-- LW (R833) -/
  | lw (rd rs1 : BitVec 5) (imm : BitVec 14) (env : CoreEnv)
  /-- SB (R837) -/
  | sb (rd rs1 : BitVec 5) (imm : BitVec 14) (env : CoreEnv)
  /-- SH (R837) -/
  | sh (rd rs1 : BitVec 5) (imm : BitVec 14) (env : CoreEnv)
  /-- SW (R837) -/
  | sw (rd rs1 : BitVec 5) (imm : BitVec 14) (env : CoreEnv)
  /-- SWAP (R835) -/
  | swap (rd rs1 : BitVec 5) (imm : BitVec 14) (env : CoreEnv)
  /-- CAS (R835) -/
  | cas (rd rs1 rs2 : BitVec 5) (env : CoreEnv)
  /-- BEQ (R819) -/
  | beq (rs1 rs2 : BitVec 5) (off : BitVec 14) (env : CoreEnv)
  /-- BNE (R819) -/
  | bne (rs1 rs2 : BitVec 5) (off : BitVec 14) (env : CoreEnv)
  /-- BLT (R819) -/
  | blt (rs1 rs2 : BitVec 5) (off : BitVec 14) (env : CoreEnv)
  /-- BGE (R819) -/
  | bge (rs1 rs2 : BitVec 5) (off : BitVec 14) (env : CoreEnv)
  /-- BLTU (R819) -/
  | bltu (rs1 rs2 : BitVec 5) (off : BitVec 14) (env : CoreEnv)
  /-- BGEU (R819) -/
  | bgeu (rs1 rs2 : BitVec 5) (off : BitVec 14) (env : CoreEnv)
  /-- JMP (R819) -/
  | jmp (off : BitVec 20) (env : CoreEnv)
  /-- CALL (R790) -/
  | call (off : BitVec 20) (env : CoreEnv)
  /-- JALR (R827) -/
  | jalr (rd rs1 : BitVec 5) (imm : BitVec 14) (env : CoreEnv)
  /-- ENTER (R796) -/
  | enter (imm : BitVec 14) (env : CoreEnv)
  /-- LEAVE (R796) -/
  | leave (env : CoreEnv)
  /-- TDROP (R802) -/
  | tdrop (imm : BitVec 14) (env : CoreEnv)
  /-- TRAP (R857) -/
  | trap (imm : BitVec 11) (env : CoreEnv)
  /-- TRET (R815) -/
  | tret (env : CoreEnv)
  /-- WFI (R828) -/
  | wfi (env : CoreEnv)
  /-- FENCE (R843) -/
  | fence (imm : BitVec 11) (env : CoreEnv)
  /-- MOVS (R811) -/
  | movs (imm : BitVec 11) (rs1 : BitVec 5) (env : CoreEnv)
  /-- MOVG (R809) -/
  | movg (rd : BitVec 5) (imm : BitVec 11) (env : CoreEnv)
  /-- WFLUSH (R804) -/
  | wflush (env : CoreEnv)
  /-- INTERRUPT (R865) -/
  | interrupt (t : Nat)
  /-- NMI (R872) -/
  | nmi (t : Nat)
  /-- STOREERR (R883) -/
  | storeerr (t : Nat)
  /-- STORE_FAILURE (R882) -/
  | storeFailure (t : Nat)
  /-- STORE_BUFFER_DRAIN (R837) -/
  | storeBufferDrain (t : Nat)
  /-- EOI (R866) -/
  | eoi (t : Nat)
  /-- SWISET (R868) -/
  | swiset (t : Nat) (n : BitVec 8)
  /-- SWICLR (R868) -/
  | swiclr (t : Nat) (n : BitVec 8)
  /-- TIMER_ENABLE (R847) -/
  | timerEnable (t : Nat) (n : Fin 4) (w : Word)
  /-- TIMER_EXPIRY (R848) -/
  | timerExpiry (t : Nat) (n : Fin 4)
  /-- LOWWSP_WRITE (R853) -/
  | lowwspWrite (t : Nat)
  /-- WDSERVICE (R894) -/
  | wdservice (t : Nat) (v : BitVec 16)
  /-- WATCHDOG_TIMEOUT (R895) -/
  | watchdogTimeout (t : Nat)
  /-- WATCHDOG_WARNING (R896) -/
  | watchdogWarning (t : Nat)
  /-- LOCKSTEP_MISMATCH (R886) -/
  | lockstepMismatch (t : Nat) (parity : Bool)
  /-- SCRUB (R890) -/
  | scrub (t core stripe : Nat)
  /-- LOCK (R908) -/
  | lock (t : Nat) (k : Fin 12) (r : Fin 32) (w : Word)
  /-- ROOTSEL_GO (R922) -/
  | rootselGo (t : Nat) (r : Fin 41) (src : BitVec 2) (idle : Bool)
  /-- ROOT_SWITCH_DONE (R925) -/
  | rootSwitchDone (t : Nat) (r : Fin 41)
  /-- ROOT_SWITCH_TIMEOUT (R926) -/
  | rootSwitchTimeout (t : Nat) (r : Fin 41) (oldAlive : Bool)
  /-- XIN_WINDOW_FAIL (R948) -/
  | xinWindowFail (t count : Nat) (ended : Bool)
  /-- XINOK1S (R952) -/
  | xinok1s (t : Nat)
  /-- REFCLK_WINDOW_FAIL (R947) -/
  | refclkWindowFail (t count : Nat) (ended : Bool)
  /-- PLL_LOCK_LOSS (R957) -/
  | pllLockLoss (t : Nat) (p : Fin 6)
  /-- PLL_RETRY_EXPIRY (R958) -/
  | pllRetryExpiry (t : Nat) (p : Fin 6) (locked : Bool)
  /-- PLL_REFERENCE_LOSS (R918) -/
  | pllReferenceLoss (t : Nat) (p : Fin 6) (returned : Bool)
  /-- IRC96_TRIM_WINDOW (R941) -/
  | irc96TrimWindow (t count : Nat)
  /-- SSC_APPLY (R932) -/
  | sscApply (t : Nat) (p : Fin 6)
  /-- PLLOUT_WRITE (R937) -/
  | plloutWrite (t : Nat) (w : Word)
  /-- CLKOUTCFG_WRITE (R939) -/
  | clkoutcfgWrite (t : Nat) (n : Fin 2) (w : Word)
  /-- GATE_REQUEST (R961) -/
  | gateRequest (t : Nat) (r : Fin 3) (b : Fin 16) (idle : Bool)
  /-- GATE_TIMEOUT (R962) -/
  | gateTimeout (t : Nat) (r : Fin 3) (b : Fin 16)
  /-- GATE_OPEN (R963) -/
  | gateOpen (t : Nat) (r : Fin 3) (b : Fin 16)
  /-- ALARM (R974) -/
  | alarm (t : Nat)
  /-- PPS_EDGE (R982) -/
  | ppsEdge (t : Nat) (cap : BitVec 64)
  /-- PPS_LOSS (R988) -/
  | ppsLoss (t : Nat)
  /-- LEAP_SECOND (R991) -/
  | leapSecond (t : Nat)
  /-- SET_TIME (R993) -/
  | setTime (t : Nat) (princ : BitVec 4) (d : Bytes)
  /-- TAMPER_SAMPLE (R998) -/
  | tamperSample (t : Nat) (src : Fin 20) (v : Bool)
  /-- CELL_OUT (R1023) -/
  | cellOut (t : Nat)
  /-- GLITCH (R1120) -/
  | glitch (t : Nat)
  /-- XRTC_MONITOR_WINDOW (R1005) -/
  | xrtcMonitorWindow (t count : Nat)
  /-- SHADOW_MISMATCH (R1021) -/
  | shadowMismatch (t : Nat) (a : Word)
  /-- SHADOW_WRITE (R1019) -/
  | shadowWrite (t : Nat) (a w : Word) (inTime : Bool)
  /-- TBIST (R1015) -/
  | tbist (t : Nat) (princ : BitVec 4) (src : BitVec 8)
  /-- TBIST_DONE (R1017) -/
  | tbistDone (t : Nat) (pass : Bool)
  /-- SUPPLY_SWITCHOVER (R969) -/
  | supplySwitchover (t : Nat) (toVbat : Bool)
  /-- FELT_WRITE_LANDS (R1029) -/
  | feltWriteLands (t : Nat)
  /-- DATA (R1050) -/
  | fuseData (t : Nat) (a : BitVec 10) (d : Word) (temp : Int)
  /-- CRITICAL (R1050) -/
  | fuseCritical (t : Nat) (a : BitVec 10) (d : Word) (temp : Int)
  /-- THERMO (R1050) -/
  | fuseThermo (t : Nat) (a : BitVec 10) (d : Word) (temp : Int)
  /-- GENROOT (R1054) -/
  | genroot (t : Nat) (temp : Int)
  /-- FUSE_PROGRAMMING_DONE (R1051) -/
  | fuseProgrammingDone (t good : Nat) (part : Word)
  /-- FUSE_RESENSE (R1048) -/
  | fuseResense (t : Nat) (l : List Sense) (temp : Int)
  /-- LIFECYCLE_ADVANCE (R1060) -/
  | lifecycleAdvance (t : Nat) (princ : BitVec 4) (target : BitVec 8)
  /-- CERTCMD_GO (R1063) -/
  | certcmdGo (t : Nat)
  /-- RECOVERY_BLOCK (R1070) -/
  | recoveryBlock (t : Nat) (d : Bytes) (crcOk : Bool)
  /-- FW_OFFSET (R1077) -/
  | fwOffset (t : Nat) (v : Word)
  /-- FW_CHUNK (R1078) -/
  | fwChunk (t : Nat) (d : Bytes)
  /-- OSPI_OPERATION_DONE (R1075) -/
  | ospiOperationDone (t : Nat)
  /-- FW_COMMIT (R1079) -/
  | fwCommit (t : Nat) (princ : BitVec 4)
  /-- CONFIRM (R1081) -/
  | confirm (t : Nat) (key : BitVec 16) (temp : Int)
  /-- WARM_RESTART (R1082) -/
  | warmRestart (t : Nat)
  /-- DEBUG_CHALLENGE (R1087) -/
  | debugChallenge (t : Nat)
  /-- DEBUG_RESPONSE (R1089) -/
  | debugResponse (t : Nat) (sig : Bytes)
  /-- DIAGPUSH (R1106) -/
  | diagpush (t : Nat) (w : Word)
  /-- STANDING_RESET (R1100) -/
  | standingReset (t : Nat) (n : BitVec 8)
  /-- REGISTER_WRITE (R16) -/
  | registerWrite (t : Nat) (a : RegAddr) (w : Word) (env : WriteEnv)
  /-- ILLEGAL_INSTRUCTION (R818) -/
  | illegalInstruction (w : Word) (env : CoreEnv)
  /-- HS_BURST_END (R126) -/
  | hsBurstEnd (t : Nat) (p : Fin 4)
  /-- CAN_INTEGRATION (R665) -/
  | canIntegration (t : Nat) (n : Fin 2)
  /-- CAN_BUS_ERROR (R665) -/
  | canBusError (t : Nat) (n : Fin 2) (tx eight : Bool)
  /-- WAITING_TIME_EXPIRY (R770) -/
  | waitingTimeExpiry (t : Nat) (i : Fin 2)
  /-- LINK_UP (R713) -/
  | linkUp (t : Nat) (speed : BitVec 2) (width : BitVec 3) (bme msixEn : Bool)
  /-- FLR_COMPLETE (R711) -/
  | flrComplete (t : Nat)
  /-- XRTC_CYCLE (R977) -/
  | xrtcCycle (t : Nat)
  /-- VBAT_APPLIED (R969) -/
  | vbatApplied (t : Nat) (above2V : Bool)
  /-- FELT_SUPPLY_LOSS (R1024) -/
  | feltSupplyLoss (t : Nat)
  /-- POWER_UP_PMIC_EN (R1122) -/
  | powerUpPmicEn (t : Nat)
  deriving DecidableEq, Repr

end Sys2Proof
end

