-- ==== Sys2Proof/Decode.lean ====
section
/-!
DEFINITION. The decoder that the host asks: the commands that a word spells by the bits of spec/opcode_table.json. No row of that
table gives a bit, so no word spells a command (notes/assumptions/6.md). Serge's instruction words stand in
Machine/Instructions.lean, where the words of R816 to R818 are formed and told apart.
-/

namespace Sys2Proof

/-- The command that a word of `nbits` bits spells by the table's bits: none, for no row has bits. -/
def decodeTableWord (_nbits _w : Nat) : Option Instr := none

end Sys2Proof
end

