-- ==== Sys2Proof/Config.lean ====
section
/-!
DEFINITION. What the spec leaves to the implementation, to cited standards or to chance, as constants without a body:
nothing in Lean can evaluate them, so every claim holds for every value of them. The cryptographic functions are those
of the standards of R24, which the spec cites and does not define (notes/assumptions/3.md). The free values are applied
to the counter `State.freeCtr` or to operands (notes/assumptions/4.md).
-/

namespace Sys2Proof.Config

/-- SHA-256 of a byte string (FIPS 180-4). -/
opaque sha256 : Bytes → Bytes
/-- A digest by ALG code 0–4 of the table *Digest job descriptor*: SHA-256, -384, -512, SHA3-256, SHA3-512. -/
opaque digest : Nat → Bytes → Bytes
/-- HMAC by ALG code 0–2 (FIPS 198-1): key, message. -/
opaque hmac : Nat → Bytes → Bytes → Bytes
/-- AES-XTS encryption of one data unit (IEEE 1619): key, 16-byte tweak, plaintext. -/
opaque xtsEnc : Bytes → Bytes → Bytes → Bytes
/-- AES-XTS decryption of one data unit. -/
opaque xtsDec : Bytes → Bytes → Bytes → Bytes
/-- AES-GCM (SP 800-38D) encryption: key, IV, AAD, plaintext; ciphertext. -/
opaque gcmEnc : Bytes → Bytes → Bytes → Bytes → Bytes
/-- AES-GCM decryption: key, IV, AAD, ciphertext; plaintext. -/
opaque gcmDec : Bytes → Bytes → Bytes → Bytes → Bytes
/-- The AES-GCM tag over AAD and ciphertext: key, IV, AAD, ciphertext. -/
opaque gcmTag : Bytes → Bytes → Bytes → Bytes → Bytes
/-- AES key wrap (RFC 3394, or RFC 5649 with `true`): padded form, KEK, key data. -/
opaque kwWrap : Bool → Bytes → Bytes → Bytes
/-- AES key unwrap: padded form, KEK, wrapped data; none when the integrity check fails. -/
opaque kwUnwrap : Bool → Bytes → Bytes → Option Bytes
/-- The public key of a private key, by PK ALG code 1–4. -/
opaque pkPublic : Nat → Bytes → Bytes
/-- A signature: ALG code, private key, hash or message, the nonce's number. -/
opaque pkSign : Nat → Bytes → Bytes → Nat → Bytes
/-- Signature verification: ALG code, public key, hash or message, signature. -/
opaque pkVerify : Nat → Bytes → Bytes → Bytes → Bool
/-- The public key is a valid point on the curve and not the identity (R312): ALG code, public key. -/
opaque pkValid : Nat → Bytes → Bool
/-- ECDH or X25519 shared secret: ALG code, private key, peer public key. -/
opaque pkShared : Nat → Bytes → Bytes → Bytes
/-- The private key a KEYGEN makes from DRBG bytes: ALG code, the request's number. -/
opaque pkKeygen : Nat → Nat → Bytes
/-- RSA private operation: modulus bits, key block (p, q, dp, dq, qinv), input. -/
opaque rsaPriv : Nat → Bytes → Bytes → Bytes
/-- RSA public operation: modulus bits, input, modulus, exponent. -/
opaque rsaPub : Nat → Bytes → Bytes → Bytes → Bytes
/-- The P-256 scalar d = (x mod (n − 1)) + 1 of the boot-derived identity key (R242), from the 64 HMAC bytes. -/
opaque identityScalar : Bytes → Bytes
/-- The CMAC or MAC bytes a standard gives for YDP frames and card authentication: key, message. -/
opaque mac : Bytes → Bytes → Bytes

/-- The SECDED code of a fuse data word (R1035); the spec does not give the code. -/
opaque secded : Word → BitVec 8
/-- What a fuse data word reads as when word and code disagree: the corrected word, or none (R1045). -/
opaque secdedFix : Word → BitVec 8 → Option Word
/-- The CRC epilogue of a T=1 block agrees (ISO/IEC 7816-3): the whole block with its two epilogue bytes. -/
opaque edcCrc : Bytes → Bool
/-- A larger IRC96TRIM.CODE gives a higher frequency (R941 leaves the direction open). -/
opaque trimUp : Bool
/-- The factory public key X ‖ Y that the boot ROM holds (check 2 of the table *Image checks*). -/
opaque factoryKey : Bytes
/-- The public key that the first certificate of a stored chain carries (R1063). -/
opaque certPub : Bytes → Bytes
/-- Cycles beyond the table's that instruction number `n` takes: stalls, drains, waits. -/
opaque stallCycles : Nat → Nat

/-- DRBG output byte `i` of request `n`: random data (R290). -/
opaque drbgByte : Nat → Nat → Byte
/-- A byte whose value the spec leaves undefined. -/
opaque freeByte : Nat → Byte
/-- A word whose value the spec leaves undefined or unstated. -/
opaque freeWord : Nat → Word
/-- A count or choice that the spec leaves open. -/
opaque freeNat : Nat → Nat
/-- A byte of the boot ROM, whose contents the spec does not give. -/
opaque romByte : Nat → Byte

end Sys2Proof.Config
end

