-- ==== Sys2Proof/Machine/RegMap.lean ====
section
/-!
DEFINITION. The register map: one row per register of the spec's register tables, with its address (R43-R45), its array
strides, and its fields with their types (R16), reset values (R17) and legal encodings (R19). Host registers of BAR0 are
keyed from `0x1_0000_0000_0000` so that one map holds both views.
-/

namespace Sys2Proof.Machine

/-- Register field types (table *Register field types*, R16). `w1sk` is a W1S bit that stays set, `w1s` one that starts
an action and reads 0. -/
inductive FieldTy where
  | rw | ro | rov | wo | w1c | w1s | w1sk | rws
  deriving DecidableEq, Repr, Inhabited

/-- What a full reset does to a field (table *Special reset entries*, R17). -/
inductive ResetTy where
  | value | keep | cell | fuse | unstated
  deriving DecidableEq, Repr, Inhabited

/-- One field of a register. A write outside `legalLo`-`legalHi` leaves it unchanged (R19). -/
structure Fld where
  hi : Nat
  lo : Nat
  ty : FieldTy
  rst : ResetTy
  val : Nat
  legalLo : Nat
  legalHi : Nat
  deriving DecidableEq, Repr, Inhabited

/-- A register, or an array of registers with up to three indices. -/
structure RegDesc where
  name : String
  base : Nat
  n1 : Nat
  s1 : Nat
  n2 : Nat
  s2 : Nat
  n3 : Nat
  s3 : Nat
  fields : List Fld
  deriving DecidableEq, Repr, Inhabited

/-- A field of the map; without bounds every encoding is legal. -/
def f (h l : Nat) (ty : FieldTy) (rst : ResetTy) (val : Nat) (lo : Nat := 0) (hi : Nat := 2 ^ (h + 1 - l) - 1) : Fld :=
  ⟨h, l, ty, rst, val, lo, hi⟩

/-- The host's BAR0 registers are keyed from here. -/
def bar0 : Nat := 0x1000000000000

/-! ### Architecture -/

/-- TWEED.FAMPARM (R54). -/
def rTWEED_FAMPARM : Nat := 0x40000004

/-- Architecture registers. -/
def map01 : List RegDesc := [
  ⟨"TWEED_FAMPARM", 0x40000004, 1, 0x0, 1, 0x0, 1, 0x0, [f 31 24 .ro .value 0x3, f 21 16 .ro .value 0x10, f 14 12 .ro .value 0x4, f 11 8 .ro .value 0x8, f 7 0 .ro .value 0x40]⟩]

/-! ### Canvas -/

/-- CANVAS.CTRL (R108). -/
def rCANVAS_CTRL : Nat := 0x40040000
/-- CANVAS.STAT (R63). -/
def rCANVAS_STAT : Nat := 0x40040004
/-- CANVAS.FRAME (R61). -/
def rCANVAS_FRAME : Nat := 0x40040008
/-- CANVAS.POS (R62). -/
def rCANVAS_POS : Nat := 0x4004000C
/-- CANVAS.PERIODSET (R63). -/
def rCANVAS_PERIODSET : Nat := 0x40040010
/-- CANVAS.PERIODMEAS (R65). -/
def rCANVAS_PERIODMEAS : Nat := 0x40040014
/-- CANVAS.BLANKSET (R83). -/
def rCANVAS_BLANKSET : Nat := 0x40040018
/-- CANVAS.BLANKMEAS (R82). -/
def rCANVAS_BLANKMEAS : Nat := 0x4004001C
/-- CANVAS.LINEPER (R58). -/
def rCANVAS_LINEPER : Nat := 0x40040020
/-- CANVAS.REFTOL (R63). -/
def rCANVAS_REFTOL : Nat := 0x40040024
/-- CANVAS.SLIP (R72). -/
def rCANVAS_SLIP : Nat := 0x40040028
/-- CANVAS.LOSSCNT (R71). -/
def rCANVAS_LOSSCNT : Nat := 0x4004002C
/-- CANVAS.PHASEERR (R73). -/
def rCANVAS_PHASEERR : Nat := 0x40040030
/-- CANVAS.WINCTL (R93). -/
def rCANVAS_WINCTL : Nat := 0x40040034
/-- CANVAS.COMMITCNT_LO (R99). -/
def rCANVAS_COMMITCNT_LO : Nat := 0x40040038
/-- CANVAS.COMMITCNT_HI (R99). -/
def rCANVAS_COMMITCNT_HI : Nat := 0x4004003C
/-- CANVAS.SLOTUPD (R95). -/
def rCANVAS_SLOTUPD : Nat := 0x40040040
/-- CANVAS.INTSTAT (R107). -/
def rCANVAS_INTSTAT : Nat := 0x40040044
/-- CANVAS.INTEN (R107). -/
def rCANVAS_INTEN : Nat := 0x40040048
/-- CANVAS.WINMIN (R92). -/
def rCANVAS_WINMIN : Nat := 0x4004004C
/-- CANVAS.IRQQ (R105). -/
def rCANVAS_IRQQ : Nat := 0x40040050
/-- CANVAS.GCREM (R91). -/
def rCANVAS_GCREM : Nat := 0x40040054
/-- CANVAS.CALREM (R91). -/
def rCANVAS_CALREM : Nat := 0x40040058
/-- CANVAS.FSOCTL (R103). -/
def rCANVAS_FSOCTL (i : Nat) : Nat := 0x40040060 + 0x8 * i
/-- CANVAS.FSOTIM (R103). -/
def rCANVAS_FSOTIM (i : Nat) : Nat := 0x40040064 + 0x8 * i
/-- CANVAS.SLOTA (R95). -/
def rCANVAS_SLOTA (i : Nat) : Nat := 0x40040100 + 0x10 * i
/-- CANVAS.SLOTB (R95). -/
def rCANVAS_SLOTB (i : Nat) : Nat := 0x40040104 + 0x10 * i
/-- CANVAS.SLOTC (R112). -/
def rCANVAS_SLOTC (i : Nat) : Nat := 0x40040108 + 0x10 * i
/-- CANVAS.SLOTD (R98). -/
def rCANVAS_SLOTD (i : Nat) : Nat := 0x4004010C + 0x10 * i

/-- Canvas registers. -/
def map02 : List RegDesc := [
  ⟨"CANVAS_CTRL", 0x40040000, 1, 0x0, 1, 0x0, 1, 0x0, [f 11 11 .rw .value 0x0, f 10 10 .rw .value 0x0, f 9 6 .rw .value 0x0, f 5 4 .rw .value 0x0, f 3 2 .rw .value 0x2 (lo := 0) (hi := 2), f 0 0 .rw .value 0x1]⟩,
  ⟨"CANVAS_STAT", 0x40040004, 1, 0x0, 1, 0x0, 1, 0x0, [f 7 5 .rov .value 0x0, f 4 4 .rov .value 0x0, f 3 3 .rov .value 0x0, f 2 0 .rov .value 0x0]⟩,
  ⟨"CANVAS_FRAME", 0x40040008, 1, 0x0, 1, 0x0, 1, 0x0, [f 31 0 .rov .unstated 0x0]⟩,
  ⟨"CANVAS_POS", 0x4004000C, 1, 0x0, 1, 0x0, 1, 0x0, [f 31 16 .ro .unstated 0x0, f 15 0 .ro .unstated 0x0]⟩,
  ⟨"CANVAS_PERIODSET", 0x40040010, 1, 0x0, 1, 0x0, 1, 0x0, [f 31 0 .rw .value 0x1FCA055]⟩,
  ⟨"CANVAS_PERIODMEAS", 0x40040014, 1, 0x0, 1, 0x0, 1, 0x0, [f 31 0 .rov .value 0x0]⟩,
  ⟨"CANVAS_BLANKSET", 0x40040018, 1, 0x0, 1, 0x0, 1, 0x0, [f 31 0 .rw .value 0xF4240]⟩,
  ⟨"CANVAS_BLANKMEAS", 0x4004001C, 1, 0x0, 1, 0x0, 1, 0x0, [f 31 0 .rov .value 0x0]⟩,
  ⟨"CANVAS_LINEPER", 0x40040020, 1, 0x0, 1, 0x0, 1, 0x0, [f 19 0 .rw .value 0x4E20 (lo := 1) (hi := 1048575)]⟩,
  ⟨"CANVAS_REFTOL", 0x40040024, 1, 0x0, 1, 0x0, 1, 0x0, [f 7 0 .rw .value 0x14]⟩,
  ⟨"CANVAS_SLIP", 0x40040028, 1, 0x0, 1, 0x0, 1, 0x0, [f 31 0 .rov .value 0x0]⟩,
  ⟨"CANVAS_LOSSCNT", 0x4004002C, 1, 0x0, 1, 0x0, 1, 0x0, [f 31 0 .rov .keep 0x0]⟩,
  ⟨"CANVAS_PHASEERR", 0x40040030, 1, 0x0, 1, 0x0, 1, 0x0, [f 31 0 .rov .value 0x0]⟩,
  ⟨"CANVAS_WINCTL", 0x40040034, 1, 0x0, 1, 0x0, 1, 0x0, [f 1 1 .rw .value 0x0, f 0 0 .rw .value 0x0]⟩,
  ⟨"CANVAS_COMMITCNT_LO", 0x40040038, 1, 0x0, 1, 0x0, 1, 0x0, [f 31 0 .rov .value 0x0]⟩,
  ⟨"CANVAS_COMMITCNT_HI", 0x4004003C, 1, 0x0, 1, 0x0, 1, 0x0, [f 31 0 .ro .value 0x0]⟩,
  ⟨"CANVAS_SLOTUPD", 0x40040040, 1, 0x0, 1, 0x0, 1, 0x0, [f 1 1 .rov .value 0x0, f 0 0 .w1s .value 0x0]⟩,
  ⟨"CANVAS_INTSTAT", 0x40040044, 1, 0x0, 1, 0x0, 1, 0x0, [f 15 8 .w1c .value 0x0, f 2 2 .w1c .value 0x0, f 1 1 .w1c .value 0x0, f 0 0 .w1c .value 0x0]⟩,
  ⟨"CANVAS_INTEN", 0x40040048, 1, 0x0, 1, 0x0, 1, 0x0, [f 15 8 .rw .value 0x0, f 2 2 .rw .value 0x0, f 1 1 .rw .value 0x0, f 0 0 .rw .value 0x0]⟩,
  ⟨"CANVAS_WINMIN", 0x4004004C, 1, 0x0, 1, 0x0, 1, 0x0, [f 31 16 .rw .value 0xC8, f 15 0 .rw .value 0x1F4]⟩,
  ⟨"CANVAS_IRQQ", 0x40040050, 1, 0x0, 1, 0x0, 1, 0x0, [f 31 8 .rov .value 0x0, f 6 0 .rov .value 0x0]⟩,
  ⟨"CANVAS_GCREM", 0x40040054, 1, 0x0, 1, 0x0, 1, 0x0, [f 31 0 .rov .value 0x0]⟩,
  ⟨"CANVAS_CALREM", 0x40040058, 1, 0x0, 1, 0x0, 1, 0x0, [f 31 0 .rov .value 0x0]⟩,
  ⟨"CANVAS_FSOCTL", 0x40040060, 2, 0x8, 1, 0x0, 1, 0x0, [f 31 16 .rw .value 0x0, f 15 8 .rw .value 0x0, f 2 2 .rw .value 0x0, f 1 0 .rw .value 0x0 (lo := 0) (hi := 2)]⟩,
  ⟨"CANVAS_FSOTIM", 0x40040064, 2, 0x8, 1, 0x0, 1, 0x0, [f 19 0 .rw .value 0x0]⟩,
  ⟨"CANVAS_SLOTA", 0x40040100, 32, 0x10, 1, 0x0, 1, 0x0, [f 31 31 .rw .value 0x0, f 30 30 .rw .value 0x0, f 27 24 .rw .value 0x0 0 0xB, f 22 16 .rw .value 0x0, f 15 0 .rw .value 0x0]⟩,
  ⟨"CANVAS_SLOTB", 0x40040104, 32, 0x10, 1, 0x0, 1, 0x0, [f 23 0 .rw .value 0x1 (lo := 1) (hi := 16777215)]⟩,
  ⟨"CANVAS_SLOTC", 0x40040108, 32, 0x10, 1, 0x0, 1, 0x0, [f 23 0 .rw .value 0x0]⟩,
  ⟨"CANVAS_SLOTD", 0x4004010C, 32, 0x10, 1, 0x0, 1, 0x0, [f 23 0 .rov .value 0x0]⟩]

/-! ### Muslin -/

/-- MUSLIN.CTRL (R113). -/
def rMUSLIN_CTRL : Nat := 0x40050000
/-- MUSLIN.STAT (R159). -/
def rMUSLIN_STAT : Nat := 0x40050004
/-- MUSLIN.INTSTAT (R176). -/
def rMUSLIN_INTSTAT : Nat := 0x40050008
/-- MUSLIN.INTEN (R176). -/
def rMUSLIN_INTEN : Nat := 0x4005000C
/-- MUSLIN.PORTCFG (R115). -/
def rMUSLIN_PORTCFG (i : Nat) : Nat := 0x40050010 + 0x4 * i
/-- MUSLIN.PORTERR (R121). -/
def rMUSLIN_PORTERR (i : Nat) : Nat := 0x40050020 + 0x4 * i
/-- MUSLIN.CUSTCTL (R163). -/
def rMUSLIN_CUSTCTL : Nat := 0x40050040
/-- MUSLIN.PRESS (R158). -/
def rMUSLIN_PRESS : Nat := 0x40050044
/-- MUSLIN.JOCC (R157). -/
def rMUSLIN_JOCC : Nat := 0x40050048
/-- MUSLIN.DOORCFG (R140). -/
def rMUSLIN_DOORCFG : Nat := 0x4005004C
/-- MUSLIN.CUSTSTAT (R162). -/
def rMUSLIN_CUSTSTAT (i : Nat) : Nat := 0x40050100 + 0x4 * i
/-- MUSLIN.LINECNT (R174). -/
def rMUSLIN_LINECNT (i : Nat) : Nat := 0x40050200 + 0x4 * i
/-- MUSLIN.PCNT_PKT_LO (R121). -/
def rMUSLIN_PCNT_PKT_LO (i : Nat) : Nat := 0x40050300 + 0x20 * i
/-- MUSLIN.PCNT_PKT_HI (R121). -/
def rMUSLIN_PCNT_PKT_HI (i : Nat) : Nat := 0x40050304 + 0x20 * i
/-- MUSLIN.PCNT_CRCERR (R121). -/
def rMUSLIN_PCNT_CRCERR (i : Nat) : Nat := 0x40050308 + 0x20 * i
/-- MUSLIN.PCNT_HDRCORR (R121). -/
def rMUSLIN_PCNT_HDRCORR (i : Nat) : Nat := 0x4005030C + 0x20 * i
/-- MUSLIN.PCNT_HDRERR (R121). -/
def rMUSLIN_PCNT_HDRERR (i : Nat) : Nat := 0x40050310 + 0x20 * i
/-- MUSLIN.PCNT_TRUNC (R121). -/
def rMUSLIN_PCNT_TRUNC (i : Nat) : Nat := 0x40050314 + 0x20 * i
/-- MUSLIN.PCNT_OVERRUN (R121). -/
def rMUSLIN_PCNT_OVERRUN (i : Nat) : Nat := 0x40050318 + 0x20 * i
/-- MUSLIN.PCNT_UNBOUND (R121). -/
def rMUSLIN_PCNT_UNBOUND (i : Nat) : Nat := 0x4005031C + 0x20 * i
/-- MUSLIN.PCNT_MISS (R124). -/
def rMUSLIN_PCNT_MISS (i : Nat) : Nat := 0x40050380 + 0x4 * i
/-- MUSLIN.DOOR_RINGLO (R129). -/
def rMUSLIN_DOOR_RINGLO (i : Nat) : Nat := 0x40050800 + 0x20 * i
/-- MUSLIN.DOOR_RINGHI (R129). -/
def rMUSLIN_DOOR_RINGHI (i : Nat) : Nat := 0x40050804 + 0x20 * i
/-- MUSLIN.DOOR_CPLLO (R130). -/
def rMUSLIN_DOOR_CPLLO (i : Nat) : Nat := 0x40050808 + 0x20 * i
/-- MUSLIN.DOOR_CPLHI (R130). -/
def rMUSLIN_DOOR_CPLHI (i : Nat) : Nat := 0x4005080C + 0x20 * i
/-- MUSLIN.DOOR_CFG (R129). -/
def rMUSLIN_DOOR_CFG (i : Nat) : Nat := 0x40050810 + 0x20 * i
/-- MUSLIN.DOOR_HEAD (R131). -/
def rMUSLIN_DOOR_HEAD (i : Nat) : Nat := 0x40050814 + 0x20 * i
/-- MUSLIN.DOOR_TAIL (R131). -/
def rMUSLIN_DOOR_TAIL (i : Nat) : Nat := 0x40050818 + 0x20 * i
/-- MUSLIN.DOOR_CPLIDX (R131). -/
def rMUSLIN_DOOR_CPLIDX (i : Nat) : Nat := 0x4005081C + 0x20 * i

/-- Muslin registers. -/
def map03 : List RegDesc := [
  ⟨"MUSLIN_CTRL", 0x40050000, 1, 0x0, 1, 0x0, 1, 0x0, [f 3 0 .rw .value 0x0]⟩,
  ⟨"MUSLIN_STAT", 0x40050004, 1, 0x0, 1, 0x0, 1, 0x0, [f 19 16 .rov .value 0x0, f 3 0 .rov .value 0x0]⟩,
  ⟨"MUSLIN_INTSTAT", 0x40050008, 1, 0x0, 1, 0x0, 1, 0x0, [f 8 8 .w1c .value 0x0, f 7 7 .w1c .value 0x0, f 6 6 .w1c .value 0x0, f 5 5 .w1c .value 0x0, f 4 4 .w1c .value 0x0, f 3 0 .w1c .value 0x0]⟩,
  ⟨"MUSLIN_INTEN", 0x4005000C, 1, 0x0, 1, 0x0, 1, 0x0, [f 8 8 .rw .value 0x0, f 7 7 .rw .value 0x0, f 6 6 .rw .value 0x0, f 5 5 .rw .value 0x0, f 4 4 .rw .value 0x0, f 3 0 .rw .value 0x0]⟩,
  ⟨"MUSLIN_PORTCFG", 0x40050010, 4, 0x4, 1, 0x0, 1, 0x0, [f 23 16 .rw .value 0x60, f 15 8 .rw .value 0xE4, f 7 4 .rw .value 0x0, f 2 2 .rw .value 0x1, f 1 0 .rw .value 0x2 (lo := 0) (hi := 2)]⟩,
  ⟨"MUSLIN_PORTERR", 0x40050020, 4, 0x4, 1, 0x0, 1, 0x0, [f 6 6 .w1c .value 0x0, f 5 5 .w1c .value 0x0, f 4 4 .w1c .value 0x0, f 3 3 .w1c .value 0x0, f 2 2 .w1c .value 0x0, f 1 1 .w1c .value 0x0, f 0 0 .w1c .value 0x0]⟩,
  ⟨"MUSLIN_CUSTCTL", 0x40050040, 1, 0x0, 1, 0x0, 1, 0x0, [f 16 16 .wo .unstated 0x0, f 8 8 .wo .unstated 0x0, f 5 0 .wo .unstated 0x0]⟩,
  ⟨"MUSLIN_PRESS", 0x40050044, 1, 0x0, 1, 0x0, 1, 0x0, [f 31 24 .rw .value 0x8, f 23 16 .rw .value 0x68, f 15 8 .rw .value 0x60, f 7 0 .rw .value 0x50]⟩,
  ⟨"MUSLIN_JOCC", 0x40050048, 1, 0x0, 1, 0x0, 1, 0x0, [f 31 16 .rov .value 0x0, f 15 0 .rov .value 0x0]⟩,
  ⟨"MUSLIN_DOORCFG", 0x4005004C, 1, 0x0, 1, 0x0, 1, 0x0, [f 11 8 .rw .value 0x8 (lo := 0) (hi := 8), f 7 0 .rw .value 0x1E]⟩,
  ⟨"MUSLIN_CUSTSTAT", 0x40050100, 64, 0x4, 1, 0x0, 1, 0x0, [f 29 29 .rov .value 0x0, f 28 28 .rov .value 0x0, f 27 27 .w1c .value 0x0, f 26 26 .rov .value 0x0, f 25 25 .rov .value 0x0, f 24 24 .rov .value 0x0, f 23 16 .rov .value 0x0, f 15 8 .rov .value 0x0, f 7 0 .rov .value 0x0]⟩,
  ⟨"MUSLIN_LINECNT", 0x40050200, 64, 0x4, 1, 0x0, 1, 0x0, [f 31 0 .rov .value 0x0]⟩,
  ⟨"MUSLIN_PCNT_PKT_LO", 0x40050300, 4, 0x20, 1, 0x0, 1, 0x0, [f 31 0 .rov .value 0x0]⟩,
  ⟨"MUSLIN_PCNT_PKT_HI", 0x40050304, 4, 0x20, 1, 0x0, 1, 0x0, [f 31 0 .rov .value 0x0]⟩,
  ⟨"MUSLIN_PCNT_CRCERR", 0x40050308, 4, 0x20, 1, 0x0, 1, 0x0, [f 31 0 .rov .value 0x0]⟩,
  ⟨"MUSLIN_PCNT_HDRCORR", 0x4005030C, 4, 0x20, 1, 0x0, 1, 0x0, [f 31 0 .rov .value 0x0]⟩,
  ⟨"MUSLIN_PCNT_HDRERR", 0x40050310, 4, 0x20, 1, 0x0, 1, 0x0, [f 31 0 .rov .value 0x0]⟩,
  ⟨"MUSLIN_PCNT_TRUNC", 0x40050314, 4, 0x20, 1, 0x0, 1, 0x0, [f 31 0 .rov .value 0x0]⟩,
  ⟨"MUSLIN_PCNT_OVERRUN", 0x40050318, 4, 0x20, 1, 0x0, 1, 0x0, [f 31 0 .rov .value 0x0]⟩,
  ⟨"MUSLIN_PCNT_UNBOUND", 0x4005031C, 4, 0x20, 1, 0x0, 1, 0x0, [f 31 0 .rov .value 0x0]⟩,
  ⟨"MUSLIN_PCNT_MISS", 0x40050380, 4, 0x4, 1, 0x0, 1, 0x0, [f 31 16 .rov .value 0x0, f 15 0 .rov .value 0x0]⟩,
  ⟨"MUSLIN_DOOR_RINGLO", 0x40050800, 64, 0x20, 1, 0x0, 1, 0x0, [f 31 6 .rw .value 0x0]⟩,
  ⟨"MUSLIN_DOOR_RINGHI", 0x40050804, 64, 0x20, 1, 0x0, 1, 0x0, [f 31 0 .rw .value 0x0]⟩,
  ⟨"MUSLIN_DOOR_CPLLO", 0x40050808, 64, 0x20, 1, 0x0, 1, 0x0, [f 31 6 .rw .value 0x0]⟩,
  ⟨"MUSLIN_DOOR_CPLHI", 0x4005080C, 64, 0x20, 1, 0x0, 1, 0x0, [f 31 0 .rw .value 0x0]⟩,
  ⟨"MUSLIN_DOOR_CFG", 0x40050810, 64, 0x20, 1, 0x0, 1, 0x0, [f 10 10 .rov .value 0x0, f 9 9 .w1c .value 0x0, f 8 8 .rw .value 0x0, f 3 0 .rw .value 0x0]⟩,
  ⟨"MUSLIN_DOOR_HEAD", 0x40050814, 64, 0x20, 1, 0x0, 1, 0x0, [f 9 0 .rov .value 0x0]⟩,
  ⟨"MUSLIN_DOOR_TAIL", 0x40050818, 64, 0x20, 1, 0x0, 1, 0x0, [f 9 0 .rov .value 0x0]⟩,
  ⟨"MUSLIN_DOOR_CPLIDX", 0x4005081C, 64, 0x20, 1, 0x0, 1, 0x0, [f 9 0 .rov .value 0x0]⟩]

/-! ### Linen -/

/-- LINEN.CTRL (R201). -/
def rLINEN_CTRL : Nat := 0x40060000
/-- LINEN.STAT (R201). -/
def rLINEN_STAT : Nat := 0x40060004
/-- LINEN.EPOCH (R200). -/
def rLINEN_EPOCH : Nat := 0x40060008
/-- LINEN.DEVKEY (R181). -/
def rLINEN_DEVKEY : Nat := 0x4006000C
/-- LINEN.EPSLOT (R206). -/
def rLINEN_EPSLOT : Nat := 0x40060010
/-- LINEN.CMD (R197). -/
def rLINEN_CMD : Nat := 0x40060014
/-- LINEN.KWCMD (R210). -/
def rLINEN_KWCMD : Nat := 0x40060018
/-- LINEN.KWSRC (R210). -/
def rLINEN_KWSRC : Nat := 0x4006001C
/-- LINEN.KWSTAT (R210). -/
def rLINEN_KWSTAT : Nat := 0x40060020
/-- LINEN.EPOCHQ (R202). -/
def rLINEN_EPOCHQ : Nat := 0x40060024
/-- LINEN.INTSTAT (R222). -/
def rLINEN_INTSTAT : Nat := 0x40060028
/-- LINEN.INTEN (R222). -/
def rLINEN_INTEN : Nat := 0x4006002C
/-- LINEN.DEVSEQ_LO (R181). -/
def rLINEN_DEVSEQ_LO : Nat := 0x40060030
/-- LINEN.DEVSEQ_HI (R181). -/
def rLINEN_DEVSEQ_HI : Nat := 0x40060034
/-- LINEN.ANCSEQ_LO (R197). -/
def rLINEN_ANCSEQ_LO : Nat := 0x40060038
/-- LINEN.ANCSEQ_HI (R197). -/
def rLINEN_ANCSEQ_HI : Nat := 0x4006003C
/-- LINEN.TMAPPER (R189). -/
def rLINEN_TMAPPER : Nat := 0x40060040
/-- LINEN.ANCMERGE (R198). -/
def rLINEN_ANCMERGE : Nat := 0x40060044
/-- LINEN.SEQ_LO (R181). -/
def rLINEN_SEQ_LO (i : Nat) : Nat := 0x40060400 + 0x8 * i
/-- LINEN.SEQ_HI (R181). -/
def rLINEN_SEQ_HI (i : Nat) : Nat := 0x40060404 + 0x8 * i
/-- LINEN.KEYVER (R268). -/
def rLINEN_KEYVER (i : Nat) : Nat := 0x40060600 + 0x4 * i
/-- LINEN.HEAD (R223). -/
def rLINEN_HEAD (i : Nat) (j : Nat) : Nat := 0x40060800 + 0x20 * i + 0x4 * j
/-- LINEN.DEVHEAD (R223). -/
def rLINEN_DEVHEAD (i : Nat) : Nat := 0x40061000 + 0x4 * i

/-- Linen registers. -/
def map04 : List RegDesc := [
  ⟨"LINEN_CTRL", 0x40060000, 1, 0x0, 1, 0x0, 1, 0x0, [f 0 0 .rw .value 0x1]⟩,
  ⟨"LINEN_STAT", 0x40060004, 1, 0x0, 1, 0x0, 1, 0x0, [f 3 3 .rov .value 0x0, f 2 2 .rov .value 0x0, f 1 1 .rov .value 0x0, f 0 0 .rov .value 0x0]⟩,
  ⟨"LINEN_EPOCH", 0x40060008, 1, 0x0, 1, 0x0, 1, 0x0, [f 31 0 .rov .keep 0x0]⟩,
  ⟨"LINEN_DEVKEY", 0x4006000C, 1, 0x0, 1, 0x0, 1, 0x0, [f 15 0 .rw .value 0x0]⟩,
  ⟨"LINEN_EPSLOT", 0x40060010, 1, 0x0, 1, 0x0, 1, 0x0, [f 16 16 .rov .keep 0x0, f 11 8 .rw .value 0x3, f 3 0 .rw .value 0x2]⟩,
  ⟨"LINEN_CMD", 0x40060014, 1, 0x0, 1, 0x0, 1, 0x0, [f 2 2 .w1s .value 0x0, f 1 1 .w1s .value 0x0, f 0 0 .w1s .value 0x0]⟩,
  ⟨"LINEN_KWCMD", 0x40060018, 1, 0x0, 1, 0x0, 1, 0x0, [f 31 31 .w1s .value 0x0, f 13 12 .rw .value 0x0, f 9 8 .rw .value 0x0, f 5 0 .rw .value 0x0]⟩,
  ⟨"LINEN_KWSRC", 0x4006001C, 1, 0x0, 1, 0x0, 1, 0x0, [f 15 0 .rw .value 0x0]⟩,
  ⟨"LINEN_KWSTAT", 0x40060020, 1, 0x0, 1, 0x0, 1, 0x0, [f 8 8 .w1c .value 0x0, f 3 0 .rov .value 0x0]⟩,
  ⟨"LINEN_EPOCHQ", 0x40060024, 1, 0x0, 1, 0x0, 1, 0x0, [f 31 16 .rov .cell 0x0, f 15 0 .rov .cell 0x0]⟩,
  ⟨"LINEN_INTSTAT", 0x40060028, 1, 0x0, 1, 0x0, 1, 0x0, [f 4 4 .w1c .value 0x0, f 3 3 .w1c .value 0x0, f 2 2 .w1c .value 0x0, f 1 1 .w1c .value 0x0, f 0 0 .w1c .value 0x0]⟩,
  ⟨"LINEN_INTEN", 0x4006002C, 1, 0x0, 1, 0x0, 1, 0x0, [f 4 4 .rw .value 0x0, f 3 3 .rw .value 0x0, f 2 2 .rw .value 0x0, f 1 1 .rw .value 0x0, f 0 0 .rw .value 0x0]⟩,
  ⟨"LINEN_DEVSEQ_LO", 0x40060030, 1, 0x0, 1, 0x0, 1, 0x0, [f 31 0 .rov .keep 0x0]⟩,
  ⟨"LINEN_DEVSEQ_HI", 0x40060034, 1, 0x0, 1, 0x0, 1, 0x0, [f 15 0 .ro .keep 0x0]⟩,
  ⟨"LINEN_ANCSEQ_LO", 0x40060038, 1, 0x0, 1, 0x0, 1, 0x0, [f 31 0 .rov .keep 0x0]⟩,
  ⟨"LINEN_ANCSEQ_HI", 0x4006003C, 1, 0x0, 1, 0x0, 1, 0x0, [f 15 0 .ro .keep 0x0]⟩,
  ⟨"LINEN_TMAPPER", 0x40060040, 1, 0x0, 1, 0x0, 1, 0x0, [f 15 0 .rw .value 0xE10]⟩,
  ⟨"LINEN_ANCMERGE", 0x40060044, 1, 0x0, 1, 0x0, 1, 0x0, [f 31 0 .rov .value 0x0]⟩,
  ⟨"LINEN_SEQ_LO", 0x40060400, 64, 0x8, 1, 0x0, 1, 0x0, [f 31 0 .rov .keep 0x0]⟩,
  ⟨"LINEN_SEQ_HI", 0x40060404, 64, 0x8, 1, 0x0, 1, 0x0, [f 15 0 .rov .keep 0x0]⟩,
  ⟨"LINEN_KEYVER", 0x40060600, 64, 0x4, 1, 0x0, 1, 0x0, [f 15 0 .rov .keep 0x0]⟩,
  ⟨"LINEN_HEAD", 0x40060800, 64, 0x20, 8, 0x4, 1, 0x0, [f 31 0 .rov .keep 0x0]⟩,
  ⟨"LINEN_DEVHEAD", 0x40061000, 8, 0x4, 1, 0x0, 1, 0x0, [f 31 0 .rov .keep 0x0]⟩]

/-! ### Damask -/

/-- KEYSTORE.CMD (R230). -/
def rKEYSTORE_CMD : Nat := 0x400A0000
/-- KEYSTORE.ATTRIN (R230). -/
def rKEYSTORE_ATTRIN : Nat := 0x400A0004
/-- KEYSTORE.RESULT (R230). -/
def rKEYSTORE_RESULT : Nat := 0x400A0008
/-- KEYSTORE.STAT (R237). -/
def rKEYSTORE_STAT : Nat := 0x400A000C
/-- KEYSTORE.INTSTAT (R303). -/
def rKEYSTORE_INTSTAT : Nat := 0x400A0010
/-- KEYSTORE.INTEN (R303). -/
def rKEYSTORE_INTEN : Nat := 0x400A0014
/-- KEYSTORE.IMPWIN (R235). -/
def rKEYSTORE_IMPWIN (i : Nat) : Nat := 0x400A0040 + 0x4 * i
/-- DIGEST.CTRL (R247). -/
def rDIGEST_CTRL : Nat := 0x40070000
/-- DIGEST.SUBMIT (R250). -/
def rDIGEST_SUBMIT : Nat := 0x40070004
/-- DIGEST.QSTAT (R250). -/
def rDIGEST_QSTAT : Nat := 0x40070008
/-- DIGEST.ABORT (R301). -/
def rDIGEST_ABORT : Nat := 0x4007000C
/-- DIGEST.ABORTSTAT (R301). -/
def rDIGEST_ABORTSTAT : Nat := 0x40070010
/-- DIGEST.LANESTAT (R297). -/
def rDIGEST_LANESTAT : Nat := 0x40070014
/-- DIGEST.INTSTAT (R303). -/
def rDIGEST_INTSTAT : Nat := 0x40070018
/-- DIGEST.INTEN (R303). -/
def rDIGEST_INTEN : Nat := 0x4007001C
/-- DIGEST.STAT (R242). -/
def rDIGEST_STAT : Nat := 0x40070020
/-- DIGEST.JOBCNT_LO (R252). -/
def rDIGEST_JOBCNT_LO : Nat := 0x40070024
/-- DIGEST.JOBCNT_HI (R252). -/
def rDIGEST_JOBCNT_HI : Nat := 0x40070028
/-- DIGEST.RESULT (R252). -/
def rDIGEST_RESULT (i : Nat) : Nat := 0x40070040 + 0x4 * i
/-- CIPHER.CTRL (R247). -/
def rCIPHER_CTRL : Nat := 0x40080000
/-- CIPHER.SUBMIT (R262). -/
def rCIPHER_SUBMIT : Nat := 0x40080004
/-- CIPHER.QSTAT (R262). -/
def rCIPHER_QSTAT : Nat := 0x40080008
/-- CIPHER.ABORT (R301). -/
def rCIPHER_ABORT : Nat := 0x4008000C
/-- CIPHER.ABORTSTAT (R301). -/
def rCIPHER_ABORTSTAT : Nat := 0x40080010
/-- CIPHER.LANESTAT (R297). -/
def rCIPHER_LANESTAT : Nat := 0x40080014
/-- CIPHER.INTSTAT (R303). -/
def rCIPHER_INTSTAT : Nat := 0x40080018
/-- CIPHER.INTEN (R303). -/
def rCIPHER_INTEN : Nat := 0x4008001C
/-- CIPHER.STAT (R242). -/
def rCIPHER_STAT : Nat := 0x40080020
/-- CIPHER.JOBCNT_LO (R282). -/
def rCIPHER_JOBCNT_LO : Nat := 0x40080024
/-- CIPHER.JOBCNT_HI (R282). -/
def rCIPHER_JOBCNT_HI : Nat := 0x40080028
/-- CIPHER.CTXSTAT (R263). -/
def rCIPHER_CTXSTAT (i : Nat) : Nat := 0x40080100 + 0x4 * i
/-- CIPHER.CTXVER (R268). -/
def rCIPHER_CTXVER (i : Nat) : Nat := 0x40080300 + 0x4 * i
/-- CIPHER.CTXWIN (R263). -/
def rCIPHER_CTXWIN (i : Nat) : Nat := 0x40081000 + 0x4 * i
/-- CIPHER.CTXSEL (R263). -/
def rCIPHER_CTXSEL : Nat := 0x40081040
/-- RNG.CTRL (R291). -/
def rRNG_CTRL : Nat := 0x40150000
/-- RNG.STAT (R289). -/
def rRNG_STAT : Nat := 0x40150004
/-- RNG.OUT (R294). -/
def rRNG_OUT : Nat := 0x40150008
/-- RNG.RESEEDINT (R292). -/
def rRNG_RESEEDINT : Nat := 0x4015000C
/-- RNG.HTFAIL (R289). -/
def rRNG_HTFAIL : Nat := 0x40150010
/-- RNG.RESEEDCNT_LO (R292). -/
def rRNG_RESEEDCNT_LO : Nat := 0x40150014
/-- RNG.RESEEDCNT_HI (R292). -/
def rRNG_RESEEDCNT_HI : Nat := 0x40150018

/-- Damask registers. -/
def map05 : List RegDesc := [
  ⟨"KEYSTORE_CMD", 0x400A0000, 1, 0x0, 1, 0x0, 1, 0x0, [f 31 31 .w1s .value 0x0, f 26 24 .rw .value 0x0, f 23 16 .rw .value 0x0, f 15 0 .rw .value 0x0]⟩,
  ⟨"KEYSTORE_ATTRIN", 0x400A0004, 1, 0x0, 1, 0x0, 1, 0x0, [f 31 0 .rw .value 0x0]⟩,
  ⟨"KEYSTORE_RESULT", 0x400A0008, 1, 0x0, 1, 0x0, 1, 0x0, [f 31 16 .rov .value 0x0, f 15 0 .rov .value 0x0]⟩,
  ⟨"KEYSTORE_STAT", 0x400A000C, 1, 0x0, 1, 0x0, 1, 0x0, [f 1 1 .rov .value 0x0, f 0 0 .rov .value 0x0]⟩,
  ⟨"KEYSTORE_INTSTAT", 0x400A0010, 1, 0x0, 1, 0x0, 1, 0x0, [f 1 1 .w1c .value 0x0, f 0 0 .w1c .value 0x0]⟩,
  ⟨"KEYSTORE_INTEN", 0x400A0014, 1, 0x0, 1, 0x0, 1, 0x0, [f 1 1 .rw .value 0x0, f 0 0 .rw .value 0x0]⟩,
  ⟨"KEYSTORE_IMPWIN", 0x400A0040, 16, 0x4, 1, 0x0, 1, 0x0, [f 31 0 .wo .value 0x0]⟩,
  ⟨"DIGEST_CTRL", 0x40070000, 1, 0x0, 1, 0x0, 1, 0x0, [f 7 0 .rw .value 0x3F]⟩,
  ⟨"DIGEST_SUBMIT", 0x40070004, 1, 0x0, 1, 0x0, 1, 0x0, [f 31 0 .wo .unstated 0x0]⟩,
  ⟨"DIGEST_QSTAT", 0x40070008, 1, 0x0, 1, 0x0, 1, 0x0, [f 8 8 .rov .value 0x0, f 4 0 .rov .value 0x0]⟩,
  ⟨"DIGEST_ABORT", 0x4007000C, 1, 0x0, 1, 0x0, 1, 0x0, [f 31 0 .wo .unstated 0x0]⟩,
  ⟨"DIGEST_ABORTSTAT", 0x40070010, 1, 0x0, 1, 0x0, 1, 0x0, [f 1 0 .rov .value 0x0]⟩,
  ⟨"DIGEST_LANESTAT", 0x40070014, 1, 0x0, 1, 0x0, 1, 0x0, [f 23 16 .rov .value 0x0, f 15 8 .rov .value 0x0, f 7 0 .rov .value 0x0]⟩,
  ⟨"DIGEST_INTSTAT", 0x40070018, 1, 0x0, 1, 0x0, 1, 0x0, [f 2 2 .w1c .value 0x0, f 1 1 .w1c .value 0x0, f 0 0 .w1c .value 0x0]⟩,
  ⟨"DIGEST_INTEN", 0x4007001C, 1, 0x0, 1, 0x0, 1, 0x0, [f 2 2 .rw .value 0x0, f 1 1 .rw .value 0x0, f 0 0 .rw .value 0x0]⟩,
  ⟨"DIGEST_STAT", 0x40070020, 1, 0x0, 1, 0x0, 1, 0x0, [f 0 0 .rov .value 0x0]⟩,
  ⟨"DIGEST_JOBCNT_LO", 0x40070024, 1, 0x0, 1, 0x0, 1, 0x0, [f 31 0 .rov .value 0x0]⟩,
  ⟨"DIGEST_JOBCNT_HI", 0x40070028, 1, 0x0, 1, 0x0, 1, 0x0, [f 31 0 .rov .value 0x0]⟩,
  ⟨"DIGEST_RESULT", 0x40070040, 16, 0x4, 1, 0x0, 1, 0x0, [f 31 0 .rov .value 0x0]⟩,
  ⟨"CIPHER_CTRL", 0x40080000, 1, 0x0, 1, 0x0, 1, 0x0, [f 7 0 .rw .value 0x3]⟩,
  ⟨"CIPHER_SUBMIT", 0x40080004, 1, 0x0, 1, 0x0, 1, 0x0, [f 31 0 .wo .unstated 0x0]⟩,
  ⟨"CIPHER_QSTAT", 0x40080008, 1, 0x0, 1, 0x0, 1, 0x0, [f 8 8 .rov .value 0x0, f 4 0 .rov .value 0x0]⟩,
  ⟨"CIPHER_ABORT", 0x4008000C, 1, 0x0, 1, 0x0, 1, 0x0, [f 31 0 .wo .unstated 0x0]⟩,
  ⟨"CIPHER_ABORTSTAT", 0x40080010, 1, 0x0, 1, 0x0, 1, 0x0, [f 1 0 .rov .value 0x0]⟩,
  ⟨"CIPHER_LANESTAT", 0x40080014, 1, 0x0, 1, 0x0, 1, 0x0, [f 19 16 .rov .value 0x0, f 11 8 .rov .value 0x0, f 3 0 .rov .value 0x0]⟩,
  ⟨"CIPHER_INTSTAT", 0x40080018, 1, 0x0, 1, 0x0, 1, 0x0, [f 3 3 .w1c .value 0x0, f 2 2 .w1c .value 0x0, f 1 1 .w1c .value 0x0, f 0 0 .w1c .value 0x0]⟩,
  ⟨"CIPHER_INTEN", 0x4008001C, 1, 0x0, 1, 0x0, 1, 0x0, [f 3 3 .rw .value 0x0, f 2 2 .rw .value 0x0, f 1 1 .rw .value 0x0, f 0 0 .rw .value 0x0]⟩,
  ⟨"CIPHER_STAT", 0x40080020, 1, 0x0, 1, 0x0, 1, 0x0, [f 0 0 .rov .value 0x0]⟩,
  ⟨"CIPHER_JOBCNT_LO", 0x40080024, 1, 0x0, 1, 0x0, 1, 0x0, [f 31 0 .rov .value 0x0]⟩,
  ⟨"CIPHER_JOBCNT_HI", 0x40080028, 1, 0x0, 1, 0x0, 1, 0x0, [f 31 0 .rov .value 0x0]⟩,
  ⟨"CIPHER_CTXSTAT", 0x40080100, 80, 0x4, 1, 0x0, 1, 0x0, [f 8 8 .rov .value 0x0, f 6 4 .rov .value 0x0, f 3 3 .rov .value 0x0, f 2 2 .rov .value 0x0, f 1 1 .rov .value 0x0, f 0 0 .rov .value 0x0]⟩,
  ⟨"CIPHER_CTXVER", 0x40080300, 64, 0x4, 1, 0x0, 1, 0x0, [f 31 16 .rov .value 0x0, f 15 0 .rov .value 0x0]⟩,
  ⟨"CIPHER_CTXWIN", 0x40081000, 16, 0x4, 1, 0x0, 1, 0x0, [f 31 0 .wo .value 0x0]⟩,
  ⟨"CIPHER_CTXSEL", 0x40081040, 1, 0x0, 1, 0x0, 1, 0x0, [f 16 16 .w1s .value 0x0, f 13 13 .rw .value 0x0, f 12 10 .rw .value 0x0 0 4, f 6 0 .rw .value 0x0]⟩,
  ⟨"RNG_CTRL", 0x40150000, 1, 0x0, 1, 0x0, 1, 0x0, [f 1 1 .rw .value 0x0]⟩,
  ⟨"RNG_STAT", 0x40150004, 1, 0x0, 1, 0x0, 1, 0x0, [f 8 8 .w1c .value 0x0, f 3 2 .rov .value 0x0, f 1 0 .rov .value 0x0]⟩,
  ⟨"RNG_OUT", 0x40150008, 1, 0x0, 1, 0x0, 1, 0x0, [f 31 0 .rov .value 0x0]⟩,
  ⟨"RNG_RESEEDINT", 0x4015000C, 1, 0x0, 1, 0x0, 1, 0x0, [f 31 0 .rw .value 0x10000]⟩,
  ⟨"RNG_HTFAIL", 0x40150010, 1, 0x0, 1, 0x0, 1, 0x0, [f 31 0 .rov .value 0x0]⟩,
  ⟨"RNG_RESEEDCNT_LO", 0x40150014, 1, 0x0, 1, 0x0, 1, 0x0, [f 31 0 .rov .value 0x0]⟩,
  ⟨"RNG_RESEEDCNT_HI", 0x40150018, 1, 0x0, 1, 0x0, 1, 0x0, [f 31 0 .rov .value 0x0]⟩]

/-! ### PK unit -/

/-- PK.CTRL (R323). -/
def rPK_CTRL : Nat := 0x40090000
/-- PK.STAT (R328). -/
def rPK_STAT : Nat := 0x40090004
/-- PK.SUBMIT (R313). -/
def rPK_SUBMIT : Nat := 0x40090008
/-- PK.QSTAT (R313). -/
def rPK_QSTAT : Nat := 0x4009000C
/-- PK.ABORT (R350). -/
def rPK_ABORT : Nat := 0x40090010
/-- PK.ABORTSTAT (R350). -/
def rPK_ABORTSTAT : Nat := 0x40090014
/-- PK.INTSTAT (R319). -/
def rPK_INTSTAT : Nat := 0x40090018
/-- PK.INTEN (R319). -/
def rPK_INTEN : Nat := 0x4009001C
/-- PK.FAULTCNT (R335). -/
def rPK_FAULTCNT : Nat := 0x40090020
/-- PK.LASTFAULT (R335). -/
def rPK_LASTFAULT : Nat := 0x40090024
/-- PK.JOBCNT_LO (R319). -/
def rPK_JOBCNT_LO : Nat := 0x40090028
/-- PK.JOBCNT_HI (R319). -/
def rPK_JOBCNT_HI : Nat := 0x4009002C
/-- PK.PREEMPTCNT (R323). -/
def rPK_PREEMPTCNT : Nat := 0x40090030
/-- PK.WIPECNT (R328). -/
def rPK_WIPECNT : Nat := 0x40090034

/-- PK unit registers. -/
def map06 : List RegDesc := [
  ⟨"PK_CTRL", 0x40090000, 1, 0x0, 1, 0x0, 1, 0x0, [f 31 16 .rw .value 0x3E8, f 1 1 .rw .value 0x1, f 0 0 .rw .value 0x1]⟩,
  ⟨"PK_STAT", 0x40090004, 1, 0x0, 1, 0x0, 1, 0x0, [f 23 16 .rov .value 0xFF, f 9 8 .rov .value 0x0, f 2 2 .rov .value 0x0, f 1 1 .rov .value 0x0, f 0 0 .rov .value 0x0]⟩,
  ⟨"PK_SUBMIT", 0x40090008, 1, 0x0, 1, 0x0, 1, 0x0, [f 31 0 .wo .unstated 0x0]⟩,
  ⟨"PK_QSTAT", 0x4009000C, 1, 0x0, 1, 0x0, 1, 0x0, [f 8 8 .rov .value 0x0, f 3 0 .rov .value 0x0]⟩,
  ⟨"PK_ABORT", 0x40090010, 1, 0x0, 1, 0x0, 1, 0x0, [f 31 0 .wo .unstated 0x0]⟩,
  ⟨"PK_ABORTSTAT", 0x40090014, 1, 0x0, 1, 0x0, 1, 0x0, [f 1 0 .rov .value 0x0]⟩,
  ⟨"PK_INTSTAT", 0x40090018, 1, 0x0, 1, 0x0, 1, 0x0, [f 3 3 .w1c .value 0x0, f 2 2 .w1c .value 0x0, f 1 1 .w1c .value 0x0, f 0 0 .w1c .value 0x0]⟩,
  ⟨"PK_INTEN", 0x4009001C, 1, 0x0, 1, 0x0, 1, 0x0, [f 3 3 .rw .value 0x0, f 2 2 .rw .value 0x0, f 1 1 .rw .value 0x0, f 0 0 .rw .value 0x0]⟩,
  ⟨"PK_FAULTCNT", 0x40090020, 1, 0x0, 1, 0x0, 1, 0x0, [f 31 0 .rov .value 0x0]⟩,
  ⟨"PK_LASTFAULT", 0x40090024, 1, 0x0, 1, 0x0, 1, 0x0, [f 23 16 .rov .value 0x0, f 15 8 .rov .value 0x0, f 3 0 .rov .value 0x0]⟩,
  ⟨"PK_JOBCNT_LO", 0x40090028, 1, 0x0, 1, 0x0, 1, 0x0, [f 31 0 .rov .value 0x0]⟩,
  ⟨"PK_JOBCNT_HI", 0x4009002C, 1, 0x0, 1, 0x0, 1, 0x0, [f 31 0 .ro .value 0x0]⟩,
  ⟨"PK_PREEMPTCNT", 0x40090030, 1, 0x0, 1, 0x0, 1, 0x0, [f 31 0 .rov .value 0x0]⟩,
  ⟨"PK_WIPECNT", 0x40090034, 1, 0x0, 1, 0x0, 1, 0x0, [f 31 0 .rov .value 0x0]⟩]

/-! ### Twill media -/

/-- TWILL.MEDCFG (R361). -/
def rTWILL_MEDCFG : Nat := 0x400B0000
/-- TWILL.GEOM0 (R367). -/
def rTWILL_GEOM0 : Nat := 0x400B0004
/-- TWILL.GEOM1 (R367). -/
def rTWILL_GEOM1 : Nat := 0x400B0008
/-- TWILL.WIDTH (R361). -/
def rTWILL_WIDTH : Nat := 0x400B000C
/-- TWILL.LDPCSTAT (R421). -/
def rTWILL_LDPCSTAT : Nat := 0x400B0010
/-- TWILL.TRACKCFG (R392). -/
def rTWILL_TRACKCFG : Nat := 0x400B0014
/-- TWILL.SOFTCFG (R396). -/
def rTWILL_SOFTCFG : Nat := 0x400B0018
/-- TWILL.SCRUBCFG (R400). -/
def rTWILL_SCRUBCFG : Nat := 0x400B001C
/-- TWILL.RDLIMIT (R400). -/
def rTWILL_RDLIMIT : Nat := 0x400B0020
/-- TWILL.FILLCFG (R382). -/
def rTWILL_FILLCFG : Nat := 0x400B0024
/-- TWILL.LVLMAP (R392). -/
def rTWILL_LVLMAP : Nat := 0x400B0028
/-- TWILL.INTSTAT (R406). -/
def rTWILL_INTSTAT : Nat := 0x400B002C
/-- TWILL.INTEN (R406). -/
def rTWILL_INTEN : Nat := 0x400B0030
/-- TWILL.RDABORT (R425). -/
def rTWILL_RDABORT : Nat := 0x400B0034
/-- TWILL.RDABORTSTAT (R425). -/
def rTWILL_RDABORTSTAT : Nat := 0x400B0038
/-- TWILL.LOSTCNT_LO (R417). -/
def rTWILL_LOSTCNT_LO : Nat := 0x400B0040
/-- TWILL.LOSTCNT_HI (R417). -/
def rTWILL_LOSTCNT_HI : Nat := 0x400B0044
/-- TWILL.RRIDX (R399). -/
def rTWILL_RRIDX : Nat := 0x400B0600
/-- TWILL.RRDATA (R399). -/
def rTWILL_RRDATA : Nat := 0x400B0604
/-- TWILL.PAIRIDX (R388). -/
def rTWILL_PAIRIDX : Nat := 0x400B0608
/-- TWILL.PAIRDATA (R387). -/
def rTWILL_PAIRDATA : Nat := 0x400B060C
/-- TWILL.CHCFG (R353). -/
def rTWILL_CHCFG (i : Nat) : Nat := 0x400B1000 + 0x1000 * i
/-- TWILL.CHSTAT (R363). -/
def rTWILL_CHSTAT (i : Nat) : Nat := 0x400B1004 + 0x1000 * i
/-- TWILL.CHTMO (R407). -/
def rTWILL_CHTMO (i : Nat) : Nat := 0x400B1008 + 0x1000 * i
/-- TWILL.CHINTSTAT (R406). -/
def rTWILL_CHINTSTAT (i : Nat) : Nat := 0x400B100C + 0x1000 * i
/-- TWILL.CHINTEN (R406). -/
def rTWILL_CHINTEN (i : Nat) : Nat := 0x400B1010 + 0x1000 * i
/-- TWILL.LASTERR (R406). -/
def rTWILL_LASTERR (i : Nat) : Nat := 0x400B1014 + 0x1000 * i
/-- TWILL.LUNSTAT (R405). -/
def rTWILL_LUNSTAT (i : Nat) : Nat := 0x400B1018 + 0x1000 * i
/-- TWILL.READS_LO (R422). -/
def rTWILL_READS_LO (i : Nat) : Nat := 0x400B1020 + 0x1000 * i
/-- TWILL.READS_HI (R422). -/
def rTWILL_READS_HI (i : Nat) : Nat := 0x400B1024 + 0x1000 * i
/-- TWILL.PROGS_LO (R422). -/
def rTWILL_PROGS_LO (i : Nat) : Nat := 0x400B1028 + 0x1000 * i
/-- TWILL.PROGS_HI (R422). -/
def rTWILL_PROGS_HI (i : Nat) : Nat := 0x400B102C + 0x1000 * i
/-- TWILL.ERASES_LO (R422). -/
def rTWILL_ERASES_LO (i : Nat) : Nat := 0x400B1030 + 0x1000 * i
/-- TWILL.ERASES_HI (R422). -/
def rTWILL_ERASES_HI (i : Nat) : Nat := 0x400B1034 + 0x1000 * i
/-- TWILL.CORRBITS_LO (R422). -/
def rTWILL_CORRBITS_LO (i : Nat) : Nat := 0x400B1038 + 0x1000 * i
/-- TWILL.CORRBITS_HI (R422). -/
def rTWILL_CORRBITS_HI (i : Nat) : Nat := 0x400B103C + 0x1000 * i
/-- TWILL.RETRIES (R398). -/
def rTWILL_RETRIES (i : Nat) : Nat := 0x400B1040 + 0x1000 * i
/-- TWILL.SOFTS (R398). -/
def rTWILL_SOFTS (i : Nat) : Nat := 0x400B1044 + 0x1000 * i
/-- TWILL.REBUILDS (R398). -/
def rTWILL_REBUILDS (i : Nat) : Nat := 0x400B1048 + 0x1000 * i
/-- TWILL.UNCORR (R398). -/
def rTWILL_UNCORR (i : Nat) : Nat := 0x400B104C + 0x1000 * i
/-- TWILL.TIMEOUTS (R407). -/
def rTWILL_TIMEOUTS (i : Nat) : Nat := 0x400B1050 + 0x1000 * i
/-- TWILL.OPFAILS (R402). -/
def rTWILL_OPFAILS (i : Nat) : Nat := 0x400B1054 + 0x1000 * i
/-- TWILL.OFFIDX (R391). -/
def rTWILL_OFFIDX (i : Nat) : Nat := 0x400B1100 + 0x1000 * i
/-- TWILL.OFFDATA (R391). -/
def rTWILL_OFFDATA (i : Nat) : Nat := 0x400B1104 + 0x1000 * i
/-- TWILL.TRAIN (R364). -/
def rTWILL_TRAIN (i : Nat) : Nat := 0x400B1200 + 0x1000 * i
/-- TWILL.ID (R363). -/
def rTWILL_ID (i : Nat) (j : Nat) : Nat := 0x400B1300 + 0x1000 * i + 0x4 * j

/-- Twill media registers. -/
def map07 : List RegDesc := [
  ⟨"TWILL_MEDCFG", 0x400B0000, 1, 0x0, 1, 0x0, 1, 0x0, [f 23 16 .ro .fuse 0x0, f 8 8 .rw .value 0x0, f 3 0 .rw .value 0x4 3 8]⟩,
  ⟨"TWILL_GEOM0", 0x400B0004, 1, 0x0, 1, 0x0, 1, 0x0, [f 27 16 .rov .value 0x0, f 6 6 .rov .value 0x0, f 5 4 .rov .value 0x0, f 3 2 .rov .value 0x0, f 1 0 .rov .value 0x0]⟩,
  ⟨"TWILL_GEOM1", 0x400B0008, 1, 0x0, 1, 0x0, 1, 0x0, [f 31 16 .rov .value 0x0, f 13 0 .rov .value 0x0]⟩,
  ⟨"TWILL_WIDTH", 0x400B000C, 1, 0x0, 1, 0x0, 1, 0x0, [f 11 8 .rov .value 0x0, f 7 0 .rov .value 0x0]⟩,
  ⟨"TWILL_LDPCSTAT", 0x400B0010, 1, 0x0, 1, 0x0, 1, 0x0, [f 19 16 .rov .value 0x0, f 15 0 .rov .value 0x0]⟩,
  ⟨"TWILL_TRACKCFG", 0x400B0014, 1, 0x0, 1, 0x0, 1, 0x0, [f 31 31 .rw .value 0x1, f 29 24 .rw .value 0x18, f 23 16 .rw .value 0x20, f 15 0 .rw .value 0x1000]⟩,
  ⟨"TWILL_SOFTCFG", 0x400B0018, 1, 0x0, 1, 0x0, 1, 0x0, [f 16 16 .rw .value 0x1, f 12 8 .rw .value 0x0, f 3 0 .rw .value 0x4]⟩,
  ⟨"TWILL_SCRUBCFG", 0x400B001C, 1, 0x0, 1, 0x0, 1, 0x0, [f 31 24 .rw .value 0x18, f 23 16 .rw .value 0x30, f 15 0 .rw .value 0xB4]⟩,
  ⟨"TWILL_RDLIMIT", 0x400B0020, 1, 0x0, 1, 0x0, 1, 0x0, [f 15 0 .rw .value 0x64]⟩,
  ⟨"TWILL_FILLCFG", 0x400B0024, 1, 0x0, 1, 0x0, 1, 0x0, [f 31 16 .rw .value 0xC8, f 15 0 .rw .value 0x64]⟩,
  ⟨"TWILL_LVLMAP", 0x400B0028, 1, 0x0, 1, 0x0, 1, 0x0, [f 26 24 .rw .value 0x0, f 22 16 .rw .value 0x55, f 14 8 .rw .value 0x22, f 6 0 .rw .value 0x8]⟩,
  ⟨"TWILL_INTSTAT", 0x400B002C, 1, 0x0, 1, 0x0, 1, 0x0, [f 7 7 .w1c .value 0x0, f 6 6 .w1c .value 0x0, f 5 5 .w1c .value 0x0, f 4 4 .w1c .value 0x0, f 3 3 .w1c .value 0x0, f 2 2 .w1c .value 0x0, f 1 1 .w1c .value 0x0, f 0 0 .w1c .value 0x0]⟩,
  ⟨"TWILL_INTEN", 0x400B0030, 1, 0x0, 1, 0x0, 1, 0x0, [f 7 7 .rw .value 0x0, f 6 6 .rw .value 0x0, f 5 5 .rw .value 0x0, f 4 4 .rw .value 0x0, f 3 3 .rw .value 0x0, f 2 2 .rw .value 0x0, f 1 1 .rw .value 0x0, f 0 0 .rw .value 0x0]⟩,
  ⟨"TWILL_RDABORT", 0x400B0034, 1, 0x0, 1, 0x0, 1, 0x0, [f 15 0 .wo .unstated 0x0]⟩,
  ⟨"TWILL_RDABORTSTAT", 0x400B0038, 1, 0x0, 1, 0x0, 1, 0x0, [f 1 0 .rov .value 0x0]⟩,
  ⟨"TWILL_LOSTCNT_LO", 0x400B0040, 1, 0x0, 1, 0x0, 1, 0x0, [f 31 0 .rov .keep 0x0]⟩,
  ⟨"TWILL_LOSTCNT_HI", 0x400B0044, 1, 0x0, 1, 0x0, 1, 0x0, [f 31 0 .rov .keep 0x0]⟩,
  ⟨"TWILL_RRIDX", 0x400B0600, 1, 0x0, 1, 0x0, 1, 0x0, [f 9 0 .rw .value 0x0]⟩,
  ⟨"TWILL_RRDATA", 0x400B0604, 1, 0x0, 1, 0x0, 1, 0x0, [f 31 0 .rw .value 0x0]⟩,
  ⟨"TWILL_PAIRIDX", 0x400B0608, 1, 0x0, 1, 0x0, 1, 0x0, [f 11 0 .rw .value 0x0]⟩,
  ⟨"TWILL_PAIRDATA", 0x400B060C, 1, 0x0, 1, 0x0, 1, 0x0, [f 15 0 .rw .value 0x0]⟩,
  ⟨"TWILL_CHCFG", 0x400B1000, 8, 0x1000, 1, 0x0, 1, 0x0, [f 31 31 .rw .value 0x1, f 8 8 .rw .value 0x1, f 7 4 .rw .value 0xF, f 3 2 .rw .value 0x0, f 1 0 .rw .value 0x2 (lo := 0) (hi := 2)]⟩,
  ⟨"TWILL_CHSTAT", 0x400B1004, 8, 0x1000, 1, 0x0, 1, 0x0, [f 15 12 .rov .value 0x0, f 11 8 .rov .value 0x0, f 7 7 .rov .value 0x0, f 6 6 .rov .value 0x0, f 5 5 .rov .value 0x0, f 4 4 .rov .value 0x0, f 2 0 .rov .value 0x0]⟩,
  ⟨"TWILL_CHTMO", 0x400B1008, 8, 0x1000, 1, 0x0, 1, 0x0, [f 31 16 .rw .value 0xC8, f 15 0 .rw .value 0x3E8]⟩,
  ⟨"TWILL_CHINTSTAT", 0x400B100C, 8, 0x1000, 1, 0x0, 1, 0x0, [f 4 4 .w1c .value 0x0, f 3 3 .w1c .value 0x0, f 2 2 .w1c .value 0x0, f 1 1 .w1c .value 0x0, f 0 0 .w1c .value 0x0]⟩,
  ⟨"TWILL_CHINTEN", 0x400B1010, 8, 0x1000, 1, 0x0, 1, 0x0, [f 4 4 .rw .value 0x0, f 3 3 .rw .value 0x0, f 2 2 .rw .value 0x0, f 1 1 .rw .value 0x0, f 0 0 .rw .value 0x0]⟩,
  ⟨"TWILL_LASTERR", 0x400B1014, 8, 0x1000, 1, 0x0, 1, 0x0, [f 23 20 .rov .value 0x0, f 19 16 .rov .value 0x0, f 15 8 .rov .value 0x0, f 7 0 .rov .value 0x0]⟩,
  ⟨"TWILL_LUNSTAT", 0x400B1018, 8, 0x1000, 1, 0x0, 1, 0x0, [f 31 0 .rov .value 0x0]⟩,
  ⟨"TWILL_READS_LO", 0x400B1020, 8, 0x1000, 1, 0x0, 1, 0x0, [f 31 0 .rov .value 0x0]⟩,
  ⟨"TWILL_READS_HI", 0x400B1024, 8, 0x1000, 1, 0x0, 1, 0x0, [f 31 0 .rov .value 0x0]⟩,
  ⟨"TWILL_PROGS_LO", 0x400B1028, 8, 0x1000, 1, 0x0, 1, 0x0, [f 31 0 .rov .value 0x0]⟩,
  ⟨"TWILL_PROGS_HI", 0x400B102C, 8, 0x1000, 1, 0x0, 1, 0x0, [f 31 0 .rov .value 0x0]⟩,
  ⟨"TWILL_ERASES_LO", 0x400B1030, 8, 0x1000, 1, 0x0, 1, 0x0, [f 31 0 .rov .value 0x0]⟩,
  ⟨"TWILL_ERASES_HI", 0x400B1034, 8, 0x1000, 1, 0x0, 1, 0x0, [f 31 0 .rov .value 0x0]⟩,
  ⟨"TWILL_CORRBITS_LO", 0x400B1038, 8, 0x1000, 1, 0x0, 1, 0x0, [f 31 0 .rov .value 0x0]⟩,
  ⟨"TWILL_CORRBITS_HI", 0x400B103C, 8, 0x1000, 1, 0x0, 1, 0x0, [f 31 0 .rov .value 0x0]⟩,
  ⟨"TWILL_RETRIES", 0x400B1040, 8, 0x1000, 1, 0x0, 1, 0x0, [f 31 0 .rov .value 0x0]⟩,
  ⟨"TWILL_SOFTS", 0x400B1044, 8, 0x1000, 1, 0x0, 1, 0x0, [f 31 0 .rov .value 0x0]⟩,
  ⟨"TWILL_REBUILDS", 0x400B1048, 8, 0x1000, 1, 0x0, 1, 0x0, [f 31 0 .rov .value 0x0]⟩,
  ⟨"TWILL_UNCORR", 0x400B104C, 8, 0x1000, 1, 0x0, 1, 0x0, [f 31 0 .rov .value 0x0]⟩,
  ⟨"TWILL_TIMEOUTS", 0x400B1050, 8, 0x1000, 1, 0x0, 1, 0x0, [f 31 0 .rov .value 0x0]⟩,
  ⟨"TWILL_OPFAILS", 0x400B1054, 8, 0x1000, 1, 0x0, 1, 0x0, [f 31 0 .rov .value 0x0]⟩,
  ⟨"TWILL_OFFIDX", 0x400B1100, 8, 0x1000, 1, 0x0, 1, 0x0, [f 7 4 .rw .value 0x0, f 2 0 .rw .value 0x0]⟩,
  ⟨"TWILL_OFFDATA", 0x400B1104, 8, 0x1000, 1, 0x0, 1, 0x0, [f 7 0 .rw .value 0x0]⟩,
  ⟨"TWILL_TRAIN", 0x400B1200, 8, 0x1000, 1, 0x0, 1, 0x0, [f 23 16 .rov .value 0x0, f 15 8 .rov .value 0x0, f 7 0 .rov .value 0x0]⟩,
  ⟨"TWILL_ID", 0x400B1300, 8, 0x1000, 8, 0x4, 1, 0x0, [f 31 0 .rov .value 0x0]⟩]

/-! ### Twill journal -/

/-- TWILL.JCTRL (R441). -/
def rTWILL_JCTRL : Nat := 0x400B0800
/-- TWILL.JSTAT (R443). -/
def rTWILL_JSTAT : Nat := 0x400B0804
/-- TWILL.JTILE (R431). -/
def rTWILL_JTILE : Nat := 0x400B0808
/-- TWILL.LOGOCC (R441). -/
def rTWILL_LOGOCC : Nat := 0x400B080C
/-- TWILL.LSN_LO (R436). -/
def rTWILL_LSN_LO : Nat := 0x400B0810
/-- TWILL.LSN_HI (R436). -/
def rTWILL_LSN_HI : Nat := 0x400B0814
/-- TWILL.CKLSN_LO (R444). -/
def rTWILL_CKLSN_LO : Nat := 0x400B0818
/-- TWILL.CKLSN_HI (R444). -/
def rTWILL_CKLSN_HI : Nat := 0x400B081C
/-- TWILL.JWEAR_LO (R431). -/
def rTWILL_JWEAR_LO : Nat := 0x400B0820
/-- TWILL.JWEAR_HI (R431). -/
def rTWILL_JWEAR_HI : Nat := 0x400B0824
/-- TWILL.REPLAYUS (R495). -/
def rTWILL_REPLAYUS : Nat := 0x400B0828
/-- TWILL.JERR (R448). -/
def rTWILL_JERR : Nat := 0x400B082C
/-- TWILL.JINTSTAT (R443). -/
def rTWILL_JINTSTAT : Nat := 0x400B0830
/-- TWILL.JINTEN (R443). -/
def rTWILL_JINTEN : Nat := 0x400B0834
/-- TWILL.CMD (R443). -/
def rTWILL_CMD : Nat := 0x400B0838
/-- TWILL.CKCNT (R444). -/
def rTWILL_CKCNT : Nat := 0x400B083C
/-- TWILL.GCCFG (R475). -/
def rTWILL_GCCFG : Nat := 0x400B0840
/-- TWILL.GCCFG2 (R459). -/
def rTWILL_GCCFG2 : Nat := 0x400B0844
/-- TWILL.WLDELTA (R476). -/
def rTWILL_WLDELTA : Nat := 0x400B0848
/-- TWILL.GCSTAT (R479). -/
def rTWILL_GCSTAT : Nat := 0x400B084C
/-- TWILL.GCSRC (R479). -/
def rTWILL_GCSRC : Nat := 0x400B0850
/-- TWILL.GCDST (R479). -/
def rTWILL_GCDST : Nat := 0x400B0854
/-- TWILL.SEGCNT (R468). -/
def rTWILL_SEGCNT : Nat := 0x400B0858
/-- TWILL.SEGFREE (R468). -/
def rTWILL_SEGFREE : Nat := 0x400B085C
/-- TWILL.NSCFG (R453). -/
def rTWILL_NSCFG (i : Nat) : Nat := 0x400B0900 + 0x20 * i
/-- TWILL.NSRES (R459). -/
def rTWILL_NSRES (i : Nat) : Nat := 0x400B0904 + 0x20 * i
/-- TWILL.NSSTAT (R497). -/
def rTWILL_NSSTAT (i : Nat) : Nat := 0x400B0908 + 0x20 * i
/-- TWILL.NSRSVD (R497). -/
def rTWILL_NSRSVD (i : Nat) : Nat := 0x400B090C + 0x20 * i
/-- TWILL.NSLOW_LO (R457). -/
def rTWILL_NSLOW_LO (i : Nat) : Nat := 0x400B0910 + 0x20 * i
/-- TWILL.NSLOW_HI (R457). -/
def rTWILL_NSLOW_HI (i : Nat) : Nat := 0x400B0914 + 0x20 * i
/-- TWILL.NSWP_LO (R455). -/
def rTWILL_NSWP_LO (i : Nat) : Nat := 0x400B0918 + 0x20 * i
/-- TWILL.NSWP_HI (R455). -/
def rTWILL_NSWP_HI (i : Nat) : Nat := 0x400B091C + 0x20 * i

/-- Twill journal registers. -/
def map08 : List RegDesc := [
  ⟨"TWILL_JCTRL", 0x400B0800, 1, 0x0, 1, 0x0, 1, 0x0, [f 31 24 .rw .value 0x1E, f 23 16 .rw .value 0x32, f 15 8 .rw .value 0x8, f 7 0 .rw .value 0x20]⟩,
  ⟨"TWILL_JSTAT", 0x400B0804, 1, 0x0, 1, 0x0, 1, 0x0, [f 31 16 .rov .value 0x0, f 4 4 .rov .value 0x0, f 3 3 .rov .value 0x0, f 2 2 .rov .keep 0x0, f 1 1 .rov .value 0x0, f 0 0 .rov .value 0x1]⟩,
  ⟨"TWILL_JTILE", 0x400B0808, 1, 0x0, 1, 0x0, 1, 0x0, [f 26 16 .rov .unstated 0x0, f 10 0 .rov .unstated 0x0]⟩,
  ⟨"TWILL_LOGOCC", 0x400B080C, 1, 0x0, 1, 0x0, 1, 0x0, [f 17 0 .rov .unstated 0x0]⟩,
  ⟨"TWILL_LSN_LO", 0x400B0810, 1, 0x0, 1, 0x0, 1, 0x0, [f 31 0 .rov .keep 0x0]⟩,
  ⟨"TWILL_LSN_HI", 0x400B0814, 1, 0x0, 1, 0x0, 1, 0x0, [f 31 0 .rov .keep 0x0]⟩,
  ⟨"TWILL_CKLSN_LO", 0x400B0818, 1, 0x0, 1, 0x0, 1, 0x0, [f 31 0 .rov .keep 0x0]⟩,
  ⟨"TWILL_CKLSN_HI", 0x400B081C, 1, 0x0, 1, 0x0, 1, 0x0, [f 31 0 .rov .keep 0x0]⟩,
  ⟨"TWILL_JWEAR_LO", 0x400B0820, 1, 0x0, 1, 0x0, 1, 0x0, [f 31 0 .rov .keep 0x0]⟩,
  ⟨"TWILL_JWEAR_HI", 0x400B0824, 1, 0x0, 1, 0x0, 1, 0x0, [f 31 0 .rov .keep 0x0]⟩,
  ⟨"TWILL_REPLAYUS", 0x400B0828, 1, 0x0, 1, 0x0, 1, 0x0, [f 31 0 .rov .unstated 0x0]⟩,
  ⟨"TWILL_JERR", 0x400B082C, 1, 0x0, 1, 0x0, 1, 0x0, [f 31 16 .rov .value 0x0, f 15 8 .rov .value 0x0, f 7 0 .rov .value 0x0]⟩,
  ⟨"TWILL_JINTSTAT", 0x400B0830, 1, 0x0, 1, 0x0, 1, 0x0, [f 5 5 .w1c .value 0x0, f 4 4 .w1c .value 0x0, f 3 3 .w1c .value 0x0, f 2 2 .w1c .value 0x0, f 1 1 .w1c .value 0x0, f 0 0 .w1c .value 0x0]⟩,
  ⟨"TWILL_JINTEN", 0x400B0834, 1, 0x0, 1, 0x0, 1, 0x0, [f 5 5 .rw .value 0x0, f 4 4 .rw .value 0x0, f 3 3 .rw .value 0x0, f 2 2 .rw .value 0x0, f 1 1 .rw .value 0x0, f 0 0 .rw .value 0x0]⟩,
  ⟨"TWILL_CMD", 0x400B0838, 1, 0x0, 1, 0x0, 1, 0x0, [f 0 0 .w1s .value 0x0]⟩,
  ⟨"TWILL_CKCNT", 0x400B083C, 1, 0x0, 1, 0x0, 1, 0x0, [f 31 0 .rov .value 0x0]⟩,
  ⟨"TWILL_GCCFG", 0x400B0840, 1, 0x0, 1, 0x0, 1, 0x0, [f 31 24 .rw .value 0x19, f 23 16 .rw .value 0x32, f 15 8 .rw .value 0x10, f 7 0 .rw .value 0x3]⟩,
  ⟨"TWILL_GCCFG2", 0x400B0844, 1, 0x0, 1, 0x0, 1, 0x0, [f 31 16 .rw .value 0x8, f 15 0 .rw .value 0x4]⟩,
  ⟨"TWILL_WLDELTA", 0x400B0848, 1, 0x0, 1, 0x0, 1, 0x0, [f 31 0 .rw .value 0x1F4]⟩,
  ⟨"TWILL_GCSTAT", 0x400B084C, 1, 0x0, 1, 0x0, 1, 0x0, [f 2 0 .rov .value 0x0]⟩,
  ⟨"TWILL_GCSRC", 0x400B0850, 1, 0x0, 1, 0x0, 1, 0x0, [f 23 0 .rov .value 0xFFFFFF]⟩,
  ⟨"TWILL_GCDST", 0x400B0854, 1, 0x0, 1, 0x0, 1, 0x0, [f 23 0 .rov .value 0xFFFFFF]⟩,
  ⟨"TWILL_SEGCNT", 0x400B0858, 1, 0x0, 1, 0x0, 1, 0x0, [f 31 0 .rov .unstated 0x0]⟩,
  ⟨"TWILL_SEGFREE", 0x400B085C, 1, 0x0, 1, 0x0, 1, 0x0, [f 31 16 .rov .unstated 0x0, f 15 0 .rov .unstated 0x0]⟩,
  ⟨"TWILL_NSCFG", 0x400B0900, 16, 0x20, 1, 0x0, 1, 0x0, [f 31 31 .rw .value 0x0, f 25 24 .rw .value 0x0, f 23 0 .rw .value 0x0]⟩,
  ⟨"TWILL_NSRES", 0x400B0904, 16, 0x20, 1, 0x0, 1, 0x0, [f 23 0 .rw .value 0x0]⟩,
  ⟨"TWILL_NSSTAT", 0x400B0908, 16, 0x20, 1, 0x0, 1, 0x0, [f 31 31 .rov .value 0x0, f 23 0 .rov .value 0x0]⟩,
  ⟨"TWILL_NSRSVD", 0x400B090C, 16, 0x20, 1, 0x0, 1, 0x0, [f 31 0 .ro .value 0x0]⟩,
  ⟨"TWILL_NSLOW_LO", 0x400B0910, 16, 0x20, 1, 0x0, 1, 0x0, [f 31 0 .rov .keep 0x0]⟩,
  ⟨"TWILL_NSLOW_HI", 0x400B0914, 16, 0x20, 1, 0x0, 1, 0x0, [f 31 0 .rov .keep 0x0]⟩,
  ⟨"TWILL_NSWP_LO", 0x400B0918, 16, 0x20, 1, 0x0, 1, 0x0, [f 31 0 .rov .keep 0x0]⟩,
  ⟨"TWILL_NSWP_HI", 0x400B091C, 16, 0x20, 1, 0x0, 1, 0x0, [f 31 0 .rov .keep 0x0]⟩]

/-! ### Power and reset -/

/-- TWEED.RSTCAUSE (R526). -/
def rTWEED_RSTCAUSE : Nat := 0x40000100
/-- TWEED.RSTREQ (R528). -/
def rTWEED_RSTREQ : Nat := 0x40000104
/-- TWEED.PWRSTAT (R500). -/
def rTWEED_PWRSTAT : Nat := 0x40000108
/-- TWEED.PWRCMD (R507). -/
def rTWEED_PWRCMD : Nat := 0x4000010C
/-- TWEED.WAKECFG (R504). -/
def rTWEED_WAKECFG : Nat := 0x40000110
/-- TWEED.RSTHOLD (R534). -/
def rTWEED_RSTHOLD : Nat := 0x40000114
/-- TWEED.RESUMEMS (R543). -/
def rTWEED_RESUMEMS : Nat := 0x40000118

/-- Power and reset registers. -/
def map09 : List RegDesc := [
  ⟨"TWEED_RSTCAUSE", 0x40000100, 1, 0x0, 1, 0x0, 1, 0x0, [f 31 16 .ro .unstated 0x0, f 14 14 .w1c .unstated 0x0, f 13 13 .ro .unstated 0x0, f 12 12 .ro .unstated 0x0, f 11 8 .ro .unstated 0x0, f 7 0 .ro .unstated 0x0]⟩,
  ⟨"TWEED_RSTREQ", 0x40000104, 1, 0x0, 1, 0x0, 1, 0x0, [f 15 0 .wo .unstated 0x0]⟩,
  ⟨"TWEED_PWRSTAT", 0x40000108, 1, 0x0, 1, 0x0, 1, 0x0, [f 9 9 .rov .value 0x0, f 8 8 .rov .value 0x0, f 5 5 .rov .value 0x0, f 4 4 .rov .value 0x0, f 2 0 .rov .value 0x0]⟩,
  ⟨"TWEED_PWRCMD", 0x4000010C, 1, 0x0, 1, 0x0, 1, 0x0, [f 31 16 .wo .unstated 0x0, f 1 1 .wo .unstated 0x0, f 0 0 .wo .unstated 0x0]⟩,
  ⟨"TWEED_WAKECFG", 0x40000110, 1, 0x0, 1, 0x0, 1, 0x0, [f 23 16 .rw .cell 0x0, f 8 8 .rw .cell 0x0, f 3 3 .rw .cell 0x0, f 2 2 .rw .cell 0x0, f 1 1 .rw .cell 0x0, f 0 0 .rw .cell 0x1]⟩,
  ⟨"TWEED_RSTHOLD", 0x40000114, 1, 0x0, 1, 0x0, 1, 0x0, [f 4 0 .ro .fuse 0x0]⟩,
  ⟨"TWEED_RESUMEMS", 0x40000118, 1, 0x0, 1, 0x0, 1, 0x0, [f 15 0 .ro .unstated 0x0]⟩]

/-! ### Dictionary engine -/

/-- DENG.CTRL (R582). -/
def rDENG_CTRL : Nat := 0x40110000
/-- DENG.STAT (R563). -/
def rDENG_STAT : Nat := 0x40110004
/-- DENG.INTSTAT (R598). -/
def rDENG_INTSTAT : Nat := 0x40110008
/-- DENG.INTEN (R598). -/
def rDENG_INTEN : Nat := 0x4011000C
/-- DENG.FWTMO (R583). -/
def rDENG_FWTMO : Nat := 0x40110010
/-- DENG.SEGTMO (R591). -/
def rDENG_SEGTMO : Nat := 0x40110014
/-- DENG.FWBUF (R595). -/
def rDENG_FWBUF : Nat := 0x40110018
/-- DENG.FWQ (R595). -/
def rDENG_FWQ : Nat := 0x4011001C
/-- DENG.FWRSP (R596). -/
def rDENG_FWRSP : Nat := 0x40110020
/-- DENG.FWRSPLEN (R596). -/
def rDENG_FWRSPLEN : Nat := 0x40110024
/-- DENG.FWSTAT (R583). -/
def rDENG_FWSTAT : Nat := 0x40110028
/-- DENG.LSUBMIT (R593). -/
def rDENG_LSUBMIT : Nat := 0x40110030
/-- DENG.LQSTAT (R593). -/
def rDENG_LQSTAT : Nat := 0x40110034
/-- DENG.REQCNT_LO (R576). -/
def rDENG_REQCNT_LO : Nat := 0x40110038
/-- DENG.REQCNT_HI (R576). -/
def rDENG_REQCNT_HI : Nat := 0x4011003C

/-- Dictionary engine registers. -/
def map10 : List RegDesc := [
  ⟨"DENG_CTRL", 0x40110000, 1, 0x0, 1, 0x0, 1, 0x0, [f 0 0 .rw .value 0x0]⟩,
  ⟨"DENG_STAT", 0x40110004, 1, 0x0, 1, 0x0, 1, 0x0, [f 31 16 .rov .value 0x0, f 15 8 .rov .value 0x0, f 1 1 .rov .value 0x0, f 0 0 .rov .value 0x0]⟩,
  ⟨"DENG_INTSTAT", 0x40110008, 1, 0x0, 1, 0x0, 1, 0x0, [f 5 5 .w1c .value 0x0, f 4 4 .w1c .value 0x0, f 3 3 .w1c .value 0x0, f 2 2 .w1c .value 0x0, f 1 1 .w1c .value 0x0, f 0 0 .w1c .value 0x0]⟩,
  ⟨"DENG_INTEN", 0x4011000C, 1, 0x0, 1, 0x0, 1, 0x0, [f 5 5 .rw .value 0x0, f 4 4 .rw .value 0x0, f 3 3 .rw .value 0x0, f 2 2 .rw .value 0x0, f 1 1 .rw .value 0x0, f 0 0 .rw .value 0x0]⟩,
  ⟨"DENG_FWTMO", 0x40110010, 1, 0x0, 1, 0x0, 1, 0x0, [f 15 0 .rw .value 0x64]⟩,
  ⟨"DENG_SEGTMO", 0x40110014, 1, 0x0, 1, 0x0, 1, 0x0, [f 15 0 .rw .value 0x7D0]⟩,
  ⟨"DENG_FWBUF", 0x40110018, 1, 0x0, 1, 0x0, 1, 0x0, [f 31 12 .rw .value 0x0]⟩,
  ⟨"DENG_FWQ", 0x4011001C, 1, 0x0, 1, 0x0, 1, 0x0, [f 15 8 .rov .value 0x0, f 7 0 .rov .value 0x0]⟩,
  ⟨"DENG_FWRSP", 0x40110020, 1, 0x0, 1, 0x0, 1, 0x0, [f 18 16 .wo .unstated 0x0, f 15 0 .wo .unstated 0x0]⟩,
  ⟨"DENG_FWRSPLEN", 0x40110024, 1, 0x0, 1, 0x0, 1, 0x0, [f 12 0 .rw .value 0x0]⟩,
  ⟨"DENG_FWSTAT", 0x40110028, 1, 0x0, 1, 0x0, 1, 0x0, [f 31 16 .rov .value 0x0, f 15 0 .rov .value 0x0]⟩,
  ⟨"DENG_LSUBMIT", 0x40110030, 1, 0x0, 1, 0x0, 1, 0x0, [f 31 0 .wo .unstated 0x0]⟩,
  ⟨"DENG_LQSTAT", 0x40110034, 1, 0x0, 1, 0x0, 1, 0x0, [f 8 8 .rov .value 0x0, f 2 0 .rov .value 0x0]⟩,
  ⟨"DENG_REQCNT_LO", 0x40110038, 1, 0x0, 1, 0x0, 1, 0x0, [f 31 0 .rov .value 0x0]⟩,
  ⟨"DENG_REQCNT_HI", 0x4011003C, 1, 0x0, 1, 0x0, 1, 0x0, [f 31 0 .rov .value 0x0]⟩]

/-! ### Gingham -/

/-- GING.GCTRL (R658). -/
def rGING_GCTRL : Nat := 0x400E0000
/-- GING.GSTAT (R632). -/
def rGING_GSTAT : Nat := 0x400E0004
/-- GING.INTSTAT (R660). -/
def rGING_INTSTAT : Nat := 0x400E0008
/-- GING.INTEN (R660). -/
def rGING_INTEN : Nat := 0x400E000C
/-- GING.NOTIFYEN (R656). -/
def rGING_NOTIFYEN : Nat := 0x400E0010
/-- GING.FWNOTIFY (R656). -/
def rGING_FWNOTIFY : Nat := 0x400E0014
/-- GING.AUTHFAIL (R635). -/
def rGING_AUTHFAIL : Nat := 0x400E0018
/-- GING.PROTERR (R620). -/
def rGING_PROTERR : Nat := 0x400E001C
/-- GING.NOTIFYDROP (R657). -/
def rGING_NOTIFYDROP : Nat := 0x400E0020
/-- GING.SESS_INFO (R632). -/
def rGING_SESS_INFO (i : Nat) : Nat := 0x400E0040 + 0x10 * i
/-- GING.SESS_TXCTR (R640). -/
def rGING_SESS_TXCTR (i : Nat) : Nat := 0x400E0044 + 0x10 * i
/-- GING.SESS_RXCTR (R640). -/
def rGING_SESS_RXCTR (i : Nat) : Nat := 0x400E0048 + 0x10 * i
/-- GING.SESS_CLOSE (R638). -/
def rGING_SESS_CLOSE (i : Nat) : Nat := 0x400E004C + 0x10 * i
/-- GING.CCTRL (R608). -/
def rGING_CCTRL (i : Nat) : Nat := 0x400E1000 + 0x1000 * i
/-- GING.NBT (R608). -/
def rGING_NBT (i : Nat) : Nat := 0x400E1004 + 0x1000 * i
/-- GING.DBT (R608). -/
def rGING_DBT (i : Nat) : Nat := 0x400E1008 + 0x1000 * i
/-- GING.TDC (R608). -/
def rGING_TDC (i : Nat) : Nat := 0x400E100C + 0x1000 * i
/-- GING.CSTAT (R665). -/
def rGING_CSTAT (i : Nat) : Nat := 0x400E1010 + 0x1000 * i
/-- GING.TSCNT (R611). -/
def rGING_TSCNT (i : Nat) : Nat := 0x400E1014 + 0x1000 * i
/-- GING.CINTSTAT (R666). -/
def rGING_CINTSTAT (i : Nat) : Nat := 0x400E1018 + 0x1000 * i
/-- GING.CINTEN (R666). -/
def rGING_CINTEN (i : Nat) : Nat := 0x400E101C + 0x1000 * i
/-- GING.TXREQ (R662). -/
def rGING_TXREQ (i : Nat) : Nat := 0x400E1020 + 0x1000 * i
/-- GING.TXCANCEL (R663). -/
def rGING_TXCANCEL (i : Nat) : Nat := 0x400E1024 + 0x1000 * i
/-- GING.TXDONE (R663). -/
def rGING_TXDONE (i : Nat) : Nat := 0x400E1028 + 0x1000 * i
/-- GING.TXLATE (R663). -/
def rGING_TXLATE (i : Nat) : Nat := 0x400E102C + 0x1000 * i
/-- GING.TXCANCD (R663). -/
def rGING_TXCANCD (i : Nat) : Nat := 0x400E1030 + 0x1000 * i
/-- GING.RXCNT (R607). -/
def rGING_RXCNT (i : Nat) : Nat := 0x400E1040 + 0x1000 * i
/-- GING.TXCNT (R662). -/
def rGING_TXCNT (i : Nat) : Nat := 0x400E1044 + 0x1000 * i
/-- GING.ERRCNT (R665). -/
def rGING_ERRCNT (i : Nat) : Nat := 0x400E1048 + 0x1000 * i
/-- GING.BUSOFFCNT (R666). -/
def rGING_BUSOFFCNT (i : Nat) : Nat := 0x400E104C + 0x1000 * i
/-- GING.STUCKCNT (R667). -/
def rGING_STUCKCNT (i : Nat) : Nat := 0x400E1050 + 0x1000 * i
/-- GING.NODECLASH (R615). -/
def rGING_NODECLASH (i : Nat) : Nat := 0x400E1054 + 0x1000 * i
/-- GING.RXFILT_ID (R610). -/
def rGING_RXFILT_ID (i : Nat) (j : Nat) : Nat := 0x400E1100 + 0x1000 * i + 0x10 * j
/-- GING.RXFILT_MASK (R610). -/
def rGING_RXFILT_MASK (i : Nat) (j : Nat) : Nat := 0x400E1104 + 0x1000 * i + 0x10 * j
/-- GING.RXFILT_CTL (R610). -/
def rGING_RXFILT_CTL (i : Nat) (j : Nat) : Nat := 0x400E1108 + 0x1000 * i + 0x10 * j
/-- GING.RXSTAT (R607). -/
def rGING_RXSTAT (i : Nat) : Nat := 0x400E1400 + 0x1000 * i
/-- GING.RXWIN (R612). -/
def rGING_RXWIN (i : Nat) (j : Nat) : Nat := 0x400E1440 + 0x1000 * i + 0x4 * j
/-- GING.TXBUF (R662). -/
def rGING_TXBUF (i : Nat) (j : Nat) (k : Nat) : Nat := 0x400E1800 + 0x1000 * i + 0x50 * j + 0x4 * k

/-- Gingham registers. -/
def map11 : List RegDesc := [
  ⟨"GING_GCTRL", 0x400E0000, 1, 0x0, 1, 0x0, 1, 0x0, [f 24 24 .rw .value 0x0, f 22 16 .rw .value 0x40, f 15 0 .rw .value 0x3E8]⟩,
  ⟨"GING_GSTAT", 0x400E0004, 1, 0x0, 1, 0x0, 1, 0x0, [f 23 16 .rov .value 0x0, f 15 8 .rov .value 0x0, f 7 0 .rov .value 0x0]⟩,
  ⟨"GING_INTSTAT", 0x400E0008, 1, 0x0, 1, 0x0, 1, 0x0, [f 5 5 .w1c .value 0x0, f 4 4 .w1c .value 0x0, f 3 3 .w1c .value 0x0, f 2 2 .w1c .value 0x0, f 1 1 .w1c .value 0x0, f 0 0 .w1c .value 0x0]⟩,
  ⟨"GING_INTEN", 0x400E000C, 1, 0x0, 1, 0x0, 1, 0x0, [f 5 5 .rw .value 0x0, f 4 4 .rw .value 0x0, f 3 3 .rw .value 0x0, f 2 2 .rw .value 0x0, f 1 1 .rw .value 0x0, f 0 0 .rw .value 0x0]⟩,
  ⟨"GING_NOTIFYEN", 0x400E0010, 1, 0x0, 1, 0x0, 1, 0x0, [f 3 3 .rw .value 0x0, f 2 2 .rw .value 0x0, f 1 1 .rw .value 0x0, f 0 0 .rw .value 0x0]⟩,
  ⟨"GING_FWNOTIFY", 0x400E0014, 1, 0x0, 1, 0x0, 1, 0x0, [f 31 16 .wo .unstated 0x0, f 15 0 .wo .unstated 0x0]⟩,
  ⟨"GING_AUTHFAIL", 0x400E0018, 1, 0x0, 1, 0x0, 1, 0x0, [f 31 0 .rov .value 0x0]⟩,
  ⟨"GING_PROTERR", 0x400E001C, 1, 0x0, 1, 0x0, 1, 0x0, [f 31 0 .rov .value 0x0]⟩,
  ⟨"GING_NOTIFYDROP", 0x400E0020, 1, 0x0, 1, 0x0, 1, 0x0, [f 31 0 .rov .value 0x0]⟩,
  ⟨"GING_SESS_INFO", 0x400E0040, 8, 0x10, 1, 0x0, 1, 0x0, [f 23 19 .rov .value 0x0, f 18 16 .rov .value 0x0, f 14 8 .rov .value 0x0, f 5 4 .rov .value 0x0, f 3 0 .rov .value 0x0]⟩,
  ⟨"GING_SESS_TXCTR", 0x400E0044, 8, 0x10, 1, 0x0, 1, 0x0, [f 31 0 .rov .value 0x0]⟩,
  ⟨"GING_SESS_RXCTR", 0x400E0048, 8, 0x10, 1, 0x0, 1, 0x0, [f 31 0 .rov .value 0x0]⟩,
  ⟨"GING_SESS_CLOSE", 0x400E004C, 8, 0x10, 1, 0x0, 1, 0x0, [f 0 0 .w1s .value 0x0]⟩,
  ⟨"GING_CCTRL", 0x400E1000, 2, 0x1000, 1, 0x0, 1, 0x0, [f 5 5 .rw .value 0x1, f 4 4 .rw .value 0x1, f 1 0 .rw .value 0x0]⟩,
  ⟨"GING_NBT", 0x400E1004, 2, 0x1000, 1, 0x0, 1, 0x0, [f 31 24 .rw .value 0x1 (lo := 1) (hi := 255), f 23 16 .rw .value 0x7F (lo := 1) (hi := 255), f 14 8 .rw .value 0x20 (lo := 1) (hi := 127), f 6 0 .rw .value 0x20 (lo := 1) (hi := 127)]⟩,
  ⟨"GING_DBT", 0x400E1008, 2, 0x1000, 1, 0x0, 1, 0x0, [f 31 24 .rw .value 0x1 (lo := 1) (hi := 255), f 23 16 .rw .value 0x1D (lo := 1) (hi := 255), f 14 8 .rw .value 0xA (lo := 1) (hi := 127), f 6 0 .rw .value 0xA (lo := 1) (hi := 127)]⟩,
  ⟨"GING_TDC", 0x400E100C, 2, 0x1000, 1, 0x0, 1, 0x0, [f 7 0 .rw .value 0x1E]⟩,
  ⟨"GING_CSTAT", 0x400E1010, 2, 0x1000, 1, 0x0, 1, 0x0, [f 24 24 .rov .value 0x0, f 23 16 .rov .value 0x0, f 15 8 .rov .value 0x0, f 2 0 .rov .value 0x0]⟩,
  ⟨"GING_TSCNT", 0x400E1014, 2, 0x1000, 1, 0x0, 1, 0x0, [f 15 0 .rov .value 0x0]⟩,
  ⟨"GING_CINTSTAT", 0x400E1018, 2, 0x1000, 1, 0x0, 1, 0x0, [f 5 5 .w1c .value 0x0, f 4 4 .w1c .value 0x0, f 3 3 .w1c .value 0x0, f 2 2 .w1c .value 0x0, f 1 1 .w1c .value 0x0, f 0 0 .w1c .value 0x0]⟩,
  ⟨"GING_CINTEN", 0x400E101C, 2, 0x1000, 1, 0x0, 1, 0x0, [f 5 5 .rw .value 0x0, f 4 4 .rw .value 0x0, f 3 3 .rw .value 0x0, f 2 2 .rw .value 0x0, f 1 1 .rw .value 0x0, f 0 0 .rw .value 0x0]⟩,
  ⟨"GING_TXREQ", 0x400E1020, 2, 0x1000, 1, 0x0, 1, 0x0, [f 23 0 .w1s .value 0x0]⟩,
  ⟨"GING_TXCANCEL", 0x400E1024, 2, 0x1000, 1, 0x0, 1, 0x0, [f 23 0 .w1s .value 0x0]⟩,
  ⟨"GING_TXDONE", 0x400E1028, 2, 0x1000, 1, 0x0, 1, 0x0, [f 23 0 .w1c .value 0x0]⟩,
  ⟨"GING_TXLATE", 0x400E102C, 2, 0x1000, 1, 0x0, 1, 0x0, [f 23 0 .w1c .value 0x0]⟩,
  ⟨"GING_TXCANCD", 0x400E1030, 2, 0x1000, 1, 0x0, 1, 0x0, [f 23 0 .w1c .value 0x0]⟩,
  ⟨"GING_RXCNT", 0x400E1040, 2, 0x1000, 1, 0x0, 1, 0x0, [f 31 0 .rov .value 0x0]⟩,
  ⟨"GING_TXCNT", 0x400E1044, 2, 0x1000, 1, 0x0, 1, 0x0, [f 31 0 .rov .value 0x0]⟩,
  ⟨"GING_ERRCNT", 0x400E1048, 2, 0x1000, 1, 0x0, 1, 0x0, [f 31 0 .rov .value 0x0]⟩,
  ⟨"GING_BUSOFFCNT", 0x400E104C, 2, 0x1000, 1, 0x0, 1, 0x0, [f 31 0 .rov .value 0x0]⟩,
  ⟨"GING_STUCKCNT", 0x400E1050, 2, 0x1000, 1, 0x0, 1, 0x0, [f 31 0 .rov .value 0x0]⟩,
  ⟨"GING_NODECLASH", 0x400E1054, 2, 0x1000, 1, 0x0, 1, 0x0, [f 31 0 .rov .value 0x0]⟩,
  ⟨"GING_RXFILT_ID", 0x400E1100, 2, 0x1000, 48, 0x10, 1, 0x0, [f 31 0 .rw .value 0x0]⟩,
  ⟨"GING_RXFILT_MASK", 0x400E1104, 2, 0x1000, 48, 0x10, 1, 0x0, [f 31 0 .rw .value 0x0]⟩,
  ⟨"GING_RXFILT_CTL", 0x400E1108, 2, 0x1000, 48, 0x10, 1, 0x0, [f 1 1 .rw .value 0x0, f 0 0 .rw .value 0x0]⟩,
  ⟨"GING_RXSTAT", 0x400E1400, 2, 0x1000, 1, 0x0, 1, 0x0, [f 8 8 .w1s .value 0x0, f 5 0 .rov .value 0x0]⟩,
  ⟨"GING_RXWIN", 0x400E1440, 2, 0x1000, 21, 0x4, 1, 0x0, [f 31 0 .rov .value 0x0]⟩,
  ⟨"GING_TXBUF", 0x400E1800, 2, 0x1000, 24, 0x50, 18, 0x4, [f 31 0 .rw .value 0x0]⟩]

/-! ### PCI Express -/

/-- PCIE.LINKSTAT (R710). -/
def rPCIE_LINKSTAT : Nat := 0x400F0000
/-- PCIE.INTSTAT (R710). -/
def rPCIE_INTSTAT : Nat := 0x400F0004
/-- PCIE.INTEN (R710). -/
def rPCIE_INTEN : Nat := 0x400F0008
/-- PCIE.RDCFG (R707). -/
def rPCIE_RDCFG : Nat := 0x400F000C
/-- PCIE.OBBASE_LO (R714). -/
def rPCIE_OBBASE_LO : Nat := 0x400F0010
/-- PCIE.OBBASE_HI (R714). -/
def rPCIE_OBBASE_HI : Nat := 0x400F0014
/-- PCIE.LINKDOWNS (R710). -/
def rPCIE_LINKDOWNS : Nat := 0x400F0018
/-- PCIE.AERSTAT (R715). -/
def rPCIE_AERSTAT : Nat := 0x400F001C
/-- PCIE.RD_CMD (R695). -/
def rPCIE_RD_CMD (i : Nat) : Nat := 0x400F1000 + 0x100 * i
/-- PCIE.RD_CFG (R695). -/
def rPCIE_RD_CFG (i : Nat) : Nat := 0x400F1004 + 0x100 * i
/-- PCIE.RD_FIRSTSEQ_LO (R695). -/
def rPCIE_RD_FIRSTSEQ_LO (i : Nat) : Nat := 0x400F1008 + 0x100 * i
/-- PCIE.RD_FIRSTSEQ_HI (R695). -/
def rPCIE_RD_FIRSTSEQ_HI (i : Nat) : Nat := 0x400F100C + 0x100 * i
/-- PCIE.RD_LASTSEQ_LO (R695). -/
def rPCIE_RD_LASTSEQ_LO (i : Nat) : Nat := 0x400F1010 + 0x100 * i
/-- PCIE.RD_LASTSEQ_HI (R695). -/
def rPCIE_RD_LASTSEQ_HI (i : Nat) : Nat := 0x400F1014 + 0x100 * i
/-- PCIE.RD_BUFLO (R697). -/
def rPCIE_RD_BUFLO (i : Nat) : Nat := 0x400F1018 + 0x100 * i
/-- PCIE.RD_BUFHI (R697). -/
def rPCIE_RD_BUFHI (i : Nat) : Nat := 0x400F101C + 0x100 * i
/-- PCIE.RD_STLO (R699). -/
def rPCIE_RD_STLO (i : Nat) : Nat := 0x400F1020 + 0x100 * i
/-- PCIE.RD_STHI (R699). -/
def rPCIE_RD_STHI (i : Nat) : Nat := 0x400F1024 + 0x100 * i
/-- PCIE.RD_RDPTR_LO (R698). -/
def rPCIE_RD_RDPTR_LO (i : Nat) : Nat := 0x400F1028 + 0x100 * i
/-- PCIE.RD_RDPTR_HI (R698). -/
def rPCIE_RD_RDPTR_HI (i : Nat) : Nat := 0x400F102C + 0x100 * i
/-- PCIE.RD_WRPTR_LO (R698). -/
def rPCIE_RD_WRPTR_LO (i : Nat) : Nat := 0x400F1030 + 0x100 * i
/-- PCIE.RD_WRPTR_HI (R698). -/
def rPCIE_RD_WRPTR_HI (i : Nat) : Nat := 0x400F1034 + 0x100 * i
/-- PCIE.RD_STATE (R696). -/
def rPCIE_RD_STATE (i : Nat) : Nat := 0x400F1038 + 0x100 * i
/-- PCIE.RD_OMITTED (R705). -/
def rPCIE_RD_OMITTED (i : Nat) : Nat := 0x400F103C + 0x100 * i
/-- PCIE.RD_OLDEST_LO (R704). -/
def rPCIE_RD_OLDEST_LO (i : Nat) : Nat := 0x400F1040 + 0x100 * i
/-- PCIE.RD_OLDEST_HI (R704). -/
def rPCIE_RD_OLDEST_HI (i : Nat) : Nat := 0x400F1044 + 0x100 * i
/-- PCIE.RD_STALL (R700). -/
def rPCIE_RD_STALL (i : Nat) : Nat := 0x400F1048 + 0x100 * i
/-- BAR0.HID (R674). -/
def rBAR0_HID : Nat := 0x1000000000000
/-- BAR0.HSTAT (R710). -/
def rBAR0_HSTAT : Nat := 0x1000000000004
/-- BAR0.MBDB (R682). -/
def rBAR0_MBDB : Nat := 0x1000000000100
/-- BAR0.MBSTAT (R682). -/
def rBAR0_MBSTAT : Nat := 0x1000000000104
/-- BAR0.NQ (R690). -/
def rBAR0_NQ (i : Nat) : Nat := 0x1000000000400 + 0x4 * i
/-- BAR0.NQSTAT (R690). -/
def rBAR0_NQSTAT : Nat := 0x1000000000500
/-- BAR0.DB (R175). -/
def rBAR0_DB (i : Nat) : Nat := 0x1000000001000 + 0x4 * i

/-- PCI Express registers. -/
def map12 : List RegDesc := [
  ⟨"PCIE_LINKSTAT", 0x400F0000, 1, 0x0, 1, 0x0, 1, 0x0, [f 20 20 .rov .value 0x0, f 19 18 .rov .value 0x0, f 17 17 .rov .value 0x0, f 16 16 .rov .value 0x0, f 14 12 .rov .value 0x0, f 9 8 .rov .value 0x0, f 5 0 .rov .value 0x0]⟩,
  ⟨"PCIE_INTSTAT", 0x400F0004, 1, 0x0, 1, 0x0, 1, 0x0, [f 6 6 .w1c .value 0x0, f 5 5 .w1c .value 0x0, f 4 4 .w1c .value 0x0, f 3 3 .w1c .value 0x0, f 2 2 .w1c .value 0x0, f 1 1 .w1c .value 0x0, f 0 0 .w1c .value 0x0]⟩,
  ⟨"PCIE_INTEN", 0x400F0008, 1, 0x0, 1, 0x0, 1, 0x0, [f 6 6 .rw .value 0x0, f 5 5 .rw .value 0x0, f 4 4 .rw .value 0x0, f 3 3 .rw .value 0x0, f 2 2 .rw .value 0x0, f 1 1 .rw .value 0x0, f 0 0 .rw .value 0x0]⟩,
  ⟨"PCIE_RDCFG", 0x400F000C, 1, 0x0, 1, 0x0, 1, 0x0, [f 7 0 .rw .value 0x19]⟩,
  ⟨"PCIE_OBBASE_LO", 0x400F0010, 1, 0x0, 1, 0x0, 1, 0x0, [f 31 28 .rw .value 0x0]⟩,
  ⟨"PCIE_OBBASE_HI", 0x400F0014, 1, 0x0, 1, 0x0, 1, 0x0, [f 31 0 .rw .value 0x0]⟩,
  ⟨"PCIE_LINKDOWNS", 0x400F0018, 1, 0x0, 1, 0x0, 1, 0x0, [f 31 0 .rov .value 0x0]⟩,
  ⟨"PCIE_AERSTAT", 0x400F001C, 1, 0x0, 1, 0x0, 1, 0x0, [f 31 16 .rov .value 0x0, f 15 0 .rov .value 0x0]⟩,
  ⟨"PCIE_RD_CMD", 0x400F1000, 8, 0x100, 1, 0x0, 1, 0x0, [f 1 1 .w1s .value 0x0, f 0 0 .w1s .value 0x0]⟩,
  ⟨"PCIE_RD_CFG", 0x400F1004, 8, 0x100, 1, 0x0, 1, 0x0, [f 31 24 .rw .value 0x4, f 20 16 .rw .value 0x10, f 8 8 .rw .value 0x0, f 5 0 .rw .value 0x0]⟩,
  ⟨"PCIE_RD_FIRSTSEQ_LO", 0x400F1008, 8, 0x100, 1, 0x0, 1, 0x0, [f 31 0 .rw .value 0x0]⟩,
  ⟨"PCIE_RD_FIRSTSEQ_HI", 0x400F100C, 8, 0x100, 1, 0x0, 1, 0x0, [f 15 0 .rw .value 0x0]⟩,
  ⟨"PCIE_RD_LASTSEQ_LO", 0x400F1010, 8, 0x100, 1, 0x0, 1, 0x0, [f 31 0 .rw .value 0xFFFFFFFF]⟩,
  ⟨"PCIE_RD_LASTSEQ_HI", 0x400F1014, 8, 0x100, 1, 0x0, 1, 0x0, [f 15 0 .rw .value 0xFFFF]⟩,
  ⟨"PCIE_RD_BUFLO", 0x400F1018, 8, 0x100, 1, 0x0, 1, 0x0, [f 31 12 .rw .value 0x0]⟩,
  ⟨"PCIE_RD_BUFHI", 0x400F101C, 8, 0x100, 1, 0x0, 1, 0x0, [f 31 0 .rw .value 0x0]⟩,
  ⟨"PCIE_RD_STLO", 0x400F1020, 8, 0x100, 1, 0x0, 1, 0x0, [f 31 5 .rw .value 0x0]⟩,
  ⟨"PCIE_RD_STHI", 0x400F1024, 8, 0x100, 1, 0x0, 1, 0x0, [f 31 0 .rw .value 0x0]⟩,
  ⟨"PCIE_RD_RDPTR_LO", 0x400F1028, 8, 0x100, 1, 0x0, 1, 0x0, [f 31 0 .rw .value 0x0]⟩,
  ⟨"PCIE_RD_RDPTR_HI", 0x400F102C, 8, 0x100, 1, 0x0, 1, 0x0, [f 31 0 .rw .value 0x0]⟩,
  ⟨"PCIE_RD_WRPTR_LO", 0x400F1030, 8, 0x100, 1, 0x0, 1, 0x0, [f 31 0 .rov .value 0x0]⟩,
  ⟨"PCIE_RD_WRPTR_HI", 0x400F1034, 8, 0x100, 1, 0x0, 1, 0x0, [f 31 0 .rov .value 0x0]⟩,
  ⟨"PCIE_RD_STATE", 0x400F1038, 8, 0x100, 1, 0x0, 1, 0x0, [f 31 16 .rov .value 0x0, f 3 2 .rov .value 0x0, f 1 0 .rov .value 0x0]⟩,
  ⟨"PCIE_RD_OMITTED", 0x400F103C, 8, 0x100, 1, 0x0, 1, 0x0, [f 31 0 .rov .value 0x0]⟩,
  ⟨"PCIE_RD_OLDEST_LO", 0x400F1040, 8, 0x100, 1, 0x0, 1, 0x0, [f 31 0 .rov .value 0x0]⟩,
  ⟨"PCIE_RD_OLDEST_HI", 0x400F1044, 8, 0x100, 1, 0x0, 1, 0x0, [f 15 0 .rov .value 0x0]⟩,
  ⟨"PCIE_RD_STALL", 0x400F1048, 8, 0x100, 1, 0x0, 1, 0x0, [f 15 0 .rw .value 0x1E]⟩,
  ⟨"BAR0_HID", 0x1000000000000, 1, 0x0, 1, 0x0, 1, 0x0, [f 31 0 .ro .value 0x3104840]⟩,
  ⟨"BAR0_HSTAT", 0x1000000000004, 1, 0x0, 1, 0x0, 1, 0x0, [f 7 4 .rov .value 0x0, f 3 3 .w1c .value 0x0, f 2 2 .w1c .value 0x0, f 1 1 .rov .value 0x0, f 0 0 .rov .value 0x0]⟩,
  ⟨"BAR0_MBDB", 0x1000000000100, 1, 0x0, 1, 0x0, 1, 0x0, [f 3 0 .w1s .value 0x0]⟩,
  ⟨"BAR0_MBSTAT", 0x1000000000104, 1, 0x0, 1, 0x0, 1, 0x0, [f 11 8 .w1c .value 0x0, f 3 0 .rov .value 0x0]⟩,
  ⟨"BAR0_NQ", 0x1000000000400, 64, 0x4, 1, 0x0, 1, 0x0, [f 31 0 .rov .value 0x0]⟩,
  ⟨"BAR0_NQSTAT", 0x1000000000500, 1, 0x0, 1, 0x0, 1, 0x0, [f 31 16 .rov .value 0x0, f 8 8 .w1s .value 0x0, f 4 0 .rov .value 0x0]⟩,
  ⟨"BAR0_DB", 0x1000000001000, 64, 0x4, 1, 0x0, 1, 0x0, [f 9 0 .wo .unstated 0x0]⟩]

/-! ### Cards -/

/-- CHAM.PCTL (R718). -/
def rCHAM_PCTL (i : Nat) : Nat := 0x400C0000 + 0x200 * i
/-- CHAM.PSTAT (R717). -/
def rCHAM_PSTAT (i : Nat) : Nat := 0x400C0004 + 0x200 * i
/-- CHAM.INTSTAT (R718). -/
def rCHAM_INTSTAT (i : Nat) : Nat := 0x400C0008 + 0x200 * i
/-- CHAM.INTEN (R718). -/
def rCHAM_INTEN (i : Nat) : Nat := 0x400C000C + 0x200 * i
/-- CHAM.CMD (R740). -/
def rCHAM_CMD (i : Nat) : Nat := 0x400C0010 + 0x200 * i
/-- CHAM.ARG (R740). -/
def rCHAM_ARG (i : Nat) : Nat := 0x400C0014 + 0x200 * i
/-- CHAM.RESP (R740). -/
def rCHAM_RESP (i : Nat) (j : Nat) : Nat := 0x400C0018 + 0x200 * i + 0x4 * j
/-- CHAM.DMALO (R740). -/
def rCHAM_DMALO (i : Nat) : Nat := 0x400C0028 + 0x200 * i
/-- CHAM.DMAHI (R740). -/
def rCHAM_DMAHI (i : Nat) : Nat := 0x400C002C + 0x200 * i
/-- CHAM.BLKCNT (R740). -/
def rCHAM_BLKCNT (i : Nat) : Nat := 0x400C0030 + 0x200 * i
/-- CHAM.XSTAT (R742). -/
def rCHAM_XSTAT (i : Nat) : Nat := 0x400C0034 + 0x200 * i
/-- CHAM.PABORT (R742). -/
def rCHAM_PABORT (i : Nat) : Nat := 0x400C0038 + 0x200 * i
/-- CHAM.ABORTSTAT (R742). -/
def rCHAM_ABORTSTAT (i : Nat) : Nat := 0x400C003C + 0x200 * i
/-- CHAM.CID (R719). -/
def rCHAM_CID (i : Nat) (j : Nat) : Nat := 0x400C0040 + 0x200 * i + 0x4 * j
/-- CHAM.CAPBLK (R719). -/
def rCHAM_CAPBLK (i : Nat) : Nat := 0x400C0050 + 0x200 * i
/-- CHAM.ERRCNT (R731). -/
def rCHAM_ERRCNT (i : Nat) : Nat := 0x400C0054 + 0x200 * i
/-- CHAM.RETUNECNT (R725). -/
def rCHAM_RETUNECNT (i : Nat) : Nat := 0x400C0058 + 0x200 * i
/-- CHAM.XCFG (R745). -/
def rCHAM_XCFG : Nat := 0x400C0800
/-- CHAM.EXPLBA (R745). -/
def rCHAM_EXPLBA : Nat := 0x400C0804
/-- CHAM.XSTATE (R751). -/
def rCHAM_XSTATE : Nat := 0x400C0808
/-- CHAM.XBYTES_LO (R750). -/
def rCHAM_XBYTES_LO : Nat := 0x400C080C
/-- CHAM.XBYTES_HI (R750). -/
def rCHAM_XBYTES_HI : Nat := 0x400C0810
/-- CHAM.OMITTED (R705). -/
def rCHAM_OMITTED : Nat := 0x400C0814
/-- CHAM.OLDEST_LO (R704). -/
def rCHAM_OLDEST_LO : Nat := 0x400C0818
/-- CHAM.OLDEST_HI (R704). -/
def rCHAM_OLDEST_HI : Nat := 0x400C081C
/-- CHAM.XDIGEST (R754). -/
def rCHAM_XDIGEST (i : Nat) : Nat := 0x400C0820 + 0x4 * i
/-- CHAM.XCOURT (R759). -/
def rCHAM_XCOURT : Nat := 0x400C0840
/-- CHAM.XBUSY (R733). -/
def rCHAM_XBUSY : Nat := 0x400C0844
/-- CHAM.XRETUNE (R725). -/
def rCHAM_XRETUNE : Nat := 0x400C0848
/-- PERC.SCTL (R762). -/
def rPERC_SCTL (i : Nat) : Nat := 0x400D0000 + 0x100 * i
/-- PERC.SSTAT (R766). -/
def rPERC_SSTAT (i : Nat) : Nat := 0x400D0004 + 0x100 * i
/-- PERC.INTSTAT (R762). -/
def rPERC_INTSTAT (i : Nat) : Nat := 0x400D0008 + 0x100 * i
/-- PERC.INTEN (R762). -/
def rPERC_INTEN (i : Nat) : Nat := 0x400D000C + 0x100 * i
/-- PERC.FIDI (R766). -/
def rPERC_FIDI (i : Nat) : Nat := 0x400D0010 + 0x100 * i
/-- PERC.T1CFG (R766). -/
def rPERC_T1CFG (i : Nat) : Nat := 0x400D0014 + 0x100 * i
/-- PERC.CLKDIV (R769). -/
def rPERC_CLKDIV (i : Nat) : Nat := 0x400D0018 + 0x100 * i
/-- PERC.ATRLEN (R765). -/
def rPERC_ATRLEN (i : Nat) : Nat := 0x400D001C + 0x100 * i
/-- PERC.ATR (R765). -/
def rPERC_ATR (i : Nat) (j : Nat) : Nat := 0x400D0020 + 0x100 * i + 0x4 * j
/-- PERC.TXFIFO (R770). -/
def rPERC_TXFIFO (i : Nat) : Nat := 0x400D0044 + 0x100 * i
/-- PERC.RXFIFO (R770). -/
def rPERC_RXFIFO (i : Nat) : Nat := 0x400D0048 + 0x100 * i
/-- PERC.FIFOSTAT (R775). -/
def rPERC_FIFOSTAT (i : Nat) : Nat := 0x400D004C + 0x100 * i
/-- PERC.AUTHCTL (R776). -/
def rPERC_AUTHCTL : Nat := 0x400D0800
/-- PERC.AUTHSTAT (R777). -/
def rPERC_AUTHSTAT : Nat := 0x400D0804
/-- PERC.AUTHCHAL (R776). -/
def rPERC_AUTHCHAL (i : Nat) : Nat := 0x400D0810 + 0x4 * i
/-- PERC.AUTHRSP (R777). -/
def rPERC_AUTHRSP (i : Nat) : Nat := 0x400D0820 + 0x4 * i
/-- PERC.PREQ (R778). -/
def rPERC_PREQ : Nat := 0x400D0830
/-- PERC.PQSTAT (R778). -/
def rPERC_PQSTAT : Nat := 0x400D0834

/-- Cards registers. -/
def map13 : List RegDesc := [
  ⟨"CHAM_PCTL", 0x400C0000, 2, 0x200, 1, 0x0, 1, 0x0, [f 8 8 .rw .value 0x0, f 7 4 .rw .value 0xF, f 2 2 .rw .value 0x1, f 1 1 .w1s .value 0x0, f 0 0 .rw .value 0x1]⟩,
  ⟨"CHAM_PSTAT", 0x400C0004, 2, 0x200, 1, 0x0, 1, 0x0, [f 19 19 .rov .value 0x0, f 18 18 .rov .value 0x0, f 17 17 .rov .value 0x0, f 16 16 .rov .value 0x0, f 13 8 .rov .value 0x0, f 7 4 .rov .value 0x0, f 2 0 .rov .value 0x0]⟩,
  ⟨"CHAM_INTSTAT", 0x400C0008, 2, 0x200, 1, 0x0, 1, 0x0, [f 7 7 .w1c .value 0x0, f 6 6 .w1c .value 0x0, f 5 5 .w1c .value 0x0, f 4 4 .w1c .value 0x0, f 3 3 .w1c .value 0x0, f 2 2 .w1c .value 0x0, f 1 1 .w1c .value 0x0, f 0 0 .w1c .value 0x0]⟩,
  ⟨"CHAM_INTEN", 0x400C000C, 2, 0x200, 1, 0x0, 1, 0x0, [f 7 7 .rw .value 0x0, f 6 6 .rw .value 0x0, f 5 5 .rw .value 0x0, f 4 4 .rw .value 0x0, f 3 3 .rw .value 0x0, f 2 2 .rw .value 0x0, f 1 1 .rw .value 0x0, f 0 0 .rw .value 0x0]⟩,
  ⟨"CHAM_CMD", 0x400C0010, 2, 0x200, 1, 0x0, 1, 0x0, [f 31 31 .w1s .value 0x0, f 11 11 .rw .value 0x0, f 10 10 .rw .value 0x0, f 9 8 .rw .value 0x0, f 5 0 .rw .value 0x0]⟩,
  ⟨"CHAM_ARG", 0x400C0014, 2, 0x200, 1, 0x0, 1, 0x0, [f 31 0 .rw .value 0x0]⟩,
  ⟨"CHAM_RESP", 0x400C0018, 2, 0x200, 4, 0x4, 1, 0x0, [f 31 0 .rov .value 0x0]⟩,
  ⟨"CHAM_DMALO", 0x400C0028, 2, 0x200, 1, 0x0, 1, 0x0, [f 31 0 .rw .value 0x0]⟩,
  ⟨"CHAM_DMAHI", 0x400C002C, 2, 0x200, 1, 0x0, 1, 0x0, [f 31 0 .rw .value 0x0]⟩,
  ⟨"CHAM_BLKCNT", 0x400C0030, 2, 0x200, 1, 0x0, 1, 0x0, [f 15 0 .rw .value 0x0]⟩,
  ⟨"CHAM_XSTAT", 0x400C0034, 2, 0x200, 1, 0x0, 1, 0x0, [f 8 8 .w1c .value 0x0, f 3 0 .rov .value 0x0]⟩,
  ⟨"CHAM_PABORT", 0x400C0038, 2, 0x200, 1, 0x0, 1, 0x0, [f 0 0 .w1s .value 0x0]⟩,
  ⟨"CHAM_ABORTSTAT", 0x400C003C, 2, 0x200, 1, 0x0, 1, 0x0, [f 1 0 .rov .value 0x0]⟩,
  ⟨"CHAM_CID", 0x400C0040, 2, 0x200, 4, 0x4, 1, 0x0, [f 31 0 .rov .value 0x0]⟩,
  ⟨"CHAM_CAPBLK", 0x400C0050, 2, 0x200, 1, 0x0, 1, 0x0, [f 31 0 .rov .value 0x0]⟩,
  ⟨"CHAM_ERRCNT", 0x400C0054, 2, 0x200, 1, 0x0, 1, 0x0, [f 31 0 .rov .value 0x0]⟩,
  ⟨"CHAM_RETUNECNT", 0x400C0058, 2, 0x200, 1, 0x0, 1, 0x0, [f 31 0 .rov .value 0x0]⟩,
  ⟨"CHAM_XCFG", 0x400C0800, 1, 0x0, 1, 0x0, 1, 0x0, [f 23 16 .rw .value 0xA, f 8 8 .rw .value 0x0, f 7 0 .rw .value 0x19]⟩,
  ⟨"CHAM_EXPLBA", 0x400C0804, 1, 0x0, 1, 0x0, 1, 0x0, [f 31 0 .rw .value 0x800]⟩,
  ⟨"CHAM_XSTATE", 0x400C0808, 1, 0x0, 1, 0x0, 1, 0x0, [f 31 16 .rov .value 0x0, f 5 4 .rov .value 0x0, f 2 0 .rov .value 0x0]⟩,
  ⟨"CHAM_XBYTES_LO", 0x400C080C, 1, 0x0, 1, 0x0, 1, 0x0, [f 31 0 .rov .value 0x0]⟩,
  ⟨"CHAM_XBYTES_HI", 0x400C0810, 1, 0x0, 1, 0x0, 1, 0x0, [f 31 0 .rov .value 0x0]⟩,
  ⟨"CHAM_OMITTED", 0x400C0814, 1, 0x0, 1, 0x0, 1, 0x0, [f 31 0 .rov .value 0x0]⟩,
  ⟨"CHAM_OLDEST_LO", 0x400C0818, 1, 0x0, 1, 0x0, 1, 0x0, [f 31 0 .rov .value 0x0]⟩,
  ⟨"CHAM_OLDEST_HI", 0x400C081C, 1, 0x0, 1, 0x0, 1, 0x0, [f 15 0 .rov .value 0x0]⟩,
  ⟨"CHAM_XDIGEST", 0x400C0820, 8, 0x4, 1, 0x0, 1, 0x0, [f 31 0 .rov .value 0x0]⟩,
  ⟨"CHAM_XCOURT", 0x400C0840, 1, 0x0, 1, 0x0, 1, 0x0, [f 31 16 .rov .value 0x0, f 9 9 .rov .value 0x0, f 8 8 .rov .value 0x0, f 3 0 .rov .value 0x0]⟩,
  ⟨"CHAM_XBUSY", 0x400C0844, 1, 0x0, 1, 0x0, 1, 0x0, [f 31 16 .rw .value 0xBB8, f 15 0 .rw .value 0x3E8]⟩,
  ⟨"CHAM_XRETUNE", 0x400C0848, 1, 0x0, 1, 0x0, 1, 0x0, [f 23 16 .rw .value 0xF, f 15 0 .rw .value 0x258]⟩,
  ⟨"PERC_SCTL", 0x400D0000, 2, 0x100, 1, 0x0, 1, 0x0, [f 9 8 .rw .value 0x3, f 6 6 .rw .value 0x1, f 5 5 .rw .value 0x0, f 4 4 .rw .value 0x1, f 3 3 .rw .value 0x1, f 2 2 .w1s .value 0x0, f 1 1 .w1s .value 0x0, f 0 0 .rw .value 0x1]⟩,
  ⟨"PERC_SSTAT", 0x400D0004, 2, 0x100, 1, 0x0, 1, 0x0, [f 13 12 .rov .value 0x0, f 11 8 .rov .value 0x0, f 6 6 .rov .value 0x0, f 5 5 .rov .value 0x0, f 4 4 .rov .value 0x0, f 2 0 .rov .value 0x0]⟩,
  ⟨"PERC_INTSTAT", 0x400D0008, 2, 0x100, 1, 0x0, 1, 0x0, [f 7 7 .w1c .value 0x0, f 6 6 .w1c .value 0x0, f 5 5 .w1c .value 0x0, f 4 4 .w1c .value 0x0, f 3 3 .w1c .value 0x0, f 2 2 .w1c .value 0x0, f 1 1 .w1c .value 0x0, f 0 0 .w1c .value 0x0]⟩,
  ⟨"PERC_INTEN", 0x400D000C, 2, 0x100, 1, 0x0, 1, 0x0, [f 7 7 .rw .value 0x0, f 6 6 .rw .value 0x0, f 5 5 .rw .value 0x0, f 4 4 .rw .value 0x0, f 3 3 .rw .value 0x0, f 2 2 .rw .value 0x0, f 1 1 .rw .value 0x0, f 0 0 .rw .value 0x0]⟩,
  ⟨"PERC_FIDI", 0x400D0010, 2, 0x100, 1, 0x0, 1, 0x0, [f 23 16 .rw .value 0xA, f 15 8 .rw .value 0x0, f 7 4 .rw .value 0x1, f 3 0 .rw .value 0x1]⟩,
  ⟨"PERC_T1CFG", 0x400D0014, 2, 0x100, 1, 0x0, 1, 0x0, [f 16 16 .rw .value 0x0, f 15 12 .rw .value 0x4, f 11 8 .rw .value 0xD, f 7 0 .rw .value 0x20]⟩,
  ⟨"PERC_CLKDIV", 0x400D0018, 2, 0x100, 1, 0x0, 1, 0x0, [f 7 0 .rw .value 0x80]⟩,
  ⟨"PERC_ATRLEN", 0x400D001C, 2, 0x100, 1, 0x0, 1, 0x0, [f 5 0 .rov .value 0x0]⟩,
  ⟨"PERC_ATR", 0x400D0020, 2, 0x100, 9, 0x4, 1, 0x0, [f 31 0 .rov .value 0x0]⟩,
  ⟨"PERC_TXFIFO", 0x400D0044, 2, 0x100, 1, 0x0, 1, 0x0, [f 7 0 .wo .unstated 0x0]⟩,
  ⟨"PERC_RXFIFO", 0x400D0048, 2, 0x100, 1, 0x0, 1, 0x0, [f 7 0 .rov .value 0x0]⟩,
  ⟨"PERC_FIFOSTAT", 0x400D004C, 2, 0x100, 1, 0x0, 1, 0x0, [f 19 16 .rov .value 0x0, f 14 8 .rov .value 0x0, f 6 0 .rov .value 0x0]⟩,
  ⟨"PERC_AUTHCTL", 0x400D0800, 1, 0x0, 1, 0x0, 1, 0x0, [f 31 31 .w1s .value 0x0, f 8 8 .rw .value 0x0, f 3 0 .rw .value 0x0]⟩,
  ⟨"PERC_AUTHSTAT", 0x400D0804, 1, 0x0, 1, 0x0, 1, 0x0, [f 1 0 .rov .value 0x0]⟩,
  ⟨"PERC_AUTHCHAL", 0x400D0810, 4, 0x4, 1, 0x0, 1, 0x0, [f 31 0 .rov .value 0x0]⟩,
  ⟨"PERC_AUTHRSP", 0x400D0820, 4, 0x4, 1, 0x0, 1, 0x0, [f 31 0 .wo .unstated 0x0]⟩,
  ⟨"PERC_PREQ", 0x400D0830, 1, 0x0, 1, 0x0, 1, 0x0, [f 31 0 .wo .unstated 0x0]⟩,
  ⟨"PERC_PQSTAT", 0x400D0834, 1, 0x0, 1, 0x0, 1, 0x0, [f 8 8 .rov .value 0x0, f 2 0 .rov .value 0x0]⟩]

/-! ### Serge core -/

/-- SPILL.WSP (R795). -/
def rSPILL_WSP : Nat := 0xE0020000
/-- SPILL.WSL (R797). -/
def rSPILL_WSL : Nat := 0xE0020004
/-- SPILL.WSB (R796). -/
def rSPILL_WSB : Nat := 0xE0020008
/-- SPILL.WSTAT (R796). -/
def rSPILL_WSTAT : Nat := 0xE002000C
/-- SPILL.SPILLCNT (R796). -/
def rSPILL_SPILLCNT : Nat := 0xE0020010
/-- SPILL.FILLCNT (R796). -/
def rSPILL_FILLCNT : Nat := 0xE0020014
/-- SPILL.LOWWSP (R853). -/
def rSPILL_LOWWSP : Nat := 0xE0020018
/-- TIMER.CTRL (R847). -/
def rTIMER_CTRL (i : Nat) : Nat := 0xE0010000 + 0x10 * i
/-- TIMER.LOAD (R847). -/
def rTIMER_LOAD (i : Nat) : Nat := 0xE0010004 + 0x10 * i
/-- TIMER.COUNT (R848). -/
def rTIMER_COUNT (i : Nat) : Nat := 0xE0010008 + 0x10 * i
/-- TIMER.STAT (R848). -/
def rTIMER_STAT (i : Nat) : Nat := 0xE001000C + 0x10 * i

/-- Serge core registers. -/
def map14 : List RegDesc := [
  ⟨"SPILL_WSP", 0xE0020000, 1, 0x0, 1, 0x0, 1, 0x0, [f 31 6 .rw .value 0x408000]⟩,
  ⟨"SPILL_WSL", 0xE0020004, 1, 0x0, 1, 0x0, 1, 0x0, [f 31 6 .rw .value 0x407F00]⟩,
  ⟨"SPILL_WSB", 0xE0020008, 1, 0x0, 1, 0x0, 1, 0x0, [f 31 6 .rw .value 0x408000]⟩,
  ⟨"SPILL_WSTAT", 0xE002000C, 1, 0x0, 1, 0x0, 1, 0x0, [f 16 16 .rov .value 0x0, f 11 8 .rov .value 0x1, f 7 4 .rov .value 0x0, f 3 0 .rov .value 0x0]⟩,
  ⟨"SPILL_SPILLCNT", 0xE0020010, 1, 0x0, 1, 0x0, 1, 0x0, [f 31 0 .rov .value 0x0]⟩,
  ⟨"SPILL_FILLCNT", 0xE0020014, 1, 0x0, 1, 0x0, 1, 0x0, [f 31 0 .rov .value 0x0]⟩,
  ⟨"SPILL_LOWWSP", 0xE0020018, 1, 0x0, 1, 0x0, 1, 0x0, [f 31 6 .rw .value 0x408000]⟩,
  ⟨"TIMER_CTRL", 0xE0010000, 4, 0x10, 1, 0x0, 1, 0x0, [f 15 8 .rw .value 0x0, f 2 2 .rw .value 0x0, f 1 1 .rw .value 0x0, f 0 0 .rw .value 0x0]⟩,
  ⟨"TIMER_LOAD", 0xE0010004, 4, 0x10, 1, 0x0, 1, 0x0, [f 31 0 .rw .value 0x0]⟩,
  ⟨"TIMER_COUNT", 0xE0010008, 4, 0x10, 1, 0x0, 1, 0x0, [f 31 0 .rov .value 0x0]⟩,
  ⟨"TIMER_STAT", 0xE001000C, 4, 0x10, 1, 0x0, 1, 0x0, [f 0 0 .w1c .value 0x0]⟩]

/-! ### Traps, checkers, watchdog -/

/-- IC.SRC (R863). -/
def rIC_SRC (i : Nat) : Nat := 0xE0000000 + 0x4 * i
/-- IC.CURLVL (R865). -/
def rIC_CURLVL : Nat := 0xE0000400
/-- IC.EOI (R866). -/
def rIC_EOI : Nat := 0xE0000404
/-- IC.SWISET (R868). -/
def rIC_SWISET : Nat := 0xE0000408
/-- IC.SWICLR (R868). -/
def rIC_SWICLR : Nat := 0xE000040C
/-- IC.NMIPEND (R872). -/
def rIC_NMIPEND : Nat := 0xE0000410
/-- CFAULT.SERRADDR (R882). -/
def rCFAULT_SERRADDR : Nat := 0xE0001000
/-- CFAULT.SERRINFO (R882). -/
def rCFAULT_SERRINFO : Nat := 0xE0001004
/-- CFAULT.DFPC (R880). -/
def rCFAULT_DFPC : Nat := 0xE0001008
/-- CFAULT.DFCAUSE (R880). -/
def rCFAULT_DFCAUSE : Nat := 0xE000100C
/-- CFAULT.ECCCORR (R890). -/
def rCFAULT_ECCCORR : Nat := 0xE0001010
/-- CFAULT.ECCUNC (R890). -/
def rCFAULT_ECCUNC : Nat := 0xE0001014
/-- CFAULT.LSSTAT (R888). -/
def rCFAULT_LSSTAT : Nat := 0xE0001018
/-- CHK.BASE (R906). -/
def rCHK_BASE (i : Nat) (j : Nat) : Nat := 0x40030000 + 0x1000 * i + 0x20 * j
/-- CHK.LIMIT (R906). -/
def rCHK_LIMIT (i : Nat) (j : Nat) : Nat := 0x40030004 + 0x1000 * i + 0x20 * j
/-- CHK11.BASE (R906). -/
def rCHK11_BASE (i : Nat) : Nat := 0x4003B000 + 0x20 * i
/-- CHK11.LIMIT (R906). -/
def rCHK11_LIMIT (i : Nat) : Nat := 0x4003B004 + 0x20 * i
/-- CHK.MASKLO (R906). -/
def rCHK_MASKLO (i : Nat) (j : Nat) : Nat := 0x40030008 + 0x1000 * i + 0x20 * j
/-- CHK.MASKHI (R906). -/
def rCHK_MASKHI (i : Nat) (j : Nat) : Nat := 0x4003000C + 0x1000 * i + 0x20 * j
/-- CHK.CFG (R906). -/
def rCHK_CFG (i : Nat) (j : Nat) : Nat := 0x40030010 + 0x1000 * i + 0x20 * j
/-- CHK.FADDR (R911). -/
def rCHK_FADDR (i : Nat) : Nat := 0x40030400 + 0x1000 * i
/-- CHK.FINFO (R911). -/
def rCHK_FINFO (i : Nat) : Nat := 0x40030404 + 0x1000 * i
/-- CHK.FCNT (R911). -/
def rCHK_FCNT (i : Nat) : Nat := 0x40030408 + 0x1000 * i
/-- CHK.FADDRHI (R911). -/
def rCHK_FADDRHI (i : Nat) : Nat := 0x4003040C + 0x1000 * i
/-- ACC.INTSTAT (R911). -/
def rACC_INTSTAT : Nat := 0x4003F000
/-- ACC.INTEN (R911). -/
def rACC_INTEN : Nat := 0x4003F004
/-- ACC.STRCORR (R890). -/
def rACC_STRCORR : Nat := 0x4003F008
/-- ACC.STRUNC (R890). -/
def rACC_STRUNC : Nat := 0x4003F00C
/-- TWEED.WDCTRL (R897). -/
def rTWEED_WDCTRL : Nat := 0x40000200
/-- TWEED.WDSERVICE (R894). -/
def rTWEED_WDSERVICE : Nat := 0x40000204
/-- TWEED.WDCOUNT (R895). -/
def rTWEED_WDCOUNT : Nat := 0x40000208
/-- TWEED.WDSTAT (R895). -/
def rTWEED_WDSTAT : Nat := 0x4000020C

/-- Traps, checkers, watchdog registers. -/
def map15 : List RegDesc := [
  ⟨"IC_SRC", 0xE0000000, 256, 0x4, 1, 0x0, 1, 0x0, [f 17 17 .rov .value 0x0, f 16 16 .rov .value 0x0, f 8 8 .rw .value 0x0, f 3 0 .rw .value 0x0]⟩,
  ⟨"IC_CURLVL", 0xE0000400, 1, 0x0, 1, 0x0, 1, 0x0, [f 11 8 .rov .value 0x0, f 3 0 .rov .value 0x0]⟩,
  ⟨"IC_EOI", 0xE0000404, 1, 0x0, 1, 0x0, 1, 0x0, [f 31 0 .wo .unstated 0x0]⟩,
  ⟨"IC_SWISET", 0xE0000408, 1, 0x0, 1, 0x0, 1, 0x0, [f 7 0 .wo .unstated 0x0]⟩,
  ⟨"IC_SWICLR", 0xE000040C, 1, 0x0, 1, 0x0, 1, 0x0, [f 7 0 .wo .unstated 0x0]⟩,
  ⟨"IC_NMIPEND", 0xE0000410, 1, 0x0, 1, 0x0, 1, 0x0, [f 2 2 .rov .value 0x0, f 1 1 .rov .value 0x0, f 0 0 .rov .value 0x0]⟩,
  ⟨"CFAULT_SERRADDR", 0xE0001000, 1, 0x0, 1, 0x0, 1, 0x0, [f 31 0 .rov .value 0x0]⟩,
  ⟨"CFAULT_SERRINFO", 0xE0001004, 1, 0x0, 1, 0x0, 1, 0x0, [f 31 16 .rov .value 0x0, f 3 1 .rov .value 0x0, f 0 0 .w1c .value 0x0]⟩,
  ⟨"CFAULT_DFPC", 0xE0001008, 1, 0x0, 1, 0x0, 1, 0x0, [f 31 0 .ro .keep 0x0]⟩,
  ⟨"CFAULT_DFCAUSE", 0xE000100C, 1, 0x0, 1, 0x0, 1, 0x0, [f 31 31 .ro .keep 0x0, f 7 0 .ro .keep 0x0]⟩,
  ⟨"CFAULT_ECCCORR", 0xE0001010, 1, 0x0, 1, 0x0, 1, 0x0, [f 31 0 .rov .value 0x0]⟩,
  ⟨"CFAULT_ECCUNC", 0xE0001014, 1, 0x0, 1, 0x0, 1, 0x0, [f 31 0 .rov .value 0x0]⟩,
  ⟨"CFAULT_LSSTAT", 0xE0001018, 1, 0x0, 1, 0x0, 1, 0x0, [f 15 8 .ro .unstated 0x0, f 1 1 .ro .unstated 0x0, f 0 0 .ro .unstated 0x0]⟩,
  ⟨"CHK_BASE", 0x40030000, 11, 0x1000, 32, 0x20, 1, 0x0, [f 31 12 .rw .value 0x0]⟩,
  ⟨"CHK_LIMIT", 0x40030004, 11, 0x1000, 32, 0x20, 1, 0x0, [f 31 12 .rw .value 0x0]⟩,
  ⟨"CHK11_BASE", 0x4003B000, 32, 0x20, 1, 0x0, 1, 0x0, [f 31 0 .rw .value 0x0]⟩,
  ⟨"CHK11_LIMIT", 0x4003B004, 32, 0x20, 1, 0x0, 1, 0x0, [f 31 0 .rw .value 0x0]⟩,
  ⟨"CHK_MASKLO", 0x40030008, 12, 0x1000, 32, 0x20, 1, 0x0, [f 31 0 .rw .value 0x0]⟩,
  ⟨"CHK_MASKHI", 0x4003000C, 12, 0x1000, 32, 0x20, 1, 0x0, [f 31 0 .rw .value 0x0]⟩,
  ⟨"CHK_CFG", 0x40030010, 12, 0x1000, 32, 0x20, 1, 0x0, [f 19 18 .rw .value 0x0 (lo := 0) (hi := 2), f 17 17 .rw .value 0x0, f 16 16 .rw .value 0x0, f 13 8 .rw .value 0x0, f 7 6 .rw .value 0x0, f 5 5 .rw .value 0x0, f 4 4 .rw .value 0x0, f 3 3 .rw .value 0x0, f 2 2 .rw .value 0x0, f 1 1 .w1sk .value 0x0, f 0 0 .rw .value 0x0]⟩,
  ⟨"CHK_FADDR", 0x40030400, 12, 0x1000, 1, 0x0, 1, 0x0, [f 31 0 .rov .value 0x0]⟩,
  ⟨"CHK_FINFO", 0x40030404, 12, 0x1000, 1, 0x0, 1, 0x0, [f 31 31 .w1c .value 0x0, f 21 16 .rov .value 0x0, f 15 15 .rov .value 0x0, f 14 14 .rov .value 0x0, f 13 13 .rov .value 0x0, f 12 12 .rov .value 0x0, f 11 6 .rov .value 0x0, f 5 0 .rov .value 0x0]⟩,
  ⟨"CHK_FCNT", 0x40030408, 12, 0x1000, 1, 0x0, 1, 0x0, [f 31 0 .rov .value 0x0]⟩,
  ⟨"CHK_FADDRHI", 0x4003040C, 12, 0x1000, 1, 0x0, 1, 0x0, [f 11 0 .rov .value 0x0]⟩,
  ⟨"ACC_INTSTAT", 0x4003F000, 1, 0x0, 1, 0x0, 1, 0x0, [f 11 0 .rov .value 0x0]⟩,
  ⟨"ACC_INTEN", 0x4003F004, 1, 0x0, 1, 0x0, 1, 0x0, [f 11 0 .rw .value 0x0]⟩,
  ⟨"ACC_STRCORR", 0x4003F008, 1, 0x0, 1, 0x0, 1, 0x0, [f 31 0 .rov .value 0x0]⟩,
  ⟨"ACC_STRUNC", 0x4003F00C, 1, 0x0, 1, 0x0, 1, 0x0, [f 31 0 .rov .value 0x0]⟩,
  ⟨"TWEED_WDCTRL", 0x40000200, 1, 0x0, 1, 0x0, 1, 0x0, [f 31 16 .rw .value 0x7D0 (lo := 10) (hi := 65535), f 7 4 .rw .value 0x0, f 2 2 .rw .value 0x0, f 1 1 .w1sk .value 0x0, f 0 0 .rw .value 0x0]⟩,
  ⟨"TWEED_WDSERVICE", 0x40000204, 1, 0x0, 1, 0x0, 1, 0x0, [f 15 0 .wo .unstated 0x0]⟩,
  ⟨"TWEED_WDCOUNT", 0x40000208, 1, 0x0, 1, 0x0, 1, 0x0, [f 15 0 .rov .value 0x0]⟩,
  ⟨"TWEED_WDSTAT", 0x4000020C, 1, 0x0, 1, 0x0, 1, 0x0, [f 2 2 .rov .value 0x0, f 1 1 .rov .value 0x0, f 0 0 .w1c .value 0x0]⟩]

/-! ### Tweed clocks -/

/-- TWEED.CLKSTAT (R948). -/
def rTWEED_CLKSTAT : Nat := 0x40000300
/-- TWEED.CLKINT (R948). -/
def rTWEED_CLKINT : Nat := 0x40000304
/-- TWEED.CLKINTEN (R948). -/
def rTWEED_CLKINTEN : Nat := 0x40000308
/-- TWEED.XINCFG (R914). -/
def rTWEED_XINCFG : Nat := 0x40000310
/-- TWEED.MONTOL (R945). -/
def rTWEED_MONTOL : Nat := 0x40000314
/-- TWEED.MONCNT (R945). -/
def rTWEED_MONCNT : Nat := 0x40000318
/-- TWEED.IRC96TRIM (R941). -/
def rTWEED_IRC96TRIM : Nat := 0x4000031C
/-- TWEED.PLLSTAT (R957). -/
def rTWEED_PLLSTAT (i : Nat) : Nat := 0x40000340 + 0x8 * i
/-- TWEED.SSC (R929). -/
def rTWEED_SSC (i : Nat) : Nat := 0x40000344 + 0x8 * i
/-- TWEED.PLLOUT (R937). -/
def rTWEED_PLLOUT : Nat := 0x40000380
/-- TWEED.CLKOUTCFG (R938). -/
def rTWEED_CLKOUTCFG (i : Nat) : Nat := 0x40000384 + 0x4 * i
/-- TWEED.CKEN (R960). -/
def rTWEED_CKEN (i : Nat) : Nat := 0x40000400 + 0x4 * i
/-- TWEED.GATESTAT (R961). -/
def rTWEED_GATESTAT (i : Nat) : Nat := 0x40000420 + 0x4 * i
/-- TWEED.GATELAST (R962). -/
def rTWEED_GATELAST : Nat := 0x40000440
/-- TWEED.ROOTSEL (R922). -/
def rTWEED_ROOTSEL (i : Nat) : Nat := 0x40000500 + 0x4 * i

/-- Tweed clocks registers. -/
def map16 : List RegDesc := [
  ⟨"TWEED_CLKSTAT", 0x40000300, 1, 0x0, 1, 0x0, 1, 0x0, [f 4 4 .rov .unstated 0x0, f 3 3 .rov .unstated 0x0, f 2 2 .rov .unstated 0x0, f 1 1 .rov .unstated 0x0, f 0 0 .rov .unstated 0x0]⟩,
  ⟨"TWEED_CLKINT", 0x40000304, 1, 0x0, 1, 0x0, 1, 0x0, [f 7 7 .w1c .value 0x0, f 6 6 .w1c .value 0x0, f 5 5 .w1c .value 0x0, f 4 4 .w1c .value 0x0, f 3 3 .w1c .value 0x0, f 2 2 .w1c .value 0x0, f 1 1 .w1c .value 0x0, f 0 0 .w1c .value 0x0]⟩,
  ⟨"TWEED_CLKINTEN", 0x40000308, 1, 0x0, 1, 0x0, 1, 0x0, [f 7 7 .rw .value 0x0, f 6 6 .rw .value 0x0, f 5 5 .rw .value 0x0, f 4 4 .rw .value 0x0, f 3 3 .rw .value 0x0, f 2 2 .rw .value 0x0, f 1 1 .rw .value 0x0, f 0 0 .rw .value 0x0]⟩,
  ⟨"TWEED_XINCFG", 0x40000310, 1, 0x0, 1, 0x0, 1, 0x0, [f 8 8 .ro .fuse 0x0, f 1 0 .ro .fuse 0x0]⟩,
  ⟨"TWEED_MONTOL", 0x40000314, 1, 0x0, 1, 0x0, 1, 0x0, [f 12 8 .rw .value 0x2 1 25, f 4 0 .rw .value 0xA 1 25]⟩,
  ⟨"TWEED_MONCNT", 0x40000318, 1, 0x0, 1, 0x0, 1, 0x0, [f 31 16 .rov .value 0x0, f 15 0 .rov .value 0x0]⟩,
  ⟨"TWEED_IRC96TRIM", 0x4000031C, 1, 0x0, 1, 0x0, 1, 0x0, [f 17 17 .rov .cell 0x0, f 16 16 .rov .cell 0x0, f 9 0 .rov .cell 0x0]⟩,
  ⟨"TWEED_PLLSTAT", 0x40000340, 6, 0x8, 1, 0x0, 1, 0x0, [f 15 8 .rov .value 0x0, f 3 3 .rov .value 0x0, f 2 2 .rov .value 0x0, f 1 1 .rov .value 0x0, f 0 0 .rov .value 0x0]⟩,
  ⟨"TWEED_SSC01", 0x40000344, 2, 0x8, 1, 0x0, 1, 0x0, [f 31 31 .rw .value 0x0, f 13 8 .rw .value 0x0 0 33, f 4 0 .rw .value 0x0 0 16]⟩,
  ⟨"TWEED_SSC2", 0x40000354, 1, 0x0, 1, 0x0, 1, 0x0, []⟩,
  ⟨"TWEED_SSC3", 0x4000035C, 1, 0x0, 1, 0x0, 1, 0x0, [f 31 31 .rw .value 0x0, f 13 8 .rw .value 0x0 0 33, f 4 0 .rw .value 0x0 0 4]⟩,
  ⟨"TWEED_SSC4", 0x40000364, 1, 0x0, 1, 0x0, 1, 0x0, []⟩,
  ⟨"TWEED_SSC5", 0x4000036C, 1, 0x0, 1, 0x0, 1, 0x0, [f 31 31 .rw .value 0x0, f 13 8 .rw .value 0x0 0 33, f 4 0 .rw .value 0x0 0 16]⟩,
  ⟨"TWEED_PLLOUT", 0x40000380, 1, 0x0, 1, 0x0, 1, 0x0, [f 29 24 .rw .value 0x24, f 23 0 .rw .value 0x0]⟩,
  ⟨"TWEED_CLKOUTCFG", 0x40000384, 2, 0x4, 1, 0x0, 1, 0x0, [f 15 8 .rw .value 0x20, f 0 0 .rw .value 0x0]⟩,
  ⟨"TWEED_CKEN0", 0x40000400, 1, 0x0, 1, 0x0, 1, 0x0, [f 15 0 .rw .value 0xFFFF]⟩,
  ⟨"TWEED_CKEN1", 0x40000404, 1, 0x0, 1, 0x0, 1, 0x0, [f 11 0 .rw .value 0xFFF]⟩,
  ⟨"TWEED_CKEN2", 0x40000408, 1, 0x0, 1, 0x0, 1, 0x0, [f 9 0 .rw .value 0x3FF]⟩,
  ⟨"TWEED_CKEN36", 0x4000040C, 4, 0x4, 1, 0x0, 1, 0x0, []⟩,
  ⟨"TWEED_GATESTAT0", 0x40000420, 1, 0x0, 1, 0x0, 1, 0x0, [f 15 0 .rov .value 0x0]⟩,
  ⟨"TWEED_GATESTAT1", 0x40000424, 1, 0x0, 1, 0x0, 1, 0x0, [f 11 0 .rov .value 0x0]⟩,
  ⟨"TWEED_GATESTAT2", 0x40000428, 1, 0x0, 1, 0x0, 1, 0x0, [f 9 0 .rov .value 0x0]⟩,
  ⟨"TWEED_GATESTAT36", 0x4000042C, 4, 0x4, 1, 0x0, 1, 0x0, []⟩,
  ⟨"TWEED_GATELAST", 0x40000440, 1, 0x0, 1, 0x0, 1, 0x0, [f 15 8 .ro .keep 0x0, f 7 0 .ro .keep 0x0]⟩,
  ⟨"TWEED_ROOTSEL", 0x40000500, 41, 0x4, 1, 0x0, 1, 0x0, [f 12 12 .w1c .value 0x0, f 11 11 .w1c .value 0x0, f 10 10 .w1c .value 0x0, f 9 9 .rov .value 0x0, f 8 8 .w1s .value 0x0, f 5 4 .rov .value 0x0, f 1 0 .rw .value 0x0]⟩]

/-! ### Felt -/

/-- FELT.FSTAT (R969). -/
def rFELT_FSTAT : Nat := 0x40010000
/-- FELT.FINTSTAT (R1026). -/
def rFELT_FINTSTAT : Nat := 0x40010004
/-- FELT.FINTEN (R1026). -/
def rFELT_FINTEN : Nat := 0x40010008
/-- FELT.EVT_LO (R980). -/
def rFELT_EVT_LO : Nat := 0x40010010
/-- FELT.EVT_HI (R980). -/
def rFELT_EVT_HI : Nat := 0x40010014
/-- FELT.MONO_LO (R997). -/
def rFELT_MONO_LO : Nat := 0x40010018
/-- FELT.MONO_HI (R997). -/
def rFELT_MONO_HI : Nat := 0x4001001C
/-- FELT.RTC_LO (R973). -/
def rFELT_RTC_LO : Nat := 0x40010020
/-- FELT.RTC_HI (R973). -/
def rFELT_RTC_HI : Nat := 0x40010024
/-- FELT.ALARM_LO (R974). -/
def rFELT_ALARM_LO : Nat := 0x40010028
/-- FELT.ALARM_HI (R974). -/
def rFELT_ALARM_HI : Nat := 0x4001002C
/-- FELT.UTCOFF_LO (R990). -/
def rFELT_UTCOFF_LO : Nat := 0x40010030
/-- FELT.UTCOFF_HI (R990). -/
def rFELT_UTCOFF_HI : Nat := 0x40010034
/-- FELT.LEAP (R991). -/
def rFELT_LEAP : Nat := 0x40010038
/-- FELT.PPSCFG (R982). -/
def rFELT_PPSCFG : Nat := 0x40010040
/-- FELT.PPSERR (R982). -/
def rFELT_PPSERR : Nat := 0x40010044
/-- FELT.ADJ (R977). -/
def rFELT_ADJ : Nat := 0x40010048
/-- FELT.FREQ (R984). -/
def rFELT_FREQ : Nat := 0x4001004C
/-- FELT.SETSEQ (R996). -/
def rFELT_SETSEQ : Nat := 0x40010050
/-- FELT.TIMEKEY (R992). -/
def rFELT_TIMEKEY : Nat := 0x40010058
/-- FELT.TIMEKEY_SH (R1019). -/
def rFELT_TIMEKEY_SH : Nat := 0x4001005C
/-- FELT.EPQ0 (R1009). -/
def rFELT_EPQ0 : Nat := 0x40010060
/-- FELT.EPQ1 (R1009). -/
def rFELT_EPQ1 : Nat := 0x40010064
/-- FELT.EPQCTL (R1009). -/
def rFELT_EPQCTL : Nat := 0x40010068
/-- FELT.SLEWREM_LO (R994). -/
def rFELT_SLEWREM_LO : Nat := 0x40010070
/-- FELT.SLEWREM_HI (R994). -/
def rFELT_SLEWREM_HI : Nat := 0x40010074
/-- FELT.TPCFG (R1033). -/
def rFELT_TPCFG (i : Nat) : Nat := 0x40010100 + 0x8 * i
/-- FELT.TPCFG_SH (R1019). -/
def rFELT_TPCFG_SH (i : Nat) : Nat := 0x40010104 + 0x8 * i
/-- FELT.SRESP (R1006). -/
def rFELT_SRESP (i : Nat) : Nat := 0x40010140 + 0x8 * i
/-- FELT.SRESP_SH (R1019). -/
def rFELT_SRESP_SH (i : Nat) : Nat := 0x40010144 + 0x8 * i
/-- FELT.SENSCFG (R1003). -/
def rFELT_SENSCFG : Nat := 0x400101A0
/-- FELT.SENSCFG_SH (R1019). -/
def rFELT_SENSCFG_SH : Nat := 0x400101A4
/-- FELT.FRHOLD (R1013). -/
def rFELT_FRHOLD : Nat := 0x400101B0
/-- FELT.TSTAT (R1002). -/
def rFELT_TSTAT : Nat := 0x40010200
/-- FELT.TBISTRES (R1015). -/
def rFELT_TBISTRES : Nat := 0x40010204
/-- FELT.TBISTRUN (R1015). -/
def rFELT_TBISTRUN : Nat := 0x40010208
/-- FELT.LOGCTL (R1026). -/
def rFELT_LOGCTL : Nat := 0x40010210
/-- FELT.LOGOVF (R1026). -/
def rFELT_LOGOVF : Nat := 0x40010214
/-- FELT.FSTICKY (R1008). -/
def rFELT_FSTICKY : Nat := 0x40010300
/-- FELT.LOG (R1027). -/
def rFELT_LOG (i : Nat) : Nat := 0x40011000 + 0x4 * i

/-- Felt registers. -/
def map17 : List RegDesc := [
  ⟨"FELT_FSTAT", 0x40010000, 1, 0x0, 1, 0x0, 1, 0x0, [f 10 8 .rov .cell 0x0, f 4 4 .rov .cell 0x0, f 3 3 .rov .cell 0x0, f 2 2 .rov .cell 0x0, f 1 1 .rov .cell 0x0, f 0 0 .rov .cell 0x0]⟩,
  ⟨"FELT_FINTSTAT", 0x40010004, 1, 0x0, 1, 0x0, 1, 0x0, [f 7 7 .w1c .value 0x0, f 6 6 .w1c .value 0x0, f 5 5 .w1c .value 0x0, f 4 4 .w1c .value 0x0, f 3 3 .w1c .value 0x0, f 2 2 .w1c .value 0x0, f 1 1 .w1c .value 0x0, f 0 0 .w1c .value 0x0]⟩,
  ⟨"FELT_FINTEN", 0x40010008, 1, 0x0, 1, 0x0, 1, 0x0, [f 7 7 .rw .value 0x0, f 6 6 .rw .value 0x0, f 5 5 .rw .value 0x0, f 4 4 .rw .value 0x0, f 3 3 .rw .value 0x0, f 2 2 .rw .value 0x0, f 1 1 .rw .value 0x0, f 0 0 .rw .value 0x0]⟩,
  ⟨"FELT_EVT_LO", 0x40010010, 1, 0x0, 1, 0x0, 1, 0x0, [f 31 0 .rov .cell 0x0]⟩,
  ⟨"FELT_EVT_HI", 0x40010014, 1, 0x0, 1, 0x0, 1, 0x0, [f 31 0 .rov .cell 0x0]⟩,
  ⟨"FELT_MONO_LO", 0x40010018, 1, 0x0, 1, 0x0, 1, 0x0, [f 31 0 .rov .cell 0x0]⟩,
  ⟨"FELT_MONO_HI", 0x4001001C, 1, 0x0, 1, 0x0, 1, 0x0, [f 31 0 .rov .cell 0x0]⟩,
  ⟨"FELT_RTC_LO", 0x40010020, 1, 0x0, 1, 0x0, 1, 0x0, [f 31 0 .rov .cell 0x0]⟩,
  ⟨"FELT_RTC_HI", 0x40010024, 1, 0x0, 1, 0x0, 1, 0x0, [f 15 0 .rov .cell 0x0]⟩,
  ⟨"FELT_ALARM_LO", 0x40010028, 1, 0x0, 1, 0x0, 1, 0x0, [f 31 0 .rw .cell 0x0]⟩,
  ⟨"FELT_ALARM_HI", 0x4001002C, 1, 0x0, 1, 0x0, 1, 0x0, [f 31 31 .rw .cell 0x0, f 15 0 .rw .cell 0x0]⟩,
  ⟨"FELT_UTCOFF_LO", 0x40010030, 1, 0x0, 1, 0x0, 1, 0x0, [f 31 0 .rw .cell 0x0]⟩,
  ⟨"FELT_UTCOFF_HI", 0x40010034, 1, 0x0, 1, 0x0, 1, 0x0, [f 31 0 .rw .cell 0x0]⟩,
  ⟨"FELT_LEAP", 0x40010038, 1, 0x0, 1, 0x0, 1, 0x0, [f 15 0 .rw .cell 0x0]⟩,
  ⟨"FELT_PPSCFG", 0x40010040, 1, 0x0, 1, 0x0, 1, 0x0, [f 31 24 .rw .cell 0x3, f 23 16 .rw .cell 0x14, f 15 8 .rw .cell 0x8, f 1 1 .rw .cell 0x0, f 0 0 .rw .cell 0x1]⟩,
  ⟨"FELT_PPSERR", 0x40010044, 1, 0x0, 1, 0x0, 1, 0x0, [f 31 0 .rov .value 0x0]⟩,
  ⟨"FELT_ADJ", 0x40010048, 1, 0x0, 1, 0x0, 1, 0x0, [f 15 0 .rov .cell 0x0]⟩,
  ⟨"FELT_FREQ", 0x4001004C, 1, 0x0, 1, 0x0, 1, 0x0, [f 15 0 .rov .cell 0x0]⟩,
  ⟨"FELT_SETSEQ", 0x40010050, 1, 0x0, 1, 0x0, 1, 0x0, [f 31 0 .rov .cell 0x0]⟩,
  ⟨"FELT_TIMEKEY", 0x40010058, 1, 0x0, 1, 0x0, 1, 0x0, [f 15 0 .rws .cell 0x0]⟩,
  ⟨"FELT_TIMEKEY_SH", 0x4001005C, 1, 0x0, 1, 0x0, 1, 0x0, [f 31 0 .rws .cell 0xFFFFFFFF]⟩,
  ⟨"FELT_EPQ0", 0x40010060, 1, 0x0, 1, 0x0, 1, 0x0, [f 31 0 .rov .cell 0x0]⟩,
  ⟨"FELT_EPQ1", 0x40010064, 1, 0x0, 1, 0x0, 1, 0x0, [f 31 0 .rov .cell 0x0]⟩,
  ⟨"FELT_EPQCTL", 0x40010068, 1, 0x0, 1, 0x0, 1, 0x0, [f 31 16 .rov .cell 0x0, f 3 0 .rov .cell 0x0]⟩,
  ⟨"FELT_SLEWREM_LO", 0x40010070, 1, 0x0, 1, 0x0, 1, 0x0, [f 31 0 .rov .cell 0x0]⟩,
  ⟨"FELT_SLEWREM_HI", 0x40010074, 1, 0x0, 1, 0x0, 1, 0x0, [f 13 0 .rov .cell 0x0]⟩,
  ⟨"FELT_TPCFG", 0x40010100, 8, 0x8, 1, 0x0, 1, 0x0, [f 20 16 .rws .cell 0x1, f 10 8 .rws .cell 0x1, f 5 4 .rws .cell 0x0, f 2 0 .rws .cell 0x0]⟩,
  ⟨"FELT_TPCFG_SH", 0x40010104, 8, 0x8, 1, 0x0, 1, 0x0, [f 31 0 .rws .cell 0xFFFEFEFF]⟩,
  ⟨"FELT_SRESP", 0x40010140, 11, 0x8, 1, 0x0, 1, 0x0, [f 4 0 .rws .cell 0x1]⟩,
  ⟨"FELT_SRESP_SH", 0x40010144, 11, 0x8, 1, 0x0, 1, 0x0, [f 31 0 .rws .cell 0xFFFFFFFE]⟩,
  ⟨"FELT_SENSCFG", 0x400101A0, 1, 0x0, 1, 0x0, 1, 0x0, [f 10 8 .rws .cell 0x2, f 5 4 .rws .cell 0x0, f 1 0 .rws .cell 0x0]⟩,
  ⟨"FELT_SENSCFG_SH", 0x400101A4, 1, 0x0, 1, 0x0, 1, 0x0, [f 31 0 .rws .cell 0xFFFFFDFF]⟩,
  ⟨"FELT_FRHOLD", 0x400101B0, 1, 0x0, 1, 0x0, 1, 0x0, [f 15 0 .rw .cell 0x3C]⟩,
  ⟨"FELT_TSTAT", 0x40010200, 1, 0x0, 1, 0x0, 1, 0x0, [f 19 0 .rov .cell 0x0]⟩,
  ⟨"FELT_TBISTRES", 0x40010204, 1, 0x0, 1, 0x0, 1, 0x0, [f 18 0 .rov .cell 0x0]⟩,
  ⟨"FELT_TBISTRUN", 0x40010208, 1, 0x0, 1, 0x0, 1, 0x0, [f 18 0 .rov .cell 0x0]⟩,
  ⟨"FELT_LOGCTL", 0x40010210, 1, 0x0, 1, 0x0, 1, 0x0, [f 13 8 .rov .cell 0x0, f 7 0 .rov .cell 0x0]⟩,
  ⟨"FELT_LOGOVF", 0x40010214, 1, 0x0, 1, 0x0, 1, 0x0, [f 31 0 .rov .cell 0x0]⟩,
  ⟨"FELT_FSTICKY", 0x40010300, 1, 0x0, 1, 0x0, 1, 0x0, [f 6 6 .w1c .cell 0x0, f 5 5 .w1c .cell 0x0, f 4 4 .w1c .cell 0x0, f 3 3 .w1c .cell 0x0, f 2 2 .w1c .cell 0x0, f 1 1 .w1c .cell 0x0, f 0 0 .w1c .cell 0x0]⟩,
  ⟨"FELT_LOG", 0x40011000, 1024, 0x4, 1, 0x0, 1, 0x0, [f 31 0 .ro .cell 0x0]⟩]

/-! ### Fuses and boot -/

/-- FUSE.STAT (R1038). -/
def rFUSE_STAT : Nat := 0x40020000
/-- FUSE.MARGIDX (R1044). -/
def rFUSE_MARGIDX : Nat := 0x40020004
/-- FUSE.DRIFTIDX (R1049). -/
def rFUSE_DRIFTIDX : Nat := 0x40020008
/-- FUSE.TEMPREF (R1048). -/
def rFUSE_TEMPREF : Nat := 0x4002000C
/-- FUSE.CRIT (R1039). -/
def rFUSE_CRIT (i : Nat) : Nat := 0x40020010 + 0x4 * i
/-- FUSE.THERMO (R1041). -/
def rFUSE_THERMO (i : Nat) : Nat := 0x40020020 + 0x4 * i
/-- FUSE.RDADDR (R1040). -/
def rFUSE_RDADDR : Nat := 0x40020080
/-- FUSE.RDDATA (R1040). -/
def rFUSE_RDDATA : Nat := 0x40020084
/-- FUSE.PROGDATA (R1050). -/
def rFUSE_PROGDATA : Nat := 0x40020090
/-- FUSE.PROGCMD (R1050). -/
def rFUSE_PROGCMD : Nat := 0x40020094
/-- FUSE.PROGSTAT (R1050). -/
def rFUSE_PROGSTAT : Nat := 0x40020098
/-- BOOT.BOOTSTAT (R1076). -/
def rBOOT_BOOTSTAT : Nat := 0x40020100
/-- BOOT.CONFIRM (R1081). -/
def rBOOT_CONFIRM : Nat := 0x40020104
/-- BOOT.RBMIN (R1076). -/
def rBOOT_RBMIN : Nat := 0x40020108
/-- BOOT.WARM (R1082). -/
def rBOOT_WARM : Nat := 0x4002010C
/-- BOOT.CERTADDR (R1063). -/
def rBOOT_CERTADDR : Nat := 0x40020110
/-- BOOT.CERTLEN (R1063). -/
def rBOOT_CERTLEN : Nat := 0x40020114
/-- BOOT.CERTCMD (R1063). -/
def rBOOT_CERTCMD : Nat := 0x40020118
/-- BOOT.CERTSTAT (R1063). -/
def rBOOT_CERTSTAT : Nat := 0x4002011C
/-- BOOT.DBGSTAT (R1089). -/
def rBOOT_DBGSTAT : Nat := 0x40020120
/-- OSPI.CFG (R1074). -/
def rOSPI_CFG : Nat := 0x40100000
/-- OSPI.STAT (R1075). -/
def rOSPI_STAT : Nat := 0x40100004
/-- OSPI.XIPHIT (R1074). -/
def rOSPI_XIPHIT : Nat := 0x40100008
/-- OSPI.XIPMISS (R1074). -/
def rOSPI_XIPMISS : Nat := 0x4010000C

/-- Fuses and boot registers. -/
def map18 : List RegDesc := [
  ⟨"FUSE_STAT", 0x40020000, 1, 0x0, 1, 0x0, 1, 0x0, [f 10 8 .rov .unstated 0x0, f 5 5 .rov .unstated 0x0, f 4 4 .rov .unstated 0x0, f 3 3 .rov .unstated 0x0, f 2 2 .rov .unstated 0x0, f 1 1 .rov .unstated 0x0, f 0 0 .rov .unstated 0x0]⟩,
  ⟨"FUSE_MARGIDX", 0x40020004, 1, 0x0, 1, 0x0, 1, 0x0, [f 31 16 .rov .unstated 0x0, f 6 0 .rov .unstated 0x0]⟩,
  ⟨"FUSE_DRIFTIDX", 0x40020008, 1, 0x0, 1, 0x0, 1, 0x0, [f 31 31 .rov .value 0x0, f 6 0 .rov .value 0x0]⟩,
  ⟨"FUSE_TEMPREF", 0x4002000C, 1, 0x0, 1, 0x0, 1, 0x0, [f 15 0 .rov .unstated 0x0]⟩,
  ⟨"FUSE_CRIT", 0x40020010, 4, 0x4, 1, 0x0, 1, 0x0, [f 31 0 .ro .fuse 0x0]⟩,
  ⟨"FUSE_THERMO", 0x40020020, 16, 0x4, 1, 0x0, 1, 0x0, [f 6 0 .ro .fuse 0x0]⟩,
  ⟨"FUSE_RDADDR", 0x40020080, 1, 0x0, 1, 0x0, 1, 0x0, [f 9 0 .rw .value 0x0]⟩,
  ⟨"FUSE_RDDATA", 0x40020084, 1, 0x0, 1, 0x0, 1, 0x0, [f 31 0 .rov .value 0x0]⟩,
  ⟨"FUSE_PROGDATA", 0x40020090, 1, 0x0, 1, 0x0, 1, 0x0, [f 31 0 .rw .value 0x0]⟩,
  ⟨"FUSE_PROGCMD", 0x40020094, 1, 0x0, 1, 0x0, 1, 0x0, [f 31 16 .wo .unstated 0x0, f 14 12 .wo .unstated 0x0, f 9 0 .wo .unstated 0x0]⟩,
  ⟨"FUSE_PROGSTAT", 0x40020098, 1, 0x0, 1, 0x0, 1, 0x0, [f 7 4 .rov .value 0x0, f 0 0 .rov .value 0x0]⟩,
  ⟨"BOOT_BOOTSTAT", 0x40020100, 1, 0x0, 1, 0x0, 1, 0x0, [f 31 16 .rov .unstated 0x0, f 9 9 .rov .unstated 0x0, f 8 8 .rov .keep 0x0, f 7 7 .rov .unstated 0x0, f 6 5 .rov .unstated 0x0, f 4 4 .rov .unstated 0x0, f 3 2 .rov .unstated 0x0, f 1 1 .rov .unstated 0x0, f 0 0 .rov .unstated 0x0]⟩,
  ⟨"BOOT_CONFIRM", 0x40020104, 1, 0x0, 1, 0x0, 1, 0x0, [f 15 0 .wo .unstated 0x0]⟩,
  ⟨"BOOT_RBMIN", 0x40020108, 1, 0x0, 1, 0x0, 1, 0x0, [f 6 0 .rov .unstated 0x0]⟩,
  ⟨"BOOT_WARM", 0x4002010C, 1, 0x0, 1, 0x0, 1, 0x0, [f 15 0 .wo .unstated 0x0]⟩,
  ⟨"BOOT_CERTADDR", 0x40020110, 1, 0x0, 1, 0x0, 1, 0x0, [f 31 0 .rw .value 0x0]⟩,
  ⟨"BOOT_CERTLEN", 0x40020114, 1, 0x0, 1, 0x0, 1, 0x0, [f 13 0 .rw .value 0x0]⟩,
  ⟨"BOOT_CERTCMD", 0x40020118, 1, 0x0, 1, 0x0, 1, 0x0, [f 0 0 .w1s .value 0x0]⟩,
  ⟨"BOOT_CERTSTAT", 0x4002011C, 1, 0x0, 1, 0x0, 1, 0x0, [f 1 0 .rov .value 0x0]⟩,
  ⟨"BOOT_DBGSTAT", 0x40020120, 1, 0x0, 1, 0x0, 1, 0x0, [f 3 1 .rov .value 0x0, f 0 0 .rov .value 0x0]⟩,
  ⟨"OSPI_CFG", 0x40100000, 1, 0x0, 1, 0x0, 1, 0x0, [f 12 8 .rw .fuse 0x0, f 7 4 .rw .fuse 0x0, f 1 0 .rw .fuse 0x0 (lo := 0) (hi := 1)]⟩,
  ⟨"OSPI_STAT", 0x40100004, 1, 0x0, 1, 0x0, 1, 0x0, [f 2 2 .rov .value 0x0, f 1 1 .rov .value 0x0, f 0 0 .rov .value 0x0]⟩,
  ⟨"OSPI_XIPHIT", 0x40100008, 1, 0x0, 1, 0x0, 1, 0x0, [f 31 0 .rov .value 0x0]⟩,
  ⟨"OSPI_XIPMISS", 0x4010000C, 1, 0x0, 1, 0x0, 1, 0x0, [f 31 0 .rov .value 0x0]⟩]

/-! ### Sticky and diagnostic -/

/-- TWEED.STICKY (R1097). -/
def rTWEED_STICKY (i : Nat) : Nat := 0x40000600 + 0x4 * i
/-- TWEED.STICKY7 (R1097). -/
def rTWEED_STICKY7 : Nat := 0x4000061C
/-- TWEED.STKNEW (R1102). -/
def rTWEED_STKNEW : Nat := 0x40000620
/-- TWEED.STKNEWEN (R1102). -/
def rTWEED_STKNEWEN : Nat := 0x40000624
/-- TWEED.DIAGARG (R1106). -/
def rTWEED_DIAGARG : Nat := 0x40000630
/-- TWEED.DIAGPUSH (R1106). -/
def rTWEED_DIAGPUSH : Nat := 0x40000634
/-- TWEED.DIAGSTAT (R1103). -/
def rTWEED_DIAGSTAT : Nat := 0x40000638
/-- TWEED.DIAGCNT_LO (R1103). -/
def rTWEED_DIAGCNT_LO : Nat := 0x4000063C
/-- TWEED.DIAGCNT_HI (R1103). -/
def rTWEED_DIAGCNT_HI : Nat := 0x40000640

/-- Sticky and diagnostic registers. -/
def map19 : List RegDesc := [
  ⟨"TWEED_STICKY", 0x40000600, 7, 0x4, 1, 0x0, 1, 0x0, [f 31 0 .w1c .keep 0x0]⟩,
  ⟨"TWEED_STICKY7", 0x4000061C, 1, 0x0, 1, 0x0, 1, 0x0, [f 6 0 .w1c .cell 0x0]⟩,
  ⟨"TWEED_STKNEW", 0x40000620, 1, 0x0, 1, 0x0, 1, 0x0, [f 7 0 .w1c .value 0x0]⟩,
  ⟨"TWEED_STKNEWEN", 0x40000624, 1, 0x0, 1, 0x0, 1, 0x0, [f 7 0 .rw .value 0x0]⟩,
  ⟨"TWEED_DIAGARG", 0x40000630, 1, 0x0, 1, 0x0, 1, 0x0, [f 31 0 .rw .value 0x0]⟩,
  ⟨"TWEED_DIAGPUSH", 0x40000634, 1, 0x0, 1, 0x0, 1, 0x0, [f 31 16 .wo .unstated 0x0, f 7 0 .wo .unstated 0x0]⟩,
  ⟨"TWEED_DIAGSTAT", 0x40000638, 1, 0x0, 1, 0x0, 1, 0x0, [f 31 16 .rov .value 0x0, f 11 0 .rov .keep 0x0]⟩,
  ⟨"TWEED_DIAGCNT_LO", 0x4000063C, 1, 0x0, 1, 0x0, 1, 0x0, [f 31 0 .rov .keep 0x0]⟩,
  ⟨"TWEED_DIAGCNT_HI", 0x40000640, 1, 0x0, 1, 0x0, 1, 0x0, [f 31 0 .rov .keep 0x0]⟩]

/-- The access-checker regions that a full reset leaves enabled (R907), as register address and word. -/
def resetRegions : List (Nat × Nat) := [
  (0x400313E0, 0x10000000), (0x400313E4, 0x101FF000), (0x400313E8, 0x3C00E000), (0x400313F0, 0x2000D),
  (0x400323E0, 0x20000000), (0x400323E4, 0x20FFF000), (0x400323E8, 0x1FFF1F0), (0x400323F0, 0x2000F),
  (0x400323C0, 0x20000000), (0x400323C4, 0x20FFF000), (0x400323C8, 0x2), (0x400323D0, 0x2002D),
  (0x400333E0, 0x30000000), (0x400333E4, 0x307FF000), (0x400333E8, 0x1FF0002), (0x400333F0, 0x25),
  (0x400343E0, 0x30000000), (0x400343E4, 0x307FF000), (0x400343E8, 0x1FF11F0), (0x400343F0, 0x2000F),
  (0x400353E0, 0x40000000), (0x400353E4, 0x4003F000), (0x400353E8, 0x20000000), (0x400353F0, 0x4000D),
  (0x400363E0, 0x40040000), (0x400363E4, 0x400BF000), (0x400363E8, 0x20000000), (0x400363F0, 0x4000D),
  (0x400373E0, 0x400C0000), (0x400373E4, 0x4010F000), (0x400373E8, 0x20000000), (0x400373F0, 0x4000D),
  (0x400383E0, 0x40110000), (0x400383E4, 0x4015F000), (0x400383E8, 0x20000000), (0x400383F0, 0x4000D),
  (0x400393E0, 0x50000000), (0x400393E4, 0x50000000), (0x400393E8, 0x20000002), (0x400393F0, 0x40025),
  (0x4003A3E0, 0x60000000), (0x4003A3E4, 0x6FFFF000), (0x4003A3E8, 0x2), (0x4003A3F0, 0x10035),
  (0x4003B3E4, 0xFFFFFFFF), (0x4003B3E8, 0x1000102), (0x4003B3F0, 0x3000D)]

/-- The whole register map. -/
def regMap : List RegDesc :=
  map01 ++ map02 ++ map03 ++ map04 ++ map05 ++ map06 ++ map07 ++ map08 ++ map09 ++ map10 ++ map11 ++ map12 ++ map13 ++ map14 ++ map15 ++ map16 ++ map17 ++ map18 ++ map19

/-- Address `a` is `base + i * step` for some `i` below `n`: the offset that is left, for the next index. -/
def inArray (a base n step : Nat) : Option Nat :=
  if a < base then none
  else if step = 0 then some (a - base)
  else if (a - base) / step < n then some ((a - base) % step) else none

/-- The register of the map is at address `a`. Array indices nest: the widest stride first. -/
def RegDesc.has (r : RegDesc) (a : Nat) : Bool :=
  match inArray a r.base r.n1 r.s1 with
  | none => false
  | some o1 =>
    match inArray o1 0 r.n2 r.s2 with
    | none => false
    | some o2 =>
      match inArray o2 0 r.n3 r.s3 with
      | none => false
      | some o3 => o3 == 0

/-- The map's row for an address, if the spec gives a register there (R46). -/
def regAt (a : Nat) : Option RegDesc := regMap.find? (fun r => r.has a)

/-- The word that the fields' reset values make. -/
def RegDesc.reset (r : RegDesc) : Word := r.fields.foldl (fun w x => setBits w x.hi x.lo x.val) 0#32

/-- The value of the register at `a` after reset (R17, R907); an address with no register holds 0. -/
def regReset (a : Nat) : Word :=
  match resetRegions.lookup a with
  | some w => BitVec.ofNat 32 w
  | none => match regAt a with | some r => r.reset | none => 0#32

/-- A write of `v` over the value `old`, field by field (R16, R19). -/
def Fld.write (x : Fld) (old v : Word) : Word :=
  let n := bits v x.hi x.lo
  match x.ty with
  | .rw => if x.legalLo ≤ n ∧ n ≤ x.legalHi then setBits old x.hi x.lo n else old
  | .w1c => old &&& ~~~ (field x.hi x.lo n)
  | .w1sk => old ||| field x.hi x.lo n
  | _ => old

/-- A write of a whole register by its fields' types (R16, R18, R19). -/
def RegDesc.write (r : RegDesc) (old v : Word) : Word := r.fields.foldl (fun w x => x.write w v) old

/-- What a full reset leaves in a register: `keep` and `cell` fields stay, the others take their reset value (R17). -/
def RegDesc.afterReset (r : RegDesc) (old : Word) : Word :=
  r.fields.foldl (fun w x =>
    match x.rst with
    | .keep | .cell => setBits w x.hi x.lo (bits old x.hi x.lo)
    | _ => setBits w x.hi x.lo x.val) 0#32

end Sys2Proof.Machine
end

