-- ==== Sys2Proof/Machine/StateDamask.lean ====
section
/-!
DEFINITION. The state of Damask: key store, digest and cipher units, entropy source and DRBG, PK unit. Plain data.
-/

namespace Sys2Proof.Machine

/-- State of a key slot (R224). -/
inductive SlotSt where
  | empty | reserved | loaded
  deriving DecidableEq, Repr, Inhabited

/-- A key slot: state, ATTR, generation, key bytes (R224, R229). -/
structure KeySlot where
  st : SlotSt := .empty
  attr : Word := 0#32
  gen : Nat := 1
  key : Bytes := []
  deriving DecidableEq, Repr, Inhabited

/-- A key-store command that waits for the DRBG (R233, R293): its OP, SLOT and ARG. -/
structure KsWait where
  slot : Nat := 0
  arg : Nat := 0
  deriving DecidableEq, Repr, Inhabited

/-- The key store. -/
structure KeyStore where
  slots : List KeySlot := List.replicate 256 {}
  /-- the Felt RAM copy of slots 0–15 (R238) -/
  cell : List KeySlot := List.replicate 16 {}
  /-- cell slots whose write-through has not landed (STAT.FELTBUSY) -/
  landing : List Nat := []
  /-- a GENERATE that waits on the DRBG (STAT.BUSY) -/
  waiting : Option KsWait := none
  /-- a command on a cell slot that completes when the slot's write-through lands (R233): slot, CODE, handle -/
  doneAt : Option (Nat × Nat × Nat) := none
  /-- IMPWIN, write-only (R235) -/
  impwin : List Word := List.replicate 16 0#32
  deriving DecidableEq, Repr, Inhabited

/-- A general digest or cipher job once started: its descriptor address, lane and latched key (R250, R266). -/
structure Job where
  addr : Nat := 0
  lane : Nat := 0
  /-- the descriptor's 32 bytes, latched at start -/
  desc : Bytes := []
  key : Bytes := []
  /-- data unit of a general context, bytes -/
  du : Nat := 4096
  deriving DecidableEq, Repr, Inhabited

/-- The digest or the cipher unit's queue and lanes. -/
structure JobUnit where
  queue : List Nat := []
  running : List Job := []
  parked : List Nat := []
  stfail : List Nat := []
  /-- lanes that serve the data plane just now -/
  dbusy : List Nat := []
  abortStat : Nat := 0
  jobCnt : Nat := 0
  /-- next lane of the self-test rotation (R296) -/
  testLane : Nat := 0
  deriving DecidableEq, Repr, Inhabited

/-- A key bank of a custody context (R267–R272). -/
structure Bank where
  ver : Option Nat := none
  key : Bytes := []
  ktype : Nat := 0
  deriving DecidableEq, Repr, Inhabited

/-- A general context, or context 79 (R263). -/
structure GenCtx where
  ktype : Nat := 0
  key : Bytes := []
  du512 : Bool := false
  deriving DecidableEq, Repr, Inhabited

/-- Cipher contexts. -/
structure Contexts where
  bank0 : List Bank := List.replicate 64 {}
  bank1 : List Bank := List.replicate 64 {}
  /-- WAIT and FALLBACK of each custody context (R272, R273) -/
  waiting : List Bool := List.replicate 64 false
  fallback : List Bool := List.replicate 64 false
  /-- contexts 64–78 and, last, 79 -/
  general : List GenCtx := List.replicate 16 {}
  /-- CTXWIN, write-only (R264) -/
  ctxwin : List Word := List.replicate 16 0#32
  /-- a KIND 1 load that waits for a bank (R269): custody, version, key, KTYPE -/
  loadWait : Option (Nat × Nat × Bytes × Nat) := none
  deriving DecidableEq, Repr, Inhabited

/-- Entropy source state (RNG.STAT.ES). -/
inductive EsSt where
  | startup | ok | retest | parked
  deriving DecidableEq, Repr, Inhabited

/-- DRBG state (RNG.STAT.DRBG). -/
inductive DrbgSt where
  | uninst | ready | error
  deriving DecidableEq, Repr, Inhabited

/-- Who asks the DRBG: a key-store GENERATE, a read of RNG.OUT, or another block. -/
inductive DrbgUser where
  | generate | out | other
  deriving DecidableEq, Repr, Inhabited

/-- A request that waits for a reseed (R293). -/
structure DrbgWait where
  user : DrbgUser := .other
  bytes : Nat := 0
  deriving DecidableEq, Repr, Inhabited

/-- Entropy source and DRBG. -/
structure Rng where
  es : EsSt := .startup
  drbg : DrbgSt := .uninst
  /-- generate requests since the last reseed (R291) -/
  sinceReseed : Nat := 0
  /-- the DRBG has been seeded since its instantiation -/
  reseeds : Nat := 0
  htfail : Nat := 0
  /-- EVT seconds of recent failures (R289) -/
  failSecs : List Nat := []
  /-- requests that wait for the start-up test (R293) -/
  waits : List DrbgWait := []
  /-- what the last request of another block got: its bytes, or none for ENTROPY -/
  served : Option Bytes := none
  deriving DecidableEq, Repr, Inhabited

/-- Linen's PK jobs (table *Linen's PK jobs*). -/
inductive LinenJob where
  | anchorSign | epochKeygen | epochSign | kwKeygen | kwEcdh
  deriving DecidableEq, Repr, Inhabited

/-- The job the PK unit runs: Linen's, or firmware's with its descriptor address. -/
inductive PkJob where
  | linen (j : LinenJob) (owner : Nat)
  | firmware (addr : Nat) (desc : Bytes) (key : Bytes)
  deriving DecidableEq, Repr, Inhabited

/-- The PK unit. -/
structure Pk where
  queue : List Nat := []
  linenQ : List LinenJob := []
  running : Option PkJob := none
  /-- operand RAM owner, none when clean (R327) -/
  owner : Option Nat := none
  awake : Bool := false
  wiping : Bool := false
  /-- results of Linen jobs that Linen has not yet taken: the job and whether it succeeded (R331) -/
  delivered : List (LinenJob × Bool) := []
  /-- a ZERO_ALL wipe is due at the end of the running job (R333) -/
  wipeDue : Bool := false
  abortStat : Nat := 0
  jobCnt : Nat := 0
  deriving DecidableEq, Repr, Inhabited

end Sys2Proof.Machine
end

