-- ==== Sys2Proof/Machine/State.lean ====
section
/-!
DEFINITION. The state of the device as plain data: the register file and the memories in canonical form, what stands behind
each block's registers, and the queue of the commands that wait. And the ways in which a command can end without a next
state.
-/

namespace Sys2Proof.Machine

/-- Why the machine stops with a fault. -/
inductive Fault where
  /-- REGISTER_WRITE: the address is that of no register, and the access ends in a bus error, which the spec gives the writing
  master and not the device (R21, R46). Safe: the device would go on unchanged. -/
  | busError
  /-- Any command of a block whose gate closed while it was busy: its state is undefined until the next full reset (R962). Safe. -/
  | blockUndefined
  deriving DecidableEq, Repr

/-- Why a command has no meaning here. -/
inductive Refusal where
  /-- A command that has no meaning yet, by its mnemonic; no arm raises it. Safe. -/
  | notModelled (mnemonic : String)
  /-- REGISTER_WRITE, and Serge's loads, stores, SWAP and CAS: the address lies in the service UART, the GPIO or the sensors, whose
  registers the spec does not give (R44). Safe. -/
  | unitNotGiven
  /-- ILLEGAL_INSTRUCTION with a word that is an allocated instruction, which the row does not name (R818). Safe. -/
  | illFormed
  deriving DecidableEq, Repr

/-- The device. -/
structure State where
  /-- commands that wait, first in, first out -/
  pending : List Instr := []
  /-- registers that differ from their reset value, by ascending address (R16, R17) -/
  regs : List (Nat × Word) := []
  /-- bytes of core SRAM, stripe SRAM, MRAM and the host's mailbox buffers that are not 0, by ascending address (R43) -/
  mem : List (Nat × Byte) := []
  /-- high words latched by a read of their low word, by register address (R22) -/
  latches : List (Nat × Word) := []
  /-- bytes that the device wrote to host memory -/
  hostMem : List (Nat × Byte) := []
  /-- the instant of the last command, nanoseconds; the model's own (notes/assumptions/2.md) -/
  now : Nat := 0
  /-- the counter of free values; the model's own (notes/assumptions/4.md) -/
  freeCtr : Nat := 0
  canvas : Canvas := {}
  muslin : Muslin := {}
  linen : Linen := {}
  keys : KeyStore := {}
  digest : JobUnit := {}
  cipher : JobUnit := {}
  ctx : Contexts := {}
  rng : Rng := {}
  pk : Pk := {}
  media : Media := {}
  jrn : Journal := {}
  power : Power := {}
  tweed : Tweed := {}
  serge : Serge := {}
  cards : Cards := {}
  diag : Diag := {}
  ging : Ging := {}
  pcie : Pcie := {}
  felt : Felt := {}
  dict : Dict := {}
  fuse : Fuse := {}
  boot : Boot := {}
  deriving DecidableEq, Repr, Inhabited

/-! ## A block changed -/

/-- The state with `canvas` changed. -/
def State.onCanvas (g : Canvas → Canvas) (s : State) : State := { s with canvas := g s.canvas }
/-- The state with `muslin` changed. -/
def State.onMuslin (g : Muslin → Muslin) (s : State) : State := { s with muslin := g s.muslin }
/-- The state with `linen` changed. -/
def State.onLinen (g : Linen → Linen) (s : State) : State := { s with linen := g s.linen }
/-- The state with `keys` changed. -/
def State.onKeys (g : KeyStore → KeyStore) (s : State) : State := { s with keys := g s.keys }
/-- The state with `rng` changed. -/
def State.onRng (g : Rng → Rng) (s : State) : State := { s with rng := g s.rng }
/-- The state with `pk` changed. -/
def State.onPk (g : Pk → Pk) (s : State) : State := { s with pk := g s.pk }
/-- The state with `ctx` changed. -/
def State.onCtx (g : Contexts → Contexts) (s : State) : State := { s with ctx := g s.ctx }
/-- The state with `media` changed. -/
def State.onMedia (g : Media → Media) (s : State) : State := { s with media := g s.media }
/-- The state with `jrn` changed. -/
def State.onJrn (g : Journal → Journal) (s : State) : State := { s with jrn := g s.jrn }
/-- The state with `power` changed. -/
def State.onPower (g : Power → Power) (s : State) : State := { s with power := g s.power }
/-- The state with `diag` changed. -/
def State.onDiag (g : Diag → Diag) (s : State) : State := { s with diag := g s.diag }
/-- The state with `ging` changed. -/
def State.onGing (g : Ging → Ging) (s : State) : State := { s with ging := g s.ging }
/-- The state with `pcie` changed. -/
def State.onPcie (g : Pcie → Pcie) (s : State) : State := { s with pcie := g s.pcie }
/-- The state with `felt` changed. -/
def State.onFelt (g : Felt → Felt) (s : State) : State := { s with felt := g s.felt }
/-- The state with `dict` changed. -/
def State.onDict (g : Dict → Dict) (s : State) : State := { s with dict := g s.dict }
/-- The state with `fuse` changed. -/
def State.onFuse (g : Fuse → Fuse) (s : State) : State := { s with fuse := g s.fuse }
/-- The state with `boot` changed. -/
def State.onBoot (g : Boot → Boot) (s : State) : State := { s with boot := g s.boot }

/-- The state with `tweed` changed. -/
def State.onTweed (g : Tweed → Tweed) (s : State) : State := { s with tweed := g s.tweed }
/-- The state with `serge` changed. -/
def State.onSerge (g : Serge → Serge) (s : State) : State := { s with serge := g s.serge }
/-- The state with `cards` changed. -/
def State.onCards (g : Cards → Cards) (s : State) : State := { s with cards := g s.cards }

/-! ## Reset -/

/-- The registers that do not stand at their reset value once a fresh device has come up: what its power-up sequence and boot ROM
have written (R505, R949, R953, R1046, R1058, R1070), by address. -/
def resetRegs : List (Nat × Word) :=
  [(0x40000100, 0x1#32),    -- RSTCAUSE: POR
   (0x40000114, 0x8#32),    -- RSTHOLD: 8 s
   (0x40000300, 0x1#32),    -- CLKSTAT: XINOK
   (0x40000340, 0x1#32), (0x40000348, 0x1#32), (0x40000350, 0x1#32), (0x40000358, 0x1#32), (0x40000360, 0x1#32),
   (0x40000368, 0x1#32),    -- PLLSTAT 0–5: LOCK
   (0x40000638, 0x1#32),    -- DIAGSTAT: NEXT 1
   (0x4000063c, 0x1#32),    -- DIAGCNT_LO: 1
   (0x40020000, 0x1#32),    -- FUSE_STAT: DONE
   (0x4002000c, 0xfa#32),   -- TEMPREF: 25.0 °C
   (0x40020100, 0x200#32),  -- BOOTSTAT
   (0x40070020, 0x1#32),    -- DIGEST_STAT
   (0x400b002c, 0x20#32),   -- TWILL_INTSTAT: INITDONE
   (0x400e1000, 0x31#32), (0x400e2000, 0x31#32),  -- CCTRL of Gingham's two CAN channels
   (0xe0001018, 0x3#32)]    -- LSSTAT

/-- The device right after the reset that its first power-up makes (R501–R505, table *Reset sequence*): a fresh part of lifecycle
BLANK with blank fuses, erased flash, no NAND packages and no card, so that the boot ROM waits in recovery (R1070). What
the spec leaves to the part and to its surroundings is named in notes/assumptions/5.md. -/
def State.reset : State :=
  { regs := resetRegs
    mem := [(0x307f0008, 0x02#8), (0x307f000a, 0x01#8), (0x307f000c, 0x01#8)]
    rng := { es := .ok }
    media := { ch := List.replicate 8 { st := .absent } }
    jrn := { replaying := false }
    power := { configured := true }
    ging := { can := List.replicate 2 { st := .integrating } }
    boot := { recovery := true } }

end Sys2Proof.Machine
end

