-- ==== Sys2Proof/Machine/Ops.lean ====
section
/-!
DEFINITION. The named operations over registers, memory and the shared mechanisms that every block uses: event flags,
saturating and 64-bit counters, sticky bits with their diagnostic entries and NOTIFY, MSI-X messages, host writes, free
values. A meaning changes registers and memory only through these.
-/

namespace Sys2Proof.Machine

/-! ## Registers -/

/-- The word a register of the file holds (R16). -/
def State.rd (s : State) (a : Nat) : Word := sget regReset s.regs a

/-- The file with a register set. -/
def State.wr (s : State) (a : Nat) (w : Word) : State := { s with regs := sset regReset s.regs a w }

/-- Bits `hi:lo` of a register. -/
def State.fld (s : State) (a hi lo : Nat) : Nat := bits (s.rd a) hi lo

/-- Bit `i` of a register. -/
def State.flag (s : State) (a i : Nat) : Bool := bit (s.rd a) i

/-- Bits `hi:lo` of a register set. -/
def State.setFld (s : State) (a hi lo v : Nat) : State := s.wr a (setBits (s.rd a) hi lo v)

/-- Bit `i` of a register set to `b`. -/
def State.setFlag (s : State) (a i : Nat) (b : Bool) : State := s.setFld a i i b.toNat

/-- An event flag of a W1C register set (INTSTAT bits). -/
def State.raise (s : State) (a i : Nat) : State := s.setFlag a i true

/-- A 32-bit statistics counter raised by `k`, saturating (R1092). -/
def State.addSat (s : State) (a k : Nat) : State := s.wr a (loWord (satAdd 32 (s.rd a).toNat k))

/-- A counter in the field `hi:lo` raised by 1, saturating (R1092). -/
def State.incFld (s : State) (a hi lo : Nat) : State := s.setFld a hi lo (satInc (hi + 1 - lo) (s.fld a hi lo))

/-- A 64-bit number held as a LO and HI pair. -/
def State.rd64 (s : State) (lo hi : Nat) : Nat := (s.rd lo).toNat + 2 ^ 32 * (s.rd hi).toNat

/-- A LO and HI pair set. -/
def State.wr64 (s : State) (lo hi v : Nat) : State := (s.wr lo (loWord v)).wr hi (hiWord v)

/-- A 64-bit statistics counter raised by `k` (R1092). -/
def State.add64 (s : State) (lo hi k : Nat) : State := s.wr64 lo hi (s.rd64 lo hi + k)

/-- A run of words of a register array set, first word at `a`. -/
def State.wrWords (s : State) (a : Nat) : List Word → State
  | [] => s
  | w :: ws => (s.wr a w).wrWords (a + 4) ws

/-! ## Memory -/

/-- What a byte that nothing has written reads as: 0, as R532 leaves core and stripe SRAM and R1108 the diagnostic log. -/
def memDefault (_ : Nat) : Byte := 0

/-- One byte of the Serge-view memories: core SRAM, stripe SRAM, MRAM (R43). -/
def State.byte (s : State) (a : Nat) : Byte := sget memDefault s.mem a

/-- One byte of memory set. -/
def State.setByte (s : State) (a : Nat) (b : Byte) : State := { s with mem := sset memDefault s.mem a b }

/-- `n` bytes of memory from `a`. -/
def State.load (s : State) (a : Nat) : Nat → Bytes
  | 0 => []
  | n + 1 => s.byte a :: s.load (a + 1) n

/-- Bytes stored from `a` on. -/
def State.store (s : State) (a : Nat) : Bytes → State
  | [] => s
  | b :: bs => (s.setByte a b).store (a + 1) bs

/-- The bytes `a` to `a + n - 1` lie in `[base, base + size)`. -/
def within (base size a n : Nat) : Bool := decide (base ≤ a ∧ a + n ≤ base + size)

/-- Core SRAM, 2 MiB (R43). -/
def inCore (a n : Nat) : Bool := within 0x10000000 0x200000 a n
/-- Stripe SRAM, 16 MiB (R43). -/
def inStripe (a n : Nat) : Bool := within 0x20000000 0x1000000 a n
/-- The MRAM read window, 8 MiB (R43). -/
def inMram (a n : Nat) : Bool := within 0x30000000 0x800000 a n

/-- What an address of host memory that the device has not written reads as: nothing the model knows. -/
def hostDefault (_ : Nat) : Byte := 0

/-- One byte of host memory as last written by the device. -/
def State.hostByte (s : State) (a : Nat) : Byte := sget hostDefault s.hostMem a

/-- Bytes that the device writes to host memory. -/
def State.hostStore (s : State) (a : Nat) : Bytes → State
  | [] => s
  | b :: bs => State.hostStore { s with hostMem := sset hostDefault s.hostMem a b } (a + 1) bs

/-! ## Free values -/

/-- A word the spec leaves open, and the state with the counter of free values advanced (notes/assumptions/4.md). -/
def State.fresh (s : State) : State := { s with freeCtr := s.freeCtr + 1 }

/-- The free word at the state's counter. -/
def State.freeWord (s : State) : Word := Config.freeWord s.freeCtr

/-- `n` bytes of one DRBG request (R290–R292): random bytes. -/
def drbgBytes (req : Nat) : Nat → Bytes
  | 0 => []
  | n + 1 => drbgBytes req n ++ [Config.drbgByte req n]

/-! ## Diagnostic log -/

/-- The 16 bytes of an entry (table *Diagnostic-log entry, 16 bytes*). -/
def DiagEntry.bytes (e : DiagEntry) : Bytes :=
  le 8 e.evt ++ le 1 e.type ++ le 1 e.src ++ le 2 e.code ++ le 4 e.arg

/-- An entry written at DIAGSTAT.NEXT in MRAM; NEXT advances modulo 4,096 and DIAGCNT counts it (R1103, R1104). -/
def diagWrite (e : DiagEntry) (s : State) : State :=
  let n := s.fld rTWEED_DIAGSTAT 11 0
  let s := s.store (0x307F0000 + 16 * n) e.bytes
  let s := s.setFld rTWEED_DIAGSTAT 11 0 ((n + 1) % 4096)
  s.add64 rTWEED_DIAGCNT_LO rTWEED_DIAGCNT_HI 1

/-- An entry whose cause has arisen: queued until replay completes (R1105), dropped from step 5 of the last breath on
(R1107), written otherwise. -/
def diagEntry (e : DiagEntry) (s : State) : State :=
  if 5 ≤ s.power.lb then s
  else if s.jrn.replaying then { s with diag := { s.diag with queued := s.diag.queued ++ [e] } }
  else diagWrite e s

/-! ## NOTIFY and MSI-X -/

/-- The host's accesses reach the function: the link is up and the function in D0 (R710, R713; notes/assumptions/80.md). -/
def State.reached (s : State) : Bool := s.pcie.up && decide (s.pcie.dstate = 0)

/-- The function may send requests of its own: reached, with Bus Master Enable 1 (R692, R714). -/
def State.masters (s : State) : Bool := s.reached && s.pcie.bme

/-- An MSI-X message: posted to the host, or its pending bit set while masked; none while MSI-X is disabled or the
device may not master the bus (R681). -/
def msix (vec : Nat) (s : State) : State :=
  let m := nth s.pcie.msix vec
  if s.pcie.msixEn && s.masters then
    if m.masked || s.pcie.msixAllMasked then
      { s with pcie := { s.pcie with msix := upd s.pcie.msix vec (fun m => { m with pending := true }) } }
    else s.hostStore m.addr (le 4 m.data)
  else s

/-- The body of a NOTIFY: EVENT, ARG, EVT (table *Bodies*). -/
def notifyBody (event arg evt : Nat) : Bytes := le 2 event ++ le 4 arg ++ le 8 evt

/-- One session's share of a NOTIFY: queued up to 8 deep (R657). -/
def Sess.pushNotify (b : Bytes) (x : Sess) : Sess :=
  if x.st = .openSess ∧ x.notify.length < 8 then { x with notify := x.notify ++ [b] } else x

/-- Sessions that are open and whose queue is full drop the NOTIFY (R657). -/
def Sess.dropsNotify (x : Sess) : Bool := decide (x.st = .openSess ∧ 8 ≤ x.notify.length)

/-- The NOTIFYEN bit of an event (table *NOTIFY events*). -/
def notifyBit (event : Nat) : Nat :=
  if event = 1 then 0 else if event = 2 then 1 else if event = 3 then 2 else 3

/-- A NOTIFY on every open session and into the mailbox's notify queue, when its event is enabled (R656, R657, R690). -/
def notify (event arg : Nat) (s : State) : State :=
  if s.flag rGING_NOTIFYEN (notifyBit event) then
    let b := notifyBody event arg s.felt.evt
    let drops := (s.ging.sess.filter Sess.dropsNotify).length
    let s := { s with ging := { s.ging with sess := s.ging.sess.map (Sess.pushNotify b) } }
    let s := s.addSat rGING_NOTIFYDROP drops
    if s.pcie.notifyQ.length < 16 then
      let e := b ++ [0, BitVec.ofNat 8 s.pcie.notifySeq]
      let s := { s with pcie := { s.pcie with notifyQ := s.pcie.notifyQ ++ [e], notifySeq := s.pcie.notifySeq + 1 } }
      msix 1 s
    else s.incFld rBAR0_NQSTAT 31 16
  else s

/-! ## Sticky bits -/

/-- The register and bit of sticky bit `n` (R1097): words 0–6 in Tweed, word 7 in Felt. -/
def stickyReg (n : Nat) : Nat := if n / 32 = 7 then rFELT_FSTICKY else rTWEED_STICKY (n / 32)

/-- A sticky bit set at an occurrence of its cause; only a change from 0 to 1 writes a diagnostic entry, raises NOTIFY
0x0001 and sets STKNEW (R1098, R1102). `src` and `arg` are those of the table *Sticky bits*. -/
def setSticky (n src arg : Nat) (s : State) : State :=
  if s.flag (stickyReg n) (n % 32) then s
  else
    let s := s.setFlag (stickyReg n) (n % 32) true
    let s := s.setFlag rTWEED_STKNEW (n / 32) true
    let s := diagEntry { evt := s.felt.evt, type := 1, src := src, code := n, arg := arg } s
    notify 1 n s

/-! ## Time and conditions -/

/-- Time moves forward to `t`, the instant a command names (notes/assumptions/2.md). -/
def State.at (s : State) (t : Nat) : State := { s with now := max s.now t }

/-- The last-breath sequence is running or done: PFAIL_N has fallen (R98, R510). -/
def State.dying (s : State) : Bool := decide (s.power.st = .lastBreath)

end Sys2Proof.Machine
end

