-- ==== Sys2Proof/Machine/Assert.lean ====
section
/-!
DEFINITION. What any block may raise: an NMI source, a full reset. And the condition under which the device acts on
commands at all.
-/

namespace Sys2Proof.Machine

/-- An NMI source fires: 0 CLKFAIL, 1 PFAIL, 2 TAMPER; its bit is latched (R871, R872). -/
def nmi (k : Nat) (s : State) : State := s.raise rIC_NMIPEND k

/-- A reset source asserts the full reset (R526, R530). During the last breath it is recorded in DEFERRED and has no other
effect (R525). The first source keeps the cause; STUCK is set anew by each reset that RST_N holds too long (R533). -/
def assertReset (cause : Nat) (s : State) : State :=
  if s.power.st = .lastBreath then
    s.onFelt (fun f => { f with deferred := f.deferred ||| 2 ^ cause })
  else if s.power.rst.isSome then s
  else
    let s := (s.setFlag rTWEED_RSTCAUSE 13 false).onPower (fun p => { p with rst := some cause, ingest := false })
    s.onSerge (fun c => { c with halted := true, buf := [] })

/-- The core rails are up, the reset sequence has released the core and no reset is asserted: blocks act. -/
def State.live (s : State) : Bool := s.power.released && s.power.rst.isNone

/-- PWRSTAT.STATE (table *Power states*). -/
def powerCode (p : PowerSt) : Nat := match p with | .parked => 1 | .run => 2 | .lastBreath => 3 | _ => 0

/-- The code of a lifecycle state (FUSE.STAT.LIFECYCLE, object 0x1005). -/
def lifeCode (l : Life) : Nat := match l with | .blank => 0 | .personalise => 1 | .fieldLife => 2 | .rma => 3 | .scrap => 4

/-- A command's effect while the device is live; a device that is held in reset or without power does nothing. -/
def whenLive (g : State → State) (s : State) : State := if s.live then g s else s

end Sys2Proof.Machine
end

