-- ==== Sys2Proof/Machine/Catalog.lean ====
section
/-!
DEFINITION. The catalogue of hardware-served objects (R547–R602): kinds, types, rights profiles, commit classes, ranges,
defaults, default groups and the registers behind the values. Entry layouts that the spec leaves open are those of
notes/assumptions/40.md.
-/

namespace Sys2Proof.Machine

/-- Value types (table *Types*). -/
inductive OType where
  | bool | uint (n : Nat) | sint (n : Nat) | oct (n : Nat) | vstr (n : Nat) | evt | dig256 | handle | domain | pstat
  deriving DecidableEq, Repr, Inhabited

/-- The type code of R550. -/
def OType.code : OType → Nat
  | .bool => 0x01
  | .uint 1 => 0x02 | .uint 2 => 0x03 | .uint 4 => 0x04 | .uint _ => 0x05
  | .sint 2 => 0x06 | .sint 4 => 0x07 | .sint _ => 0x08
  | .oct _ => 0x09 | .vstr _ => 0x0A | .evt => 0x0B | .dig256 => 0x0C | .handle => 0x0D | .domain => 0x0E | .pstat => 0x0F

/-- Bytes of a value; for VSTR and DOMAIN the greatest number. -/
def OType.size : OType → Nat
  | .bool => 1 | .uint n => n | .sint n => n | .oct n => n | .vstr n => n | .evt => 8 | .dig256 => 32 | .handle => 2
  | .domain => 65536 | .pstat => 4

/-- A length suits the type. -/
def OType.lengthOk (t : OType) (n : Nat) : Bool :=
  match t with
  | .vstr k => decide (n ≤ k)
  | .domain => decide (n ≤ 65536)
  | t => decide (n = t.size)

/-- Commit classes (table *Commit classes*); `ro` is read only. -/
inductive CClass where
  | ro | imm | cpt | boot | fuse
  deriving DecidableEq, Repr, Inhabited

/-- One piece of a register-backed value: register bits `hi:lo` hold the value's bits from `from_`. -/
structure Piece where
  a : Nat
  hi : Nat
  lo : Nat
  from_ : Nat := 0
  deriving DecidableEq, Repr, Inhabited

/-- Where an object's value lies: register fields, a field of the custody descriptor entry, the dictionary engine itself,
a value another block computes, a procedure. -/
inductive OSrc where
  | regs (l : List Piece)
  | desc (field : Nat)
  | held
  | view
  | proc
  deriving DecidableEq, Repr, Inhabited

/-- Which rights profile applies: a fixed one, or the custody's RIGHTS_PROFILE (R558). -/
inductive OProf where
  | fixed (p : Nat)
  | custody
  deriving DecidableEq, Repr, Inhabited

/-- One entry of an index. For a procedure `type` is that of its argument; `noArg` means a zero-length write (R585). -/
structure Obj where
  sub : Nat := 0
  type : OType := .uint 4
  noArg : Bool := false
  prof : OProf := .fixed 2
  cls : CClass := .ro
  src : OSrc := .view
  lo : Nat := 0
  hi : Nat := 2 ^ 64 - 1
  /-- the default where it is not the reset value of the registers (R571) -/
  dflt : Option Bytes := none
  deriving DecidableEq, Repr, Inhabited

/-- A hardware-served index: a single value, a record or array, a procedure or a DOMAIN (R547). -/
inductive OIndex where
  | single (o : Obj)
  | record (os : List Obj)
  deriving DecidableEq, Repr, Inhabited

/-- A read-only value of another block. -/
def ro (sub : Nat) (t : OType) (p : Nat := 2) : Obj := { sub := sub, type := t, prof := .fixed p }
/-- A CPT object over one register field. -/
def cpt (sub : Nat) (t : OType) (a hi lo : Nat) (p : Nat := 3) (least : Nat := 0) (most : Nat := 2 ^ (hi + 1 - lo) - 1) : Obj :=
  { sub := sub, type := t, prof := .fixed p, cls := .cpt, src := .regs [⟨a, hi, lo, 0⟩], lo := least, hi := most }
/-- A value that the engine holds itself. -/
def held (sub : Nat) (t : OType) (p : Nat) (c : CClass) (d : Bytes) (least : Nat := 0) (most : Nat := 2 ^ 64 - 1) : Obj :=
  { sub := sub, type := t, prof := .fixed p, cls := c, src := .held, dflt := some d, lo := least, hi := most }
/-- A procedure. -/
def proc (p : Nat) (t : Option OType) (sub : Nat := 0) : Obj :=
  { sub := sub, type := t.getD (.oct 0), noArg := t.isNone, prof := .fixed p, cls := .imm, src := .proc }

/-- Canvas slot objects: EN, ACTION, TARGET, REL, LINE, PERIOD, PHASE. -/
def slotObjs (n : Nat) : List Obj :=
  [cpt 1 .bool (rCANVAS_SLOTA n) 31 31, cpt 2 (.uint 1) (rCANVAS_SLOTA n) 27 24 3 0 0xB,
   cpt 3 (.uint 1) (rCANVAS_SLOTA n) 22 16, cpt 4 .bool (rCANVAS_SLOTA n) 30 30, cpt 5 (.uint 2) (rCANVAS_SLOTA n) 15 0,
   cpt 6 (.uint 4) (rCANVAS_SLOTB n) 23 0 3 1 0xFFFFFF, cpt 7 (.uint 4) (rCANVAS_SLOTC n) 23 0]

/-- One FSYNC_OUT output as one U64: FSOCTL in bits 31:0, FSOTIM.OFFSET in bits 51:32. -/
def fsyncObj (n : Nat) : Obj :=
  { sub := n + 1, type := .uint 8, prof := .fixed 3, cls := .cpt, hi := 2 ^ 52 - 1,
    src := .regs [⟨rCANVAS_FSOCTL n, 1, 0, 0⟩, ⟨rCANVAS_FSOCTL n, 2, 2, 2⟩, ⟨rCANVAS_FSOCTL n, 15, 8, 8⟩,
      ⟨rCANVAS_FSOCTL n, 31, 16, 16⟩, ⟨rCANVAS_FSOTIM n, 19, 0, 32⟩] }

/-- Camera port objects: LANES, DESKEW, POLINV, LANEMAP, HSSETTLE. -/
def portObjs (p : Nat) : List Obj :=
  let a := rMUSLIN_PORTCFG p
  [cpt 1 (.uint 1) a 1 0 3 0 2, cpt 2 .bool a 2 2, cpt 3 (.uint 1) a 7 4, cpt 4 (.uint 1) a 15 8, cpt 5 (.uint 1) a 23 16]

/-- Default bytes of custody `n`'s descriptor fields :01–0C (table *Custody objects*). -/
def descDefault (n field : Nat) : Nat :=
  match field with
  | 3 => n % 64
  | 5 => 1
  | 6 => 64
  | 7 => 1
  | _ => 0

/-- A descriptor field object. -/
def descObj (n field : Nat) (t : OType) (p : OProf) (least most : Nat) : Obj :=
  { sub := field, type := t, prof := p, cls := .cpt, src := .desc field, lo := least, hi := most,
    dflt := some (le t.size (descDefault n field)) }

/-- Custody configuration, index 0x2000 + n·0x40. -/
def custObjs (n : Nat) : List Obj :=
  [descObj n 1 .bool .custody 0 1, descObj n 2 (.uint 1) .custody 0 1, descObj n 3 (.uint 1) .custody 0 63,
   descObj n 4 (.uint 1) .custody 0 63, descObj n 5 .bool .custody 0 1, descObj n 6 (.uint 2) .custody 16 256,
   descObj n 7 (.uint 1) .custody 0 3, descObj n 8 .bool .custody 0 1, descObj n 9 .bool .custody 0 1,
   descObj n 0xA (.uint 1) .custody 0 15, descObj n 0xB .handle (.fixed 1) 0 0xFFFF, descObj n 0xC .handle (.fixed 1) 0 0xFFFF,
   ro 0x20 (.uint 4), ro 0x21 .dig256, ro 0x22 (.uint 8), ro 0x23 (.uint 2), ro 0x24 (.uint 4)]

/-- Custody policy, index 0x2001 + n·0x40. -/
def custPolicy : List Obj :=
  [held 1 (.uint 1) 1 .boot [4] 3 31, held 2 .bool 7 .cpt [0],
   { sub := 3, type := .vstr 16, prof := .custody, cls := .boot, src := .held, dflt := some [] }]

/-- Custody statistics, index 0x2002 + n·0x40. -/
def custStats : List Obj := [ro 1 (.uint 4), ro 2 (.uint 8), ro 3 (.uint 8), ro 4 (.uint 4), ro 5 .evt]

/-- The default KIND of principal `k`. -/
def kindDefault (k : Nat) : Nat := ([1, 2, 3, 3, 3, 3, 4, 5] : List Nat).getD k 0

/-- Principal `k`, index 0x1110 + k. -/
def principalObjs (k : Nat) : List Obj :=
  [held 1 (.uint 1) 1 .boot [BitVec.ofNat 8 (kindDefault k)] 0 5, held 2 (.uint 1) 1 .boot [0], held 3 .handle 1 .boot [0, 0],
   held 4 .bool 1 .boot [if k < 2 then 1 else 0], ro 5 (.uint 4)]

/-- Default contents of profile `p` (table *Rights profiles, default contents*). -/
def profileDefault (p : Nat) : Nat :=
  ([0x4444444444444440, 0x0000000000000000, 0x1111111111111110, 0x0000000003111130, 0x0000000001333330, 0x0000000003333330,
    0x0000000033333330, 0x0000000003000030, 0x0000000003000020] : List Nat).getD p 0

/-- Namespace objects, index 0x4030 + k. -/
def nsObjs (k : Nat) : List Obj :=
  [cpt 1 .bool (rTWILL_NSCFG k) 31 31, cpt 2 (.uint 1) (rTWILL_NSCFG k) 25 24 3 0 2, cpt 3 (.uint 4) (rTWILL_NSRES k) 23 0,
   cpt 4 (.uint 4) (rTWILL_NSCFG k) 23 0, ro 5 (.uint 4), ro 6 (.uint 8), ro 7 (.uint 8), ro 8 .bool]

/-- A Felt RWS object, written under R602. -/
def rws (sub a hi lo : Nat) (most : Nat) : Obj :=
  { sub := sub, type := .uint 1, prof := .fixed 1, cls := .imm, src := .regs [⟨a, hi, lo, 0⟩], hi := most }

/-- A card port's status objects: PRESENT, STATE, SPEED, TUNE_TAP, ERRORS. -/
def cardObjs : List Obj := [ro 1 .bool, ro 2 (.uint 1), ro 3 (.uint 1), ro 4 (.uint 1), ro 5 (.uint 4)]

/-- Indices below 0x3000: identity, communication, principals, profiles, custodies. -/
def indexLow (i : Nat) : Option OIndex :=
  if i = 0x1000 then some (.record
    [held 1 (.uint 2) 8 .fuse [0xFF, 0xFF], ro 2 (.uint 2) 0, held 3 (.uint 2) 8 .fuse [0xFF, 0xFF],
     held 4 (.uint 2) 8 .fuse [0xFF, 0xFF], ro 5 (.uint 1) 0, held 6 (.oct 16) 0 .fuse (zeros 16)])
  else if i = 0x1001 then some (.record
    [ro 1 (.uint 1) 0, ro 2 (.uint 1) 0, ro 3 (.uint 1) 0, ro 4 (.uint 1) 0, ro 5 (.uint 1) 0, ro 6 (.uint 4) 0])
  else if i = 0x1002 then some (.record [ro 1 (.uint 4), ro 2 (.uint 1), ro 3 (.uint 1), ro 4 .dig256])
  else if i = 0x1003 then some (.single (ro 0 (.oct 64) 0))
  else if i = 0x1004 then some (.single (ro 0 .domain))
  else if i = 0x1005 then some (.single (ro 0 (.uint 1)))
  else if i = 0x1008 then some (.record [held 1 (.vstr 32) 3 .boot [], held 2 (.oct 8) 3 .boot (zeros 8)])
  else if i = 0x1100 then some (.record
    [held 1 (.uint 1) 3 .boot [64] 1 126, held 2 (.uint 2) 3 .boot (le 2 500), held 3 (.uint 2) 3 .boot (le 2 2000),
     held 4 (.uint 1) 3 .boot [3] 0 3, cpt 5 (.uint 2) rGING_GCTRL 15 0])
  else if 0x1110 ≤ i ∧ i < 0x1120 then some (.record (principalObjs (i - 0x1110)))
  else if 0x1120 ≤ i ∧ i < 0x1123 then
    some (.single { held 0 (.uint 8) 1 .ro (le 8 (profileDefault (i - 0x1120))) with })
  else if 0x1123 ≤ i ∧ i < 0x1140 then some (.single (held 0 (.uint 8) 1 .boot (le 8 (profileDefault (i - 0x1120)))))
  else if 0x2000 ≤ i ∧ i < 0x3000 then
    if i % 0x40 = 0 then some (.record (custObjs ((i - 0x2000) / 0x40)))
    else if i % 0x40 = 1 then some (.record custPolicy)
    else if i % 0x40 = 2 then some (.record custStats)
    else none
  else none

/-- Canvas, Muslin and Linen objects. -/
def indexVideo (i : Nat) : Option OIndex :=
  if i = 0x3000 then some (.record
    [cpt 1 (.uint 1) rCANVAS_CTRL 3 2 3 0 2,
     { sub := 2, type := .uint 1, prof := .fixed 3, cls := .cpt, hi := 63,
       src := .regs [⟨rCANVAS_CTRL, 9, 6, 0⟩, ⟨rCANVAS_CTRL, 5, 4, 4⟩] },
     cpt 3 (.uint 1) rCANVAS_CTRL 10 10, cpt 4 (.uint 4) rCANVAS_PERIODSET 31 0, cpt 5 (.uint 4) rCANVAS_BLANKSET 31 0,
     cpt 6 (.uint 4) rCANVAS_LINEPER 19 0 3 1 0xFFFFF, cpt 7 (.uint 1) rCANVAS_REFTOL 7 0])
  else if i = 0x3001 then some (.record
    [ro 1 (.uint 4), ro 2 (.uint 2), ro 3 (.uint 2), ro 4 (.uint 1), ro 5 (.uint 4), ro 6 (.uint 4), ro 7 (.uint 8)])
  else if i = 0x3002 then some (.record [fsyncObj 0, fsyncObj 1])
  else if i = 0x3010 then some (.record
    [cpt 1 .bool rCANVAS_WINCTL 0 0, cpt 2 (.uint 2) rCANVAS_WINMIN 15 0, cpt 3 .bool rCANVAS_WINCTL 1 1,
     cpt 4 (.uint 2) rCANVAS_WINMIN 31 16])
  else if 0x3020 ≤ i ∧ i < 0x3040 then some (.record (slotObjs (i - 0x3020)))
  else if i = 0x3100 then some (.record [cpt 1 (.uint 1) rMUSLIN_CTRL 3 0])
  else if 0x3101 ≤ i ∧ i < 0x3105 then some (.record (portObjs (i - 0x3101)))
  else if i = 0x3110 then some (.record
    [cpt 1 (.uint 1) rMUSLIN_PRESS 7 0, cpt 2 (.uint 1) rMUSLIN_PRESS 15 8, cpt 3 (.uint 1) rMUSLIN_PRESS 23 16,
     cpt 4 (.uint 1) rMUSLIN_PRESS 31 24])
  else if i = 0x3111 then some (.record [cpt 1 (.uint 1) rMUSLIN_DOORCFG 7 0, cpt 2 (.uint 1) rMUSLIN_DOORCFG 11 8 3 0 8])
  else if 0x3120 ≤ i ∧ i < 0x3124 then some (.record
    [ro 1 (.uint 8), ro 2 (.uint 4), ro 3 (.uint 4), ro 4 (.uint 4), ro 5 (.uint 4), ro 6 (.uint 4), ro 7 (.uint 4),
     ro 8 (.uint 4), ro 9 (.uint 4)])
  else if i = 0x3130 then some (.record [ro 1 (.uint 2), ro 2 (.uint 2)])
  else if i = 0x3200 then some (.record
    [cpt 1 .handle rLINEN_DEVKEY 15 0 1,
     { sub := 2, type := .uint 2, prof := .fixed 1, cls := .boot, hi := 0x0F0F,
       src := .regs [⟨rLINEN_EPSLOT, 3, 0, 0⟩, ⟨rLINEN_EPSLOT, 11, 8, 8⟩] },
     cpt 3 .bool rLINEN_CTRL 0 0, cpt 4 (.uint 2) rLINEN_TMAPPER 15 0])
  else if i = 0x3201 then some (.record
    [ro 1 (.uint 4), ro 2 (.uint 8), ro 3 (.uint 8), ro 4 .evt, ro 5 (.uint 2), ro 6 (.uint 2)])
  else if i = 0x3202 then some (.single (proc 5 none))
  else if i = 0x3203 then some (.single (proc 7 none))
  else if i = 0x3204 then some (.single (proc 7 (some (.oct 5))))
  else none

/-- Twill and Damask objects. -/
def indexMedia (i : Nat) : Option OIndex :=
  if i = 0x4000 then some (.record
    [cpt 1 (.uint 1) rTWILL_MEDCFG 3 0 3 3 8, cpt 2 .bool rTWILL_MEDCFG 8 8, held 3 (.uint 1) 8 .fuse [0],
     cpt 4 .bool rTWILL_TRACKCFG 31 31, cpt 5 (.uint 2) rTWILL_TRACKCFG 15 0, cpt 6 (.uint 1) rTWILL_TRACKCFG 23 16,
     cpt 7 (.uint 1) rTWILL_TRACKCFG 29 24, cpt 8 .bool rTWILL_SOFTCFG 16 16, cpt 9 (.uint 1) rTWILL_SOFTCFG 12 8,
     cpt 0xA (.uint 1) rTWILL_SOFTCFG 3 0, cpt 0xB (.uint 2) rTWILL_SCRUBCFG 15 0, cpt 0xC (.uint 1) rTWILL_SCRUBCFG 23 16,
     cpt 0xD (.uint 1) rTWILL_SCRUBCFG 31 24, cpt 0xE (.uint 2) rTWILL_RDLIMIT 15 0,
     { sub := 0xF, type := .uint 4, prof := .fixed 3, cls := .boot, hi := 0x077F7F7F,
       src := .regs [⟨rTWILL_LVLMAP, 6, 0, 0⟩, ⟨rTWILL_LVLMAP, 14, 8, 8⟩, ⟨rTWILL_LVLMAP, 22, 16, 16⟩, ⟨rTWILL_LVLMAP, 26, 24, 24⟩] }])
  else if i = 0x4010 then some (.single { type := .domain, prof := .fixed 3, cls := .boot, src := .view, hi := 1024 })
  else if i = 0x4011 then some (.single { type := .domain, prof := .fixed 3, cls := .boot, src := .view, hi := 8192 })
  else if i = 0x4020 then some (.single (proc 8 none))
  else if 0x4030 ≤ i ∧ i < 0x4040 then some (.record (nsObjs (i - 0x4030)))
  else if i = 0x4040 then some (.record
    [cpt 1 (.uint 1) rTWILL_GCCFG 31 24, cpt 2 (.uint 2) rTWILL_GCCFG2 31 16, cpt 3 (.uint 2) rTWILL_GCCFG 7 0,
     cpt 4 (.uint 1) rTWILL_GCCFG 23 16, cpt 5 (.uint 4) rTWILL_WLDELTA 31 0, cpt 6 (.uint 1) rTWILL_GCCFG 15 8,
     cpt 7 (.uint 2) rTWILL_GCCFG2 15 0,
     cpt 8 (.uint 1) rTWILL_JCTRL 23 16, cpt 9 (.uint 2) rTWILL_JCTRL 7 0, cpt 0xA (.uint 2) rTWILL_JCTRL 15 8,
     cpt 0xB (.uint 1) rTWILL_JCTRL 31 24])
  else if i = 0x4050 then some (.single (proc 7 (some (.oct 17))))
  else if i = 0x4051 then some (.single (proc 7 (some (.uint 1))))
  else if i = 0x4052 then some (.single (proc 5 none))
  else if i = 0x4100 then some (.record [ro 1 (.uint 1), ro 2 (.uint 2), ro 3 (.uint 1)])
  else if 0x4101 ≤ i ∧ i < 0x4109 then some (.record
    [ro 1 (.uint 1), ro 2 (.uint 1), ro 3 (.uint 1), ro 4 (.uint 4), ro 5 (.uint 8), ro 6 (.uint 8), ro 7 (.uint 8),
     ro 8 (.uint 8), ro 9 (.uint 4), ro 0xA (.uint 4), ro 0xB (.uint 4), ro 0xC (.uint 4), ro 0xD (.uint 4), ro 0xE (.uint 4)])
  else if i = 0x4110 then some (.record
    [ro 1 (.uint 8), ro 2 (.uint 2), ro 3 (.uint 4), ro 4 (.uint 4), ro 5 (.uint 4), ro 6 (.uint 4), ro 7 (.uint 8)])
  else if i = 0x4111 then some (.record [ro 1 (.uint 4), ro 2 (.uint 4), ro 3 (.uint 4), ro 4 (.uint 4)])
  else if i = 0x4112 then some (.record [ro 1 (.uint 1), ro 2 (.uint 4), ro 3 (.uint 4)])
  else if i = 0x5000 then some (.record
    [cpt 1 (.uint 4) rRNG_RESEEDINT 31 0, cpt 2 .bool rRNG_CTRL 1 1, cpt 3 (.uint 1) rDIGEST_CTRL 7 0,
     cpt 4 (.uint 1) rCIPHER_CTRL 7 0])
  else if i = 0x5001 then some (.record
    [ro 1 (.uint 1), ro 2 (.uint 1), ro 3 (.uint 4), ro 4 (.uint 8), ro 5 (.uint 1), ro 6 (.uint 1)])
  else if 0x5010 ≤ i ∧ i < 0x5014 then some (.record ((List.range 64).map (fun s => ro (s + 1) (.uint 8))))
  else if i = 0x5020 then some (.single (proc 1 (some .handle)))
  else if i = 0x5021 then some (.single (proc 5 none))
  else if i = 0x5030 then some (.record
    [cpt 1 .bool rPK_CTRL 0 0, cpt 2 .bool rPK_CTRL 1 1, cpt 3 (.uint 2) rPK_CTRL 31 16])
  else if i = 0x5031 then some (.record [ro 1 (.uint 8), ro 2 (.uint 4), ro 3 (.uint 4), ro 4 (.uint 4), ro 5 (.uint 4)])
  else none

/-- Card, Felt, clock, diagnostic and lifecycle objects. -/
def indexHigh (i : Nat) : Option OIndex :=
  if i = 0x5800 then some (.record
    [held 1 (.uint 1) 6 .imm [0] 0 63, held 2 (.uint 8) 6 .imm (zeros 8), held 3 (.uint 8) 6 .imm (List.replicate 8 0xFF),
     held 4 (.uint 1) 6 .imm [0] 0 1, held 5 (.uint 1) 6 .imm [0] 0 1])
  else if i = 0x5801 then some (.single (proc 6 none))
  else if i = 0x5802 then some (.record [ro 1 (.uint 1), ro 2 (.uint 8), ro 3 (.uint 2), ro 4 .dig256])
  else if i = 0x5803 then some (.single (proc 6 none))
  else if i = 0x5804 then some (.single (proc 6 (some (.uint 1))))
  else if i = 0x5810 ∨ i = 0x5811 then some (.record cardObjs)
  else if i = 0x5812 then some (.record
    [cpt 1 (.uint 2) rCHAM_XRETUNE 15 0, cpt 2 (.uint 1) rCHAM_XRETUNE 23 16, cpt 3 (.uint 2) rCHAM_XBUSY 15 0,
     cpt 4 (.uint 2) rCHAM_XBUSY 31 16])
  else if i = 0x5820 ∨ i = 0x5821 then some (.record [ro 1 .bool, ro 2 (.uint 1), ro 3 (.oct 33)])
  else if i = 0x8000 then some (.record
    [ro 1 .evt, ro 2 (.uint 8), ro 3 (.uint 1),
     { sub := 4, type := .sint 8, prof := .fixed 3, cls := .cpt,
       src := .regs [⟨rFELT_UTCOFF_LO, 31, 0, 0⟩, ⟨rFELT_UTCOFF_HI, 31, 0, 32⟩], dflt := some (zeros 8) },
     { sub := 5, type := .sint 2, prof := .fixed 3, cls := .cpt, src := .regs [⟨rFELT_LEAP, 15, 0, 0⟩], dflt := some (zeros 2) }])
  else if i = 0x8001 then some (.single (proc 7 (some (.oct 48))))
  else if 0x8010 ≤ i ∧ i < 0x8018 then
    let k := i - 0x8010
    some (.record [rws 1 (rFELT_TPCFG k) 2 0 (if k % 2 = 0 then 4 else 3), rws 2 (rFELT_TPCFG k) 5 4 3,
      rws 3 (rFELT_TPCFG k) 10 8 7, rws 4 (rFELT_TPCFG k) 20 16 31])
  else if i = 0x8020 then some (.record ((List.range 11).map (fun s => rws (s + 8) (rFELT_SRESP s) 4 0 31)))
  else if i = 0x8030 then some (.single (ro 0 .domain))
  else if i = 0x8031 then some (.single (ro 0 (.uint 4)))
  else if i = 0x8032 then some (.single (proc 7 (some (.uint 1))))
  else if i = 0x9000 then some (.record
    [{ sub := 1, type := .uint 1, prof := .fixed 3, cls := .imm, src := .regs [⟨rTWEED_WAKECFG, 3, 0, 0⟩], hi := 15 },
     { sub := 2, type := .bool, prof := .fixed 3, cls := .imm, src := .regs [⟨rTWEED_WAKECFG, 8, 8, 0⟩], hi := 1 },
     { sub := 3, type := .uint 1, prof := .fixed 3, cls := .imm, src := .regs [⟨rTWEED_WAKECFG, 23, 16, 0⟩], hi := 255 },
     ro 4 (.uint 1), ro 5 .bool, proc 8 none 6])
  else if i = 0x9010 then some (.record
    [held 1 (.uint 4) 3 .boot [] 24000 27000, held 2 (.uint 1) 3 .boot [0] 0 20, held 3 (.uint 1) 3 .boot [30] 30 63])
  else if i = 0x9020 then some (.record [ro 1 (.sint 2), ro 2 (.sint 2)])
  else if i = 0xA000 then some (.record ((List.range 8).map (fun w => ro (w + 1) (.uint 4))))
  else if i = 0xA001 then some (.single (proc 5 (some (.uint 2))))
  else if i = 0xA010 then some (.single (ro 0 .domain))
  else if i = 0xA020 then some (.record [ro 1 (.uint 8), ro 2 (.uint 4), ro 3 (.uint 4)])
  else if i = 0xF001 then some (.single (proc 8 (some (.uint 1))))
  else if i = 0xF010 then some (.single (proc 8 none))
  else if i = 0xF011 then some (.record [ro 1 (.uint 1), ro 2 (.uint 1), ro 3 .bool, ro 4 .bool, ro 5 (.uint 2), ro 6 (.uint 2)])
  else if i = 0xF020 then some (.single (proc 8 (some (.uint 2))))
  else if i = 0xF030 then some (.record
    [{ sub := 1, type := .uint 4, prof := .fixed 8, cls := .imm, src := .held, dflt := some (zeros 4), hi := 2 ^ 32 - 1 },
     { sub := 2, type := .domain, prof := .fixed 8, cls := .imm, src := .view }, proc 8 none 3, proc 8 none 4])
  else if i = 0xF040 then some (.record
    [ro 1 (.oct 32) 8, { sub := 2, type := .oct 64, prof := .fixed 8, cls := .imm, src := .view }])
  else none

/-- The entry of a hardware-served index (R580). -/
def indexOf (i : Nat) : Option OIndex :=
  if i < 0x3000 then indexLow i
  else if i < 0x4000 then indexVideo i
  else if i < 0x5800 then indexMedia i
  else indexHigh i

/-- An entry of an index; sub 0 of a record is its highest subindex (R547, R548). None: NO_SUB. -/
def OIndex.entry (x : OIndex) (sub : Nat) : Option Obj :=
  match x with
  | .single o => if sub = 0 then some o else none
  | .record os =>
    if sub = 0 then some { sub := 0, type := .uint 1, prof := .fixed 2, src := .held, dflt := some [BitVec.ofNat 8 ((os.map Obj.sub).foldl max 0)] }
    else os.find? (fun o => o.sub = sub)

/-- The entries of an index. -/
def OIndex.entries : OIndex → List Obj
  | .single o => [o]
  | .record os => os

/-- The key of an object in the engine's stores: index and subindex. -/
def okey (index sub : Nat) : Nat := index * 256 + sub

/-- The object of a key. -/
def objOf (key : Nat) : Option Obj := (indexOf (key / 256)).bind (fun x => x.entry (key % 256))

/-- The clock-enable bit of an object's block: register number CKENn and bit (R578, table *Enable bits*). -/
def gateOf (i sub : Nat) : Option (Nat × Nat) :=
  if i = 0x1100 then some (2, 4)
  else if 0x2000 ≤ i ∧ i < 0x3000 ∧ i % 64 = 0 then
    if sub = 0x24 then some (0, 5) else if 0x21 ≤ sub then some (0, 3) else some (0, 2)
  else if 0x3000 ≤ i ∧ i < 0x3100 then some (0, 1)
  else if 0x3101 ≤ i ∧ i < 0x3105 then some (1, 8 + (i - 0x3101))
  else if 0x3120 ≤ i ∧ i < 0x3124 then some (1, 8 + (i - 0x3120))
  else if 0x3100 ≤ i ∧ i < 0x3200 then some (0, 2)
  else if 0x3200 ≤ i ∧ i < 0x3300 then some (0, 3)
  else if 0x4101 ≤ i ∧ i < 0x4109 then some (1, i - 0x4101)
  else if 0x4000 ≤ i ∧ i < 0x5000 then some (0, 9)
  else if i = 0x5000 ∧ sub = 3 ∨ i = 0x5001 ∧ sub = 5 then some (0, 4)
  else if i = 0x5000 ∧ sub = 4 ∨ i = 0x5001 ∧ sub = 6 then some (0, 5)
  else if i = 0x5000 ∨ i = 0x5001 then some (0, 8)
  else if 0x5010 ≤ i ∧ i < 0x5021 then some (0, 7)
  else if i = 0x5021 then some (0, 4)
  else if i = 0x5030 ∨ i = 0x5031 then some (0, 6)
  else if i = 0x5810 then some (2, 0)
  else if i = 0x5811 then some (2, 1)
  else if i = 0x5820 then some (2, 2)
  else if i = 0x5821 then some (2, 3)
  else if i = 0x9020 then some (0, 15)
  else none

/-- Default groups (table *Default groups*): the indices of a block group's code; none for a code not in the table. -/
def groupOf (code : Nat) : Option (Nat → Bool) :=
  let span (a b : Nat) : Nat → Bool := fun i => decide (a ≤ i ∧ i < b)
  match code with
  | 0x10 => some (span 0x1008 0x1009)
  | 0x11 => some (fun i => span 0x1100 0x1101 i || span 0x1112 0x1120 i || span 0x1123 0x1140 i)
  | 0x30 => some (span 0x3000 0x3100)
  | 0x31 => some (span 0x3100 0x3200)
  | 0x32 => some (span 0x3200 0x3300)
  | 0x40 => some (span 0x4000 0x5000)
  | 0x50 => some (span 0x5000 0x5800)
  | 0x58 => some (span 0x5800 0x6000)
  | 0x80 => some (span 0x8000 0x9000)
  | 0x90 => some (span 0x9000 0xA000)
  | _ => none

/-- The hardware-served indices, ascending. -/
def allIndices : List Nat :=
  [0x1000, 0x1001, 0x1002, 0x1003, 0x1004, 0x1005, 0x1008, 0x1100] ++ (List.range 16).map (0x1110 + ·)
    ++ (List.range 32).map (0x1120 + ·)
    ++ (List.range 64).flatMap (fun n => [0x2000 + 64 * n, 0x2001 + 64 * n, 0x2002 + 64 * n])
    ++ [0x3000, 0x3001, 0x3002, 0x3010] ++ (List.range 32).map (0x3020 + ·)
    ++ [0x3100, 0x3101, 0x3102, 0x3103, 0x3104, 0x3110, 0x3111, 0x3120, 0x3121, 0x3122, 0x3123, 0x3130, 0x3200, 0x3201,
        0x3202, 0x3203, 0x3204, 0x4000, 0x4010, 0x4011, 0x4020] ++ (List.range 16).map (0x4030 + ·)
    ++ [0x4040, 0x4050, 0x4051, 0x4052, 0x4100, 0x4101, 0x4102, 0x4103, 0x4104, 0x4105, 0x4106, 0x4107, 0x4108, 0x4110,
        0x4111, 0x4112, 0x5000, 0x5001, 0x5010, 0x5011, 0x5012, 0x5013, 0x5020, 0x5021, 0x5030, 0x5031]
    ++ [0x5800, 0x5801, 0x5802, 0x5803, 0x5804, 0x5810, 0x5811, 0x5812, 0x5820, 0x5821, 0x8000, 0x8001]
    ++ (List.range 8).map (0x8010 + ·)
    ++ [0x8020, 0x8030, 0x8031, 0x8032, 0x9000, 0x9010, 0x9020, 0xA000, 0xA001, 0xA010, 0xA020, 0xF001, 0xF010, 0xF011,
        0xF020, 0xF030, 0xF040]

end Sys2Proof.Machine
end

