-- ==== Sys2Proof/Machine/Access.lean ====
section
/-!
DEFINITION. The access checkers (R899–R911): the regions that match a bus transaction, the default map of privileged
Serge, refusal and its record. Every master's transaction passes here.
-/

namespace Sys2Proof.Machine

/-- The kind of a bus transaction. -/
inductive Access where
  | read | write | fetch
  deriving DecidableEq, Repr

/-- A bus transaction: master ID (R47), custody tag (R36), privilege (R902), kind, address. -/
structure Txn where
  master : Nat
  tag : Option Nat := none
  priv : Bool := true
  kind : Access := .read
  addr : Nat := 0
  deriving DecidableEq, Repr

/-- Attributes that the checker delivers: C, B, ORD (R900, R905). -/
structure Attr where
  c : Bool := false
  b : Bool := false
  ord : Nat := 0
  deriving DecidableEq, Repr, Inhabited

/-- The checker of a Serge-view address (table *Checkers*). -/
def checkerOf (a : Nat) : Option Nat :=
  if within 0x00000000 0x80000 a 1 then some 0
  else if inCore a 1 then some 1
  else if inStripe a 1 then some 2
  else if inMram a 1 then some 3
  else if within 0x40000000 0x40000 a 1 then some 5
  else if within 0x40040000 0x80000 a 1 then some 6
  else if within 0x400C0000 0x50000 a 1 then some 7
  else if within 0x40110000 0x50000 a 1 then some 8
  else if within 0x50000000 0x1000 a 1 then some 9
  else if within 0x60000000 0x10000000 a 1 then some 10
  else none

/-- Region `r` of checker `k` matches a transaction: enabled, address, MASK bit and CMODE (R899). On checker 11 BASE and
LIMIT hold host address bits 43:12 (R906). -/
def regionMatches (s : State) (k r : Nat) (t : Txn) : Bool :=
  let cfg := s.rd (rCHK_CFG k r)
  let base := if k = 11 then (s.rd (rCHK_BASE k r)).toNat * 4096 else bits (s.rd (rCHK_BASE k r)) 31 12 * 4096
  let limit := if k = 11 then (s.rd (rCHK_LIMIT k r)).toNat * 4096 else bits (s.rd (rCHK_LIMIT k r)) 31 12 * 4096
  let mask := (s.rd (rCHK_MASKLO k r)).toNat + 2 ^ 32 * (s.rd (rCHK_MASKHI k r)).toNat
  let cm := bits cfg 7 6
  bit cfg 0 && decide (base ≤ t.addr ∧ t.addr < limit + 0x1000 ∧ base ≤ limit) && mask.testBit t.master &&
    (match cm with
     | 0 => true
     | 1 => t.tag == some (bits cfg 13 8)
     | 2 => t.tag.isSome
     | _ => t.tag.isNone)

/-- Region `r` of checker `k` admits a transaction that it matches: PRIV and rights (R899). -/
def regionAdmits (s : State) (k r : Nat) (t : Txn) : Bool :=
  let cfg := s.rd (rCHK_CFG k r)
  (!bit cfg 5 || t.priv) && (match t.kind with | .read => bit cfg 2 | .write => bit cfg 3 | .fetch => bit cfg 4)

/-- The attributes of a region. -/
def regionAttr (s : State) (k r : Nat) : Attr :=
  let cfg := s.rd (rCHK_CFG k r)
  { c := bit cfg 16, b := bit cfg 17, ord := bits cfg 19 18 }

/-- The default map of privileged Serge and of debug (R903). -/
def defaultMap (t : Txn) : Option Attr :=
  if (t.master = 1 ∧ t.priv = true) ∨ t.master = 2 then
    if within 0x00000000 0x80000 t.addr 1 ∧ t.kind ≠ .write then some {}
    else if inCore t.addr 1 then some { b := true }
    else if within 0x40000000 0x160000 t.addr 1 ∧ t.kind ≠ .fetch then some { ord := 1 }
    else none
  else none

/-- What a checker answers: the attributes of the lowest-numbered admitting region (R900), the default map when no
region matches (R903), or none for a refusal, with the lowest matching region when one matched (R901, R911). -/
def checkAt (s : State) (k : Nat) (t : Txn) : Except Nat Attr :=
  if k = 5 ∧ t.master = 1 ∧ t.priv = true ∧ within 0x40030000 0x10000 t.addr 1 = true ∧ t.kind ≠ .fetch then
    .ok { ord := 1 }                                            -- R904
  else
    match (List.range 32).find? (fun r => regionMatches s k r t && regionAdmits s k r t) with
    | some r => .ok (regionAttr s k r)
    | none =>
      match (List.range 32).find? (fun r => regionMatches s k r t) with
      | some r => .error r
      | none => match defaultMap t with | some a => .ok a | none => .error 0x3F

/-- The record of a refusal: FCNT, the first refusal in FADDR and FINFO (R911), STK_ACCDP for masters other than Serge
and debug (R910). -/
def refuseAt (k region : Nat) (t : Txn) (s : State) : State :=
  let s := s.addSat (rCHK_FCNT k) 1
  let s :=
    if s.flag (rCHK_FINFO k) 31 then s
    else
      let s := s.wr (rCHK_FADDR k) (loWord t.addr)
      let s := if k = 11 then s.wr (rCHK_FADDRHI k) (field 11 0 (t.addr / 2 ^ 32)) else s
      let s := s.wr (rCHK_FINFO k)
        (field 5 0 t.master ||| field 11 6 (t.tag.getD 0) ||| field 12 12 t.tag.isSome.toNat
          ||| field 13 13 (decide (t.kind = .write)).toNat ||| field 14 14 (decide (t.kind = .fetch)).toNat
          ||| field 15 15 (!t.priv).toNat ||| field 21 16 region ||| field 31 31 1)
      s.setFlag rACC_INTSTAT k true
  if t.master = 1 ∨ t.master = 2 then s else setSticky 6 11 (k * 256 + t.master) s

/-- A transaction at checker `k`: admitted with its attributes, or refused and recorded (R909–R911). -/
def transact (k : Nat) (t : Txn) (s : State) : Option Attr × State :=
  match checkAt s k t with
  | .ok a => (some a, s)
  | .error r => (none, refuseAt k r t s)

/-- A job unit's access to core SRAM for `n` bytes: it passes when its first and last byte are admitted and all lie in
core SRAM, the spec's place for descriptors, sources and outputs; a failure ends the job with BUS_ERR (R910). -/
def jobAccess (master : Nat) (tag : Option Nat) (w : Bool) (a n : Nat) (s : State) : Bool × State :=
  let t : Txn := { master := master, tag := tag, kind := if w then .write else .read, addr := a }
  match checkerOf a with
  | none => (false, s)
  | some k =>
    match transact k t s with
    | (none, s) => (false, s)
    | (some _, s) =>
      if n ≤ 1 then (true, s)
      else if checkerOf (a + n - 1) = some k ∧ k ≤ 3 then
        match transact k { t with addr := a + n - 1 } s with
        | (none, s) => (false, s)
        | (some _, s) => (true, s)
      else (false, s)

end Sys2Proof.Machine
end

