-- ==== Sys2Proof/Machine/Rng.lean ====
section
/-!
DEFINITION. Entropy source and DRBG (R287–R294): health tests, start-up test, reseeding, waiting and ERROR.
-/

namespace Sys2Proof.Machine

/-- What a DRBG request comes to. -/
inductive DrbgAns where
  | served (bs : Bytes)
  | wait
  | entropy
  deriving DecidableEq, Repr

/-- A reseed is due before the next request: never seeded, RESEEDINT requests served (0 acts as 1), or PR set (R291). -/
def reseedDue (s : State) : Bool :=
  decide (s.rng.drbg = .uninst) || s.flag rRNG_CTRL 1 ||
    decide (max 1 (s.rd rRNG_RESEEDINT).toNat ≤ s.rng.sinceReseed)

/-- The request served: `n` random bytes, one more request since the reseed. -/
def drbgServe (n : Nat) (s : State) : DrbgAns × State :=
  (.served (drbgBytes s.freeCtr n),
    { s.fresh with rng := { s.rng with sinceReseed := s.rng.sinceReseed + 1 } })

/-- A DRBG request of `n` bytes: reseeding when due, waiting while the source reruns its start-up test, refused in
ERROR, which a due reseed with the source parked enters (R291–R294). -/
def drbgRequest (n : Nat) (s : State) : DrbgAns × State :=
  if s.rng.drbg = .error then (.entropy, s)
  else if reseedDue s then
    match s.rng.es with
    | .ok =>
      let s := s.add64 rRNG_RESEEDCNT_LO rRNG_RESEEDCNT_HI 1
      drbgServe n { s with rng := { s.rng with drbg := .ready, sinceReseed := 0, reseeds := s.rng.reseeds + 1 } }
    | .parked => (.entropy, { s with rng := { s.rng with drbg := .error } })
    | _ => (.wait, s)
  else drbgServe n s

/-- A request whose wait the model does not show: while the source reruns its start-up test the bytes come once it has
passed, and they are drawn here at once (notes/assumptions/44.md); none in ERROR. -/
def drbgNow (n : Nat) (s : State) : Option Bytes × State :=
  let (a, s) := drbgRequest n s
  match a with
  | .served bs => (some bs, s)
  | .wait => (some (drbgBytes s.freeCtr n), s.fresh)
  | .entropy => (none, s)

/-- The outcome of a request that RNG.OUT made: 4 bytes, or 0 with UNDERRUN (R294). -/
def outDeliver : DrbgAns → State → State
  | .served bs, s => s.wr rRNG_OUT (wordOf bs)
  | .wait, s => { s with rng := { s.rng with waits := s.rng.waits ++ [{ user := .out, bytes := 4 }] } }
  | .entropy, s => (s.wr rRNG_OUT 0#32).raise rRNG_STAT 8

/-- The outcome of another block's request. -/
def otherDeliver (n : Nat) : DrbgAns → State → State
  | .served bs, s => { s with rng := { s.rng with served := some bs } }
  | .wait, s => { s with rng := { s.rng with waits := s.rng.waits ++ [{ user := .other, bytes := n }] } }
  | .entropy, s => { s with rng := { s.rng with served := none } }

/-- OUT_READ: a read of RNG.OUT draws 4 bytes (R294). -/
def outRead (s : State) : State :=
  let (a, s) := drbgRequest 4 s
  outDeliver a s

/-- DRBG_REQUEST: a request of 1–4,096 bytes (R292). -/
def drbgAsk (n : Nat) (s : State) : State :=
  let (a, s) := drbgRequest n s
  otherDeliver n a s

/-- HEALTH_TEST_FAILURE: HTFAIL counts, the start-up test reruns; the third failure within one second of EVT parks the
source and sets STK_ESFAIL (R289). -/
def healthFail (s : State) : State :=
  let s := s.addSat rRNG_HTFAIL 1
  let recent := (s.rng.failSecs.filter (fun t => decide (s.felt.evt < t + 2 ^ 24))) ++ [s.felt.evt]
  let s := { s with rng := { s.rng with failSecs := recent } }
  if 3 ≤ recent.length then setSticky 70 38 0 { s with rng := { s.rng with es := .parked } }
  else if s.rng.es = .parked then s
  else { s with rng := { s.rng with es := .retest } }

end Sys2Proof.Machine
end

