-- ==== Sys2Proof/Machine/KeyStore.lean ====
section
/-!
DEFINITION. The key store (R224–R244): handles and generations, usage and owner checks, fills, commands, the Felt
write-through of slots 0–15, the boot-derived slots, ZERO_ALL; and the cipher contexts that commands load (R263–R276).
-/

namespace Sys2Proof.Machine

/-! ## Slots and handles -/

/-- The slot a handle names (R229). -/
def hSlot (h : Nat) : Nat := h % 256
/-- The generation a handle holds (R229). -/
def hGen (h : Nat) : Nat := h / 256 % 256

/-- Key slot `n`. -/
def State.slot (s : State) (n : Nat) : KeySlot := nth s.keys.slots n

/-- The current handle of slot `n` (R229). -/
def handleOf (s : State) (n : Nat) : Nat := (s.slot n).gen * 256 + n

/-- The next generation: 255 wraps to 1 (R230). -/
def nextGen (g : Nat) : Nat := if 255 ≤ g then 1 else g + 1

/-- The handle is current; generation 0 is always stale (R230). -/
def current (s : State) (h : Nat) : Bool := decide (hGen h ≠ 0 ∧ (s.slot (hSlot h)).gen = hGen h)

/-- USAGE bits (table *ATTR*). -/
def uHMAC : Nat := 0x01
def uKDF : Nat := 0x02
def uMOVE : Nat := 0x04
def uPRIV : Nat := 0x08
def uPUB : Nat := 0x10
def uWRAP : Nat := 0x20
def uAES : Nat := 0x40

/-- ATTR fields. -/
def aUsage (a : Word) : Nat := bits a 7 0
def aOwner (a : Word) : Nat := bits a 13 8
def aAny (a : Word) : Bool := bit a 14
def aTZ (a : Word) : Bool := bit a 15
def aKtype (a : Word) : Nat := bits a 19 16
def aLen (a : Word) : Nat := bits a 25 20 + 1

/-- LIFETIME by slot number: CELL 0–15, BOOT 16–19, VOLATILE above (R238, R242). -/
def lifetime (n : Nat) : Nat := if n < 16 then 1 else if n ≤ 19 then 2 else 0

/-- ATTR as the hardware keeps it: LIFETIME forced, reserved bits 0 (table *ATTR*). -/
def forceAttr (n : Nat) (a : Word) : Word := setBits (setBits (setBits a 31 28 0) 27 26 (lifetime n)) 7 7 0

/-- What a use of a slot comes to (R226–R228, R231). -/
inductive KeyUse where
  | key (k : Bytes)
  | stale
  | usage
  | owner
  deriving DecidableEq, Repr

/-- The USAGE bits `need` are all set. -/
def hasUsage (a : Word) (need : Nat) : Bool := decide (aUsage a &&& need = need)

/-- The owner check: a tagged request needs OWNERANY or its own custody as OWNER (R227). -/
def ownerOk (a : Word) (tag : Option Nat) : Bool :=
  match tag with | none => true | some t => aAny a || decide (aOwner a = t)

/-- A use of the slot a handle names: current, LOADED, usage, owner (R226, R227). A slot that is not LOADED counts as
lacking the usage (notes/assumptions/20.md). -/
def useKey (s : State) (h need : Nat) (tag : Option Nat := none) : KeyUse :=
  let k := s.slot (hSlot h)
  if !current s h then .stale
  else if k.st ≠ .loaded ∨ hasUsage k.attr need = false then .usage
  else if !ownerOk k.attr tag then .owner
  else .key k.key

/-- A slot set; a change of slots 0–15 starts its write-through to Felt RAM (R238). -/
def putSlot (n : Nat) (k : KeySlot) (s : State) : State :=
  let ks := { s.keys with slots := upd s.keys.slots n (fun _ => k) }
  { s with keys := if n < 16 then { ks with landing := (ks.landing.filter (· ≠ n)) ++ [n] } else ks }

/-- ZEROIZE of slot `n`: key and ATTR cleared, generation advanced (R230). -/
def zeroizeSlot (n : Nat) (s : State) : State :=
  putSlot n { st := .empty, attr := 0#32, gen := nextGen (s.slot n).gen, key := [] } s

/-- ALLOC of slot `n` by hardware or command: RESERVED, generation advanced (R230, R346). -/
def allocSlot (n : Nat) (attr : Word) (s : State) : State :=
  putSlot n { st := .reserved, attr := forceAttr n attr, gen := nextGen (s.slot n).gen, key := [] } s

/-- Outcome of a fill of a RESERVED slot (R234). -/
inductive FillRes where
  | ok | stale | notReserved | owner | short
  deriving DecidableEq, Repr

/-- A fill: the first LENM1 + 1 bytes become the key (R234, R257). -/
def fillSlot (h : Nat) (bs : Bytes) (tag : Option Nat) (s : State) : FillRes × State :=
  let k := s.slot (hSlot h)
  if !current s h then (.stale, s)
  else if k.st ≠ .reserved then (.notReserved, s)
  else if !ownerOk k.attr tag then (.owner, s)
  else if bs.length < aLen k.attr then (.short, s)
  else (.ok, putSlot (hSlot h) { k with st := .loaded, key := bs.take (aLen k.attr) } s)

/-! ## Cipher contexts -/

/-- Context TYPE of a KTYPE: 1 XTS-128, 2 XTS-256, 3 AES-128, 4 AES-256 (table *CIPHER context registers*). -/
def ctxType (ktype : Nat) : Option Nat :=
  if ktype = 3 then some 1 else if ktype = 4 then some 2
  else if ktype = 1 then some 3 else if ktype = 2 then some 4 else none

/-- Key bytes of a context TYPE. -/
def ctxKeyLen (ty : Nat) : Nat := if ty = 1 then 32 else if ty = 2 then 64 else if ty = 3 then 16 else 32

/-- General context `n` (64–78) or context 79. -/
def State.gctx (s : State) (n : Nat) : GenCtx := nth s.ctx.general (n - 64)

/-- A general context loaded. -/
def setGctx (n : Nat) (g : GenCtx) (s : State) : State :=
  { s with ctx := { s.ctx with general := upd s.ctx.general (n - 64) (fun _ => g) } }

/-- Bank `b` of custody context `n`. -/
def State.bank (s : State) (n : Nat) (b : Bool) : Bank := if b then nth s.ctx.bank1 n else nth s.ctx.bank0 n

/-- A bank loaded. -/
def setBank (n : Nat) (b : Bool) (k : Bank) (s : State) : State :=
  { s with ctx := if b then { s.ctx with bank1 := upd s.ctx.bank1 n (fun _ => k) }
                  else { s.ctx with bank0 := upd s.ctx.bank0 n (fun _ => k) } }

/-- A stripe of custody `n` still waits for encryption under version `v`: until the journal releases it (R386). -/
def verWaits (s : State) (n v : Nat) : Bool := s.jrn.stripes.any (fun j => j.cust = n && j.keyver = v)

/-- The key check value of a key (R270). -/
def kcvOf (key : Bytes) : Bytes := fit 8 (Config.hmac 0 key (zeros 32))

/-- RESTORE's choice of bank for version `v` (R271): the bank holding it, else an empty one, else one whose version no
stripe waits for. -/
def restoreBank (s : State) (n v : Nat) : Option Bool :=
  if (s.bank n false).ver = some v then some false
  else if (s.bank n true).ver = some v then some true
  else if (s.bank n false).ver = none then some false
  else if (s.bank n true).ver = none then some true
  else if !verWaits s n ((s.bank n false).ver.getD 0) then some false
  else if !verWaits s n ((s.bank n true).ver.getD 0) then some true
  else none

/-! ## Commands -/

/-- RESULT codes (table *KEYSTORE registers*). -/
def ksOK : Nat := 0
def ksBUSY : Nat := 1
def ksSTALE : Nat := 2
def ksNOTEMPTY : Nat := 3
def ksNOTRES : Nat := 4
def ksUSAGE : Nat := 5
def ksTYPE : Nat := 6
def ksKCV : Nat := 7
def ksENTROPY : Nat := 8
def ksLIFE : Nat := 9
def ksBADSLOT : Nat := 10

/-- The key store is busy: a command waits for the DRBG or for a write-through (STAT.BUSY). -/
def ksBusy (s : State) : Bool := s.keys.waiting.isSome || s.keys.doneAt.isSome

/-- RESULT written. -/
def ksResult (code h : Nat) (s : State) : State := s.wr rKEYSTORE_RESULT (field 31 16 code ||| field 15 0 h)

/-- A command completes: RESULT, CMDDONE, IMPWIN cleared (R235). -/
def ksDone (code h : Nat) (s : State) : State :=
  let s := (ksResult code h s).raise rKEYSTORE_INTSTAT 0
  { s with keys := { s.keys with impwin := List.replicate 16 0#32, waiting := none, doneAt := none } }

/-- A command that changed slot `n` completes: at once, or at the write-through of a cell slot (R233). -/
def ksDoneSlot (n h : Nat) (s : State) : State :=
  if n < 16 then { s with keys := { s.keys with doneAt := some (n, ksOK, h) } } else ksDone ksOK h s

/-- A command unless one is in progress: then it is ignored and CODE reads BUSY (R237). -/
def ksCommand (g : State → State) (s : State) : State :=
  if ksBusy s then s.setFld rKEYSTORE_RESULT 31 16 ksBUSY else g s

/-- ALLOC (R230): EMPTY to RESERVED with ATTR from ATTRIN. A reserved KTYPE is refused with TYPE. -/
def ksAlloc (n : Nat) (s : State) : State :=
  let a := s.rd rKEYSTORE_ATTRIN
  if (s.slot n).st ≠ .empty then ksDone ksNOTEMPTY (handleOf s n) s
  else if 9 ≤ aKtype a then ksDone ksTYPE (handleOf s n) s
  else
    let s := allocSlot n a s
    ksDoneSlot n (handleOf s n) s

/-- ZEROIZE by handle (R230, R231). -/
def ksZeroize (h : Nat) (s : State) : State :=
  if !current s h then ksDone ksSTALE h s
  else
    let s := zeroizeSlot (hSlot h) s
    ksDoneSlot (hSlot h) (handleOf s (hSlot h)) s

/-- NARROW: clears the USAGE bits set in ATTRIN of a LOADED slot (table *Key-store commands*). -/
def ksNarrow (h : Nat) (s : State) : State :=
  let k := s.slot (hSlot h)
  if !current s h then ksDone ksSTALE h s
  else if k.st ≠ .loaded then ksDone ksUSAGE h s
  else
    let m := field 7 0 (bits (s.rd rKEYSTORE_ATTRIN) 7 0)
    let s := putSlot (hSlot h) { k with attr := k.attr &&& ~~~m } s
    ksDoneSlot (hSlot h) h s

/-- The fill that ends a GENERATE once its random bytes are there. -/
def ksGenFill (h : Nat) (bs : Bytes) (s : State) : State :=
  match fillSlot h bs none s with
  | (.ok, s) => ksDoneSlot (hSlot h) h { s with keys := { s.keys with waiting := none } }
  | (.stale, s) => ksDone ksSTALE h s
  | (_, s) => ksDone ksNOTRES h s

/-- GENERATE: LENM1 + 1 bytes from the DRBG, which may make it wait (R233, R293, R294). -/
def ksGenerate (n h : Nat) (s : State) : State :=
  let k := s.slot (hSlot h)
  if !current s h then ksDone ksSTALE h s
  else if k.st ≠ .reserved then ksDone ksNOTRES h s
  else
    match drbgRequest (aLen k.attr) s with
    | (.served bs, s) => ksGenFill h bs s
    | (.wait, s) =>
      { s with keys := { s.keys with waiting := some { slot := n, arg := h } },
               rng := { s.rng with waits := s.rng.waits ++ [{ user := .generate, bytes := aLen k.attr }] } }
    | (.entropy, s) => ksDone ksENTROPY h s

/-- IMPORT: the key from the IMPWIN words; in FIELD only for PK_PUBLIC slots (R236). -/
def ksImport (h : Nat) (s : State) : State :=
  let k := s.slot (hSlot h)
  if !current s h then ksDone ksSTALE h s
  else if k.st ≠ .reserved then ksDone ksNOTRES h s
  else if s.fuse.life = .fieldLife ∧ aUsage k.attr ≠ uPUB then ksDone ksLIFE h s
  else ksGenFill h ((s.keys.impwin.map (fun w => le 4 w.toNat)).flatten) s

/-- KEYMOVE: a slot's key to general context 64–78 (R265, R266). -/
def ksKeymove (n ctx : Nat) (s : State) : State :=
  let k := s.slot n
  if ctx < 64 ∨ 78 < ctx then ksDone ksBADSLOT (handleOf s n) (s.raise rCIPHER_INTSTAT 3)
  else if k.st ≠ .loaded ∨ hasUsage k.attr uMOVE = false then ksDone ksUSAGE (handleOf s n) s
  else
    match ctxType (aKtype k.attr) with
    | none => ksDone ksTYPE (handleOf s n) s
    | some _ =>
      ksDone ksOK (handleOf s n)
        (setGctx ctx { (s.gctx ctx) with ktype := aKtype k.attr, key := k.key } s)

/-- RESTORE: a slot's key to a bank of a custody context, when its KCV is one that Linen holds (R270, R271). -/
def ksRestore (n ctx : Nat) (s : State) : State :=
  let k := s.slot n
  if 63 < ctx then ksDone ksBADSLOT (handleOf s n) s
  else if k.st ≠ .loaded ∨ hasUsage k.attr uMOVE = false then ksDone ksUSAGE (handleOf s n) s
  else if aKtype k.attr ≠ 3 ∧ aKtype k.attr ≠ 4 then ksDone ksTYPE (handleOf s n) s
  else
    let earlier := ((nth s.linen.kcv ctx).drop 1).filter (fun e => verWaits s ctx e.1)
    match ((nth s.linen.kcv ctx).take 1 ++ earlier).find? (fun e => e.2 == kcvOf k.key) with
    | none => ksDone ksKCV (handleOf s n) s
    | some (v, _) =>
      match restoreBank s ctx v with
      | none => ksDone ksBUSY (handleOf s n) s
      | some b =>
        let s := if (s.bank ctx b).ver = some v ∧ verWaits s ctx v = true then s
                 else setBank ctx b { ver := some v, key := k.key, ktype := aKtype k.attr } s
        ksDone ksOK (handleOf s n) s

/-- FELT_WRITE_THROUGH_DONE: the cell copy of a slot is written and FELTBUSY falls; a command that waited for it
completes (R233, R238). -/
def feltWriteThrough (n : Nat) (s : State) : State :=
  if s.keys.landing.contains n then
    let s := { s with keys := { s.keys with
      cell := upd s.keys.cell n (fun _ => s.slot n), landing := s.keys.landing.filter (· ≠ n) } }
    match s.keys.doneAt with
    | some (m, code, h) => if m = n then ksDone code h s else s
    | none => s
  else s

/-- The requests that waited for the start-up test are served, oldest first (R293). -/
def serveWaits : List DrbgWait → State → State
  | [], s => s
  | w :: ws, s =>
    match drbgRequest w.bytes s with
    | (.served bs, s) =>
      let s := match w.user with
        | .generate => match s.keys.waiting with | some k => ksGenFill k.arg bs s | none => s
        | .out => outDeliver (.served bs) s
        | .other => otherDeliver w.bytes (.served bs) s
      serveWaits ws s
    | (_, s) => { s with rng := { s.rng with waits := s.rng.waits ++ (w :: ws) } }

/-- START_UP_TEST_DONE: the source is OK, the DRBG is instantiated at boot, waiting requests are served (R288, R290). -/
def startUpDone (s : State) : State :=
  if s.rng.es = .startup ∨ s.rng.es = .retest then
    let ws := s.rng.waits
    serveWaits ws { s with rng := { s.rng with es := .ok, waits := [] } }
  else s

/-- DRBG_WAIT_EXPIRY: the oldest waiting request fails with ENTROPY (R293). -/
def waitExpiry (s : State) : State :=
  match s.rng.waits with
  | [] => s
  | w :: ws =>
    let s := { s with rng := { s.rng with waits := ws } }
    match w.user with
    | .generate => match s.keys.waiting with | some k => ksDone ksENTROPY k.arg s | none => s
    | .out => outDeliver .entropy s
    | .other => otherDeliver w.bytes .entropy s

/-! ## ZERO_ALL, boot derivation, reset -/

/-- ZERO_ALL on the key store: slots 0–15, every slot with TZ, general contexts 64–78 (R244). -/
def zeroAllSlots : List Nat → State → State
  | [], s => s
  | n :: ns, s =>
    let s := if n < 16 ∨ aTZ (s.slot n).attr = true then zeroizeSlot n s else s
    zeroAllSlots ns s

/-- The ZERO_ALL response on slots and contexts; TAMPERZERO is raised (R244). -/
def zeroAllKeys (s : State) : State :=
  let s := zeroAllSlots (List.range 256) s
  let s := { s with ctx := { s.ctx with general := List.replicate 15 (default : GenCtx) ++ [nth s.ctx.general 15] } }
  s.raise rKEYSTORE_INTSTAT 1

/-- ASCII label bytes of R242. -/
def labelKdf : Bytes := [0x54, 0x5A, 0x39, 0x36, 0x30, 0x2D, 0x4B, 0x44, 0x46]
def labelId : Bytes := [0x54, 0x5A, 0x39, 0x36, 0x30, 0x2D, 0x49, 0x44]
def labelBoot : Bytes := [0x54, 0x5A, 0x39, 0x36, 0x30, 0x2D, 0x42, 0x4F, 0x4F, 0x54]
def labelStore : Bytes := [0x54, 0x5A, 0x39, 0x36, 0x30, 0x2D, 0x53, 0x54, 0x4F, 0x52, 0x45]

/-- A boot-derived slot: LOADED, generation 1, OWNERANY 1, TZ 0 (R241, R242). -/
def bootSlot (n usage ktype len : Nat) (key : Bytes) : KeySlot :=
  { st := .loaded, gen := 1, key := key,
    attr := forceAttr n (field 7 0 usage ||| field 14 14 1 ||| field 19 16 ktype ||| field 25 20 (len - 1)) }

/-- In RMA each label has "-RMA" appended (R1058). -/
def rmaLabel (s : State) (l : Bytes) : Bytes := if s.fuse.life = .rma then l ++ [0x2D, 0x52, 0x4D, 0x41] else l

/-- The derivation of slots 16–19 from the fuse root; DEVSTORE moves to context 79; ROOTLOCK is set (R242, R275). In
BLANK, or without a root, the slots and context 79 stay empty (R243). -/
def deriveBoot (root : Option Bytes) (s : State) : State :=
  let s := s.setFlag rDIGEST_STAT 0 true
  match root with
  | none => s
  | some r =>
    if s.fuse.life = .blank then s
    else
      let store := fit 64 (Config.hmac 2 r (rmaLabel s labelStore))
      let s := putSlot 16 (bootSlot 16 uKDF 0 32 (fit 32 (Config.hmac 0 r (rmaLabel s labelKdf)))) s
      let s := putSlot 17 (bootSlot 17 uPRIV 5 32 (fit 32 (Config.identityScalar (Config.hmac 2 r (rmaLabel s labelId))))) s
      let s := putSlot 18 (bootSlot 18 uAES 2 32 (fit 32 (Config.hmac 0 r (rmaLabel s labelBoot)))) s
      let s := putSlot 19 (bootSlot 19 uMOVE 4 64 store) s
      setGctx 79 { ktype := 4, key := store } s

/-- Slots after a full reset: 0–15 from their Felt copy, 16–255 EMPTY with generation 1; every context empty
(R238, R241, R275). A write-through in flight lands, because Felt stays supplied (notes/assumptions/21.md). -/
def keysReset (s : State) : State :=
  let cell := (List.range 16).map (fun n => if s.keys.landing.contains n then s.slot n else nth s.keys.cell n)
  { s with keys := { slots := cell ++ List.replicate 240 {}, cell := cell },
           ctx := { waiting := s.ctx.waiting.map (fun _ => false) } }

/-- Power loss before a write-through: the slot reads EMPTY at the next boot and its generation has advanced (R239). -/
def keysPowerLoss (s : State) : State :=
  let cell := (List.range 16).map (fun n =>
    if s.keys.landing.contains n then { (default : KeySlot) with gen := nextGen (s.slot n).gen } else nth s.keys.cell n)
  { s with keys := { s.keys with cell := cell, landing := [] } }

end Sys2Proof.Machine
end

