-- ==== Sys2Proof/Machine/Records.lean ====
section
/-!
DEFINITION. The byte layouts of ledger records (R183–R185) and of metadata-log entries (R436, R437), and the order of
positions.
-/

namespace Sys2Proof.Machine

/-! ## Positions -/

/-- A position as one number that grows with it (R56, R57). -/
def Pos.key (p : Pos) : Nat := (p.epoch * 2 ^ 32 + p.frame) * 2 ^ 16 + p.line

/-- The later of two positions. -/
def Pos.max (p q : Pos) : Pos := if q.key ≤ p.key then p else q

/-- Eight bytes of a position: FRAME, LINE, frame epoch (R184). -/
def Pos.bytes (p : Pos) : Bytes := le 4 p.frame ++ le 2 p.line ++ le 2 p.epoch

/-- The position that eight bytes hold (R184). -/
def posOf (n : Nat) : Pos := { frame := n % 2 ^ 32, line := n / 2 ^ 32 % 2 ^ 16, epoch := n / 2 ^ 48 % 2 ^ 16 }

/-- The code of a close cause (table *STRIPE body*). -/
def Cause.code : Cause → Nat
  | .size => 1
  | .frameEnd => 2
  | .seal => 3
  | .sealNow => 4
  | .partialStripe => 5

/-! ## Ledger records -/

/-- TYPE of a record (table *Record types*). -/
def Body.type : Body → Nat
  | .stripe .. => 0x01
  | .gap .. => 0x02
  | .drop .. => 0x03
  | .desc .. => 0x04
  | .descSkew .. => 0x05
  | .keywrap .. => 0x06
  | .anchor .. => 0x10
  | .epoch .. => 0x11
  | .timemap .. => 0x12

/-- Length of a record by its TYPE (R183). -/
def recLen (type : Nat) : Nat := if type = 0x06 ∨ type = 0x10 ∨ type = 0x11 then 256 else 128

/-- Bytes 0x30 to the TAG of each record (tables *STRIPE body* to *TIMEMAP body*). -/
def Body.bytes : Body → Bytes
  | .stripe first last offset ns gen length cause flags keyver digest =>
    first.bytes ++ last.bytes ++ le 6 offset ++ le 1 ns ++ le 1 gen ++ le 4 length ++ le 1 cause ++ le 1 flags
      ++ le 2 keyver ++ fit 32 digest
  | .gap reason sub fromPos toPos fromEvt mono arg0 arg1 =>
    le 1 reason ++ le 1 sub ++ zeros 6 ++ fromPos.bytes ++ toPos.bytes ++ le 8 fromEvt ++ le 8 mono ++ le 8 arg0
      ++ le 8 arg1 ++ zeros 8
  | .drop reason prio packets first last bytes dtag =>
    le 1 reason ++ le 1 prio ++ zeros 2 ++ le 4 packets ++ first.bytes ++ last.bytes ++ le 8 bytes ++ le 2 dtag ++ zeros 30
  | .desc cause descriptor => le 1 cause ++ zeros 3 ++ fit 60 descriptor
  | .descSkew mgen lgen tgen => le 1 mgen ++ le 1 lgen ++ le 1 tgen ++ zeros 61
  | .keywrap kind alg wraplen keygen ownerid ephpub wrapped kcv =>
    le 1 kind ++ le 1 alg ++ le 2 wraplen ++ le 4 keygen ++ fit 8 ownerid ++ fit 64 ephpub ++ fit 72 wrapped ++ fit 8 kcv
      ++ zeros 32
  | .anchor root mono ep flags keyid live sig =>
    fit 32 root ++ le 8 mono ++ le 4 ep ++ le 1 flags ++ zeros 3 ++ fit 8 keyid ++ le 8 live ++ fit 64 sig ++ zeros 64
  | .epoch newEpoch reason source mono newPub newKeyId signerId sig =>
    le 4 newEpoch ++ le 1 reason ++ le 1 source ++ zeros 2 ++ le 8 mono ++ fit 64 newPub ++ fit 8 newKeyId ++ fit 8 signerId
      ++ fit 64 sig ++ zeros 32
  | .timemap utcoff disc leap ppserr mono =>
    le 8 utcoff ++ le 1 disc ++ le 1 leap ++ zeros 2 ++ le 4 ppserr ++ le 8 mono ++ zeros 40

/-- The 48-byte header (table *Record header*). -/
def recHeader (type cust seq evt : Nat) (prev : Bytes) : Bytes :=
  le 1 type ++ le 1 cust ++ le 6 seq ++ le 8 evt ++ fit 32 prev

/-- Every byte of a record before its TAG. -/
def Rec.unsealed (r : Rec) : Bytes := recHeader r.body.type r.cust r.seq r.evt r.prev ++ r.body.bytes

/-- All bytes of a record. -/
def Rec.bytes (r : Rec) : Bytes := r.unsealed ++ fit 16 r.tag

/-- The highest position a record holds, for the checkpoint's highest line position (table *Checkpoint slot contents*). -/
def Body.topPos : Body → Pos
  | .stripe first last .. => first.max last
  | .gap _ _ fromPos toPos .. => fromPos.max toPos
  | .drop _ _ _ first last .. => first.max last
  | _ => {}

/-- Ledger-unit slots of 128 bytes that a record takes (R469). -/
def Rec.slots (r : Rec) : Nat := recLen r.body.type / 128

/-! ## Metadata log -/

/-- TYPE of a log entry (table *Log entry types*). -/
def LogBody.type : LogBody → Nat
  | .pad .. => 0x00
  | .ledger .. => 0x01
  | .mapdelta .. => 0x02
  | .frelease .. => 0x03
  | .segstate .. => 0x04
  | .reclaim .. => 0x05
  | .release .. => 0x06
  | .badblk .. => 0x07
  | .timeck .. => 0x08
  | .ckpt .. => 0x09
  | .nscfg .. => 0x0A
  | .lost .. => 0x0B

/-- Body bytes of a log entry (table *Log entry types*). -/
def LogBody.bytes : LogBody → Bytes
  | .pad n => zeros n
  | .ledger jsn head r => le 8 jsn ++ fit 32 head ++ r.bytes
  | .mapdelta ns reason count unit seg slot oldSeg oldSlot =>
    le 1 ns ++ le 1 reason ++ zeros 2 ++ le 4 count ++ le 8 unit ++ le 4 seg ++ le 4 slot ++ le 4 oldSeg ++ le 4 oldSlot
  | .frelease first count => le 2 first ++ le 2 count ++ zeros 4
  | .segstate seg st ns erases flags => le 4 seg ++ le 1 st ++ le 1 ns ++ zeros 2 ++ le 4 erases ++ le 4 flags
  | .reclaim ns newLow => le 1 ns ++ zeros 7 ++ le 8 newLow
  | .release ns fromU toU => le 1 ns ++ zeros 7 ++ le 8 fromU ++ le 8 toU
  | .badblk channel lun block => le 1 channel ++ le 1 lun ++ zeros 2 ++ le 4 block
  | .timeck evt mono => le 8 evt ++ le 8 mono
  | .ckpt slot cklsn => le 1 slot ++ zeros 7 ++ le 8 cklsn
  | .nscfg ns cls en reserve quota => le 1 ns ++ le 1 cls ++ le 1 en ++ zeros 1 ++ le 4 reserve ++ le 4 quota ++ zeros 4
  | .lost ns unit => le 1 ns ++ zeros 7 ++ le 8 unit

/-- An entry as the ring holds it: header, body, trailer (table *Log entry framing*). -/
def LogBody.framed (b : LogBody) (lsn : Nat) : Bytes :=
  let e := le 1 b.type ++ le 1 1 ++ le 2 b.bytes.length ++ zeros 4 ++ le 8 lsn ++ b.bytes
  e ++ le 4 (crc32c e).toNat ++ le 4 lsn

end Sys2Proof.Machine
end

