-- ==== Sys2Proof/Machine/Log.lean ====
section
/-!
DEFINITION. The metadata log ring (R436–R442): appending entries, PAD, occupancy, the last breath's reserve.
-/

namespace Sys2Proof.Machine

/-- The log ring's first byte and size (R427). -/
def logBase : Nat := 0x3070E000
def logSize : Nat := 0xB2000

/-- The offset of the tail: the oldest entry still in the log (R440). -/
def Journal.tailOff (j : Journal) : Nat := match j.log with | [] => j.logOff | e :: _ => e.off

/-- Bytes of the ring in use. -/
def Journal.logUsed (j : Journal) : Nat := (j.logOff + logSize - j.tailOff) % logSize

/-- Bytes of the ring that are free. -/
def Journal.logFree (j : Journal) : Nat := logSize - j.logUsed

/-- LOGLOW and LOGSTOP in bytes; LOGSTOP below 4 acts as 4 (table *Twill journal and segment registers*). -/
def logLow (s : State) : Nat := s.fld rTWILL_JCTRL 7 0 * 4096
def logStop (s : State) : Nat := max 4 (s.fld rTWILL_JCTRL 15 8) * 4096

/-- One entry written at the head of the ring (R436). A LEDGER entry waits for its ledger unit (R440). -/
def logPut (b : LogBody) (s : State) : State :=
  let bytes := b.framed s.jrn.lsn
  let e : LogEntry := { lsn := s.jrn.lsn, off := s.jrn.logOff, body := b,
                        placed := (match b with | .ledger .. => false | _ => true) }
  let s := s.store (logBase + s.jrn.logOff) bytes
  { s with jrn := { s.jrn with
    log := s.jrn.log ++ [e], lsn := s.jrn.lsn + 1, logOff := (s.jrn.logOff + bytes.length) % logSize } }

/-- The head moved to the ring's first byte, behind a PAD entry, when an entry of `n` bytes would cross the end (R437).
Where fewer than 24 bytes are left no entry fits, and they stay unwritten (notes/assumptions/23.md). -/
def logPad (n : Nat) (s : State) : State :=
  let room := logSize - s.jrn.logOff
  if n ≤ room then s
  else if 24 ≤ room then logPut (.pad (room - 24)) s
  else { s with jrn := { s.jrn with logOff := 0 } }

/-- After an append or a tail advance: LOGLOW is raised below LOGLOW; stripes are refused from LOGSTOP down until LOGLOW
is free again (R441). -/
def logLevels (s : State) : State :=
  let free := s.jrn.logFree
  let s := if free < logLow s then s.raise rTWILL_JINTSTAT 1 else s
  if free < logStop s then { s with jrn := { s.jrn with logStopped := true } }
  else if logLow s ≤ free then { s with jrn := { s.jrn with logStopped := false } }
  else s

/-- An entry appended; outside the last breath it leaves the last 16 KiB free and waits instead (R442). -/
def logAppend (b : LogBody) (s : State) : State :=
  let n := 24 + b.bytes.length
  if s.dying = false ∧ (s.jrn.logWait ≠ [] ∨ s.jrn.logFree < n + 16384) then
    { s with jrn := { s.jrn with logWait := s.jrn.logWait ++ [b] } }
  else logLevels (logPut b (logPad n s))

/-- Waiting entries written, oldest first. -/
def logFlush : List LogBody → State → State
  | [], s => s
  | b :: bs, s => logFlush bs (logAppend b s)

/-- The entries that wait for space are tried again (R442). -/
def logRetry (s : State) : State :=
  let w := s.jrn.logWait
  logFlush w { s with jrn := { s.jrn with logWait := [] } }

/-- LOGOCC: bytes in use in 8-byte units. -/
def logOcc (s : State) : Nat := s.jrn.logUsed / 8

end Sys2Proof.Machine
end

