-- ==== Sys2Proof/Machine/Ledger.lean ====
section
/-!
DEFINITION. Linen's chains (R176–R195): sealing, chaining and writing of records, GAP records, the Merkle root.
-/

namespace Sys2Proof.Machine

/-- Custody `c` as the data plane sees it. -/
def State.cust (s : State) (c : Nat) : Custody := nth s.muslin.cust c

/-- A custody changed. -/
def setCust (c : Nat) (f : Custody → Custody) (s : State) : State :=
  s.onMuslin (fun m => { m with cust := upd m.cust c f })

/-- Chain `c`: custodies 0–63, the device chain 0x40 (R176). -/
def State.chain (s : State) (c : Nat) : Chain := nth s.linen.chains c

/-- The device chain. -/
def devChain : Nat := 0x40

/-- The namespace that takes a chain's ledger units: the custody's, or the system area's 16 (R467, R469). -/
def chainNs (s : State) (c : Nat) : Nat := if c = devChain then 16 else (s.cust c).tDesc.ns

/-- TAG of a record under the key a handle names, or 16 zero bytes with the marks of R195 (R194, R195, R228). -/
def sealTag (c h : Nat) (bs : Bytes) (s : State) : Bytes × State :=
  match useKey s h uHMAC (if c < 64 then some c else none) with
  | .key k => (fit 16 (Config.hmac 0 k bs), s)
  | _ => (zeros 16, setSticky 67 33 c (s.raise rLINEN_INTSTAT 3))

/-- The record that the chain would take next: SEQ, PREV, sealed under handle `h` (R177, R179, R194). -/
def formRec (c h evt : Nat) (b : Body) (s : State) : Rec × State :=
  let ch := s.chain c
  let r : Rec := { cust := c, seq := ch.seq, evt := evt, prev := if ch.seq = 0 then zeros 32 else ch.head, body := b }
  let (t, s) := sealTag c h r.unsealed s
  ({ r with tag := t }, s)

/-- A formed record enters its chain, the log and its ledger unit (R177, R180, R181, R469). -/
def putRec (jsn : Nat) (r : Rec) (s : State) : State :=
  let head := fit 32 (Config.sha256 r.bytes)
  let next (ch : Chain) : Chain := { seq := r.seq + 1, head := head, recs := ch.recs ++ [r] }
  let s := s.onLinen (fun l => { l with chains := upd l.chains r.cust next })
  let n := chainNs s r.cust
  let keep (x : Namespace) : Namespace := { x with ledgerUnit := x.ledgerUnit ++ [r] }
  let s := s.onJrn (fun j => { j with ns := upd j.ns n keep, topPos := j.topPos.max r.body.topPos })
  logAppend (.ledger jsn head r) s

/-- A record formed and written: `c` its chain, `h` the sealing key's handle, `jsn` 0 but for STRIPE (R181, R438). -/
def appendAt (c h jsn evt : Nat) (b : Body) (s : State) : State :=
  let (r, s) := formRec c h evt b s
  putRec jsn r s

/-- A record written now. -/
def append (c h jsn : Nat) (b : Body) (s : State) : State := appendAt c h jsn s.felt.evt b s

/-- The handle that seals a chain: the custody's LEDGERKEY as Linen holds it, or DEVKEY (R194). -/
def chainKey (s : State) (c : Nat) : Nat :=
  if c = devChain then s.fld rLINEN_DEVKEY 15 0 else (s.cust c).lDesc.ledgerKey

/-- A record written now under the chain's own key. -/
def write (c : Nat) (b : Body) (s : State) : State := append c (chainKey s c) 0 b s

/-- The DESC record of CAUSE CREATE that opens a custody's chain (R178). -/
def ensureCreate (c : Nat) (d : Desc) (s : State) : State :=
  if (s.chain c).seq = 0 then append c d.ledgerKey 0 (.desc 0 (fit 60 d.raw)) s else s

/-! ## GAP records -/

/-- GAP reasons (table *GAP body*). -/
def gapRESET : Nat := 1
def gapPOWER : Nat := 2
def gapDROP : Nat := 3
def gapREFLOST : Nat := 4
def gapTAMPER : Nat := 5
def gapFWRESTART : Nat := 6
def gapCHANNEL : Nat := 7
def gapTIMEGAP : Nat := 8

/-- EVT of the last record of a chain; 0 for an empty chain. -/
def lastEvt (s : State) (c : Nat) : Nat := ((s.chain c).recs.getLast?.map Rec.evt).getD 0

/-- A GAP record in a custody's chain (R188, R191). -/
def writeGap (c reason sub : Nat) (fromPos toPos : Pos) (arg0 arg1 : Nat) (s : State) : State :=
  write c (.gap reason sub fromPos toPos (lastEvt s c) s.felt.mono arg0 arg1) s

/-- GAP records in several custodies. -/
def writeGaps (reason sub : Nat) (fromPos toPos : Nat → Pos) : List Nat → State → State
  | [], s => s
  | c :: cs, s => writeGaps reason sub fromPos toPos cs (writeGap c reason sub (fromPos c) (toPos c) 0 0 s)

/-- Custodies with a valid descriptor, ascending. -/
def validCusts (s : State) : List Nat := (List.range 64).filter (fun c => (s.cust c).mDesc.valid)

/-- A custody whose valid descriptor binds camera source (port, VC). -/
def bindsCamera (d : Desc) (port vc : Nat) : Bool := d.valid && !d.door && decide (d.src = port * 16 + vc)

/-! ## Merkle root -/

/-- Leaf `n`: SHA-256 of the byte `n` and custody `n`'s head, zeros for an empty chain (R196). -/
def merkleLeaf (s : State) (n : Nat) : Bytes :=
  fit 32 (Config.sha256 (BitVec.ofNat 8 n :: (if (s.chain n).seq = 0 then zeros 32 else (s.chain n).head)))

/-- The parents of a level: SHA-256 of 0x01, left, right (R196). -/
def merkleUp : List Bytes → List Bytes
  | l :: r :: t => fit 32 (Config.sha256 (0x01#8 :: (l ++ r))) :: merkleUp t
  | _ => []

/-- Six levels above the 64 leaves (R196). -/
def merkleRoot (s : State) : Bytes :=
  (merkleUp (merkleUp (merkleUp (merkleUp (merkleUp (merkleUp ((List.range 64).map (merkleLeaf s)))))))).headD []

/-- LIVE: bit `n` is 1 when custody `n`'s chain holds a record (table *ANCHOR body*). -/
def liveMask (s : State) : Nat :=
  (List.range 64).foldl (fun m n => if (s.chain n).seq = 0 then m else m + 2 ^ n) 0

end Sys2Proof.Machine
end

