-- ==== Sys2Proof/Machine/Muslin.lean ====
section
/-!
DEFINITION. Muslin (R113–R175): custody descriptors and their switches, admission, byte acceptance into stripes and tiles,
stripe close, camera packets, host doors and their completions.
-/

namespace Sys2Proof.Machine

/-- The current Canvas position (R122). -/
def State.pos (s : State) : Pos := s.canvas.pos

/-- A stripe of custody `c` seen through `f`. -/
def setPort (p : Nat) (f : Port → Port) (s : State) : State := s.onMuslin (fun m => { m with ports := upd m.ports p f })
/-- A door changed. -/
def setDoor (d : Nat) (f : Door → Door) (s : State) : State := s.onMuslin (fun m => { m with doors := upd m.doors d f })
/-- Door `d`. -/
def State.door (s : State) (d : Nat) : Door := nth s.muslin.doors d
/-- Port `p`. -/
def State.port (s : State) (p : Nat) : Port := nth s.muslin.ports p

/-! ## Custody descriptors -/

/-- The fields of a descriptor's 64 bytes (table *Custody descriptor, 64 bytes*). Namespaces are 0–15 (R453), so bits 3:0
of NS name one (notes/assumptions/24.md). -/
def parseDesc (b : Bytes) : Desc :=
  let ctl := BitVec.ofNat 32 (ofLe (slice b 1 1))
  { gen := ofLe (slice b 0 1), valid := bit ctl 0, door := bit ctl 1, feclose := bit ctl 2, prioOk := bit ctl 3,
    dtAny := bit ctl 4, src := ofLe (slice b 2 1) % 64, dt := ofLe (slice b 3 1) % 64,
    stripeKib := ofLe (slice b 4 2), prio := ofLe (slice b 6 1) % 4, ns := ofLe (slice b 7 1) % 16,
    ledgerKey := ofLe (slice b 8 2), escrow := ofLe (slice b 10 2), raw := b.take 60 }

/-- Address of custody `n`'s descriptor entry (R33). -/
def descAddr (n : Nat) : Nat := 0x20000000 + 0x40 * n

/-- A fetched descriptor is used only when CHECK matches and STRIPE_KIB is 16–256, a multiple of 16 (R162). -/
def descOk (b : Bytes) : Bool :=
  let kib := ofLe (slice b 4 2)
  decide (crc32c (b.take 60) = wordOf (slice b 0x3C 4) ∧ 16 ≤ kib ∧ kib ≤ 256 ∧ kib % 16 = 0)

/-- A fetch of entry `n`: its copy, or none with CRCERR, STK_DESCCRC and DESCERR (R162). -/
def fetchDesc (n : Nat) (s : State) : Option Desc × State :=
  let b := s.load (descAddr n) 64
  if descOk b then (some (parseDesc b), s)
  else (none, setSticky 66 32 n ((setCust n (fun c => { c with crcErr := true }) s).raise rMUSLIN_INTSTAT 5))

/-- Two valid descriptors that name one source (R119). -/
def sameSource (a b : Desc) : Bool := a.valid && b.valid && a.door == b.door && a.src == b.src

/-- Custody `n`'s binding is inactive: a lower-numbered custody holds its source (R119). -/
def isDup (s : State) (n : Nat) : Bool := (List.range n).any (fun m => sameSource (s.cust m).mDesc (s.cust n).mDesc)

/-- DUP of every custody after a change of Muslin's copies; a new one sets STK_BINDDUP and DUPBIND (R119). -/
def rebindFrom : List Nat → State → State
  | [], s => s
  | n :: ns, s =>
    let d := isDup s n
    let s := if d && !(s.cust n).dup then setSticky 65 32 n (s.raise rMUSLIN_INTSTAT 6) else s
    rebindFrom ns (setCust n (fun c => { c with dup := d }) s)

/-- Every custody's DUP brought up to date. -/
def rebind (s : State) : State := rebindFrom (List.range 64) s

/-- The custody that holds a camera source's binding (R34, R117, R119). -/
def cameraCust (s : State) (port vc : Nat) : Option Nat :=
  (List.range 64).find? (fun n => bindsCamera (s.cust n).mDesc port vc)

/-- The custody that a door feeds (R34, R119). -/
def doorCust (s : State) (d : Nat) : Option Nat :=
  (List.range 64).find? (fun n => let x := (s.cust n).mDesc; x.valid && x.door && decide (x.src = d))

/-- MGEN, LGEN and TGEN are not all equal (R171). -/
def Custody.skewed (c : Custody) : Bool := !(c.mDesc.gen == c.lDesc.gen && c.lDesc.gen == c.tDesc.gen)

/-- The DESC record of a switch or a convergence (R167, R171). An empty chain opens with CREATE when the descriptor becomes
valid (R178), and stays empty while it is not (R35). Records up to DESC are sealed under the copy before it. -/
def writeDesc (c cause : Nat) (old d : Desc) (s : State) : State :=
  let h := if old.valid then old.ledgerKey else d.ledgerKey
  if (s.chain c).seq = 0 then (if d.valid then append c h 0 (.desc 0 d.raw) s else s)
  else append c h 0 (.desc cause d.raw) s

/-- All three engines adopt a copy (R167). -/
def adopt (c : Nat) (d : Desc) (s : State) : State :=
  rebind (setCust c (fun x => { x with mDesc := d, lDesc := d, tDesc := d, held := none, frameSeen := false }) s)

/-- A switch with no stripe open: at once, with its DESC record (R165–R168). -/
def switchNow (c : Nat) (s : State) : State :=
  match (s.cust c).held with
  | none => s
  | some d => let old := (s.cust c).lDesc; writeDesc c 1 old d (adopt c d s)

/-- GENs after a natural refetch outside a stripe close: a new skew raises SKEW, a convergence without INVAL writes DESC
(R171). -/
def gensAfter (c : Nat) (was : Bool) (old : Desc) (s : State) : State :=
  let x := s.cust c
  if x.skewed then (if was then s else s.raise rMUSLIN_INTSTAT 7)
  else if was && x.held.isNone then writeDesc c 2 old x.lDesc s else s

/-- Muslin's natural refetch at a frame start (R169). -/
def refetchMuslin (c : Nat) (s : State) : State :=
  let was := (s.cust c).skewed
  match fetchDesc c s with
  | (some d, s) => gensAfter c was (s.cust c).lDesc (rebind (setCust c (fun x => { x with mDesc := d }) s))
  | (none, s) => s

/-- Twill's natural refetch at a segment open of the custody's namespace (R169). -/
def refetchTwill (c : Nat) (s : State) : State :=
  let was := (s.cust c).skewed
  match fetchDesc c s with
  | (some d, s) => gensAfter c was (s.cust c).lDesc (setCust c (fun x => { x with tDesc := d }) s)
  | (none, s) => s

/-- INVAL (R164–R168, R523): entry `n` fetched once and held; with APPLYAT 0 and no stripe open it is adopted at once. -/
def inval (n : Nat) (applyAt : Bool) (s : State) : State :=
  if s.dying then s
  else
    match fetchDesc n s with
    | (none, s) => s
    | (some d, s) =>
      let s := setCust n (fun x => { x with held := some d, applyAt := applyAt, frameSeen := false }) s
      if applyAt = false ∧ (s.cust n).openStripe = none then switchNow n s else s

/-! ## Occupancy and admission -/

/-- Tiles not free (R154, R435). -/
def tilesUsed (s : State) : Nat := (s.jrn.tiles.filter (· ≠ .free)).length

/-- JOCC.OCC: journal bytes not released plus unused reservations, in 4 KiB units (R154, R432). -/
def occ (s : State) : Nat :=
  tilesUsed s + (s.muslin.cust.map (fun c => match c.openStripe with | some o => o.reserve | none => 0)).sum

/-- Stripe SRAM granules of 16 KiB: 0x2000_1000–0x20FF_FFFF holds 1,023 (R149). -/
def granules : Nat := 1023

/-- Granules in use: the full size of each open stripe, the bytes of each closed one that Twill has not encrypted
(R149, R155). -/
def granulesUsed (s : State) : Nat :=
  (s.muslin.cust.map (fun c =>
    (match c.openStripe with | some o => o.size / 16384 | none => 0)
      + (c.sealing.map (fun x => (x.stripe.data.length + 16383) / 16384)).sum)).sum
  + ((s.jrn.stripes.filter (fun j => !j.encrypted)).map (fun j => (j.data.length + 16383) / 16384)).sum

/-- Class limit in tiles: LIM0–LIM2 in 64 KiB units, 7 MiB for class 3 (R156). -/
def classLimit (s : State) (c : Nat) : Nat :=
  if c = 0 then s.fld rMUSLIN_PRESS 7 0 * 16
  else if c = 1 then s.fld rMUSLIN_PRESS 15 8 * 16
  else if c = 2 then s.fld rMUSLIN_PRESS 23 16 * 16
  else 1792

/-- A refusing class is released once OCC has fallen to its limit less HYST (R159). -/
def relaxOne (c : Nat) (s : State) : State :=
  if occ s + s.fld rMUSLIN_PRESS 31 24 * 16 ≤ classLimit s c then
    s.onMuslin (fun m => { m with refusing := upd m.refusing c (fun _ => false) })
  else s

/-- Every class looked at after OCC has fallen (R159). -/
def relax (s : State) : State := relaxOne 3 (relaxOne 2 (relaxOne 1 (relaxOne 0 s)))

/-- JOCC.PEAK follows OCC. -/
def notePeak (s : State) : State :=
  let o := occ s
  s.onMuslin (fun m => { m with peak := max m.peak o })

/-- The stripe's class: 3 for a door descriptor with PRIO under PRIOOK, else the custody's (R161). -/
def stripeClass (d : Desc) (prio : Bool) : Nat := if prio && d.door && d.prioOk then 3 else d.prio

/-- Room for the stripe: its class limit, stripe SRAM, and no standing refusal of the class (R156, R159). -/
def hasRoom (s : State) (d : Desc) (cls : Nat) : Bool :=
  !(nth s.muslin.refusing cls) && decide (occ s + d.stripeKib / 4 ≤ classLimit s cls)
    && decide (granulesUsed s + d.stripeKib / 16 ≤ granules)

/-- A stripe opens, or is refused (R145, R155–R160, R434, R441, R497). -/
def openStripe (c : Nat) (prio : Bool) (s : State) : State :=
  let s := relax s
  let d := (s.cust c).mDesc
  let cls := stripeClass d prio
  let room := hasRoom s d cls
  if room && !s.jrn.logStopped && !(nth s.jrn.ns ((s.cust c).tDesc.ns)).full then
    let o : OpenStripe := { jsn := s.jrn.jsn, size := d.stripeKib * 1024, reserve := d.stripeKib / 4,
                            keyver := nth s.linen.keyver c, losses := (s.cust c).nextLosses }
    let s := s.onJrn (fun j => { j with jsn := j.jsn + 1 })
    notePeak (setCust c (fun x => { x with openStripe := some o, nextLosses := {} }) s)
  else
    let s := if room then s else s.onMuslin (fun m => { m with refusing := upd m.refusing cls (fun _ => true) })
    let s := s.raise rMUSLIN_INTSTAT 4
    setCust c (fun x => { x with dropped := some { prio := cls, size := d.stripeKib * 1024 } }) s

/-! ## Tags -/

/-- A door descriptor of a door's list changed. -/
def setDoorDesc (d i : Nat) (f : DoorDesc → DoorDesc) (s : State) : State :=
  setDoor d (fun x => { x with descs := x.descs.map (fun e => if e.index = i then f e else e) }) s

/-- A supplied position tags a line when it is not earlier than the custody's previous tag, not later than the current
position, and at most POSAGE frames older (R135). -/
def hostPosOk (s : State) (c : Nat) (p : Pos) : Bool :=
  decide ((s.cust c).lastTag.key ≤ p.key ∧ p.key ≤ s.pos.key ∧
    s.pos.epoch * 2 ^ 32 + s.pos.frame ≤ p.epoch * 2 ^ 32 + p.frame + s.fld rMUSLIN_DOORCFG 7 0)

/-- The tag of a line or part that ends now, and whether it is host-supplied (R122, R135). -/
def tagNow (s : State) (c : Nat) (r : Option DescRef) : Pos × Bool × Bool :=
  match r with
  | none => (s.pos, false, false)
  | some r =>
    match (s.door r.door).descs.find? (fun e => e.index == r.index) with
    | some e =>
      match e.hostPos with
      | some p => if hostPosOk s c p then (p, true, false) else (s.pos, false, true)
      | none => (s.pos, false, false)
    | none => (s.pos, false, false)

/-- A line, or the part of a line or descriptor that falls in one stripe, ends: it is tagged and counted
(R122, R123, R135, R174; notes/assumptions/25.md). -/
def tagPart (c : Nat) (r : Option DescRef) (s : State) : State :=
  let (p, host, rej) := tagNow s c r
  let s := match r with
    | some r => if rej then setDoorDesc r.door r.index (fun e => { e with posRej := true }) s else s
    | none => s
  match (s.cust c).openStripe with
  | some o =>
    if o.untagged then
      let o := { o with first := some (o.first.getD p), last := p, untagged := false, hostpos := o.hostpos || host }
      let s := setCust c (fun x => { x with openStripe := some o, lastTag := p }) s
      s.wr (rMUSLIN_LINECNT c) (s.rd (rMUSLIN_LINECNT c) + 1)
    else s
  | none =>
    match (s.cust c).dropped with
    | some o =>
      if o.untagged then
        setCust c (fun x => { x with dropped := some { o with first := some (o.first.getD p), last := p, untagged := false } }) s
      else s
    | none => s

/-! ## Losses -/

/-- A loss added to a coalesced DROP (R128). -/
def addLoss (p : Pos) (packets bytes : Nat) (a : Option DropAcc) : Option DropAcc :=
  match a with
  | none => some { packets := packets, bytes := bytes, first := p, last := p }
  | some a => some { a with packets := a.packets + packets, bytes := a.bytes + bytes, last := p }

/-- Losses charged to the stripe that is open, or to the custody's next one (R128). -/
def onLosses (c : Nat) (f : Losses → Losses) (s : State) : State :=
  setCust c (fun x => match x.openStripe with
    | some o => { x with openStripe := some { o with losses := f o.losses } }
    | none => { x with nextLosses := f x.nextLosses }) s

/-- A DROP OVERRUN loss. -/
def chargeOverrun (c bytes : Nat) (s : State) : State :=
  let p := s.pos
  onLosses c (fun l => { l with overrun := addLoss p 1 bytes l.overrun }) s

/-- A DROP HEADER loss in each custody with an active binding on the port (R127). -/
def chargeHeader (packets bytes : Nat) : List Nat → State → State
  | [], s => s
  | c :: cs, s =>
    let p := s.pos
    chargeHeader packets bytes cs (onLosses c (fun l => { l with header := addLoss p packets bytes l.header }) s)

/-- Custodies with an active binding on a camera port. -/
def portCusts (s : State) (port : Nat) : List Nat :=
  (List.range 64).filter (fun n =>
    let x := s.cust n
    x.mDesc.valid && !x.mDesc.door && decide (x.mDesc.src / 16 = port) && !isDup s n)

/-! ## Completions -/

/-- Ring size of a door (R129). -/
def ringSize (s : State) (d : Nat) : Nat := 2 ^ s.fld (rMUSLIN_DOOR_CFG d) 3 0

/-- A write to host memory by a master: it passes checker 11 and needs the link and bus mastering. -/
def hostWrite (master : Nat) (tag : Option Nat) (a : Nat) (bs : Bytes) (s : State) : State :=
  if s.masters then
    match transact 11 { master := master, tag := tag, kind := .write, addr := a } s with
    | (some _, s) => s.hostStore a bs
    | (none, s) => s
  else s

/-- STATUS of a completion (table *Completion entry*): INVALID, FETCH_ERR, DROPPED, DURABLE (R133, R139–R141). A
descriptor with a failed read and a dropped stripe reads FETCH_ERR (notes/assumptions/26.md). -/
def DoorDesc.status (e : DoorDesc) : Nat :=
  if e.invalid then 3 else if e.fetchErr then 4 else if e.droppedBytes then 2 else 1

/-- A descriptor that can complete: invalid, or ended, with every stripe sealed and its DROP record written (R138–R141). -/
def DoorDesc.ready (e : DoorDesc) : Bool :=
  e.invalid || (e.ended && decide (e.unsealed = 0) && (!(e.fetchErr || e.droppedBytes) || e.dropSeq.isSome))

/-- SEQ of a completion (R138). -/
def DoorDesc.seqOf (e : DoorDesc) : Nat :=
  if e.invalid then 0 else if e.fetchErr || e.droppedBytes then e.dropSeq.getD 0 else e.seq.getD 0

/-- The 16 bytes of a completion entry (table *Completion entry, 16 bytes*). -/
def DoorDesc.entry (e : DoorDesc) (cust : Nat) (phase : Bool) : Bytes :=
  le 6 e.seqOf ++ le 1 e.status ++ le 1 (phase.toNat + 2 * e.posRej.toNat) ++ le 2 e.tag ++ le 1 cust ++ zeros 1
    ++ le 2 e.index ++ zeros 2

/-- Completions written in descriptor order while the head descriptor is ready (R137); none after PFAIL_N falls (R142). The
door's MSI-X vector is raised. -/
def completeDoor (d : Nat) : Nat → State → State
  | 0, s => s
  | n + 1, s =>
    let x := s.door d
    match x.descs with
    | [] => s
    | e :: rest =>
      if e.ready && !s.dying then
        let base := s.rd64 (rMUSLIN_DOOR_CPLLO d) (rMUSLIN_DOOR_CPLHI d)
        let c := (doorCust s d).getD 0
        let s := hostWrite 0x08 (some c) (base + 16 * e.index) (e.entry c x.phase) s
        let next := (e.index + 1) % ringSize s d
        let s := setDoor d (fun x => { x with descs := rest, cplidx := next,
                                              phase := if next = 0 then !x.phase else x.phase }) s
        completeDoor d n (msix (nth s.pcie.vsel d) s)
      else s

/-- Every completion that is due on door `d`. -/
def completions (d : Nat) (s : State) : State := completeDoor d (s.door d).descs.length s

/-- The completions of several doors. -/
def completionsOf : List Nat → State → State
  | [], s => s
  | d :: ds, s => completionsOf ds (completions d s)

/-! ## Stripe close -/

/-- Descriptors with bytes in a dropped stripe get its DROP record's SEQ, the first one charged to each (R138, R141). -/
def markDropped (seq : Nat) : List DescRef → State → State
  | [], s => s
  | r :: rs, s => markDropped seq rs
      (setDoorDesc r.door r.index (fun e => { e with droppedBytes := true, dropSeq := some (e.dropSeq.getD seq) }) s)

/-- The doors that a list of descriptors names. -/
def refDoors (l : List DescRef) : List Nat := (l.map DescRef.door).eraseDups

/-- The close of a dropped stripe: a DROP record of reason PRESSURE that stands alone (R160, R193). -/
def closeDropped (c : Nat) (o : DroppedStripe) (s : State) : State :=
  let seq := (s.chain c).seq
  let s := write c (.drop 1 o.prio 0 (o.first.getD {}) o.last o.len 0) s
  let s := setCust c (fun x => { x with dropped := none }) s
  completionsOf (refDoors o.parts) (markDropped seq o.parts s)

/-- The switch that a stripe close makes: the held copy under APPLYAT, adopted by all engines; otherwise Linen's natural
refetch, whose convergence writes DESC (R165–R171). In the last breath neither happens (R513). -/
def closeSwitch (c : Nat) (s : State) : Option (Desc × Nat) × State :=
  let x := s.cust c
  if s.dying then (none, s)
  else
    match x.held with
    | some d =>
      if !x.applyAt || x.frameSeen then (some (d, 1), adopt c d s)
      else
        match fetchDesc c s with
        | (some e, s) => (none, setCust c (fun x => { x with lDesc := e }) s)
        | (none, s) => (none, s)
    | none =>
      match fetchDesc c s with
      | (some e, s) =>
        let s := setCust c (fun x => { x with lDesc := e }) s
        if x.skewed && !(s.cust c).skewed then (some (e, 2), s)
        else ((none : Option (Desc × Nat)), if !x.skewed && (s.cust c).skewed then s.raise rMUSLIN_INTSTAT 7 else s)
      | (none, s) => (none, s)

/-- KEYWRAP records that wait for a custody's close leave the waiting list; each of KIND 1 makes its KEYVER the one of the
next stripe (R190, R211). -/
def takeKeywraps (c : Nat) (s : State) : List Body × State :=
  let k := nth s.linen.kwPending c
  let ver := k.foldl (fun v b => match b with | .keywrap 1 _ _ g _ _ _ _ => g | _ => v) (nth s.linen.keyver c)
  (k, s.onLinen (fun l => { l with kwPending := upd l.kwPending c (fun _ => []), keyver := upd l.keyver c (fun _ => ver) }))

/-- A stripe closes once, with one cause (R38, R39): its unused reservation returns (R155), the seal starts. -/
def closeStripe (c : Nat) (cause : Cause) (r : Option DescRef) (s : State) : State :=
  let s := tagPart c r s
  match (s.cust c).openStripe with
  | some o =>
    let x := s.cust c
    let skew := if x.skewed then some (x.mDesc.gen, x.lDesc.gen, x.tDesc.gen) else none
    let s := setCust c (fun x => { x with openStripe := none }) s
    let (kw, s) := takeKeywraps c s
    let (sw, s) := closeSwitch c s
    let z : ClosedStripe := { stripe := o, cause := cause, desc := x.lDesc, ns := x.tDesc.ns, skew := skew, switch := sw,
                              keywraps := kw }
    relax (setCust c (fun x => { x with sealing := x.sealing ++ [z] }) s)
  | none =>
    match (s.cust c).dropped with
    | some o => closeDropped c o s
    | none => s

/-- SEAL of one custody, or of every bound custody in ascending order for 0x7F (table *Slot actions*). A line in progress
is split where the close falls (notes/assumptions/25.md). -/
def closeAll (cause : Cause) : List Nat → State → State
  | [], s => s
  | c :: cs, s => closeAll cause cs (closeStripe c cause none s)

/-- The targets of a SEAL action. -/
def sealTargets (t : Nat) : List Nat := if t = 0x7F then List.range 64 else if t < 64 then [t] else []

/-! ## Records of a close -/

/-- DROP records of reason HEADER or OVERRUN, FETCH (R128, R140, R190). -/
def lossBodies (prio : Nat) (l : Losses) : List Body :=
  (match l.header with | some a => [.drop 2 prio a.packets a.first a.last a.bytes 0] | none => [])
    ++ (match l.overrun with | some a => [.drop 3 prio a.packets a.first a.last a.bytes 0] | none => [])

/-- The DROP record of a failed door read, and its SEQ for the descriptor's completion (R138, R140). -/
def writeFetch (c h : Nat) (prio : Nat) : List DropFetch → State → State
  | [], s => s
  | f :: fs, s =>
    let seq := (s.chain c).seq
    let s := append c h 0 (.drop 4 prio 0 f.pos f.pos f.bytes f.tag) s
    writeFetch c h prio fs
      (setDoorDesc f.door f.index (fun e => { e with dropSeq := some (e.dropSeq.getD seq) }) s)

/-- Records of one list written in order under one key. -/
def writeAll (c h : Nat) : List Body → State → State
  | [], s => s
  | b :: bs, s => writeAll c h bs (append c h 0 b s)

/-- The record of a key wrap counts: KCVs of KIND 1 (R270), escrow count of KIND 2. -/
def noteKeywrap (c : Nat) (b : Body) (s : State) : State :=
  match b with
  | .keywrap kind _ _ gen _ _ _ kcv =>
    if kind = 1 then s.onLinen (fun l => { l with kcv := upd l.kcv c (fun k => ((gen, kcv) :: k).take 2) })
    else s.onLinen (fun l => { l with escrows := upd l.escrows c (fun _ => gen) })
  | _ => s

/-- KEYWRAP records written (R190, R214). -/
def writeKeywraps (c h : Nat) : List Body → State → State
  | [], s => s
  | b :: bs, s => writeKeywraps c h bs (noteKeywrap c b (append c h 0 b s))

/-- Bytes of unit `i` of a stripe (R430). -/
def unitBytes (data : Bytes) (i : Nat) : Bytes := slice data (4096 * i) 4096

/-- The 32 bytes of a tile-table entry (table *Tile-table entry, 32 bytes*). -/
def tileEntry (cust ns unit keyver jsn offset : Nat) (data : Bytes) : Bytes :=
  let b := le 1 0x5A ++ le 1 cust ++ le 1 ns ++ le 1 unit ++ le 2 data.length ++ le 2 keyver ++ le 8 jsn ++ le 6 offset
    ++ zeros 2 ++ le 4 (crc32c data).toNat
  b ++ le 4 (crc32c b).toNat

/-- The tile-table entries of a stripe, each written once (R433). -/
def writeTiles (cust ns keyver jsn offset : Nat) (data : Bytes) : Nat → List Nat → State → State
  | _, [], s => s
  | i, k :: ks, s =>
    let s := s.store (0x30700000 + 32 * k) (tileEntry cust ns i keyver jsn offset (unitBytes data i))
    let s := s.onJrn (fun j => { j with tiles := upd j.tiles k (fun _ => .sealed) })
    writeTiles cust ns keyver jsn offset data (i + 1) ks s

/-- A namespace changed. -/
def setNs (n : Nat) (f : Namespace → Namespace) (s : State) : State := s.onJrn (fun j => { j with ns := upd j.ns n f })

/-- Descriptors whose stripe is now sealed: one fewer unsealed; the stripe that holds the last byte gives SEQ
(R138, R139). -/
def sealParts (seq : Nat) (ends : List DescRef) : List DescRef → State → State
  | [], s => s
  | r :: rs, s =>
    let last := ends.contains r
    sealParts seq ends rs (setDoorDesc r.door r.index
      (fun e => { e with unsealed := e.unsealed - 1, seq := if last then some seq else e.seq }) s)

/-- The records of one closed stripe in the order of R190, the stripe's OFFSET and tiles (R433, R456), its place in the
journal (R471), and the completions that it makes due (R137). -/
def sealStripe (c : Nat) (z : ClosedStripe) (s : State) : State :=
  let o := z.stripe
  let h := z.desc.ledgerKey
  let s := writeAll c h (lossBodies z.desc.prio o.losses) s
  let s := writeFetch c h z.desc.prio o.losses.fetch s
  let s := match z.skew with | some (m, l, t) => append c h 0 (.descSkew m l t) s | none => s
  let wp := (nth s.jrn.ns z.ns).wp
  let offset := wp * 4096 % 2 ^ 48
  let len := o.data.length
  let units := (len + 4095) / 4096
  let s := writeTiles c z.ns o.keyver o.jsn offset o.data 0 o.tiles s
  let seq := (s.chain c).seq
  let body : Body := .stripe (o.first.getD {}) o.last offset z.ns z.desc.gen len z.cause.code
    (o.errmark.toNat + 2 * o.hostpos.toNat) o.keyver (fit 32 (Config.sha256 o.data))
  let s := append c h o.jsn body s
  let js : JStripe := { jsn := o.jsn, cust := c, ns := z.ns, keyver := o.keyver, unit := wp, data := o.data, tiles := o.tiles,
                        seq := seq, unplaced := List.range units, unmapped := List.range units }
  let s := s.onJrn (fun j => { j with stripes := j.stripes ++ [js] })
  let s := setNs z.ns (fun n => { n with wp := n.wp + units, toPlace := n.toPlace ++ [o.jsn] }) s
  let s := match z.switch with | some (d, cause) => writeDesc c cause z.desc d s | none => s
  let h' := match z.switch with | some (d, _) => d.ledgerKey | none => h
  let s := writeKeywraps c h' z.keywraps s
  let s := sealParts seq o.ends o.parts s
  completionsOf (refDoors (o.parts ++ o.losses.fetch.map (fun f => { door := f.door, index := f.index }))) s

/-! ## Byte acceptance -/

/-- The next free tile in ring order from NEXT (R431). -/
def nextTile (s : State) : Option Nat :=
  ((List.range 1792).map (fun i => (s.jrn.next + i) % 1792)).find? (fun k => decide (nth s.jrn.tiles k = .free))

/-- Muslin takes a tile: NEXT moves behind it, and a turn of the ring counts in JWEAR (R431, R446). -/
def takeTile (s : State) : Option Nat × State :=
  match nextTile s with
  | none => (none, s)
  | some k =>
    (some k, s.onJrn (fun j => { j with tiles := upd j.tiles k (fun _ => .taken), next := (k + 1) % 1792,
                                        wear := if k < j.next ∨ k + 1 = 1792 then j.wear + 1 else j.wear }))

/-- A list of descriptors with one added at its end, once. -/
def addRef (r : Option DescRef) (l : List DescRef) : List DescRef :=
  match r with | some r => if l.contains r then l else l ++ [r] | none => l

/-- A byte into the custody's open stripe: into stripe SRAM and the journal's data ring (R120, R121, R430, R431). The
descriptor's part in a new stripe counts as unsealed (R139). -/
def intoStripe (c : Nat) (o : OpenStripe) (b : Byte) (err : Bool) (r : Option DescRef) (s : State) : State :=
  let n := o.data.length
  let (o, s) :=
    if n % 4096 = 0 then
      match takeTile s with
      | (some k, s) => ({ o with tiles := o.tiles ++ [k], reserve := o.reserve - 1 }, s)
      | (none, s) => (o, s)
    else (o, s)
  let s := s.setByte (0x30000000 + 0x1000 * (o.tiles.getLast?.getD 0) + n % 4096) b
  let s := match r with
    | some d => if o.parts.contains d then s else setDoorDesc d.door d.index (fun e => { e with unsealed := e.unsealed + 1 }) s
    | none => s
  let o := { o with data := o.data ++ [b], untagged := true, errmark := o.errmark || err, parts := addRef r o.parts }
  setCust c (fun x => { x with openStripe := some o }) s

/-- A byte accepted or, in a dropped stripe, discarded (R145, R158). -/
def acceptByte (c : Nat) (b : Byte) (err prio : Bool) (r : Option DescRef) (s : State) : State :=
  let s := if (s.cust c).openStripe = none ∧ (s.cust c).dropped = none then openStripe c prio s else s
  match (s.cust c).openStripe with
  | some o => intoStripe c o b err r s
  | none =>
    match (s.cust c).dropped with
    | some o =>
      setCust c (fun x => { x with dropped := some { o with len := o.len + 1, untagged := true, parts := addRef r o.parts } }) s
    | none => s

/-- The current stripe, open or dropped, has reached its size (R146, R158). -/
def stripeFull (s : State) (c : Nat) : Bool :=
  match (s.cust c).openStripe with
  | some o => decide (o.size ≤ o.data.length)
  | none => match (s.cust c).dropped with | some o => decide (o.size ≤ o.len) | none => false

/-! ## Frames -/

/-- A custody's frame starts (R124): Muslin's natural refetch (R169), and with APPLYAT 1 the switch when no stripe is open
(R166). -/
def frameStart (c : Nat) (s : State) : State :=
  let s := setCust c (fun x => { x with frameOpen := true }) s
  let s := refetchMuslin c s
  if (s.cust c).held.isSome && (s.cust c).applyAt then
    let s := setCust c (fun x => { x with frameSeen := true }) s
    if (s.cust c).openStripe = none then switchNow c s else s
  else s

/-- A custody's frame ends: with FECLOSE its stripe closes (R124, R147). -/
def frameEnd (c : Nat) (r : Option DescRef) (s : State) : State :=
  let s := setCust c (fun x => { x with frameOpen := false }) s
  if (s.cust c).mDesc.feclose then closeStripe c .frameEnd r s else s

/-- MISS of a port: FEMISS in the high halfword, FSMISS in the low one; the port's event flags (R125). -/
def portMiss (p : Nat) (fe : Bool) (s : State) : State :=
  let s := if fe then s.incFld (rMUSLIN_PCNT_MISS p) 31 16 else s.incFld (rMUSLIN_PCNT_MISS p) 15 0
  (s.raise (rMUSLIN_PORTERR p) (if fe then 4 else 5)).raise rMUSLIN_INTSTAT p

/-- An FS packet of a port's virtual channel takes effect (R124, R125). -/
def fsNow (p vc : Nat) (s : State) : State :=
  match cameraCust s p vc with
  | none => s
  | some c =>
    let s := if (s.cust c).frameOpen then frameEnd c none (portMiss p true s) else s
    frameStart c s

/-- An FE packet takes effect (R124, R125). -/
def feNow (p vc : Nat) (s : State) : State :=
  match cameraCust s p vc with
  | none => s
  | some c => if (s.cust c).frameOpen then frameEnd c none s else portMiss p false s

/-- Frame packets at the head of a port take effect, behind every line that came before them. -/
def drainFrames (p : Nat) : Nat → State → State
  | 0, s => s
  | n + 1, s =>
    match (s.port p).lines with
    | .fs vc :: rest => drainFrames p n (fsNow p vc (setPort p (fun x => { x with lines := rest }) s))
    | .fe vc :: rest => drainFrames p n (feNow p vc (setPort p (fun x => { x with lines := rest }) s))
    | _ => s

/-- A frame packet arrives (R124). -/
def framePacket (p : Nat) (m : Line) (s : State) : State :=
  let s := setPort p (fun x => { x with lines := x.lines ++ [m], burst := true }) s
  drainFrames p (s.port p).lines.length s

/-! ## Camera packets -/

/-- A counter of a port, its PORTERR flag and the port's INTSTAT flag (table *Camera packet errors*). -/
def portError (p cnt bitNo : Nat) (s : State) : State :=
  ((s.addSat cnt 1).raise (rMUSLIN_PORTERR p) bitNo).raise rMUSLIN_INTSTAT p

/-- Bytes that a port's line buffer holds or has promised (R152). -/
def Port.held (x : Port) : Nat :=
  (x.lines.map (fun l => match l with | .data _ b _ => b.length | _ => 0)).sum - x.taken
    + (match x.short with | some (_, _, wc) => wc | none => 0)

/-- A long packet of word count `wc`, of which `payload` was received (R116–R118, R126–R128, R152). One that is still short
of its word count waits for more or for the burst's end. -/
def longPacket (p vc dt wc : Nat) (payload : Bytes) (h : Header) (crcOk : Bool) (s : State) : State :=
  if !s.flag rMUSLIN_CTRL p then s
  else
    let s := setPort p (fun x => { x with burst := true }) s
    if (s.port p).discard then chargeHeader 0 payload.length (portCusts s p) s
    else if h = .uncorrectable then
      let s := portError p (rMUSLIN_PCNT_HDRERR p) 1 s
      chargeHeader 1 payload.length (portCusts s p) (setPort p (fun x => { x with discard := true }) s)
    else
      let s := if h = .corrected then s.addSat (rMUSLIN_PCNT_HDRCORR p) 1 else s
      let s := s.add64 (rMUSLIN_PCNT_PKT_LO p) (rMUSLIN_PCNT_PKT_HI p) 1
      match cameraCust s p vc with
      | none => s.addSat (rMUSLIN_PCNT_UNBOUND p) 1
      | some c =>
        let d := (s.cust c).mDesc
        if !d.dtAny && decide (d.dt ≠ dt) then s.addSat (rMUSLIN_PCNT_UNBOUND p) 1
        else if 131072 < (s.port p).held + wc then
          chargeOverrun c wc (portError p (rMUSLIN_PCNT_OVERRUN p) 3 s)
        else if payload.length < wc then setPort p (fun x => { x with short := some (c, payload, wc) }) s
        else
          let s := if crcOk then s else portError p (rMUSLIN_PCNT_CRCERR p) 0 s
          if wc = 0 then s else setPort p (fun x => { x with lines := x.lines ++ [.data c payload (!crcOk)] }) s

/-- HS_BURST_END: a packet short of its word count is kept with ERRMARK and counted in TRUNC; the port's stop state lets a
pending PORTCFG take effect and ends a discard (R126, table *MUSLIN.PORTCFG[p]*). -/
def burstEnd (p : Nat) (s : State) : State :=
  let s := match (s.port p).short with
    | some (c, b, _) =>
      let s := portError p (rMUSLIN_PCNT_TRUNC p) 2 s
      setPort p (fun x => { x with short := none, lines := if b.isEmpty then x.lines else x.lines ++ [.data c b true] }) s
    | none => s
  let cfg := s.rd (rMUSLIN_PORTCFG p)
  setPort p (fun x => { x with burst := false, discard := false, cfg := cfg }) s

/-- DESKEW_SEQUENCE: with DESKEW 1 the receiver aligns its lanes, or DESKEWFAIL is set (R115). -/
def deskew (p : Nat) (aligned : Bool) (s : State) : State :=
  if !bit (s.port p).cfg 2 then s
  else if aligned then setPort p (fun x => { x with aligned := true }) s
  else (setPort p (fun x => { x with aligned := false }) s).raise (rMUSLIN_PORTERR p) 6 |>.raise rMUSLIN_INTSTAT p

/-- A byte of the head line of port `p` is accepted; at the line's last byte the line is tagged; a full stripe closes
(R120–R122, R146). -/
def acceptCamera (p : Nat) (s : State) : State :=
  match (s.port p).lines with
  | .data c bs err :: rest =>
    let i := (s.port p).taken
    let s := acceptByte c (nth bs i) err false none s
    let last := decide (bs.length ≤ i + 1)
    let s := if last then setPort p (fun x => { x with lines := rest, taken := 0 }) s
             else setPort p (fun x => { x with taken := i + 1 }) s
    let s := if last then tagPart c none s else s
    let s := if stripeFull s c then closeStripe c .size none s else s
    if last then drainFrames p (s.port p).lines.length s else s
  | _ => s

/-! ## Door data -/

/-- The GAP of a skipped host segment, at the first byte of the descriptor (R136, R188, R191). -/
def segmentCheck (d c : Nat) (e : DoorDesc) (s : State) : State :=
  if e.posmode = 2 then
    let n := e.pos % 2 ^ 48
    let s := match (s.door d).segment with
      | some m => if n = (m + 1) % 2 ^ 48 then s
                  else writeGap c gapDROP 0 (s.cust c).lastTag s.pos ((m + 1) % 2 ^ 48) n s
      | none => s
    setDoor d (fun x => { x with segment := some n }) s
  else s

/-- The first byte of a descriptor: FS starts a frame, implying the end of an open one (R124, R125); the segment check. -/
def startDesc (d c : Nat) (e : DoorDesc) (s : State) : State :=
  if e.started then s
  else
    let s := if e.fs then (let s := if (s.cust c).frameOpen then frameEnd c none s else s; frameStart c s) else s
    let s := segmentCheck d c e s
    setDoorDesc d e.index (fun x => { x with started := true, hostPos := if x.posmode = 1 then some (posOf x.pos) else none }) s

/-- The descriptor's last byte lies in the custody's current stripe (R138). -/
def noteEnd (c : Nat) (r : DescRef) (s : State) : State :=
  setCust c (fun x => match x.openStripe with
    | some o => { x with openStripe := some { o with ends := addRef (some r) o.ends } }
    | none => match x.dropped with
      | some o => { x with dropped := some { o with ends := addRef (some r) o.ends } }
      | none => x) s

/-- A descriptor's data ends: its part is tagged, SEAL_NOW, a full stripe or a frame end closes the stripe once, in the
order of R39; FE ends the frame (R38, R39, R123, R124). -/
def endDesc (d c : Nat) (e : DoorDesc) (s : State) : State :=
  let r : DescRef := { door := d, index := e.index }
  let s := tagPart c (some r) s
  let s := setDoorDesc d e.index (fun x => { x with ended := true }) (noteEnd c r s)
  let s := if e.sealNow then closeStripe c .sealNow (some r) s
           else if stripeFull s c then closeStripe c .size (some r) s else s
  let s := if e.fe then frameEnd c (some r) s else s
  completions d s

/-- A byte of door `d`'s current descriptor is accepted or discarded (R120, R121, R153, R161). -/
def acceptDoor (d c : Nat) (s : State) : State :=
  match (s.door d).descs.find? (fun e => !e.ended && !e.invalid), (s.door d).buf with
  | some e, b :: rest =>
    let s := startDesc d c e s
    let r : DescRef := { door := d, index := e.index }
    let s := acceptByte c b false e.prio (some r) s
    let s := setDoor d (fun x => { x with buf := rest }) s
    let s := setDoorDesc d e.index (fun x => { x with taken := x.taken + 1 }) s
    if e.len ≤ e.taken + 1 then endDesc d c e s
    else if stripeFull s c then closeStripe c .size (some r) s
    else s
  | _, _ => s

/-- The doors whose data waits and whose custody is bound. -/
def doorReady (s : State) (d : Nat) : Bool := !(s.door d).buf.isEmpty && (doorCust s d).isSome

/-- The door whose turn it is: the current one up to 64 KiB, else the next in order (R151). -/
def doorTurn (s : State) : Option Nat :=
  let cur := s.muslin.rrDoor
  if doorReady s cur ∧ s.muslin.rrBytes < 65536 then some cur
  else ((List.range 64).map (fun i => (cur + 1 + i) % 64)).find? (doorReady s)

/-- BYTE_ACCEPTED: camera ports come before doors (R151); among ports with data `cam` is the one whose write completes, or
else the lowest. Nothing is accepted while ingest is closed (R512). -/
def byteAccepted (cam : Nat) (s : State) : State :=
  let has (p : Nat) : Bool := match (s.port p).lines with | .data .. :: _ => true | _ => false
  if !s.power.ingest then s
  else
    match (cam :: List.range 4).find? has with
    | some p => acceptCamera p s
    | none =>
      match doorTurn s with
      | none => s
      | some d =>
        let n := if d = s.muslin.rrDoor ∧ s.muslin.rrBytes < 65536 then s.muslin.rrBytes + 1 else 1
        acceptDoor d ((doorCust s d).getD 0) (s.onMuslin (fun m => { m with rrDoor := d, rrBytes := n }))

/-! ## Door rings -/

/-- LOG2SIZE is in its range (R129). -/
def ringOk (s : State) (d : Nat) : Bool := let n := s.fld (rMUSLIN_DOOR_CFG d) 3 0; decide (4 ≤ n ∧ n ≤ 10)

/-- DOORBELL: a write of TAIL; out of range it is ignored and sets ERR (R131, R175). A door that is off keeps TAIL at 0
(R143), and from step 1 of the last breath the write is ignored (R523). -/
def doorbell (d tail : Nat) (s : State) : State :=
  if s.dying then s
  else if ringSize s d ≤ tail then (s.raise (rMUSLIN_DOOR_CFG d) 9).raise rMUSLIN_INTSTAT 8
  else if !(s.door d).en then s
  else setDoor d (fun x => { x with tail := tail }) s

/-- A stripe forgets the descriptors of a door. -/
def forgetRefs (d : Nat) (l : List DescRef) : List DescRef := l.filter (fun r => r.door ≠ d)

/-- The descriptors of a door leave a custody's stripes: their completions are never written (R143). -/
def Custody.forget (d : Nat) (x : Custody) : Custody :=
  let st (o : OpenStripe) : OpenStripe := { o with parts := forgetRefs d o.parts, ends := forgetRefs d o.ends }
  { x with openStripe := x.openStripe.map st
           dropped := x.dropped.map (fun o => { o with parts := forgetRefs d o.parts, ends := forgetRefs d o.ends })
           sealing := x.sealing.map (fun z => { z with stripe := st z.stripe }) }

/-- R143: the outstanding descriptors of a door are abandoned; HEAD and TAIL return to 0; the bytes already taken stay. -/
def abandonDoor (d : Nat) (s : State) : State :=
  let s := s.onMuslin (fun m => { m with cust := m.cust.map (Custody.forget d) })
  setDoor d (fun _ => {}) s

/-- Several doors abandoned. -/
def abandonDoors : List Nat → State → State
  | [], s => s
  | d :: ds, s => abandonDoors ds (abandonDoor d s)

/-- EN is set: the ring starts with PHASE 1, unless LOG2SIZE holds it at 0 (R129, R137). -/
def enableDoor (d : Nat) (s : State) : State :=
  if (s.door d).en || !ringOk s d then s else setDoor d (fun _ => { en := true, phase := true }) s

/-- A write of DOOR[n].CFG: ERR by W1C; LOG2SIZE only while EN is 0 (R130); EN (R129, R143, R523). -/
def writeDoorCfg (d : Nat) (v : Word) (s : State) : State :=
  if s.dying then s
  else
    let a := rMUSLIN_DOOR_CFG d
    let s := if bit v 9 then s.setFlag a 9 false else s
    let s := if (s.door d).en then s else s.setFld a 3 0 (bits v 3 0)
    if bit v 8 then enableDoor d s else if (s.door d).en then abandonDoor d s else s

/-- PREFETCH as it acts: 0 acts as 1, at most 8 (R132, table *MUSLIN general registers*). -/
def prefetch (s : State) : Nat := let n := s.fld rMUSLIN_DOORCFG 11 8; if n = 0 then 1 else min n 8

/-- A descriptor read is outstanding: the function may read (R692), the ring is not empty, and fewer than PREFETCH
descriptors wait behind the one whose data is taken (R131, R132). -/
def fetchDue (s : State) (d : Nat) : Bool :=
  let x := s.door d
  s.masters && x.en && decide (x.head ≠ x.tail) &&
    decide ((x.descs.filter (fun e => !e.ended && !e.invalid)).length ≤ prefetch s)

/-- A frame will be open once the descriptors already fetched are taken (R133; notes/assumptions/27.md). -/
def frameExpected (s : State) (d : Nat) : Bool :=
  ((s.door d).descs.filter (fun e => !e.ended && !e.invalid)).foldl
    (fun o e => if e.fe then false else if e.fs then true else o)
    (match doorCust s d with | some c => (s.cust c).frameOpen | none => false)

/-- The checks of R133 on a descriptor's 32 bytes. -/
def descInvalid (s : State) (d : Nat) (b : Bytes) : Bool :=
  let len := ofLe (slice b 8 4)
  let fl := ofLe (slice b 0x0C 2)
  let mode := fl / 16 % 4
  decide (len = 0 ∨ 4194304 < len ∨ 64 ≤ fl ∨ ofLe (slice b 0x18 8) ≠ 0 ∨ mode = 3)
    || (decide (mode = 1 ∧ fl % 4 = 0) && !frameExpected s d)

/-- The door's descriptor with index `i` (table *Door descriptor, 32 bytes*). -/
def parseDoorDesc (i : Nat) (bad : Bool) (b : Bytes) : DoorDesc :=
  let fl := BitVec.ofNat 32 (ofLe (slice b 0x0C 2))
  { index := i, addr := ofLe (slice b 0 8), len := ofLe (slice b 8 4), fs := bit fl 0, fe := bit fl 1, sealNow := bit fl 2,
    prio := bit fl 3, posmode := bits fl 5 4, tag := ofLe (slice b 0x0E 2), pos := ofLe (slice b 0x10 8), invalid := bad,
    ended := bad }

/-- The address of the ring entry that HEAD names. -/
def headAddr (s : State) (d : Nat) : Nat := s.rd64 (rMUSLIN_DOOR_RINGLO d) (rMUSLIN_DOOR_RINGHI d) + 32 * (s.door d).head

/-- A door's read of host memory passes checker 11 (R910) and needs the link. -/
def doorRead (d a : Nat) (s : State) : Bool × State :=
  if s.masters then
    match transact 11 { master := 0x08, tag := doorCust s d, kind := .read, addr := a } s with
    | (some _, s) => (true, s)
    | (none, s) => (false, s)
  else (false, s)

/-- A failed descriptor read: ERR, EN cleared, R143 (R693, R910). -/
def doorFetchError (d : Nat) (s : State) : State :=
  abandonDoor d (((s.raise (rMUSLIN_DOOR_CFG d) 9).raise rMUSLIN_INTSTAT 8).raise rPCIE_INTSTAT 6)

/-- DESCRIPTOR_FETCH_DONE: the descriptor read that is outstanding returns `b`, or fails (R132, R133, R693). -/
def descriptorFetched (d : Nat) (ok : Bool) (b : Bytes) (s : State) : State :=
  if !fetchDue s d then s
  else
    let (pass, s) := doorRead d (headAddr s d) s
    if !(ok && pass) then doorFetchError d s
    else
      let i := (s.door d).head
      let e := parseDoorDesc i (descInvalid s d b) b
      let s := setDoor d (fun x => { x with head := (i + 1) % ringSize s d, descs := x.descs ++ [e] }) s
      completions d s

/-- DOOR_DATA_READ_DONE: a read of up to 512 bytes for the oldest descriptor that still needs data returns, or fails
(R140, R153, table *Door timing*). -/
def doorDataRead (d : Nat) (ok : Bool) (b : Bytes) (s : State) : State :=
  match (s.door d).descs.find? (fun e => !e.ended && !e.invalid && decide (e.read < e.len)), doorCust s d with
  | some e, some c =>
    let (pass, s) := doorRead d (e.addr + e.read) s
    if ok && pass then
      let b := b.take (min 512 (e.len - e.read))
      let s := setDoor d (fun x => { x with buf := x.buf ++ b }) s
      setDoorDesc d e.index (fun x => { x with read := x.read + b.length }) s
    else
      let p := s.pos
      let f : DropFetch := { door := d, index := e.index, tag := e.tag, bytes := e.len - e.read, pos := p }
      let s := onLosses c (fun l => { l with fetch := l.fetch ++ [f] }) s
      let s := setDoorDesc d e.index (fun x => { x with fetchErr := true, len := x.read }) s
      if e.read ≤ e.taken then endDesc d c { e with fetchErr := true } s else s
  | _, _ => s

end Sys2Proof.Machine
end

