-- ==== Sys2Proof/Machine/Units.lean ====
section
/-!
DEFINITION. The digest and cipher units (R245–R304): job queues, lanes, job start and completion, aborts, lane parking and
self-test.
-/

namespace Sys2Proof.Machine

/-- The unit's state. -/
def State.unit (s : State) : UnitId → JobUnit
  | .digest => s.digest
  | .cipher => s.cipher

/-- The unit's state changed. -/
def State.setUnit (s : State) (u : UnitId) (x : JobUnit) : State :=
  match u with
  | .digest => { s with digest := x }
  | .cipher => { s with cipher := x }

/-- Lanes: 8 digest, 4 cipher (R245, R261). -/
def lanes : UnitId → Nat
  | .digest => 8
  | .cipher => 4

/-- Register addresses of the unit. -/
def rUIntstat : UnitId → Nat
  | .digest => rDIGEST_INTSTAT
  | .cipher => rCIPHER_INTSTAT
def rUCtrl : UnitId → Nat
  | .digest => rDIGEST_CTRL
  | .cipher => rCIPHER_CTRL
/-- Bus master of the unit (R47) and its interrupt source number. -/
def uMaster : UnitId → Nat
  | .digest => 0x0D
  | .cipher => 0x0E
def uSrc : UnitId → Nat
  | .digest => 34
  | .cipher => 35

/-- STATUS codes of R254. -/
def jOK : Nat := 1
def jSTALE : Nat := 2
def jUSAGE : Nat := 3
def jOWNER : Nat := 4
def jBUS : Nat := 5
def jABORTED : Nat := 6
def jBADDESC : Nat := 7
def jNOLANE : Nat := 8
def jNOTRES : Nat := 9
def jTAGFAIL : Nat := 10
def jUNWRAP : Nat := 11

/-- STATUS of a failed key use. -/
def KeyUse.status : KeyUse → Nat
  | .key _ => jOK
  | .stale => jSTALE
  | .usage => jUSAGE
  | .owner => jOWNER

/-- STATUS of a fill. A result shorter than the slot's key ends in BAD_DESC (notes/assumptions/22.md). -/
def FillRes.status : FillRes → Nat
  | .ok => jOK
  | .stale => jSTALE
  | .notReserved => jNOTRES
  | .owner => jOWNER
  | .short => jBADDESC

/-- A field of a job descriptor. -/
def dfld (d : Bytes) (off n : Nat) : Nat := ofLe (slice d off n)

/-! ## Submission -/

/-- A write of a job address to SUBMIT: queued, or ignored with QERR when 16 wait (R250); ignored from step 1 of the
last breath (R523). -/
def submitJob (u : UnitId) (addr : Nat) (s : State) : State :=
  let x := s.unit u
  if s.dying then s
  else if 16 ≤ x.queue.length then s.raise (rUIntstat u) 2
  else s.setUnit u { x with queue := x.queue ++ [addr] }

/-- A job ends: STATUS in the descriptor, JOBDONE, JOBCNT (R252). -/
def endJob (u : UnitId) (addr status : Nat) (s : State) : State :=
  let s := s.store (addr + 3) [BitVec.ofNat 8 status]
  let s := s.setUnit u { s.unit u with jobCnt := (s.unit u).jobCnt + 1 }
  s.raise (rUIntstat u) 0

/-! ## Lanes -/

/-- Lane `l` is set in DPLANES: it serves the data plane (R246). -/
def isDplane (u : UnitId) (s : State) (l : Nat) : Bool := s.flag (rUCtrl u) l

/-- Lane `l` is free for a job. -/
def laneFree (u : UnitId) (s : State) (l : Nat) : Bool :=
  !(s.unit u).parked.contains l && !(s.unit u).dbusy.contains l && !((s.unit u).running.any (fun j => j.lane == l))

/-- The lane a general job takes: a free one outside DPLANES, or, when every such lane is parked, one of DPLANES
(R248). SHA-3 runs only on lanes 6 and 7 (R245). -/
def pickLane (u : UnitId) (sha3 : Bool) (s : State) : Option Nat :=
  let all := (List.range (lanes u)).filter (fun l => !sha3 || l == 6 || l == 7)
  let general := all.filter (fun l => !isDplane u s l)
  let pool := if general.all (fun l => (s.unit u).parked.contains l) then all else general
  pool.find? (laneFree u s)

/-- SHA-3 has no lane in service (R249). -/
def noSha3Lane (s : State) : Bool := s.digest.parked.contains 6 && s.digest.parked.contains 7

/-- A lane fails its check: it parks with its sticky bit, or, as the last in service, stays (R297, R299, R300). -/
def parkLane (u : UnitId) (l : Nat) (s : State) : State :=
  let x := s.unit u
  if x.parked.contains l then s
  else if lanes u ≤ x.parked.length + 1 then
    setSticky (match u with | .digest => 73 | .cipher => 74) (uSrc u) l s
  else
    let s := s.setUnit u { x with parked := x.parked ++ [l] }
    setSticky (match u with | .digest => 71 | .cipher => 72) (uSrc u) l (s.raise (rUIntstat u) 1)

/-- The job of a parked lane runs again from its start on another lane (R298). -/
def moveJob (u : UnitId) (l : Nat) (s : State) : State :=
  let x := s.unit u
  if x.parked.contains l then
    match (List.range (lanes u)).find? (fun k => !x.parked.contains k) with
    | some k => s.setUnit u { x with running := x.running.map (fun j => if j.lane = l then { j with lane := k } else j) }
    | none => s
  else s

/-- LANE_MISMATCH (R297–R300). -/
def laneMismatch (u : UnitId) (l : Nat) (s : State) : State := moveJob u l (parkLane u l s)

/-- A known-answer test of lane `l`: STFAIL shows a failure and the lane parks (R295, R296). -/
def testLane (u : UnitId) (l : Nat) (pass : Bool) (s : State) : State :=
  if pass then s
  else
    let s := s.setUnit u { s.unit u with stfail := (s.unit u).stfail.filter (· ≠ l) ++ [l] }
    laneMismatch u l s

/-- The lanes of one unit tested one at a time; `failing` lists those whose answer is wrong. -/
def testLanes (u : UnitId) (failing : List Nat) : List Nat → State → State
  | [], s => s
  | l :: ls, s => testLanes u failing ls (testLane u l (!failing.contains l) s)

/-- SELFTEST: every digest and cipher lane, one at a time (R296). -/
def selfTest (badDigest badCipher : List Nat) (s : State) : State :=
  testLanes .cipher badCipher (List.range 4) (testLanes .digest badDigest (List.range 8) s)

/-- The lane test of a CAL window with class bit 2: one idle lane of each unit, in ascending rotation (R296). -/
def calLaneTest (u : UnitId) (failing : List Nat) (s : State) : State :=
  let x := s.unit u
  let order := (List.range (lanes u)).map (fun i => (x.testLane + i) % lanes u)
  match order.find? (laneFree u s) with
  | none => s
  | some l => testLane u l (!failing.contains l) (s.setUnit u { x with testLane := (l + 1) % lanes u })

/-! ## Job start -/

/-- The output length of an ALG, bytes. -/
def hashLen (alg : Nat) : Nat := if alg = 0 ∨ alg = 3 then 32 else if alg = 1 then 48 else 64

/-- Checks of a digest descriptor that need no key: codes, DEST, lengths (R256, R258–R260). A non-zero reserved field, an
OP or ALG outside the table, and a HASH into a slot are BAD_DESC. -/
def digestDescOk (s : State) (d : Bytes) : Bool :=
  let op := dfld d 0 1
  let alg := dfld d 1 1
  let dest := dfld d 2 1
  let len := dfld d 0x18 4
  let outlen := dfld d 0x1C 2
  let k := s.slot (hSlot (dfld d 6 2))
  decide (1 ≤ op ∧ op ≤ 4 ∧ alg ≤ 4 ∧ dest ≤ 2 ∧ dfld d 0x1E 2 = 0) &&
    (match op with
     | 1 => decide (dest ≠ 2)
     | 2 => decide (alg ≤ 2)
     | 3 => decide (alg ≤ 2 ∧ dest = 2 ∧ len ≤ 128)
     | _ => decide (alg ≤ 2 ∧ dest = 2 ∧ len ≤ 255 ∧ 1 ≤ outlen ∧ outlen ≤ 64) &&
              (!current s (dfld d 6 2) || k.st ≠ .reserved || decide (outlen = aLen k.attr)))

/-- USAGE bits a digest job's KEY needs (table *Usage required*). -/
def digestNeed (d : Bytes) : Nat :=
  if dfld d 0 1 = 2 then (if dfld d 2 1 = 2 then uHMAC ||| uKDF else uHMAC) else uKDF

/-- A general context is empty: a job on it ends STALE_KEY (R304). -/
def cipherKey (s : State) (d : Bytes) : KeyUse × Nat :=
  let c := dfld d 1 1
  if c = 0xFF then (useKey s (dfld d 4 2) uAES none, 4096)
  else
    let g := s.gctx c
    if g.ktype = 0 then (.stale, 4096) else (.key g.key, if g.du512 then 512 else 4096)

/-- Checks of a cipher descriptor that need no key (R280, R281, R283). -/
def cipherDescOk (d : Bytes) (aadlen : Nat) : Bool :=
  let op := dfld d 0 1
  let c := dfld d 1 1
  let len := dfld d 0x18 4
  decide (1 ≤ op ∧ op ≤ 8 ∧ (c = 0xFF ∨ (64 ≤ c ∧ c ≤ 78)) ∧ dfld d 2 1 ≤ 1) &&
    (match op with
     | 1 | 2 => decide (len ≠ 0 ∧ len % 16 = 0)
     | 3 | 4 => decide (aadlen ≤ 65536)
     | 5 => dfld d 2 1 == 1 || decide (len % 8 = 0 ∧ 16 ≤ len)
     | 6 => decide (len % 8 = 0 ∧ 16 ≤ len)
     | 7 => dfld d 2 1 == 1 || decide (1 ≤ len ∧ len ≤ 4096)
     | _ => decide (len % 8 = 0 ∧ 16 ≤ len ∧ len ≤ 4104))

/-- The start of the head job: its descriptor and key are latched (R251, R266), or it ends at once with the status that
its descriptor, bus access, lane or key gives. -/
def startJob (u : UnitId) (s : State) : State :=
  match (s.unit u).queue with
  | [] => s
  | addr :: rest =>
    let (okBus, s1) := jobAccess (uMaster u) none false addr 32 s
    let d := s1.load addr 32
    let sha3 := match u with | .digest => decide (3 ≤ dfld d 1 1) | .cipher => false
    let pop (s : State) : State := s.setUnit u { s.unit u with queue := rest }
    if !okBus then endJob u addr jBUS (pop s1)
    else if addr % 32 ≠ 0 then endJob u addr jBADDESC (pop s1)
    else
      match u with
      | .digest =>
        if !digestDescOk s1 d then endJob u addr jBADDESC (pop s1)
        else if sha3 && noSha3Lane s1 then endJob u addr jNOLANE (pop s1)
        else
          match pickLane u sha3 s1 with
          | none => s
          | some l =>
            if dfld d 0 1 = 1 then
              let s2 := pop s1
              s2.setUnit u { s2.unit u with running := (s2.unit u).running ++ [{ addr := addr, lane := l, desc := d }] }
            else
              match useKey s1 (dfld d 4 2) (digestNeed d) none with
              | .key k =>
                let s2 := pop s1
                s2.setUnit u { s2.unit u with
                  running := (s2.unit u).running ++ [{ addr := addr, lane := l, desc := d, key := k }] }
              | e => endJob u addr e.status (pop s1)
      | .cipher =>
        let par := dfld d 0x1C 4
        if !cipherDescOk d (ofLe (s1.load (par + 0x0C) 4)) then endJob u addr jBADDESC (pop s1)
        else
          match pickLane u false s1 with
          | none => s
          | some l =>
            match cipherKey s1 d with
            | (.key k, du) =>
              let s2 := pop s1
              s2.setUnit u { s2.unit u with
                running := (s2.unit u).running ++ [{ addr := addr, lane := l, desc := d, key := k, du := du }] }
            | (e, _) => endJob u addr e.status (pop s1)

/-! ## Digest completion -/

/-- HKDF-Expand (RFC 5869): `n` blocks T(1), T(2), … after block `prev` number `i` (R259). -/
def hkdfBlocks (alg : Nat) (prk info : Bytes) : Nat → Nat → Bytes → Bytes
  | 0, _, _ => []
  | n + 1, i, prev =>
    let t := fit (hashLen alg) (Config.hmac alg prk (prev ++ info ++ [BitVec.ofNat 8 (i + 1)]))
    t ++ hkdfBlocks alg prk info n (i + 1) t

/-- HKDF-Expand to `len` bytes (R259). -/
def hkdfExpand (alg : Nat) (prk info : Bytes) (len : Nat) : Bytes :=
  (hkdfBlocks alg prk info ((len + hashLen alg - 1) / hashLen alg) 0 []).take len

/-- The result of a digest job (R256–R259): its source bytes and latched key. -/
def digestResult (d src key : Bytes) : Bytes :=
  let alg := dfld d 1 1
  match dfld d 0 1 with
  | 1 => fit (hashLen alg) (Config.digest alg src)
  | 2 => fit (hashLen alg) (Config.hmac alg key src)
  | 3 => fit (hashLen alg) (Config.hmac alg (if src.isEmpty then zeros (hashLen alg) else src) key)
  | _ => hkdfExpand alg key src (dfld d 0x1C 2)

/-- The job leaves its lane. -/
def dropJob (u : UnitId) (addr : Nat) (s : State) : State :=
  s.setUnit u { s.unit u with running := (s.unit u).running.filter (fun j => j.addr ≠ addr) }

/-- A digest job completes: source read, output written to RESULT, memory or slot, STATUS (R252, R255–R260). -/
def digestDone (j : Job) (s : State) : State :=
  let d := j.desc
  let len := dfld d 0x18 4
  let s := dropJob .digest j.addr s
  let (okS, s) := if len = 0 then (true, s) else jobAccess 0x0D none false (dfld d 8 8) len s
  if !okS then endJob .digest j.addr jBUS s
  else
    let r := digestResult d (s.load (dfld d 8 8) len) j.key
    match dfld d 2 1 with
    | 0 => endJob .digest j.addr jOK (s.wrWords (rDIGEST_RESULT 0) (wordsOf 16 (fit 64 r)))
    | 1 =>
      let (okD, s) := jobAccess 0x0D none true (dfld d 0x10 8) r.length s
      if okD then endJob .digest j.addr jOK (s.store (dfld d 0x10 8) r) else endJob .digest j.addr jBUS s
    | _ =>
      let (f, s) := fillSlot (dfld d 6 2) r none s
      endJob .digest j.addr f.status s

/-! ## Cipher completion -/

/-- XTS over the data units of a job: unit `i` under TWEAK + `i` (R277, R280). -/
def xtsUnits (enc : Bool) (key : Bytes) (du : Nat) : Nat → Nat → Bytes → Bytes
  | 0, _, _ => []
  | n + 1, tweak, bs =>
    let x := bs.take du
    (if enc then Config.xtsEnc key (le 16 tweak) x else Config.xtsDec key (le 16 tweak) x)
      ++ xtsUnits enc key du n (tweak + 1) (bs.drop du)

/-- What a cipher job comes to: output bytes for DST, a fill of DSTH, or a status (R282–R286). -/
inductive CipherOut where
  | dst (bs : Bytes)
  | gcm (ct tag : Bytes)
  | slot (bs : Bytes)
  | tagfail (n : Nat)
  | status (c : Nat)
  deriving DecidableEq, Repr

/-- The output of a cipher job whose source bytes are `src`. -/
def cipherResult (s : State) (j : Job) (src : Bytes) : CipherOut :=
  let d := j.desc
  let par := dfld d 0x1C 4
  let iv := s.load par 12
  let aad := s.load (ofLe (s.load (par + 0x10) 8)) (ofLe (s.load (par + 0x0C) 4))
  match dfld d 0 1 with
  | 1 => .dst (xtsUnits true j.key j.du ((src.length + j.du - 1) / j.du) (ofLe (s.load par 16)) src)
  | 2 => .dst (xtsUnits false j.key j.du ((src.length + j.du - 1) / j.du) (ofLe (s.load par 16)) src)
  | 3 => let ct := Config.gcmEnc j.key iv aad src
         .gcm ct (fit 16 (Config.gcmTag j.key iv aad ct))
  | 4 => if fit 16 (Config.gcmTag j.key iv aad src) = s.load (par + 0x18) 16
         then .dst (Config.gcmDec j.key iv aad src) else .tagfail src.length
  | 5 | 7 =>
    let padded := dfld d 0 1 == 7
    if dfld d 2 1 = 1 then
      match useKey s (dfld d 6 2) uWRAP none with
      | .key k => .dst (Config.kwWrap padded j.key k)
      | e => .status e.status
    else .dst (Config.kwWrap padded j.key src)
  | _ =>
    match Config.kwUnwrap (dfld d 0 1 == 8) j.key src with
    | none => .status jUNWRAP
    | some k =>
      if dfld d 1 1 = 0xFF then
        (if k.length = aLen (s.slot (hSlot (dfld d 6 2))).attr then .slot k else .status jBADDESC)
      else .dst k

/-- A write of a job's output to DST, and the job's end. -/
def cipherWrite (j : Job) (bs : Bytes) (status : Nat) (s : State) : State :=
  let (ok, s) := jobAccess 0x0E none true (dfld j.desc 0x10 8) bs.length s
  if ok then endJob .cipher j.addr status (s.store (dfld j.desc 0x10 8) bs) else endJob .cipher j.addr jBUS s

/-- A cipher job completes (R282–R286). -/
def cipherDone (j : Job) (s : State) : State :=
  let d := j.desc
  let s := dropJob .cipher j.addr s
  let len := if dfld d 2 1 = 1 then 0 else dfld d 0x18 4
  let (okS, s) := if len = 0 then (true, s) else jobAccess 0x0E none false (dfld d 8 8) len s
  if !okS then endJob .cipher j.addr jBUS s
  else
    match cipherResult s j (s.load (dfld d 8 8) len) with
    | .dst bs => cipherWrite j bs jOK s
    | .gcm ct tag => cipherWrite j ct jOK (s.store (dfld d 0x1C 4 + 0x18) tag)
    | .tagfail n => cipherWrite j (zeros n) jTAGFAIL s
    | .slot k =>
      let (f, s) := fillSlot (dfld d 6 2) k none s
      endJob .cipher j.addr f.status s
    | .status c => endJob .cipher j.addr c s

/-- The running job of a lane completes. -/
def jobDone (u : UnitId) (l : Nat) (s : State) : State :=
  match (s.unit u).running.find? (fun j => j.lane == l) with
  | none => s
  | some j => match u with | .digest => digestDone j s | .cipher => cipherDone j s

/-! ## Aborts -/

/-- Undefined bytes, one free byte each (R302). -/
def freeBytes (ctr : Nat) : Nat → Bytes
  | 0 => []
  | n + 1 => Config.freeByte (ctr + n) :: freeBytes ctr n

/-- A write of an address to ABORT (R301–R303). `tie` says that the job's completion was latched at or before the edge
on which the abort is sampled: then completion wins. -/
def abortJob (u : UnitId) (addr : Nat) (tie : Bool) (s : State) : State :=
  let x := s.unit u
  let stat (n : Nat) (s : State) : State := s.setUnit u { s.unit u with abortStat := n }
  match x.running.find? (fun j => j.addr == addr) with
  | some j =>
    if tie then stat 1 (match u with | .digest => digestDone j s | .cipher => cipherDone j s)
    else
      let s := dropJob u addr s
      let n := dfld j.desc 0x18 4
      let toMem := match u with | .digest => decide (dfld j.desc 2 1 = 1) | .cipher => !(dfld j.desc 1 1 == 0xFF && decide (6 ≤ dfld j.desc 0 1) && dfld j.desc 0 1 != 7)
      let s := if toMem then { (s.store (dfld j.desc 0x10 8) (freeBytes s.freeCtr n)) with freeCtr := s.freeCtr + n } else s
      stat 2 (s.store (addr + 3) [BitVec.ofNat 8 jABORTED])
  | none =>
    if x.queue.contains addr then
      let s := s.setUnit u { x with queue := x.queue.erase addr }
      stat 2 (s.store (addr + 3) [BitVec.ofNat 8 jABORTED])
    else stat 3 s

/-! ## Context window -/

/-- CTXSEL with COMMIT: a general context from CTXWIN, or refused with CTXDENY for custody contexts and 79; CTXWIN is
cleared either way (R263–R265). A TYPE outside 1–4 loads nothing. -/
def ctxCommit (ctx ty : Nat) (du : Bool) (s : State) : State :=
  let key := ((s.ctx.ctxwin.map (fun w => le 4 w.toNat)).flatten).take (ctxKeyLen ty)
  let ktype := if ty = 1 then 3 else if ty = 2 then 4 else if ty = 3 then 1 else 2
  let s := s.wr rCIPHER_CTXSEL (field 6 0 ctx ||| field 12 10 ty ||| field 13 13 du.toNat)
  let s :=
    if ctx < 64 ∨ 78 < ctx then s.raise rCIPHER_INTSTAT 3
    else if 1 ≤ ty ∧ ty ≤ 4 then setGctx ctx { ktype := ktype, key := key, du512 := du } s
    else s
  { s with ctx := { s.ctx with ctxwin := List.replicate 16 0#32 } }

end Sys2Proof.Machine
end

