-- ==== Sys2Proof/Machine/PkUnit.lean ====
section
/-!
DEFINITION. The public-key unit (R305–R354): the firmware queue, Linen's jobs, preemption, operand RAM ownership and
wipes, fault detection, power gating, aborts.
-/

namespace Sys2Proof.Machine

/-- PK STATUS codes that R315 adds to R254. -/
def jPKFAULT : Nat := 0x0C
def jENTROPY : Nat := 0x0D
def jBADSIG : Nat := 0x0E
def jBADPOINT : Nat := 0x0F

/-- The OWNER of a job: Linen's own, or the descriptor's (R318, R321). -/
def PkJob.owner : PkJob → Nat
  | .linen _ o => o
  | .firmware _ d _ => dfld d 0x1C 1

/-- The custody tag a firmware job carries (R318). -/
def pkTag (d : Bytes) : Option Nat := if dfld d 0x1C 1 < 64 then some (dfld d 0x1C 1) else none

/-- Private-key bytes, public-key bytes and signature bytes of ALG 1–4 (R311). -/
def privLen (alg : Nat) : Nat := if alg = 2 then 48 else 32
def pubLen (alg : Nat) : Nat := if alg = 1 then 64 else if alg = 2 then 96 else 32
def sigLen (alg : Nat) : Nat := if alg = 2 then 96 else 64

/-- A write of a job address to SUBMIT: queue of 8, QERR when full, ignored from step 1 of the last breath
(R313, R523). -/
def pkSubmit (addr : Nat) (s : State) : State :=
  if s.dying then s
  else if 8 ≤ s.pk.queue.length then s.raise rPK_INTSTAT 2
  else { s with pk := { s.pk with queue := s.pk.queue ++ [addr] } }

/-- Linen issues a job (R322). -/
def pkIssue (j : LinenJob) (s : State) : State := { s with pk := { s.pk with linenQ := s.pk.linenQ ++ [j] } }

/-- A wipe begins: WIPECNT, WIPING; the owner tag becomes NONE at its end (R328). -/
def pkWipe (s : State) : State :=
  let s := s.addSat rPK_WIPECNT 1
  { s with pk := { s.pk with wiping := true } }

/-- PK_WIPE_DONE: the RAM is clean (R328). -/
def pkWipeDone (s : State) : State :=
  if s.pk.wiping then { s with pk := { s.pk with wiping := false, owner := none } } else s

/-- A firmware job ends: STATUS, JOBDONE, JOBCNT (R319). -/
def pkEnd (addr status : Nat) (s : State) : State :=
  let s := (s.store (addr + 3) [BitVec.ofNat 8 status]).raise rPK_INTSTAT 0
  { s with pk := { s.pk with running := none, jobCnt := s.pk.jobCnt + 1 } }

/-- The slot whose key a Linen job uses carries the job's owner: the custody of an escrow, 0x40 otherwise (table
*Linen's PK jobs*). -/
def linenOwner (j : LinenJob) (s : State) : Nat :=
  match j with
  | .kwKeygen | .kwEcdh => match s.linen.kw with | some k => k.cust | none => 0x40
  | _ => 0x40

/-- Checks of a firmware descriptor: codes, OWNER, sizes (R307, R309, R310, R318). -/
def pkDescOk (d : Bytes) : Bool :=
  let op := dfld d 0 1
  let alg := dfld d 1 1
  let own := dfld d 0x1C 1
  let len := dfld d 0x18 4
  let nb := dfld d 0x1E 2
  decide (1 ≤ op ∧ op ≤ 7 ∧ 1 ≤ alg ∧ alg ≤ 5 ∧ dfld d 2 1 < 8 ∧ dfld d 0x1D 1 = 0 ∧ (own < 64 ∨ own = 0x7E)) &&
    (if 6 ≤ op then decide (alg = 5 ∧ 2048 ≤ nb ∧ nb ≤ 4096 ∧ nb % 64 = 0)
     else decide (alg ≠ 5 ∧ nb = 0)) &&
    (match op with
     | 3 | 4 => decide (alg ≠ 4)
     | 5 => decide (alg ≠ 3)
     | _ => true) &&
    (if (op = 3 ∨ op = 4) ∧ alg = 3 then decide (len ≤ 1024)
     else if op = 3 then decide (32 ≤ len ∧ len ≤ 64) else true)

/-- USAGE bits of the KEY slot of a firmware job (table *Inputs and outputs*). -/
def pkNeed (op : Nat) : Nat := if op = 4 then uPUB else if op = 6 then uAES else uPRIV

/-- The job names a key slot. -/
def pkUsesKey (d : Bytes) : Bool :=
  let op := dfld d 0 1
  op == 2 || op == 3 || (op == 4 && !(BitVec.ofNat 8 (dfld d 2 1)).getLsbD 2) || op == 5 || op == 6

/-- The key's KTYPE fits the ALG: P-256, P-384, Ed25519, X25519 slots, AES-256 or AES-128 for the RSA KEK. -/
def pkKtypeOk (op alg ktype : Nat) : Bool :=
  if op = 6 then decide (ktype = 1 ∨ ktype = 2) else decide (ktype = alg + 4)

/-- The selected job runs: wake when gated (R343), start wipe when the owner differs (R327). -/
def pkRun (j : PkJob) (s : State) : State :=
  let s := { s with pk := { s.pk with running := some j, awake := true } }
  match s.pk.owner with
  | some o => if o ≠ j.owner then pkWipe s else s
  | none => s

/-- The PK clock enable in Tweed is clear: every Linen job ends as a fault (R326). Its bit is that of the table *Enable
bits*. -/
def pkGated (s : State) : Bool := s.flag (rTWEED_GATESTAT 0) 6

/-- Head firmware job: descriptor and key latched, or ended at once. -/
def pkStartFirmware (addr : Nat) (rest : List Nat) (s : State) : State :=
  let (ok, s) := jobAccess 0x0F none false addr 32 s
  let d := s.load addr 32
  let s := { s with pk := { s.pk with queue := rest } }
  if !ok then pkEnd addr jBUS s
  else if addr % 32 ≠ 0 ∨ pkDescOk d = false then pkEnd addr jBADDESC s
  else if pkUsesKey d then
    match useKey s (dfld d 4 2) (pkNeed (dfld d 0 1)) (pkTag d) with
    | .key k =>
      if pkKtypeOk (dfld d 0 1) (dfld d 1 1) (aKtype (s.slot (hSlot (dfld d 4 2))).attr) then
        pkRun (.firmware addr d k) s
      else pkEnd addr jBADDESC s
    | e => pkEnd addr e.status s
  else pkRun (.firmware addr d []) s

/-- PK_JOB_START: the next Linen job, or else the next firmware job (R322); no firmware job starts after PFAIL_N falls
(R354). -/
def pkStart (s : State) : State :=
  if s.pk.running.isSome ∨ s.pk.wiping = true then s
  else
    match s.pk.linenQ with
    | j :: rest =>
      let s := { s with pk := { s.pk with linenQ := rest } }
      if pkGated s then { s with pk := { s.pk with delivered := s.pk.delivered ++ [(j, false)] } }
      else pkRun (.linen j (linenOwner j s)) s
    | [] =>
      match s.pk.queue with
      | a :: rest => if s.dying then s else pkStartFirmware a rest s
      | [] => s

/-- LASTFAULT.CAUSE (table *PK registers*). -/
def PkCheck.cause : PkCheck → Nat
  | .agree => 0
  | .repeatFault => 1
  | .selfVerify => 2
  | .ramEcc => 3

/-- OP code of a Linen job for LASTFAULT. -/
def LinenJob.op : LinenJob → Nat
  | .anchorSign | .epochSign => 3
  | .epochKeygen | .kwKeygen => 1
  | .kwEcdh => 5

/-- The record of a fault: STK_PKFAULT, FAULTCNT, LASTFAULT, INTSTAT.FAULT (R337). -/
def pkFault (c : PkCheck) (owner op : Nat) (s : State) : State :=
  let s := s.addSat rPK_FAULTCNT 1
  let s := s.wr rPK_LASTFAULT (field 23 16 owner ||| field 15 8 op ||| field 3 0 c.cause)
  setSticky 75 36 (s.rd rPK_LASTFAULT).toNat (s.raise rPK_INTSTAT 1)

/-- What a firmware job writes when it succeeds: status, bytes for DST, bytes for DSTH. -/
structure PkOut where
  status : Nat := 1
  dst : Bytes := []
  slot : Option Bytes := none
  deriving DecidableEq, Repr

/-- The result of a firmware job (table *Inputs and outputs*, R309–R317). `n` numbers its random draw. -/
def pkResult (d key src : Bytes) (n : Nat) : PkOut :=
  let alg := dfld d 1 1
  let len := dfld d 0x18 4
  let inl := (BitVec.ofNat 8 (dfld d 2 1)).getLsbD 2
  match dfld d 0 1 with
  | 1 =>
    let k := fit (privLen alg) (Config.pkKeygen alg n)
    { dst := fit (pubLen alg) (Config.pkPublic alg k), slot := some k }
  | 2 => { dst := fit (pubLen alg) (Config.pkPublic alg key) }
  | 3 => { dst := fit (sigLen alg) (Config.pkSign alg key (src.take len) n) }
  | 4 =>
    let pub := if inl then slice src (len + sigLen alg) (pubLen alg) else key
    if Config.pkValid alg pub = false then { status := jBADPOINT }
    else if Config.pkVerify alg pub (src.take len) (slice src len (sigLen alg)) then {} else { status := jBADSIG }
  | 5 =>
    let z := fit (if alg = 2 then 48 else 32) (Config.pkShared alg key src)
    if alg ≠ 4 ∧ Config.pkValid alg src = false then { status := jBADPOINT }
    else if alg = 4 ∧ z = zeros 32 then { status := jBADPOINT }
    else { slot := some z }
  | 6 =>
    let nb := dfld d 0x1E 2 / 8
    match Config.kwUnwrap true key (src.drop nb) with
    | none => { status := jUNWRAP }
    | some k => { dst := fit nb (Config.rsaPriv (dfld d 0x1E 2) k (src.take nb)) }
  | _ =>
    let nb := dfld d 0x1E 2 / 8
    { dst := fit nb (Config.rsaPub (dfld d 0x1E 2) (src.take nb) (slice src nb nb) (slice src (2 * nb) 4)) }

/-- Bytes a job reads at SRC. -/
def pkSrcLen (d : Bytes) : Nat :=
  let alg := dfld d 1 1
  let len := dfld d 0x18 4
  match dfld d 0 1 with
  | 1 | 2 => 0
  | 4 => len + sigLen alg + (if (BitVec.ofNat 8 (dfld d 2 1)).getLsbD 2 then pubLen alg else 0)
  | 5 => pubLen alg
  | 6 => len
  | 7 => 2 * (dfld d 0x1E 2 / 8) + 4
  | _ => len

/-- The operand RAM after a job: KEEP leaves it tagged with the owner, WIPE or a stop wipes it (R329, R330, R332), and
a ZERO_ALL that came meanwhile wipes it too (R333). -/
def pkAfter (owner : Nat) (wipe : Bool) (s : State) : State :=
  let s := { s with pk := { s.pk with running := none, owner := some owner } }
  if wipe || s.pk.wipeDue then pkWipe { s with pk := { s.pk with wipeDue := false } } else s

/-- The ECDH destination has KDF or HMAC usage (R316). -/
def ecdhDstOk (s : State) (d : Bytes) : Bool :=
  let a := (s.slot (hSlot (dfld d 6 2))).attr
  dfld d 0 1 != 5 || hasUsage a uKDF || hasUsage a uHMAC

/-- A firmware job's results delivered at completion (R319). -/
def pkDeliver (addr : Nat) (d : Bytes) (o : PkOut) (s : State) : State :=
  if o.status ≠ jOK then pkEnd addr o.status s
  else
    let (okD, s) := if o.dst.isEmpty then (true, s)
                    else jobAccess 0x0F (pkTag d) true (dfld d 0x10 8) o.dst.length s
    if !okD then pkEnd addr jBUS s
    else
      match o.slot with
      | none => pkEnd addr jOK (s.store (dfld d 0x10 8) o.dst)
      | some k =>
        if !ecdhDstOk s d then pkEnd addr jUSAGE s
        else
          match fillSlot (dfld d 6 2) k (pkTag d) s with
          | (.ok, s) => pkEnd addr jOK (s.store (dfld d 0x10 8) o.dst)
          | (f, s) => pkEnd addr f.status s

/-- The operation needs the DRBG: a private-key operation or a KEYGEN (R336). -/
def pkNeedsDrbg (d : Bytes) : Bool := let op := dfld d 0 1; op == 1 || op == 2 || op == 3 || op == 5 || op == 6

/-- A firmware job completes. -/
def pkFirmwareDone (addr : Nat) (d key : Bytes) (c : PkCheck) (s : State) : State :=
  let owner := dfld d 0x1C 1
  let c := if c = .selfVerify ∧ (dfld d 0 1 ≠ 3 ∨ (BitVec.ofNat 8 (dfld d 2 1)).getLsbD 1 = false) then .agree else c
  if pkNeedsDrbg d ∧ s.rng.drbg = .error then pkEnd addr jENTROPY (pkAfter owner true s)
  else if c ≠ .agree then pkEnd addr jPKFAULT (pkFault c owner (dfld d 0 1) (pkAfter owner true s))
  else
    let n := pkSrcLen d
    let (okS, s) := if n = 0 then (true, s) else jobAccess 0x0F (pkTag d) false (dfld d 8 8) n s
    let wipe := (BitVec.ofNat 8 (dfld d 2 1)).getLsbD 0
    if !okS then pkEnd addr jBUS (pkAfter owner wipe s)
    else
      let src := s.load (dfld d 8 8) n
      let ctr := s.freeCtr
      pkDeliver addr d (pkResult d key src ctr) (pkAfter owner wipe s.fresh)

/-- A Linen job ends in WIPE mode (table *Linen's PK jobs*). -/
def LinenJob.wipes : LinenJob → Bool
  | .epochSign | .kwEcdh => true
  | _ => false

/-- A Linen job completes: its outcome is delivered to Linen before any end wipe (R331). -/
def pkLinenDone (j : LinenJob) (owner : Nat) (c : PkCheck) (s : State) : State :=
  let entropy := decide (s.rng.drbg = .error)
  let c := if c = .selfVerify ∧ j ≠ .anchorSign then .agree else c
  let fail := entropy || decide (c ≠ .agree)
  let s := pkAfter owner (j.wipes || fail) s
  let s := if !entropy && decide (c ≠ .agree) then pkFault c owner j.op s else s
  { s with pk := { s.pk with delivered := s.pk.delivered ++ [(j, !fail)], jobCnt := s.pk.jobCnt + 1 } }

/-- PK_JOB_DONE: the running job's two runs have been compared (R334, R335). -/
def pkDone (c : PkCheck) (s : State) : State :=
  let s := pkWipeDone s
  match s.pk.running with
  | none => s
  | some (.linen j o) => pkLinenDone j o c s
  | some (.firmware a d k) => pkFirmwareDone a d k c s

/-- A running firmware job is stopped and the RAM wiped; the job writes nothing (R325, R332). -/
def pkStop (s : State) : State := pkWipe { s with pk := { s.pk with running := none } }

/-- PREEMPT: a Linen job waits while a firmware job runs with PREEMPT set; the firmware job returns to the head of its
queue (R323). -/
def pkPreempt (s : State) : State :=
  match s.pk.running with
  | some (.firmware a _ _) =>
    if s.flag rPK_CTRL 0 ∧ s.pk.linenQ ≠ [] then
      let s := (s.addSat rPK_PREEMPTCNT 1).raise rPK_INTSTAT 3
      pkStop { s with pk := { s.pk with queue := a :: s.pk.queue } }
    else s
  | _ => s

/-- A write of an address to PK.ABORT (R350–R353); `tie`: the completion was latched at or before the sampling edge. -/
def pkAbort (addr : Nat) (tie : Bool) (s : State) : State :=
  let stat (n : Nat) (s : State) : State := { s with pk := { s.pk with abortStat := n } }
  let ab (s : State) : State := s.store (addr + 3) [BitVec.ofNat 8 jABORTED]
  match s.pk.running with
  | some (.firmware a d k) =>
    if a = addr then
      if tie then stat 1 (pkFirmwareDone a d k .agree (pkWipeDone s)) else stat 2 (ab (pkStop s))
    else if s.pk.queue.contains addr then stat 2 (ab { s with pk := { s.pk with queue := s.pk.queue.erase addr } })
    else stat 3 s
  | _ =>
    if s.pk.queue.contains addr then stat 2 (ab { s with pk := { s.pk with queue := s.pk.queue.erase addr } })
    else stat 3 s

/-- PK_GATE: idle for GATEDLY with GATEEN set: the RAM is wiped unless its tag is NONE, and the unit gates itself
(R341, R342). A job that is queued cancels it (R344). -/
def pkGate (s : State) : State :=
  if s.flag rPK_CTRL 1 ∧ s.pk.running = none ∧ s.pk.linenQ = [] ∧ s.pk.queue = [] ∧ s.pk.awake = true then
    let s := if s.pk.owner.isSome then pkWipe s else s
    { s with pk := { s.pk with awake := false } }
  else s

/-- The ZERO_ALL response on the operand RAM: at once when idle, else at the end of the running job (R333). -/
def pkZeroAll (s : State) : State :=
  if s.pk.running.isSome then { s with pk := { s.pk with wipeDue := true } } else pkWipe s

/-- PFAIL_N falls: a running firmware job stops and the RAM is wiped (R354). -/
def pkPfail (s : State) : State :=
  match s.pk.running with
  | some (.firmware _ _ _) => pkStop s
  | _ => s

end Sys2Proof.Machine
end

