-- ==== Sys2Proof/Machine/Linen.lean ====
section
/-!
DEFINITION. Linen's sequencers (R196–R214): anchors, epochs, key escrow, TIMEMAP.
-/

namespace Sys2Proof.Machine

/-! ## Epoch slots -/

/-- The key-store slot of the active epoch key; EPSLOT.ACTIVE 0 names SLOTA (notes/assumptions/28.md). -/
def activeSlot (s : State) : Nat := if s.linen.active then s.linen.slotB else s.linen.slotA
/-- The other epoch slot. -/
def inactiveSlot (s : State) : Nat := if s.linen.active then s.linen.slotA else s.linen.slotB

/-- A slot holds a usable P-256 signing key (R207). -/
def signUsable (s : State) (n : Nat) : Bool :=
  decide ((s.slot n).st = .loaded) && hasUsage (s.slot n).attr uPRIV && decide (aKtype (s.slot n).attr = 5)

/-- The identity slot (R242). -/
def identitySlot : Nat := 17

/-- The first 8 bytes of SHA-256 of a public key (tables *ANCHOR body*, *EPOCH body*, *KEYWRAP body*). -/
def keyIdOf (pub : Bytes) : Bytes := fit 8 (Config.sha256 pub)

/-- The P-256 public key of a slot's key. -/
def slotPub (s : State) (n : Nat) : Bytes := fit 64 (Config.pkPublic 1 (s.slot n).key)

/-! ## Anchors -/

/-- The snapshot of the 64 heads: EVT, MONO, ROOT, LIVE; the sign job is issued (R196, R198, R199). -/
def anchorSnapshot (a : AnchorJob) (s : State) : State :=
  let a := { a with signing := true, evt := s.felt.evt, mono := s.felt.mono, root := merkleRoot s, live := liveMask s,
                    seqs := (List.range 64).map (fun c => (s.chain c).seq) }
  pkIssue .anchorSign (s.onLinen (fun l => { l with anchor := some a }))

/-- Stripes closed by SEAL whose records are not yet written (R87). -/
def sealsInFlight (s : State) : List (Nat × Nat) :=
  (List.range 64).flatMap (fun c =>
    (((s.cust c).sealing.filter (fun z => decide (z.cause = .seal))).map (fun z => (c, z.stripe.jsn))))

/-- An ANCHOR starts: after pending SEAL records (R87); behind a KEYLOST epoch when the active slot is unusable (R207),
behind requests of earlier boots (R203). -/
def anchorStart (a : AnchorJob) (s : State) : State :=
  if !signUsable s (activeSlot s) then
    s.onLinen (fun l => { l with anchorNext := some a, keylostDue := true, anchor := none })
  else if 0 < s.linen.epochFirst ∧ a.lastBreath = false then
    s.onLinen (fun l => { l with anchorNext := some a, anchor := none })
  else
    match (if a.lastBreath then [] else sealsInFlight s) with
    | [] => anchorSnapshot a s
    | w => s.onLinen (fun l => { l with anchor := some { a with after := w } })

/-- A request for an ANCHOR (R197, R200): dropped in BLANK (R1057) and from the fall of PFAIL_N on; merged into one that
is running; behind a running epoch sequence it waits (table *Linen races*). -/
def anchorRequest (requested : Bool) (s : State) : State :=
  let a : AnchorJob := { requested := requested }
  if s.fuse.life = .blank ∨ s.dying = true then s
  else if s.linen.anchor.isSome ∨ s.linen.anchorNext.isSome then s.addSat rLINEN_ANCMERGE 1
  else if s.linen.epochSeq.isSome then s.onLinen (fun l => { l with anchorNext := some a })
  else anchorStart a s

/-- A stripe's records are written: an ANCHOR that waited for it takes its snapshot (R87). -/
def anchorAfter (c jsn : Nat) (s : State) : State :=
  match s.linen.anchor with
  | some a =>
    if a.signing then s
    else
      let a := { a with after := a.after.filter (· ≠ (c, jsn)) }
      if a.after.isEmpty then anchorSnapshot a s else s.onLinen (fun l => { l with anchor := some a })
  | none => s

/-- STRIPE_RECORD_WRITTEN: the oldest closed stripe of custody `c` (R40, R51, R87). -/
def stripeRecordWritten (c : Nat) (s : State) : State :=
  match (s.cust c).sealing with
  | [] => s
  | z :: rest =>
    anchorAfter c z.stripe.jsn (sealStripe c z (setCust c (fun x => { x with sealing := rest }) s))

/-- The ANCHOR body of a job, with a signature. -/
def anchorBody (a : AnchorJob) (s : State) (sig : Bytes) : Body :=
  .anchor a.root a.mono s.linen.epoch (a.lastBreath.toNat + 2 * a.requested.toNat) (keyIdOf (slotPub s (activeSlot s)))
    a.live sig

/-- Bytes before SIG of a device record that would be written now (tables *ANCHOR body*, *EPOCH body*). -/
def signedPart (s : State) (evt n : Nat) (b : Body) : Bytes :=
  let ch := s.chain devChain
  (recHeader b.type devChain ch.seq evt (if ch.seq = 0 then zeros 32 else ch.head) ++ b.bytes).take n

/-- An ECDSA P-256 signature over SHA-256 of a message, by the key of slot `n`; the nonce is fresh. -/
def signWith (s : State) (n : Nat) (msg : Bytes) : Bytes :=
  fit 64 (Config.pkSign 1 (s.slot n).key (Config.sha256 msg) s.freeCtr)

/-- The signed ANCHOR is written; ANCSEQ, ANCHORDONE (R197–R199). -/
def anchorWrite (a : AnchorJob) (s : State) : State :=
  let sig := signWith s (activeSlot s) (signedPart s a.evt 0x70 (anchorBody a s []))
  let b := anchorBody a s sig
  let s := s.fresh
  let seq := (s.chain devChain).seq
  let s := appendAt devChain (chainKey s devChain) 0 a.evt b s
  (s.onLinen (fun l => { l with anchor := none, ancSeq := seq, ancEvt := a.evt, anchors := l.anchors ++ [(seq, a.seqs)] })).raise
    rLINEN_INTSTAT 0

/-- What the PK unit delivered for job `j`, taken by Linen (R331). -/
def takeDelivered (j : LinenJob) (s : State) : Option Bool × State :=
  match s.pk.delivered.find? (fun e => e.1 == j) with
  | some e => (some e.2, s.onPk (fun p => { p with delivered := p.delivered.erase e }))
  | none => (none, s)

/-- ANCHOR_SIGNED: the record is written, or ANCFAIL and one retry with a fresh snapshot (R199, R201). -/
def anchorSigned (s : State) : State :=
  match takeDelivered .anchorSign s, s.linen.anchor with
  | (some ok, s), some a =>
    if ok then anchorWrite a s
    else
      let s := s.raise rLINEN_INTSTAT 4
      if a.retried then s.onLinen (fun l => { l with anchor := none }) else anchorSnapshot { a with retried := true } s
  | (_, s), _ => s

/-! ## Epochs -/

/-- A request for a new epoch: counted in PEND, or in LOST with STK_EPOCHQ at saturation (R202, R204). -/
def epochRequest (r : EpochReq) (s : State) : State :=
  if 0xFFFF ≤ s.linen.epochQ.length then
    setSticky 68 33 0 (s.onLinen (fun l => { l with epochLost := satInc 16 l.epochLost }))
  else s.onLinen (fun l => { l with epochQ := l.epochQ ++ [r] })

/-- Which request of PEND runs next: TAMPER with the head of the epoch source queue, TAMPER with SOURCE 0xFF while OVF counts
events, else the oldest other one (R1010). -/
def nextRequest (s : State) (q : List EpochReq) : EpochReq :=
  match s.felt.epqSrc with
  | src :: _ => { reason := .tamper, source := src }
  | [] =>
    if 0 < s.felt.epqOvf then { reason := .tamper }
    else (q.find? (fun r => decide (r.reason ≠ .tamper))).getD { reason := .tamper }

/-- A request that has run leaves PEND, and its source leaves the queue or OVF (R205, R1010). -/
def requestDone (e : EpochReq) (s : State) : State :=
  let s := s.onLinen (fun l => { l with epochQ := l.epochQ.eraseP (fun r => decide (r.reason = e.reason)) })
  if e.reason ≠ .tamper then s
  else if s.felt.epqSrc.isEmpty then s.onFelt (fun f => { f with epqOvf := f.epqOvf - 1 })
  else s.onFelt (fun f => { f with epqSrc := f.epqSrc.drop 1 })

/-- The request that the sequencer takes next: GENESIS for an empty device chain (R178, R1057), KEYLOST for an unusable
active slot (R207), then the oldest of PEND. -/
def nextEpoch (s : State) : Option EpochReq :=
  if (s.chain devChain).seq = 0 then some { reason := .genesis }
  else if s.linen.keylostDue then some { reason := .keylost }
  else
    match s.linen.epochQ with
    | [] => none
    | q => if signUsable s (activeSlot s) then some (nextRequest s q) else some { reason := .keylost }

/-- ATTR of the inactive epoch slot: KTYPE P-256, LENM1 31, PK_PRIVATE, OWNER 0, TZ 1 (R346). -/
def epochAttr : Word := field 7 0 uPRIV ||| field 15 15 1 ||| field 19 16 5 ||| field 25 20 31

/-- EPOCH_SEQUENCE_START: step 1, a KEYGEN into the inactive slot (R205, R346); none in BLANK (R1057), while an ANCHOR is in
flight, in the last breath, or before the commit point that follows an abandoned sequence (R348). -/
def epochStart (s : State) : State :=
  if s.fuse.life = .blank ∨ s.dying = true ∨ s.linen.anchor.isSome = true ∨ s.linen.epochSeq.isSome = true
      ∨ s.linen.epochHold = true then s
  else
    match nextEpoch s with
    | none => s
    | some r =>
      let n := inactiveSlot s
      let s := allocSlot n epochAttr (zeroizeSlot n s)
      pkIssue .epochKeygen (s.onLinen (fun l => { l with epochSeq := some { req := r } }))

/-- An abandoned sequence: its request runs again from the next commit point on, and an ANCHOR that waited behind it is
signed under the key that stays active (R348, table *Linen races*). -/
def epochAbandon (s : State) : State :=
  match s.linen.anchorNext with
  | some a => anchorStart a (s.onLinen (fun l => { l with epochSeq := none, epochHold := true, anchorNext := none }))
  | none => s.onLinen (fun l => { l with epochSeq := none, epochHold := true })

/-- A job of the sequence failed: once more, and after a second failure the sequence is abandoned (R348). -/
def epochFail (e : EpochSeq) (j : LinenJob) (s : State) : State :=
  if e.retried then epochAbandon s
  else pkIssue j (s.onLinen (fun l => { l with epochSeq := some { e with retried := true } }))

/-- EPOCH_KEYGEN_DONE: the inactive slot is filled, NEWKEYID computed, the body's signing issued (R205, R346). -/
def epochKeygenDone (s : State) : State :=
  match takeDelivered .epochKeygen s, s.linen.epochSeq with
  | (some ok, s), some e =>
    if !ok then epochFail e .epochKeygen s
    else
      let key := fit 32 (Config.pkKeygen 1 s.freeCtr)
      let (_, s) := fillSlot (handleOf s (inactiveSlot s)) key none s.fresh
      let pub := fit 64 (Config.pkPublic 1 key)
      pkIssue .epochSign
        (s.onLinen (fun l => { l with epochSeq := some { e with step := .sign, retried := false, newPub := pub } }))
  | (_, s), _ => s

/-- REASON code of an epoch (table *EPOCH body*). -/
def EpochReason.code : EpochReason → Nat
  | .genesis => 0
  | .roll => 1
  | .tamper => 2
  | .request => 3
  | .keylost => 4

/-- GENESIS and KEYLOST are signed by the identity key (R205, R207). -/
def epochSigner (s : State) (r : EpochReason) : Nat :=
  match r with | .genesis | .keylost => identitySlot | _ => activeSlot s

/-- NEWEPOCH: 0 for GENESIS, LINEN.EPOCH + 1 otherwise (R206). -/
def newEpoch (s : State) (r : EpochReason) : Nat := if r = .genesis then 0 else s.linen.epoch + 1

/-- The EPOCH body of a sequence, with a signature. -/
def epochBody (e : EpochSeq) (s : State) (sig : Bytes) : Body :=
  .epoch (newEpoch s e.req.reason) e.req.reason.code e.req.source s.felt.mono e.newPub (keyIdOf e.newPub)
    (keyIdOf (slotPub s (epochSigner s e.req.reason))) sig

/-- EPOCH_SIGNED, steps 4 and 5: the record and head, the old slot zeroised, ACTIVE inverted, LINEN.EPOCH, PEND (R205);
then an ANCHOR that waited starts (table *Linen races*). -/
def epochWrite (e : EpochSeq) (s : State) : State :=
  let sig := signWith s (epochSigner s e.req.reason) (signedPart s s.felt.evt 0x90 (epochBody e s []))
  let b := epochBody e s sig
  let n := newEpoch s e.req.reason
  let s := append devChain (chainKey s devChain) 0 b s.fresh
  let s := zeroizeSlot (activeSlot s) s
  let counted := match e.req.reason with | .genesis | .keylost => false | _ => true
  let s := s.onLinen (fun l => { l with
    epochSeq := none, active := !l.active, epoch := n, opened := true,
    keylostDue := if e.req.reason = .keylost then false else l.keylostDue,
    epochFirst := if counted then l.epochFirst - 1 else l.epochFirst })
  let s := if counted then requestDone e.req s else s
  let s := s.raise rLINEN_INTSTAT 1
  match s.linen.anchorNext with
  | some a => anchorStart a (s.onLinen (fun l => { l with anchorNext := none }))
  | none => s

/-- EPOCH_SIGNED (R205, R348). -/
def epochSigned (s : State) : State :=
  match takeDelivered .epochSign s, s.linen.epochSeq with
  | (some ok, s), some e => if ok then epochWrite e s else epochFail e .epochSign s
  | (_, s), _ => s

/-! ## TIMEMAP -/

/-- A TIMEMAP record (R189). The device chain opens with GENESIS, so none comes before it (R178). -/
def timemap (s : State) : State :=
  if (s.chain devChain).seq = 0 then s
  else
    let utc := s.rd64 rFELT_UTCOFF_LO rFELT_UTCOFF_HI
    let disc := s.fld rFELT_FSTAT 10 8
    let s := write devChain (.timemap utc disc (s.fld rFELT_LEAP 7 0) (s.rd rFELT_PPSERR).toNat s.felt.mono) s
    s.onLinen (fun l => { l with tmapEvt := s.felt.evt })

/-- TIMEMAP_PERIOD: TMAPPER seconds of EVT after the last TIMEMAP; 0 disables it (R189). -/
def timemapPeriod (s : State) : State :=
  let p := s.fld rLINEN_TMAPPER 15 0
  if p = 0 ∨ s.felt.evt < s.linen.tmapEvt + p * 2 ^ 24 then s else timemap s

/-! ## Key escrow -/

/-- KWSTAT.CODE values. -/
def kwBUSY : Nat := 1
def kwSTALESRC : Nat := 2
def kwSTALEESC : Nat := 3
def kwUSAGE : Nat := 4
def kwPKFAULT : Nat := 5

/-- A request ends: CODE, DONE, KWDONE (R213; notes/assumptions/29.md). -/
def kwEnd (code : Nat) (s : State) : State :=
  let s := (s.setFld rLINEN_KWSTAT 3 0 code).setFlag rLINEN_KWSTAT 8 true
  (s.onLinen (fun l => { l with kw := none })).raise rLINEN_INTSTAT 2

/-- KWBUSY: a request is in the PK unit, or its key waits for a bank (R269). -/
def kwBusy (s : State) : Bool := s.linen.kw.isSome || s.ctx.loadWait.isSome

/-- PK ALG code and KTYPE of an escrow ALG (table *KEYWRAP body*). -/
def kwAlg (alg : Nat) : Nat := if alg = 1 then 4 else 1
def kwKtype (alg : Nat) : Nat := if alg = 1 then 8 else 5

/-- USAGE bits of a KEYWRAP source (R268). -/
def kwNeed (kind : Nat) : Nat := if kind = 1 then uWRAP ||| uMOVE else uWRAP ||| uHMAC

/-- KWSTAT.CODE of a request's checks; 0 passes (R213, R268; notes/assumptions/29.md). A custody whose KEYVER is 0xFFFF
takes no further KIND 1 (R1093). -/
def kwCheck (s : State) (c kind alg src : Nat) : Nat :=
  let esc := (s.cust c).lDesc.escrow
  let sa := (s.slot (hSlot src)).attr
  let ea := (s.slot (hSlot esc)).attr
  if !current s src then kwSTALESRC
  else if !current s esc then kwSTALEESC
  else
    match useKey s src (kwNeed kind) (some c), useKey s esc uPUB (some c) with
    | .key k, .key _ =>
      if (kind = 1 ∨ kind = 2) ∧ (alg = 1 ∨ alg = 2) ∧ aKtype ea = kwKtype alg ∧ (k.length = 32 ∨ k.length = 64)
          ∧ (kind = 1 → (aKtype sa = 3 ∨ aKtype sa = 4) ∧ nth s.linen.keyver c < 0xFFFF) then 0 else kwUSAGE
    | _, _ => kwUSAGE

/-- KEYWRAP: KWCMD.GO or object 0x3204 (R210–R213, R523). -/
def keywrap (c kind alg src : Nat) (s : State) : State :=
  if s.dying then s
  else if kwBusy s then s.setFld rLINEN_KWSTAT 3 0 kwBUSY
  else
    let code := kwCheck s c kind alg src
    if code ≠ 0 then kwEnd code s
    else
      let s := s.setFld rLINEN_KWSTAT 3 0 0
      pkIssue .kwKeygen (s.onLinen (fun l => { l with kw := some { cust := c, kind := kind, alg := alg, source := src } }))

/-- The ephemeral pair is there: the shared secret is asked for (R211), or the request fails with code 5 (R349). -/
def kwKeygenDone (s : State) : State :=
  match takeDelivered .kwKeygen s, s.linen.kw with
  | (some ok, s), some k =>
    if !ok then kwEnd kwPKFAULT s
    else
      let eph := fit 32 (Config.pkKeygen (kwAlg k.alg) s.freeCtr)
      pkIssue .kwEcdh (s.fresh.onLinen (fun l => { l with kw := some { k with eph := eph } }))
  | (_, s), _ => s

/-- HKDF-SHA-256 (RFC 5869): salt, input, info, length. -/
def hkdf (salt input info : Bytes) (n : Nat) : Bytes := hkdfExpand 0 (fit 32 (Config.hmac 0 salt input)) info n

/-- KEYWRAP records held for a custody that are of kind `k`. -/
def heldOf (s : State) (c k : Nat) : Nat :=
  ((nth s.linen.kwPending c).filter (fun b => match b with | .keywrap kind .. => decide (kind = k) | _ => false)).length

/-- KEYGEN of a KEYWRAP: the new KEYVER, or the count of escrows (table *KEYWRAP body*). -/
def kwGen (s : State) (c kind : Nat) : Nat :=
  (if kind = 1 then nth s.linen.keyver c else nth s.linen.escrows c) + 1 + heldOf s c kind

/-- The KEYWRAP body (R211). -/
def kwBody (s : State) (k : KwJob) (key : Bytes) : Body :=
  let gen := kwGen s k.cust k.kind
  let pub := (s.slot (hSlot (s.cust k.cust).lDesc.escrow)).key
  let owner := keyIdOf pub
  let z := Config.pkShared (kwAlg k.alg) k.eph pub
  let kek := fit 32 (hkdf owner z (0x4B#8 :: (le 1 k.cust ++ le 1 k.kind ++ le 4 gen)) 32)
  .keywrap k.kind k.alg (key.length + 8) gen owner (Config.pkPublic (kwAlg k.alg) k.eph)
    (fit (key.length + 8) (Config.kwWrap false kek key)) (kcvOf key)

/-- A KIND 1 key goes to the bank that does not hold version KEYVER, or waits while a stripe waits for that bank's version
(R267, R269). -/
def loadBank (c ver : Nat) (key : Bytes) (kt : Nat) (s : State) : State :=
  let b := decide ((s.bank c false).ver = some (nth s.linen.keyver c))
  let free := match (s.bank c b).ver with | some v => !verWaits s c v | none => true
  if free then
    let s := setBank c b { ver := some ver, key := key, ktype := kt } s
    s.onCtx (fun x => { x with loadWait := none })
  else s.onCtx (fun x => { x with loadWait := some (c, ver, key, kt) })

/-- The journal released a stripe: a load that waited is tried again (R269). -/
def retryLoad (s : State) : State :=
  match s.ctx.loadWait with
  | some (c, v, k, t) => loadBank c v k t s
  | none => s

/-- KEYWRAP_DONE: the record is held for the custody's next stripe close (R211); a KIND 1 key is loaded (R267). -/
def keywrapDone (s : State) : State :=
  match takeDelivered .kwEcdh s, s.linen.kw with
  | (some ok, s), some k =>
    if !ok then kwEnd kwPKFAULT s
    else
      match useKey s k.source (kwNeed k.kind) (some k.cust) with
      | .key key =>
        let gen := kwGen s k.cust k.kind
        let b := kwBody s k key
        let s := s.onLinen (fun l => { l with kwPending := upd l.kwPending k.cust (· ++ [b]) })
        let s := if k.kind = 1 then loadBank k.cust gen key (aKtype (s.slot (hSlot k.source)).attr) s else s
        kwEnd 0 s
      | .stale => kwEnd kwSTALESRC s
      | _ => kwEnd kwUSAGE s
  | (_, s), _ => s

/-- R214 at a commit point: a custody with no bound source or no open stripe writes its held KEYWRAP records, after DESC
CREATE when its chain is empty. -/
def commitKeywraps : List Nat → State → State
  | [], s => s
  | c :: cs, s =>
    let x := s.cust c
    if x.openStripe.isNone && !(nth s.linen.kwPending c).isEmpty then
      let (kw, s) := takeKeywraps c s
      commitKeywraps cs (writeKeywraps c x.lDesc.ledgerKey kw (ensureCreate c x.lDesc s))
    else commitKeywraps cs s

/-- Linen's part of a commit point (R214, R348). -/
def linenCommit (s : State) : State :=
  (commitKeywraps (List.range 64) s).onLinen (fun l => { l with epochHold := false })

/-- What the fall of PFAIL_N stops: a normal ANCHOR, an epoch sequence before step 4, a KEYWRAP in the PK unit (R208, R513,
table *Linen races*). -/
def linenPfail (s : State) : State :=
  let s := s.onLinen (fun l => { l with anchor := none, anchorNext := none, epochSeq := none, kw := none })
  s.onPk (fun p => { p with linenQ := [], delivered := [] })

end Sys2Proof.Machine
end

