-- ==== Sys2Proof/Machine/Windows.lean ====
section
/-!
DEFINITION. What other blocks read of Canvas: nominal period and blanking, predicted positions, the GC and CAL windows with
their predicted remaining time (R67–R73, R83, R93, R94).
-/

namespace Sys2Proof.Machine

/-- The mean of a list of intervals. -/
def mean (l : List Nat) : Nat := l.sum / l.length

/-- PERIODMEAS: the mean of the last 8 frame-start intervals, 0 before 8 are measured (R67). -/
def periodMeas (s : State) : Nat := if s.canvas.intervals.length < 8 then 0 else mean s.canvas.intervals

/-- BLANKMEAS: the mean of the last 8 FE-to-FS intervals (R67). -/
def blankMeas (s : State) : Nat := if s.canvas.blanks.length < 8 then 0 else mean s.canvas.blanks

/-- The nominal period (R68). -/
def nominalPeriod (s : State) : Nat :=
  if s.canvas.intervals.length < 8 then (s.rd rCANVAS_PERIODSET).toNat else periodMeas s

/-- The nominal blanking (R73). -/
def nominalBlank (s : State) : Nat :=
  if s.canvas.ctl.refsel = 0 ∧ 8 ≤ s.canvas.blanks.length then blankMeas s else (s.rd rCANVAS_BLANKSET).toNat

/-- LINEPER, ns. -/
def linePer (s : State) : Nat := s.fld rCANVAS_LINEPER 19 0

/-- An enabled slot holds the action. -/
def slotHolds (s : State) (action : Nat) : Bool := s.canvas.slots.any (fun x => x.slot.en && decide (x.slot.action = action))

/-- The GC window is open, or counts as open (R93). -/
def gcWindow (s : State) : Bool := s.canvas.gcOpen || (s.flag rCANVAS_WINCTL 0 && !slotHolds s 4)

/-- The CAL window is open for a class, or counts as open (R93). -/
def calWindow (s : State) (cls : Nat) : Bool := s.canvas.calOpen.testBit cls || (s.flag rCANVAS_WINCTL 1 && !slotHolds s 6)

/-- Time to an armed slot that has not fired, in ns, with LINEPER for the ticks not yet reached (R83). -/
def timeToSlot (s : State) (x : SlotState) : Nat :=
  let c := s.canvas
  if x.slot.rel then
    if c.blank then (x.slot.line - c.blankTicks) * linePer s
    else (c.nextFrameAt - nominalBlank s - s.now) + x.slot.line * linePer s
  else (x.slot.line - c.pos.line) * linePer s

/-- Remaining time of a window in µs: to its closing slots or the predicted next frame start, whichever is earlier
(R83). -/
def windowRem (s : State) (closes : Slot → Bool) : Nat :=
  let c := s.canvas
  let ends := (c.slots.filter (fun x => x.armed && !x.fired && closes x.slot)).map (timeToSlot s)
  (ends.foldl min (c.nextFrameAt - s.now)) / 1000

/-- GCREM. -/
def gcRem (s : State) : Nat := if gcWindow s then windowRem s (fun x => decide (x.action = 5)) else 0

/-- CALREM. -/
def calRem (s : State) : Nat :=
  if s.canvas.calOpen ≠ 0 ∨ calWindow s 0 = true then
    windowRem s (fun x => decide (x.action = 7 ∧ x.target &&& s.canvas.calOpen ≠ 0))
  else 0

/-- A garbage-collection copy may start (R94). -/
def gcMay (s : State) : Bool := gcWindow s && decide (s.fld rCANVAS_WINMIN 15 0 ≤ gcRem s)

/-- A CAL operation of a class may start (R94). -/
def calMay (s : State) (cls : Nat) : Bool := calWindow s cls && decide (s.fld rCANVAS_WINMIN 31 16 ≤ calRem s)

end Sys2Proof.Machine
end

