-- ==== Sys2Proof/Machine/Media.lean ====
section
/-!
DEFINITION. Twill's media side (R355–R426): channels, targets and LUNs, parking, LDPC lanes, the pair and read-retry tables,
read levels, geometry.
-/

namespace Sys2Proof.Machine

/-! ## Lookups -/

/-- Channel `n`. -/
def State.chan (s : State) (n : Nat) : Channel := nth s.media.ch n
/-- A channel changed. -/
def setChan (n : Nat) (f : Channel → Channel) (s : State) : State := s.onMedia (fun m => { m with ch := upd m.ch n f })
/-- Channel LUN `j` of channel `n` (R356). -/
def State.lun (s : State) (n j : Nat) : Lun := nth (s.chan n).luns j
/-- A LUN changed. -/
def setLun (n j : Nat) (f : Lun → Lun) (s : State) : State := setChan n (fun c => { c with luns := upd c.luns j f }) s
/-- Segment `k`; one that the map does not list is FREE. -/
def State.seg (s : State) (k : Nat) : Seg := (s.jrn.segs.lookup k).getD {}
/-- A segment changed. -/
def setSeg (k : Nat) (f : Seg → Seg) (s : State) : State :=
  let v := f (s.seg k)
  s.onJrn (fun j => { j with segs := sinsert (serase j.segs k) k v })
/-- Namespace `k` (16 is the system area). -/
def State.nspace (s : State) (k : Nat) : Namespace := nth s.jrn.ns k

/-- The geometry in force. -/
def geomOf (s : State) : TargetGeom := match s.media.geo with | some g => g.geom | none => {}
/-- Codewords per page (R370): planes times plane-page bytes over 4,096. -/
def codewords (s : State) : Nat := 2 ^ (geomOf s).planes * 2 ^ (geomOf s).pagesz
/-- Pages per block. -/
def pagesPerBlock (s : State) : Nat := (geomOf s).ppbm1 + 1
/-- Blocks per LUN. -/
def blocksPerLun (s : State) : Nat := (geomOf s).blkm1 + 1
/-- The LUN set of a segment number (R357, R464). -/
def lunSetOf (s : State) (k : Nat) : Nat :=
  match s.media.geo with | some g => nth g.lunSets (k / blocksPerLun s) | none => 0

/-- A channel takes part: READY or DEGRADED. -/
def chanUp (s : State) (n : Nat) : Bool := match (s.chan n).st with | .ready | .degraded => true | _ => false
/-- An operation on LUN `j` of channel `n` is overdue (R406). -/
def lunOverdue (s : State) (n j : Nat) : Bool := (s.chan n).ops.any (fun o => o.overdue && decide (o.lun = j))
/-- The channel has an overdue operation: CHSTAT.OVERDUE. -/
def chanOverdue (s : State) (n : Nat) : Bool := (s.chan n).ops.any (fun o => o.overdue)
/-- WIDTH.MEMBERS: channels populated, neither parked nor overdue (R361). -/
def widthMembers (s : State) : List Nat := (List.range 8).filter (fun n => chanUp s n && !chanOverdue s n)
/-- Members that LUN set `j` offers to a new segment (R361, R406, R411, R414). -/
def lunSetMembers (s : State) (j : Nat) : List Nat :=
  (List.range 8).filter (fun n => chanUp s n && decide ((s.lun n j).st = .active) && !lunOverdue s n j)
/-- MINWIDTH: 3–8 (R361). -/
def minWidth (s : State) : Nat := max 3 (min 8 (s.fld rTWILL_MEDCFG 3 0))

/-- LASTERR of a channel: CODE, OP, LUN, TGT. -/
def lastErr (n code op lun : Nat) (s : State) : State :=
  s.wr (rTWILL_LASTERR n) (field 23 20 (lun / 4) ||| field 19 16 (lun % 4) ||| field 15 8 op ||| field 7 0 code)

/-- The ONFI command code of an operation, for LASTERR.OP. -/
def NandKind.op : NandKind → Nat
  | .program => 0x80
  | .erase => 0x60
  | .read => 0x00
  | .reset => 0xFF

/-! ## LDPC lanes -/

/-- An LDPC lane fails its check or test: it parks, or, as the last of its kind in service, goes on (R421–R424). Decoder
lanes are 0–15, encoder lanes 16–19. -/
def parkLdpc (lane : Nat) (s : State) : State :=
  let kind (l : Nat) : Bool := decide (l < 16) == decide (lane < 16)
  let size := if lane < 16 then 16 else 4
  if s.media.ldpcParked.contains lane then s
  else if size ≤ (s.media.ldpcParked.filter kind).length + 1 then setSticky 104 40 lane s
  else
    let s := s.onMedia (fun m => { m with ldpcParked := m.ldpcParked ++ [lane] })
    setSticky 103 40 lane (s.raise rTWILL_INTSTAT 3)

/-- The lane test of a CAL window with class bit 2: one decoder and one encoder lane in rotation (R423). `fails` lists the
lanes that fail. -/
def ldpcTest (fails : List Nat) (s : State) : State :=
  let d := s.media.decTest
  let e := s.media.encTest
  let s := s.onMedia (fun m => { m with decTest := (d + 1) % 16, encTest := (e + 1) % 4 })
  let s := if fails.contains d then parkLdpc d s else s
  if fails.contains (16 + e) then parkLdpc (16 + e) s else s

/-! ## Pair table, read-retry table, offsets -/

/-- The closer and the page type of a page index: for SLC every page closes itself (R379a, R387). -/
def closerOf (s : State) (p : Nat) : Nat :=
  if (geomOf s).cell = 0 then p else ((s.media.pairTable.lookup p).getD 0) % 4096
/-- Page type: 0 lower, 1 middle, 2 upper (R387). -/
def pageType (s : State) (p : Nat) : Nat :=
  if (geomOf s).cell = 0 then 0 else ((s.media.pairTable.lookup p).getD 0) / 4096 % 4

/-- A channel is READY (R388). -/
def anyReady (s : State) : Bool := (List.range 8).any (chanUp s)

/-- PAIRDATA_WRITE: an entry at PAIRIDX, which moves on; ignored while a channel is READY (R388). -/
def pairWrite (v : Nat) (s : State) : State :=
  if anyReady s then s
  else
    let i := s.fld rTWILL_PAIRIDX 11 0
    let s := s.onMedia (fun m => { m with pairTable := sinsert (serase m.pairTable i) i (v % 65536) })
    (s.setFld rTWILL_PAIRDATA 15 0 v).setFld rTWILL_PAIRIDX 11 0 ((i + 1) % 4096)

/-- The bytes of the read-retry table from index `i` on (R396). -/
def rrStore (i : Nat) : Bytes → List (Nat × Byte) → List (Nat × Byte)
  | [], t => t
  | b :: bs, t => rrStore (i + 1) bs (sinsert (serase t i) i b)

/-- RRDATA_WRITE: four bytes at RRIDX, lowest index in the low byte; RRIDX moves on by 4 (R399). -/
def rrWrite (v : Word) (s : State) : State :=
  let i := s.fld rTWILL_RRIDX 9 0 / 4 * 4
  let s := s.onMedia (fun m => { m with rrTable := rrStore i (le 4 v.toNat) m.rrTable })
  (s.wr rTWILL_RRDATA v).setFld rTWILL_RRIDX 9 0 ((i + 4) % 1024)

/-- TRACKCFG.RANGE. -/
def trackRange (s : State) : Int := s.fld rTWILL_TRACKCFG 29 24

/-- An offset kept within ± RANGE (R393). -/
def clampOff (s : State) (v : Int) : Int := max (-(trackRange s)) (min (trackRange s) v)

/-- Level `k` of a LUN set to an offset (R391, R393). -/
def setOffset (n j k : Nat) (v : Int) (s : State) : State :=
  let v := clampOff s v
  setLun n j (fun l => { l with offsets := upd l.offsets k (fun _ => v) }) s

/-- OFFIDX after a write: the next level, then the next LUN's level 0 (notes/assumptions/30.md). -/
def offNext (s : State) (n : Nat) : Nat × Nat :=
  let l := s.fld (rTWILL_OFFIDX n) 7 4
  let k := s.fld (rTWILL_OFFIDX n) 2 0
  if 6 ≤ k then ((l + 1) % 16, 0) else (l, k + 1)

/-- OFFDATA_WRITE: sets an offset as a probe result would (R391). Level 7 names none. -/
def offWrite (n v : Nat) (s : State) : State :=
  let l := s.fld (rTWILL_OFFIDX n) 7 4
  let k := s.fld (rTWILL_OFFIDX n) 2 0
  let s := if k ≤ 6 then setOffset n l k (signed 8 v) s else s
  let (l', k') := offNext s n
  let s := s.setFld (rTWILL_OFFDATA n) 7 0 v
  (s.setFld (rTWILL_OFFIDX n) 7 4 l').setFld (rTWILL_OFFIDX n) 2 0 k'

/-- The index of the smallest entry, the first of equals. -/
def argMin : List Nat → Nat
  | [] => 0
  | x :: t => match t with | [] => 0 | _ => let i := argMin t; if x ≤ t.getD i 0 then 0 else i + 1

/-- PROBE: in a CAL window with class bit 0, one level of one LUN is swept; `mism` are the mismatches at the offset and at
−1, +1, −2, +2 steps, and the level moves to the best (R394, R395). A read that does not decode moves nothing. Levels and
LUNs rotate. -/
def probe (n j : Nat) (decoded : Bool) (mism : List Nat) (s : State) : State :=
  let tr := (nth (s.chan n).targets (j / 4)).geom.tr
  if !chanUp s n || s.dying || (s.lun n j).st ≠ .active || !calMay s 0 || decide (calRem s < 5 * tr + 20) then s
  else
    let k := (s.lun n j).probeLevel
    let cur := (s.lun n j).offsets.getD k 0
    let s := setLun n j (fun l => { l with probeLevel := (k + 1) % 7 }) s
    if !decoded || mism.isEmpty then s
    else setOffset n j k (cur + ([0, -1, 1, -2, 2] : List Int).getD (argMin mism) 0) s

/-- Level tracking: the corrections of a rung-1 decode are summed per LUN and page type; after ACCUM codewords an
imbalance beyond THRESH / 256 moves the page type's levels one step, and the sums restart (R392, R393). With POL 0 an
excess of 0→1 corrections raises the levels (notes/assumptions/31.md). -/
def track (n j ty n01 n10 : Nat) (s : State) : State :=
  if !s.flag rTWILL_TRACKCFG 31 then s
  else
    let c := nth (s.lun n j).sums ty
    let c : TrackSum := { n01 := c.n01 + n01, n10 := c.n10 + n10, words := c.words + 1 }
    if c.words < s.fld rTWILL_TRACKCFG 15 0 then setLun n j (fun l => { l with sums := upd l.sums ty (fun _ => c) }) s
    else
      let s := setLun n j (fun l => { l with sums := upd l.sums ty (fun _ => {}) }) s
      let diff := if c.n10 ≤ c.n01 then c.n01 - c.n10 else c.n10 - c.n01
      if diff * 256 ≤ s.fld rTWILL_TRACKCFG 23 16 * (c.n01 + c.n10) then s
      else
        let up := xor (decide (c.n10 < c.n01)) (s.flag rTWILL_LVLMAP (24 + ty))
        let step : Int := if up then 1 else -1
        let mask := bits (s.rd rTWILL_LVLMAP) (8 * ty + 6) (8 * ty)
        (List.range 7).foldl (fun s k => if mask.testBit k then setOffset n j k ((s.lun n j).offsets.getD k 0 + step) s else s) s

/-! ## Segment marks -/

/-- STATE codes (table *Segment-table entry, 64 bytes*). -/
def SegSt.code : SegSt → Nat
  | .free => 0
  | .allocating => 1
  | .allocated => 2
  | .openSeg => 3
  | .closed => 4
  | .unusable => 5

/-- FLAGS of a segment. -/
def Seg.flags (g : Seg) : Nat :=
  g.refresh.toNat + 2 * g.rebuild.toNat + 4 * g.gcsrc.toNat + 8 * g.orphans.toNat + 16 * g.wlcold.toNat

/-- The NS byte of a segment: 0x80 for the system area, 0xFF for none. -/
def nsByte (n : Nat) : Nat := if n = 16 then 0x80 else if n < 16 then n else 0xFF

/-- The SEGSTATE entry of a segment as it now stands. -/
def logSeg (k : Nat) (s : State) : State :=
  let g := s.seg k
  logAppend (.segstate k g.st.code (nsByte g.ns) g.erases g.flags) s

/-- A segment marked for refresh, once (R400). -/
def markRefresh (k : Nat) (s : State) : State :=
  if (s.seg k).refresh then s else logSeg k (setSeg k (fun g => { g with refresh := true }) s)

/-- Segments with data and a member on a LUN. -/
def segsOn (s : State) (n : Nat) (luns : Nat → Bool) : List Nat :=
  (s.jrn.segs.filter (fun (_, g) =>
    (match g.st with | .openSeg | .closed => true | _ => false) && g.members.contains n && luns g.lunSet)).map Prod.fst

/-- Segments queued for background rebuild (R417). -/
def markRebuild : List Nat → State → State
  | [], s => s
  | k :: ks, s =>
    markRebuild ks (if (s.seg k).rebuild then s else logSeg k (setSeg k (fun g => { g with rebuild := true }) s))

/-! ## Superpage abandonment -/

/-- The units of an abandoned superpage return to their namespace, to be placed again from the journal (R385, R386, R412);
copies are still mapped at their source and are collected again (R480). -/
def slotsAgain (l : List SlotUse) : List SlotUse :=
  l.filter (fun u => match u with | .stripe .. | .ledger .. | .table => true | _ => false)

/-- The namespace a segment belongs to. -/
def segNs (s : State) (k : Nat) : Nat := (s.seg k).ns

/-- The superpages of a segment whose safety depends on index `p` (R379a, R383): those whose chain of closers passes it. -/
def dependsOn (s : State) (p : Nat) : Nat → Nat → Bool
  | 0, q => decide (q = p)
  | n + 1, q => decide (q = p) || (decide (closerOf s q ≠ q) && dependsOn s p n (closerOf s q))

/-- A superpage is abandoned, with those of its segment that wait for it (R383, R385, table *Twill media races*). -/
def abandonPage (k p : Nat) (s : State) : State :=
  let hit (x : Superpage) : Bool :=
    decide (x.seg = k) && !x.mapped && !x.abandoned && dependsOn s p (pagesPerBlock s) x.idx
  let again := ((s.media.superpages.filter hit).map (fun x => slotsAgain x.slots)).flatten
  let s := s.onMedia (fun m => { m with superpages := m.superpages.map (fun x => if hit x then { x with abandoned := true } else x) })
  setNs (segNs s k) (fun n => { n with redo := n.redo ++ again }) s

/-- An open segment takes no new superpage: CLOSED, its half-filled superpage's slots are placed elsewhere (R406, R415). -/
def stopSegment (k : Nat) (s : State) : State :=
  if (s.seg k).st ≠ .openSeg then s
  else
    let n := segNs s k
    let back := match (s.nspace n).filling with | some f => if f.seg = k then slotsAgain f.slots else [] | none => []
    let s := setNs n (fun x => { x with
      redo := x.redo ++ back,
      filling := (match x.filling with | some f => if f.seg = k then none else some f | none => none),
      cur := if x.cur = some k then none else x.cur }) s
    let s := s.onJrn (fun j => { j with gc := { j.gc with dst := if j.gc.dst = some k then none else j.gc.dst } })
    logSeg k (setSeg k (fun g => { g with st := .closed }) s)

/-- Open segments of a list closed for new superpages. -/
def stopSegments : List Nat → State → State
  | [], s => s
  | k :: ks, s => stopSegments ks (stopSegment k s)

/-! ## Parking -/

/-- A program or erase that is lost takes its superpage with it (R412); a lost read is read again from the other members
(R416). -/
def loseOp (o : NandOp) (s : State) : State :=
  match o.kind with
  | .program => abandonPage o.seg o.page s
  | _ => s

/-- Operations completed with TGT_LOST or CHAN_LOST. -/
def loseOps : List NandOp → State → State
  | [], s => s
  | o :: os, s => loseOps os (loseOp o s)

/-- Reads that a parked unit can no longer serve, for another member of the superpage (R416). -/
def lostReads (l : List NandOp) : List NandOp :=
  (l.filter (fun o => decide (o.kind = .read))).map (fun o => { o with issued := false, overdue := false, rebuild := true })

/-- Reads queued on the first channel that is up. -/
def requeueReads (l : List NandOp) (s : State) : State :=
  match (List.range 8).find? (chanUp s) with
  | some n => setChan n (fun c => { c with ops := c.ops ++ l }) s
  | none => s

/-- The channel's reads DEGRADED once a target parks or a LUN retires (R411). -/
def degrade (n : Nat) (s : State) : State :=
  setChan n (fun c => { c with st := match c.st with | .ready => .degraded | x => x }) s

/-- LUNs of target `t`. -/
def targetLuns (t j : Nat) : Bool := decide (j / 4 = t)

/-- A target parks: its LUNs leave service, its operations end TGT_LOST, its segments close and are queued for rebuild
(R407, R410, R411, R414–R417). -/
def parkTarget (n t : Nat) (s : State) : State :=
  let lost := (s.chan n).ops.filter (fun o => targetLuns t o.lun)
  let s := setChan n (fun c => { c with
    targets := upd c.targets t (fun x => { x with parked := true }),
    luns := c.luns.mapIdx (fun j l => if targetLuns t j && decide (l.st ≠ .absent) then { l with st := .parked } else l),
    ops := c.ops.filter (fun o => !targetLuns t o.lun),
    draining := true }) s
  let s := degrade n s
  let s := setSticky 99 (41 + n) (n * 256 + t) ((s.raise rTWILL_INTSTAT 0).raise (rTWILL_CHINTSTAT n) 2)
  let segs := segsOn s n (targetLuns t)
  requeueReads (lostReads lost) (markRebuild segs (stopSegments segs (loseOps lost s)))

/-- OPERATION_TIMEOUT: an operation whose LUN is still busy parks its target (R407); one whose completion was sampled on or
before that edge counts, and nothing parks (R413). -/
def opTimeout (n j : Nat) (completed : Bool) (s : State) : State :=
  match (s.chan n).ops.find? (fun o => o.issued && decide (o.lun = j)) with
  | none => s
  | some o =>
    if completed then s
    else
      let s := (s.addSat (rTWILL_TIMEOUTS n) 1).raise (rTWILL_CHINTSTAT n) 1
      lastErr n 4 o.kind.op j (parkTarget n (j / 4) s)

/-- OPERATION_OVERDUE: open segments with a member on the LUN form no new superpage; CHSTAT.OVERDUE (R406). -/
def opOverdue (n j : Nat) (s : State) : State :=
  if (s.chan n).ops.any (fun o => o.issued && decide (o.lun = j)) then
    let s := setChan n (fun c => { c with ops := c.ops.map (fun o => if o.issued && decide (o.lun = j) then { o with overdue := true } else o) }) s
    let s := s.raise (rTWILL_CHINTSTAT n) 4
    stopSegments ((segsOn s n (fun x => decide (x = j))).filter (fun k => decide ((s.seg k).st = .openSeg))) s
  else s

/-- A channel parks: WP_N low, every operation ends CHAN_LOST (R409, R410, R414–R417). -/
def parkChannel (n : Nat) (s : State) : State :=
  let lost := (s.chan n).ops
  let s := setChan n (fun c => { c with
    st := .parked, wpHigh := false, draining := false, ops := [],
    luns := c.luns.map (fun l => if l.st ≠ .absent then { l with st := .parked } else l) }) s
  let s := setSticky 101 (41 + n) n (setSticky 100 (41 + n) n s)
  let s := (s.raise rTWILL_INTSTAT 1).raise (rTWILL_CHINTSTAT n) 3
  let s := match lost with | o :: _ => lastErr n 5 o.kind.op o.lun s | [] => s
  let segs := segsOn s n (fun _ => true)
  requeueReads (lostReads lost) (markRebuild segs (stopSegments segs (loseOps lost s)))

/-- RBSTUCK_EXPIRY: RB_N low for RBSTUCK while no unparked target reports busy (R408, R409). -/
def rbStuck (n : Nat) (s : State) : State :=
  if (s.chan n).st = .absent ∨ (s.chan n).st = .parked ∨ (s.chan n).ops.any (fun o => o.issued) = true then s
  else parkChannel n s

/-! ## Initialisation -/

/-- Targets as enabled by TGTEN. -/
def enabledTargets (s : State) (n : Nat) (l : List Target) : List Target :=
  (List.range 4).map (fun t => if (s.fld (rTWILL_CHCFG n) 7 4).testBit t then { nth l t with parked := false } else {})

/-- Steps 3–7 of one channel (table *Channel initialisation*, R363–R366): the LUNs of present targets, the comparison with
the geometry record. -/
def initTargets (n : Nat) (ts : List Target) (s : State) : State :=
  let luns := (s.chan n).luns.mapIdx (fun j l =>
    let t := nth ts (j / 4)
    { (default : Lun) with spares := l.spares, bad := l.bad,
                           st := if t.present ∧ j % 4 < t.geom.luns then .active else .absent })
  let s := setChan n (fun c => { c with targets := ts, luns := luns, st := .init }) s
  match s.media.geo with
  | none => s
  | some g =>
    let bad (t : Nat) : Bool :=
      let x := nth ts t
      let y := nth (nth g.targets n) t
      x.present && (!y.present || decide (x.id ≠ y.id) || decide (x.geom ≠ y.geom))
    let s := (List.range 4).foldl (fun s t =>
      if bad t then
        let s := setChan n (fun c => { c with
          targets := upd c.targets t (fun x => { x with parked := true }),
          luns := c.luns.mapIdx (fun j l => if targetLuns t j && decide (l.st ≠ .absent) then { l with st := .parked } else l) }) s
        setSticky 97 (41 + n) (n * 256 + t) ((s.raise rTWILL_INTSTAT 6).raise (rTWILL_CHINTSTAT n) 2)
      else s) s
    setChan n (fun c => { c with st := .ready, wpHigh := true }) s

/-- Initialisation of channel `n` at a full reset (R360, R362–R366). -/
def initChannel (n : Nat) (p : Probe) (s : State) : State :=
  let keep := (s.chan n).luns.map (fun l => ({ spares := l.spares, bad := l.bad } : Lun))
  let s := setChan n (fun _ => { luns := keep }) s
  if !s.flag (rTWILL_CHCFG n) 31 then setChan n (fun c => { c with st := .absent }) s
  else if p.rbStuck then
    let s := setChan n (fun c => { c with st := .parked, rbLow := true }) s
    setSticky 101 (41 + n) n (setSticky 100 (41 + n) n ((s.raise rTWILL_INTSTAT 1).raise (rTWILL_CHINTSTAT n) 3))
  else
    let ts := enabledTargets s n p.targets
    if !ts.any (fun t => t.present) then setChan n (fun c => { c with st := .absent }) s
    else if !p.trained then
      let s := setChan n (fun c => { c with st := .parked, trainFail := true, targets := ts }) s
      setSticky 96 (41 + n) n (s.raise (rTWILL_CHINTSTAT n) 3)
    else initTargets n ts (setChan n (fun c => { c with train := BitVec.ofNat 32 p.train }) s)

/-- Every channel initialised; INITDONE (R362). -/
def initChannels (l : List Probe) (s : State) : State :=
  ((List.range 8).foldl (fun s n => initChannel n (nth l n) s) s).raise rTWILL_INTSTAT 5

/-! ## MEDIA_INIT -/

/-- How a procedure ends (table *Result codes*). -/
inductive ProcRes where
  | ok | state | range | hwFault | timeout | aborted
  deriving DecidableEq, Repr, Inhabited

/-- Present targets of all channels. -/
def presentTargets (s : State) : List Target :=
  (s.media.ch.map (fun c => c.targets.filter (fun t => t.present && !t.parked))).flatten

/-- Every closer index is at least its page's and below the pages per block (R389). -/
def pairsOk (s : State) (g : TargetGeom) : Bool :=
  decide (g.cell = 0) || (List.range (g.ppbm1 + 1)).all (fun p =>
    let c := ((s.media.pairTable.lookup p).getD 0) % 4096
    decide (p ≤ c ∧ c ≤ g.ppbm1))

/-- Bytes of data area per LUN set on full membership: used for the 16 TiB bound (R371). -/
def lunSetBytes (g : TargetGeom) (width : Nat) : Nat :=
  width * (g.blkm1 + 1) * (g.ppbm1 + 1) * 2 ^ g.planes * 4096 * 2 ^ g.pagesz

/-- The spares of a LUN: SPAREPCT percent of its good blocks, rounded up, taken from the highest good blocks
(R403; notes/assumptions/32.md). -/
def sparesOf (blocks pct : Nat) (bad : List Nat) : List Nat :=
  let good := (List.range blocks).filter (fun b => !bad.contains b)
  let n := (good.length * pct + 99) / 100
  (good.drop (good.length - n)).reverse

/-- The bad-block table and spares of one channel, from its factory markers (R367, R368, R403). -/
def initLuns (blocks pct n : Nat) (bad : List (Nat × Nat × Nat)) (s : State) : State :=
  setChan n (fun c => { c with luns := c.luns.mapIdx (fun j l =>
    if l.st = .active then
      let b := (bad.filter (fun e => decide (e.1 = n ∧ e.2.1 = j))).map (fun e => e.2.2)
      { l with bad := b, spares := sparesOf blocks pct b }
    else l) }) s

/-- BADBLK entries of the factory-bad blocks. -/
def logBad : List (Nat × Nat × Nat) → State → State
  | [], s => s
  | (n, j, b) :: t, s => logBad t (logAppend (.badblk n j b) s)

/-- LEDGER records whose ledger unit was not mapped go back to their namespace's open unit (R440, R474). -/
def unplacedRecs (j : Journal) (ns : Rec → Nat) (n : Nat) : List Rec :=
  j.log.filterMap (fun e => match e.body with
    | .ledger _ _ r => if e.placed = false ∧ ns r = n then some r else none
    | _ => none)

/-- A stripe that the journal holds, with every unit still to be placed. -/
def restage (x : JStripe) : JStripe :=
  let units := List.range ((x.data.length + 4095) / 4096)
  { x with unplaced := units, unmapped := units }

/-- Every namespace empty (R367): no run, no segment, nothing under way to the media. Data in the journal stays there (R366)
and is placed again; the lowest of its units is LOW (R455; notes/assumptions/85.md). -/
def emptyMaps (s : State) : State :=
  let stripes := s.jrn.stripes.map restage
  let s := s.onJrn (fun j => { j with
    segs := [], gc := {}, stripes := stripes, ckPages := 0,
    ns := j.ns.mapIdx (fun i n =>
      let own := stripes.filter (fun x => decide (x.ns = i))
      { wp := n.wp, low := (own.map (fun x => x.unit)).foldl min n.wp, toPlace := own.map (fun x => x.jsn),
        ledgerUnit := unplacedRecs j (fun r => chainNs s r.cust) i }) })
  s.onMedia (fun m => { m with 
    superpages := [], lostCnt := 0, ch := m.ch.map (fun c => { c with ops := c.ops.filter (fun o => decide (o.kind = .read)) }) })

/-- MEDIA_INIT (R364, R367–R371, R389, R403): `bad` are the blocks whose factory marker is not 0xFF, as channel, channel
LUN, block. A second geometry among the present targets, or none present, ends with HW_FAULT (notes/assumptions/33.md). -/
def mediaInit (bad : List (Nat × Nat × Nat)) (s : State) : ProcRes × State :=
  if s.fuse.life ≠ .blank ∧ s.fuse.life ≠ .personalise then (.state, s)
  else
    match presentTargets s with
    | [] => (.hwFault, s)
    | t :: ts =>
      if ts.any (fun x => decide (x.geom ≠ t.geom)) then (.hwFault, s)
      else if !pairsOk s t.geom then (.range, s)
      else
        let g := t.geom
        let sets := (List.range 16).filter (fun j => (List.range 8).any (fun n => decide ((s.lun n j).st = .active)))
        let width := ((List.range 8).filter (fun n => decide ((s.chan n).st ≠ .absent ∧ (s.chan n).st ≠ .parked))).length
        let most := 2 ^ 44 / max 1 (lunSetBytes g width)
        let used := sets.take (max 1 most)
        let rec_ : Geometry := { geom := g, lunSets := used, targets := s.media.ch.map (fun c => c.targets) }
        let pct := s.fld rTWILL_MEDCFG 23 16
        let s := (List.range 8).foldl (fun s n => initLuns (g.blkm1 + 1) pct n bad s) s
        let s := s.onMedia (fun m => { m with geo := some rec_, segCount := used.length * (g.blkm1 + 1) })
        let s := logBad bad (emptyMaps s)
        let s := (List.range 8).foldl (fun s n =>
          if (s.chan n).st = .init then setChan n (fun c => { c with st := .ready, wpHigh := true }) s else s) s
        (.ok, s)

end Sys2Proof.Machine
end

