-- ==== Sys2Proof/Machine/Place.lean ====
section
/-!
DEFINITION. Twill's placement (R379–R390, R453–R489): units and runs, segment allocation, filling and programming of
superpages, mapping and release, garbage collection, read jobs, NAND operations.
-/

namespace Sys2Proof.Machine

/-! ## Units -/

/-- A unit of a namespace is live in its maps: not below LOW, not released, not LOST (R455, R461, R481). -/
def Namespace.live (n : Namespace) (u : Nat) : Bool :=
  decide (n.low ≤ u) && !n.released.any (fun r => decide (r.1 ≤ u ∧ u ≤ r.2)) && !n.lost.contains u

/-- The run that maps a unit (`resolve`, R465). -/
def Namespace.runOf (n : Namespace) (u : Nat) : Option Run :=
  n.runs.find? (fun r => decide (r.unit ≤ u ∧ u < r.unit + r.count))

/-- The live units of a namespace in segment `k`, each with its data slot. -/
def liveIn (s : State) (k : Nat) : List (Nat × Nat) :=
  let n := s.nspace (segNs s k)
  if segNs s k ≤ 16 then
    (n.runs.filter (fun r => decide (r.seg = k))).flatMap (fun r =>
      ((List.range r.count).filter (fun i => n.live (r.unit + i))).map (fun i => (r.unit + i, r.slot + i)))
  else []

/-- VALID: live units of a segment (table *Segment-table entry, 64 bytes*). -/
def segValid (s : State) (k : Nat) : Nat := (liveIn s k).length

/-- The internal unit number that an OFFSET names (R457). -/
def unitOfOffset (n : Namespace) (offset : Nat) : Nat :=
  let v := offset / 4096
  let base := n.wp / 2 ^ 36 * 2 ^ 36 + v
  if n.wp ≤ base then base - 2 ^ 36 else base

/-- How a unit resolves (`resolve`, R457, R419). -/
inductive Resolved where
  | reclaimed
  | lost
  | journal
  | at_ (seg slot : Nat)
  deriving DecidableEq, Repr, Inhabited

/-- A unit that the journal has not released is served from there (R378). -/
def inJournal (s : State) (ns u : Nat) : Bool :=
  s.jrn.stripes.any (fun j => decide (j.ns = ns ∧ j.unit ≤ u ∧ u < j.unit + (j.data.length + 4095) / 4096))

/-- The resolution of a namespace's unit. -/
def resolveUnit (s : State) (ns u : Nat) : Resolved :=
  let n := s.nspace ns
  if u < n.low ∨ n.released.any (fun r => decide (r.1 ≤ u ∧ u ≤ r.2)) = true then .reclaimed
  else if inJournal s ns u then .journal
  else
    match n.runOf u with
    | none => .reclaimed
    | some r => if n.lost.contains u then .lost else .at_ r.seg (r.slot + (u - r.unit))

/-! ## Runs -/

/-- A run without the units `u` to `u + n - 1`. -/
def cutRun (u n : Nat) (r : Run) : List Run :=
  (if r.unit < u then [{ r with count := min r.count (u - r.unit) }] else [])
    ++ (let e := r.unit + r.count
        if u + n < e then
          let b := max r.unit (u + n)
          [{ r with unit := b, slot := r.slot + (b - r.unit), count := e - b }]
        else [])

/-- A run put in at its place in UNIT order (R465). -/
def insertRun (r : Run) : List Run → List Run
  | [] => [r]
  | x :: t => if r.unit < x.unit then r :: x :: t else x :: insertRun r t

/-- Units remapped to a new run (R465, R479). -/
def remap (r : Run) (l : List Run) : List Run := insertRun r ((l.map (cutRun r.unit r.count)).flatten)

/-! ## Segments -/

/-- Data slots of a superpage of segment `k`: width less one, times the codewords of a page (R380). -/
def slotsPer (s : State) (k : Nat) : Nat := ((s.seg k).members.length - 1) * codewords s

/-- Segments of a namespace that hold or will hold its data. -/
def heldBy (s : State) (n : Nat) : Nat :=
  (s.jrn.segs.filter (fun (_, g) => decide (g.ns = n ∧ g.st ≠ .free ∧ g.st ≠ .unusable))).length

/-- FREE segments. -/
def freeSegs (s : State) : Nat :=
  s.media.segCount - (s.jrn.segs.filter (fun (_, g) => decide (g.st ≠ .free))).length

/-- Class of a namespace: 0 LOOP, 1 HOLD, 2 COURT (R453); the system area keeps everything (R468). -/
def nsClass (s : State) (n : Nat) : Nat := if n = 16 then 2 else s.fld (rTWILL_NSCFG n) 25 24
/-- QUOTA and RESERVE; a QUOTA of 0 sets no limit (notes/assumptions/34.md). -/
def nsQuota (s : State) (n : Nat) : Nat := if n = 16 then 0 else s.fld (rTWILL_NSCFG n) 23 0
def nsReserve (s : State) (n : Nat) : Nat := s.fld (rTWILL_NSRES n) 23 0

/-- The block of segment `k` on channel `n`: the one it last had, or the segment's own (R404, R464). -/
def segBlock (s : State) (k n : Nat) : Nat := ((s.seg k).blk.lookup n).getD (k % blocksPerLun s)

/-- A segment number whose own block is a spare of some LUN of its set serves no segment. -/
def spareSeg (s : State) (k : Nat) : Bool :=
  (List.range 8).any (fun n => (s.lun n (lunSetOf s k)).spares.contains (k % blocksPerLun s))

/-- The FREE segment with the lowest ERASES, lowest number first, in a LUN set with at least MINWIDTH members
(R361, R486). -/
def chooseSeg (s : State) : Option Nat :=
  let ok := (List.range s.media.segCount).filter (fun k =>
    decide ((s.seg k).st = .free) && decide (minWidth s ≤ (lunSetMembers s (lunSetOf s k)).length) && !spareSeg s k)
  match ok with
  | [] => none
  | k :: ks => some (ks.foldl (fun b x => if (s.seg x).erases < (s.seg b).erases then x else b) k)

/-- Enough members remain for a new segment somewhere (R420). -/
def widthOk (s : State) : Bool := (List.range 16).any (fun j => decide (minWidth s ≤ (lunSetMembers s j).length))

/-- A read job still references a segment (R485). -/
def referenced (s : State) (k : Nat) : Bool := s.media.jobs.any (fun j => j.segs.contains k)

/-- FULL set, with its marks (R497). -/
def setFull (n : Nat) (s : State) : State :=
  if (s.nspace n).full then s
  else setSticky 106 49 n ((setNs n (fun x => { x with full := true }) s).raise rTWILL_JINTSTAT 2)

/-- FULL withdrawn where a segment could be opened again (R496, R498). -/
def updateFull (s : State) : State :=
  (List.range 16).foldl (fun s n =>
    if (s.nspace n).full && (decide (nsQuota s n = 0) || decide (heldBy s n < nsQuota s n)) && (chooseSeg s).isSome then
      setNs n (fun x => { x with full := false }) s else s) s

/-- A CLOSED segment with VALID 0 that nothing references becomes FREE (R479, R485, R489). -/
def freeSeg (k : Nat) (s : State) : State :=
  if (s.seg k).st = .closed ∧ segValid s k = 0 ∧ referenced s k = false
      ∧ s.media.superpages.any (fun x => decide (x.seg = k) && !x.mapped && !x.abandoned) = false then
    let n := segNs s k
    let s := setSeg k (fun g => { st := .free, ns := 0xFF, lunSet := g.lunSet, erases := g.erases, blk := g.blk }) s
    let s := setNs n (fun x => { x with runs := x.runs.filter (fun r => decide (r.seg ≠ k)) }) s
    let s := s.onMedia (fun m => { m with superpages := m.superpages.filter (fun x => decide (x.seg ≠ k)) })
    let s := s.onJrn (fun j => { j with gc := if j.gc.src = some k then { j.gc with src := none, st := .idle, reading := [], got := [] } else j.gc })
    updateFull (logSeg k s)
  else s

/-- Segments of a list freed where they may be. -/
def freeList : List Nat → State → State
  | [], s => s
  | k :: ks, s => freeList ks (freeSeg k s)

/-- Every segment looked at. -/
def freeDead (s : State) : State := freeList (s.jrn.segs.map Prod.fst) s

/-! ## Reclaim and release -/

/-- The segment that holds the unit at LOW of a LOOP namespace (R458): that of the first run. -/
def lowSeg (s : State) (n : Nat) : Option Nat :=
  ((s.nspace n).runs.find? (fun r => (List.range r.count).any (fun i => (s.nspace n).live (r.unit + i)))).map Run.seg

/-- LOOP reclaim: LOW moves past the highest unit of the segment that holds LOW; RECLAIM is logged; the segment is freed
(R458). -/
def reclaim (n : Nat) (s : State) : State :=
  match lowSeg s n with
  | none => s
  | some k =>
    let top := ((s.nspace n).runs.filter (fun r => decide (r.seg = k))).foldl (fun m r => max m (r.unit + r.count)) 0
    let s := setNs n (fun x => { x with low := max x.low top }) s
    freeDead (logAppend (.reclaim n (s.nspace n).low) s)

/-- The LOOP namespace to reclaim from when free segments are short: the oldest unit at LOW among those that hold more than
RESERVE (R459). -/
def loopVictim (s : State) : Option Nat :=
  let ok := (List.range 16).filter (fun n => decide (nsClass s n = 0 ∧ nsReserve s n < heldBy s n) && (lowSeg s n).isSome)
  let age (n : Nat) : Nat := match lowSeg s n with | some k => (s.seg k).openEvt | none => 0
  match ok with
  | [] => none
  | n :: ns => some (ns.foldl (fun b x => if age x < age b then x else b) n)

/-- HOLD_RELEASE: units FROM to TO become dead in a LOOP or HOLD namespace; refused with STATE for COURT (R453, R461). -/
def holdRelease (n fromU toU : Nat) (s : State) : ProcRes × State :=
  if 16 ≤ n ∨ toU < fromU then (.range, s)
  else if nsClass s n = 2 then (.state, s)
  else
    let s := setNs n (fun x => { x with released := x.released ++ [(fromU, toU)] }) s
    (.ok, freeDead (logAppend (.release n fromU toU) s))

/-- NS_PURGE: every unit dead, LOW at WP; refused with STATE for COURT (R462). -/
def nsPurge (n : Nat) (s : State) : ProcRes × State :=
  if 16 ≤ n then (.range, s)
  else if nsClass s n = 2 then (.state, s)
  else
    let s := setNs n (fun x => { x with low := x.wp }) s
    (.ok, freeDead (logAppend (.reclaim n (s.nspace n).low) s))

/-! ## Allocation -/

/-- A LUN without a spare is retired: out of new segments, readable, queued for rebuild (R405, R411, R417). -/
def retireLun (n j : Nat) (s : State) : State :=
  if (s.lun n j).st ≠ .active then s
  else
    let s := degrade n (setLun n j (fun l => { l with st := .retired }) s)
    let s := setSticky 98 (41 + n) (n * 256 + j) (s.raise rTWILL_INTSTAT 4)
    markRebuild (segsOn s n (fun x => decide (x = j))) s

/-- The block of a member for an allocation: its own, or a spare in place of a bad one; none retires the LUN
(R404, R405, R487). -/
def memberBlock (k n : Nat) (s : State) : Option Nat × State :=
  let j := lunSetOf s k
  let b := segBlock s k n
  if !(s.lun n j).bad.contains b then (some b, s)
  else
    match (s.lun n j).spares with
    | x :: rest => (some x, setLun n j (fun l => { l with spares := rest }) s)
    | [] => (none, retireLun n j s)

/-- Member blocks of an allocation, with their erases queued (R486). -/
def queueErases (k : Nat) : List Nat → List (Nat × Nat) → State → List (Nat × Nat) × State
  | [], acc, s => (acc, s)
  | n :: ns, acc, s =>
    match memberBlock k n s with
    | (none, s) => queueErases k ns acc s
    | (some b, s) =>
      let op : NandOp := { kind := .erase, lun := lunSetOf s k, seg := k, page := b }
      queueErases k ns (acc ++ [(n, b)]) (setChan n (fun c => { c with ops := c.ops ++ [op] }) s)

/-- Segment `k` allocated to namespace `n`: ALLOCATING with ERASES + 1, its member blocks to be erased (R486). -/
def allocate (n k : Nat) (gc : Bool) (s : State) : State :=
  let j := lunSetOf s k
  let (blk, s) := queueErases k (lunSetMembers s j) [] s
  let s := setSeg k (fun g => { st := .allocating, ns := n, members := blk.map Prod.fst, lunSet := j, erases := g.erases + 1,
                                blk := blk, forGc := gc }) s
  let s := if gc then s else setNs n (fun x => { x with ahead := some k, full := false }) s
  logSeg k s

/-- A namespace may take a segment from the pool: SYSRES segments stay free for the system area (R467). -/
def poolOk (s : State) (n : Nat) : Bool := decide (n = 16) || decide (s.fld rTWILL_GCCFG2 15 0 < freeSegs s)

/-- SEGMENT_ALLOCATION for namespace `n` (16 the system area), or for its garbage-collection copies: reclaims that are due
(R459), QUOTA, the choice (R486), FULL (R496–R500); none while too few members remain (R420), before a geometry record
exists (R366), before the table pages are read (R494), or in the last breath (R515). One is kept ahead (R488). -/
def segAllocate (n : Nat) (gc : Bool) (s : State) : State :=
  if s.media.geo = none ∨ s.jrn.tablesRead = false ∨ s.dying = true ∨ 16 < n ∨ widthOk s = false
      ∨ (gc = false ∧ (s.nspace n).ahead.isSome = true) then s
  else
    let q := nsQuota s n
    let atQuota := q ≠ 0 ∧ q ≤ heldBy s n
    let s := if nsClass s n = 0 ∧ atQuota then reclaim n s else s
    let s := if freeSegs s < s.fld rTWILL_GCCFG2 31 16 then
               (match loopVictim s with | some v => reclaim v s | none => s) else s
    if nsClass s n ≠ 0 ∧ atQuota ∧ gc = false then setFull n s
    else
      let s := if nsClass s n = 0 ∧ (chooseSeg s = none ∨ poolOk s n = false) then reclaim n s else s
      match (if poolOk s n then chooseSeg s else none) with
      | some k => allocate n k gc s
      | none => if gc ∨ n = 16 then s else setFull n s

/-- SEGMENT_ERASE_DONE: every erase of the segment has completed; SEGSTATE ALLOCATED, or FREE again when too few members
are left (R361, R486, R487). -/
def segEraseDone (k : Nat) (s : State) : State :=
  let busy := s.media.ch.any (fun c => c.ops.any (fun o => decide (o.kind = .erase ∧ o.seg = k)))
  if (s.seg k).st ≠ .allocating ∨ busy = true then s
  else if (s.seg k).members.length < minWidth s then
    let n := segNs s k
    let s := setNs n (fun x => { x with ahead := if x.ahead = some k then none else x.ahead }) s
    logSeg k (setSeg k (fun g => { st := .free, lunSet := g.lunSet, erases := g.erases, blk := g.blk }) s)
  else logSeg k (setSeg k (fun g => { g with st := .allocated }) s)

/-- A segment opens: OPENEVT, SEGSTATE; Twill refetches the descriptors of the custodies it serves there (R169). -/
def startSegment (k : Nat) (s : State) : State :=
  let s := logSeg k (setSeg k (fun g => { g with st := .openSeg, openEvt := s.felt.evt }) s)
  let n := segNs s k
  ((List.range 64).filter (fun c => (s.cust c).tDesc.valid && decide ((s.cust c).tDesc.ns = n))).foldl
    (fun s c => refetchTwill c s) s

/-! ## Filling -/

/-- Slots of the open ledger unit in use (R469). -/
def ledgerSlots (l : List Rec) : Nat := (l.map Rec.slots).sum

/-- The records that one ledger unit of 31 slots takes from the front of a list, and the rest. -/
def takeUnit : Nat → List Rec → List Rec × List Rec
  | _, [] => ([], [])
  | room, r :: rs =>
    if r.slots ≤ room then (let (a, b) := takeUnit (room - r.slots) rs; (r :: a, b)) else ([], r :: rs)

/-- The ledger unit is closed: it takes the next unit number (R469, R470). -/
def closeLedger (n : Nat) (s : State) : SlotUse × State :=
  let x := s.nspace n
  let (a, b) := takeUnit 31 x.ledgerUnit
  (.ledger n x.wp a, setNs n (fun x => { x with ledgerUnit := b, wp := x.wp + 1 }) s)

/-- The stripe that a namespace places next, when Twill has encrypted it (R471). -/
def headStripe (s : State) (n : Nat) : Option JStripe :=
  match (s.nspace n).toPlace with
  | [] => none
  | j :: _ => s.jrn.stripes.find? (fun x => decide (x.jsn = j))

/-- A journal stripe changed. -/
def setStripe (jsn : Nat) (f : JStripe → JStripe) (s : State) : State :=
  s.onJrn (fun j => { j with stripes := j.stripes.map (fun x => if x.jsn = jsn then f x else x) })

/-- The next slot of a namespace: units to be placed again, a full ledger unit, the next unit of the head stripe, or a table
page of a running checkpoint (R385, R467, R470, R471). -/
def nextSlot (n : Nat) (s : State) : Option SlotUse × State :=
  match (s.nspace n).redo with
  | u :: rest => (some u, setNs n (fun x => { x with redo := rest }) s)
  | [] =>
    if 31 ≤ ledgerSlots (s.nspace n).ledgerUnit then (let (u, s) := closeLedger n s; (some u, s))
    else
      match headStripe s n with
      | none => (none, s)
      | some j =>
        match j.encrypted, j.unplaced with
        | true, i :: rest =>
          let s := setStripe j.jsn (fun x => { x with unplaced := rest }) s
          let s := if rest.isEmpty then setNs n (fun x => { x with toPlace := x.toPlace.drop 1 }) s else s
          (some (.stripe n (j.unit + i) j.jsn i), s)
        | _, _ => (none, s)

/-- The namespace's open segment: the current one, or the ALLOCATED one ahead, which opens (R488). -/
def currentSeg (n : Nat) (s : State) : Option Nat × State :=
  match (s.nspace n).cur with
  | some k => (some k, s)
  | none =>
    match (s.nspace n).ahead with
    | some k =>
      if (s.seg k).st = .allocated then
        (some k, startSegment k (setNs n (fun x => { x with cur := some k, ahead := none }) s))
      else (none, s)
    | none => (none, s)

/-- Data slots filled while there is something to place and the superpage is not full (R382, R471). -/
def fill (n : Nat) : Nat → State → State
  | 0, s => s
  | fuel + 1, s =>
    match currentSeg n s with
    | (none, s) => s
    | (some k, s) =>
      let f := ((s.nspace n).filling).getD { seg := k, idx := (s.seg k).filled / max 1 (slotsPer s k), firstFill := s.now }
      if slotsPer s k ≤ f.slots.length then s
      else
        match nextSlot n s with
        | (none, s) => s
        | (some u, s) => fill n fuel (setNs n (fun x => { x with filling := some { f with slots := f.slots ++ [u] } }) s)

/-- Placement of a namespace goes on, once the table pages are read and while no last breath runs (R494, R515). -/
def place (n : Nat) (s : State) : State :=
  if s.jrn.tablesRead = false ∨ s.dying = true ∨ s.media.geo = none then s
  else fill n ((slotsPer s ((s.nspace n).cur.getD ((s.nspace n).ahead.getD 0))) + 1) s

/-! ## Programming -/

/-- The programs of one superpage, one per member channel (R379, R380). -/
def queuePrograms (k p : Nat) : List Nat → State → State
  | [], s => s
  | n :: ns, s =>
    let op : NandOp := { kind := .program, lun := (s.seg k).lunSet, seg := k, page := p }
    queuePrograms k p ns (setChan n (fun c => { c with ops := c.ops ++ [op] }) s)

/-- A superpage is formed: padded, its programs queued, FILLED counted; a segment with every superpage formed is CLOSED
(R380–R382). -/
def formPage (f : Superpage) (s : State) : State :=
  let k := f.seg
  let w := slotsPer s k
  let f := { f with slots := f.slots ++ List.replicate (w - f.slots.length) .pad, formedAt := s.now }
  let s := s.onMedia (fun m => { m with superpages := m.superpages ++ [f] })
  let s := queuePrograms k f.idx (s.seg k).members s
  let s := setSeg k (fun g => { g with filled := g.filled + w }) s
  if pagesPerBlock s * w ≤ (s.seg k).filled then
    let n := segNs s k
    let s := setNs n (fun x => { x with cur := if x.cur = some k then none else x.cur }) s
    let s := s.onJrn (fun j => { j with gc := { j.gc with dst := if j.gc.dst = some k then none else j.gc.dst } })
    logSeg k (setSeg k (fun g => { g with st := .closed }) s)
  else s

/-- The superpage being filled leaves the namespace and is formed. -/
def formFilling (n : Nat) (f : Superpage) (s : State) : State :=
  formPage f (setNs n (fun x => { x with filling := none }) s)

/-- SUPERPAGE_PROGRAM: the superpage being filled is full (R382). -/
def superpageProgram (n : Nat) (s : State) : State :=
  match (s.nspace n).filling with
  | some f => if slotsPer s f.seg ≤ f.slots.length ∧ s.dying = false then place n (formFilling n f s) else s
  | none => s

/-- A superpage about to be programmed with a free data slot takes the open ledger unit (R470). -/
def addLedger (n : Nat) (f : Superpage) (s : State) : Superpage × State :=
  if f.slots.length < slotsPer s f.seg ∧ (s.nspace n).ledgerUnit ≠ [] then
    let (u, s) := closeLedger n s
    ({ f with slots := f.slots ++ [u] }, s)
  else (f, s)

/-- FILLMAX_EXPIRY: FILLMAX ms after its first slot the superpage is programmed with padding (R382). -/
def fillmax (n : Nat) (s : State) : State :=
  match (s.nspace n).filling with
  | some f =>
    if f.firstFill + s.fld rTWILL_FILLCFG 15 0 * 1000000 ≤ s.now ∧ s.dying = false then
      let (f, s) := addLedger n f s
      place n (formFilling n f s)
    else s
  | none => s

/-- A superpage's member pages have all passed, and read back where RBVERIFY asks for it (R383). -/
def pagesPassed (s : State) (x : Superpage) : Bool :=
  (s.seg x.seg).members.all (fun n => x.passed.contains n) && (!s.flag rTWILL_MEDCFG 8 || x.verified)

/-- The superpage at an index of a segment that has not been abandoned. -/
def pageAt (s : State) (k p : Nat) : Option Superpage :=
  s.media.superpages.find? (fun x => decide (x.seg = k ∧ x.idx = p) && !x.abandoned)

/-- Safe: its pages have passed and its closer is safe (R379a, R383). -/
def pageSafe (s : State) (k : Nat) : Nat → Nat → Bool
  | 0, _ => false
  | fuel + 1, p =>
    match pageAt s k p with
    | none => false
    | some x => pagesPassed s x && (decide (closerOf s p = p) || pageSafe s k fuel (closerOf s p))

/-- PAIRMAX_EXPIRY: a superpage of the segment has waited PAIRMAX ms for its closer: padding superpages are programmed up to
the closer (R390). -/
def padTo (n k : Nat) : Nat → Nat → State → State
  | 0, _, s => s
  | fuel + 1, target, s =>
    let w := max 1 (slotsPer s k)
    if (s.seg k).st = .openSeg ∧ (s.seg k).filled / w ≤ target then
      let f := match (s.nspace n).filling with
        | some f => if f.seg = k then f else { seg := k, idx := (s.seg k).filled / w, firstFill := s.now }
        | none => { seg := k, idx := (s.seg k).filled / w, firstFill := s.now }
      let (f, s) := addLedger n f s
      let s := setNs n (fun x => { x with filling := (match x.filling with | some g => if g.seg = k then none else some g | none => none) }) s
      padTo n k fuel target (formPage f s)
    else s

/-- PAIRMAX_EXPIRY (R390). -/
def pairmax (k : Nat) (s : State) : State :=
  let late (x : Superpage) : Bool :=
    decide (x.seg = k) && !x.mapped && !x.abandoned && pagesPassed s x && !pageSafe s k (pagesPerBlock s) x.idx
      && decide (x.formedAt + s.fld rTWILL_FILLCFG 31 16 * 1000000 ≤ s.now)
  match s.media.superpages.find? late with
  | some x => if s.dying then s else padTo (segNs s k) k (pagesPerBlock s) (closerOf s x.idx) s
  | none => s

/-! ## Mapping -/

/-- The runs of a superpage: consecutive units of one kind in consecutive slots, as unit, slot, count and the old place of a
copy (R465, R472). -/
def groupRuns : Nat → List SlotUse → List (Nat × Nat × Nat × Option (Nat × Nat))
  | _, [] => []
  | i, u :: us =>
    let rest := groupRuns (i + 1) us
    let join (unit : Nat) (old : Option (Nat × Nat)) : List (Nat × Nat × Nat × Option (Nat × Nat)) :=
      match rest with
      | (v, sl, c, o) :: t =>
        let follows := match old, o with
          | none, none => true
          | some (a, b), some (a', b') => decide (a = a' ∧ b + 1 = b')
          | _, _ => false
        if v = unit + 1 ∧ sl = i + 1 ∧ follows = true ∧ c < 4096 then (unit, i, c + 1, old) :: t else (unit, i, 1, old) :: rest
      | [] => [(unit, i, 1, old)]
    match u with
    | .stripe _ unit _ _ => join unit none
    | .ledger _ unit _ => join unit none
    | .copy _ unit a b => join unit (some (a, b))
    | .table | .pad => rest

/-- REASON of a copy's MAPDELTA: GC, REBUILD or REFRESH by the source's marks (R477, R479). -/
def copyReason (s : State) (src : Nat) : Nat := if (s.seg src).rebuild then 3 else if (s.seg src).refresh then 4 else 2

/-- One run mapped, with its MAPDELTA (R472, R479). -/
def mapRun (n k base : Nat) (r : Nat × Nat × Nat × Option (Nat × Nat)) (s : State) : State :=
  let (unit, sl, c, old) := r
  let reason := match old with | none => 1 | some (a, _) => copyReason s a
  let (oa, ob) := old.getD (0xFFFFFFFF, 0xFFFFFFFF)
  let s := logAppend (.mapdelta n reason c unit k (base + sl) oa ob) s
  setNs n (fun x => { x with runs := remap { unit := unit, seg := k, slot := base + sl, count := c } x.runs }) s

/-- Copies whose unit has died since, or has been mapped elsewhere, are left out (R482). -/
def stillLive (s : State) (u : SlotUse) : SlotUse :=
  match u with
  | .copy n unit a b =>
    if (s.nspace n).live unit && decide ((s.nspace n).runOf unit |>.any (fun r => decide (r.seg = a ∧ r.slot + (unit - r.unit) = b)))
    then u else .pad
  | _ => u

/-- FRELEASE entries for tiles, consecutive ones in one entry (R435, R472). -/
def tileRuns : List Nat → List (Nat × Nat)
  | [] => []
  | k :: ks =>
    match tileRuns ks with
    | (f, c) :: t => if f = k + 1 then (k, c + 1) :: t else (k, 1) :: (f, c) :: t
    | [] => [(k, 1)]

/-- Tiles freed, with their entries. -/
def freeTiles (l : List Nat) (s : State) : State :=
  let s := (tileRuns l).foldl (fun s r => logAppend (.frelease r.1 r.2) s) s
  s.onJrn (fun j => { j with tiles := l.foldl (fun t k => upd t k (fun _ => .free)) j.tiles })

/-- The tiles that the mapped units of a superpage release, and what the mapped units hold. -/
def releasedTiles (s : State) (l : List SlotUse) : List Nat :=
  l.flatMap (fun u => match u with
    | .stripe _ _ jsn idx => ((s.jrn.stripes.filter (fun j => decide (j.jsn = jsn))).map (fun j => j.tiles.getD idx 0))
    | _ => [])

/-- What a mapped slot stores: ciphertext of the unit, or the unit's records behind a 128-byte header (R372, R469). -/
def storeUnit (u : SlotUse) (s : State) : State :=
  match u with
  | .stripe n unit jsn idx =>
    match s.jrn.stripes.find? (fun j => decide (j.jsn = jsn)) with
    | some j =>
      let s := setNs n (fun x => { x with stored := x.stored.filter (fun e => decide (e.1 ≠ unit)) ++ [(unit, unitBytes j.cipher idx)] }) s
      setStripe jsn (fun x => { x with unmapped := x.unmapped.filter (· ≠ idx) }) s
    | none => s
  | .ledger n unit recs =>
    let s := setNs n (fun x => { x with stored := x.stored ++ [(unit, fit 4096 (zeros 128 ++ (recs.map Rec.bytes).flatten))] }) s
    s.onJrn (fun j => { j with log := j.log.map (fun e => match e.body with
      | .ledger _ _ r => if recs.any (fun q => decide (q.cust = r.cust ∧ q.seq = r.seq)) then { e with placed := true } else e
      | _ => e) })
  | .table => s.onJrn (fun j => { j with ckPages := j.ckPages - 1 })
  | _ => s

/-- Stripes whose every unit is mapped leave the journal (R41, R386, R473). -/
def dropStripes (s : State) : State := s.onJrn (fun j => { j with stripes := j.stripes.filter (fun x => !x.unmapped.isEmpty) })

/-- A safe superpage: the MAPDELTA of each run, then FRELEASE for the tiles (R472, R473); dead sources become FREE
(R479). -/
def mapPage (x : Superpage) (s : State) : State :=
  let k := x.seg
  let n := segNs s k
  let slots := x.slots.map (stillLive s)
  let s := (groupRuns 0 slots).foldl (fun s r => mapRun n k (x.idx * slotsPer s k) r s) s
  let tiles := releasedTiles s slots
  let s := slots.foldl (fun s u => storeUnit u s) s
  let s := s.onMedia (fun m => { m with superpages := m.superpages.map (fun y => if y.seg = k ∧ y.idx = x.idx ∧ y.abandoned = false then { y with mapped := true } else y) })
  let s := if tiles.isEmpty then s else freeTiles tiles s
  let s := retryLoad (relax (dropStripes s))
  match s.jrn.gc.src with
  | some g =>
    if slots.any (fun u => match u with | .copy .. => true | _ => false) ∧ segValid s g = 0 then
      (freeSeg g s).raise rTWILL_JINTSTAT 4 else s
  | none => s

/-- A copy superpage's verification: rung 1 with no more than VBITS corrected bits, else it is abandoned (R479, R480). -/
def copyOk (s : State) (x : Superpage) : Bool :=
  !(x.slots.any (fun u => match u with | .copy .. => true | _ => false))
    || (x.verified && decide (x.worst ≤ s.fld rTWILL_GCCFG 15 8))

/-- Every superpage of a segment that has become safe is mapped, lowest index first; none from the last breath on
(R383, R472, R515). -/
def settle (k : Nat) (s : State) : State :=
  if s.dying then s
  else
    (s.media.superpages.filter (fun x => decide (x.seg = k))).foldl (fun s x =>
      if !x.mapped && !x.abandoned && pageSafe s k (pagesPerBlock s) x.idx then
        (if copyOk s x then mapPage x s else abandonPage k x.idx s)
      else s) s

/-! ## Lost units -/

/-- The STRIPE records of a custody that hold a unit of a namespace: SEQ, FIRSTPOS, LASTPOS. -/
def stripesAt (s : State) (c ns u : Nat) : List (Nat × Pos × Pos) :=
  (s.chain c).recs.filterMap (fun r => match r.body with
    | .stripe first last offset n _ len _ _ _ _ =>
      let u0 := unitOfOffset (s.nspace ns) offset
      if n = ns ∧ u0 ≤ u ∧ u < u0 + (len + 4095) / 4096 then some (r.seq, first, last) else none
    | _ => none)

/-- GAP CHANNEL in each custody whose stripe is lost (R188, R191, R418). -/
def gapChannel (ns u : Nat) (s : State) : State :=
  (List.range 64).foldl (fun s c =>
    (stripesAt s c ns u).foldl (fun s e => writeGap c gapCHANNEL 0 e.2.1 e.2.2 e.1 e.1 s) s) s

/-- Rung 4 failed: the unit is LOST, counted, logged, reported (R418, R419, R481). -/
def loseUnit (ns u : Nat) (s : State) : State :=
  if (s.nspace ns).lost.contains u then s
  else
    let s := logAppend (.lost ns u) (setNs ns (fun x => { x with lost := x.lost ++ [u] }) s)
    let s := s.onMedia (fun m => { m with lostCnt := m.lostCnt + 1 })
    gapChannel ns u (setSticky 102 40 ns (s.raise rTWILL_INTSTAT 2))

/-! ## Read jobs -/

/-- A job changed. -/
def setJob (id : Nat) (f : ReadJob → ReadJob) (s : State) : State :=
  s.onMedia (fun m => { m with jobs := m.jobs.map (fun j => if j.id = id then f j else j) })

/-- A unit of an export read job is delivered, rebuilt, or LOST; the last one latches the job's completion (R425). -/
def jobUnit (id : Nat) (rebuilt lost : Bool) (s : State) : State :=
  let s := setJob id (fun j => if j.aborted then j else
    { j with left := j.left - 1, rebuilt := j.rebuilt || rebuilt, lostAny := j.lostAny || lost, done := decide (j.left ≤ 1) }) s
  if s.media.jobs.any (fun j => decide (j.id = id) && j.done) then s.raise rTWILL_INTSTAT 7 else s

/-- READ_JOB_END: the job's references go; segments they held may become FREE (R485). -/
def readJobEnd (id : Nat) (s : State) : State :=
  freeDead (s.onMedia (fun m => { m with jobs := m.jobs.filter (fun j => decide (j.id ≠ id)) }))

/-- RDABORT of an export read job (R425, R426): LATE when its completion was latched at or before the sampling edge (`tie`
says that it is latched on that edge), ABORTED, or NOTFOUND. -/
def rdAbort (id : Nat) (tie : Bool) (s : State) : State :=
  let stat (n : Nat) (s : State) : State := s.onMedia (fun m => { m with rdAbortStat := n })
  match s.media.jobs.find? (fun j => decide (j.id = id) && !j.aborted) with
  | none => stat 3 s
  | some j =>
    if j.done || tie then stat 1 (setJob id (fun j => { j with done := true }) s)
    else
      let mine (o : NandOp) : Bool := match o.serves with | .export_ i _ _ => decide (i = id) && !o.issued | _ => false
      let s := s.onMedia (fun m => { m with ch := m.ch.map (fun c => { c with ops := c.ops.filter (fun o => !mine o) }) })
      stat 2 (setJob id (fun j => { j with aborted := true }) s)

/-- The channel that holds data slot `sl` of segment `k` (R380). -/
def slotChan (s : State) (k sl : Nat) : Nat :=
  let w := max 1 (slotsPer s k)
  let m := (s.seg k).members
  let parity := m.getD (sl / w % max 1 m.length) 0
  (m.filter (· ≠ parity)).getD (sl % w / max 1 (codewords s)) 0

/-- A read of a data slot queued; on a parked unit it goes straight to rung 4 on another member (R416). -/
def queueRead (k sl : Nat) (what : ReadFor) (s : State) : State :=
  let n := slotChan s k sl
  let j := (s.seg k).lunSet
  let op : NandOp := { kind := .read, lun := j, seg := k, page := sl / max 1 (slotsPer s k), serves := what }
  let usable := chanUp s n && (match (s.lun n j).st with | .active | .retired => true | _ => false)
  if usable then setChan n (fun c => { c with ops := c.ops ++ [op] }) s
  else requeueReads [{ op with rebuild := true }] s

/-- An export read job starts: its live units on NAND are read; the segments it needs are referenced (R485). -/
def startReadJob (id : Nat) (units : List (Nat × Nat)) (s : State) : State :=
  let places := units.filterMap (fun (n, u) => match resolveUnit s n u with | .at_ k sl => some (n, u, k, sl) | _ => none)
  let job : ReadJob := { id := id, segs := (places.map (fun p => p.2.2.1)).eraseDups, left := places.length, done := places.isEmpty }
  let s := s.onMedia (fun m => { m with jobs := m.jobs.filter (fun j => decide (j.id ≠ id)) ++ [job] })
  places.foldl (fun s p => queueRead p.2.2.1 p.2.2.2 (.export_ id p.1 p.2.1) s) s

/-! ## Garbage collection -/

/-- A CLOSED segment that garbage collection selects (R475). -/
def gcWants (s : State) (k : Nat) : Bool :=
  let g := s.seg k
  decide (g.st = .closed) && (g.refresh || g.rebuild || g.wlcold
    || ((decide (nsClass s g.ns = 1) || decide (g.ns = 16))
        && decide (segValid s k * 100 < s.fld rTWILL_GCCFG 31 24 * g.filled)))

/-- Sources are taken in the order REBUILD, REFRESH, lowest VALID, WLCOLD (R477). -/
def gcRank (s : State) (k : Nat) : Nat × Nat :=
  let g := s.seg k
  if g.rebuild then (0, 0) else if g.refresh then (1, 0) else if g.wlcold then (3, 0) else (2, segValid s k)

/-- The source to collect next (R477). -/
def gcSelect (s : State) : Option Nat :=
  match (s.jrn.segs.map Prod.fst).filter (gcWants s) with
  | [] => none
  | k :: ks => some (ks.foldl (fun b x =>
      let (a1, a2) := gcRank s x; let (b1, b2) := gcRank s b
      if a1 < b1 ∨ (a1 = b1 ∧ a2 < b2) then x else b) k)

/-- WLCOLD on the segment with the lowest ERASES when the spread is beyond WLDELTA (R476). -/
def markCold (s : State) : State :=
  let l := s.jrn.segs.filter (fun (_, g) => decide (g.st ≠ .unusable))
  let er := l.map (fun e => e.2.erases)
  let lo := if l.length < s.media.segCount then 0 else er.foldl min (er.headD 0)
  let hi := er.foldl max 0
  if hi - lo ≤ (s.rd rTWILL_WLDELTA).toNat then s
  else
    match l.find? (fun e => decide (e.2.erases = lo ∧ e.2.st = .closed) && !e.2.wlcold) with
    | some (k, _) => logSeg k (setSeg k (fun g => { g with wlcold := true }) s)
    | none => s

/-- Units of the source that wait in a destination superpage. -/
def copying (s : State) (src : Nat) : List Nat :=
  (s.media.superpages.filter (fun x => !x.mapped && !x.abandoned)).flatMap (fun x =>
    x.slots.filterMap (fun u => match u with | .copy _ unit a _ => if a = src then some unit else none | _ => none))

/-- The destination: the one in use, or an ALLOCATED segment for copies of the namespace, which opens (R478). -/
def gcDest (n : Nat) (s : State) : Option Nat × State :=
  match s.jrn.gc.dst with
  | some k => if segNs s k = n then (some k, s) else (none, s)
  | none =>
    match (s.jrn.segs.find? (fun (_, g) => decide (g.st = .allocated ∧ g.ns = n) && g.forGc)).map Prod.fst with
    | some k =>
      let s := logSeg k (setSeg k (fun g => { g with st := .openSeg, openEvt := s.felt.evt }) s)
      (some k, s.onJrn (fun j => { j with gc := { j.gc with dst := some k } }))
    | none => (none, s)

/-- Copies run outside windows while free segments are short (R483). -/
def gcUrgent (s : State) : Bool := decide (freeSegs s < s.fld rTWILL_GCCFG 7 0)

/-- The next batch of live units of a source: as many as a destination superpage holds. -/
def gcBatch (n src dst : Nat) (s : State) : State :=
  let busy := copying s src
  let todo := ((liveIn s src).filter (fun e => !busy.contains e.1)).take (slotsPer s dst)
  let s := s.onJrn (fun j => { j with gc := { j.gc with reading := todo.map (fun e => (n, e.1, e.2)), got := [] } })
  todo.foldl (fun s e => queueRead src e.2 (.gc n e.1 e.2) s) s

/-- GC_COPY: a source is selected and flagged, a destination taken, and the next live units are read (R475–R479, R483, R494,
R515). A source with no live unit is freed. -/
def gcCopy (s : State) : State :=
  if s.dying = true ∨ s.jrn.tablesRead = false ∨ (gcMay s = false ∧ gcUrgent s = false)
      ∨ s.jrn.gc.reading ≠ [] ∨ s.jrn.gc.got ≠ [] then s
  else
    let s := markCold s
    match (match s.jrn.gc.src with | some k => some k | none => gcSelect s) with
    | none => s.onJrn (fun j => { j with gc := { j.gc with st := .idle } })
    | some src =>
      let s := if (s.seg src).gcsrc then s else logSeg src (setSeg src (fun g => { g with gcsrc := true }) s)
      let st : GcSt := if gcMay s then .copy else .urgent
      let s := s.onJrn (fun j => { j with gc := { j.gc with src := some src, st := st } })
      if segValid s src = 0 then freeSeg src s
      else
        match gcDest (segNs s src) s with
        | (none, s) => s
        | (some dst, s) => gcBatch (segNs s src) src dst s

/-- A copied unit has been read, or is LOST; after the batch's last one the destination superpage is formed
(R479, R481). -/
def gcRead (n u sl : Nat) (lost : Bool) (s : State) : State :=
  let src := s.jrn.gc.src.getD 0
  let got := if lost then s.jrn.gc.got else s.jrn.gc.got ++ [.copy n u src sl]
  let left := s.jrn.gc.reading.filter (fun e => decide (e ≠ (n, u, sl)))
  let s := s.onJrn (fun j => { j with gc := { j.gc with reading := left, got := got } })
  if left ≠ [] then s
  else
    let s := s.onJrn (fun j => { j with gc := { j.gc with got := [], st := .verify } })
    match s.jrn.gc.dst with
    | some k =>
      if got = [] then freeSeg src s
      else formPage { seg := k, idx := (s.seg k).filled / max 1 (slotsPer s k), slots := got, firstFill := s.now } s
    | none => s

/-! ## NAND operations -/

/-- NAND_OPERATION_ISSUE: the channel's next queued operation on an idle LUN; changed offsets are sent first (R355, R391).
None is issued from the last breath on (R515). A draining channel issues nothing until its operations have ended and RB_N
is high (R408). -/
def nandIssue (n : Nat) (rbHigh : Bool) (s : State) : State :=
  let s := setChan n (fun c => { c with rbLow := !rbHigh }) s
  let c := s.chan n
  if !chanUp s n || s.dying then s
  else if c.draining then
    (if rbHigh && !c.ops.any (fun o => o.issued) then setChan n (fun c => { c with draining := false }) s else s)
  else
    let free (o : NandOp) : Bool := !o.issued && !c.ops.any (fun q => q.issued && decide (q.lun = o.lun))
    match c.ops.findIdx? free with
    | none => s
    | some i =>
      let o := nth c.ops i
      let s := setLun n o.lun (fun l => { l with sent := l.offsets }) s
      setChan n (fun c => { c with ops := upd c.ops i (fun o => { o with issued := true }) }) s

/-- The rung at which a read stops (R376, R377, R416), 5 for LOST. -/
def rungOf (s : State) (o : NandOp) (hard : Option (Nat × Nat)) (retry : Option (Nat × Nat)) (soft : Option Nat)
    (rebuilt : Bool) : Nat :=
  if !o.rebuild && hard.isSome then 1
  else if !o.rebuild && (retry.any (fun r => decide (1 ≤ r.1 ∧ r.1 ≤ s.fld rTWILL_SOFTCFG 12 8))) then 2
  else if !o.rebuild && s.flag rTWILL_SOFTCFG 16 && soft.isSome then 3
  else if rebuilt then 4 else 5

/-- The counters of a read (table *Channel registers*), its hint step (R376), level tracking (R392) and refresh marks
(R400). -/
def readEffects (n : Nat) (o : NandOp) (hard retry : Option (Nat × Nat)) (soft : Option Nat) (rung : Nat) (s : State) : State :=
  let s := s.add64 (rTWILL_READS_LO n) (rTWILL_READS_HI n) 1
  let bitsOf := if rung = 1 then (match hard with | some (a, b) => a + b | none => 0)
                else if rung = 2 then (match retry with | some (_, b) => b | none => 0)
                else if rung = 3 then soft.getD 0 else 0
  let s := s.add64 (rTWILL_CORRBITS_LO n) (rTWILL_CORRBITS_HI n) bitsOf
  let s := if rung = 2 then s.addSat (rTWILL_RETRIES n) 1 else if rung = 3 then s.addSat (rTWILL_SOFTS n) 1
           else if rung = 4 then s.addSat (rTWILL_REBUILDS n) 1 else if rung = 5 then s.addSat (rTWILL_UNCORR n) 1 else s
  let s := match rung, hard with | 1, some (a, b) => track n o.lun (pageType s o.page) a b s | _, _ => s
  let s := match rung, retry with | 2, some (st, _) => setLun n o.lun (fun l => { l with hint := st }) s | _, _ => s
  let blk := segBlock s o.seg n
  let cnt := (((s.lun n o.lun).blockReads.lookup blk).getD 0) + 1
  let s := setLun n o.lun (fun l => { l with blockReads := sinsert (serase l.blockReads blk) blk cnt }) s
  if s.fld rTWILL_SCRUBCFG 23 16 < bitsOf ∨ 2 ≤ rung ∨ s.fld rTWILL_RDLIMIT 15 0 * 1000 < cnt then markRefresh o.seg s else s

/-- What a completed read serves. -/
def readServes (o : NandOp) (rung : Nat) (s : State) : State :=
  match o.serves with
  | .scrub => s
  | .gc ns u sl => gcRead ns u sl (decide (rung = 5)) (if rung = 5 then loseUnit ns u s else s)
  | .export_ id ns u => jobUnit id (decide (rung = 4)) (decide (rung = 5)) (if rung = 5 then loseUnit ns u s else s)

/-- A block is grown bad: BADBLK, OPFAIL, LASTERR (R404). -/
def growBad (n : Nat) (o : NandOp) (b code : Nat) (s : State) : State :=
  let s := setLun n o.lun (fun l => { l with bad := if l.bad.contains b then l.bad else l.bad ++ [b] }) s
  let s := logAppend (.badblk n o.lun b) s
  let s := (s.addSat (rTWILL_OPFAILS n) 1).raise (rTWILL_CHINTSTAT n) 0
  lastErr n code o.kind.op o.lun s

/-- An erase that fails: a spare is erased in its place, or the member is left out (R487). -/
def eraseFail (n : Nat) (o : NandOp) (s : State) : State :=
  let s := growBad n o o.page 2 s
  match (s.lun n o.lun).spares with
  | x :: rest =>
    let s := setLun n o.lun (fun l => { l with spares := rest }) s
    let s := setSeg o.seg (fun g => { g with blk := sinsert (serase g.blk n) n x }) s
    setChan n (fun c => { c with ops := c.ops ++ [{ o with page := x, issued := false, overdue := false }] }) s
  | [] =>
    let s := setSeg o.seg (fun g => { g with members := g.members.filter (· ≠ n), blk := serase g.blk n }) s
    retireLun n o.lun s

/-- A program that passed: the member's page, with its read-back (R383). -/
def pagePassed (n : Nat) (o : NandOp) (rb : Option Nat) (s : State) : State :=
  let f (x : Superpage) : Superpage :=
    if x.seg = o.seg ∧ x.idx = o.page ∧ x.abandoned = false then
      { x with passed := x.passed ++ [n], verified := x.verified && rb.isSome, worst := max x.worst (rb.getD 0) } else x
  let s := s.onMedia (fun m => { m with superpages := m.superpages.map f })
  let s := s.add64 (rTWILL_PROGS_LO n) (rTWILL_PROGS_HI n) 1
  settle o.seg (if rb.isNone && s.flag rTWILL_MEDCFG 8 then abandonPage o.seg o.page s else s)

/-- NAND_OPERATION_DONE: the issued operation of a LUN ends; `badLane` is a decoder lane whose success failed the syndrome
checker on the way, and parks (R359, R376, R383–R385, R421). -/
def nandDone (n j : Nat) (res : NandRes) (badLane : Option Nat) (s : State) : State :=
  match (s.chan n).ops.findIdx? (fun o => o.issued && decide (o.lun = j)) with
  | none => s
  | some i =>
    let o := nth (s.chan n).ops i
    let s := setChan n (fun c => { c with ops := c.ops.eraseIdx i }) s
    let s := match badLane with | some l => parkLdpc (l % 16) s | none => s
    match o.kind, res with
    | .program, .pass rb => pagePassed n o rb s
    | .program, .fail => abandonPage o.seg o.page (growBad n o (segBlock s o.seg n) 1 s)
    | .erase, .pass _ =>
      let s := setLun n j (fun l => { l with blockReads := serase l.blockReads o.page }) s
      s.add64 (rTWILL_ERASES_LO n) (rTWILL_ERASES_HI n) 1
    | .erase, .fail => eraseFail n o s
    | .read, .read hard retry soft rebuilt =>
      let rung := rungOf s o hard retry soft rebuilt
      readServes o rung (readEffects n o hard retry soft rung s)
    | .read, _ => readServes o 5 (readEffects n o none none none 5 s)
    | _, _ => s

/-- SCRUB_PATROL: every PATROLH hours, in a GC window, one codeword of each segment is read; segments whose oldest data is
beyond AGEDAYS are marked (R400, R401). -/
def scrubPatrol (s : State) : State :=
  let due := s.media.patrolEvt + s.fld rTWILL_SCRUBCFG 31 24 * 3600 * 2 ^ 24
  if s.dying || !gcWindow s || decide (s.felt.evt < due) then s
  else
    let s := s.onMedia (fun m => { m with patrolEvt := s.felt.evt })
    let l := (s.jrn.segs.filter (fun (_, g) => decide (g.filled ≠ 0 ∧ (g.st = .closed ∨ g.st = .openSeg)))).map Prod.fst
    l.foldl (fun s k =>
      let old := (s.seg k).openEvt + s.fld rTWILL_SCRUBCFG 15 0 * 86400 * 2 ^ 24
      let s := if old < s.felt.evt then markRefresh k s else s
      queueRead k 0 .scrub s) s

/-! ## Stripe encryption -/

/-- The data units of a stripe, padded with zeros to a multiple of 16, under the tweak of R278 (R277–R279). -/
def encryptStripe (key : Bytes) (j : JStripe) : Bytes :=
  let plain := j.data ++ zeros ((16 - j.data.length % 16) % 16)
  let tweak := (j.unit % 2 ^ 36) + j.ns * 2 ^ 48 + j.cust * 2 ^ 56
  xtsUnits true key 4096 ((plain.length + 4095) / 4096) tweak plain

/-- The key that encrypts a stripe: the bank of its KEYVER, or context 79 for KEYVER 0 (R272–R274). -/
def stripeKey (s : State) (j : JStripe) : Option Bytes :=
  if j.keyver = 0 then (let g := s.gctx 79; if g.ktype = 0 then none else some g.key)
  else if (s.bank j.cust false).ver = some j.keyver then some (s.bank j.cust false).key
  else if (s.bank j.cust true).ver = some j.keyver then some (s.bank j.cust true).key
  else none

/-- STRIPE_ENCRYPT: a sealed stripe is encrypted and placed, or waits for its key (R272–R274, R277–R279). -/
def stripeEncrypt (jsn : Nat) (s : State) : State :=
  match s.jrn.stripes.find? (fun j => decide (j.jsn = jsn) && !j.encrypted) with
  | none => s
  | some j =>
    let flag (w : Bool) (s : State) : State := s.onCtx (fun x => { x with waiting := upd x.waiting j.cust (fun _ => w) })
    match stripeKey s j with
    | none => flag true s
    | some key =>
      let s := if j.keyver = 0 then
          setSticky 69 35 j.cust (s.onCtx (fun x => { x with fallback := upd x.fallback j.cust (fun _ => true) })) else s
      let s := setStripe jsn (fun x => { x with encrypted := true, cipher := encryptStripe key x }) s
      place j.ns (flag (s.jrn.stripes.any (fun x => decide (x.cust = j.cust ∧ x.jsn ≠ jsn) && !x.encrypted
        && (stripeKey s x).isNone)) s)

end Sys2Proof.Machine
end

