-- ==== Sys2Proof/Machine/Journal.lean ====
section
/-!
DEFINITION. Twill's journal side (R427–R452, R490–R495): checkpoints, TIMECK, MRAM scrub, magnetic field, namespace
settings, replay.
-/

namespace Sys2Proof.Machine

/-! ## Checkpoints -/

/-- The tile bitmap: bit k set when tile k is free (table *Checkpoint slot contents*). -/
def bitmapBytes : List TileSt → Nat → Bytes
  | _, 0 => []
  | l, n + 1 =>
    let b := ((List.range 8).filter (fun i => decide (l.getD i .taken = .free))).foldl (fun m i => m + 2 ^ i) 0
    BitVec.ofNat 8 b :: bitmapBytes (l.drop 8) n

/-- The bytes of a checkpoint slot before its CRC. The namespace table's entries and the root's NAND addresses have no
layout in the spec: free bytes (notes/assumptions/35.md). -/
def ckImage (s : State) : Bytes :=
  let chains := (List.range 65).flatMap (fun c => fit 32 (s.chain c).head ++ le 8 (s.chain c).seq)
  [0x54, 0x5A, 0x43, 0x4B, 0x50, 0x54, 0x30, 0x31] ++ le 8 s.jrn.lsn ++ le 8 s.jrn.jsn ++ s.jrn.topPos.bytes ++ zeros 32
    ++ chains ++ bitmapBytes s.jrn.tiles 224 ++ freeBytes s.freeCtr (1024 + 8 + 65536) ++ zeros 12460

/-- Table pages changed since the last checkpoint; one page stands for all of them, and none is written while no medium can
take it (R466; notes/assumptions/36.md). -/
def dirtyPages (s : State) : Nat :=
  if s.media.geo = none ∨ s.jrn.tablesRead = false then 0
  else if s.jrn.log.any (fun e => decide (s.jrn.ckLsn ≤ e.lsn) && (match e.body with
      | .mapdelta .. | .segstate .. | .reclaim .. | .release .. | .lost .. => true
      | _ => false)) then 1
  else 0

/-- Open ledger units closed and placed while the log runs low, so that its tail can advance (R440, R470;
notes/assumptions/36.md). -/
def closeUnits (s : State) : State :=
  (List.range 17).foldl (fun s n =>
    if (s.nspace n).ledgerUnit = [] then s
    else
      let (u, s) := closeLedger n s
      place n (setNs n (fun x => { x with redo := x.redo ++ [u] }) s)) s

/-- A checkpoint starts: CKLSN is the next LSN, the snapshot is taken, the dirty table pages go to the system area (table
*Checkpoint, from its start*). -/
def ckStart (s : State) : State :=
  let s := if s.jrn.logFree < logLow s ∧ s.media.geo ≠ none then closeUnits s else s
  let n := dirtyPages s
  let img := ckImage s
  let s := { s with freeCtr := s.freeCtr + (1024 + 8 + 65536) }
  let s := s.onJrn (fun j => { j with ckRunning := some j.lsn, ckPages := n, ckImage := img })
  place 16 (setNs 16 (fun x => { x with redo := x.redo ++ List.replicate n .table }) s)

/-- A request for a checkpoint: merged into one that runs, and counted (R443). None starts from the fall of PFAIL_N on
(R523). -/
def ckRequest (s : State) : State :=
  if s.dying then s
  else if s.jrn.ckRunning.isSome then s.onJrn (fun j => { j with ckMerge := satInc 16 j.ckMerge })
  else ckStart s

/-- CHECKPOINT_START: low log space or AUTOPCT occupancy (R441, R443). -/
def ckAuto (s : State) : State :=
  if s.jrn.logFree < logLow s ∨ s.fld rTWILL_JCTRL 23 16 * logSize < s.jrn.logUsed * 100 then ckRequest s else s

/-- The log tail advances past entries that a checkpoint covers; a LEDGER entry needs its ledger unit placed as well
(R440). -/
def dropLog (cklsn : Nat) : List LogEntry → List LogEntry
  | [] => []
  | e :: t => if e.lsn < cklsn ∧ e.placed = true then dropLog cklsn t else e :: t

/-- CHECKPOINT_DONE: the table pages are safe; the alternate slot is written, ending with its CRC; the CKPT entry; the tail
(R440, R444). -/
def ckDone (s : State) : State :=
  match s.jrn.ckRunning with
  | none => s
  | some l =>
    if s.dying = true ∨ s.jrn.ckPages ≠ 0 then s
    else
      let b := !s.jrn.ckSlot
      let base := if b then 0x307D4000 else 0x307C0000
      let img := s.jrn.ckImage
      let s := s.store base (img ++ le 4 (crc32c img).toNat)
      let s := logAppend (.ckpt b.toNat l) s
      let s := s.onJrn (fun j => { j with ckRunning := none, ckSlot := b, ckLsn := l, ckImage := [], log := dropLog l j.log })
      let s := (s.addSat rTWILL_CKCNT 1).raise rTWILL_JINTSTAT 0
      logRetry (logLevels s)

/-! ## Periodic work -/

/-- A TIMECK entry now (R439). -/
def timeckNow (s : State) : State :=
  let s := logAppend (.timeck s.felt.evt s.felt.mono) s
  s.onJrn (fun j => { j with timeckEvt := s.felt.evt, timeckMono := s.felt.mono })

/-- TIMECK: once per second of EVT (R439). -/
def timeck (s : State) : State :=
  if s.dying = false ∧ s.jrn.timeckEvt / 2 ^ 24 < s.felt.evt / 2 ^ 24 then timeckNow s else s

/-- Corrected MRAM words counted (R428). -/
def mramCorr (n : Nat) (s : State) : State := s.setFld rTWILL_JERR 31 16 (satAdd 16 (s.fld rTWILL_JERR 31 16) n)

/-- MRAM_SCRUB: every SCRUBD days the configuration area and the checkpoint slots are read, and corrected words written
back (R428, R448). -/
def mramScrub (corrected : Nat) (s : State) : State :=
  if s.felt.evt < s.jrn.scrubEvt + s.fld rTWILL_JCTRL 31 24 * 86400 * 2 ^ 24 then s
  else mramCorr corrected (s.onJrn (fun j => { j with scrubEvt := s.felt.evt }))

/-- FIELD_SENSOR_ASSERT: above 20 mT journal writes are read back; MAGHI (R450). -/
def fieldOn (s : State) : State := (s.onJrn (fun j => { j with field := true })).raise rTWILL_JINTSTAT 5

/-- Damage found in the journal: STK_JCORRUPT (R452, R491). -/
def jcorrupt (s : State) : State := setSticky 105 49 0 (s.raise rTWILL_JINTSTAT 3)

/-- FIELD_SENSOR_DEASSERT: every live journal structure is read once, corrected words written back; a tile whose DCRC fails
is still placed; a checkpoint starts (R451, R452). -/
def fieldOff (corrected : Nat) (badTile : Bool) (s : State) : State :=
  if !s.jrn.field then s
  else
    let s := mramCorr corrected (s.onJrn (fun j => { j with field := false }))
    ckRequest (if badTile then jcorrupt s else s)

/-- TABLE_PAGES_READ: the table pages are in the buffer, and placement begins (R494). -/
def tablesRead (s : State) : State :=
  if s.jrn.replaying ∨ anyReady s = false then s
  else
    let s := s.onJrn (fun j => { j with tablesRead := true })
    (List.range 17).foldl (fun s n => place n s) s

/-! ## Namespace settings -/

/-- A write of NSCFG is refused with STATE when it clears EN while segments are held, or moves CLASS other than LOOP to
HOLD, HOLD to COURT or LOOP to COURT (R454, R463). -/
def nsCfgOk (s : State) (n : Nat) (v : Word) : Bool :=
  let old := s.rd (rTWILL_NSCFG n)
  let c := bits old 25 24
  let d := bits v 25 24
  (bit v 31 || !bit old 31 || decide (heldBy s n = 0)) && decide (c = d ∨ (c = 0 ∧ (d = 1 ∨ d = 2)) ∨ (c = 1 ∧ d = 2))

/-- The NSCFG entry of a namespace's settings. -/
def logNs (n : Nat) (s : State) : State :=
  let v := s.rd (rTWILL_NSCFG n)
  logAppend (.nscfg n (bits v 25 24) (bit v 31).toNat (nsReserve s n) (bits v 23 0)) s

/-- A write of NSCFG (R453, R454, R463): CLASS 3 is reserved (R19). -/
def nsCfgWrite (n : Nat) (v : Word) (s : State) : State :=
  if nsCfgOk s n v then
    let v := if bits v 25 24 = 3 then setBits v 25 24 (s.fld (rTWILL_NSCFG n) 25 24) else v
    updateFull (logNs n (s.wr (rTWILL_NSCFG n) (v &&& 0x83FFFFFF#32)))
  else s

/-- A write of NSRES. -/
def nsResWrite (n : Nat) (v : Word) (s : State) : State := updateFull (logNs n (s.setFld (rTWILL_NSRES n) 23 0 v.toNat))

/-! ## Replay -/

/-- Segments at replay: OPEN ones CLOSED with ORPHANS, ALLOCATING ones FREE (R490). -/
def replaySeg (g : Seg) : Seg :=
  match g.st with
  | .openSeg => { g with st := .closed, orphans := true }
  | .allocating => { st := .free, lunSet := g.lunSet, erases := g.erases, blk := g.blk }
  | _ => g

/-- A tile at replay: live when sealed, free otherwise (R492). -/
def replayTile (t : TileSt) : TileSt := match t with | .sealed => .sealed | _ => .free

/-- Replay at a full reset (R490–R493, R495): what the log and the checkpoint hold stays; unsealed tiles are free, unmapped
superpages are orphans, live stripes are placed again in JSN order. `torn` entries were skipped; the duration goes to
REPLAYUS. -/
def replay (torn us : Nat) (s : State) : State :=
  let ns (r : Rec) : Nat := chainNs s r.cust
  let j0 : Journal := s.jrn
  let stripes : List JStripe := j0.stripes.map (fun (x : JStripe) => { x with encrypted := false, cipher := [], unplaced := x.unmapped })
  let segs : List (Nat × Seg) := j0.segs.map (fun (e : Nat × Seg) => (e.1, replaySeg e.2))
  let keepAhead (k : Nat) : Bool := decide (((segs.lookup k).getD {}).st = .allocated)
  let nss : List Namespace := j0.ns.mapIdx (fun i (n : Namespace) => { n with
    redo := [], filling := none, cur := none, full := false,
    ahead := (match n.ahead with | some k => if keepAhead k then some k else none | none => none),
    ledgerUnit := unplacedRecs j0 ns i,
    toPlace := ((stripes.filter (fun (x : JStripe) => decide (x.ns = i))).map (fun (x : JStripe) => x.jsn)) })
  let j : Journal := { j0 with
    tiles := j0.tiles.map replayTile, stripes := stripes, segs := segs, ns := nss,
    gc := {}, ckRunning := none, ckPages := 0, ckImage := [], ckMerge := 0, tablesRead := false, logStopped := false }
  let s := { s with jrn := { j with replayUs := us, replaying := false } }
  let s := s.onMedia (fun m => { m with superpages := m.superpages.filter (fun x => x.mapped), jobs := [], rdAbortStat := 0, ldpcParked := [] })
  let s := if torn = 0 then s
           else jcorrupt (s.setFld rTWILL_JERR 7 0 (satAdd 8 (s.fld rTWILL_JERR 7 0) torn))
  freeDead (logRetry (logLevels s))

end Sys2Proof.Machine
end

