-- ==== Sys2Proof/Machine/Commit.lean ====
section
/-!
DEFINITION. What a commit point does in the dictionary engine (R27–R29, R563–R570): pending CPT values become register
writes, custody descriptor changes and held values, as one set, and the stored set is written.
-/

namespace Sys2Proof.Machine

/-! ## Keyed values -/

/-- The value a store lists for a key. -/
def kget (l : List (Nat × Bytes)) (k : Nat) : Option Bytes := l.lookup k

/-- A store with a key's value set, in ascending key order. -/
def kput (l : List (Nat × Bytes)) (k : Nat) (v : Bytes) : List (Nat × Bytes) := sinsert (serase l k) k v

/-! ## Register writes with an effect of their own -/

/-- PORTCFG of a port in stop state takes effect at once (table *MUSLIN.PORTCFG*). -/
def portCfgWrite (p : Nat) (w : Word) (s : State) : State :=
  let s := s.wr (rMUSLIN_PORTCFG p) w
  if (s.port p).burst then s else setPort p (fun x => { x with cfg := w }) s

/-- A change of UTCOFF or LEAP writes a TIMEMAP (R189). -/
def utcWrite (a : Nat) (w : Word) (s : State) : State := if s.rd a = w then s else timemap (s.wr a w)

/-- A register set by the dictionary engine: the register's own rule of effect applies. -/
def cptWr (a : Nat) (w : Word) (s : State) : State :=
  match (List.range 16).find? (fun n => decide (a = rTWILL_NSCFG n ∨ a = rTWILL_NSRES n)) with
  | some n => if a = rTWILL_NSCFG n then nsCfgWrite n w s else nsResWrite n w s
  | none =>
    match (List.range 4).find? (fun p => decide (a = rMUSLIN_PORTCFG p)) with
    | some p => portCfgWrite p w s
    | none => s.wr a w

/-- The value that register pieces hold. -/
def piecesGet (s : State) (l : List Piece) : Nat := (l.map (fun p => s.fld p.a p.hi p.lo <<< p.from_)).foldl (· + ·) 0

/-- Register pieces set from a value. -/
def piecesSet (v : Nat) : List Piece → State → State
  | [], s => s
  | p :: ps, s => piecesSet v ps (cptWr p.a (setBits (s.rd p.a) p.hi p.lo (v >>> p.from_ % 2 ^ (p.hi + 1 - p.lo))) s)

/-- UTC_OFFSET as one change of the pair, so that one TIMEMAP follows (R189). -/
def utcOffset (v : Nat) (s : State) : State :=
  if s.rd64 rFELT_UTCOFF_LO rFELT_UTCOFF_HI = v then s else timemap (s.wr64 rFELT_UTCOFF_LO rFELT_UTCOFF_HI v)

/-! ## Custody descriptor fields -/

/-- A descriptor field read from the bytes of an entry (table *Custody descriptor, 64 bytes*). -/
def descGet (b : Bytes) (field : Nat) : Nat :=
  let byte (i : Nat) : Nat := (b.getD i 0).toNat
  let ctl (i : Nat) : Nat := (byte 1 / 2 ^ i) % 2
  match field with
  | 1 => ctl 0
  | 2 => ctl 1
  | 3 => byte 2 % 64
  | 4 => byte 3 % 64
  | 5 => ctl 4
  | 6 => byte 4 + 256 * byte 5
  | 7 => byte 6 % 4
  | 8 => ctl 2
  | 9 => ctl 3
  | 0xA => byte 7
  | 0xB => byte 8 + 256 * byte 9
  | _ => byte 0xA + 256 * byte 0xB

/-- An entry's bytes with a field set. -/
def descSet (field v : Nat) (b : Bytes) : Bytes :=
  let ctl (i : Nat) : Bytes := upd b 1 (fun x => BitVec.ofNat 8 (x.toNat - x.toNat / 2 ^ i % 2 * 2 ^ i + v % 2 * 2 ^ i))
  let byte (i w : Nat) (b : Bytes) : Bytes := upd b i (fun _ => BitVec.ofNat 8 w)
  match field with
  | 1 => ctl 0
  | 2 => ctl 1
  | 3 => byte 2 v b
  | 4 => byte 3 v b
  | 5 => ctl 4
  | 6 => byte 5 (v / 256) (byte 4 v b)
  | 7 => byte 6 v b
  | 8 => ctl 2
  | 9 => ctl 3
  | 0xA => byte 7 v b
  | 0xB => byte 9 (v / 256) (byte 8 v b)
  | _ => byte 0xB (v / 256) (byte 0xA v b)

/-- The entry that the fields' defaults make, with a given GEN byte. -/
def descDefaults (n : Nat) (gen : Byte) : Bytes :=
  ((List.range 13).drop 1).foldl (fun b k => descSet k (descDefault n k) b) (gen :: zeros 63)

/-- The entry whose fields the dictionary holds: an empty entry, or one that fails its CHECK, counts as defaults with its GEN
byte kept (notes/assumptions/41.md). -/
def descEntry (s : State) (n : Nat) : Bytes :=
  let b := s.load (descAddr n) 64
  if descOk b then b else descDefaults n (b.getD 0 0)

/-- The procedure of R163 with APPLYAT 0: fields, GEN, CHECK, INVAL (R172, R564). -/
def descChange (n : Nat) (changes : List (Nat × Nat)) (s : State) : State :=
  let b := changes.foldl (fun b c => descSet c.1 c.2 b) (descEntry s n)
  let b := upd b 0 (fun g => g + 1)
  let b := b.take 60 ++ le 4 (crc32c (b.take 60)).toNat
  inval n false (s.store (descAddr n) b)

/-! ## Applying a set -/

/-- The block's clock enable is set. -/
def gateOpen (s : State) (g : Option (Nat × Nat)) : Bool :=
  match g with
  | none => true
  | some (r, b) => s.flag (rTWEED_CKEN r) b

/-- The object's block is clocked (R578). -/
def objOpen (s : State) (key : Nat) : Bool := gateOpen s (gateOf (key / 256) (key % 256))

/-- One value put in force. -/
def applyOne (key : Nat) (v : Bytes) (s : State) : State :=
  match objOf key with
  | some o =>
    match o.src with
    | .regs l =>
      if key = okey 0x8000 4 then utcOffset (ofLe v) s
      else if key = okey 0x8000 5 then utcWrite rFELT_LEAP (BitVec.ofNat 32 (ofLe v)) s
      else piecesSet (ofLe v) l s
    | .held => s.onDict (fun d => { d with held := kput d.held key v })
    | _ => s
  | none => s

/-- Descriptor changes of custody `n` in a set. -/
def descChanges (set : List (Nat × Bytes)) (index : Nat) : List (Nat × Nat) :=
  (set.filter (fun e => decide (e.1 / 256 = index))).map (fun e => (e.1 % 256, ofLe e.2))

/-- A set put in force in ascending index and subindex order; all of a custody's descriptor fields at once (R563, R564). -/
def applyList (set : List (Nat × Bytes)) : List (Nat × Bytes) → State → State
  | [], s => s
  | (k, v) :: l, s =>
    let i := k / 256
    if 0x2000 ≤ i ∧ i < 0x3000 ∧ i % 0x40 = 0 then
      if l.any (fun e => decide (e.1 / 256 = i)) then applyList set l s
      else applyList set l (descChange ((i - 0x2000) / 0x40) (descChanges set i) s)
    else applyList set l (applyOne k v s)

/-- Slot objects of a set take effect as by SLOTUPD.APPLY (table *Canvas objects*). -/
def stageSlots (set : List (Nat × Bytes)) (s : State) : State :=
  if set.any (fun e => decide (0x3020 * 256 ≤ e.1 ∧ e.1 < 0x3040 * 256)) then s.onCanvas (fun c => { c with applyPending := true })
  else s

/-- A set put in force. -/
def applySet (set : List (Nat × Bytes)) (s : State) : State := stageSlots set (applyList set set s)

/-- The GEN byte of each custody that a set changes is stored beside its fields, under subindex 0 (step 4 of *From reset
release*: descriptors are rebuilt with their stored GEN). -/
def storeGens (s : State) (set st : List (Nat × Bytes)) : List (Nat × Bytes) :=
  (List.range 64).foldl (fun st n =>
    if set.any (fun e => decide (e.1 / 256 = 0x2000 + 0x40 * n)) then kput st (okey (0x2000 + 0x40 * n) 0) [s.byte (descAddr n)] else st) st

/-- The dictionary engine at a commit point: values of gated blocks are discarded and counted, the others applied as one set,
and the set is stored (R563–R565, R578). -/
def dictCommit (s : State) : State :=
  let set := s.dict.pending.filter (fun e => objOpen s e.1)
  let lost := s.dict.pending.length - set.length
  if s.dict.pending.isEmpty then s
  else
    let s := s.onDict (fun d => { d with pending := [] })
    let s := s.setFld rDENG_STAT 31 16 (satAdd 16 (s.fld rDENG_STAT 31 16) lost)
    let s := applySet set s
    let s := s.onDict (fun d => { d with stored := storeGens s set (set.foldl (fun l e => kput l e.1 e.2) d.stored) })
    if set.isEmpty then s else s.raise rDENG_INTSTAT 2

end Sys2Proof.Machine
end

