-- ==== Sys2Proof/Machine/Ydp.lean ====
section
/-!
DEFINITION. YDP as Gingham's sessions use it (R613–R640): frames and their tags, the messages that wait on each carrier,
counters, sending, and the closing of sessions.
-/

namespace Sys2Proof.Machine

/-! ## Values that the dictionary engine holds -/

/-- The value in force of an object that no register holds: set, or its default (R567, R571). -/
def heldVal (s : State) (key : Nat) : Bytes :=
  match kget s.dict.held key with
  | some v => v
  | none => match objOf key with | some o => o.dflt.getD [] | none => []

/-- NODE_ID (object 0x1100:01, register GCTRL.NODE). -/
def nodeId (s : State) : Nat := s.fld rGING_GCTRL 22 16

/-- KIND, NODE, KEY and ENABLED of principal `p`. -/
def kindOf (s : State) (p : Nat) : Nat := ofLe (heldVal s (okey (0x1110 + p) 1))
def princNode (s : State) (p : Nat) : Nat := ofLe (heldVal s (okey (0x1110 + p) 2))
def princKey (s : State) (p : Nat) : Nat := ofLe (heldVal s (okey (0x1110 + p) 3))
def enabledOf (s : State) (p : Nat) : Bool := decide (ofLe (heldVal s (okey (0x1110 + p) 4)) = 1)

/-! ## Frames -/

/-- HMAC-SHA-256. -/
def hmac256 (k m : Bytes) : Bytes := fit 32 (Config.hmac 0 k m)

/-- The TAG of R620. -/
def ydpTag (key : Bytes) (id c : Nat) (before : Bytes) : Bytes := (hmac256 key (le 4 (id % 2 ^ 29) ++ le 4 c ++ before)).take 8

/-- The smallest CAN FD payload that holds `n` bytes (R617). -/
def ydpLength (n : Nat) : Nat := (([12, 16, 20, 24, 32, 48, 64] : List Nat).find? (fun l => decide (n ≤ l))).getD 64

/-- The identifier of a message (table *YDP identifier, 29 bits*). -/
def YMsg.id (m : YMsg) (node : Nat) : Nat := m.cls * 2 ^ 24 + m.dest * 2 ^ 16 + node * 2 ^ 8 + m.tag

/-- The payload of a message before TAG, with counter `c` (table *YDP payload*). -/
def YMsg.head (m : YMsg) (c : Nat) : Bytes :=
  let n := ydpLength (12 + m.body.length)
  fit (n - 8) (le 1 m.msg ++ le 1 c ++ le 1 m.body.length ++ le 1 (0x10 + m.flags % 8) ++ m.body)

/-- A session. -/
def State.sess (s : State) (i : Nat) : Sess := nth s.ging.sess i

/-- A session changed. -/
def setSess (i : Nat) (f : Sess → Sess) (s : State) : State := s.onGing (fun g => { g with sess := upd g.sess i f })

/-- The counter value that a message's frame carries (R621, R623). -/
def YMsg.ctr (m : YMsg) (s : State) : Nat :=
  match m.auth, m.sess with
  | .session, some i => (s.sess i).txctr
  | _, _ => m.ctrlo

/-- The whole payload of a message's frame with its TAG (R620, R621). -/
def YMsg.payload (m : YMsg) (s : State) : Bytes :=
  let h := m.head (m.ctr s)
  h ++ (match m.auth with
    | .none => zeros 8
    | .key k => ydpTag (s.slot (hSlot k)).key (m.id (nodeId s)) 0 h
    | .session => ydpTag (s.sess (m.sess.getD 0)).outKey (m.id (nodeId s)) (m.ctr s) h)

/-! ## Sending -/

/-- A message handed to a carrier: it waits for the bus on CAN0 and CAN1, and is sent at once on the UART. -/
def ydpPut (carrier : Nat) (m : YMsg) (s : State) : State :=
  if carrier < 2 then s.onGing (fun g => { g with can := upd g.can carrier (fun c => { c with ydp := c.ydp ++ [m] }) })
  else s.onGing (fun g => { g with uartSent := some m })

/-- Messages of a session that still wait are withdrawn (R664). -/
def dropMsgs (i : Nat) (s : State) : State :=
  s.onGing (fun g => { g with can := g.can.map (fun c => { c with ydp := c.ydp.filter (fun m => decide (m.sess ≠ some i)) }) })

/-- The transactions of a session end without reply; an open segmented write is discarded (R589, R635). -/
def endTrans (c : Carrier) (s : State) : State :=
  s.onDict (fun d => { d with
    xfers := d.xfers.filter (fun x => decide (x.carrier ≠ c)),
    fw := d.fw.map (fun q => match q with | some r => if r.carrier = c then none else some r | none => none) })

/-- A SESSION_CLOSE message (R628). -/
def closeMsg (s : State) (i reason flags tag : Nat) : YMsg :=
  { sess := some i, cls := 0x02, dest := (s.sess i).node, tag := tag, msg := 0x08, flags := flags,
    body := [BitVec.ofNat 8 reason, 0] }

/-- A session closes; its keys and counters stay for the SESSION_CLOSE that is still to be sent (R638). -/
def sessShut (i : Nat) (s : State) : State :=
  let s := endTrans (.sess i) (dropMsgs i s)
  let s := setSess i (fun x => { x with st := .closed, notify := [], handle := 0 }) s
  s.raise rGING_INTSTAT 1

/-- A session closes with a SESSION_CLOSE of the given reason to the peer (R635, R638). -/
def sessClose (i reason : Nat) (s : State) : State :=
  let m := closeMsg s i reason 0 (s.sess i).tag
  ydpPut (s.sess i).carrier m (sessShut i s)

/-- REKEY_REQ is due when a counter reaches 0x8000_0000, and at every further 2^24 counts (R625). -/
def rekeyDue (c : Nat) : Bool := decide (0x80000000 ≤ c ∧ (c - 0x80000000) % 2 ^ 24 = 0)

/-- REKEY_REQ. -/
def rekeyReq (i : Nat) (s : State) : State :=
  let m : YMsg := { sess := some i, cls := 0x04, dest := (s.sess i).node, msg := 0x0B, body := [0, 0] }
  ydpPut (s.sess i).carrier m (s.raise rGING_INTSTAT 3)

/-- A session's message has been sent: its counter value is used up (R623–R626). -/
def msgSent (m : YMsg) (s : State) : State :=
  match m.auth, m.sess with
  | .session, some i =>
    let x := s.sess i
    let s := setSess i (fun x => { x with txctr := x.txctr + 1 }) s
    if x.txctr = 0xFFFFFFFF ∧ x.st = .openSess then sessShut i s
    else if rekeyDue (x.txctr + 1) ∧ x.st = .openSess then rekeyReq i s
    else s
  | _, _ => s

/-- The message that goes out for `m`: counter 0xFFFF_FFFF is always a SESSION_CLOSE of reason COUNTER (R626). -/
def outgoing (s : State) (m : YMsg) : YMsg :=
  match m.auth, m.sess with
  | .session, some i =>
    if (s.sess i).txctr = 0xFFFFFFFF then closeMsg s i 1 0 m.tag else m
  | _, _ => m

/-- A message handed to a carrier and, on the UART, sent. -/
def ydpSend (carrier : Nat) (m : YMsg) (s : State) : State :=
  if carrier < 2 then ydpPut carrier m s
  else
    let m := outgoing s m
    msgSent m (ydpPut carrier m s)

/-- Sessions whose principal's key handle has become stale close at a commit point, with reason PRINCIPAL (R638). -/
def staleSessions : List Nat → State → State
  | [], s => s
  | i :: is, s =>
    let x := s.sess i
    if x.st = .openSess ∧ current s x.handle = false then staleSessions is (sessClose i 5 s) else staleSessions is s

/-! ## Commit points -/

/-- A commit point: CPT values, Linen's held KEYWRAPs, sessions with stale keys; COMMITCNT (R27, R99–R102). -/
def commitPoint (s : State) : State :=
  let s := s.onCanvas (fun c => { c with commitCnt := c.commitCnt + 1, lastCommitAt := s.now })
  staleSessions (List.range 8) (linenCommit (dictCommit s))

end Sys2Proof.Machine
end

