-- ==== Sys2Proof/Machine/Can.lean ====
section
/-!
DEFINITION. Gingham's two CAN FD controllers (R604–R612, R663–R669): states and error confinement after ISO 11898-1,
firmware buffers and filters, arbitration between them and YDP, cancellation, and the suspension of sessions.
-/

namespace Sys2Proof.Machine

/-- Controller `n`. -/
def State.can (s : State) (n : Nat) : Can := nth s.ging.can n

/-- Controller `n` changed. -/
def setCan (n : Nat) (f : Can → Can) (s : State) : State := s.onGing (fun g => { g with can := upd g.can n f })

/-- The controller takes part in bus traffic. -/
def Can.onBus (c : Can) : Bool := c.st == .active || c.st == .passive

/-! ## Sessions of a controller -/

/-- The sessions that run over controller `n`. -/
def sessOn (s : State) (n : Nat) : List Nat := (List.range 8).filter (fun i => decide ((s.sess i).carrier = n))

/-- A session whose controller leaves ACTIVE and PASSIVE is suspended (table *Session states*). -/
def suspendOne (i : Nat) (s : State) : State :=
  if (s.sess i).st = .openSess then setSess i (fun x => { x with st := .suspended, suspAt := s.now }) s else s

/-- The sessions of a controller are suspended. -/
def suspendAll (n : Nat) (s : State) : State := (sessOn s n).foldl (fun s i => suspendOne i s) s

/-- Ten seconds, ns (R637). -/
def suspLimit : Nat := 10000000000

/-- A suspended session is open again within 10 s, its idle timer going on where it stopped (R639); later it is closed
with reason EXPIRED. -/
def resumeOne (i : Nat) (s : State) : State :=
  let x := s.sess i
  if x.st = .suspended then
    if s.now ≤ x.suspAt + suspLimit then
      setSess i (fun x => { x with st := .openSess, heardAt := x.heardAt + (s.now - x.suspAt) }) s
    else sessClose i 6 s
  else s

/-- The sessions of a controller that is ACTIVE again. -/
def resumeAll (n : Nat) (s : State) : State := (sessOn s n).foldl (fun s i => resumeOne i s) s

/-! ## Controller states -/

/-- Error confinement: PASSIVE while a counter exceeds 127, ACTIVE otherwise (R665). -/
def confine (n : Nat) (s : State) : State :=
  let c := s.can n
  if c.onBus then
    if 127 < c.tec ∨ 127 < c.rec_ then
      if c.st = .active then (setCan n (fun c => { c with st := .passive }) s).raise (rGING_CINTSTAT n) 4 else s
    else setCan n (fun c => { c with st := .active }) s
  else s

/-- The controller enters bus-off (R665). -/
def busOff (n : Nat) (s : State) : State :=
  if (s.can n).onBus then
    let s := setCan n (fun c => { c with st := .busoff }) s
    let s := (s.raise (rGING_CINTSTAT n) 2).addSat (rGING_BUSOFFCNT n) 1
    suspendAll n s
  else s

/-- Integration ends: CCTRL, NBT, DBT and TDC take effect, the controller is ACTIVE and its sessions go on. -/
def integrated (n : Nat) (s : State) : State :=
  let cfg := [s.rd (rGING_CCTRL n), s.rd (rGING_NBT n), s.rd (rGING_DBT n), s.rd (rGING_TDC n)]
  let s := setCan n (fun c => { c with st := .active, cfg := cfg }) s
  resumeAll n s

/-- An INTEGRATING controller sees 11 recessive bits (R665). -/
def canIntegration (n : Nat) (s : State) : State := if (s.can n).st = .integrating then integrated n s else s

/-- A bus error: in reception REC rises by 1 or 8, in transmission TEC by 8, after ISO 11898-1; bus-off above 255. -/
def canBusError (n : Nat) (tx eight : Bool) (s : State) : State :=
  if (s.can n).onBus then
    let s := s.addSat (rGING_ERRCNT n) 1
    let s := setCan n (fun c =>
      if tx then { c with tec := c.tec + 8 } else { c with rec_ := min 255 (c.rec_ + if eight then 8 else 1) }) s
    if 255 < (s.can n).tec then busOff n s else confine n s
  else s

/-- 128 occurrences of 11 recessive bits recover a bus-off controller when AUTORECOV is 1 (R665). -/
def busOffRecovery (n : Nat) (s : State) : State :=
  if (s.can n).st = .busoff ∧ s.flag (rGING_CCTRL n) 4 = true then
    integrated n (setCan n (fun c => { c with tec := 0, rec_ := 0 }) s)
  else s

/-- A write of CCTRL: MODE OFF stops the controller, any other mode integrates anew when the mode changes, and restarts a
bus-off controller (R665). -/
def cctrlWrite (n : Nat) (w : Word) (s : State) : State :=
  let old := s.fld (rGING_CCTRL n) 1 0
  let s := match regAt (rGING_CCTRL n) with
    | some r => s.wr (rGING_CCTRL n) (r.write (s.rd (rGING_CCTRL n)) w)
    | none => s
  let mode := s.fld (rGING_CCTRL n) 1 0
  let st := (s.can n).st
  if mode = 0 then suspendAll n (setCan n (fun c => { c with st := .off, tec := 0, rec_ := 0 }) s)
  else if st = .busoff then setCan n (fun c => { c with st := .integrating, tec := 0, rec_ := 0 }) s
  else if st = .off then
    if s.flag rTWEED_CLKSTAT 2 then setCan n (fun c => { c with st := .paused, before := .integrating }) s
    else setCan n (fun c => { c with st := .integrating, tec := 0, rec_ := 0 }) s
  else if (s.can n).onBus ∧ mode ≠ old then suspendAll n (setCan n (fun c => { c with st := .integrating }) s)
  else s

/-- RX dominant for 2,048 bit times (R666). -/
def canStuck (n : Nat) (s : State) : State :=
  if (s.can n).onBus ∨ (s.can n).st = .integrating then
    let s := setCan n (fun c => { c with st := .stuck, rxLow := true }) s
    let s := (s.raise (rGING_CINTSTAT n) 3).addSat (rGING_STUCKCNT n) 1
    suspendAll n (setSticky 128 (65 + n) n s)
  else s

/-- The 1 ms watch of a STUCK controller: with 11 recessive bits it integrates and is ACTIVE with counters 0 (R666). -/
def stuckRecheck (n : Nat) (recessive : Bool) (s : State) : State :=
  if (s.can n).st = .stuck ∧ recessive = true then
    integrated n (setCan n (fun c => { c with tec := 0, rec_ := 0, rxLow := false }) s)
  else s

/-- CLKFAIL: the controllers are PAUSED and their sessions suspended (R667). -/
def canPause (s : State) : State :=
  [0, 1].foldl (fun s n =>
    let st := (s.can n).st
    if st = .off ∨ st = .paused then s
    else suspendAll n (setCan n (fun c => { c with st := .paused, before := st }) s)) s

/-- The end of CLKFAIL: a paused controller integrates again, or is back in BUSOFF or STUCK (R667, R955). -/
def canResume (s : State) : State :=
  [0, 1].foldl (fun s n =>
    if (s.can n).st = .paused then
      setCan n (fun c => { c with st := if c.before = .busoff ∨ c.before = .stuck then c.before else .integrating }) s
    else s) s

/-! ## Time stamps -/

/-- TSCNT wraps: Gingham latches EVT (R611). -/
def tscntWrap (n : Nat) (s : State) : State := setCan n (fun c => { c with wrapEvt := s.felt.evt }) s

/-- `ts` nominal bit times in EVT units of 2^-24 s: a bit is BRP × (1 + TSEG1 + TSEG2) / 80 MHz (R608, R612). -/
def bitEvt (nbt : Word) (ts : Nat) : Nat :=
  ts * bits nbt 31 24 * (1 + bits nbt 23 16 + bits nbt 14 8) * 2 ^ 24 / 80000000

/-! ## Reception -/

/-- A frame is YDP's: CAN FD, 29 bits, for this node, of a class of the table (R613, R614). -/
def isYdp (s : State) (fr : CanFrame) : Bool :=
  fr.xtd && fr.fdf && decide (fr.id / 2 ^ 16 % 256 = nodeId s) &&
    decide (fr.id / 2 ^ 24 % 32 ∈ ([0x02, 0x04, 0x08, 0x0C, 0x10, 0x1E] : List Nat))

/-- The lowest firmware filter that matches a frame (register RXFILT). -/
def rxFilter (s : State) (n : Nat) (fr : CanFrame) : Option Nat :=
  (List.range 48).find? (fun f =>
    s.flag (rGING_RXFILT_CTL n f) 0 && (s.flag (rGING_RXFILT_CTL n f) 1 == fr.xtd) &&
      decide ((BitVec.ofNat 32 fr.id ^^^ s.rd (rGING_RXFILT_ID n f)) &&& s.rd (rGING_RXFILT_MASK n f) = 0#32))

/-- A frame that another node sent with this node's identifier as SRC (R616). -/
def nodeClash (n : Nat) (fr : CanFrame) (s : State) : State :=
  if fr.xtd && fr.fdf && decide (fr.id / 2 ^ 8 % 256 = nodeId s) then
    (s.raise rGING_INTSTAT 4).addSat (rGING_NODECLASH n) 1
  else s

/-- A good reception lowers REC after ISO 11898-1. -/
def rxGood (n : Nat) (s : State) : State :=
  let s := (setCan n (fun c => { c with rec_ := if 127 < c.rec_ then 127 else c.rec_ - 1 }) s).addSat (rGING_RXCNT n) 1
  confine n s

/-- A frame for firmware: into the FIFO of 32 when a filter matches, discarded otherwise or when the FIFO is full (R607). -/
def fwReceive (n : Nat) (fr : CanFrame) (ts : Nat) (s : State) : State :=
  match rxFilter s n fr with
  | none => s
  | some f =>
    if 32 ≤ (s.can n).fifo.length then s.raise (rGING_CINTSTAT n) 5
    else
      let c := s.can n
      let e : RxEntry := { frame := fr, filter := f, ts := ts, evt := c.wrapEvt + bitEvt (c.cfg.getD 1 0) ts }
      (setCan n (fun c => { c with fifo := c.fifo ++ [e] }) s).raise (rGING_CINTSTAT n) 0

/-- POP of RXSTAT: the head entry leaves the FIFO. -/
def rxPop (n : Nat) (s : State) : State := setCan n (fun c => { c with fifo := c.fifo.drop 1 }) s

/-! ## Transmission -/

/-- A CAN FD data length; at most 8 bytes without FDF (R669). -/
def canLength (len : Nat) (fdf : Bool) : Bool :=
  decide (len ≤ 8) || (fdf && decide (len ∈ ([12, 16, 20, 24, 32, 48, 64] : List Nat)))

/-- The frame in firmware buffer `b`. -/
def txFrame (s : State) (n b : Nat) : CanFrame :=
  let ctl := s.rd (rGING_TXBUF n b 1)
  let xtd := bit ctl 10
  { id := (s.rd (rGING_TXBUF n b 0)).toNat % (if xtd then 2 ^ 29 else 2 ^ 11), xtd := xtd, fdf := bit ctl 8, brs := bit ctl 9,
    data := ((List.range 16).flatMap (fun k => le 4 (s.rd (rGING_TXBUF n b (2 + k))).toNat)).take (bits ctl 6 0) }

/-- A write of TXREQ: the buffers wait for the bus; one with an invalid length stays unsent (R606, R669). -/
def txReq (n : Nat) (mask : Word) (s : State) : State :=
  (List.range 24).foldl (fun s b =>
    if bit mask b then
      let ctl := s.rd (rGING_TXBUF n b 1)
      if canLength (bits ctl 6 0) (bit ctl 8) then s.setFlag (rGING_TXREQ n) b true
      else s.setFlag (rGING_TXCANCD n) b true
    else s) s

/-- The frame that a YDP message makes on the bus (R610, R613). -/
def ydpFrameOf (s : State) (m : YMsg) : CanFrame :=
  { id := m.id (nodeId s), xtd := true, fdf := true,
    brs := decide (ofLe (heldVal s (okey 0x1100 2)) < ofLe (heldVal s (okey 0x1100 3))), data := m.payload s }

/-- YDP messages that may go out: those of a suspended session wait until it is open again (R639). -/
def ydpReady (s : State) (m : YMsg) : Bool :=
  match m.sess with
  | some i => decide ((s.sess i).st ≠ .suspended)
  | none => true

/-- The next NOTIFY of each session that may be sent on controller `n` enters the YDP buffers. -/
def notifyMsg (x : Sess) (i : Nat) (b : Bytes) : YMsg := { sess := some i, cls := 0x08, dest := x.node, msg := 0x09, body := b }

/-- Queued NOTIFYs of open sessions of carrier `n` move to their carrier (R656, R657). -/
def notifyFlush (n : Nat) (s : State) : State :=
  (sessOn s n).foldl (fun s i =>
    let x := s.sess i
    if x.st = .openSess then
      x.notify.foldl (fun s b => ydpSend n (notifyMsg x i b) s) (setSess i (fun x => { x with notify := [] }) s)
    else s) s

/-- What the controller offers: firmware buffers 0–23 and the first eight YDP messages in buffers 24–31, the lowest
identifier first, then the lowest buffer (R605, R606). Answers the buffer and its identifier. -/
def txOffer (s : State) (n : Nat) : Option (Nat × Nat) :=
  let fw := ((List.range 24).filter (fun b => s.flag (rGING_TXREQ n) b)).map (fun b => (b, (txFrame s n b).id))
  let yd := ((((s.can n).ydp.filter (ydpReady s)).take 8).zipIdx).map (fun p => (24 + p.2, p.1.id (nodeId s)))
  (fw ++ yd).foldl (fun best c => match best with | none => some c | some b => if c.2 < b.2 then some c else some b) none

/-- A write of TXCANCEL: a frame before its arbitration point is removed; one in `late` completes (R663, R664). -/
def txCancel (n : Nat) (mask late : Word) (s : State) : State :=
  (List.range 24).foldl (fun s b =>
    if bit mask b ∧ s.flag (rGING_TXREQ n) b = true then
      if bit late b then setCan n (fun c => { c with late := if b ∈ c.late then c.late else c.late ++ [b] }) s
      else (s.setFlag (rGING_TXREQ n) b false).setFlag (rGING_TXCANCD n) b true
    else s) s

/-- A transmission ends. Sent: the buffer is free, TXDONE, TXLATE after a late cancel, the counters; a YDP frame uses up its
counter value. In an error: a late cancel takes effect, otherwise the frame is offered again (R663, R664). -/
def txDone (n : Nat) (err : Bool) (s : State) : State :=
  if !(s.can n).onBus then s
  else if s.fld (rGING_CCTRL n) 1 0 = 2 then s
  else
    let s := notifyFlush n s
    match txOffer s n with
    | none => s
    | some (b, _) =>
      if b < 24 then
        let late := decide (b ∈ (s.can n).late)
        let clear (s : State) : State :=
          setCan n (fun c => { c with late := c.late.filter (· ≠ b) }) (s.setFlag (rGING_TXREQ n) b false)
        if err then
          if late then (clear s).setFlag (rGING_TXCANCD n) b true else s
        else
          let fr := txFrame s n b
          let s := (clear s).setFlag (rGING_TXDONE n) b true
          let s := if late then s.setFlag (rGING_TXLATE n) b true else s
          let s := setCan n (fun c => { c with sent := some fr, tec := c.tec - 1 }) s
          let s := (s.raise (rGING_CINTSTAT n) 1).addSat (rGING_TXCNT n) 1
          confine n s
      else if err then s
      else
        match ((s.can n).ydp.filter (ydpReady s))[b - 24]? with
        | none => s
        | some m =>
          let o := outgoing s m
          let fr := ydpFrameOf s o
          let s := setCan n (fun c => { c with sent := some fr, ydp := c.ydp.erase m, tec := c.tec - 1 }) s
          let s := s.addSat (rGING_TXCNT n) 1
          confine n (msgSent o s)

/-- HEARTBEAT_MS has passed: a HEARTBEAT with DEST 0 on each controller that is ACTIVE or PASSIVE (R658). -/
def heartbeat (s : State) : State :=
  if s.fld rGING_GCTRL 15 0 = 0 then s
  else
    let opens := (s.ging.sess.filter (fun x => decide (x.st = .openSess))).length
    let free := s.ging.sess.any (fun x => decide (x.st = .closed))
    let body := le 1 (powerCode s.power.st) ++ le 1 (lifeCode s.fuse.life) ++ le 1 (s.power.ingest.toNat + 2 * free.toNat) ++ le 1 opens
      ++ le 8 s.felt.evt
    let m : YMsg := { cls := 0x1E, dest := 0, msg := 0x0A, body := body, auth := .none, ctrlo := s.ging.beats }
    let s := s.onGing (fun g => { g with beats := (g.beats + 1) % 256 })
    [0, 1].foldl (fun s n => if (s.can n).onBus then ydpPut n m s else s) s

end Sys2Proof.Machine
end

