-- ==== Sys2Proof/Machine/Clocks.lean ====
section
/-!
DEFINITION. Tweed's clocks (R914–R968): switching of roots, PLL lock loss and holdover, the XIN and REFCLK monitors with
the fallback and the return, IRC96 trim, spread spectrum, CLKOUT, and gating.
-/

namespace Sys2Proof.Machine

/-! ## Roots -/

/-- The SRC code of IRC96 at a root (table *Switchable roots*). -/
def ircSrc (r : Nat) : Nat := if r = 29 ∨ r = 30 then 2 else 1

/-- The PLL that a root's SRC 0 takes; none for the references. -/
def pllOf (r : Nat) : Option Nat :=
  if r ≤ 5 then none
  else if r = 6 ∨ (34 ≤ r ∧ r ≤ 37) ∨ r = 40 then some 0
  else if (7 ≤ r ∧ r ≤ 12) ∨ r = 22 ∨ (31 ≤ r ∧ r ≤ 33) then some 1
  else if 13 ≤ r ∧ r ≤ 20 then some 2
  else if r = 21 ∨ r = 23 then some 3
  else if (24 ≤ r ∧ r ≤ 28) ∨ r = 38 ∨ r = 39 then some 4
  else some 5

/-- The root's row shows "Idle needed" (R923). -/
def idleNeeded (r : Nat) : Bool := decide ((13 ≤ r ∧ r ≤ 28) ∨ r = 31)

/-- A SRC encoding of the root; others are reserved (R19). -/
def srcLegal (r src : Nat) : Bool := decide (src ≤ ircSrc r)

/-- CUR of a root. -/
def rootCur (s : State) (r : Nat) : Nat := s.fld (rTWEED_ROOTSEL r) 5 4

/-- Root `r` changed. -/
def setRoot (r : Nat) (f : Root → Root) (s : State) : State := s.onTweed (fun t => { t with roots := upd t.roots r f })

/-- PLL `p` changed. -/
def setPll (p : Nat) (f : Pll → Pll) (s : State) : State := s.onTweed (fun t => { t with plls := upd t.plls p f })

/-- PLL `p` is in holdover and has to lock again (R918). -/
def pllHold (p : Nat) (s : State) : State := (s.setFlag (rTWEED_PLLSTAT p) 2 true).setFlag (rTWEED_PLLSTAT p) 0 false

/-- The root now runs from a source (R925). -/
def setCur (r src : Nat) (s : State) : State :=
  let s := s.setFld (rTWEED_ROOTSEL r) 5 4 src
  if r ≤ 5 then s.setFlag (rTWEED_PLLSTAT r) 1 (decide (src = 1)) else s

/-- The lifecycle states in which protective settings are locked (R897, R928, R964). -/
def State.locked (s : State) : Bool := decide (s.fuse.life = .fieldLife ∨ s.fuse.life = .rma)

/-- A write of ROOTSEL[r]: SRC, GO, and the W1C outcome flags. `idle` tells whether a block that must be idle is so within
10 µs (R922, R923, R928, R953). -/
def rootSelWrite (r : Nat) (w : Word) (idle : Bool) (s : State) : State :=
  let a := rTWEED_ROOTSEL r
  if s.flag a 9 then s
  else if (r = 6 ∨ r = 7 ∨ r = 8) ∧ s.locked = true ∧ bits w 1 0 ≠ 0 then s
  else
    let s := s.wr a (s.rd a &&& ~~~ (w &&& 0x1C00#32))
    let s := if srcLegal r (bits w 1 0) then s.setFld a 1 0 (bits w 1 0) else s
    if !bit w 8 then s
    else
      let src := s.fld a 1 0
      if r ≤ 5 ∧ src = 0 ∧ s.flag rTWEED_CLKSTAT 1 = false then s.setFlag a 11 true
      else if idleNeeded r ∧ idle = false then s.setFlag a 11 true
      else
        let old := rootCur s r
        let s := (setRoot r (fun x => { x with target := some src, old := old }) s).setFlag a 9 true
        if r ≤ 5 then pllHold r s else s

/-- The first delivered edge of the new source: DONE, BUSY cleared, CUR updated (R925). -/
def rootDone (r : Nat) (s : State) : State :=
  match (nth s.tweed.roots r).target with
  | none => s
  | some src =>
    let s := setRoot r (fun x => { x with target := none }) s
    let s := (s.setFlag (rTWEED_ROOTSEL r) 9 false).setFlag (rTWEED_ROOTSEL r) 10 true
    (setCur r src s).raise rTWEED_CLKINT 5

/-- The new source gives fewer than 3 edges in 100 µs: back to the old source, or to IRC96 when that is dead too (R926). -/
def rootTimeout (r : Nat) (oldAlive : Bool) (s : State) : State :=
  match (nth s.tweed.roots r).target with
  | none => s
  | some _ =>
    let old := (nth s.tweed.roots r).old
    let s := setRoot r (fun x => { x with target := none }) s
    let s := (s.setFlag (rTWEED_ROOTSEL r) 9 false).setFlag (rTWEED_ROOTSEL r) 12 true
    let s := s.raise rTWEED_CLKINT 6
    if oldAlive then setCur r old s else setSticky 33 8 r (setCur r (ircSrc r) s)

/-! ## CLKFAIL -/

/-- CLKFAIL is reported: flag, NMI, CAN controllers paused (R949, R667). -/
def clkFail (s : State) : State := canPause (nmi 0 (s.setFlag rTWEED_CLKSTAT 2 true))

/-- Every reference runs from XIN with every PLL locked (R955). -/
def allOnXin (s : State) : Bool :=
  (List.range 6).all (fun p => decide (rootCur s p = 0) && s.flag (rTWEED_PLLSTAT p) 0)

/-- The return: FALLBACK and CLKFAIL clear, RECOVER is set, CAN controllers and card ports resume (R955); a parked PLL keeps
CLKFAIL (R958). -/
def clkRecover (s : State) : State :=
  if s.flag rTWEED_CLKSTAT 3 ∧ allOnXin s = true then
    let s := (s.setFlag rTWEED_CLKSTAT 3 false).raise rTWEED_CLKINT 2
    if s.tweed.parkFail then s else canResume (s.setFlag rTWEED_CLKSTAT 2 false)
  else s

/-! ## Monitors -/

/-- The bounds of a count monitor: E = 1,024 × `num` / `den`, tolerance in units of 0.5 %, rounded outward (R944). -/
def monLow (num den tol : Nat) : Nat := 1024 * num * (200 - tol) / (200 * den)
def monHigh (num den tol : Nat) : Nat := (1024 * num * (200 + tol) + 200 * den - 1) / (200 * den)

/-- A window with this count fails: outside the bounds, or at the upper bound before its end (R944). -/
def windowFails (num den tol count : Nat) (ended : Bool) : Bool :=
  decide (count < monLow num den tol ∨ monHigh num den tol < count ∨ (ended = false ∧ monHigh num den tol ≤ count))

/-- XIN in MHz (R914). -/
def xinMHz (s : State) : Nat := 24 + s.fld rTWEED_XINCFG 1 0

/-- The XIN tolerance in force (R945). -/
def xinTol (s : State) : Nat :=
  let t := s.fld rTWEED_MONTOL 4 0
  if s.flag rTWEED_IRC96TRIM 17 then t else max t 7

/-- One reference root moves to IRC96 ÷ 4 at once; a switch to it that is in its gap completes first (R927, R948). -/
def refFallback (p : Nat) (s : State) : State :=
  let s := if (nth s.tweed.roots p).target = some 1 then rootDone p s else s
  if rootCur s p = 0 ∧ (nth s.tweed.roots p).target = none then pllHold p (setCur p 1 s) else s

/-- An XIN window ends with `count` IRC96 cycles. When it fails: references move to IRC96 ÷ 4, CLKFAIL and FALLBACK are
set, STK_CLKFAIL and the NMI are raised (R944, R948–R950, R952). -/
def xinWindow (count : Nat) (ended : Bool) (s : State) : State :=
  let s := s.setFld rTWEED_MONCNT 15 0 count
  if windowFails 96 (xinMHz s) (xinTol s) count ended then
    let s := s.onTweed (fun t => { t with xinGood := s.now })
    let s := (s.setFlag rTWEED_CLKSTAT 0 false).setFlag rTWEED_CLKSTAT 1 false
    let s := s.raise rTWEED_CLKINT 0
    let moves := (List.range 6).any (fun p => decide (rootCur s p = 0))
    let s := (List.range 6).foldl (fun s p => refFallback p s) s
    if moves then clkFail (setSticky 32 8 0 (s.setFlag rTWEED_CLKSTAT 3 true)) else s
  else s.setFlag rTWEED_CLKSTAT 0 true

/-- XIN has passed every window for 1 s (R952). -/
def xinOk1s (s : State) : State :=
  if s.tweed.xinGood + 1000000000 ≤ s.now ∧ s.flag rTWEED_CLKSTAT 1 = false then
    ((s.setFlag rTWEED_CLKSTAT 0 true).setFlag rTWEED_CLKSTAT 1 true).raise rTWEED_CLKINT 1
  else s

/-- A REFCLK window ends with `count` XIN cycles; a failure changes no clock (R947). -/
def refclkWindow (count : Nat) (ended : Bool) (s : State) : State :=
  let s := s.setFld rTWEED_MONCNT 31 16 count
  if windowFails (xinMHz s) 100 (s.fld rTWEED_MONTOL 12 8) count ended then
    setSticky 34 8 0 ((s.setFlag rTWEED_CLKSTAT 4 true).raise rTWEED_CLKINT 3)
  else s.setFlag rTWEED_CLKSTAT 4 false

/-! ## PLLs -/

/-- The roots that run from PLL `p`. -/
def rootsOn (s : State) (p : Nat) : List Nat :=
  (List.range 41).filter (fun r => decide (pllOf r = some p ∧ rootCur s r = 0))

/-- A PLL reports loss of lock with a good reference: its roots run from IRC96 while the lock is retried (R957). -/
def pllLoss (p : Nat) (s : State) : State :=
  if s.flag (rTWEED_PLLSTAT p) 3 then s
  else
    let moved := rootsOn s p
    let s := (s.setFlag (rTWEED_PLLSTAT p) 0 false).raise rTWEED_CLKINT 4
    let s := setPll p (fun x => { x with retries := some (x.retries.getD 0), moved := x.moved ++ moved }) s
    moved.foldl (fun s r => setCur r (ircSrc r) s) s

/-- A 50 µs lock time ends. Locked: holdover ends, roots that a lock loss moved switch back, and the return to XIN may be
complete. Not locked: a further retry, or after the third the PLL is parked and CLKFAIL is raised (R918, R957, R958). -/
def pllRetry (p : Nat) (locked : Bool) (s : State) : State :=
  if s.flag (rTWEED_PLLSTAT p) 3 then s
  else if locked then
    let x := nth s.tweed.plls p
    let s := (s.setFlag (rTWEED_PLLSTAT p) 0 true).setFlag (rTWEED_PLLSTAT p) 2 false
    let s := if x.retries.isSome then
        x.moved.foldl (fun s r => setCur r 0 s) (s.incFld (rTWEED_PLLSTAT p) 15 8)
      else s
    clkRecover (setPll p (fun x => { x with retries := none, moved := [] }) s)
  else
    match (nth s.tweed.plls p).retries with
    | none => setPll p (fun x => { x with retries := some 1 }) (pllLoss p s)
    | some k =>
      if k < 2 then setPll p (fun x => { x with retries := some (k + 1) }) s
      else
        let s := setPll p (fun x => { x with retries := none, moved := [] }) s
        let s := s.setFlag (rTWEED_PLLSTAT p) 3 true
        let s := s.onTweed (fun t => { t with parkFail := true })
        clkFail (setSticky 35 8 p s)

/-- A PLL misses its reference and holds over; when the reference is back in time it locks again (R918). -/
def pllRefLoss (p : Nat) (returned : Bool) (s : State) : State :=
  if s.flag (rTWEED_PLLSTAT p) 3 then s
  else
    let s := pllHold p s
    if returned then pllRetry p true s else s

/-- A change of SSC[p] takes effect, not while the PLL is unlocked (R932). PLL_NAND and PLL_PER have none (R931). -/
def sscApply (p : Nat) (s : State) : State :=
  if (p = 0 ∨ p = 1 ∨ p = 3 ∨ p = 5) ∧ s.flag (rTWEED_PLLSTAT p) 0 = true then
    setPll p (fun x => { x with ssc := s.rd (rTWEED_SSC p) }) s
  else s

/-- A write of PLLOUT: PLL_OUT locks again, CLKOUT low until then (R937). -/
def pllOutWrite (w : Word) (s : State) : State :=
  (s.wr rTWEED_PLLOUT (w &&& 0x3FFFFFFF#32)).setFlag (rTWEED_PLLSTAT 5) 0 false

/-- A write of CLKOUTCFG[n], in force from the end of the current low phase (R939). -/
def clkoutWrite (n : Nat) (w : Word) (s : State) : State :=
  let w := w &&& 0xFF01#32
  (s.wr (rTWEED_CLKOUTCFG n) w).onTweed (fun t => { t with clkout := upd t.clkout n (fun _ => w) })

/-- A trim window of 1,024 XRTC cycles with `count` IRC96 cycles (R941–R943). -/
def trimWindow (count : Nat) (s : State) : State :=
  if s.felt.xrtcFail then s.setFlag rTWEED_IRC96TRIM 16 true
  else
    let s := s.setFlag rTWEED_IRC96TRIM 16 false
    let err := if count < 3000000 then 3000000 - count else count - 3000000
    let code := s.fld rTWEED_IRC96TRIM 9 0
    let up := (decide (count < 3000000)) == Config.trimUp
    let s := if 7500 < err then
        s.setFld rTWEED_IRC96TRIM 9 0 (if up then min 1023 (code + 1) else code - 1)
      else s
    let good := if err ≤ 15000 then min 4 (s.tweed.trimGood + 1) else 0
    let s := s.onTweed (fun t => { t with trimGood := good })
    s.setFlag rTWEED_IRC96TRIM 17 (decide (good = 4))

/-! ## Gating -/

/-- Enable bits that exist (table *Enable bits*). -/
def ckenBits (r : Nat) : Nat := match r with | 0 => 16 | 1 => 12 | 2 => 10 | _ => 0

/-- The bits marked L (R964). -/
def ckenLocked (r b : Nat) : Bool :=
  (r == 0 && decide (b ∈ ([1, 2, 3, 4, 5, 7, 9] : List Nat))) || (r == 1 && decide (b < 8))

/-- The block of enable bit `b` of CKEN`r` is gated. -/
def State.gated (s : State) (r b : Nat) : Bool := s.flag (rTWEED_GATESTAT r) b

/-- The gate of a block closes. -/
def gateClose (r b : Nat) (s : State) : State :=
  (s.setFlag (rTWEED_GATESTAT r) b true).onTweed (fun t => { t with gating := t.gating.filter (· ≠ (r, b)) })

/-- A write of 0 to an enable bit: the gate closes when the block is idle, at once when it is (R961, R964, R968). -/
def gateRequest (r b : Nat) (idle : Bool) (s : State) : State :=
  if ckenBits r ≤ b ∨ s.dying = true ∨ (s.locked = true ∧ ckenLocked r b = true) then s
  else
    let s := s.setFlag (rTWEED_CKEN r) b false
    if s.gated r b then s
    else if idle then gateClose r b s
    else s.onTweed (fun t => { t with gating := if (r, b) ∈ t.gating then t.gating else t.gating ++ [(r, b)] })

/-- The block was not idle within 10 µs: the gate closes anyway and the block's state is undefined (R962). -/
def gateTimeout (r b : Nat) (s : State) : State :=
  if (r, b) ∈ s.tweed.gating then
    let s := gateClose r b s
    let s := s.wr rTWEED_GATELAST (field 7 0 b ||| field 15 8 r)
    let s := s.onTweed (fun t => { t with lost := t.lost ++ [(r, b)] })
    setSticky 36 8 (s.rd rTWEED_GATELAST).toNat (s.raise rTWEED_CLKINT 7)
  else s

/-- A write of 1 to an enable bit opens the gate or cancels the request (R963). -/
def gateOpen_ (r b : Nat) (s : State) : State :=
  if ckenBits r ≤ b ∨ s.dying = true then s
  else
    let s := s.setFlag (rTWEED_CKEN r) b true
    let s := s.setFlag (rTWEED_GATESTAT r) b false
    s.onTweed (fun t => { t with gating := t.gating.filter (· ≠ (r, b)) })

/-- A write of a whole CKEN register: each changed bit is a request or an opening; whether a block is idle at that moment
is nothing the write knows (a free value). -/
def ckenWrite (r : Nat) (w : Word) (s : State) : State :=
  (List.range (ckenBits r)).foldl (fun s b =>
    if bit w b then gateOpen_ r b s
    else if s.flag (rTWEED_CKEN r) b then
      gateRequest r b (Config.freeNat s.freeCtr % 2 == 0) s.fresh
    else s) s

/-- A command that acts on the block of enable bit `b` of CKEN`r`: nothing happens while the block is gated. -/
def onBlock (r b : Nat) (g : State → State) (s : State) : State := if s.live && !s.gated r b then g s else s

end Sys2Proof.Machine
end

