-- ==== Sys2Proof/Machine/Felt.lean ====
section
/-!
DEFINITION. Felt (R969–R1033): the event log, tamper sources and their responses, EVT with its discipline, SET_TIME, the
built-in test, shadowed registers, the slow bridge.
-/

namespace Sys2Proof.Machine

/-- The main domain has power: RUN or LAST_BREATH. -/
def State.mainOn (s : State) : Bool := decide (s.power.st = .run ∨ s.power.st = .lastBreath)

/-- A supply switchover is under way (R969, R1029). -/
def State.switching (s : State) : Bool := decide (s.now < s.felt.switchEnd)

/-- A sticky bit of Felt: with main power it acts as any sticky bit; without, only the bit is set. -/
def feltSticky (n arg : Nat) (s : State) : State :=
  if s.mainOn then setSticky n 9 arg s else s.setFlag rFELT_FSTICKY (n % 32) true

/-! ## Event log -/

/-- What an unwritten log byte reads as (R1027). -/
def logDefault (_ : Nat) : Byte := 0

/-- Bytes put into the event log from an offset. -/
def feltLogPut (l : List (Nat × Byte)) (off : Nat) : Bytes → List (Nat × Byte)
  | [] => l
  | b :: bs => feltLogPut (sset logDefault l off b) (off + 1) bs

/-- An entry of the event log: 0–31 once, then 32–255 in a ring; an overwritten entry is counted (R1026). -/
def feltLog (type source resp detail : Nat) (s : State) : State :=
  let i := s.felt.next
  let e : Bytes := le 8 s.felt.evt ++ le 1 type ++ le 1 source ++ le 1 resp ++ le 1 detail ++ le 4 s.felt.mono
  let full := decide (sget logDefault s.felt.log (16 * i + 8) ≠ 0)
  let s := s.onFelt (fun f => { f with
    log := feltLogPut f.log (16 * i) e, next := if i = 255 then 32 else i + 1,
    pinned := if i < 32 then i + 1 else f.pinned })
  if full then (s.addSat rFELT_LOGOVF 1).raise rFELT_FINTSTAT 7 else s

/-! ## Tamper events -/

/-- A source changed. -/
def setSrc (i : Nat) (f : TSrc → TSrc) (s : State) : State := s.onFelt (fun g => { g with src := upd g.src i f })

/-- The configured responses of a source; bit 0 reads 1 (R1033). Source 19 has none but its fixed one (R1022). -/
def respOf (s : State) (src : Nat) : Nat :=
  let r := if src < 8 then s.fld (rFELT_TPCFG src) 20 16 else if src < 19 then s.fld (rFELT_SRESP (src - 8)) 4 0 else 0
  if r % 2 = 0 then r + 1 else r

/-- The device is in RUN: every response acts (R1014). -/
def State.running (s : State) : Bool := decide (s.power.st = .run)

/-- FULLRESET is held back: the last full reset of cause 0x07 resumed recording less than FRHOLD seconds ago (R1013). -/
def frHeld (s : State) : Bool :=
  match s.felt.frResume with
  | some t => decide (s.felt.evt < t + s.fld rFELT_FRHOLD 15 0 * 2 ^ 24)
  | none => false

/-- An EPOCH response: PEND, the epoch source queue or OVF (R1009); GAP TAMPER in every valid custody while recording
(R191, R1014). -/
def tamperEpoch (src : Nat) (s : State) : State :=
  let s := epochRequest { reason := .tamper, source := src } s
  let s :=
    if s.felt.epqSrc.length < 8 then s.onFelt (fun f => { f with epqSrc := f.epqSrc ++ [src] })
    else feltSticky 230 0 (s.onFelt (fun f => { f with epqOvf := satInc 16 f.epqOvf }))
  if s.running && s.power.resumed && !s.jrn.replaying then
    writeGaps gapTAMPER src (fun _ => s.pos) (fun _ => s.pos) (validCusts s) s
  else s

/-- ZERO_ALL: slots 0–15 in every power state; with main power the key store and the PK unit act as well (R1008). -/
def tamperZero (s : State) : State :=
  if s.mainOn then pkZeroAll (zeroAllKeys s)
  else (List.range 16).foldl (fun s n => zeroizeSlot n s) s

/-- A tamper event of a source: its responses in the order LOG, ZERO_ALL, EPOCH, NMI, FULLRESET (R997, R1007–R1014). -/
def tamperEvent (src : Nat) (s : State) : State :=
  let resp := respOf s src
  let run := s.running
  let held := frHeld s
  let has (b : Nat) : Bool := decide (resp / 2 ^ b % 2 = 1)
  let taken := 1 + (if has 1 && run then 2 else 0) + (if has 2 then 4 else 0) + (if has 3 then 8 else 0)
    + (if has 4 && run && !held then 16 else 0)
  let s := s.onFelt (fun f => { f with mono := f.mono + 1 })
  let s := feltLog 1 src taken (has 4 && run && held).toNat s
  let s := s.raise rFELT_FINTSTAT 0
  let s := feltSticky 227 src s
  let s := if s.mainOn then notify 2 src s else s
  let s := if has 3 then tamperZero s else s
  let s := if has 2 then tamperEpoch src s else s
  let s := if has 1 && run then nmi 2 s else s
  if has 4 && run && !held then assertReset 7 s else s

/-- A source trips once: its event is taken unless it is tripped already. -/
def tripOn (src : Nat) (s : State) : State :=
  if (nth s.felt.src src).tripped then s else tamperEvent src (setSrc src (fun x => { x with tripped := true }) s)

/-- The condition of a source that is not filtered has ended. -/
def tripOff (src : Nat) (s : State) : State := setSrc src (fun x => { x with tripped := false }) s

/-- A filtered sample: FILTER abnormal ones in a row trip the source, FILTER normal ones re-arm it (R1001, R1002). -/
def filterSample (src filter : Nat) (abnormal : Bool) (s : State) : State :=
  let n := max 1 filter
  let x := nth s.felt.src src
  if abnormal then
    let k := x.abnormal + 1
    let s := setSrc src (fun x => { x with abnormal := min k n, normal := 0 }) s
    if n ≤ k then tripOn src s else s
  else
    let k := x.normal + 1
    setSrc src (fun x => { x with normal := min k n, abnormal := 0, tripped := x.tripped && decide (k < n) }) s

/-- The next state of the PRBS-15 generator, x^15 + x^14 + 1; the new bit is bit 0 (R999). -/
def prbsNext (p : Nat) : Nat := (p * 2) % 2 ^ 15 + (p / 2 ^ 14 + p / 2 ^ 13) % 2

/-- An even pin's source drives a loop. -/
def isLoop (s : State) (k : Nat) : Bool := decide (k % 2 = 0 ∧ s.fld (rFELT_TPCFG k) 2 0 = 4)

/-- A pin's sample at a level; for a loop it is the odd pin's level against the bit driven (R998–R1000). -/
def pinSample (k : Nat) (level : Bool) (s : State) : State :=
  if k % 2 = 1 ∧ isLoop s (k - 1) = true then s
  else
    let x := nth s.felt.src k
    let filter := s.fld (rFELT_TPCFG k) 10 8
    match s.fld (rFELT_TPCFG k) 2 0 with
    | 1 => filterSample k filter (!level) s
    | 2 => filterSample k filter level s
    | 3 =>
      let changed := match x.level with | some p => p != level | none => false
      filterSample k filter changed (setSrc k (fun x => { x with level := some level }) s)
    | 4 =>
      if k % 2 = 0 then
        let p := prbsNext x.prbs
        filterSample k filter (level != (p % 2 == 1)) (setSrc k (fun x => { x with prbs := p }) s)
      else s
    | _ => s

/-- TAMPER_SAMPLE: a pin's level, or whether a sensor's condition holds; a source under test is not sampled (R1003, R1004,
R1015). Sources 8, 10, 13 and 19 are not sampled here. -/
def tamperSample (src : Nat) (v : Bool) (s : State) : State :=
  if s.power.st = .off ∨ s.felt.tbist = some src then s
  else if src < 8 then pinSample src v s
  else if src = 9 ∨ src = 11 ∨ src = 12 ∨ (14 ≤ src ∧ src ≤ 18) then
    let s := if src = 18 then
        let s := s.onFelt (fun f => { f with maghi := v })
        if v && s.mainOn then fieldOn s else s
      else s
    filterSample src (s.fld rFELT_SENSCFG 10 8) v s
  else s

/-- The CELL_OUT event (R1023). -/
def cellEvent (s : State) : State := tripOn 8 (feltSticky 226 0 (s.raise rFELT_FINTSTAT 1))

/-- VBAT below 1.0 V while VDD_IO18 supplies Felt (R1023); a test of source 8 suppresses the event, not the removal (R1015). -/
def cellOut (s : State) : State :=
  if s.power.st = .off ∨ s.power.io18 = false then s
  else
    let s := s.onFelt (fun f => { f with vbat := false, cellOut := true })
    if s.felt.tbist = some 8 then s else cellEvent s

/-- VDD_CORE out of bounds for 10 ns with main power and outside LAST_BREATH (R1006, R1120). -/
def glitch (s : State) : State :=
  if s.power.st ≠ .run ∨ s.felt.tbist = some 10 then s else tripOff 10 (tripOn 10 s)

/-- An XRTC window of 256 IRC32K cycles with `count` XRTC cycles: 262.144 expected, ±12.5 % (R1003, R1005). -/
def xrtcWindow (count : Nat) (s : State) : State :=
  if s.power.st = .off ∨ s.felt.tbist = some 13 then s
  else if count < 230 ∨ 294 < count then
    if (nth s.felt.src 13).tripped then s
    else tripOn 13 (feltSticky 228 0 (s.onFelt (fun f => { f with xrtcFail := true })))
  else tripOff 13 (s.onFelt (fun f => { f with xrtcFail := false }))

/-! ## Shadowed registers -/

/-- The shadowed registers (type RWS). -/
def rwsRegs : List Nat :=
  rFELT_TIMEKEY :: (List.range 8).map rFELT_TPCFG ++ (List.range 11).map rFELT_SRESP ++ [rFELT_SENSCFG]

/-- A standing mismatch of the register at `a`: source 19, log entry, STK_SHDWMIS, full reset 0x05 with main power outside
the last breath; the shadow is rewritten (R1021, R1022). -/
def shadowMismatch (a : Nat) (s : State) : State :=
  if a ∈ rwsRegs then
    let s := tamperEvent 19 s
    let s := feltSticky 225 (a - 0x40010000) s
    let s := s.wr (a + 4) (~~~ (s.rd a))
    if s.running then assertReset 5 s else s
  else s

/-- The comparison at an XRTC cycle, lowest register first (R1021). -/
def shadowCheck (s : State) : State :=
  rwsRegs.foldl (fun s a => if s.rd (a + 4) = ~~~ (s.rd a) then s else shadowMismatch a s) s

/-! ## Discipline and EVT -/

/-- A signed register field. -/
def State.sfld (s : State) (a w : Nat) : Int := signed w (s.rd a).toNat

/-- ADJ and FREQ (R977, R986). -/
def adjOf (s : State) : Int := s.sfld rFELT_ADJ 16
def freqOf (s : State) : Int := s.sfld rFELT_FREQ 16
def setAdj (v : Int) (s : State) : State := s.wr rFELT_ADJ (loWord (unsigned 16 v))
def setFreq (v : Int) (s : State) : State := s.wr rFELT_FREQ (loWord (unsigned 16 v))

/-- ±500 ppm in units of ADJ (R977). -/
def adjLimit : Int := 16777
def clampAdj (v : Int) : Int := max (-adjLimit) (min adjLimit v)

/-- A change of the discipline state: FINTSTAT.DISC and a TIMEMAP (R988). -/
def setDisc (d : Nat) (s : State) : State :=
  if s.fld rFELT_FSTAT 10 8 = d then s
  else
    let s := (s.setFld rFELT_FSTAT 10 8 d).raise rFELT_FINTSTAT 2
    if s.mainOn then timemap s else s

/-- EVT in nanoseconds. -/
def evtNs (evt : Nat) : Nat := evt * 1000000000 / 2 ^ 24

/-- The nearest whole second less a capture, ns (R982). -/
def ppsErr (cap : Nat) : Int :=
  let r := cap % 1000000000
  if r < 500000000 then - (r : Int) else 1000000000 - (r : Int)

/-- An accepted edge updates FREQ and ADJ for the following second (R984); integer division truncates, as in C. -/
def ppsAdjust (e : Int) (s : State) : State :=
  let phase := Int.tdiv (e * 33554) 1000000
  let freq := clampAdj (freqOf s + Int.tdiv phase 8)
  setAdj (clampAdj (freq + phase)) (setFreq freq s)

/-- LOCKN accepted edges in a row lock SET_AUTH and HOLDOVER (table *Discipline states*). -/
def ppsLock (s : State) : State :=
  let d := s.fld rFELT_FSTAT 10 8
  if (d = 2 ∨ d = 3) ∧ s.fld rFELT_PPSCFG 15 8 ≤ s.felt.ppsRun then setDisc 1 s else s

/-- Four outliers in a row within 10 µs of one another drive ADJ to its limit (R985). -/
def ppsOutlier (e : Int) (s : State) : State :=
  let l := (e :: s.felt.outliers).take 4
  let s := s.onFelt (fun f => { f with outliers := l, ppsRun := 0 })
  let hi := l.foldl max e
  let lo := l.foldl min e
  if l.length = 4 ∧ hi - lo ≤ 10000 then
    setAdj (if 0 < e then adjLimit else -adjLimit) (s.onFelt (fun f => { f with adjHeld := true }))
  else s

/-- The last accepted edge lies at least 0.999 s before `cap`, or there is none. -/
def ppsSpaced (cap : Nat) (s : State) : Bool :=
  match s.felt.ppsAt with
  | some t => decide (t + 999000000 ≤ cap)
  | none => true

/-- PPS_EDGE: an edge of the selected polarity that lasts 1 µs, captured at `cap` ns of EVT (R982–R985, R989, R995). With no
accepted edge within the last 1.001 s, only the window decides. -/
def ppsEdge (cap : Nat) (s : State) : State :=
  if s.flag rFELT_PPSCFG 0 = false ∨ s.mainOn = false then s
  else
    let e := ppsErr cap
    let s := (s.wr rFELT_PPSERR (loWord (unsigned 32 e))).raise rFELT_FINTSTAT 4
    if s.felt.slewRem ≠ 0 then s
    else
      if e.natAbs ≤ s.fld rFELT_PPSCFG 23 16 * 10000 ∧ ppsSpaced cap s = true then
        let s := s.onFelt (fun f => { f with ppsRun := f.ppsRun + 1, ppsAt := some cap, outliers := [], adjHeld := false,
                                             adjUntil := f.evt + 2 ^ 24 })
        ppsLock (ppsAdjust e s)
      else ppsOutlier e s

/-- LOSS seconds without an accepted edge end PPS_LOCKED (table *Discipline states*). -/
def ppsLoss (s : State) : State :=
  let last := s.felt.ppsAt.getD 0
  if s.fld rFELT_FSTAT 10 8 = 1 ∧ last + s.fld rFELT_PPSCFG 31 24 * 1000000000 ≤ evtNs s.felt.evt then
    setDisc 3 (s.onFelt (fun f => { f with ppsRun := 0 }))
  else s

/-- Main power is lost: PPS_LOCKED becomes HOLDOVER (R988); Linen writes no record any more. -/
def discPowerLoss (s : State) : State :=
  let s := s.onFelt (fun f => { f with ppsRun := 0 })
  if s.fld rFELT_FSTAT 10 8 = 1 then (s.setFld rFELT_FSTAT 10 8 3).raise rFELT_FINTSTAT 2 else s

/-- At the end of a UTC day LEAP is taken from UTCOFF (R991); a TIMEMAP follows (R189). -/
def leapSecond (s : State) : State :=
  let leap := s.sfld rFELT_LEAP 16
  if leap = 0 then s
  else
    let off := signed 64 (s.rd64 rFELT_UTCOFF_LO rFELT_UTCOFF_HI) - leap * 2 ^ 24
    let s := (s.wr64 rFELT_UTCOFF_LO rFELT_UTCOFF_HI (unsigned 64 off)).wr rFELT_LEAP 0#32
    if s.mainOn then timemap s else s

/-- The UTC day number at an EVT. -/
def utcDay (s : State) (evt : Nat) : Int :=
  (evt + signed 64 (s.rd64 rFELT_UTCOFF_LO rFELT_UTCOFF_HI)) / (86400 * 2 ^ 24)

/-- ADJ for one cycle: absorbing SLEWREM (R994), the value of the last accepted edge for its second, the held limit, or FREQ
(R984–R986). -/
def adjCycle (s : State) : State :=
  let freq := freqOf s
  if s.felt.slewRem ≠ 0 then
    let step := (max 1 (adjLimit + freq)).toNat
    if step ≤ s.felt.slewRem then
      setAdj (-adjLimit) (s.onFelt (fun f => { f with slewRem := f.slewRem - step, adjUntil := 0 }))
    else setAdj (freq - s.felt.slewRem) (s.onFelt (fun f => { f with slewRem := 0, adjUntil := 0 }))
  else if s.felt.adjHeld ∨ s.felt.evt < s.felt.adjUntil then s
  else setAdj freq s

/-- The RTC's alarm (R974). -/
def alarm (s : State) : State :=
  if s.flag rFELT_ALARM_HI 31 ∧ s.felt.rtc = (s.rd rFELT_ALARM_LO).toNat + 2 ^ 32 * s.fld rFELT_ALARM_HI 15 0 then
    s.raise rFELT_FINTSTAT 3
  else s

/-- XRTC_CYCLE: RTC and EVT advance, the bridge copy reloads, the shadows are compared, a leap second is taken at the end of a
UTC day (R973, R977–R980, R1021). While XRTC has failed the cycle is one of IRC32K, and RTC stands. -/
def xrtcCycle (s : State) : State :=
  if s.power.st = .off then s
  else
    let s := adjCycle s
    let base : Int := if s.felt.xrtcFail then 524 * 2 ^ 16 else 512 * 2 ^ 16
    let sub := s.felt.sub + (base + adjOf s).toNat
    let before := s.felt.evt
    let s := s.onFelt (fun f => { f with sub := sub, evt := max f.evt (sub / 2 ^ 16) })
    let s := if s.felt.xrtcFail then s else alarm (s.onFelt (fun f => { f with rtc := (f.rtc + 1) % 2 ^ 48 }))
    let s := if utcDay s before < utcDay s s.felt.evt then leapSecond s else s
    shadowCheck s

/-! ## SET_TIME -/

/-- The device serial, data words 0–3 of the identity area, comes from the fuses (table *Identity and factory data words*). -/
def fuseWord (s : State) (i : Nat) : Word := sget (fun _ => 0#32) s.fuse.words i

/-- Data word `d` of the area that starts at physical word `b` (R1035). -/
def dataPhys (b d : Nat) : Nat := b + 4 * (d / 3) + d % 3

/-- The code byte stored for a physical data word (R1035). -/
def codeOf (s : State) (p : Nat) : BitVec 8 := (fuseWord s (p / 4 * 4 + 3) >>> (8 * (p % 4))).setWidth 8

/-- A data word as it reads: blank words read 0, a word that disagrees with its code is corrected or reads 0 (R1036, R1045).
Answers the word, corrected, uncorrectable. -/
def dataRead (s : State) (p : Nat) : Word × Bool × Bool :=
  let w := fuseWord s p
  let c := codeOf s p
  if (w = 0#32 ∧ c = 0#8) ∨ c = Config.secded w then (w, false, false)
  else
    match Config.secdedFix w c with
    | some v => (v, true, false)
    | none => (0#32, false, true)

/-- `n` data words of an area as bytes. -/
def dataBytes (s : State) (b d n : Nat) : Bytes :=
  (List.range n).flatMap (fun i => le 4 (dataRead s (dataPhys b (d + i))).1.toNat)

/-- SERIAL, 16 bytes. -/
def serialOf (s : State) : Bytes := dataBytes s 256 0 4

/-- The outcome of a request as the dictionary codes it (table *Abort codes*). -/
def aOK : Nat := 0x0000
def aNOOBJ : Nat := 0x0101
def aNOSUB : Nat := 0x0102
def aNORIGHT : Nat := 0x0201
def aSESSION : Nat := 0x0202
def aTYPE : Nat := 0x0301
def aRANGE : Nat := 0x0302
def aLENGTH : Nat := 0x0303
def aBUSY : Nat := 0x0401
def aSTATE : Nat := 0x0402
def aHWFAULT : Nat := 0x0501
def aTIMEOUT : Nat := 0x0601
def aABORTED : Nat := 0x0602

/-- ASCII "TZ-SET". -/
def labelSet : Bytes := [0x54, 0x5A, 0x2D, 0x53, 0x45, 0x54]

/-- The checks of a SET_TIME request in their order (R992). -/
def setTimeCheck (s : State) (q : Bytes) : Nat :=
  let h := s.fld rFELT_TIMEKEY 15 0
  let key := s.slot (hSlot h)
  let n (o k : Nat) : Nat := ofLe (slice q o k)
  if current s h = false ∨ key.st ≠ .loaded ∨ hasUsage key.attr uHMAC = false then aSTATE
  else if 4 ≤ n 0x1D 1 ∨ n 0x1E 2 ≠ 0 then aRANGE
  else if slice q 0x20 16 ≠ (hmac256 key.key (labelSet ++ serialOf s ++ q.take 0x20)).take 16 then aNORIGHT
  else if n 0x10 8 ≠ s.felt.mono ∨ n 0x18 4 ≠ ((s.rd rFELT_SETSEQ).toNat + 1) % 2 ^ 32 then aSTATE
  else if n 0x1D 1 % 2 = 1 ∧ n 0 8 + 60 * 2 ^ 24 < s.felt.evt then aRANGE
  else aOK

/-- SET_TIME: checked, then SETSEQ, the step or the slew, UTCOFF and LEAP, SET_AUTH, a TIME_SET entry (R992–R995). -/
def setTime (q : Bytes) (s : State) : Nat × State :=
  let code := setTimeCheck s q
  if code ≠ aOK then (code, s)
  else
    let n (o k : Nat) : Nat := ofLe (slice q o k)
    let setEvt := decide (n 0x1D 1 % 2 = 1)
    let setOff := decide (n 0x1D 1 / 2 % 2 = 1)
    let target := n 0 8
    let step := setEvt && decide (s.felt.evt ≤ target)
    let slew := setEvt && !step
    let s := s.wr rFELT_SETSEQ (loWord (n 0x18 4))
    let s := if step then s.onFelt (fun f => { f with sub := target * 2 ^ 16, evt := target, slewRem := 0 }) else s
    let s := if slew then s.onFelt (fun f => { f with slewRem := (f.evt - target) * 2 ^ 16, adjHeld := false }) else s
    let s := if setOff then
        (s.wr64 rFELT_UTCOFF_LO rFELT_UTCOFF_HI (n 8 8)).wr rFELT_LEAP (loWord (unsigned 16 (signed 8 (n 0x1C 1))))
      else s
    let s := (s.setFld rFELT_FSTAT 10 8 2).raise rFELT_FINTSTAT 2
    let s := timemap (s.onFelt (fun f => { f with ppsRun := 0 }))
    (aOK, feltLog 3 0xFF 0 (2 * step.toNat + 4 * slew.toNat) s)

/-! ## Built-in test -/

/-- TBIST of a source: refused outside 0–18, busy while that test runs; responses are suppressed until it ends (R1015,
R1018). -/
def tbist (src : Nat) (s : State) : Nat × State :=
  if 18 < src then (aRANGE, s)
  else if s.felt.tbist.isSome then (aBUSY, s)
  else (aOK, s.onFelt (fun f => { f with tbist := some src }))

/-- The cell is still out after the test of source 8: the event is taken now (R1017). -/
def cellPersists (src : Nat) (s : State) : State :=
  if src = 8 ∧ s.felt.cellOut = true ∧ (nth s.felt.src 8).tripped = false then cellEvent s else s

/-- TBIST_DONE: the result, a log entry, and the source's filter starts afresh (R1015, R1017, R1018). -/
def tbistDone (pass : Bool) (s : State) : State :=
  match s.felt.tbist with
  | none => s
  | some src =>
    let s := (s.setFlag rFELT_TBISTRES src pass).setFlag rFELT_TBISTRUN src true
    let s := setSrc src (fun x => { x with abnormal := 0 }) (s.onFelt (fun f => { f with tbist := none }))
    let s := (feltLog 5 src pass.toNat 0 s).raise rFELT_FINTSTAT 6
    cellPersists src (if pass then s else feltSticky 229 src s)

/-! ## The slow bridge -/

/-- A rejected write to a shadowed register or a shadow (R1020, R1028). -/
def shadowReject (a : Nat) (s : State) : State :=
  let s := setSticky 8 9 (a - 0x40010000) (s.onFelt (fun f => { f with half := none }))
  let s := s.raise rFELT_FINTSTAT 5
  let sec := s.felt.evt / 2 ^ 24
  if s.felt.rejSec = some sec then s else feltLog 4 0xFF 0 0 (s.onFelt (fun f => { f with rejSec := some sec }))

/-- A new seed of a loop from the DRBG, non-zero, or the previous one advanced (R999). -/
def loopSeed (k : Nat) (s : State) : State :=
  match drbgRequest 2 s with
  | (.served bs, s) =>
    let v := ofLe bs % 2 ^ 15
    setSrc k (fun x => { x with prbs := if v = 0 then 1 else v }) s
  | (_, s) => setSrc k (fun x => { x with prbs := prbsNext x.prbs }) s

/-- A TPCFG value field by field: MODE 5–7, and LOOP on an odd pin, leave MODE (R1000, R1033). -/
def tpcfgWord (k : Nat) (old w : Word) : Word :=
  let mode := bits w 2 0
  let m := if mode < 4 ∨ (mode = 4 ∧ k % 2 = 0) then mode else bits old 2 0
  field 2 0 m ||| field 5 4 (bits w 5 4) ||| field 10 8 (bits w 10 8) ||| field 20 16 (bits w 20 16) ||| 0x10000#32

/-- What a landed write does to the register at `a` (R1029, R1033). -/
def feltApply (a : Nat) (w : Word) (s : State) : State :=
  match (List.range 8).find? (fun k => decide (a = rFELT_TPCFG k)) with
  | some k =>
    let v := tpcfgWord k (s.rd a) w
    let s := (s.wr a v).wr (a + 4) (~~~ v)
    let off := decide (bits v 2 0 = 0)
    let s := setSrc k (fun x => { x with abnormal := 0, normal := 0, level := none, tripped := x.tripped && !off }) s
    loopSeed k s
  | none =>
    match (List.range 11).find? (fun i => decide (a = rFELT_SRESP i)) with
    | some _ =>
      let v := field 4 0 (bits w 4 0) ||| 1#32
      (s.wr a v).wr (a + 4) (~~~ v)
    | none =>
      if a = rFELT_SENSCFG ∨ a = rFELT_TIMEKEY then
        let v := if a = rFELT_TIMEKEY then w &&& 0xFFFF#32 else w &&& 0x733#32
        (s.wr a v).wr (a + 4) (~~~ v)
      else if a = rFELT_UTCOFF_LO ∨ a = rFELT_UTCOFF_HI then utcWrite a w s
      else if a = rFELT_LEAP then utcWrite a (w &&& 0xFFFF#32) s
      else
        match regAt a with
        | some r => s.wr a (r.write (s.rd a) w)
        | none => s

/-- The oldest posted write lands. -/
def feltPop (s : State) : State :=
  match s.felt.queue with
  | [] => s
  | (a, w) :: q => feltApply a w (s.onFelt (fun f => { f with queue := q }))

/-- FELT_WRITE_LANDS: the oldest posted write lands; none while a switchover is under way (R1029). -/
def feltLand (s : State) : State := if s.switching then s else feltPop s

/-- A write is posted; on a full queue the master waits until an entry has landed (R1029). -/
def feltPost (a : Nat) (w : Word) (s : State) : State :=
  let s := if 8 ≤ s.felt.queue.length then feltPop s else s
  s.onFelt (fun f => { f with queue := f.queue ++ [(a, w)] })

/-- A write that reaches the bridge: a shadowed register's value waits for its complement, any other write is posted. `inTime`:
the second half comes within 16 core cycles (R1019, R1020). -/
def feltWrite (a : Nat) (w : Word) (inTime : Bool) (s : State) : State :=
  if a ∈ rwsRegs then
    match s.felt.half with
    | none => s.onFelt (fun f => { f with half := some (a, w) })
    | some _ => shadowReject a s
  else if a - 4 ∈ rwsRegs then
    match s.felt.half with
    | some (x, v) =>
      if x + 4 = a ∧ w = ~~~ v ∧ inTime = true then feltPost x v (s.onFelt (fun f => { f with half := none }))
      else shadowReject a s
    | none => shadowReject a s
  else feltPost a w (s.onFelt (fun f => { f with half := none }))

/-- A switchover of Felt's supply, which loses nothing and completes within 1 µs (R969, R970; notes/assumptions/87.md). -/
def supplySwitch (toVbat : Bool) (s : State) : State :=
  if s.power.st = .off then s
  else (s.onFelt (fun f => { f with onVbat := toVbat, switchEnd := s.now + Config.freeNat s.freeCtr % 1001 })).fresh

/-- Every Felt register is at its reset value (R1024, R1031). -/
def feltFreshRegs (s : State) : State :=
  { s with regs := s.regs.filter (fun e =>
      !(within 0x40010000 0x10000 e.1 1 || decide (e.1 = rTWEED_WAKECFG) || decide (e.1 = rTWEED_IRC96TRIM))) }

end Sys2Proof.Machine
end

