-- ==== Sys2Proof/Machine/Boot.lean ====
section
/-!
DEFINITION. Fuses, lifecycle and secure boot (R1034–R1090): sensing, programming, the lifecycle, the boot ROM with image
checks, A/B slots and recovery, firmware update, certificates, debug unlock.
-/

namespace Sys2Proof.Machine

/-! ## Closing before a reset -/

/-- Every stripe that waits for its records gets them, custody by custody. -/
def sealOne (c : Nat) : Nat → State → State
  | 0, s => s
  | n + 1, s => sealOne c n (stripeRecordWritten c s)

/-- The records of every closed stripe are in MRAM. -/
def sealAll (s : State) : State := (List.range 64).foldl (fun s c => sealOne c (s.cust c).sealing.length s) s

/-- The pre-reset close of codes 0x08 and 0x09: ingest closes, open stripes close with SEAL, Twill flushes (R528). -/
def preResetClose (s : State) : State :=
  let s := s.onPower (fun p => { p with ingest := false })
  timeckNow (sealAll (closeAll .seal (List.range 64) s))

/-- RSTREQ with the right KEY (R527, R528); any other KEY is ignored. During the last breath the source is deferred (R525). -/
def resetRequest (cause : Nat) (s : State) : State :=
  if s.dying then assertReset cause s else assertReset cause (preResetClose s)

/-! ## Fuse words -/

/-- Bits programmed into a physical word; no bit returns to 0 (R1034). -/
def fuseProgram (p : Nat) (w : Word) (s : State) : State :=
  s.onFuse (fun f => { f with words := sset (fun _ => 0#32) f.words p (fuseWord s p ||| w) })

/-- A list of words programmed. -/
def fuseProgramAll : List (Nat × Word) → State → State
  | [], s => s
  | (p, w) :: l, s => fuseProgramAll l (fuseProgram p w s)

/-- The words that program data word `p` with its code (R1035, R1036). -/
def dataWords (p : Nat) (w : Word) : List (Nat × Word) :=
  [(p, w), (p / 4 * 4 + 3, (Config.secded w).setWidth 32 <<< (8 * (p % 4)))]

/-- The words that program bits of lock word `j`, three copies (table *Fuse areas*). -/
def critWords (j : Nat) (w : Word) : List (Nat × Word) := [(3 * j, w), (3 * j + 1, w), (3 * j + 2, w)]

/-- The words that program step `n` of counter `c`, copies A and B (R1037). -/
def stepWords (c n : Nat) : List (Nat × Word) :=
  let p := 64 + 4 * c + (n - 1) / 32
  let w : Word := BitVec.ofNat 32 (2 ^ ((n - 1) % 32))
  [(p, w), (p + 2, w)]

/-- A data word is programmed: its data or code bits read non-zero (R1036). -/
def dataProgrammed (s : State) (p : Nat) : Bool := decide (fuseWord s p ≠ 0#32) || decide (codeOf s p ≠ 0#8)

/-- Every one of `n` data words of an area from word `d` is programmed. -/
def areaProgrammed (s : State) (b d n : Nat) : Bool := (List.range n).all (fun i => dataProgrammed s (dataPhys b (d + i)))

/-- Effective lock word `j` (R1047). -/
def critOf (s : State) (j : Nat) : Word := s.fuse.crit.getD j 0#32

/-- Effective value of counter `c` (R1047). -/
def thermoOf (s : State) (c : Nat) : Nat := s.fuse.thermo.getD c 0

/-- Owner key slot `k` is usable (R1039). -/
def ownerUsable (s : State) (k : Nat) : Bool :=
  decide (k < 8) && areaProgrammed s 128 (12 * k) 12 && !bit (critOf s 2) k &&
    (List.range 12).all (fun i => !(dataRead s (dataPhys 128 (12 * k + i))).2.2)

/-- Some owner key slot is usable. -/
def anyOwner (s : State) : Bool := (List.range 8).any (ownerUsable s)

/-- The fuse root secret, 32 bytes: none while it is not programmed or holds an uncorrectable word (R1046). -/
def fuseRoot (s : State) : Option Bytes :=
  if areaProgrammed s 256 4 8 && (List.range 8).all (fun i => !(dataRead s (dataPhys 256 (4 + i))).2.2) then
    some (dataBytes s 256 4 8)
  else none

/-! ## Sensing -/

/-- The reads of physical word `p` at the three references: a listed exception, or its programmed bits (R1041). -/
def senseWord (l : List Sense) (s : State) (p : Nat) : List Word :=
  match l.find? (fun x => x.word = p) with
  | some x => [x.nominal, x.low, x.high]
  | none => let w := fuseWord s p; [w, w, w]

/-- All words of a list agree. -/
def allSame : List Word → Bool
  | [] => true
  | w :: ws => ws.all (fun v => v == w)

/-- A lock word: its effective value, and whether it is marginal (R1041, R1042). -/
def senseCrit (l : List Sense) (s : State) (j : Nat) : Word × Bool :=
  let reads := senseWord l s (3 * j) ++ senseWord l s (3 * j + 1) ++ senseWord l s (3 * j + 2)
  (reads.foldl (· ||| ·) 0#32, !allSame reads)

/-- The highest step of one copy read (R1037). -/
def highStep (v : Nat) : Nat := if v = 0 then 0 else Nat.log2 v + 1

/-- A counter: the highest value of its six copy reads, and whether it is marginal (R1041, R1043). -/
def senseThermo (l : List Sense) (s : State) (c : Nat) : Nat × Bool :=
  let p := 64 + 4 * c
  let pair (a b : Word) : Nat := a.toNat + 2 ^ 32 * b.toNat
  let reads := List.zipWith pair (senseWord l s p) (senseWord l s (p + 1)) ++
    List.zipWith pair (senseWord l s (p + 2)) (senseWord l s (p + 3))
  ((reads.map highStep).foldl max 0, !(reads.all (fun v => v == reads.headD 0)))

/-- First physical word of logical word `k`: lock words 0–20, counters 21–36. -/
def logicalPhys (k : Nat) : Nat := if k < 21 then 3 * k else 64 + 4 * (k - 21)

/-- The values of all logical words, as numbers, with their marginal status. -/
def senseAll (l : List Sense) (s : State) : List (Nat × Bool) :=
  (List.range 21).map (fun j => let x := senseCrit l s j; (x.1.toNat, x.2)) ++
    (List.range 16).map (fun c => senseThermo l s c)

/-- The lifecycle state of effective C0 (R1038). -/
def lifeOf (c0 : Word) : Life :=
  if bit c0 3 then .scrap else if bit c0 2 then .rma else if bit c0 1 then .fieldLife else if bit c0 0 then .personalise else .blank

/-- A marginal word: STK_FUSEMARG, COUNT, and INDEX for the first (R1044). -/
def noteMarginal (k : Nat) (s : State) : State :=
  let s := if s.fld rFUSE_MARGIDX 31 16 = 0 then s.setFld rFUSE_MARGIDX 6 0 (logicalPhys k) else s
  let s := s.incFld rFUSE_MARGIDX 31 16
  setSticky 13 10 (s.rd rFUSE_MARGIDX).toNat s

/-- A data word read through its code (R1045). -/
def noteData (p : Nat) (s : State) : State :=
  let r := dataRead s p
  let s := if r.2.1 then s.setFlag rFUSE_STAT 3 true else s
  if r.2.2 then setSticky 14 10 p (s.setFlag rFUSE_STAT 4 true) else s

/-- Step 2 of the reset sequence: words 0–127 at three references, DATA words through their code; the values are latched
(R1041–R1047). -/
def fuseSense (l : List Sense) (temp : Int) (s : State) : State :=
  let v := senseAll l s
  let crit := (v.take 21).map (fun x => BitVec.ofNat 32 x.1)
  let thermo := (v.drop 21).map Prod.fst
  let marg := (List.range 37).filter (fun k => (v.getD k (0, false)).2)
  let s := s.onFuse (fun f => { f with crit := crit, thermo := thermo, marginal := marg, life := lifeOf (crit.getD 0 0#32), op := none })
  let s := (List.range 4).foldl (fun s j => s.wr (rFUSE_CRIT j) (critOf s j)) s
  let s := (List.range 16).foldl (fun s c => s.wr (rFUSE_THERMO c) (loWord (thermoOf s c))) s
  let s := s.wr rFUSE_TEMPREF (loWord (unsigned 16 temp))
  let s := s.wr rFUSE_STAT (field 0 0 1 ||| field 1 1 (!marg.isEmpty).toNat ||| field 10 8 (lifeCode s.fuse.life))
  let s := marg.foldl (fun s k => noteMarginal k s) s
  ((s.fuse.words.map Prod.fst).filter (fun p => decide (128 ≤ p ∧ p % 4 ≠ 3))).foldl (fun s p => noteData p s) s

/-- FUSE_RESENSE: with the die 20 °C or more from TEMPREF, and no programming operation, words 0–127 are sensed again; a
difference sets DRIFT and changes no effective value (R1048, R1049). -/
def fuseResense (l : List Sense) (temp : Int) (s : State) : State :=
  let ref := signed 16 (s.fld rFUSE_TEMPREF 15 0)
  if s.fuse.op.isSome ∨ (temp - ref).natAbs < 200 then s
  else
    let s := s.wr rFUSE_TEMPREF (loWord (unsigned 16 temp))
    let v := senseAll l s
    let was (k : Nat) : Nat × Bool := (if k < 21 then (critOf s k).toNat else thermoOf s (k - 21), s.fuse.marginal.contains k)
    match (List.range 37).find? (fun k => decide (v.getD k (0, false) ≠ was k)) with
    | none => s
    | some k =>
      let s := s.setFlag rFUSE_STAT 2 true
      let s := if s.flag rFUSE_DRIFTIDX 31 then s else s.wr rFUSE_DRIFTIDX (field 6 0 (logicalPhys k) ||| field 31 31 1)
      setSticky 15 10 (logicalPhys k) s

/-! ## Programming -/

/-- PROGSTAT codes. -/
def fcLIFECYCLE : Nat := 1
def fcALREADY : Nat := 2
def fcTEMP : Nat := 3
def fcSUPPLY : Nat := 4
def fcREADBACK : Nat := 5
def fcRANGE : Nat := 6
def fcKEY : Nat := 7
def fcENTROPY : Nat := 8

/-- The lifecycle state permits an operation (table *Lifecycle states*, row fuse operations). -/
def fusePermits (l : Life) (op addr : Nat) (data : Word) : Bool :=
  match l with
  | .blank | .personalise => true
  | .fieldLife => decide (op = 3) || decide (op = 2 ∧ ((addr = 0 ∧ data &&& ~~~ 0xE#32 = 0#32) ∨ (1 ≤ addr ∧ addr ≤ 3)))
  | .rma => decide (op = 2 ∧ addr = 0 ∧ data &&& ~~~ 0x8#32 = 0#32)
  | .scrap => false

/-- ADDR, and the target step of THERMO, lie in range; so does OP itself. -/
def fuseInRange (op addr : Nat) (data : Word) : Bool :=
  match op with
  | 1 => decide (128 ≤ addr ∧ addr ≤ 1023)
  | 2 => decide (addr ≤ 20)
  | 3 => decide (addr ≤ 15 ∧ 1 ≤ data.toNat ∧ data.toNat ≤ 64)
  | 4 => true
  | _ => false

/-- What is already programmed (R1052). -/
def fuseAlready (s : State) (op addr : Nat) (data : Word) : Bool :=
  match op with
  | 1 => decide (addr % 4 = 3) || dataProgrammed s addr
  | 3 => decide (data.toNat ≤ thermoOf s addr)
  | 4 => (List.range 8).any (fun i => dataProgrammed s (dataPhys 256 (4 + i)))
  | _ => false

/-- The refusals of R1052, in the order the rule lists them, range first among those that need an address
(notes/assumptions/45.md); 0 when the operation may run. -/
def fuseCheck (s : State) (op addr : Nat) (data : Word) (temp : Int) : Nat :=
  if fusePermits s.fuse.life op addr data = false then fcLIFECYCLE
  else if fuseInRange op addr data = false then fcRANGE
  else if fuseAlready s op addr data then fcALREADY
  else if temp < 0 ∨ 850 < temp then fcTEMP
  else if s.power.io18 = false then fcSUPPLY
  else 0

/-- ROOT's words and codes, and C4 bit 1 (R1054). -/
def rootWords (root : Bytes) : List (Nat × Word) :=
  (List.range 8).flatMap (fun i => dataWords (dataPhys 256 (4 + i)) (wordOf (slice root (4 * i) 4))) ++ critWords 4 2#32

/-- An operation's words put to work; BUSY. -/
def fuseBegin (op addr : Nat) (words : List (Nat × Word)) (s : State) : State :=
  let s := s.onFuse (fun f => { f with op := some { op := op, addr := addr, words := words } })
  (s.wr rFUSE_PROGSTAT 1#32).setFlag rFUSE_STAT 5 true

/-- A refused or ended operation's code. -/
def fuseCode (code : Nat) (s : State) : State := s.wr rFUSE_PROGSTAT (field 7 4 code)

/-- A PROGCMD with the right KEY: refused with its code, or started. None starts during the last breath (R1055) or while one
runs. -/
def fuseStart (op addr : Nat) (data : Word) (temp : Int) (s : State) : State :=
  if s.dying ∨ s.fuse.op.isSome then s
  else
    let code := fuseCheck s op addr data temp
    if code ≠ 0 then fuseCode code s
    else if op = 1 then fuseBegin 1 addr (dataWords addr data) s
    else if op = 2 then fuseBegin 2 addr (critWords addr data) s
    else if op = 3 then
      fuseBegin 3 addr ((List.range (data.toNat - thermoOf s addr)).flatMap (fun i => stepWords addr (thermoOf s addr + i + 1))) s
    else
      match drbgNow 32 s with
      | (some bs, s) => fuseBegin 4 0 (rootWords bs) s
      | (none, s) => fuseCode fcENTROPY s

/-- A write of PROGCMD: any KEY but 0xB1A5 is ignored and sets CODE KEY (R1050). -/
def progCmd (w : Word) (temp : Int) (s : State) : State :=
  if bits w 31 16 ≠ 0xB1A5 then s.setFld rFUSE_PROGSTAT 7 4 fcKEY
  else fuseStart (bits w 14 12) (bits w 9 0) (s.rd rFUSE_PROGDATA) temp s

/-- FUSE_PROGRAMMING_DONE: `good` words took all their bits, the next one took those of `part`. A bit that reads back 0 ends
the operation with READBACK; during the last breath it just stops (R1051, R1055). -/
def fuseDone (good : Nat) (part : Word) (s : State) : State :=
  match s.fuse.op with
  | none => s
  | some o =>
    let s := fuseProgramAll (o.words.take good) s
    let short := (o.words.drop good).head?
    let s := match short with | some (p, w) => fuseProgram p (w &&& part) s | none => s
    let s := (s.onFuse (fun f => { f with op := none })).setFlag rFUSE_STAT 5 false
    if short.isNone then fuseCode 0 s
    else if s.dying then s.setFlag rFUSE_PROGSTAT 0 false
    else setSticky 16 10 o.addr (fuseCode fcREADBACK s)

/-! ## Lifecycle -/

/-- The condition of a transition (table *Transitions and their conditions*). -/
def lifeAllowed (s : State) (target : Nat) : Bool :=
  match s.fuse.life, target with
  | .blank, 1 => areaProgrammed s 256 0 4
  | .personalise, 2 =>
    areaProgrammed s 256 4 8 && areaProgrammed s 256 0 4 && dataProgrammed s (dataPhys 256 36) && bit (critOf s 4) 2 && anyOwner s
  | .fieldLife, 3 => s.boot.unlocked
  | .scrap, _ => false
  | _, 4 => true
  | _, _ => false

/-- LIFECYCLE_ADVANCE: checks, the C0 bit, then the pre-reset close and a full reset of cause 0x09 (R1060, R1061). -/
def lifecycleAdvance (target : Nat) (s : State) : Nat × State :=
  if lifeAllowed s target = false ∨ s.dying then (aSTATE, s)
  else if s.fuse.op.isSome then (aBUSY, s)
  else (aOK, resetRequest 9 (fuseProgramAll (critWords 0 (BitVec.ofNat 32 (2 ^ (target - 1)))) s))

/-! ## Preference record -/

/-- The record in force: the valid copy with the higher sequence number, or the default (R1076). -/
def prefOf (s : State) : Pref :=
  let a := s.boot.prefA
  let b := s.boot.prefB
  if a.valid && (!b.valid || decide (b.seq ≤ a.seq)) then a else if b.valid then b else {}

/-- A new record, written over the older copy. -/
def prefPut (p : Pref) (s : State) : State :=
  let cur := prefOf s
  let p := { p with valid := true, seq := cur.seq + 1 }
  let s := if s.boot.prefA = cur then s.onBoot (fun b => { b with prefB := p }) else s.onBoot (fun b => { b with prefA := p })
  s.wr rBOOT_RBMIN (loWord p.rbmin)

/-! ## Images -/

/-- An erased flash byte. -/
def flashDefault (_ : Nat) : Byte := 0xFF

/-- Flash offset of a slot (R1067). -/
def slotBase (b : Bool) : Nat := if b then 0x200000 else 0

/-- Bytes of a slot. -/
def slotBytes (s : State) (b : Bool) (off n : Nat) : Bytes :=
  (List.range n).map (fun i => sget flashDefault s.boot.flash (slotBase b + off + i))

/-- A header field. -/
def hfld (h : Bytes) (off n : Nat) : Nat := ofLe (slice h off n)

/-- ASCII "TZIMG960". -/
def imgMagic : Bytes := [0x54, 0x5A, 0x49, 0x4D, 0x47, 0x39, 0x36, 0x30]

/-- Check 1: MAGIC, HDRVER, IMGLEN, ENTRY and reserved fields. -/
def hdrValid (h : Bytes) : Bool :=
  let len := hfld h 0xC 4
  h.take 8 == imgMagic && decide (hfld h 8 4 = 1) && decide (16 ≤ len ∧ len ≤ 1835008 ∧ len % 16 = 0) &&
    decide (hfld h 0x18 4 % 4 = 0 ∧ hfld h 0x18 4 < len) && decide (hfld h 0x16 2 < 2) &&
    (slice h 0x2C 4).all (· == 0) && (slice h 0x130 208).all (· == 0)

/-- Check 2: the key is that of a usable owner slot, or the factory key while it is accepted (table *Lifecycle states*). -/
def keyAccepted (s : State) (h : Bytes) : Bool :=
  let k := hfld h 0x15 1
  let pub := slice h 0x70 96
  if k = 0xFF then
    (decide (s.fuse.life = .blank) || (decide (s.fuse.life = .personalise) && !anyOwner s)) && pub == fit 96 Config.factoryKey
  else
    decide (s.fuse.life ≠ .blank ∧ s.fuse.life ≠ .scrap) && ownerUsable s k &&
      fit 48 (Config.digest 1 pub) == dataBytes s 128 (12 * k) 12

/-- The first check of the table *Image checks* that fails; 0 when all pass. `img` is the image as stored. -/
def imageCheck (s : State) (h img : Bytes) : Nat :=
  let enc := decide (hfld h 0x16 2 = 1)
  let key := (s.slot 18).key
  if hdrValid h = false then 1
  else if keyAccepted s h = false then 2
  else if hfld h 0x14 1 < max (thermoOf s 0) (prefOf s).rbmin then 3
  else if fit 48 (Config.digest 1 img) ≠ slice h 0x40 48 then 4
  else if Config.pkVerify 2 (slice h 0x70 96) (Config.digest 1 (h.take 0xD0)) (slice h 0xD0 96) = false then 5
  else if (bit (critOf s 3) 0 ∧ enc = false) ∨ (enc = true ∧ (s.slot 18).st ≠ .loaded) then 6
  else if enc = true ∧ fit 16 (Config.gcmTag key (slice h 0x20 12) (h.take 0x20) img) ≠ slice h 0x30 16 then 7
  else 0

/-- The image in clear (check 7). -/
def imageClear (s : State) (h img : Bytes) : Bytes :=
  if hfld h 0x16 2 = 1 then fit img.length (Config.gcmDec (s.slot 18).key (slice h 0x20 12) (h.take 0x20) img) else img

/-- A slot's header, and its image as long as the header says when that is legal. -/
def slotImage (s : State) (b : Bool) : Bytes × Bytes :=
  let h := slotBytes s b 0 512
  (h, if hdrValid h then slotBytes s b 512 (hfld h 0xC 4) else [])

/-- An accepted image: copied to core SRAM, and Serge jumps to its entry (R1068, R1069). -/
def runImage (h img : Bytes) (s : State) : State :=
  let s := s.store 0x10000000 (imageClear s h img)
  let s := s.onBoot (fun b => { b with header := h, recovery := false, uart := [] })
  s.onSerge (fun c => { c with pc := BitVec.ofNat 32 (0x10000000 + hfld h 0x18 4), halted := false })

/-! ## The boot ROM -/

/-- STRAPS as the ROM acts on them (R1066). -/
def strapsOf (s : State) (straps : Nat) : Nat := if bit (critOf s 3) 1 ∧ straps % 4 = 2 then 0 else straps % 4

/-- A trial boot: TRIES goes down, or with TRIES 0 the other slot is preferred and REVERTED set (R1080). -/
def trialStep (s : State) : State :=
  let p := prefOf s
  if p.trial = false then s
  else if p.tries = 0 then (prefPut { p with slotB := !p.slotB, trial := false } s).setFlag rBOOT_BOOTSTAT 7 true
  else prefPut { p with tries := p.tries - 1 } s

/-- Recovery: BOOTSTAT.RECOVERY, and with C3 bit 1 clear the ROM waits for an image over the UART (R1070). -/
def enterRecovery (s : State) : State :=
  let s := s.setFlag rBOOT_BOOTSTAT 9 true
  let s := s.onBoot (fun b => { b with header := [], recovery := !bit (critOf s 3) 1, uart := [] })
  s.onSerge (fun c => { c with pc := 0#32, halted := false })

/-- The slots in the order the ROM tries them (R1066, R1067, R1069). -/
def slotOrder (s : State) (straps : Nat) : List Bool :=
  let first := if straps = 1 then true else (prefOf s).slotB
  [first, !first].filter (fun b => !b || !bit (critOf s 3) 2)

/-- The ROM from PC 0: straps, trial count, slots, then the image or recovery (R1066–R1070, R1080). -/
def romBoot (straps : Nat) (s : State) : State :=
  let s := s.setFld rBOOT_BOOTSTAT 3 2 straps
  let s := (s.setFlag rBOOT_BOOTSTAT 9 false).setFlag rBOOT_BOOTSTAT 1 false
  let eff := strapsOf s straps
  let s := trialStep s
  let p := prefOf s
  let s := (s.setFlag rBOOT_BOOTSTAT 4 p.trial).setFld rBOOT_BOOTSTAT 6 5 p.tries
  let s := s.wr rBOOT_RBMIN (loWord p.rbmin)
  if eff = 2 then enterRecovery s
  else
    match (slotOrder s eff).find? (fun b => decide (imageCheck s (slotImage s b).1 (slotImage s b).2 = 0)) with
    | some b => runImage (slotImage s b).1 (slotImage s b).2 (s.setFlag rBOOT_BOOTSTAT 0 b)
    | none => enterRecovery s

/-- RECOVERY_BLOCK: a block whose CRC holds is kept and answered 0x06, else 0x15. A whole image is checked and run from core
SRAM; one that fails its checks is dropped (R1070). -/
def recoveryBlock (data : Bytes) (crcOk : Bool) (s : State) : State :=
  if s.boot.recovery = false then s
  else if crcOk = false then s.onBoot (fun b => { b with uartAns := some 0x15 })
  else
    let all := s.boot.uart ++ data
    let s := s.onBoot (fun b => { b with uart := all, uartAns := some 0x06 })
    let h := all.take 512
    if all.length < 512 then s
    else if hdrValid h = false then s.onBoot (fun b => { b with uart := [] })
    else if all.length < 512 + hfld h 0xC 4 then s
    else
      let img := slice all 512 (hfld h 0xC 4)
      if imageCheck s h img = 0 then runImage h img (s.setFlag rBOOT_BOOTSTAT 1 true)
      else s.onBoot (fun b => { b with uart := [] })

/-! ## Firmware update -/

/-- The slot that is not booted (R1077). -/
def inactiveB (s : State) : Bool := !s.flag rBOOT_BOOTSTAT 0

/-- OSPI STAT: BUSY, ERASING, PROGRAMMING. -/
def ospiStat (s : State) : State :=
  s.wr rOSPI_STAT (match s.boot.flashOp with | none => 0#32 | some (.erase _) => 3#32 | some (.program _ _) => 5#32)

/-- FW_OFFSET: bit 31 erases the inactive slot, else the offset is set (R1077). -/
def fwOffset (v : Nat) (s : State) : Nat × State :=
  if s.boot.flashOp.isSome then (aBUSY, s)
  else if 0x80000000 ≤ v then
    (aOK, ospiStat (s.onBoot (fun b => { b with offset := 0, flashOp := some (.erase (inactiveB s)) })))
  else if 0x1FFFFF < v then (aRANGE, s)
  else (aOK, s.onBoot (fun b => { b with offset := v }))

/-- FW_CHUNK: busy while an erase or chunk runs; STATE on overlap or beyond the slot (R1078). -/
def fwChunk (data : Bytes) (s : State) : Nat × State :=
  let off := s.boot.offset
  let n := data.length
  if s.boot.flashOp.isSome then (aBUSY, s)
  else if 0x200000 < off + n ∨ s.boot.written.any (fun r => decide (r.1 < off + n ∧ off < r.1 + r.2)) then (aSTATE, s)
  else if n = 0 then (aOK, s)
  else
    (aOK, ospiStat (s.onBoot (fun b => { b with
      offset := off + n, written := b.written ++ [(off, n)],
      flashOp := some (.program (slotBase (inactiveB s) + off) data) })))

/-- Flash bytes set from an offset on. -/
def flashPut (off : Nat) : Bytes → List (Nat × Byte) → List (Nat × Byte)
  | [], l => l
  | b :: bs, l => flashPut (off + 1) bs (sset flashDefault l off b)

/-- A slot erased. -/
def flashErase (b : Bool) (l : List (Nat × Byte)) : List (Nat × Byte) :=
  l.filter (fun e => !within (slotBase b) 0x200000 e.1 1)

/-- OSPI_OPERATION_DONE: the erase or program has taken effect; stalled fetches resume (R1075). -/
def ospiDone (s : State) : State :=
  match s.boot.flashOp with
  | none => s
  | some (.erase b) =>
    ospiStat (s.onBoot (fun x => { x with flashOp := none, flash := flashErase b x.flash, written := [] }))
  | some (.program off data) =>
    ospiStat (s.onBoot (fun x => { x with flashOp := none, flash := flashPut off data x.flash }))

/-- A flash operation that a reset or power loss cuts short leaves the bytes it was changing at values the spec does not
give: free bytes (R1078, table *Fuse and boot races*). -/
def flashTorn (s : State) : State :=
  match s.boot.flashOp with
  | none => s
  | some (.erase b) =>
    (s.onBoot (fun x => { x with
      flashOp := none,
      flash := x.flash.foldl (fun l e => if within (slotBase b) 0x200000 e.1 1 then sset flashDefault l e.1 (Config.freeByte (s.freeCtr + e.1)) else l)
        x.flash })).fresh
  | some (.program off data) =>
    (s.onBoot (fun x => { x with flashOp := none, flash := flashPut off (freeBytes s.freeCtr data.length) x.flash })).fresh

/-- FW_COMMIT: the inactive slot under R1068; the trial record on success (R1079). Busy during a warm restart (R1085) and
while the flash is being changed. -/
def fwCommit (s : State) : Nat × State :=
  if s.boot.warm ≠ .idle ∨ s.boot.flashOp.isSome then (aBUSY, s)
  else
    let b := inactiveB s
    match imageCheck s (slotImage s b).1 (slotImage s b).2 with
    | 0 => (aOK, prefPut { prefOf s with slotB := b, trial := true, tries := 3 } s)
    | 2 | 5 => (aNORIGHT, s)
    | 3 => (aRANGE, s)
    | _ => (aSTATE, s)

/-- CONFIRM with KEY 0xC0F1: TRIAL 0, RBMIN of the image that runs, and T0 advanced to it by OP 3 when it is lower (R1081). -/
def confirm (key : Nat) (temp : Int) (s : State) : State :=
  if key ≠ 0xC0F1 ∨ s.boot.header = [] then s
  else
    let rb := hfld s.boot.header 0x14 1
    let s := prefPut { prefOf s with trial := false, rbmin := rb } s
    let s := s.setFlag rBOOT_BOOTSTAT 4 false
    if thermoOf s 0 < rb then fuseStart 3 0 (loWord rb) temp s else s

/-! ## Certificates -/

/-- CERTCMD.GO: accepted only in PERSONALISE, with C4 bit 2 clear and CERTDIG blank, 1–8,192 bytes of core SRAM, a first
certificate that carries the key of slot 17; the chain is stored, CERTDIG and C4 bit 2 programmed (R1063, R1055). -/
def certGo (s : State) : State :=
  let a := (s.rd rBOOT_CERTADDR).toNat
  let n := s.fld rBOOT_CERTLEN 13 0
  let chain := s.load a n
  if s.fuse.life ≠ .personalise ∨ bit (critOf s 4) 2 ∨ areaProgrammed s 256 28 1 ∨ n = 0 ∨ 8192 < n ∨ inCore a n = false ∨ s.dying
      ∨ s.fuse.op.isSome ∨ fit 64 (Config.certPub chain) ≠ slotPub s 17 then
    s.wr rBOOT_CERTSTAT 2#32
  else
    let d := fit 32 (Config.sha256 chain)
    let words := (List.range 8).flatMap (fun i => dataWords (dataPhys 256 (28 + i)) (wordOf (slice d (4 * i) 4)))
    let s := fuseProgramAll (words ++ critWords 4 4#32) (s.onBoot (fun b => { b with chain := chain, chainBad := false }))
    s.wr rBOOT_CERTSTAT 1#32

/-- At boot a stored chain is held against CERTDIG (R1064). -/
def certCheck (s : State) : State :=
  if s.boot.chain = [] ∨ fit 32 (Config.sha256 s.boot.chain) = dataBytes s 256 28 8 then
    s.onBoot (fun b => { b with chainBad := false })
  else setSticky 11 10 0 (s.onBoot (fun b => { b with chainBad := true }))

/-- DEVICE_CERT: empty when the chain fails its digest (R1064) and in RMA (R1058). -/
def deviceCert (s : State) : Bytes := if s.boot.chainBad ∨ s.fuse.life = .rma then [] else s.boot.chain

/-! ## Debug unlock -/

/-- No challenge or response is served: three failures, or C1 bit 2 (R1090). -/
def debugShut (s : State) : Bool := decide (3 ≤ s.fld rBOOT_DBGSTAT 3 1) || bit (critOf s 1) 2

/-- A read of DEBUG_CHALLENGE: 32 fresh bytes; any earlier challenge is cancelled (R1087). -/
def debugChallenge (s : State) : Nat × Bytes × State :=
  if debugShut s then (aSTATE, [], s)
  else
    match drbgNow 32 (s.onBoot (fun b => { b with challenge := none })) with
    | (some bs, s) => (aOK, bs, s.onBoot (fun b => { b with challenge := some (bs, s.now) }))
    | (none, s) => (aHWFAULT, [], s)

/-- ASCII "TZ-DBG". -/
def labelDbg : Bytes := [0x54, 0x5A, 0x2D, 0x44, 0x42, 0x47]

/-- The response answers the challenge in force, at most 60 s old (R1088). -/
def debugAccepts (s : State) (sig : Bytes) : Bool :=
  match s.boot.challenge with
  | none => false
  | some (ch, t) =>
    decide (s.now ≤ t + 60000000000) &&
      Config.pkVerify 1 (dataBytes s 256 12 16) (Config.sha256 (labelDbg ++ serialOf s ++ ch ++ le 8 s.felt.mono)) sig

/-- A write of DEBUG_RESPONSE (R1088–R1090). -/
def debugResponse (sig : Bytes) (s : State) : Nat × State :=
  if debugShut s then (aSTATE, s)
  else if debugAccepts s sig then
    let s := epochRequest { reason := .request } (s.onBoot (fun b => { b with challenge := none }))
    let s := (s.onBoot (fun b => { b with unlocked := true })).setFlag rBOOT_DBGSTAT 0 true
    (aOK, setSticky 12 10 0 s)
  else
    (aNORIGHT, (s.onBoot (fun b => { b with challenge := none })).setFld rBOOT_DBGSTAT 3 1 (s.fld rBOOT_DBGSTAT 3 1 + 1))

end Sys2Proof.Machine
end

