-- ==== Sys2Proof/Machine/Export.lean ====
section
/-!
DEFINITION. The CSL package (R215–R219), package bounds and the first pass (R701–R706), the read doors of the PCIe endpoint
(R695–R709) and what link loss does (R710–R713).
-/

namespace Sys2Proof.Machine

/-! ## Bounds -/

/-- Result codes of export jobs (registers RD[r].STATE, XSTATE). -/
def xOK : Nat := 1
def xPARTIAL : Nat := 2
def xABORTED : Nat := 3
def xLINKDOWN : Nat := 4
def xRANGE : Nat := 5
def xNORIGHT : Nat := 6
def xRECLAIMED : Nat := 7
def xLOST : Nat := 8
def xSTALL : Nat := 9
def xREMOVED : Nat := 10
def xCARDFAIL : Nat := 11
def xNOSPACE : Nat := 12
def xWPROT : Nat := 13

/-- Next SEQ of custody `c` in each ANCHOR's snapshot, ANCHOR by ANCHOR; an empty chain anchors nothing. -/
def covered (s : State) (c : Nat) : List Nat := (s.linen.anchors.map (fun a => a.2.getD c 0)).filter (0 < ·)

/-- LASTSEQ + 1: one past the highest record at or below the requested one that an ANCHOR's head covers (R701); none without. -/
def boundLast (s : State) (c last : Nat) : Option Nat := ((covered s c).filter (fun q => decide (q ≤ last + 1))).max?

/-- FIRSTSEQ: 0, or the record after the highest anchored head at or below the requested FIRSTSEQ − 1 (R702). -/
def boundFirst (s : State) (c first : Nat) : Nat := ((covered s c).filter (fun q => decide (q ≤ first))).foldl max 0

/-! ## Resolution -/

/-- A ledger record lies in the journal: the log, an open ledger unit or a superpage not yet mapped holds it. -/
def recInJournal (s : State) (r : Rec) : Bool :=
  s.jrn.log.any (fun e => match e.body with | .ledger _ _ q => decide (q.cust = r.cust ∧ q.seq = r.seq) | _ => false) ||
    s.jrn.ns.any (fun n => n.ledgerUnit.any (fun q => decide (q.cust = r.cust ∧ q.seq = r.seq)))

/-- The unit of a namespace whose stored bytes hold a record. -/
def recUnit (s : State) (ns : Nat) (bs : Bytes) : Option Nat :=
  ((s.nspace ns).stored.find? (fun e => (List.range 32).any (fun i => slice e.2 (128 * i) bs.length == bs))).map Prod.fst

/-- How a ledger record resolves (R704). -/
def resolveRec (s : State) (r : Rec) : Resolved :=
  if recInJournal s r then .journal
  else match recUnit s (chainNs s r.cust) r.bytes with
    | some u => resolveUnit s (chainNs s r.cust) u
    | none => .reclaimed

/-- The stripe that a STRIPE record names: namespace, first unit, length, KEYVER. -/
def stripeOf (s : State) (r : Rec) : Option (Nat × Nat × Nat × Nat) :=
  match r.body with
  | .stripe _ _ offset ns _ len _ _ keyver _ => some (ns, unitOfOffset (s.nspace ns) offset, len, keyver)
  | _ => none

/-- The units of a stripe. -/
def stripeUnits (ns u len : Nat) : List (Nat × Nat) := (List.range ((len + 4095) / 4096)).map (fun k => (ns, u + k))

/-- Its stored XTS form (R219): from the journal once encrypted, else from the units' stored bytes; none when a unit resolves
RECLAIMED or LOST (R705), or while the stripe waits for its key (R272, notes/assumptions/48.md). -/
def stripeCipher (s : State) (r : Rec) : Option Bytes :=
  match stripeOf s r with
  | none => none
  | some (ns, u, len, _) =>
    match s.jrn.stripes.find? (fun j => decide (j.cust = r.cust ∧ j.seq = r.seq)) with
    | some j => if j.encrypted then some j.cipher else (stripeKey s j).map (fun k => encryptStripe k j)
    | none =>
      if (stripeUnits ns u len).all (fun x => match resolveUnit s x.1 x.2 with | .at_ _ _ => true | .journal => true | _ => false) then
        some (fit ((len + 15) / 16 * 16) ((stripeUnits ns u len).flatMap (fun x => ((s.nspace x.1).stored.lookup x.2).getD [])))
      else none

/-- The plaintext of a stripe when the bank of its KEYVER is held (R276, R279). -/
def stripePlain (s : State) (r : Rec) (cipher : Bytes) : Option Bytes :=
  match stripeOf s r with
  | none => none
  | some (ns, u, len, keyver) =>
    let j : JStripe := { cust := r.cust, keyver := keyver }
    if keyver = 0 then none
    else (stripeKey s j).map (fun key =>
      (xtsUnits false key 4096 ((cipher.length + 4095) / 4096) (u % 2 ^ 36 + ns * 2 ^ 48 + r.cust * 2 ^ 56) cipher).take len)

/-! ## The package -/

/-- Zero padding to a multiple of 16. -/
def pad16 (b : Bytes) : Bytes := b ++ zeros ((16 - b.length % 16) % 16)

/-- A section: TYPE, reserved, COUNT, LENGTH, padded body (R215). -/
def section_ (type count : Nat) (body : Bytes) : Bytes :=
  le 2 type ++ zeros 2 ++ le 4 count ++ le 8 body.length ++ pad16 body

/-- The length of the DER element at the head of a byte string, its header included; 0 when it is not one. -/
def derLen (b : Bytes) : Nat :=
  let l := (b.getD 1 0).toNat
  let big (n : Nat) : Nat := 2 + n + ((slice b 2 n).foldl (fun v x => 256 * v + x.toNat) 0)
  if b.length < 2 then 0 else if l < 128 then 2 + l else if l ≤ 132 then big (l - 128) else 0

/-- The certificates of a chain stored one after the other. -/
def derSplit : Nat → Bytes → List Bytes
  | 0, _ => []
  | n + 1, b => if b = [] ∨ derLen b = 0 then [] else b.take (derLen b) :: derSplit n (b.drop (derLen b))

/-- CERTS. -/
def certsSection (s : State) : Bytes :=
  let l := derSplit 16 (deviceCert s)
  section_ 1 l.length (l.flatMap (fun c => le 4 c.length ++ c))

/-- NEWEPOCH of an EPOCH record, and whether it is GENESIS or KEYLOST. -/
def epochOf (r : Rec) : Option (Nat × Bool) :=
  match r.body with
  | .epoch n reason .. => some (n, decide (reason = 0 ∨ reason = 4))
  | _ => none

/-- The ANCHOR's EPOCH. -/
def anchorEpoch (r : Rec) : Nat := match r.body with | .anchor _ _ e .. => e | _ => 0

/-- The device record of SEQ `q`. -/
def devRec (s : State) (q : Nat) : Option Rec := (s.chain devChain).recs.find? (fun r => decide (r.seq = q))

/-- EPOCHS: from the latest GENESIS or KEYLOST epoch at or before the first anchor's. -/
def epochsSection (s : State) (firstEpoch : Nat) : Bytes :=
  let es := (s.chain devChain).recs.filter (fun r => (epochOf r).isSome)
  let start := ((es.filterMap epochOf).filter (fun e => e.2 && decide (e.1 ≤ firstEpoch))).foldl (fun m e => max m e.1) 0
  let l := es.filter (fun r => match epochOf r with | some e => decide (start ≤ e.1) | none => false)
  section_ 2 l.length (l.flatMap Rec.bytes)

/-- A custody's head after its record `q − 1`. -/
def headAt (s : State) (c q : Nat) : Bytes :=
  if q = 0 then zeros 32
  else match (s.chain c).recs.find? (fun r => decide (r.seq + 1 = q)) with
    | some r => fit 32 (Config.sha256 r.bytes)
    | none => zeros 32

/-- Sibling digests of leaf `c` from the leaf level up (table *CSL sections*). -/
def siblings (c : Nat) : Nat → List Bytes → List Bytes
  | 0, _ => []
  | n + 1, level => level.getD (if c % 2 = 0 then c + 1 else c - 1) [] :: siblings (c / 2) n (merkleUp level)

/-- One item of ANCHORS, 480 bytes. -/
def anchorItem (s : State) (c : Nat) (a : Nat × List Nat) : Bytes :=
  let leaves := (List.range 64).map (fun n => fit 32 (Config.sha256 (BitVec.ofNat 8 n :: headAt s n (a.2.getD n 0))))
  fit 256 (match devRec s a.1 with | some r => r.bytes | none => []) ++ headAt s c (a.2.getD c 0) ++ (siblings c 6 leaves).flatten

/-- ANCHORS from the opening to the closing one (R216). -/
def anchorsOf (s : State) (c first last : Nat) : List (Nat × List Nat) :=
  let opening := (s.linen.anchors.filter (fun a => decide (a.2.getD c 0 ≤ first))).foldl (fun m a => max m a.1) 0
  let closing := ((s.linen.anchors.filter (fun a => decide (a.2.getD c 0 = last + 1))).head?.map Prod.fst).getD 0
  s.linen.anchors.filter (fun a => decide ((opening ≤ a.1 ∨ first = 0) ∧ a.1 ≤ closing))

/-- One DATA item. -/
def dataItem (s : State) (plain : Bool) (r : Rec) (cipher : Bytes) : Bytes :=
  let len := match stripeOf s r with | some x => x.2.2.1 | none => 0
  match (if plain then stripePlain s r cipher else none) with
  | some p => le 8 r.seq ++ le 4 len ++ le 1 1 ++ zeros 3 ++ pad16 p
  | none => le 8 r.seq ++ le 4 len ++ le 1 0 ++ zeros 3 ++ pad16 cipher

/-- TIMEMAPS in force over the slice: the last one before it and those within. -/
def timemapsOf (s : State) (from_ to_ : Nat) : List Rec :=
  let l := (s.chain devChain).recs.filter (fun r => match r.body with | .timemap .. => true | _ => false)
  let before := l.filter (fun r => decide (r.evt ≤ from_))
  before.drop (before.length - 1) ++ l.filter (fun r => decide (from_ < r.evt ∧ r.evt ≤ to_))

/-- The package of custody `c`, FIRSTSEQ to LASTSEQ, and how many stripes it omits (R215–R219, R705). -/
def cslPackage (s : State) (c first last : Nat) (plain : Bool) : Bytes × Nat :=
  let recs := (s.chain c).recs.filter (fun r => decide (first ≤ r.seq ∧ r.seq ≤ last))
  let stripes := recs.filter (fun r => (stripeOf s r).isSome)
  let data := stripes.filterMap (fun r => (stripeCipher s r).map (fun b => (r, b)))
  let anchors := anchorsOf s c first last
  let firstEpoch := match anchors with | a :: _ => ((devRec s a.1).map anchorEpoch).getD 0 | [] => 0
  let maps := timemapsOf s ((recs.head?.map Rec.evt).getD 0) ((recs.getLast?.map Rec.evt).getD 0)
  let head : Bytes := [0x43, 0x53, 0x4C, 0x01] ++ le 2 64 ++ le 2 plain.toNat ++ le 1 c ++ zeros 7 ++ le 8 first ++ le 8 last
    ++ le 8 s.felt.evt ++ serialOf s ++ le 4 7 ++ zeros 4
  let body := head ++ certsSection s ++ epochsSection s firstEpoch
    ++ section_ 3 anchors.length (anchors.flatMap (anchorItem s c))
    ++ section_ 4 recs.length (recs.flatMap Rec.bytes)
    ++ section_ 5 data.length (data.flatMap (fun x => dataItem s plain x.1 x.2))
    ++ section_ 6 maps.length (maps.flatMap Rec.bytes)
  let part := le 8 s.felt.evt ++ keyIdOf (slotPub s (activeSlot s)) ++ le 4 s.linen.epoch ++ zeros 4 ++ fit 32 (Config.sha256 body)
  (body ++ section_ 0xFF 1 (part ++ signWith s (activeSlot s) part), stripes.length - data.length)

/-- The lowest SEQ of a custody that resolves (R704). -/
def oldestSeq (s : State) (c : Nat) : Nat :=
  (((s.chain c).recs.find? (fun r => match resolveRec s r with | .reclaimed | .lost => false | _ => true)).map Rec.seq).getD 0

/-! ## Jobs -/

/-- EXPORT_PLAINTEXT of a custody (R598). -/
def plainAllowed (s : State) (c : Nat) : Bool := decide (ofLe (heldVal s (okey (0x2001 + 0x40 * c) 2)) = 1)

/-- A job set up from its request; at or beyond the latest record it issues ANCHOR_NOW (R701, R217). -/
def jobOpen (c first last : Nat) (form : Bool) (s : State) : ExpJob × State :=
  let wait := decide ((s.chain c).seq ≤ last + 1)
  let j : ExpJob := { cust := c, first := first, last := last, plain := form && plainAllowed s c, anchorWait := wait }
  (j, if wait then anchorRequest true s else s)

/-- The first pass must wait for the ANCHOR that the job asked for. -/
def jobWaits (s : State) (j : ExpJob) : Bool := j.anchorWait && (s.linen.anchor.isSome || s.linen.anchorNext.isSome)

/-- The first pass: bounds, span, ledger records, package and references (R701–R706), or the RESULT that ends the job. `id`
names the read job of Twill. -/
def firstPass (id : Nat) (j : ExpJob) (s : State) : Except Nat ExpJob × State :=
  match boundLast s j.cust j.last with
  | none => (.error xRANGE, s)
  | some next =>
    let last := next - 1
    let first := boundFirst s j.cust j.first
    if last < first ∨ 65536 < last - first + 1 then (.error xRANGE, s)
    else
      let recs := (s.chain j.cust).recs.filter (fun r => decide (first ≤ r.seq ∧ r.seq ≤ last))
      let res := recs.map (resolveRec s)
      if res.contains .lost then (.error xLOST, s)
      else if res.contains .reclaimed then (.error xRECLAIMED, s)
      else
        let (pkg, omitted) := cslPackage s j.cust first last j.plain
        let units := recs.flatMap (fun r => match stripeOf s r, stripeCipher s r with
          | some (ns, u, len, _), some _ => stripeUnits ns u len
          | _, _ => [])
        (.ok { j with first := first, last := last, pkg := some pkg, omitted := omitted, anchorWait := false }, startReadJob id units s.fresh)

/-- How Twill's read job stands: every unit delivered, or one LOST (R706). -/
def readLost (s : State) (id : Nat) : Bool := s.media.jobs.any (fun j => decide (j.id = id) && j.lostAny)
def readAll (s : State) (id : Nat) : Bool := s.media.jobs.any (fun j => decide (j.id = id) && j.done)

/-! ## Read doors -/

/-- A read door changed. -/
def setRd (r : Nat) (f : ReadDoor → ReadDoor) (s : State) : State := s.onPcie (fun p => { p with doors := upd p.doors r f })
/-- A read door. -/
def State.rdoor (s : State) (r : Nat) : ReadDoor := nth s.pcie.doors r

/-- The status block: WRPTR, STATE, RESULT, OMITTED, PKGLEN (R699), and the door's vector. -/
def rdStatus (r : Nat) (s : State) : State :=
  let d := s.rdoor r
  let w := s.rd (rPCIE_RD_STATE r)
  let c := bits d.cfg 5 0
  let len := match d.job with | some j => (j.pkg.getD []).length | none => 0
  let b := le 8 d.wrptr ++ le 1 (bits w 1 0) ++ zeros 1 ++ le 2 (bits w 31 16) ++ le 4 (s.rd (rPCIE_RD_OMITTED r)).toNat ++ le 8 len ++ zeros 8
  msix (2 + r) (hostWrite 0x18 (some c) (s.rd64 (rPCIE_RD_STLO r) (rPCIE_RD_STHI r)) b s)

/-- A job's end: STATE DONE with RESULT, a status block unless the link is lost, references released (R699, R709, R710). -/
def rdEnd (r result : Nat) (status : Bool) (s : State) : State :=
  let s := s.wr (rPCIE_RD_STATE r) (setBits (setBits (s.rd (rPCIE_RD_STATE r)) 1 0 2) 31 16 result)
  let s := if status then rdStatus r s else s
  readJobEnd r (setRd r (fun d => { d with job := none }) s)

/-- START: ignored while a job runs; rights and requested range (R695, R696). `right` says whether profile 6 gives P1 WO or RW. -/
def rdStart (r : Nat) (right : Bool) (s : State) : State :=
  if r ≥ 8 ∨ (s.rdoor r).job.isSome then s
  else
    let cfg := s.rd (rPCIE_RD_CFG r)
    let first := s.rd64 (rPCIE_RD_FIRSTSEQ_LO r) (rPCIE_RD_FIRSTSEQ_HI r)
    let last := s.rd64 (rPCIE_RD_LASTSEQ_LO r) (rPCIE_RD_LASTSEQ_HI r)
    let s := (s.wr64 (rPCIE_RD_RDPTR_LO r) (rPCIE_RD_RDPTR_HI r) 0).wr (rPCIE_RD_STATE r) 1#32
    let s := s.wr (rPCIE_RD_OMITTED r) 0#32
    let s := setRd r (fun _ => { cfg := cfg, movedAt := s.now }) s
    if right = false then rdEnd r xNORIGHT true s
    else if last < first ∨ bits cfg 20 16 < 16 ∨ 30 < bits cfg 20 16 then rdEnd r xRANGE true s
    else
      let (j, s) := jobOpen (bits cfg 5 0) first last (bit cfg 8) s
      setRd r (fun d => { d with job := some j }) s

/-- The first pass of read door `r` (R703–R706). -/
def rdFirstPass (r : Nat) (s : State) : State :=
  match (s.rdoor r).job with
  | none => s
  | some j =>
    if j.pkg.isSome ∨ jobWaits s j = true then s
    else
      match firstPass r j s with
      | (.ok j, s) => (setRd r (fun d => { d with job := some j, movedAt := s.now }) s).wr (rPCIE_RD_OMITTED r) (loWord j.omitted)
      | (.error e, s) =>
        let s := if e = xRECLAIMED ∨ e = xLOST then s.wr64 (rPCIE_RD_OLDEST_LO r) (rPCIE_RD_OLDEST_HI r) (oldestSeq s j.cust) else s
        rdEnd r e true s

/-- Bytes of a package written at their places in the ring (R697). -/
def ringPut (base size : Nat) (cust : Nat) : Nat → Bytes → State → State
  | _, [], s => s
  | i, b :: bs, s => ringPut base size cust (i + 1) bs (hostWrite 0x18 (some cust) (base + i % size) [b] s)

/-- The second pass goes on up to package byte `upto`, never past RDPTR + 2^BUFLOG2 (R697, R698). -/
def rdPush (r upto : Nat) (s : State) : State :=
  let d := s.rdoor r
  match d.job with
  | some { pkg := some p, cust := c, .. } =>
    let size := 2 ^ bits d.cfg 20 16
    let stop := min (min upto p.length) (s.rd64 (rPCIE_RD_RDPTR_LO r) (rPCIE_RD_RDPTR_HI r) + size)
    if stop ≤ d.wrptr then s
    else
      let s := ringPut (s.rd64 (rPCIE_RD_BUFLO r) (rPCIE_RD_BUFHI r)) size c d.wrptr (slice p d.wrptr (stop - d.wrptr)) s
      setRd r (fun d => { d with wrptr := stop, movedAt := s.now }) s
  | _ => s

/-- STATUS_BLOCK: the job writes on; when WRPTR has advanced WMARK × 4 KiB since the last block, a status block (R699). -/
def rdStatusBlock (r : Nat) (s : State) : State :=
  if readLost s r then rdEnd r xLOST true s
  else
    let target := (s.rdoor r).marked + bits (s.rdoor r).cfg 31 24 * 4096
    let s := rdPush r target s
    if (s.rdoor r).wrptr = target ∧ (s.rdoor r).marked < target then rdStatus r (setRd r (fun d => { d with marked := target }) s) else s

/-- READ_DOOR_COMPLETION: the last trailer byte enters the write queue once every unit has been read and the ring has room
(R709). -/
def rdComplete (r : Nat) (s : State) : State :=
  match (s.rdoor r).job with
  | some { pkg := some p, omitted := o, .. } =>
    if readLost s r then rdEnd r xLOST true s
    else if readAll s r = false then s
    else
      let s := rdPush r p.length s
      if (s.rdoor r).wrptr = p.length then rdEnd r (if o = 0 then xOK else xPARTIAL) true s else s
  | _ => s

/-- RDPTR_WRITE: the host consumes (R698, R700). -/
def rdPtrWrite (r v : Nat) (s : State) : State :=
  if r ≥ 8 then s
  else
    let old := s.rd64 (rPCIE_RD_RDPTR_LO r) (rPCIE_RD_RDPTR_HI r)
    let s := s.wr64 (rPCIE_RD_RDPTR_LO r) (rPCIE_RD_RDPTR_HI r) (v % 2 ^ 64)
    if old < v then setRd r (fun d => { d with movedAt := s.now }) s else s

/-- STALL_EXPIRY: RDPTR has not moved for STALL seconds while the job waits for it (R700). -/
def rdStall (r : Nat) (s : State) : State :=
  let d := s.rdoor r
  let stall := s.fld (rPCIE_RD_STALL r) 15 0
  match d.job with
  | some { pkg := some p, .. } =>
    let full := decide (d.wrptr = s.rd64 (rPCIE_RD_RDPTR_LO r) (rPCIE_RD_RDPTR_HI r) + 2 ^ bits d.cfg 20 16) && decide (d.wrptr < p.length)
    if full ∧ stall ≠ 0 ∧ d.movedAt + stall * 1000000000 ≤ s.now then rdEnd r xSTALL true s else s
  | _ => s

/-- READ_DOOR_ABORT: LATE when the completion was latched at or before the sampling edge (`tie` says that it is latched on
it), else ABORTED; NOTFOUND without a job (R709). -/
def rdoorAbort (r : Nat) (tie : Bool) (s : State) : State :=
  let stat (n : Nat) (s : State) : State := s.setFld (rPCIE_RD_STATE r) 3 2 n
  if r ≥ 8 then s
  else if (s.rdoor r).job.isNone then
    if s.fld (rPCIE_RD_STATE r) 1 0 = 2 then stat 1 s else stat 3 s
  else if tie then rdComplete r (stat 1 s)
  else rdEnd r xABORTED true (stat 2 s)

/-! ## Link loss -/

/-- VSEL_WRITE: values 0–9 are ignored (R679). -/
def vselWrite (n v : Nat) (s : State) : State :=
  if 10 ≤ v ∧ v < 64 then s.onPcie (fun p => { p with vsel := upd p.vsel n (fun _ => v) }) else s

/-- A door's ring bases, CFG, VSEL at their reset values (table *Effects of link loss*). -/
def clearDoorRegs (d : Nat) (s : State) : State :=
  let rst (a : Nat) (s : State) : State := s.wr a (regReset a)
  rst (rMUSLIN_DOOR_CPLLO d) (rst (rMUSLIN_DOOR_CPLHI d) (rst (rMUSLIN_DOOR_RINGLO d) (rst (rMUSLIN_DOOR_RINGHI d)
    (rst (rMUSLIN_DOOR_CFG d) s))))

/-- The transactions of the mailbox end without a response (R710). -/
def mailboxClear (s : State) : State :=
  let mine (c : Carrier) : Bool := match c with | .mbox _ => true | _ => false
  let s := s.onDict (fun d => { d with
    xfers := d.xfers.filter (fun x => !mine x.carrier),
    fw := d.fw.map (fun x => match x with | some q => if mine q.carrier then none else some q | none => none) })
  let s := s.setFld rBAR0_MBSTAT 11 8 0
  s.onPcie (fun p => { p with slots := [none, none, none, none], held := [none, none, none, none], notifyQ := [] })

/-- What every cause of link loss does (R710): doors, read doors, mailbox, notify queue, LINKDOWNS. -/
def linkLoss (bit_ : Nat) (s : State) : State :=
  let s := abandonDoors ((List.range 64).filter (fun d => (s.door d).en)) s
  let s := (List.range 64).foldl (fun s d => clearDoorRegs d s) s
  let s := (List.range 8).foldl (fun s r => if (s.rdoor r).job.isSome then rdEnd r xLINKDOWN false s else s) s
  let s := mailboxClear s
  let s := s.onPcie (fun p => { p with vsel := (List.range 64).map (fun n => 10 + n % 54) })
  let s := (s.addSat rPCIE_LINKDOWNS 1).raise rPCIE_INTSTAT bit_
  s.raise rBAR0_HSTAT 2

/-- MSI-X table and enables as a function reset leaves them. -/
def msixReset (p : Pcie) : Pcie := { p with msix := List.replicate 64 {}, msixEn := false, msixAllMasked := false }

/-- PERST# low (R713): the PHY is held, the link is down. -/
def perstLow (s : State) : State :=
  linkLoss 0 (s.onPcie (fun p => { msixReset p with perst := true, up := false, bme := false, dstate := 0, speed := 0, width := 0 }))

/-- The link goes down, or a hot reset. -/
def linkDown (s : State) : State :=
  linkLoss 1 (s.onPcie (fun p => { msixReset p with up := false, bme := false, dstate := 0, speed := 0, width := 0 }))

/-- A function-level reset starts (R710, R711). -/
def flrStart (s : State) : State := linkLoss 2 (s.onPcie (fun p => { msixReset p with flr := true, bme := false, dstate := 0 }))

/-- A transition to D3hot; Bus Master Enable no longer lets the function master the bus. -/
def d3Enter (s : State) : State := linkLoss 3 (s.onPcie (fun p => { p with dstate := 3 }))

/-- Bus Master Enable written by the host: clearing it is link loss (R692, R710). -/
def bmeWrite (v : Bool) (s : State) : State :=
  if s.pcie.up = false ∨ s.pcie.flr = true ∨ s.pcie.bme = v then s
  else if v then s.onPcie (fun p => { p with bme := true })
  else linkLoss 4 (s.onPcie (fun p => { p with bme := false }))

/-- LINK_UP: PERST# is released and the link trains to L0, the function in D0; without a VENDOR_ID it does not (R671, R713). -/
def linkUp (speed width : Nat) (s : State) : State :=
  if bits (dataRead s (dataPhys 256 36)).1 15 0 = 0 ∨ bits (dataRead s (dataPhys 256 36)).1 15 0 = 0xFFFF then
    s.onPcie (fun p => { p with perst := false })
  else s.onPcie (fun p => { p with perst := false, up := true, dstate := 0, speed := speed, width := width })

/-- FLR_COMPLETE (R711). -/
def flrComplete (s : State) : State := s.onPcie (fun p => { p with flr := false })

end Sys2Proof.Machine
end

