-- ==== Sys2Proof/Machine/Proc.lean ====
section
/-!
DEFINITION. The status of procedures (R585–R588): started, running, done.
-/

namespace Sys2Proof.Machine

/-- The status of the procedure of a key. -/
def procOf (s : State) (key : Nat) : PStat := (s.dict.procs.lookup key).getD {}

/-- A procedure's status set, in ascending key order. -/
def setProc (key : Nat) (p : PStat) (s : State) : State :=
  s.onDict (fun d => { d with procs := sinsert (serase d.procs key) key p })

/-- A procedure starts and runs (R586). -/
def procStart (key princ : Nat) (s : State) : State := setProc key { st := 1, princ := princ } s

/-- A procedure ends with its outcome code; one that does not run is unchanged. -/
def procEnd (key code : Nat) (s : State) : State :=
  let p := procOf s key
  if p.st = 1 then setProc key { p with st := 2, code := code } s else s

/-- A procedure whose work ends as it starts: DONE at once. -/
def procRan (key princ code : Nat) (s : State) : State := setProc key { st := 2, princ := princ, code := code } s

end Sys2Proof.Machine
end

