-- ==== Sys2Proof/Machine/Chambray.lean ====
section
/-!
DEFINITION. Chambray's two ports (R715–R743): insertion and initialisation, modes and tuning, raw commands, CRC retries and
step-down, busy timeouts, removal, sleep; and the export job with its record block, write protection and the court copy
(R744–R761). Readings of the chapter that its words leave open are those of notes/assumptions/50.md.
-/

namespace Sys2Proof.Machine

/-! ## Port state -/

/-- A port. -/
def State.cport (s : State) (p : Nat) : CardPort := nth s.cards.ports p
/-- A port changed. -/
def setCard (p : Nat) (f : CardPort → CardPort) (s : State) : State := s.onCards (fun c => { c with ports := upd c.ports p f })

/-- PSTAT.STATE and PSTAT.SPEED. -/
def cState (s : State) (p : Nat) : Nat := s.fld (rCHAM_PSTAT p) 2 0
def cSpeed (s : State) (p : Nat) : Nat := s.fld (rCHAM_PSTAT p) 7 4
def setCState (p v : Nat) (s : State) : State := s.setFld (rCHAM_PSTAT p) 2 0 v
def setCSpeed (p v : Nat) (s : State) : State := s.setFld (rCHAM_PSTAT p) 7 4 v

/-- The codes of PSTAT.STATE that rules name. -/
def cEMPTY : Nat := 0
def cPOWERING : Nat := 1
def cINIT : Nat := 2
def cREADY : Nat := 3
def cBUSY : Nat := 4
def cSLEEP : Nat := 5
def cFAILED : Nat := 6

/-- The port is READY, or asleep and woken by its next command (R722). -/
def cUsable (s : State) (p : Nat) : Bool := decide (cState s p = cREADY ∨ cState s p = cSLEEP)

/-- An export job holds the port. -/
def expHolds (s : State) (p : Nat) : Bool := s.cards.exp.job.isSome && decide (s.cards.exp.port = p)

/-- A transfer's end in XSTAT, with XFERDONE. -/
def xstatEnd (p code : Nat) (s : State) : State :=
  ((s.wr (rCHAM_XSTAT p) (field 3 0 code ||| field 8 8 1)).raise (rCHAM_INTSTAT p) 2)

/-- The command in flight ends with a code; the port becomes idle. -/
def xferEnd (p code : Nat) (s : State) : State :=
  xstatEnd p code (setCard p (fun x => { x with xfer := none, retries := 0, idleAt := s.now }) s)

/-- The power-off order (table *Power-off order, from the CD_N rising edge*): supply off, clock stopped, tuning given up. -/
def portOff (p : Nat) (s : State) : State :=
  let s := setCard p (fun x => { x with powered := false, vsel := false, xfer := none, retries := 0, sweep := [], retuneAt := none, wanted := none, areaWp := false }) s
  s.setFlag (rCHAM_PSTAT p) 19 false

/-- Initialisation from step 1 (R719, R735). -/
def portPower (p : Nat) (only33 : Bool) (s : State) : State :=
  setCState p cPOWERING (setCard p (fun x => { x with powered := true, vsel := false, only33 := only33 }) s)

/-! ## The export's and the court copy's end -/

/-- The procedure code of an export's RESULT: OK, ABORTED; for another RESULT the spec names none. -/
def expCode (result : Nat) (s : State) : Nat :=
  if result = xOK ∨ result = xPARTIAL then aOK else if result = xABORTED then aABORTED else Config.freeNat s.freeCtr % 65536

/-- The export job ends (R751–R755): STATE DONE, RESULT, references released, NOTIFY 0x0003; port B sleeps (R722). -/
def expEnd (result : Nat) (s : State) : State :=
  let e := s.cards.exp
  if e.job.isNone then s
  else
    let p := e.port
    let s := procEnd (okey 0x5801 0) (expCode result s) s.fresh
    let s := (s.setFld rCHAM_XSTATE 2 0 4).setFld rCHAM_XSTATE 31 16 result
    let s := if cState s p = cBUSY then setCState p (if p = 1 then cSLEEP else cREADY) s else s
    let good := decide (result = xOK ∨ result = xPARTIAL)
    let cid : Bytes := (List.range 4).flatMap (fun j => le 4 (s.rd (rCHAM_CID p j)).toNat)
    let s := setCard p (fun x => { x with idleAt := s.now, retries := 0, exported := if good then some cid else x.exported }) s
    let s := s.onCards (fun c => { c with exp := { c.exp with job := none, result := result } })
    notify 3 result (readJobEnd 8 s)

/-- COURT_COPY ends DONE with a code. -/
def courtEnd (code : Nat) (s : State) : State :=
  let s := procEnd (okey 0x5804 0) code s
  let s := s.setFlag rCHAM_XCOURT 8 false
  let s := match s.cards.courtRun with | some p => if cState s p = cBUSY then setCState p cREADY s else s | none => s
  s.onCards (fun c => { c with court := none, courtRun := none })

/-- A court copy is armed for the card of port `p`. -/
def courtArmed (p : Nat) (s : State) : Bool :=
  match s.cards.court with
  | some c => decide (c.target = p)
  | none => false

/-- What else ends when port `p` is lost: its export, and a court copy of its card. -/
def portLost (p result code : Nat) (s : State) : State :=
  let s := if expHolds s p then expEnd result s else s
  if courtArmed p s = true ∨ s.cards.courtRun = some p then courtEnd code s else s

/-- A card ends FAILED (R717, R731, R734): no further command, INTSTAT.FAIL; the transfer ends with a code. -/
def cardFail (p code : Nat) (s : State) : State :=
  let busy := (s.cport p).xfer.isSome || expHolds s p || decide (s.cards.courtRun = some p)
  let s := (setCState p cFAILED s).raise (rCHAM_INTSTAT p) 6
  let s := setCard p (fun x => { x with sweep := [], retuneAt := none, wanted := none }) (s.setFlag (rCHAM_PSTAT p) 19 false)
  let s := if busy then xferEnd p code s else s
  portLost p xCARDFAIL aHWFAULT s

/-! ## Modes and tuning -/

/-- A mode that is tuned: SDR50, SDR104, HS200; HS400 through HS200 (R723, R728). -/
def tunedMode (m : Nat) : Bool := decide (m = 4 ∨ m = 5 ∨ m = 10 ∨ m = 11)

/-- The mode below (R730); DDR50 and the 3.3 V modes stand beside the rule's list. -/
def lowerMode (m : Nat) : Option Nat :=
  if m = 5 then some 4 else if m = 4 ∨ m = 6 then some 3 else if m = 3 then some 2 else if m = 2 ∨ m = 1 then some 0
  else if m = 11 then some 10 else if m = 10 then some 9 else none

/-- Runs of passing taps, first and last tap of each. -/
def tapRuns (i : Nat) (start : Option Nat) : List Bool → List (Nat × Nat)
  | [] => match start with | some a => [(a, i - 1)] | none => []
  | true :: l => tapRuns (i + 1) (some (start.getD i)) l
  | false :: l => match start with | some a => (a, i - 1) :: tapRuns (i + 1) none l | none => tapRuns (i + 1) none l

/-- The centre of the widest run of at least 4 passing taps (R723, R729). -/
def bestTap (taps : List Bool) : Option Nat :=
  let best := (tapRuns 0 none taps).foldl (fun (m : Option (Nat × Nat)) r =>
    match m with | none => some r | some q => if q.2 - q.1 < r.2 - r.1 then some r else m) none
  match best with
  | some (a, b) => if 4 ≤ b - a + 1 then some ((a + b) / 2) else none
  | none => none

/-- A mask of 64 taps, tap 0 first. -/
def tapsOf (mask : Nat) : List Bool := (List.range 64).map (fun i => mask.testBit i)

/-- The port steps down one mode (R729, R730); in the lowest mode the card ends FAILED (R731). -/
def stepDown (p : Nat) (s : State) : State :=
  match lowerMode (cSpeed s p) with
  | some m => (setCSpeed p m s).raise (rCHAM_INTSTAT p) 7
  | none => cardFail p 2 s

/-- A whole sweep at the mode in use: the new tap, or a step down; untuned modes keep the fixed point (R723, R727, R729). -/
def tuneWhole (p mask : Nat) (temp : Option Int) (s : State) : State :=
  if tunedMode (cSpeed s p) = false then s
  else
    let s := (s.addSat (rCHAM_RETUNECNT p) 1).raise (rCHAM_INTSTAT p) 5
    let s := setCard p (fun x => { x with sweep := [], retuneAt := none, tunedAt := s.now, tunedTemp := temp.getD x.tunedTemp }) s
    let s := s.setFlag (rCHAM_PSTAT p) 19 false
    match bestTap (tapsOf mask) with
    | some t => s.setFld (rCHAM_PSTAT p) 13 8 t
    | none => stepDown p s

/-- The mode that 50 MHz or less leaves a mode (R732). -/
def slowMode (p m : Nat) (vsel : Bool) : Nat :=
  if p = 0 then (if m < 4 then m else if vsel then 3 else 1) else min m 9

/-- A command boundary: CLKFAIL limits the port to 50 MHz, and after CLKFAIL the way back starts with a retune (R732). -/
def boundary (p : Nat) (s : State) : State :=
  let m := cSpeed s p
  let low := slowMode p m (s.cport p).vsel
  if s.flag rTWEED_CLKSTAT 2 then
    if low = m then s else setCSpeed p low (setCard p (fun x => { x with wanted := some m, retuneAt := none, sweep := [] }) (s.setFlag (rCHAM_PSTAT p) 19 false))
  else if (s.cport p).wanted.isSome ∧ (s.cport p).retuneAt = none then
    (setCard p (fun x => { x with retuneAt := some s.now, sweep := [] }) s).setFlag (rCHAM_PSTAT p) 19 true
  else s

/-! ## Insertion and initialisation -/

/-- INSERTION: CD_N low for 100 ms (R718). -/
def insertion (p : Nat) (s : State) : State :=
  if p ≥ 2 ∨ cState s p ≠ cEMPTY then s
  else
    let s := s.setFlag (rCHAM_PSTAT p) 18 true
    if s.flag (rCHAM_PCTL p) 0 then portPower p false s else s

/-- The modes to try, best first: within MAXSPEED, offered, at the signalling voltage in use. -/
def modesFor (p maxSpeed offered : Nat) (vsel : Bool) : List Nat :=
  let all : List Nat := if p = 1 then [11, 10, 9, 8] else if vsel then [5, 6, 4, 3, 2] else [1, 0]
  all.filter (fun m => decide (m ≤ maxSpeed) && offered.testBit m)

/-- Tuning at initialisation, mode by mode down from the best (R720, R723, R729): the mode and tap that hold, and the number
of steps down. -/
def initTune : Nat → List Nat → Nat → Nat × Option Nat × Nat
  | m, sweeps, k =>
    if tunedMode m = false then (m, none, k)
    else match bestTap (tapsOf (sweeps.headD 0)) with
      | some t => (m, some t, k)
      | none => match m with
        | 5 => match bestTap (tapsOf (sweeps.getD 1 0)) with | some t => (4, some t, k + 1) | none => (3, none, k + 2)
        | 4 => (3, none, k + 1)
        | _ => (9, none, k + (if m = 11 then 2 else 1))

/-- CARD_READY: steps 3 to 6 of initialisation (R717–R720). -/
def cardReady (p : Nat) (r : CardInit) (s : State) : State :=
  if p ≥ 2 ∨ cState s p ≠ cPOWERING then s
  else
    let top := s.fld (rCHAM_PCTL p) 7 4
    let uhs := decide (p = 0) && r.uhs && !(s.cport p).only33 && decide (2 ≤ top)
    if r.ready = false then cardFail p 3 s
    else if uhs ∧ r.switchOk = false then portPower p true (portOff p s)
    else if r.blocks < 2048 then cardFail p 3 s
    else
      let s := setCard p (fun x => { x with vsel := uhs, areaWp := r.wpArea, tunedAt := s.now, tunedTemp := r.temp, idleAt := s.now }) s
      let s := (s.wrWords (rCHAM_CID p 0) (wordsOf 4 r.cid)).wr (rCHAM_CAPBLK p) (loWord r.blocks)
      let m := (modesFor p top r.modes uhs).headD (if p = 1 then 8 else 0)
      let (m, tap, down) := initTune m r.sweeps 0
      let s := setCSpeed p m s
      let s := match tap with | some t => s.setFld (rCHAM_PSTAT p) 13 8 t | none => s
      let s := if down = 0 then s else s.raise (rCHAM_INTSTAT p) 7
      let s := (s.setFlag (rCHAM_PSTAT p) 16 r.wpTmp).setFlag (rCHAM_PSTAT p) 17 r.wpPerm
      boundary p ((setCState p cREADY s).raise (rCHAM_INTSTAT p) 0)

/-- REMOVAL: CD_N high for 2 µs (R736–R739, R752, R761). -/
def removal (p : Nat) (s : State) : State :=
  if p ≥ 2 then s
  else
    let busy := (s.cport p).xfer.isSome || expHolds s p || decide (s.cards.courtRun = some p)
    let s := if busy then xferEnd p 5 s else s
    let s := portLost p xREMOVED aABORTED s
    let s := setCard p (fun x => { x with exported := none, only33 := false }) (portOff p s)
    let was := s.flag (rCHAM_PSTAT p) 18
    let s := s.wr (rCHAM_PSTAT p) 0#32
    if was then s.raise (rCHAM_INTSTAT p) 1 else s

/-- REINIT: a FAILED port starts again at step 1 (R735). -/
def reinit (p : Nat) (s : State) : State :=
  if p < 2 ∧ cState s p = cFAILED ∧ s.flag (rCHAM_PSTAT p) 18 = true ∧ s.flag (rCHAM_PCTL p) 0 = true then
    portPower p false (portOff p s)
  else s

/-- SLEEP: port B after SLEEPS idle seconds (R722). -/
def cardSleep (s : State) : State :=
  if cState s 1 = cREADY ∧ expHolds s 1 = false ∧ (s.cport 1).xfer = none ∧
      (s.cport 1).idleAt + s.fld rCHAM_XCFG 23 16 * 1000000000 ≤ s.now then setCState 1 cSLEEP s
  else s

/-! ## Raw commands -/

/-- CMD: a write of the port's CMD (R740, R741). -/
def cardCmd (p : Nat) (w : Word) (s : State) : State :=
  if p ≥ 2 then s
  else
    let s := s.wr (rCHAM_CMD p) (w &&& 0x00000F3F#32)
    if bit w 31 = false then s
    else if cUsable s p = false ∨ expHolds s p = true then s.setFld (rCHAM_XSTAT p) 3 0 7
    else
      let s := (boundary p s)
      let c : CardCmd := {
        index := bits w 5 0, arg := s.rd (rCHAM_ARG p), rsp := bits w 9 8, data := bit w 10, write := bit w 11,
        dma := s.rd64 (rCHAM_DMALO p) (rCHAM_DMAHI p), blocks := s.fld (rCHAM_BLKCNT p) 15 0 }
      let s := (s.wr (rCHAM_XSTAT p) 0#32).wr (rCHAM_ABORTSTAT p) 0#32
      setCState p cBUSY (setCard p (fun x => { x with xfer := some c, retries := 0 }) s)

/-- The data of a command moves by DMA between the card and core SRAM; false on a refused access (R740, XSTAT BUSERR). -/
def cardDma (c : CardCmd) (data : Bytes) (s : State) : Bool × State :=
  let n := c.blocks * 512
  if c.data = false ∨ n = 0 then (true, s)
  else if inCore c.dma n = false then (false, s)
  else
    let (ok, s) := jobAccess 0x1A none (!c.write) c.dma n s
    if ok = false then (false, s) else (true, if c.write then s else s.store c.dma (fit n data))

/-- The response in RESP[0–3], as far as the response type has one. -/
def cardResp (p : Nat) (c : CardCmd) (resp : List Word) (s : State) : State :=
  let r := fun (i : Nat) => resp.getD i 0#32
  if c.rsp = 0 then s
  else if c.rsp = 2 then s.wrWords (rCHAM_RESP p 0) [r 0, r 1, r 2, r 3]
  else s.wr (rCHAM_RESP p 0) (r 0)

/-- TMP_WRITE_PROTECT and PERM_WRITE_PROTECT of the CSD that a CMD27 programs: bits 12 and 13 of the CSD, byte 14 of 16. -/
def csdProgrammed (p : Nat) (c : CardCmd) (s : State) : State :=
  if c.index = 27 ∧ c.write = true ∧ c.data = true then
    let b := (s.byte (c.dma + 14)).toNat
    (s.setFlag (rCHAM_PSTAT p) 16 (b.testBit 4)).setFlag (rCHAM_PSTAT p) 17 (s.flag (rCHAM_PSTAT p) 17 || b.testBit 5)
  else s

/-- A CRC failure of the command in flight: counted; a retune and a retry, and after the third failure a step down and a
retry in the lower mode (R727, R730, R731). -/
def crcFail (p sweep : Nat) (s : State) : State :=
  let s := (s.addSat (rCHAM_ERRCNT p) 1).raise (rCHAM_INTSTAT p) 3
  if (s.cport p).retries < 2 then
    tuneWhole p sweep none (setCard p (fun x => { x with retries := x.retries + 1 }) s)
  else
    let s := stepDown p (setCard p (fun x => { x with retries := 0 }) s)
    if cState s p = cFAILED then s else tuneWhole p sweep none s

/-- The raw command in flight completes (R740, R742). -/
def rawDone (p : Nat) (c : CardCmd) (resp : List Word) (data : Bytes) (s : State) : State :=
  let (ok, s) := cardDma c data s
  if ok = false then boundary p (setCState p cREADY (xferEnd p 8 s))
  else boundary p (setCState p cREADY (xferEnd p 1 (csdProgrammed p c (cardResp p c resp s))))

/-! ## The export job -/

/-- EXPORT_START (R744, R745, R601): the code of the reply and the state. -/
def exportStart (princ : Nat) (s : State) : Nat × State :=
  if s.cards.exp.job.isSome then (aBUSY, s)
  else
    let v (k : Nat) : Nat := ofLe (heldVal s (okey 0x5800 k))
    let cfg := s.rd rCHAM_XCFG
    let lba := (s.rd rCHAM_EXPLBA).toNat
    let s := procStart (okey 0x5801 0) princ s
    let s := ((s.wr rCHAM_XSTATE 1#32).wr64 rCHAM_XBYTES_LO rCHAM_XBYTES_HI 0).wr rCHAM_OMITTED 0#32
    let s := s.wrWords (rCHAM_XDIGEST 0) (List.replicate 8 0#32)
    let (j, s) := jobOpen (v 1) (v 2) (v 3) (decide (v 5 = 1)) s
    let p := v 4
    let s := s.onCards (fun c => { c with exp := {
      job := some j, port := p, lba := lba, share := bits cfg 7 0, preErase := bit cfg 8, princ := princ } })
    (aOK,
      if lba = 0 ∨ v 3 < v 2 then expEnd xRANGE s
      else if cState s p = cEMPTY then expEnd xREMOVED s
      else if cState s p = cFAILED then expEnd xCARDFAIL s
      else s)

/-- The card shows a write protect (R746). -/
def cardProtected (s : State) (p : Nat) : Bool := s.flag (rCHAM_PSTAT p) 16 || s.flag (rCHAM_PSTAT p) 17 || (s.cport p).areaWp

/-- The first pass of the export job, once the port is free (R703–R705, R746). -/
def expFirstPass (s : State) : State :=
  let e := s.cards.exp
  match e.job with
  | none => s
  | some j =>
    if j.pkg.isSome ∨ jobWaits s j = true ∨ cUsable s e.port = false then s
    else match firstPass 8 j s with
      | (.error r, s) =>
        expEnd r (if r = xRECLAIMED ∨ r = xLOST then s.wr64 rCHAM_OLDEST_LO rCHAM_OLDEST_HI (oldestSeq s j.cust) else s)
      | (.ok j, s) =>
        let len := (j.pkg.getD []).length
        let s := (s.wr rCHAM_OMITTED (loWord j.omitted)).wr64 rCHAM_XBYTES_LO rCHAM_XBYTES_HI len
        let s := s.onCards (fun c => { c with exp := { c.exp with job := some j, phase := if e.preErase then 0 else 1 } })
        if (s.rd (rCHAM_CAPBLK e.port)).toNat < e.lba + (len + 511) / 512 then expEnd xNOSPACE s
        else if cardProtected s e.port then expEnd xWPROT s
        else setCState e.port cBUSY (boundary e.port (s.setFld rCHAM_XSTATE 2 0 2))

/-- The record block (table *Export record block*). -/
def recordBlock (s : State) (e : Export) (j : ExpJob) : Bytes :=
  let pkg := j.pkg.getD []
  let cid : Bytes := (List.range 4).flatMap (fun i => le 4 (s.rd (rCHAM_CID e.port i)).toNat)
  let b : Bytes := [0x54, 0x5A, 0x43, 0x41, 0x52, 0x44, 0x30, 0x31] ++ le 8 pkg.length ++ le 8 e.lba ++ le 1 j.cust ++ zeros 7
    ++ le 8 j.first ++ le 8 j.last ++ le 8 s.felt.evt ++ fit 32 (Config.sha256 pkg) ++ fit 16 (serialOf s) ++ cid
  let b := fit 0x1FC b
  b ++ le 4 (crc32c b).toNat

/-- A step of WRITING or PROTECTING ends well: the erase, the package, the CSD (R747, R748, R754, R756). -/
def expStep (s : State) : State :=
  let e := s.cards.exp
  match e.job with
  | none => s
  | some j =>
    let setPhase (n : Nat) (s : State) : State := s.onCards (fun c => { c with exp := { c.exp with phase := n } })
    if e.phase = 0 then setPhase 1 s
    else if e.phase = 1 then
      if readLost s 8 then expEnd xLOST s
      else if readAll s 8 = false then s
      else
        let r := recordBlock s e j
        let s := s.wrWords (rCHAM_XDIGEST 0) (wordsOf 8 (slice r 0x38 32))
        setPhase 2 (s.onCards (fun c => { c with exp := { c.exp with record := r } }))
    else if e.phase = 3 then
      let s := s.setFlag (rCHAM_PSTAT e.port) 16 true
      let s := if e.port = 1 then setCard 1 (fun x => { x with areaWp := true }) s else s
      expEnd (if j.omitted = 0 then xOK else xPARTIAL) s
    else s

/-- EXPORT_COMPLETION: the record block's busy period ends, the completion is latched (R750). -/
def expLatch (s : State) : State :=
  if s.cards.exp.job.isSome ∧ s.cards.exp.phase = 2 then
    (s.setFld rCHAM_XSTATE 2 0 3).onCards (fun c => { c with exp := { c.exp with phase := 3 } })
  else s

/-- EXPORT_ABORT: LATE when the completion was latched at or before the sampling edge, on which `tie` says that it is
latched; else ABORTED; NOTFOUND with no job (R753). The reply is OK. -/
def exportAbort (princ : Nat) (tie : Bool) (s : State) : Nat × State :=
  let stat (n : Nat) (s : State) : State := s.setFld rCHAM_XSTATE 5 4 n
  let s := procRan (okey 0x5803 0) princ aOK s
  (aOK,
    if s.cards.exp.job.isNone then (if s.fld rCHAM_XSTATE 2 0 = 4 then stat 1 s else stat 3 s)
    else if s.cards.exp.phase = 3 then stat 1 s
    else if tie ∧ s.cards.exp.phase = 2 then expLatch (stat 1 s)
    else expEnd xABORTED (stat 2 s))

/-! ## The court copy -/

/-- COURT_COPY (R758–R760): the code of the reply and the state. -/
def courtCopy (princ target : Nat) (s : State) : Nat × State :=
  let arm (s : State) : State :=
    let s := procStart (okey 0x5804 0) princ s
    let s := s.wr rCHAM_XCOURT (field 3 0 princ ||| field 8 8 1 ||| field 9 9 target)
    s.onCards (fun c => { c with court := some { princ := princ, target := target, at_ := s.now } })
  if target ≥ 2 then (aRANGE, s)
  else if s.cards.courtRun.isSome then (aBUSY, s)
  else match s.cards.court with
    | none => (aOK, arm s)
    | some c =>
      if c.at_ + 60000000000 < s.now then (aOK, arm (courtEnd aTIMEOUT s))
      else if c.princ = princ then (aOK, courtEnd aTIMEOUT s)
      else
        let cid : Bytes := (List.range 4).flatMap (fun j => le 4 (s.rd (rCHAM_CID target j)).toNat)
        if c.target = target ∧ (s.cport target).exported = some cid ∧ cUsable s target = true ∧ expHolds s target = false then
          let s := procStart (okey 0x5804 0) princ s
          (aOK, setCState target cBUSY (boundary target (s.onCards (fun c => { c with courtRun := some target }))))
        else (aOK, courtEnd aSTATE s)

/-- COURT_COPY_TIMEOUT: 60 s without a second run (R760). -/
def courtTimeout (s : State) : State :=
  match s.cards.court with
  | some c => if s.cards.courtRun = none ∧ c.at_ + 60000000000 ≤ s.now then courtEnd aTIMEOUT s else s
  | none => s

/-- The court copy's CMD27 is confirmed (R759). -/
def courtDone (p : Nat) (s : State) : State := courtEnd aOK (s.setFlag (rCHAM_PSTAT p) 17 true)

/-! ## Completion, abort, busy timeout, retuning -/

/-- CARD_TRANSFER_DONE: the command on the port ends (R727, R730, R742, R748, R756, R759). -/
def cardDone (p : Nat) (out : CardOut) (s : State) : State :=
  let exp := expHolds s p && (s.cards.exp.job.bind ExpJob.pkg).isSome
  let court := decide (s.cards.courtRun = some p)
  match out with
  | .crc sweep => if (s.cport p).xfer.isSome ∨ exp = true ∨ court = true then crcFail p sweep s else s
  | .silent =>
    if exp then expEnd xCARDFAIL (xstatEnd p 3 s)
    else if court then courtEnd aHWFAULT (xstatEnd p 3 s)
    else if (s.cport p).xfer.isSome then boundary p (setCState p cREADY (xferEnd p 3 s))
    else s
  | .done resp data =>
    if exp then boundary p (expStep (setCard p (fun x => { x with retries := 0 }) s))
    else if court then boundary p (courtDone p s)
    else match (s.cport p).xfer with
      | some c => rawDone p c resp data s
      | none => s

/-- PABORT: LATE when the completion was latched at or before the sampling edge (`tie`: on it), else ABORTED; NOTFOUND when
nothing has been started (R742). -/
def pabort (p : Nat) (tie : Option CardOut) (s : State) : State :=
  let stat (n : Nat) (s : State) : State := s.setFld (rCHAM_ABORTSTAT p) 1 0 n
  if p ≥ 2 then s
  else match (s.cport p).xfer, tie with
    | none, _ => if s.fld (rCHAM_XSTAT p) 3 0 = 0 ∨ s.fld (rCHAM_XSTAT p) 3 0 = 7 then stat 3 s else stat 1 s
    | some _, some out => cardDone p out (stat 1 s)
    | some _, none => boundary p (setCState p cREADY (xferEnd p 6 (stat 2 s)))

/-- BUSY_TIMEOUT: DAT0 low past its bound (R733, R734). -/
def busyTimeout (p : Nat) (s : State) : State :=
  if p < 2 ∧ ((s.cport p).xfer.isSome ∨ expHolds s p = true ∨ s.cards.courtRun = some p) then
    let s := (s.addSat (rCHAM_ERRCNT p) 1).raise (rCHAM_INTSTAT p) 4
    setSticky 129 (56 + p) p (portOff p (cardFail p 4 s))
  else s

/-- The mode that a retune tunes for: the mode in use, or the one that CLKFAIL left. -/
def tuneGoal (s : State) (p : Nat) : Nat := (s.cport p).wanted.getD (cSpeed s p)

/-- RETUNE_TRIGGER: RETUNE_S seconds since the last tuning, or RETUNE_DT °C away from its temperature (R725). -/
def retuneTrigger (p : Nat) (temp : Int) (s : State) : State :=
  let x := s.cport p
  let due := decide (x.tunedAt + s.fld rCHAM_XRETUNE 15 0 * 1000000000 ≤ s.now) ||
    decide (10 * s.fld rCHAM_XRETUNE 23 16 ≤ (temp - x.tunedTemp).natAbs)
  let on := decide (p < 2) && (cUsable s p || decide (cState s p = cBUSY)) && tunedMode (cSpeed s p)
  if on ∧ due = true ∧ x.retuneAt = none then
    (setCard p (fun x => { x with retuneAt := some s.now, sweep := [] }) s).setFlag (rCHAM_PSTAT p) 19 true
  else s

/-- RETUNE_STEP: 8 taps, between commands, in a CAL window of class bit 1 or 1 s after the trigger (R724, R726). -/
def retuneStep (p mask : Nat) (temp : Int) (s : State) : State :=
  let x := s.cport p
  match x.retuneAt with
  | none => s
  | some t =>
    let gap := x.xfer.isNone && (decide (cState s p = cREADY) || expHolds s p)
    if gap = false ∨ (calMay s 1 = false ∧ s.now < t + 1000000000) then s
    else
      let taps := x.sweep ++ (List.range 8).map (fun i => mask.testBit i)
      if taps.length < 64 then setCard p (fun x => { x with sweep := taps }) s
      else
        let s := if s.flag rTWEED_CLKSTAT 2 then s else setCard p (fun x => { x with wanted := none }) (setCSpeed p (tuneGoal s p) s)
        let mask := (taps.zipIdx.map (fun b => if b.1 then 2 ^ b.2 else 0)).sum
        tuneWhole p mask (some temp) s

end Sys2Proof.Machine
end

