-- ==== Sys2Proof/Machine/Canvas.lean ====
section
/-!
DEFINITION. Canvas, the frame timebase (R56–R112): position, reference, flywheel and reacquisition, blanking, event slots
with their actions and catch-up, commit points, FSYNC_OUT, disabling. Slot actions call the blocks that carry them out.
-/

namespace Sys2Proof.Machine

/-! ## Slots -/

/-- The staged slot `n`: registers SLOTA, SLOTB, SLOTC (R95, R97). -/
def stagedSlot (s : State) (n : Nat) : Slot :=
  let a := s.rd (rCANVAS_SLOTA n)
  { en := bit a 31, rel := bit a 30, action := bits a 27 24, target := bits a 22 16, line := bits a 15 0,
    period := s.fld (rCANVAS_SLOTB n) 23 0, phase := s.fld (rCANVAS_SLOTC n) 23 0 }

/-- A slot at apply: a change of EN, PERIOD or PHASE reloads its countdown with PHASE, modulo PERIOD (R96, R112). -/
def SlotState.apply (x : SlotState) (n : Slot) : SlotState :=
  if x.slot.en = n.en ∧ x.slot.period = n.period ∧ x.slot.phase = n.phase then { x with slot := n, armed := false }
  else { x with slot := n, armed := false, count := n.phase % n.period }

/-- The countdown test of a frame start (R84). -/
def SlotState.arm (x : SlotState) : SlotState :=
  if !x.slot.en then { x with armed := false, fired := false }
  else if x.count = 0 then { x with armed := true, fired := false, count := x.slot.period - 1 }
  else { x with armed := false, fired := false, count := x.count - 1 }

/-- The order of actions due on one edge (R86). -/
def actionOrder : List Nat := [1, 3, 2, 9, 8, 5, 7, 4, 6, 0xA, 0xB]

/-- A pulse begins on output `n`; one due while the output's pulse is active is dropped (R104). -/
def pulse (n : Nat) (s : State) : State := s.onCanvas (fun c => { c with pulses := upd c.pulses n (fun _ => true) })

/-- PULSE: FSYNC_OUT takes it in mode PULSE (R103), GPIO outputs always. -/
def pulseAction (n : Nat) (s : State) : State :=
  if n < 2 then (if s.fld (rCANVAS_FSOCTL n) 1 0 = 2 then pulse n s else s)
  else if 8 ≤ n ∧ n ≤ 31 then pulse n s
  else s

/-- IRQ: INTSTAT.ACT, or the queue of 64 during a warm restart (table *Canvas races*). -/
def irqAction (n : Nat) (s : State) : State :=
  if 8 ≤ n then s
  else if s.dict.restarting then
    if s.canvas.irqQueue.length < 64 then s.onCanvas (fun c => { c with irqQueue := c.irqQueue ++ [n] })
    else s.incFld rCANVAS_IRQQ 31 8
  else s.raise rCANVAS_INTSTAT (8 + n)

/-- CAL_OPEN: classes that are open already stay as they are (R89); with class bit 2 newly open, the lane tests (R94, R296,
R423). -/
def calOpenAction (cls : Nat) (lf : LaneFails) (s : State) : State :=
  let was := s.canvas.calOpen
  let s := s.onCanvas (fun c => { c with calOpen := c.calOpen ||| cls % 8 })
  if was.testBit 2 = false ∧ s.canvas.calOpen.testBit 2 = true ∧ calMay s 2 = true then
    ldpcTest lf.ldpc (calLaneTest .cipher lf.cipher (calLaneTest .digest lf.digest s))
  else s

/-- One slot action (table *Slot actions*). -/
def slotAction (x : Slot) (lf : LaneFails) (s : State) : State :=
  match x.action with
  | 0x1 => closeAll .seal (sealTargets x.target) s
  | 0x2 => anchorRequest false s
  | 0x3 => ckRequest s
  | 0x4 => s.onCanvas (fun c => { c with gcOpen := true })
  | 0x5 => s.onCanvas (fun c => { c with gcOpen := false })
  | 0x6 => calOpenAction x.target lf s
  | 0x7 => s.onCanvas (fun c => { c with calOpen := c.calOpen &&& (7 - x.target % 8) })
  | 0x8 => commitPoint s
  | 0x9 => epochRequest { reason := .roll } s
  | 0xA => irqAction x.target s
  | 0xB => pulseAction x.target s
  | _ => s

/-- Actions in the order of R86. -/
def runActions (lf : LaneFails) : List Slot → State → State
  | [], s => s
  | x :: xs, s => runActions lf xs (slotAction x lf s)

/-- The slots that satisfy a test, ordered by action and then slot number (R86). -/
def dueSlots (l : List SlotState) (p : SlotState → Bool) : List Slot :=
  actionOrder.flatMap (fun a => (l.filter (fun x => p x && decide (x.slot.action = a))).map SlotState.slot)

/-- Armed slots that satisfy a test fire; none does from the fall of PFAIL_N on (R85, R98). -/
def fireSlots (p : SlotState → Bool) (lf : LaneFails) (s : State) : State :=
  if s.dying ∨ s.canvas.enabled = false then s
  else
    let q (x : SlotState) : Bool := x.armed && !x.fired && p x
    let due := dueSlots s.canvas.slots q
    runActions lf due (s.onCanvas (fun c => { c with slots := c.slots.map (fun x => if q x then { x with fired := true } else x) }))

/-! ## Frame start -/

/-- The catch-up: unfired armed slots fire, opens are discarded, every window closes, SHORTFRAME if any slot fired
(R90, R91). -/
def catchUp (lf : LaneFails) (s : State) : State :=
  let opens (x : SlotState) : Bool := decide (x.slot.action = 4 ∨ x.slot.action = 6)
  let late := !s.dying && s.canvas.slots.any (fun x =>
    x.armed && !x.fired && !opens x && actionOrder.contains x.slot.action)
  let s := fireSlots (fun x => !opens x) lf s
  let s := s.onCanvas (fun c =>
    { c with gcOpen := false, calOpen := 0, slots := c.slots.map (fun x => { x with armed := false }) })
  if late then s.raise rCANVAS_INTSTAT 2 else s

/-- FRAME and the frame epoch advance as one; LINE returns to 0 (R56–R58). -/
def Pos.nextFrame (p : Pos) : Pos :=
  if p.frame + 1 < 2 ^ 32 then { epoch := p.epoch, frame := p.frame + 1, line := 0 }
  else { epoch := p.epoch + 1, frame := 0, line := 0 }

/-- CTRL as written. -/
def ctlOf (s : State) : CanvasCtl :=
  let w := s.rd rCANVAS_CTRL
  { fspol := bit w 11, reacq := bit w 10, refvc := bits w 9 6, refport := bits w 5 4, refsel := bits w 3 2 }

/-- CTRL takes effect at a frame start; a change of reference starts its acquisition anew (R70). -/
def adoptCtl (s : State) : State :=
  let n := ctlOf s
  s.onCanvas (fun c =>
    if c.ctl.refsel = n.refsel ∧ c.ctl.refport = n.refport ∧ c.ctl.refvc = n.refvc then { c with ctl := n }
    else { c with ctl := n, st := .acquire, intervals := [], blanks := [], qualRun := 0, refAt := none, frameEndAt := none })

/-- The staged set applies, when one is pending (R95, R96). With no COMMIT slot left, the 1 ms commit timer starts from this
frame start (R101). -/
def applySlots (s : State) : State :=
  if !s.canvas.applyPending then s
  else
    let s := s.onCanvas (fun c =>
      { c with applyPending := false, slots := c.slots.mapIdx (fun i (x : SlotState) => x.apply (stagedSlot s i)) })
    if slotHolds s 8 then s else s.onCanvas (fun c => { c with lastCommitAt := s.now })

/-- The period of frame starts that Canvas generates itself (table *Canvas states*, R65, R72). -/
def flyPeriod (s : State) : Nat :=
  if s.canvas.ctl.refsel = 2 ∨ s.canvas.st = .acquire then (s.rd rCANVAS_PERIODSET).toNat else nominalPeriod s

/-- FSYNC_OUT `n` at a frame start: in mode FRAME every DIV-th one makes a pulse due; DIV 0 acts as 1 (R103). -/
def fsyncFrame (n : Nat) (s : State) : State :=
  if s.fld (rCANVAS_FSOCTL n) 1 0 ≠ 1 then
    s.onCanvas (fun c => { c with fsCount := upd c.fsCount n (fun _ => 0), fsDue := upd c.fsDue n (fun _ => false) })
  else if nth s.canvas.fsCount n = 0 then
    let d := max 1 (s.fld (rCANVAS_FSOCTL n) 15 8)
    s.onCanvas (fun c => { c with fsCount := upd c.fsCount n (fun _ => d - 1), fsDue := upd c.fsDue n (fun _ => true) })
  else s.onCanvas (fun c => { c with fsCount := upd c.fsCount n (fun k => k - 1) })

/-- A Canvas frame start at instant `t`. -/
def canvasFrameStart (t : Nat) (lf : LaneFails) (s : State) : State :=
  let s := catchUp lf (s.at t)
  let s := s.onCanvas (fun c =>
    { c with pos := c.pos.nextFrame, blank := false, blankTicks := 0, frameStartAt := t })
  let s := applySlots (adoptCtl s)
  let s := s.onCanvas (fun c => { c with slots := c.slots.map SlotState.arm, nextFrameAt := t + flyPeriod s })
  let s := fireSlots (fun x => !x.slot.rel && decide (x.slot.line = 0)) lf s
  fsyncFrame 1 (fsyncFrame 0 s)

/-! ## The reference -/

/-- The reference frame start at `t` qualifies (R68). -/
def qualifies (s : State) (t : Nat) : Bool :=
  match s.canvas.refAt with
  | none => false
  | some p =>
    let nom := nominalPeriod s
    let d := t - p
    decide ((d - nom + (nom - d)) * 1024 ≤ nom * s.fld rCANVAS_REFTOL 7 0)

/-- The last 8 of a list of intervals, newest first. -/
def keep8 (d : Nat) (l : List Nat) : List Nat := (d :: l).take 8

/-- Measurement of period and blanking while locked (R67). -/
def measure (t : Nat) (c : Canvas) : Canvas :=
  let c := match c.refAt with | some p => { c with intervals := keep8 (t - p) c.intervals } | none => c
  match c.frameEndAt with
  | some e => if c.ctl.refsel = 0 then { c with blanks := keep8 (t - e) c.blanks } else c
  | none => c

/-- The state becomes LOCKED; REACQ is set but for the first acquisition after a full reset or an enable (R79, table *Canvas
races*; notes/assumptions/42.md). -/
def lock (s : State) : State :=
  let first := decide (s.canvas.st = .acquire) && s.canvas.stepNext
  let s := s.onCanvas (fun c => { c with st := .locked, stepNext := false, qualRun := 0 })
  if first then s else s.raise rCANVAS_INTSTAT 1

/-- The position of the last reference frame start (R74). -/
def markRef (s : State) : State := s.onCanvas (fun c => { c with refPos := { c.pos with line := 0 } })

/-- Phase error of a reference frame start in PULLIN: lock below one LINEPER, else the next frame moves by the smaller of the
error and LINEPER (R76). -/
def pullIn (t : Nat) (lf : LaneFails) (s : State) : State :=
  let c := s.canvas
  let late := t - c.frameStartAt
  let early := c.nextFrameAt - t
  let lp := linePer s
  if early < late then
    let s := s.wr rCANVAS_PHASEERR (loWord early)
    if early < lp then markRef (canvasFrameStart t lf (lock s))
    else s.onCanvas (fun c => { c with nextFrameAt := c.nextFrameAt - min early lp })
  else
    let s := s.wr rCANVAS_PHASEERR (BitVec.ofInt 32 (-(late : Int)))
    if late < lp then markRef (lock s)
    else s.onCanvas (fun c => { c with nextFrameAt := c.nextFrameAt + min late lp })

/-- REF_FRAME_START (R56, R67–R70, R75–R79). -/
def refFrameStart (t : Nat) (lf : LaneFails) (s : State) : State :=
  let s := s.at t
  let c := s.canvas
  if c.enabled = false ∨ 2 ≤ c.ctl.refsel then s
  else
    let run := if qualifies s t then c.qualRun + 1 else 0
    let s := if c.st = .locked then s.onCanvas (measure t) else s
    let s := s.onCanvas (fun c => { c with refAt := some t, qualRun := run, frameEndAt := none })
    match c.st with
    | .locked => markRef (canvasFrameStart t lf s)
    | .pullin => pullIn t lf s
    | _ =>
      if run < 2 then s
      else if c.stepNext ∨ c.ctl.reacq = true then markRef (canvasFrameStart t lf (lock s))
      else pullIn t lf (s.onCanvas (fun c => { c with st := .pullin, qualRun := 0 }))

/-- FLYWHEEL_FRAME_START: the flywheel's own frame start, once its period has run out (R65, R72). -/
def flywheelFrameStart (t : Nat) (lf : LaneFails) (s : State) : State :=
  let s := s.at t
  let c := s.canvas
  if c.enabled = false ∨ c.st = .locked ∨ t < c.nextFrameAt then s
  else
    let s := canvasFrameStart t lf s
    if c.st = .flywheel then s.addSat rCANVAS_SLIP 1 else s

/-- The custodies bound to the reference source, with REFSEL STREAM (R74). -/
def refCusts (s : State) : List Nat :=
  if s.canvas.ctl.refsel = 0 then
    (List.range 64).filter (fun c => bindsCamera (s.cust c).mDesc s.canvas.ctl.refport s.canvas.ctl.refvc)
  else []

/-- REFLOST_TAKEOVER: 1.5 nominal periods after the last reference frame start (R71, R74; notes/assumptions/42.md). -/
def reflostTakeover (t : Nat) (lf : LaneFails) (s : State) : State :=
  let s := s.at t
  let c := s.canvas
  match c.refAt with
  | none => s
  | some p =>
    if c.enabled = false ∨ c.st ≠ .locked ∨ (t - p) * 2 < nominalPeriod s * 3 then s
    else
      let custs := refCusts s
      let s := canvasFrameStart t lf (s.onCanvas (fun c => { c with st := .flywheel, qualRun := 0 }))
      let s := setSticky 64 16 c.refPos.frame s
      let s := (s.raise rCANVAS_INTSTAT 0).addSat rCANVAS_LOSSCNT 1
      let s := s.wr rCANVAS_SLIP 1
      writeGaps gapREFLOST 0 (fun _ => c.refPos) (fun _ => { s.canvas.pos with line := 0 }) custs s

/-! ## Frame end and line ticks -/

/-- FRAME_END: blanking begins, and actions at blanking tick 0 fire (R81, R85). -/
def canvasFrameEnd (t : Nat) (lf : LaneFails) (s : State) : State :=
  let s := s.at t
  if s.canvas.enabled = false ∨ s.canvas.blank = true then s
  else
    let s := s.onCanvas (fun c => { c with blank := true, blankTicks := 0, frameEndAt := some t })
    fireSlots (fun x => x.slot.rel && decide (x.slot.line = 0)) lf s

/-- LINE_TICK: LINE advances and holds at 0xFFFF; slots at the new position fire (R58, R59, R85, R109). -/
def lineTick (t : Nat) (lf : LaneFails) (s : State) : State :=
  let s := s.at t
  if 0xFFFF ≤ s.canvas.pos.line then s
  else
    let s := s.onCanvas (fun c =>
      { c with pos := { c.pos with line := c.pos.line + 1 }, blankTicks := if c.blank then c.blankTicks + 1 else 0 })
    let c := s.canvas
    fireSlots (fun x => if x.slot.rel then c.blank && decide (x.slot.line = c.blankTicks)
                        else decide (x.slot.line = c.pos.line)) lf s

/-! ## Commit points, FSYNC_OUT, enable -/

/-- The commit timer's span, ns: the backstop over the shortest PERIOD of the enabled COMMIT slots, else 1,000,000 fabric
cycles (R99, R100, R109). -/
def commitSpan (s : State) : Nat :=
  let l := (s.canvas.slots.filter (fun x => x.slot.en && decide (x.slot.action = 8))).map (fun x => x.slot.period)
  if s.canvas.enabled then
    match l with
    | [] => 1000000
    | p :: ps => ps.foldl min p * nominalPeriod s
  else 1000000

/-- COMMIT_POINT_TIMER (R99–R101, R109). -/
def commitTimer (t : Nat) (s : State) : State :=
  let s := s.at t
  if t < s.canvas.lastCommitAt + commitSpan s then s else commitPoint s

/-- FSYNC_OUT_FRAME_PULSE: the pulse that a frame start made due begins (R103, R104, R108). -/
def fsyncPulse (n : Nat) (s : State) : State :=
  if s.canvas.enabled = true ∧ nth s.canvas.fsDue n = true then
    pulse n (s.onCanvas (fun c => { c with fsDue := upd c.fsDue n (fun _ => false) }))
  else s

/-- PULSE_END: the output returns inactive (R104). -/
def pulseEnd (n : Nat) (s : State) : State := s.onCanvas (fun c => { c with pulses := upd c.pulses n (fun _ => false) })

/-- CANVAS_DISABLE (R108, R109). -/
def canvasDisable (t : Nat) (lf : LaneFails) (s : State) : State :=
  let s := (s.at t).setFlag rCANVAS_CTRL 0 false
  if !s.canvas.enabled then s
  else (catchUp lf s).onCanvas (fun c =>
    { c with enabled := false, st := .acquire, fsDue := [false, false], qualRun := 0, refAt := none })

/-- CANVAS_ENABLE: a frame start at once, then ACQUIRE, whose acquisition steps (R110). -/
def canvasEnable (t : Nat) (lf : LaneFails) (s : State) : State :=
  let s := (s.at t).setFlag rCANVAS_CTRL 0 true
  if s.canvas.enabled then s
  else canvasFrameStart t lf (s.onCanvas (fun c => { c with enabled := true, st := .acquire, stepNext := true }))

/-- APPLY: the staged set waits for the next frame start (R95). -/
def slotApply (s : State) : State := s.onCanvas (fun c => { c with applyPending := true })

end Sys2Proof.Machine
end

