-- ==== Sys2Proof/Machine/Percale.lean ====
section
/-!
DEFINITION. Percale's two slots (R762–R779): presence, activation and classes, the ATR and its decoding, PPS, characters,
clock stop, deactivation and faults, the authentication of driver cards; and what PFAIL_N does to the card blocks (R519).
Field places of the ATR and of T=1 blocks are those of ISO/IEC 7816-3, which the spec cites (notes/assumptions/51.md).
-/

namespace Sys2Proof.Machine

/-- A slot. -/
def State.cslot (s : State) (i : Nat) : CardSlot := nth s.cards.slots i
/-- A slot changed. -/
def setCSlot (i : Nat) (f : CardSlot → CardSlot) (s : State) : State := s.onCards (fun c => { c with slots := upd c.slots i f })

/-- SSTAT.STATE. -/
def pState (s : State) (i : Nat) : Nat := s.fld (rPERC_SSTAT i) 2 0
def setPState (i v : Nat) (s : State) : State := s.setFld (rPERC_SSTAT i) 2 0 v

/-- FIFOSTAT.ERR with the ERR event. -/
def slotErr (i code : Nat) (s : State) : State := (s.setFld (rPERC_FIFOSTAT i) 19 16 code).raise (rPERC_INTSTAT i) 5

/-! ## Deactivation -/

/-- Deactivation (R772): a transfer in progress ends with DEACT (R775), AUTH is cleared (R779). -/
def deactivate (i : Nat) (s : State) : State :=
  let x := s.cslot i
  let on := decide (pState s i = 2 ∨ pState s i = 3 ∨ pState s i = 4)
  if on = false then s
  else
    let moving := !x.tx.isEmpty || !x.blk.isEmpty || x.pps
    let s := if moving then slotErr i 4 s else s
    let s := setCSlot i (fun x => { x with tx := [], blk := [], pps := false, repeats := 0 }) s
    let s := (s.setFlag (rPERC_SSTAT i) 6 false).setFld (rPERC_SSTAT i) 11 8 0
    (setPState i (if x.present then 1 else 0) s).raise (rPERC_INTSTAT i) 6

/-- DEACT: a write of SCTL.DEACT. -/
def deact (i : Nat) (s : State) : State := if i < 2 then deactivate i s else s

/-- The slot is FAILED (R763, R773, R774). -/
def slotFail (i : Nat) (s : State) : State := (setPState i 6 s).raise (rPERC_INTSTAT i) 5

/-! ## Activation -/

/-- Activation at a class (table *Activation, from the ACTIVATE write or from presence with SCTL.AUTOACT*). -/
def activateAt (i : Nat) (classB : Bool) (s : State) : State :=
  let s := s.wr (rPERC_SSTAT i) (field 2 0 2 ||| field 4 4 classB.toNat)
  let s := setCSlot i (fun x => { x with fi := 1, di := 1, tx := [], rx := [], blk := [], pps := false, repeats := 0 }) s
  ((s.wr (rPERC_ATRLEN i) 0#32).wr (rPERC_FIFOSTAT i) 0#32)

/-- Activation at the lowest class that CLASSES allows; FAILED without switching VCC on when it allows none (R763). -/
def activateSlot (i : Nat) (s : State) : State :=
  if s.flag (rPERC_SCTL i) 8 then activateAt i false s
  else if s.flag (rPERC_SCTL i) 9 then activateAt i true s
  else slotFail i s

/-- ACTIVATE: a present card that is not active, or a FAILED slot (R763, R764). -/
def activate (i : Nat) (s : State) : State :=
  if i < 2 ∧ s.flag (rPERC_SCTL i) 0 = true ∧ (s.cslot i).present = true ∧ (pState s i = 1 ∨ pState s i = 6) then activateSlot i s
  else s

/-- PRESENCE: SCs_PRES has held a level for 10 ms (R762). -/
def presence (i : Nat) (level : Bool) (s : State) : State :=
  if i ≥ 2 then s
  else if level = s.flag (rPERC_SCTL i) 5 then
    if (s.cslot i).present then s
    else
      let s := setCSlot i (fun x => { x with present := true, noPps := false }) s
      let s := (setPState i 1 s).raise (rPERC_INTSTAT i) 0
      if s.flag (rPERC_SCTL i) 6 then activate i s else s
  else if (s.cslot i).present then
    let s := deactivate i s
    let s := setCSlot i (fun x => { x with present := false, noPps := false }) s
    (setPState i 0 s).raise (rPERC_INTSTAT i) 1
  else s

/-- The next higher class that CLASSES allows, or FAILED (R763). -/
def nextClass (i : Nat) (s : State) : State :=
  let wasB := s.flag (rPERC_SSTAT i) 4
  let s := deactivate i s
  if wasB = false ∧ s.flag (rPERC_SCTL i) 9 = true then activateAt i true s else slotFail i s

/-- ATR_TIMEOUT: no ATR within 40,000 clock cycles of RST high (R763). -/
def atrTimeout (i : Nat) (s : State) : State :=
  if i < 2 ∧ pState s i = 2 ∧ (s.cslot i).pps = false then nextClass i s else s

/-! ## The ATR -/

/-- The interface bytes of one level of an ATR, with the protocol that the level before named. -/
structure AtrLevel where
  proto : Option Nat := none
  ta : Option Byte := none
  tb : Option Byte := none
  tc : Option Byte := none
  td : Option Byte := none
  deriving DecidableEq, Repr, Inhabited

/-- One interface byte taken when its presence bit is set; none when the ATR ends too early. -/
def takeByte (on : Bool) (l : Bytes) : Option (Option Byte × Bytes) :=
  if on then match l with | b :: t => some (some b, t) | [] => none else some (none, l)

/-- The levels of interface bytes from presence bits `y` on, and the bytes after them. -/
def atrLevels : Nat → Option Nat → Nat → Bytes → Option (List AtrLevel × Bytes)
  | 0, _, _, _ => none
  | n + 1, proto, y, l =>
    (takeByte (y.testBit 0) l).bind fun a =>
      (takeByte (y.testBit 1) a.2).bind fun b =>
        (takeByte (y.testBit 2) b.2).bind fun c =>
          (takeByte (y.testBit 3) c.2).bind fun d =>
            let lev : AtrLevel := { proto := proto, ta := a.1, tb := b.1, tc := c.1, td := d.1 }
            match d.1 with
            | none => some ([lev], d.2)
            | some t => (atrLevels n (some (t.toNat % 16)) (t.toNat / 16) d.2).map (fun r => (lev :: r.1, r.2))

/-- XOR of bytes. -/
def xorAll (l : Bytes) : Byte := l.foldl (· ^^^ ·) 0

/-- The ATR's levels when R765 accepts it. -/
def atrAccept (bs : Bytes) (parityBad : Bool) : Option (List AtrLevel) :=
  let t0 := (bs.getD 1 0).toNat
  match atrLevels 32 none (t0 / 16) (bs.drop 2) with
  | none => none
  | some (ls, rest) =>
    let tck := ls.any (fun l => match l.td with | some t => decide (t.toNat % 16 ≠ 0) | none => false)
    if (bs.head? = some 0x3B ∨ bs.head? = some 0x3F) ∧ 2 ≤ bs.length ∧ bs.length ≤ 33 ∧ parityBad = false ∧
        rest.length = t0 % 16 + tck.toNat ∧ (tck = false ∨ xorAll (bs.drop 1) = 0) then some ls
    else none

/-- Level `n` of an ATR, 1 the first. -/
def atrLevel (ls : List AtrLevel) (n : Nat) : AtrLevel := ls.getD (n - 1) {}

/-- The first byte of its kind after a protocol was named, from level 3 on for T=1 and from any level for T=15. -/
def firstAfter (ls : List AtrLevel) (proto from_ : Nat) (g : AtrLevel → Option Byte) : Option Byte :=
  ((ls.drop (from_ - 1)).filter (fun l => decide (l.proto = some proto))).findSome? g

/-- ATR: captured, checked, decoded, applied (R765–R768). -/
def atr (i : Nat) (bs : Bytes) (parityBad : Bool) (s : State) : State :=
  if i ≥ 2 ∨ pState s i ≠ 2 ∨ (s.cslot i).pps = true then s
  else
    let s := s.wrWords (rPERC_ATR i 0) (wordsOf 9 (fit 33 bs))
    let s := s.wr (rPERC_ATRLEN i) (field 5 0 (min 33 bs.length))
    match atrAccept bs parityBad with
    | none => nextClass i s
    | some ls =>
      let val (b : Option Byte) (d : Nat) : Nat := match b with | some x => x.toNat | none => d
      let ta1 : Nat := val (atrLevel ls 1).ta 0x11
      let n := val (atrLevel ls 1).tc 0
      let wi := val (atrLevel ls 2).tc 10
      let s := s.wr (rPERC_FIDI i) (field 3 0 (ta1 / 16) ||| field 7 4 (ta1 % 16) ||| field 15 8 n ||| field 23 16 wi)
      let ifs := val (firstAfter ls 1 3 AtrLevel.ta) 32
      let cb := val (firstAfter ls 1 3 AtrLevel.tb) 0x4D
      let edc := val (firstAfter ls 1 3 AtrLevel.tc) 0
      let s := s.wr (rPERC_T1CFG i) (field 7 0 ifs ||| field 11 8 (cb % 16) ||| field 15 12 (cb / 16) ||| field 16 16 (edc % 2))
      let s := s.setFld (rPERC_SSTAT i) 13 12 (val (firstAfter ls 15 1 AtrLevel.ta) 0 / 64)
      let first := match (atrLevel ls 1).td with | some t => t.toNat % 16 | none => 0
      let ta2 := (atrLevel ls 2).ta
      let proto := match ta2 with | some t => t.toNat % 16 | none => first
      let s := s.setFlag (rPERC_SSTAT i) 5 (decide (proto = 1))
      let s := s.raise (rPERC_INTSTAT i) 2
      let noPps : Bool := (s.cslot i).noPps
      let apply_ (s : State) : State := setCSlot i (fun x => { x with fi := ta1 / 16, di := ta1 % 16 }) s
      let s := setCSlot i (fun x => { x with noPps := false }) s
      match ta2 with
      | some t => setPState i 3 (if t.toNat.testBit 4 then s else apply_ s)
      | none =>
        if (s.flag (rPERC_SCTL i) 3 && !(Nat.beq ta1 0x11) && !noPps) = true then setCSlot i (fun x => { x with pps := true }) s
        else setPState i 3 s

/-- A PPS that fails: the card is deactivated, and the next activation keeps Fi 372 and Di 1 with no PPS (R767). -/
def ppsFail (i : Nat) (s : State) : State :=
  setCSlot i (fun x => { x with noPps := true }) (deactivate i (setCSlot i (fun x => { x with pps := false }) s))

/-- PPS_RESPONSE (R767). -/
def ppsResponse (i : Nat) (confirms : Bool) (s : State) : State :=
  if i ≥ 2 ∨ (s.cslot i).pps = false then s
  else if confirms then
    let f := s.rd (rPERC_FIDI i)
    setPState i 3 (setCSlot i (fun x => { x with pps := false, fi := bits f 3 0, di := bits f 7 4 }) s)
  else ppsFail i s

/-! ## Faults -/

/-- IO_STUCK: I/O low beyond the waiting time in force (R773). -/
def ioStuck (i : Nat) (s : State) : State :=
  if i < 2 ∧ (pState s i = 2 ∨ pState s i = 3 ∨ pState s i = 4) then
    setSticky 130 (59 + i) i (slotFail i (deactivate i s))
  else s

/-- OVERCURRENT: more than 60 mA for 10 µs (R774). -/
def overcurrent (i : Nat) (s : State) : State :=
  if i < 2 ∧ (pState s i = 2 ∨ pState s i = 3 ∨ pState s i = 4) then
    setSticky 131 (59 + i) i (slotFail i ((deactivate i s).raise (rPERC_INTSTAT i) 7))
  else s

/-- WAITING_TIME_EXPIRY: after a PPS request the card is deactivated (R767), otherwise the transfer ends with WT (R770). -/
def waitingExpiry (i : Nat) (s : State) : State :=
  if i ≥ 2 then s
  else if (s.cslot i).pps then ppsFail i s
  else if pState s i = 3 then slotErr i 2 (setCSlot i (fun x => { x with blk := [], repeats := 0 }) s)
  else s

/-! ## Characters -/

/-- CLOCK_STOP: 1,860 clock cycles after the last character (R771). -/
def clockStop (i : Nat) (s : State) : State :=
  if i < 2 ∧ pState s i = 3 ∧ s.flag (rPERC_SCTL i) 4 = true ∧ s.fld (rPERC_SSTAT i) 13 12 ≠ 0 ∧ (s.cslot i).tx = [] then
    setPState i 4 s
  else s

/-- Characters leave the transmit FIFO; TXDONE when it empties. -/
def txDrain (i n : Nat) (s : State) : State :=
  let q := (s.cslot i).tx
  if n = 0 ∨ q = [] then s
  else
    let s := setCSlot i (fun x => { x with tx := q.drop n }) s
    if q.length ≤ n then s.raise (rPERC_INTSTAT i) 4 else s

/-- TXFIFO_WRITE: a character is queued; before it, `sent` queued characters have gone out, and `refused` says that the card
refused one four times in T=0 (R770, R771). -/
def txWrite (i : Nat) (b : Byte) (sent : Nat) (refused : Bool) (s : State) : State :=
  if i ≥ 2 ∨ (pState s i ≠ 3 ∧ pState s i ≠ 4) then s
  else
    let s := txDrain i sent (setPState i 3 s)
    let s := if refused ∧ s.flag (rPERC_SSTAT i) 5 = false then slotErr i 1 (setCSlot i (fun x => { x with tx := [] }) s) else s
    if (s.cslot i).tx.length < 64 then setCSlot i (fun x => { x with tx := x.tx ++ [b] }) s else s

/-- Bytes of the epilogue: LRC 1, CRC 2. -/
def edcLen (s : State) (i : Nat) : Nat := if s.flag (rPERC_T1CFG i) 16 then 2 else 1

/-- The epilogue of a whole block agrees (R770). -/
def edcOk (s : State) (i : Nat) (blk : Bytes) : Bool := if s.flag (rPERC_T1CFG i) 16 then Config.edcCrc blk else decide (xorAll blk = 0)

/-- A character enters RXFIFO; a full FIFO takes none. -/
def rxPush (i : Nat) (b : Byte) (s : State) : State :=
  setCSlot i (fun x => { x with rx := if x.rx.length < 64 then x.rx ++ [b] else x.rx }) s

/-- CHARACTER_RECEIVED: T=0 with parity and repetition, T=1 with its epilogue (R770). -/
def charReceived (i : Nat) (b : Byte) (parityErr : Bool) (s : State) : State :=
  if i ≥ 2 ∨ pState s i ≠ 3 then s
  else
    let s := txDrain i 64 s
    let x := s.cslot i
    if s.flag (rPERC_SSTAT i) 5 = false then
      if parityErr then
        if x.repeats < 3 then setCSlot i (fun x => { x with repeats := x.repeats + 1 }) s
        else slotErr i 1 (setCSlot i (fun x => { x with repeats := 0 }) s)
      else (rxPush i b (setCSlot i (fun x => { x with repeats := 0 }) s)).raise (rPERC_INTSTAT i) 3
    else
      let blk := x.blk ++ [b]
      let len := 3 + (blk.getD 2 0).toNat
      let s := setCSlot i (fun x => { x with blk := blk, repeats := x.repeats + parityErr.toNat }) s
      let s := if blk.length ≤ len then rxPush i b s else s
      if 3 ≤ blk.length ∧ blk.length = len + edcLen s i then
        let bad := (s.cslot i).repeats ≠ 0
        let s := setCSlot i (fun x => { x with blk := [], repeats := 0 }) s
        let s := if bad then slotErr i 1 s else if edcOk s i blk then s else slotErr i 3 s
        s.raise (rPERC_INTSTAT i) 3
      else s

/-! ## Driver cards -/

/-- AUTHCTL_START: a challenge of 16 DRBG bytes (R776). -/
def authStart (w : Word) (s : State) : State :=
  let s := s.wr rPERC_AUTHCTL (w &&& 0x0000010F#32)
  if bit w 31 = false then s
  else
    let (bs, s) := drbgNow 16 s
    match bs with
    | some bs =>
      let s := (s.wrWords (rPERC_AUTHCHAL 0) (wordsOf 4 bs)).wr rPERC_AUTHSTAT 1#32
      s.onCards (fun c => { c with auth := some (bits w 8 8, bits w 3 0) })
    | none => (s.wr rPERC_AUTHSTAT 3#32).onCards (fun c => { c with auth := none })

/-- The response that R777 expects. -/
def authExpect (s : State) (key : Bytes) (i : Nat) : Bytes :=
  let words (f : Nat → Nat) (n : Nat) : Bytes := (List.range n).flatMap (fun j => le 4 (s.rd (f j)).toNat)
  let card := (words (rPERC_ATR i) 9).take (s.fld (rPERC_ATRLEN i) 5 0)
  (hmac256 key ([0x43] ++ words rPERC_AUTHCHAL 4 ++ fit 32 (Config.sha256 card) ++ [BitVec.ofNat 8 i])).take 16

/-- AUTHRSP_WRITE: a response word; the check runs on the write of AUTHRSP[3] (R777). -/
def authRsp (k : Nat) (w : Word) (s : State) : State :=
  let s := s.onCards (fun c => { c with authRsp := upd c.authRsp k (fun _ => w) })
  if k ≠ 3 then s
  else
    let fail (s : State) : State := (s.wr rPERC_AUTHSTAT 3#32).onCards (fun c => { c with auth := none })
    match s.cards.auth with
    | none => fail s
    | some (i, p) =>
      let ready := (s.cslot i).present && decide (pState s i = 3 ∨ pState s i = 4)
      let bound := enabledOf s p && decide (kindOf s p = 5 ∧ princNode s p = i)
      let rsp : Bytes := s.cards.authRsp.flatMap (fun w => le 4 w.toNat)
      match useKey s (princKey s p) uHMAC with
      | .key key =>
        if ready ∧ bound = true ∧ rsp = authExpect s key i then
          let s := (s.setFlag (rPERC_SSTAT i) 6 true).setFld (rPERC_SSTAT i) 11 8 p
          (s.wr rPERC_AUTHSTAT 2#32).onCards (fun c => { c with auth := none })
        else fail s
      | _ => fail s

/-! ## PFAIL_N -/

/-- Step 1 of the last breath for the card blocks: transfers abort, both ports run their power-off order, both slots
deactivate; an export ends ABORTED with no record block (R519, R755). -/
def cardsPfail (s : State) : State :=
  let s := (List.range 2).foldl (fun s p =>
    let busy := (s.cport p).xfer.isSome || expHolds s p || decide (s.cards.courtRun = some p)
    portOff p (if busy then xferEnd p 6 s else s)) s
  let s := expEnd xABORTED s
  (List.range 2).foldl (fun s i => deactivate i s) s

end Sys2Proof.Machine
end

