-- ==== Sys2Proof/Machine/Power.lean ====
section
/-!
DEFINITION. Power states, PFAIL_N and the last breath, reset sources, the reset sequence, stored configuration, recording
resume, RST_N (R501–R546, R1119–R1122). One command runs a whole reset sequence up to step 4 from reset release
(notes/assumptions/46.md).
-/

namespace Sys2Proof.Machine

/-! ## Last breath -/

/-- The highest step `n` such that steps 1 to `n` are done (R520, notes/assumptions/47.md). -/
def lbHighest (done : List Nat) : Nat := ((List.range 8).takeWhile (fun n => n = 0 || done.contains n)).length - 1

/-- A step of the sequence is done; Felt latches the stage (R520). -/
def lbStep (k : Nat) (s : State) : State :=
  let done := s.power.lbDone ++ [k]
  let n := lbHighest done
  (s.onPower (fun p => { p with lbDone := done, lb := n })).onFelt (fun f => { f with lbstage := n })

/-- PMIC_EN falls: the core loses its supply, PARKED begins (R501, step 7). -/
def enterParked (s : State) : State :=
  keysPowerLoss (discPowerLoss (s.onPower (fun p => { p with
    st := .parked, pmicEn := false, released := false, ingest := false, parkedAt := s.now })))

/-- Step 7 at the later of steps 5 and 6. -/
def lbFinish (s : State) : State :=
  if s.power.lbDone.contains 5 ∧ s.power.lbDone.contains 6 ∧ s.dying = true then enterParked (lbStep 7 s) else s

/-- CE_N high and WP_N low on every channel, whatever is in flight (R518). -/
def parkNand (s : State) : State :=
  (List.range 8).foldl (fun s n => setChan n (fun c => { c with wpHigh := false, ops := [] }) s) s

/-- Bytes that no journal write has taken when ingest closes are discarded (R512). -/
def dropUntaken (s : State) : State :=
  s.onMuslin (fun m => { m with
    ports := m.ports.map (fun p => { p with lines := [], short := none, taken := 0 }),
    doors := m.doors.map (fun d => { d with descs := [], buf := [] }) })

/-- Step 1, and the closing of step 2 (R512–R519, R522); read doors end ABORTED with no status block (table *PCIe races*). -/
def lastBreath (s : State) : State :=
  let s := s.onPower (fun p => { p with st := .lastBreath, ingest := false, lbDone := [], lb := 0 })
  let s := cardsPfail (pkPfail (linenPfail (nmi 1 s)))
  let s := (List.range 8).foldl (fun s r => if (s.rdoor r).job.isSome then rdEnd r xABORTED false s else s) s
  lbStep 1 (closeAll .partialStripe (List.range 64) (dropUntaken s))

/-- A power failure or park in RUN: the sequence runs; before ingest first opened it only parks the NAND (R507, R510, R540). -/
def startLastBreath (s : State) : State :=
  if s.power.st ≠ .run ∨ s.live = false then s
  else if s.power.resumed then lastBreath s
  else enterParked (parkNand (s.onFelt (fun f => { f with lbstage := 0 })))

/-- PFAIL_N_FALL: a filtered low (R508, R510). -/
def pfailFall (s : State) : State := startLastBreath (s.onPower (fun p => { p with pfailN := false }))

/-- The last-breath ANCHOR: started after step 3 with LBANCHOR 1 and a usable epoch key; without it steps 4 and 6 count as done
(R516, R517, R1057). -/
def lbAnchor (s : State) : State :=
  if s.flag rLINEN_CTRL 0 ∧ s.fuse.life ≠ .blank ∧ signUsable s (activeSlot s) = true then
    lbStep 4 (anchorStart { lastBreath := true } s)
  else lbFinish (lbStep 6 (lbStep 4 s))

/-- LAST_BREATH_FLUSH: steps 2 and 3 complete, the anchor starts (R513–R516). -/
def lbFlush (s : State) : State :=
  if s.dying = false ∨ s.power.lbDone.contains 3 then s
  else lbAnchor (lbStep 3 (timeckNow (lbStep 2 (sealAll s))))

/-- The last-breath ANCHOR has been written, or has failed twice: step 6. -/
def lbAnchorDone (s : State) : State :=
  if s.dying ∧ s.power.lbDone.contains 4 ∧ s.power.lbDone.contains 6 = false ∧ s.linen.anchor = none then
    lbFinish (lbStep 6 s)
  else s

/-- NAND_PARK: step 5 (R518). -/
def nandPark (s : State) : State :=
  if s.dying = false ∨ s.power.lbDone.contains 5 then s else lbFinish (lbStep 5 (parkNand s))

/-- IGN_IN low for IGNDLY seconds: a park when IGNPARK is set (R506). -/
def ignitionPark (s : State) : State :=
  let s := s.onPower (fun p => { p with ignIn := false })
  if s.flag rTWEED_WAKECFG 8 then startLastBreath s else s

/-! ## Wake -/

/-- A wake source, enabled in WAKECFG, after 100 ms in PARKED: PMIC_EN rises; with the core held by WARMPOR a full reset of
cause POR follows (R503–R505). -/
def wake (src : Nat) (s : State) : State :=
  let s := if src = 0 then s.onPower (fun p => { p with ignIn := true }) else s
  let on := decide (src < 4) && s.flag rTWEED_WAKECFG src && (decide (src ≠ 3) || s.flag rFELT_FINTSTAT 3)
  if s.power.st = .parked ∧ s.power.pmicEn = false ∧ s.power.parkedAt + 100000000 ≤ s.now ∧ on = true then
    if s.power.warmHold then
      (s.wr rTWEED_RSTCAUSE 0#32).onPower (fun p => { p with pmicEn := true, warmHold := false, warmPor := true, rst := some 1 })
    else s.onPower (fun p => { p with pmicEn := true })
  else s

/-- WARMPOR_HOLD: VDD_CORE in range 10 ms after PMIC_EN fell (R505). -/
def warmporHold (s : State) : State :=
  if s.power.st = .parked ∧ s.power.pmicEn = false ∧ s.power.parkedAt + 10000000 ≤ s.now then
    s.onPower (fun p => { p with warmHold := true })
  else s

/-! ## Supplies -/

/-- Felt loses both supplies: all it holds is lost (R1024), with the epoch requests and EPSLOT.ACTIVE in Felt RAM (R971). -/
def feltLose (s : State) : State :=
  let s := feltFreshRegs s
  let s := { s with felt := { alive := false, vbat := false }, keys := { s.keys with cell := List.replicate 16 {}, landing := [] } }
  s.onLinen (fun l => { l with epochQ := [], epochLost := 0, active := false })

/-- SUPPLY_MONITOR_FALL: POR is asserted (R1119). With VDD_IO18 gone too, VAULT, or OFF when the cell is absent. -/
def monitorFall (io18Lost : Bool) (s : State) : State :=
  let was := s.power
  let s := if was.released then keysPowerLoss (discPowerLoss (flashTorn s)) else s
  let st : PowerSt := if io18Lost then (if s.felt.vbat then .vault else .off)
    else match was.st with | .lastBreath => .run | st => st
  let s := s.onPower (fun p => { p with
    st := st, rails := false, io18 := p.io18 && !io18Lost, released := false, rst := some 1, ingest := false,
    warmHold := false, pmicEn := p.pmicEn && !io18Lost })
  let s := if io18Lost then s.onFelt (fun f => { f with onVbat := f.vbat }) else s
  if io18Lost ∧ s.felt.vbat = false then feltLose s else s

/-- POWER_UP_PMIC_EN: 5 ms after VDD_IO18 reached its range from OFF or VAULT (R1122). -/
def powerUp (s : State) : State :=
  if s.power.st = .off ∨ s.power.st = .vault then s.onPower (fun p => { p with io18 := true, pmicEn := true }) else s

/-- VBAT_APPLIED: from OFF, Felt starts running in VAULT; source 8 re-arms, and above 2.0 V CELLOUT clears (R969, R1003,
R1023). -/
def vbatApplied (above2V : Bool) (s : State) : State :=
  let s := tripOff 8 (s.onFelt (fun f => { f with vbat := true, cellOut := f.cellOut && !above2V }))
  if s.power.st = .off then (s.onFelt (fun f => { f with onVbat := !s.power.io18 })).onPower (fun p => { p with st := .vault }) else s

/-- FELT_SUPPLY_LOSS: VBAT removed while VDD_IO18 is absent (R1024). -/
def feltSupplyLoss (s : State) : State :=
  if s.power.io18 then s else feltLose (s.onPower (fun p => { p with st := .off }))

/-! ## The reset sequence -/

/-- The value in force of an object that the engine holds, at reset: the stored one, or the default (R572). -/
def loadHeld (s : State) : State :=
  let s := if s.dict.storedBad then
      (setSticky 10 74 0 (s.onDict (fun d => { d with stored := [], storedBad := false }))).raise rDENG_INTSTAT 5
    else s
  let isHeld (k : Nat) : Bool := match objOf k with | some o => o.src == .held | none => false
  s.onDict (fun d => { d with held := d.stored.filter (fun e => isHeld e.1) })

/-- A custody's descriptor rebuilt from its stored fields and GEN; every engine takes it (step 4 from reset release). -/
def rebuildDesc (n : Nat) (s : State) : State :=
  let i := 0x2000 + 0x40 * n
  if s.dict.stored.any (fun e => decide (e.1 / 256 = i)) then
    let gen := ((kget s.dict.stored (okey i 0)).getD []).headD 0
    let b := (descChanges (s.dict.stored.filter (fun e => decide (e.1 % 256 ≠ 0))) i).foldl (fun b c => descSet c.1 c.2 b) (descDefaults n gen)
    let b := b.take 60 ++ le 4 (crc32c (b.take 60)).toNat
    let d := parseDesc b
    setCust n (fun x => { x with mDesc := d, lDesc := d, tDesc := d }) (s.store (descAddr n) b)
  else s

/-- NBT and DBT words of a bit rate (table *Bit timing at 80 MHz*). -/
def bitTiming (data : Bool) (kbps : Nat) : Word :=
  let w (brp t1 t2 : Nat) : Word := field 31 24 brp ||| field 23 16 t1 ||| field 14 8 t2 ||| field 6 0 t2
  if data then
    match kbps with
    | 1000 => w 1 59 20 | 2000 => w 1 29 10 | 4000 => w 1 14 5 | 5000 => w 1 11 4 | 8000 => w 1 6 3
    | 125 => w 4 127 32 | 250 => w 2 127 32 | _ => w 1 127 32
  else match kbps with | 125 => w 4 127 32 | 250 => w 2 127 32 | 1000 => w 1 63 16 | _ => w 1 127 32

/-- NBT, DBT, TDC, NODE_ID and the controllers' modes from the stored configuration (R608–R610, 0x1100). -/
def loadCan (s : State) : State :=
  let arb := ofLe (heldVal s (okey 0x1100 2))
  let data := ofLe (heldVal s (okey 0x1100 3))
  let en := ofLe (heldVal s (okey 0x1100 4))
  let s := s.setFld rGING_GCTRL 22 16 (ofLe (heldVal s (okey 0x1100 1)))
  (List.range 2).foldl (fun s n =>
    let s := s.wr (rGING_NBT n) (bitTiming false arb)
    let s := s.wr (rGING_DBT n) (bitTiming (decide (data ≠ arb)) data)
    let s := s.wr (rGING_TDC n) (if 2000 ≤ data then loWord (1 + bits (bitTiming true data) 23 16) else 0#32)
    cctrlWrite n (setBits (s.rd (rGING_CCTRL n)) 1 0 (en / 2 ^ n % 2)) s) s

/-- Read-retry and pair tables from their stored DOMAINs (0x4010, 0x4011). -/
def loadTables (s : State) : State :=
  let rr := (kget s.dict.stored (okey 0x4010 0)).getD []
  let pair := (kget s.dict.stored (okey 0x4011 0)).getD []
  s.onMedia (fun m => { m with
    rrTable := rrStore 0 rr [],
    pairTable := (List.range (pair.length / 2)).map (fun i => (i, dfld pair (2 * i) 2)) })

/-- Step 4 from reset release: stored values applied, descriptors rebuilt. -/
def applyStored (s : State) : State :=
  let regs := s.dict.stored.filter (fun e => match objOf e.1 with | some o => (match o.src with | .regs _ => true | _ => false) | none => false)
  let s := regs.foldl (fun s e => applyOne e.1 e.2 s) s
  let s := s.onLinen (fun l => { l with slotA := s.fld rLINEN_EPSLOT 3 0, slotB := s.fld rLINEN_EPSLOT 11 8 })
  let s := rebind ((List.range 64).foldl (fun s n => rebuildDesc n s) s)
  let s := if s.dict.stored.any (fun e => decide (0x3020 * 256 ≤ e.1 ∧ e.1 < 0x3040 * 256)) then applySlots s else s
  let s := s.onCanvas (fun c => { c with ctl := ctlOf s, enabled := s.flag rCANVAS_CTRL 0 })
  loadTables (loadCan s)

/-- Registers, SRAM and block state as a full reset leaves them (R17, R526, R532). Power-on reset loses the main sticky
registers; porStart clears RSTCAUSE. -/
def clearMain (por : Bool) (s : State) : State :=
  let keepReg (e : Nat × Word) : Option (Nat × Word) :=
    match regAt e.1 with
    | none => none
    | some r =>
      let w := r.afterReset e.2
      let lost := por && (decide (0x40000600 ≤ e.1 ∧ e.1 < 0x4000061C)
        || decide (e.1 = rCFAULT_DFPC ∨ e.1 = rCFAULT_DFCAUSE))
      if lost ∨ w = regReset e.1 then none else some (e.1, w)
  let L := s.linen
  let B := s.boot
  let s := { s with
    power := { s.power with lb := 0, lbDone := [] },
    regs := s.regs.filterMap keepReg,
    mem := s.mem.filter (fun e => !(inCore e.1 1 || inStripe e.1 1)),
    muslin := {}, digest := {}, cipher := {}, rng := {}, pk := {}, tweed := {}, serge := { wdAt := s.now }, cards := {},
    diag := {}, ging := {}, pcie := { perst := s.pcie.perst },
    canvas := { frameStartAt := s.now, nextFrameAt := s.now + 33333333, lastCommitAt := s.now },
    linen := { chains := L.chains, epochQ := L.epochQ, epochLost := L.epochLost, epoch := L.epoch, active := L.active,
               opened := L.opened, epochFirst := L.epochQ.length, keyver := L.keyver, kcv := L.kcv, escrows := L.escrows,
               anchors := L.anchors, ancSeq := L.ancSeq, ancEvt := L.ancEvt, tmapEvt := L.tmapEvt },
    dict := { stored := s.dict.stored, storedBad := s.dict.storedBad },
    boot := { prefA := B.prefA, prefB := B.prefB, flash := B.flash, written := B.written, chain := B.chain } }
  keysReset (s.onJrn (fun j => { j with replaying := true, tablesRead := false }))

/-- CELL_LOST (R972, R1024, R1025): without the alive signature Felt starts fresh; EVT and MONO resume from the last TIMECK. -/
def cellCheck (s : State) : State :=
  if s.felt.alive then s.onFelt (fun f => { f with cellLost := false })
  else
    let cell := s.felt.vbat
    let s := feltLose s
    let had := decide (s.jrn.timeckEvt ≠ 0 ∨ s.jrn.timeckMono ≠ 0)
    let top := (s.linen.chains.map (fun c => (c.recs.map Rec.evt).foldl max 0)).foldl max s.jrn.timeckEvt
    let evt := if had then (top / 2 ^ 24 + 1) * 2 ^ 24 else 0
    let mono := if had then s.jrn.timeckMono + 2 ^ 32 else 0
    let s := s.onFelt (fun f => { f with alive := true, vbat := cell, cellLost := true, evt := evt, sub := evt * 2 ^ 16, mono := mono })
    setSticky 9 9 0 (feltLog 2 0xFF 0 0 s)

/-- Registers that take fuse values (type reset "fuse"): RSTHOLD, XINCFG, SPAREPCT, OSPI.CFG, IRC96TRIM without a kept value
(R534, R914, R942, table *Identity and factory data words*). XIN_KHZ, when stored, gives FREQ; 0x9010 gives SSC[0], SSC[1]
(R936). -/
def loadFuses (s : State) : State :=
  let w := (dataRead s (dataPhys 256 38)).1
  let s := s.setFld rTWEED_RSTHOLD 4 0 (if bits w 17 13 < 2 then 8 else min 30 (bits w 17 13))
  let khz := ofLe (heldVal s (okey 0x9010 1))
  let s := s.wr rTWEED_XINCFG (field 1 0 (if khz = 0 then bits w 11 10 else khz / 1000 - 24) ||| field 8 8 (bits w 12 12))
  let s := s.setFld rTWILL_MEDCFG 23 16 (bits w 25 18)
  let s := s.wr rOSPI_CFG ((dataRead s (dataPhys 256 45)).1 &&& 0x1FF3#32)
  let s := if s.rd rTWEED_IRC96TRIM = regReset rTWEED_IRC96TRIM then s.setFld rTWEED_IRC96TRIM 9 0 (bits w 9 0) else s
  let depth := 8 * ofLe (heldVal s (okey 0x9010 2)) / 10
  let ssc := field 31 31 (decide (depth ≠ 0)).toNat ||| field 13 8 (ofLe (heldVal s (okey 0x9010 3)) - 30) ||| field 4 0 depth
  [0, 1].foldl (fun s p => setPll p (fun x => { x with ssc := ssc }) (s.wr (rTWEED_SSC p) ssc)) s

/-- Step 3: XIN qualified, PLLs locked (R919, R946). -/
def startClocks (xinOk : Bool) (bad : List Nat) (s : State) : State :=
  let s := s.onTweed (fun t => { t with xinGood := s.now })
  let lockAll (s : State) : State := (List.range 6).foldl (fun s p => s.setFlag (rTWEED_PLLSTAT p) 0 true) s
  let s := if xinOk then lockAll (s.setFlag rTWEED_CLKSTAT 0 true)
    else
      let s := (List.range 6).foldl (fun s p => setCur p 1 s) s
      lockAll (clkFail (setSticky 32 8 0 (s.setFlag rTWEED_CLKSTAT 3 true)))
  bad.foldl (fun s p => pllLoss p s) s

/-- The comparator's self-test: FAILGRP and STK_LSBIST (R888). -/
def lockstepTest (groups : Nat) (s : State) : State :=
  let s := s.wr rCFAULT_LSSTAT (field 0 0 1 ||| field 1 1 (decide (groups = 0)).toNat ||| field 15 8 groups)
  if groups = 0 then s else setSticky 3 0xFF groups s

/-- Known-answer tests of every lane: one that fails is parked (R295). -/
def laneTests (f : LaneFails) (s : State) : State :=
  let s := f.digest.foldl (fun s l => parkLane .digest l s) s
  f.cipher.foldl (fun s l => parkLane .cipher l s) s

/-- Entries that waited for the end of replay are written in order (R1105). -/
def diagDrain (s : State) : State :=
  let q := s.diag.queued
  q.foldl (fun s e => diagWrite e s) (s.onDiag (fun d => { d with queued := [] }))

/-- Canvas starts one frame beyond the highest position that replay found; in BLANK with an empty journal at the origin (R61). -/
def canvasStart (s : State) : State :=
  let pos := if s.fuse.life = .blank ∧ s.jrn.topPos = {} then {} else { s.jrn.topPos.nextFrame with line := 0 }
  s.onCanvas (fun c => { c with pos := pos, refPos := pos })

/-- The watchdog after a reset: EARLY and BADKEY tell the cause of a watchdog reset; in FIELD and RMA it is enabled (table
*Watchdog registers*, R897). -/
def watchdogReset (cause : Nat) (was : Word) (s : State) : State :=
  let s := if cause = 3 then s.wr rTWEED_WDSTAT (was &&& 6#32) else s
  s.setFlag rTWEED_WDCTRL 0 s.locked

/-- The RSTCAUSE word of this reset, and its RESET entry, first of the diagnostic entries (R1105). -/
def resetCause (cause : Nat) (s : State) : State :=
  let lb := s.felt.lbstage
  let s := s.setFld rTWEED_RSTCAUSE 7 0 cause
  let s := s.setFld rTWEED_RSTCAUSE 11 8 lb
  let s := s.setFlag rTWEED_RSTCAUSE 12 s.power.warmPor
  let s := s.setFld rTWEED_RSTCAUSE 31 16 s.felt.deferred
  let s := s.onFelt (fun f => { f with lbstage := 0, deferred := 0 })
  diagEntry { evt := s.felt.evt, type := 2, src := lb, code := cause, arg := (s.rd rTWEED_RSTCAUSE).toNat } s

/-- Power as a reset sequence leaves it at reset release: with PFAIL_N low the state is PARKED with PMIC_EN high (R537). -/
def releasePower (pfailN : Bool) (s : State) : State :=
  let p := s.power
  { s with power := {
      st := if pfailN then .run else .parked, configured := true, released := true, pmicEn := true, pfailN := pfailN,
      rstN := p.rstN, ignIn := p.ignIn, rstEdge := p.rstEdge, rstIgnored := p.rstIgnored, releasedAt := s.now } }

/-- The reset sequence, and steps 1–4 from reset release with the boot ROM (R526, R532, R541; tables *Reset sequence* and
*From reset release*). -/
def resetSequence (cause : Nat) (o : BootOut) (s : State) : State :=
  let wd := s.rd rTWEED_WDSTAT
  let s := clearMain (decide (cause = 1)) (flashTorn s)
  let s := resetCause cause s
  let s := cellCheck s
  let s := watchdogReset cause wd (loadFuses (loadHeld (fuseSense o.senses o.temp s)))
  if s.fuse.life = .scrap then s.onPower (fun p => { p with rst := none, released := false, st := .run })    -- R1059
  else
    let s := startClocks o.xinOk o.pllBad s
    let s := lockstepTest o.lsGroups (deriveBoot (fuseRoot s) s)
    let s := releasePower o.pfailN s
    let s := replay o.torn o.replayUs (initChannels o.probes s)
    let s := diagDrain (canvasStart s)
    let s := laneTests o.lanes s
    let s := if o.entropyOk then startUpDone s else s
    let s := applyStored s
    romBoot o.straps (certCheck s)

/-- FULL_RESET: an asserted reset source, not held by RST_N, runs the sequence (R526, R533). -/
def fullReset (o : BootOut) (s : State) : State :=
  match s.power.rst with
  | none => s
  | some c =>
    if s.power.pmicEn = false ∨ s.power.rails = false ∨ (s.power.rstN = false ∧ s.power.rstIgnored = false) then s
    else resetSequence c o s

/-- POR released: the supplies are there, RSTCAUSE is lost (R532), RST_N is armed, and a low of it is timed from here
(R536). -/
def porStart (s : State) : State :=
  (s.wr rTWEED_RSTCAUSE 0#32).onPower (fun p => { p with
    rails := true, io18 := true, rst := some 1, rstIgnored := false, rstEdge := if p.rstN then p.rstEdge else s.now })

/-- POR: every monitor above its release threshold for 200 µs, with PMIC_EN high (R1119, R1122); RST_N low still holds the
sequence (R536). -/
def por (o : BootOut) (s : State) : State :=
  if s.power.pmicEn = false ∨ s.live = true then s else fullReset o (porStart s)

/-! ## RST_N -/

/-- RST_N_FALL: a low of 1 µs or longer (R533). -/
def rstFall (s : State) : State :=
  let s := s.onPower (fun p => { p with rstN := false, rstEdge := s.now })
  if s.power.rstIgnored ∨ s.power.released = false then s
  else assertReset 2 s

/-- RST_N_RISE: SVCREQ after 3 s to RSTHOLD_MAX (R533, R534). -/
def rstRise (s : State) : State :=
  let held := s.now - s.power.rstEdge
  let was := s.power.rstN
  let s := s.onPower (fun p => { p with rstN := true, rstEdge := s.now })
  if was = false ∧ s.power.rstIgnored = false ∧ 3000000000 ≤ held ∧ held ≤ s.fld rTWEED_RSTHOLD 4 0 * 1000000000 then
    s.setFlag rTWEED_RSTCAUSE 14 true
  else s

/-- RSTHOLD_MAX_EXPIRY: low beyond RSTHOLD_MAX: declared stuck and released (R533, R535). -/
def rstStuck (s : State) : State :=
  if s.power.rstN = false ∧ s.power.rstIgnored = false ∧ s.power.rstEdge + s.fld rTWEED_RSTHOLD 4 0 * 1000000000 < s.now then
    feltSticky 224 0 ((s.onPower (fun p => { p with rstIgnored := true })).setFlag rTWEED_RSTCAUSE 13 true)
  else s

/-- RST_N_REARM: high for 100 ms (R535). -/
def rstRearm (s : State) : State :=
  if s.power.rstN ∧ s.power.rstEdge + 100000000 ≤ s.now then s.onPower (fun p => { p with rstIgnored := false }) else s

/-! ## Recording resume -/

/-- The latest position of a chain's STRIPE and DROP LASTPOS and GAP TOPOS, 0 without any (R545). -/
def resumeFrom (s : State) (c : Nat) : Pos :=
  ((s.chain c).recs.map (fun r => match r.body with
    | .stripe _ last .. => last
    | .drop _ _ _ _ last .. => last
    | .gap _ _ _ toPos .. => toPos
    | _ => {})).foldl Pos.max {}

/-- The GAP records of one custody at resume (R544–R546). -/
def resumeGap (reason sub : Nat) (c : Nat) (s : State) : State :=
  let s := ensureCreate c (s.cust c).lDesc s
  let p := resumeFrom s c
  let s := writeGap c reason sub p s.pos 0 0 s
  if s.felt.cellLost then writeGap c gapTIMEGAP 0 p s.pos 0 0 s else s

/-- Recording resume: GAP records, ingest opens, RESUMEMS (R543–R546); the discipline state after CELL_LOST (R1025). -/
def resume (s : State) : State :=
  let cause := s.fld rTWEED_RSTCAUSE 7 0
  let power := decide (1 ≤ s.fld rTWEED_RSTCAUSE 11 8) || (s.felt.cellLost && decide (cause = 1))
  let (reason, sub) := if power then (gapPOWER, 0) else (gapRESET, cause)
  let s := (validCusts s).foldl (fun s c => resumeGap reason sub c s) s
  let s := s.onPower (fun p => { p with ingest := true, resumed := true, st := .run })
  let s := s.wr rTWEED_RESUMEMS (loWord (min 0xFFFF ((s.now - s.power.releasedAt) / 1000000)))
  let s := if cause = 7 then s.onFelt (fun f => { f with frResume := some f.evt }) else s
  if s.felt.cellLost ∧ (s.jrn.timeckEvt ≠ 0 ∨ s.jrn.timeckMono ≠ 0) then setDisc 4 s else s

/-- Ingest may open: configured, RUN, PFAIL_N high, not resumed (R537, R539, R541). -/
def mayResume (s : State) : Bool :=
  s.live && s.power.configured && !s.power.resumed && decide (s.power.st = .run) && s.power.pfailN

/-- RECORDING_RESUME: 250 ms after reset release, or OPEN (R541, R542). -/
def recordingResume (s : State) : State := if mayResume s then resume s else s

/-- A write of PWRCMD: any KEY but 0x9A2C is ignored whole; PARK goes before OPEN (R507, R542). -/
def pwrCmd (w : Word) (s : State) : State :=
  if bits w 31 16 ≠ 0x9A2C then s
  else if bit w 1 then startLastBreath s
  else if bit w 0 then recordingResume s
  else s

/-- PFAIL_STUCK_CHECK: PFAIL_N still low 1 s after reset release (R538). -/
def pfailStuck (s : State) : State :=
  if s.power.released ∧ s.power.pfailN = false ∧ s.power.releasedAt + 1000000000 ≤ s.now then setSticky 7 8 0 s else s

/-- INGEST_OPEN_AFTER_PFAIL: PFAIL_N high for 10 ms with the core released in PARKED: RUN, and recording resumes (R539). -/
def ingestOpen (s : State) : State :=
  let s := s.onPower (fun p => { p with pfailN := true })
  if s.power.st = .parked ∧ s.live = true ∧ s.power.configured = true then
    recordingResume (s.onPower (fun p => { p with st := .run }))
  else s

end Sys2Proof.Machine
end

