-- ==== Sys2Proof/Machine/View.lean ====
section
/-!
DEFINITION. What a peripheral register reads as where the value belongs to a block's state and not to the register file:
positions, depths, states, chain heads, counters. Every other register reads as the register file holds it. Core-private
registers are Serge's (`Sys2Proof.Machine.Serge`).
-/

namespace Sys2Proof.Machine

/-- The index of an element of a register array whose element 0 lies at `base`. -/
def arr (a base n stride : Nat) : Option Nat :=
  if base ≤ a ∧ (a - base) % stride = 0 ∧ (a - base) / stride < n then some ((a - base) / stride) else none

/-- One bit per entry of a list. -/
def bitsOf (l : List Bool) : Nat := (l.zipIdx.map (fun p => if p.1 then 2 ^ p.2 else 0)).sum

/-- One bit per number of a list. -/
def maskOf (l : List Nat) : Nat := bitsOf ((List.range 64).map (fun i => l.contains i))

/-- The state code of Canvas (table *Canvas states*). -/
def CanvasSt.code : CanvasSt → Nat
  | .acquire => 0
  | .locked => 1
  | .flywheel => 2
  | .pullin => 3

/-- Canvas (register tables of *Canvas: the frame timebase*). -/
def viewCanvas (s : State) (a : Nat) : Option Word :=
  let c := s.canvas
  if a = rCANVAS_STAT then
    some (field 2 0 c.st.code ||| field 3 3 c.blank.toNat ||| field 4 4 (gcWindow s).toNat |||
      field 7 5 (bitsOf [calWindow s 0, calWindow s 1, calWindow s 2]))
  else if a = rCANVAS_FRAME then some (loWord c.pos.frame)
  else if a = rCANVAS_PERIODMEAS then some (loWord (periodMeas s))
  else if a = rCANVAS_BLANKMEAS then some (loWord (blankMeas s))
  else if a = rCANVAS_COMMITCNT_LO then some (loWord c.commitCnt)
  else if a = rCANVAS_COMMITCNT_HI then some (hiWord c.commitCnt)
  else if a = rCANVAS_SLOTUPD then some (field 1 1 c.applyPending.toNat)
  else if a = rCANVAS_GCREM then some (loWord (gcRem s))
  else if a = rCANVAS_CALREM then some (loWord (calRem s))
  else if a = rCANVAS_IRQQ then some (setBits (s.rd a) 6 0 c.irqQueue.length)
  else match arr a (rCANVAS_SLOTD 0) 32 16 with
    | some n => some (field 23 0 (nth c.slots n).count)
    | none => none

/-- CUSTSTAT of custody `n` (table *MUSLIN.CUSTSTAT[n]*). -/
def custStat (s : State) (n : Nat) : Word :=
  let c := s.cust n
  field 7 0 c.mDesc.gen ||| field 15 8 c.lDesc.gen ||| field 23 16 c.tDesc.gen ||| field 24 24 c.held.isSome.toNat |||
    field 25 25 c.dup.toNat ||| field 26 26 c.skewed.toNat ||| field 27 27 c.crcErr.toNat |||
    field 28 28 c.openStripe.isSome.toNat ||| field 29 29 c.dropped.isSome.toNat

/-- Muslin. -/
def viewMuslin (s : State) (a : Nat) : Option Word :=
  if a = rMUSLIN_STAT then
    some (field 3 0 (bitsOf (s.muslin.ports.map Port.burst)) ||| field 19 16 (bitsOf s.muslin.refusing))
  else if a = rMUSLIN_JOCC then some (field 15 0 (occ s) ||| field 31 16 s.muslin.peak)
  else match arr a (rMUSLIN_CUSTSTAT 0) 64 4 with
    | some n => some (custStat s n)
    | none =>
      match arr a (rMUSLIN_DOOR_CFG 0) 64 0x20 with
      | some d => some (setBit (setBit (s.rd a) 8 (s.door d).en) 10 (s.door d).phase)
      | none =>
        match arr a (rMUSLIN_DOOR_HEAD 0) 64 0x20 with
        | some d => some (field 9 0 (s.door d).head)
        | none =>
          match arr a (rMUSLIN_DOOR_TAIL 0) 64 0x20 with
          | some d => some (field 9 0 (s.door d).tail)
          | none =>
            match arr a (rMUSLIN_DOOR_CPLIDX 0) 64 0x20 with
            | some d => some (field 9 0 (s.door d).cplidx)
            | none => none

/-- Word `k` of a 32-byte head. -/
def headWord (h : Bytes) (k : Nat) : Word := wordOf (fit 4 (h.drop (4 * k)))

/-- Linen. -/
def viewLinen (s : State) (a : Nat) : Option Word :=
  let l := s.linen
  if a = rLINEN_STAT then
    some (field 0 0 l.anchor.isSome.toNat ||| field 1 1 l.epochSeq.isSome.toNat ||| field 2 2 (kwBusy s).toNat |||
      field 3 3 (decide ((s.slot (activeSlot s)).st = .empty)).toNat)
  else if a = rLINEN_EPOCH then some (loWord l.epoch)
  else if a = rLINEN_EPSLOT then some (setBit (s.rd a) 16 l.active)
  else if a = rLINEN_EPOCHQ then some (field 15 0 l.epochQ.length ||| field 31 16 l.epochLost)
  else if a = rLINEN_DEVSEQ_LO then some (loWord (s.chain devChain).seq)
  else if a = rLINEN_DEVSEQ_HI then some (hiWord (s.chain devChain).seq)
  else if a = rLINEN_ANCSEQ_LO then some (loWord l.ancSeq)
  else if a = rLINEN_ANCSEQ_HI then some (hiWord l.ancSeq)
  else match arr a (rLINEN_SEQ_LO 0) 64 8 with
    | some n => some (loWord (s.chain n).seq)
    | none =>
      match arr a (rLINEN_SEQ_HI 0) 64 8 with
      | some n => some (hiWord (s.chain n).seq)
      | none =>
        match arr a (rLINEN_KEYVER 0) 64 4 with
        | some n => some (field 15 0 (nth l.keyver n))
        | none =>
          match arr a (rLINEN_HEAD 0 0) 512 4 with
          | some k => some (headWord (s.chain (k / 8)).head (k % 8))
          | none =>
            match arr a (rLINEN_DEVHEAD 0) 8 4 with
            | some k => some (headWord (s.chain devChain).head k)
            | none => none

/-- Queue depth and FULL of a unit. -/
def queueStat (n limit fullBit : Nat) : Word := field (fullBit - 1) 0 n ||| field fullBit fullBit (decide (limit ≤ n)).toNat

/-- A job unit's registers; its base, and the lanes of each field of LANESTAT. -/
def viewUnit (s : State) (u : UnitId) (off : Nat) : Option Word :=
  let x := s.unit u
  let w := lanes u
  if off = 0x08 then some (field 4 0 x.queue.length ||| field 8 8 (decide (16 ≤ x.queue.length)).toNat)
  else if off = 0x10 then some (field 1 0 x.abortStat)
  else if off = 0x14 then
    some (field (w - 1) 0 (maskOf x.parked) ||| field (w + 7) 8 (maskOf (x.running.map Job.lane ++ x.dbusy)) |||
      field (w + 15) 16 (maskOf x.stfail))
  else if off = 0x24 then some (loWord x.jobCnt)
  else if off = 0x28 then some (hiWord x.jobCnt)
  else none

/-- CTXSTAT[n]. -/
def ctxStat (s : State) (n : Nat) : Word :=
  if n < 64 then
    let b0 := s.bank n false
    let b1 := s.bank n true
    let ty := if b0.ver.isSome then b0.ktype else if b1.ver.isSome then b1.ktype else 0
    field 0 0 b0.ver.isSome.toNat ||| field 1 1 b1.ver.isSome.toNat ||| field 2 2 (s.ctx.waiting.getD n false).toNat |||
      field 3 3 (s.ctx.fallback.getD n false).toNat ||| field 6 4 ((ctxType ty).getD 0)
  else
    let g := s.gctx n
    field 0 0 (decide (g.ktype ≠ 0)).toNat ||| field 6 4 ((ctxType g.ktype).getD 0) ||| field 8 8 g.du512.toNat

/-- State codes of the entropy source and the DRBG. -/
def EsSt.code : EsSt → Nat
  | .startup => 0
  | .ok => 1
  | .retest => 2
  | .parked => 3
def DrbgSt.code : DrbgSt → Nat
  | .uninst => 0
  | .ready => 1
  | .error => 2

/-- RNG.STAT. -/
def rngStat (s : State) : Word := setBits (setBits (s.rd rRNG_STAT) 1 0 s.rng.es.code) 3 2 s.rng.drbg.code

/-- Damask. -/
def viewDamask (s : State) (a : Nat) : Option Word :=
  if a = rKEYSTORE_STAT then some (field 0 0 (ksBusy s).toNat ||| field 1 1 (!s.keys.landing.isEmpty).toNat)
  else if a = rRNG_STAT then some (rngStat s)
  else if a = rPK_STAT then
    some (field 0 0 s.pk.running.isSome.toNat ||| field 1 1 s.pk.awake.toNat ||| field 2 2 s.pk.wiping.toNat |||
      field 9 8 (match s.pk.running with | some (.firmware ..) => 1 | some (.linen ..) => 2 | none => 0) |||
      field 23 16 (s.pk.owner.getD 0xFF))
  else if a = rPK_QSTAT then some (field 3 0 s.pk.queue.length ||| field 8 8 (decide (8 ≤ s.pk.queue.length)).toNat)
  else if a = rPK_ABORTSTAT then some (field 1 0 s.pk.abortStat)
  else if a = rPK_JOBCNT_LO then some (loWord s.pk.jobCnt)
  else if a = rPK_JOBCNT_HI then some (hiWord s.pk.jobCnt)
  else if 0x40070000 ≤ a ∧ a < 0x40070040 then viewUnit s .digest (a - 0x40070000)
  else if 0x40080000 ≤ a ∧ a < 0x40080040 then viewUnit s .cipher (a - 0x40080000)
  else match arr a (rCIPHER_CTXSTAT 0) 80 4 with
    | some n => some (ctxStat s n)
    | none =>
      match arr a (rCIPHER_CTXVER 0) 64 4 with
      | some n => some (field 15 0 ((s.bank n false).ver.getD 0) ||| field 31 16 ((s.bank n true).ver.getD 0))
      | none => none

/-- CHSTAT.STATE and the codes of LUNSTAT. -/
def ChSt.code : ChSt → Nat
  | .absent => 0
  | .init => 1
  | .ready => 2
  | .degraded => 3
  | .parked => 4
def LunSt.code : LunSt → Nat
  | .absent => 0
  | .active => 1
  | .retired => 2
  | .parked => 3

/-- LUNSTAT of channel `n`: two bits per LUN. -/
def lunStat (s : State) (n : Nat) : Nat := ((s.chan n).luns.zipIdx.map (fun p => p.1.st.code * 4 ^ p.2)).sum

/-- CHSTAT of channel `n`. -/
def chStat (s : State) (n : Nat) : Word :=
  let c := s.chan n
  field 2 0 c.st.code ||| field 4 4 (decide (c.st = .parked)).toNat ||| field 5 5 (chanOverdue s n).toNat |||
    field 6 6 c.trainFail.toNat ||| field 7 7 (!c.rbLow).toNat ||| field 11 8 (bitsOf (c.targets.map Target.present)) |||
    field 15 12 (bitsOf (c.targets.map Target.parked))

/-- A channel's registers. -/
def viewChannel (s : State) (n off : Nat) : Option Word :=
  let c := s.chan n
  if off = 0x04 then some (chStat s n)
  else if off = 0x18 then some (loWord (lunStat s n))
  else if off = 0x104 then
    let l := s.lun n (s.fld (rTWILL_OFFIDX n) 7 4)
    some (field 7 0 (unsigned 8 (l.offsets.getD (s.fld (rTWILL_OFFIDX n) 2 0) 0)))
  else if off = 0x200 then some c.train
  else if 0x300 ≤ off ∧ off < 0x320 ∧ off % 4 = 0 then
    some (wordOf (fit 4 ((nth c.targets ((off - 0x300) / 8)).id.drop (off % 8))))
  else none

/-- Free tiles of the data ring. -/
def tilesFree (s : State) : Nat := (s.jrn.tiles.filter (· == .free)).length

/-- Twill's journal, segment and namespace registers. -/
def viewJournal (s : State) (a : Nat) : Option Word :=
  let j := s.jrn
  if a = rTWILL_JSTAT then
    some (field 0 0 j.replaying.toNat ||| field 1 1 j.ckRunning.isSome.toNat ||| field 2 2 j.ckSlot.toNat ||| field 3 3 j.field.toNat |||
      field 4 4 j.logStopped.toNat ||| field 31 16 j.ckMerge)
  else if a = rTWILL_JTILE then some (field 10 0 j.next ||| field 26 16 (tilesFree s))
  else if a = rTWILL_LOGOCC then some (field 17 0 (logOcc s))
  else if a = rTWILL_LSN_LO then some (loWord j.lsn)
  else if a = rTWILL_LSN_HI then some (hiWord j.lsn)
  else if a = rTWILL_CKLSN_LO then some (loWord j.ckLsn)
  else if a = rTWILL_CKLSN_HI then some (hiWord j.ckLsn)
  else if a = rTWILL_JWEAR_LO then some (loWord j.wear)
  else if a = rTWILL_JWEAR_HI then some (hiWord j.wear)
  else if a = rTWILL_REPLAYUS then some (loWord j.replayUs)
  else if a = rTWILL_GCSTAT then
    some (field 2 0 (match j.gc.st with | .idle => 0 | .copy => 1 | .verify => 2 | .urgent => 3))
  else if a = rTWILL_GCSRC then some (field 23 0 (j.gc.src.getD 0xFFFFFF))
  else if a = rTWILL_GCDST then some (field 23 0 (j.gc.dst.getD 0xFFFFFF))
  else if a = rTWILL_SEGCNT then some (loWord s.media.segCount)
  else if a = rTWILL_SEGFREE then some (field 15 0 (min 0xFFFF (freeSegs s)) ||| field 31 16 (heldBy s 16))
  else
    match arr a (rTWILL_NSSTAT 0) 16 0x20 with
    | some k => some (field 23 0 (heldBy s k) ||| field 31 31 (s.nspace k).full.toNat)
    | none =>
      match arr a (rTWILL_NSLOW_LO 0) 16 0x20 with
      | some k => some (loWord (s.nspace k).low)
      | none =>
        match arr a (rTWILL_NSLOW_HI 0) 16 0x20 with
        | some k => some (hiWord (s.nspace k).low)
        | none =>
          match arr a (rTWILL_NSWP_LO 0) 16 0x20 with
          | some k => some (loWord (s.nspace k).wp)
          | none =>
            match arr a (rTWILL_NSWP_HI 0) 16 0x20 with
            | some k => some (hiWord (s.nspace k).wp)
            | none => none

/-- Twill. -/
def viewTwill (s : State) (a : Nat) : Option Word :=
  let g := geomOf s
  if a = rTWILL_GEOM0 then
    some (field 1 0 g.cell ||| field 3 2 g.planes ||| field 5 4 g.pagesz ||| field 6 6 s.media.geo.isSome.toNat ||| field 27 16 g.ppbm1)
  else if a = rTWILL_GEOM1 then
    some (field 13 0 g.blkm1 ||| field 31 16 (match s.media.geo with | some x => maskOf x.lunSets | none => 0))
  else if a = rTWILL_WIDTH then some (field 7 0 (maskOf (widthMembers s)) ||| field 11 8 (widthMembers s).length)
  else if a = rTWILL_LDPCSTAT then some (field 19 0 (maskOf s.media.ldpcParked))
  else if a = rTWILL_RDABORTSTAT then some (field 1 0 s.media.rdAbortStat)
  else if a = rTWILL_LOSTCNT_LO then some (loWord s.media.lostCnt)
  else if a = rTWILL_LOSTCNT_HI then some (hiWord s.media.lostCnt)
  else if a = rTWILL_RRDATA then
    let i := s.fld rTWILL_RRIDX 9 0 / 4 * 4
    some (wordOf ((List.range 4).map (fun k => (s.media.rrTable.lookup (i + k)).getD 0)))
  else if a = rTWILL_PAIRDATA then some (field 15 0 ((s.media.pairTable.lookup (s.fld rTWILL_PAIRIDX 11 0)).getD 0))
  else if 0x400B0800 ≤ a ∧ a < 0x400B1000 then viewJournal s a
  else if 0x400B1000 ≤ a ∧ a < 0x400B9000 then viewChannel s ((a - 0x400B1000) / 0x1000) (a % 0x1000)
  else none

/-- PWRSTAT. -/
def pwrStat (s : State) : Word :=
  field 2 0 (powerCode s.power.st) ||| field 4 4 s.power.pfailN.toNat ||| field 5 5 s.power.ignIn.toNat |||
    field 8 8 s.power.ingest.toNat ||| field 9 9 s.power.resumed.toNat

/-- Tweed, power, watchdog; IRC96TRIM.FROZEN reads 1 while XRTC has failed (R943). -/
def viewTweed (s : State) (a : Nat) : Option Word :=
  if a = rTWEED_PWRSTAT then some (pwrStat s)
  else if a = rTWEED_WDCOUNT then some (field 15 0 ((s.now - s.serge.wdAt) / 1000000))
  else if a = rTWEED_IRC96TRIM then some (setBit (s.rd a) 16 s.felt.xrtcFail)
  else none

/-- Firmware slots by a test. -/
def fwMask (s : State) (p : FwReq → Bool) : Nat := bitsOf (s.dict.fw.map (fun x => match x with | some q => p q | none => false))

/-- The dictionary engine. -/
def viewDeng (s : State) (a : Nat) : Option Word :=
  let d := s.dict
  if a = rDENG_STAT then
    some (setBits (setBit (s.rd a) 0 d.restarting) 15 8 (min 255 d.pending.length))
  else if a = rDENG_FWQ then some (field 7 0 (fwMask s (fun _ => true)))
  else if a = rDENG_LQSTAT then some (field 2 0 d.localQ.length ||| field 8 8 (decide (4 ≤ d.localQ.length)).toNat)
  else none

/-- Session and controller state codes. -/
def SessSt.code : SessSt → Nat
  | .closed => 0
  | .challenged => 1
  | .openSess => 2
  | .suspended => 3
def CanSt.code : CanSt → Nat
  | .off => 0
  | .integrating => 1
  | .active => 2
  | .passive => 3
  | .busoff => 4
  | .stuck => 5
  | .paused => 6

/-- Sessions in a state, one bit each. -/
def sessMask (s : State) (st : SessSt) : Nat := bitsOf (s.ging.sess.map (fun x => decide (x.st = st)))

/-- SESS[i].INFO. -/
def sessInfo (x : Sess) : Word :=
  field 3 0 x.princ ||| field 5 4 x.carrier ||| field 14 8 x.node ||| field 18 16 x.st.code ||| field 23 19 x.tagFails

/-- Word `k` of RXWIN: the head entry of the FIFO, zeros when it is empty. -/
def rxWin (c : Can) (k : Nat) : Word :=
  match c.fifo with
  | [] => 0#32
  | e :: _ =>
    let f := e.frame
    if k = 0 then loWord f.id
    else if k = 1 then field 6 0 f.data.length ||| field 8 8 f.fdf.toNat ||| field 9 9 f.brs.toNat ||| field 10 10 f.xtd.toNat ||| field 21 16 e.filter
    else if k = 2 then field 15 0 e.ts
    else if k = 3 then loWord e.evt
    else if k = 4 then hiWord e.evt
    else wordOf (fit 4 (f.data.drop (4 * (k - 5))))

/-- Controller `n`. -/
def viewCan (s : State) (n off : Nat) : Option Word :=
  let c := s.can n
  if off = 0x10 then
    some (field 2 0 c.st.code ||| field 15 8 (min 255 c.tec) ||| field 23 16 (min 255 c.rec_) ||| field 24 24 (!c.rxLow).toNat)
  else if off = 0x14 then some (field 15 0 (Config.freeNat s.freeCtr))
  else if off = 0x400 then some (field 5 0 c.fifo.length)
  else if 0x440 ≤ off ∧ off < 0x494 ∧ off % 4 = 0 then some (rxWin c ((off - 0x440) / 4))
  else none

/-- Gingham. -/
def viewGing (s : State) (a : Nat) : Option Word :=
  if a = rGING_GSTAT then
    some (field 7 0 (sessMask s .openSess) ||| field 15 8 (sessMask s .suspended) ||| field 23 16 (sessMask s .challenged))
  else if 0x400E1000 ≤ a ∧ a < 0x400E3000 then viewCan s ((a - 0x400E1000) / 0x1000) (a % 0x1000)
  else match arr a (rGING_SESS_INFO 0) 8 0x10 with
    | some i => some (sessInfo (s.sess i))
    | none =>
      match arr a (rGING_SESS_TXCTR 0) 8 0x10 with
      | some i => some (loWord (s.sess i).txctr)
      | none =>
        match arr a (rGING_SESS_RXCTR 0) 8 0x10 with
        | some i => some (loWord (s.sess i).rxctr)
        | none => none

/-- LINKSTAT; the codes of LTSSM are not given, so that field is free. -/
def linkStat (s : State) : Word :=
  let p := s.pcie
  field 5 0 (Config.freeNat s.freeCtr) ||| field 9 8 p.speed ||| field 14 12 p.width ||| field 16 16 p.up.toNat |||
    field 17 17 p.bme.toNat ||| field 19 18 p.dstate ||| field 20 20 p.perst.toNat

/-- The PCIe block and BAR0. No command carries an error of the link, so AERSTAT is free (notes/assumptions/66.md). -/
def viewPcie (s : State) (a : Nat) : Option Word :=
  if a = rPCIE_LINKSTAT then some (linkStat s)
  else if a = rPCIE_AERSTAT then some (BitVec.ofNat 32 (Config.freeNat s.freeCtr))
  else if a = rBAR0_HSTAT then
    some (setBits (setBit (setBit (s.rd a) 0 s.power.ingest) 1 s.dict.restarting) 7 4 (lifeCode s.fuse.life))
  else if a = rBAR0_MBSTAT then some (setBits (s.rd a) 3 0 (bitsOf (s.pcie.slots.map Option.isSome)))
  else if a = rBAR0_NQSTAT then some (setBits (s.rd a) 4 0 s.pcie.notifyQ.length)
  else match arr a (rBAR0_NQ 0) 64 4 with
    | some k => some (wordOf (fit 4 ((s.pcie.notifyQ.getD (k / 4) []).drop (k % 4 * 4))))
    | none =>
      match arr a (rPCIE_RD_WRPTR_LO 0) 8 0x100 with
      | some r => some (loWord (s.rdoor r).wrptr)
      | none =>
        match arr a (rPCIE_RD_WRPTR_HI 0) 8 0x100 with
        | some r => some (hiWord (s.rdoor r).wrptr)
        | none => none

/-- Whole seconds left of a court copy that is armed. -/
def courtRemain (s : State) : Nat :=
  match s.cards.court with | some c => (c.at_ + 60000000000 - s.now) / 1000000000 | none => 0

/-- Chambray and Percale. -/
def viewCards (s : State) (a : Nat) : Option Word :=
  if a = rCHAM_XCOURT then some (setBits (s.rd a) 31 16 (courtRemain s))
  else if a = rPERC_PQSTAT then some (field 2 0 s.cards.preq.length ||| field 8 8 (decide (4 ≤ s.cards.preq.length)).toNat)
  else match arr a (rPERC_FIFOSTAT 0) 2 0x100 with
    | some i => some (setBits (setBits (s.rd a) 6 0 (s.cslot i).tx.length) 14 8 (s.cslot i).rx.length)
    | none =>
      match arr a (rPERC_RXFIFO 0) 2 0x100 with
      | some i => some (field 7 0 ((s.cslot i).rx.headD 0).toNat)
      | none => none

/-- FSTAT. -/
def fstat (s : State) : Word :=
  let f := s.felt
  setBits (s.rd rFELT_FSTAT) 4 0 (bitsOf [!f.queue.isEmpty || s.switching, f.onVbat, f.cellOut, f.maghi, f.xrtcFail])

/-- The epoch source queue as bytes, head first. -/
def epqBytes (s : State) : Bytes := s.felt.epqSrc.map (BitVec.ofNat 8)

/-- Felt's registers as the main-domain mirror holds them (R1030). -/
def viewFelt (s : State) (a : Nat) : Option Word :=
  let f := s.felt
  if a = rFELT_FSTAT then some (fstat s)
  else if a = rFELT_EVT_LO then some (loWord f.evt)
  else if a = rFELT_EVT_HI then some (hiWord f.evt)
  else if a = rFELT_MONO_LO then some (loWord f.mono)
  else if a = rFELT_MONO_HI then some (hiWord f.mono)
  else if a = rFELT_RTC_LO then some (loWord f.rtc)
  else if a = rFELT_RTC_HI then some (field 15 0 (f.rtc / 2 ^ 32))
  else if a = rFELT_EPQ0 then some (wordOf (fit 4 (epqBytes s)))
  else if a = rFELT_EPQ1 then some (wordOf (fit 4 ((epqBytes s).drop 4)))
  else if a = rFELT_EPQCTL then some (field 3 0 f.epqSrc.length ||| field 31 16 f.epqOvf)
  else if a = rFELT_SLEWREM_LO then some (loWord f.slewRem)
  else if a = rFELT_SLEWREM_HI then some (field 13 0 (f.slewRem / 2 ^ 32))
  else if a = rFELT_TSTAT then some (field 19 0 (bitsOf (f.src.map TSrc.tripped)))
  else if a = rFELT_LOGCTL then some (field 7 0 f.next ||| field 13 8 f.pinned)
  else if 0x40011000 ≤ a ∧ a < 0x40012000 ∧ a % 4 = 0 then
    some (wordOf ((List.range 4).map (fun k => sget logDefault f.log (a - 0x40011000 + k))))
  else none

/-- Fuses and the OSPI controller. XIPHIT and XIPMISS count a cache whose behaviour the spec does not give. -/
def viewBoot (s : State) (a : Nat) : Option Word :=
  if a = rFUSE_RDDATA then
    let p := s.fld rFUSE_RDADDR 9 0
    some (if (List.range 8).any (fun d => decide (p = dataPhys 256 (4 + d))) then 0#32 else (dataRead s p).1)
  else if a = rOSPI_XIPHIT ∨ a = rOSPI_XIPMISS then some (s.freeWord)
  else none

/-- What a peripheral register reads as. -/
def regView (s : State) (a : Nat) : Word :=
  let v : Option Word :=
    if a < 0x40010000 then viewTweed s a
    else if a < 0x40020000 then viewFelt s a
    else if a < 0x40040000 then viewBoot s a
    else if a < 0x40050000 then viewCanvas s a
    else if a < 0x40060000 then viewMuslin s a
    else if a < 0x40070000 then viewLinen s a
    else if a < 0x400B0000 then viewDamask s a
    else if a < 0x400C0000 then viewTwill s a
    else if a < 0x400E0000 then viewCards s a
    else if a < 0x400F0000 then viewGing s a
    else if a < 0x40100000 then viewPcie s a
    else if a < 0x40110000 then viewBoot s a
    else if a < 0x40120000 then viewDeng s a
    else if 0x40150000 ≤ a ∧ a < 0x40160000 then viewDamask s a
    else if 0x1000000000000 ≤ a then viewPcie s a
    else none
  v.getD (s.rd a)

end Sys2Proof.Machine
end

