-- ==== Sys2Proof/Machine/Objects.lean ====
section
/-!
DEFINITION. The value in force of every hardware-served object (R567, R568): register fields, descriptor fields, values
that the engine holds, status that other blocks compute, procedure status. Entries whose layout the spec leaves open are
those of notes/assumptions/40.md.
-/

namespace Sys2Proof.Machine

/-! ## Status values -/

/-- Bits `hi:lo` of a register as read. -/
def rv (s : State) (a hi lo : Nat) : Nat := bits (regView s a) hi lo
/-- A whole register as read. -/
def rvw (s : State) (a : Nat) : Nat := (regView s a).toNat
/-- A register pair as read. -/
def rv2 (s : State) (lo hi : Nat) : Nat := rvw s lo + 2 ^ 32 * rvw s hi

/-- The STRIPE records of custody `n`. -/
def stripeRecs (s : State) (n : Nat) : List Rec :=
  (s.chain n).recs.filter (fun r => match r.body with | .stripe .. => true | _ => false)

/-- Sealed bytes of a STRIPE record. -/
def Rec.stripeLen (r : Rec) : Nat := match r.body with | .stripe _ _ _ _ _ len .. => len | _ => 0

/-- Custody statistics X+2 (table *Custody objects*). -/
def custStatVal (s : State) (n sub : Nat) : Nat :=
  match sub with
  | 1 => rvw s (rMUSLIN_LINECNT n)
  | 2 => (stripeRecs s n).length
  | 3 => ((stripeRecs s n).map Rec.stripeLen).sum
  | 4 => min 0xFFFFFFFF ((s.chain n).recs.filter (fun r => match r.body with | .drop .. => true | _ => false)).length
  | _ => ((stripeRecs s n).getLast?.map Rec.evt).getD 0

/-- A camera port's counters (0x3120 + p). -/
def portCntVal (s : State) (p sub : Nat) : Nat :=
  match sub with
  | 1 => rv2 s (rMUSLIN_PCNT_PKT_LO p) (rMUSLIN_PCNT_PKT_HI p)
  | 2 => rvw s (rMUSLIN_PCNT_CRCERR p)
  | 3 => rvw s (rMUSLIN_PCNT_HDRCORR p)
  | 4 => rvw s (rMUSLIN_PCNT_HDRERR p)
  | 5 => rvw s (rMUSLIN_PCNT_TRUNC p)
  | 6 => rvw s (rMUSLIN_PCNT_OVERRUN p)
  | 7 => rvw s (rMUSLIN_PCNT_UNBOUND p)
  | 8 => rv s (rMUSLIN_PCNT_MISS p) 15 0
  | _ => rv s (rMUSLIN_PCNT_MISS p) 31 16

/-- A NAND channel's status (0x4101 + n). -/
def channelVal (s : State) (n sub : Nat) : Nat :=
  match sub with
  | 1 => rv s (rTWILL_CHSTAT n) 2 0
  | 2 => rv s (rTWILL_CHSTAT n) 11 8
  | 3 => rv s (rTWILL_CHSTAT n) 15 12
  | 4 => rvw s (rTWILL_LUNSTAT n)
  | 5 => rv2 s (rTWILL_READS_LO n) (rTWILL_READS_HI n)
  | 6 => rv2 s (rTWILL_PROGS_LO n) (rTWILL_PROGS_HI n)
  | 7 => rv2 s (rTWILL_ERASES_LO n) (rTWILL_ERASES_HI n)
  | 8 => rv2 s (rTWILL_CORRBITS_LO n) (rTWILL_CORRBITS_HI n)
  | 9 => rvw s (rTWILL_RETRIES n)
  | 0xA => rvw s (rTWILL_SOFTS n)
  | 0xB => rvw s (rTWILL_REBUILDS n)
  | 0xC => rvw s (rTWILL_UNCORR n)
  | 0xD => rvw s (rTWILL_TIMEOUTS n)
  | _ => rvw s (rTWILL_OPFAILS n)

/-- Video status: Canvas, Muslin, Linen. -/
def viewVideo (s : State) (i sub : Nat) : Nat :=
  if i = 0x3001 then
    match sub with
    | 1 => s.canvas.pos.frame
    | 2 => s.canvas.pos.line
    | 3 => s.canvas.pos.epoch
    | 4 => s.canvas.st.code
    | 5 => rvw s rCANVAS_SLIP
    | 6 => rvw s rCANVAS_LOSSCNT
    | _ => s.canvas.commitCnt
  else if i = 0x3130 then if sub = 1 then rv s rMUSLIN_JOCC 15 0 else rv s rMUSLIN_JOCC 31 16
  else if i = 0x3201 then
    match sub with
    | 1 => rvw s rLINEN_EPOCH
    | 2 => rv2 s rLINEN_DEVSEQ_LO rLINEN_DEVSEQ_HI
    | 3 => rv2 s rLINEN_ANCSEQ_LO rLINEN_ANCSEQ_HI
    | 4 => ((devRec s s.linen.ancSeq).map Rec.evt).getD 0
    | 5 => rv s rLINEN_EPOCHQ 15 0
    | _ => rv s rLINEN_EPOCHQ 31 16
  else portCntVal s (i - 0x3120) sub

/-- Twill's status. -/
def viewMediaVal (s : State) (i sub : Nat) : Nat :=
  if 0x4030 ≤ i ∧ i < 0x4040 then
    let k := i - 0x4030
    match sub with
    | 5 => rv s (rTWILL_NSSTAT k) 23 0
    | 6 => rv2 s (rTWILL_NSLOW_LO k) (rTWILL_NSLOW_HI k)
    | 7 => rv2 s (rTWILL_NSWP_LO k) (rTWILL_NSWP_HI k)
    | _ => rv s (rTWILL_NSSTAT k) 31 31
  else if i = 0x4100 then
    match sub with
    | 1 => rv s rTWILL_WIDTH 11 8
    | 2 => rv s rTWILL_LDPCSTAT 15 0
    | _ => rv s rTWILL_LDPCSTAT 19 16
  else if i = 0x4110 then
    match sub with
    | 1 => rv2 s rTWILL_JWEAR_LO rTWILL_JWEAR_HI
    | 2 => rv s rTWILL_LOGOCC 15 0
    | 3 => rvw s rTWILL_REPLAYUS
    | 4 => rv s rTWILL_JERR 31 16
    | 5 => rv s rTWILL_JERR 15 8
    | 6 => rv s rTWILL_JERR 7 0
    | _ => rvw s rTWILL_CKCNT
  else if i = 0x4111 then
    match sub with
    | 1 => rvw s rTWILL_SEGCNT
    | 2 => freeSegs s
    | 3 => heldBy s 16
    | _ => (s.jrn.segs.filter (fun g => decide (g.2.st = .unusable))).length
  else if i = 0x4112 then
    match sub with
    | 1 => rvw s rTWILL_GCSTAT
    | 2 => rvw s rTWILL_GCSRC
    | _ => rvw s rTWILL_GCDST
  else channelVal s (i - 0x4101) sub

/-- SLOT_INFO of key slot `n`: attributes, handle, state (table *Damask objects*). -/
def slotInfo (s : State) (n : Nat) : Nat :=
  let k := s.slot n
  k.attr.toNat + 2 ^ 32 * handleOf s n + 2 ^ 48 * (match k.st with | .empty => 0 | .reserved => 1 | .loaded => 2)

/-- Damask's status. -/
def viewKeysVal (s : State) (i sub : Nat) : Nat :=
  if i = 0x5001 then
    match sub with
    | 1 => s.rng.es.code
    | 2 => s.rng.drbg.code
    | 3 => rvw s rRNG_HTFAIL
    | 4 => rv2 s rRNG_RESEEDCNT_LO rRNG_RESEEDCNT_HI
    | 5 => maskOf s.digest.parked
    | _ => maskOf s.cipher.parked
  else if i = 0x5031 then
    match sub with
    | 1 => rv2 s rPK_JOBCNT_LO rPK_JOBCNT_HI
    | 2 => rvw s rPK_FAULTCNT
    | 3 => rvw s rPK_PREEMPTCNT
    | 4 => rvw s rPK_WIPECNT
    | _ => rvw s rPK_LASTFAULT
  else slotInfo s (64 * (i - 0x5010) + sub - 1)

/-- Status of cards and export. -/
def viewCardVal (s : State) (i sub : Nat) : Nat :=
  if i = 0x5802 then
    match sub with
    | 1 => rv s rCHAM_XSTATE 2 0
    | 2 => rv2 s rCHAM_XBYTES_LO rCHAM_XBYTES_HI
    | _ => rv s rCHAM_XSTATE 31 16
  else if i = 0x5810 ∨ i = 0x5811 then
    let p := i - 0x5810
    match sub with
    | 1 => rv s (rCHAM_PSTAT p) 18 18
    | 2 => rv s (rCHAM_PSTAT p) 2 0
    | 3 => rv s (rCHAM_PSTAT p) 7 4
    | 4 => rv s (rCHAM_PSTAT p) 13 8
    | _ => rvw s (rCHAM_ERRCNT p)
  else
    let k := i - 0x5820
    if sub = 1 then (s.cslot k).present.toNat else rv s (rPERC_SSTAT k) 4 4

/-- Status of Felt, power, diagnostics, reset; the two temperatures come from sensors whose link to the objects the spec does
not give, so they are free. -/
def viewSysVal (s : State) (i sub : Nat) : Nat :=
  if i = 0x8000 then
    match sub with
    | 1 => s.felt.evt
    | 2 => s.felt.mono
    | _ => rv s rFELT_FSTAT 10 8
  else if i = 0x8031 then rvw s rFELT_LOGOVF
  else if i = 0x9000 then if sub = 4 then rv s rTWEED_PWRSTAT 2 0 else rv s rTWEED_PWRSTAT 4 4
  else if i = 0x9020 then Config.freeNat (s.freeCtr + sub)
  else if i = 0xA000 then rvw s (stickyReg (32 * (sub - 1)))
  else if i = 0xA020 then
    match sub with
    | 1 => rv2 s rDENG_REQCNT_LO rDENG_REQCNT_HI
    | 2 => s.dict.aborts
    | _ => rv s rDENG_FWSTAT 31 16
  else
    match sub with
    | 1 => rv s rTWEED_RSTCAUSE 7 0
    | 2 => rv s rTWEED_RSTCAUSE 11 8
    | 3 => rv s rTWEED_RSTCAUSE 14 14
    | 4 => rv s rTWEED_RSTCAUSE 13 13
    | 5 => rv s rTWEED_RSTCAUSE 31 16
    | _ => rv s rTWEED_RESUMEMS 15 0

/-- Identity, firmware and lifecycle values. With no image running, VERSION is free: the spec states none. -/
def viewIdVal (s : State) (i sub : Nat) : Nat :=
  if i = 0x1000 then if sub = 2 then 0x0960 else 0x01
  else if i = 0x1001 then
    match sub with
    | 1 => rv s rTWEED_FAMPARM 31 24
    | 2 => rv s rTWEED_FAMPARM 7 0
    | 3 => rv s rTWEED_FAMPARM 11 8
    | 4 => rv s rTWEED_FAMPARM 15 12
    | 5 => rv s rTWEED_FAMPARM 23 16
    | _ => rvw s rTWEED_FAMPARM
  else if i = 0x1002 then
    match sub with
    | 1 => if s.boot.header = [] then Config.freeNat s.freeCtr else hfld s.boot.header 0x10 4
    | 2 => rv s rBOOT_BOOTSTAT 0 0
    | _ => thermoOf s 0
  else if i = 0x1005 then lifeCode s.fuse.life
  else s.ging.opened.getD (i - 0x1110) 0

/-- The number behind a numeric status object. -/
def viewNum (s : State) (i sub : Nat) : Nat :=
  if i < 0x2000 then viewIdVal s i sub
  else if i < 0x3000 then
    let n := (i - 0x2000) / 0x40
    if i % 0x40 = 2 then custStatVal s n sub
    else if sub = 0x20 then rv s (rMUSLIN_CUSTSTAT n) 23 0
    else if sub = 0x22 then (s.chain n).seq
    else if sub = 0x23 then nth s.linen.keyver n
    else (ctxStat s n).toNat
  else if i < 0x4000 then viewVideo s i sub
  else if i < 0x5000 then viewMediaVal s i sub
  else if i < 0x5800 then viewKeysVal s i sub
  else if i < 0x8000 then viewCardVal s i sub
  else viewSysVal s i sub

/-- A stored DOMAIN, empty by default. -/
def storedVal (s : State) (key : Nat) : Bytes := (kget s.dict.stored key).getD []

/-- The bytes of a status object that is no number. -/
def viewBytes (s : State) (i sub : Nat) : Bytes :=
  if i = 0x1002 then if s.boot.header = [] then freeBytes s.freeCtr 32 else fit 32 (Config.sha256 s.boot.header)
  else if i = 0x1003 then slotPub s 17
  else if i = 0x1004 then deviceCert s
  else if 0x2000 ≤ i ∧ i < 0x3000 then fit 32 (s.chain ((i - 0x2000) / 0x40)).head
  else if i = 0x4010 then
    if s.media.rrTable = [] then [] else (List.range 1024).map (fun k => (s.media.rrTable.lookup k).getD 0)
  else if i = 0x4011 then
    if s.media.pairTable = [] then [] else (List.range 4096).flatMap (fun k => le 2 ((s.media.pairTable.lookup k).getD 0))
  else if i = 0x5802 then (List.range 8).flatMap (fun k => le 4 (rvw s (rCHAM_XDIGEST k)))
  else if i = 0x5820 ∨ i = 0x5821 then
    ((List.range 9).flatMap (fun k => le 4 (rvw s (rPERC_ATR (i - 0x5820) k)))).take 33
  else if i = 0x8030 then (List.range 4096).map (fun k => sget logDefault s.felt.log k)
  else if i = 0xA010 then s.load 0x307F0000 65536
  else if sub = 2 then []
  else zeros 32

/-- A FUSE-class object's value: its bits of the data word, or the value of an unprogrammed word (R1035, table *Fuse,
lifecycle and boot objects*). -/
def fuseVal (s : State) (key : Nat) : Bytes :=
  let word (d : Nat) : Nat := (dataRead s (dataPhys 256 d)).1.toNat
  let at_ (d : Nat) (v dflt : Nat) : Nat := if dataProgrammed s (dataPhys 256 d) then v else dflt
  if key = okey 0x1000 1 then le 2 (at_ 36 (word 36 % 65536) 0xFFFF)
  else if key = okey 0x1000 3 then le 2 (at_ 36 (word 36 / 65536) 0xFFFF)
  else if key = okey 0x1000 4 then le 2 (at_ 37 (word 37 % 65536) 0xFFFF)
  else if key = okey 0x1000 6 then serialOf s
  else le 1 (s.fld rTWILL_MEDCFG 23 16)

/-- The fuse words that a write of a FUSE-class object programs: data word numbers and values. -/
def fuseWords (key : Nat) (v : Bytes) : List (Nat × Word) :=
  if key = okey 0x1000 1 then [(36, loWord (ofLe v))]
  else if key = okey 0x1000 3 then [(36, loWord (ofLe v * 65536))]
  else if key = okey 0x1000 4 then [(37, loWord (ofLe v))]
  else if key = okey 0x1000 6 then (wordsOf 4 v).zipIdx.map (fun p => (p.2, p.1))
  else [(38, loWord (ofLe v * 2 ^ 18))]

/-! ## Procedure status -/

/-- The abort code of a KEYWRAP's end (R213, R586; notes/assumptions/49.md). -/
def kwOutcome (s : State) : Nat :=
  let c := s.fld rLINEN_KWSTAT 3 0
  if c = 0 then aOK else if c = kwPKFAULT then aHWFAULT else aSTATE

/-- Procedures whose work other blocks end: key, whether the work is over, outcome code. -/
def procWork (s : State) : List (Nat × Bool × Nat) :=
  [(okey 0x3204 0, !kwBusy s, kwOutcome s),
   (okey 0x4052 0, s.jrn.ckRunning.isNone, aOK),
   (okey 0x8032 0, s.felt.tbist.isNone, aOK),
   (okey 0xF030 4, decide (s.boot.warm = .idle), aOK)]

/-- The status of a procedure as it stands (R586). -/
def procStat (s : State) (key : Nat) : PStat :=
  let p := procOf s key
  match (procWork s).find? (fun w => decide (w.1 = key)) with
  | some (_, done, code) => if p.st = 1 ∧ done = true then { p with st := 2, code := code } else p
  | none => p

/-- Procedures whose work is over are DONE. -/
def procSettle (s : State) : State :=
  (procWork s).foldl (fun s w => if w.2.1 then procEnd w.1 w.2.2 s else s) s

/-- PSTAT of a procedure (R586). -/
def pstatBytes (p : PStat) : Bytes :=
  [BitVec.ofNat 8 p.st, BitVec.ofNat 8 p.princ] ++ le 2 (if p.st = 2 then p.code else 0)

/-! ## The value in force -/

/-- The clock object values behind registers: XIN_KHZ (R914). -/
def heldView (s : State) (key : Nat) : Bytes :=
  if key = okey 0x9010 1 then le 4 (24000 + 1000 * s.fld rTWEED_XINCFG 1 0)
  else if key = okey 0xF030 1 then le 4 s.boot.offset
  else if key = okey 0x1100 1 then le 1 (nodeId s)
  else heldVal s key

/-- The value in force of an object (R567, R568). -/
def objVal (s : State) (key : Nat) (o : Obj) : Bytes :=
  let i := key / 256
  let sub := key % 256
  if sub = 0 ∧ o.src = .held ∧ ¬(0x1120 ≤ i ∧ i < 0x1140) then o.dflt.getD [0]
  else
    match o.src with
    | .regs l => le o.type.size (piecesGet s l)
    | .desc field => le o.type.size (descGet (descEntry s ((i - 0x2000) / 0x40)) field)
    | .held => if o.cls = .fuse then fuseVal s key else heldView s key
    | .proc => pstatBytes (procStat s key)
    | .view =>
      match o.type with
      | .oct _ | .dig256 | .domain => viewBytes s i sub
      | t => le t.size (viewNum s i sub)

/-- A CPT or BOOT value that waits: a pending CPT value, or a stored BOOT value that differs from the one in force. -/
def pendVal (s : State) (key : Nat) (o : Obj) : Option Bytes :=
  match o.cls with
  | .cpt => kget s.dict.pending key
  | .boot =>
    match kget s.dict.stored key with
    | some v =>
      let now := objVal s key o
      if v = now ∨ (o.type = .domain ∧ fit now.length v = now) then none else some v
    | none => none
  | _ => none

end Sys2Proof.Machine
end

