-- ==== Sys2Proof/Machine/Reply.lean ====
section
/-!
DEFINITION. How the dictionary engine's answers reach the requester on each carrier (R593, R596, R627, R646–R650, R682–R688),
and the firmware port's eight slots (R581–R583, R595, R596).
-/

namespace Sys2Proof.Machine

/-- The dictionary engine's bus master identifier (R47). -/
def mDENG : Nat := 0x1D

/-- A memory write by the dictionary engine. -/
def dengStore (a : Nat) (bs : Bytes) (s : State) : State :=
  if bs = [] then s
  else
    let (ok, s) := jobAccess mDENG none true a bs.length s
    if ok then s.store a bs else s

/-- A memory read by the dictionary engine; none where the access is refused. -/
def dengLoad (a n : Nat) (s : State) : Option Bytes × State :=
  if n = 0 then (some [], s)
  else
    let (ok, s) := jobAccess mDENG none false a n s
    (if ok then some (s.load a n) else none, s)

/-! ## Message codes -/

def mREAD : Nat := 0x01
def mWRITE : Nat := 0x02
def mREADSEG : Nat := 0x03
def mWRITESEG : Nat := 0x04
def mBLOCKACK : Nat := 0x05
def mABORT : Nat := 0x06
def mOPEN : Nat := 0x07
def mCLOSE : Nat := 0x08
def mNOTIFY : Nat := 0x09
def mHEARTBEAT : Nat := 0x0A
def mREKEY : Nat := 0x0B

/-- The class of a message; a segment frame and BLOCK_ACK have their own (table *Classes*). -/
def classOf (msg : Nat) (data : Bool) : Option Nat :=
  if msg = mREADSEG ∨ msg = mWRITESEG then some (if data then 0x10 else 0x0C)
  else if msg = mREAD ∨ msg = mWRITE then some 0x0C
  else if msg = mBLOCKACK then some 0x10
  else if msg = mABORT ∨ msg = mCLOSE then some 0x02
  else if msg = mOPEN ∨ msg = mREKEY then some 0x04
  else if msg = mNOTIFY then some 0x08
  else if msg = mHEARTBEAT then some 0x1E
  else none

/-! ## Mailbox -/

/-- REQ[k] and RSP[k] of BAR0 (table *BAR0 map*). -/
def reqBuf (k : Nat) : Nat := bar0 + 0x4000 + 0x1000 * k
def rspBuf (k : Nat) : Nat := bar0 + 0x8000 + 0x1000 * k

/-- A response written to its slot, RSPVALID, vector 0 (R682). -/
def mboxPut (k : Nat) (m : Bytes) (s : State) : State := msix 0 ((s.store (rspBuf k) m).setFlag rBAR0_MBSTAT (8 + k) true)

/-- A response: it waits while RSPVALID is 1 (R683). -/
def mboxSend (k : Nat) (m : Bytes) (s : State) : State :=
  if s.flag rBAR0_MBSTAT (8 + k) then s.onPcie (fun p => { p with held := upd p.held k (fun _ => some m) }) else mboxPut k m s

/-- A mailbox message (table *Mailbox message header, first 8 bytes of REQ[s] and RSP[s]*). -/
def mboxMsg (msg tag flags : Nat) (body : Bytes) : Bytes :=
  le 1 msg ++ le 1 tag ++ le 1 (flags % 8) ++ [0] ++ le 2 body.length ++ [0, 0] ++ body

/-- The transaction of a mailbox slot ends (MBSTAT.BUSY 0). -/
def mboxFree (k : Nat) (s : State) : State := s.onPcie (fun p => { p with slots := upd p.slots k (fun _ => none) })

/-! ## Answers -/

/-- A message of a transaction to its requester; `closes`: the transaction ends with it. -/
def answer (c : Carrier) (tag msg flags : Nat) (body : Bytes) (closes : Bool) (s : State) : State :=
  match c with
  | .mbox k =>
    let s := mboxSend k (mboxMsg msg tag flags body) s
    if closes then mboxFree k s else s
  | .sess i =>
    let x := s.sess i
    ydpSend x.carrier { sess := some i, cls := (classOf msg (flags.testBit 1)).getD 0, dest := x.node, tag := tag, msg := msg,
                        flags := flags, body := body, closes := closes } s
  | _ => s

/-- The end of a local descriptor: its results, DONE last, LOCDONE (table *Local request descriptor*). -/
def localEnd (addr code : Nat) (read : Bool) (val : Bytes) (pend : Bool) (s : State) : State :=
  let s := if read ∧ code = aOK then
      let (d, s) := dengLoad (addr + 0x10) 8 s
      dengStore (ofLe (d.getD [])) val s
    else s
  let s := dengStore (addr + 6) (le 2 code) s
  let s := if read ∧ code = aOK then dengStore (addr + 8) (le 4 val.length) s else s
  let s := dengStore (addr + 0xC) (le 4 pend.toNat) s
  (dengStore (addr + 5) [1] s).raise rDENG_INTSTAT 1

/-- The most value bytes that a READ may carry on a carrier (R645, R684). -/
def readLimit (c : Carrier) (room : Nat) : Nat := match c with | .mbox _ => 4084 | .sess _ => 48 | _ => room

/-- Value bytes of a whole segment on a carrier (R646, R685). -/
def segSize (c : Carrier) : Nat := match c with | .mbox _ => 4087 | _ => 51

/-- The reply to a READ. -/
def answerRead (c : Carrier) (tag type code : Nat) (val : Bytes) (pend : Bool) (s : State) : State :=
  match c with
  | .loc a => localEnd a code true val pend s
  | .card a _ => localEnd a code true val pend s
  | _ =>
    let v := if code = aOK then val else []
    answer c tag mREAD 1 (le 2 code ++ le 1 pend.toNat ++ le 1 type ++ v) true s

/-- The reply to a WRITE. -/
def answerWrite (c : Carrier) (tag code : Nat) (s : State) : State :=
  match c with
  | .loc a => localEnd a code false [] false s
  | .card a _ => localEnd a code false [] false s
  | _ => answer c tag mWRITE 1 (le 2 code ++ [0, 0]) true s

/-! ## Segmented transfers -/

/-- The transfer of a carrier and tag. -/
def xferOf (s : State) (c : Carrier) (tag : Nat) : Option Xfer := s.dict.xfers.find? (fun x => decide (x.carrier = c ∧ x.tag = tag))

/-- A transfer replaced, or gone. -/
def putXfer (x : Xfer) (s : State) : State :=
  s.onDict (fun d => { d with xfers := d.xfers.map (fun y => if y.carrier = x.carrier ∧ y.tag = x.tag then x else y) })
def dropXfer (c : Carrier) (tag : Nat) (s : State) : State :=
  s.onDict (fun d => { d with xfers := d.xfers.filter (fun y => !decide (y.carrier = c ∧ y.tag = tag)) })

/-- The segments of a value from byte `from_` on, at most `n`, numbered from `sno`; the last one is marked (R646, R647). -/
def segments (size : Nat) (val : Bytes) (from_ sno : Nat) : Nat → List Bytes
  | 0 => []
  | n + 1 =>
    let part := slice val from_ size
    let last := decide (val.length ≤ from_ + size)
    (le 1 (sno + 128 * last.toNat) ++ part) :: (if last then [] else segments size val (from_ + size) (sno + 1) n)

/-- A block of a READ_SEG goes out, from segment `sno` of the block on. -/
def sendBlock (x : Xfer) (sno : Nat) (s : State) : State :=
  (segments (segSize x.carrier) x.data (x.acked + segSize x.carrier * (sno - 1)) sno (x.blk + 1 - sno)).foldl
    (fun s b => answer x.carrier x.tag mREADSEG 2 b false s) s

/-- A BLOCK_ACK from the device. -/
def blockAck (c : Carrier) (tag sno blk code : Nat) (closes : Bool) (s : State) : State :=
  answer c tag mBLOCKACK (if closes then 1 else 0) (le 1 sno ++ le 1 blk ++ le 2 code) closes s

/-- A READ_SEG's value is there: the init reply, then the first block; a failed init ends the transaction (R650). -/
def answerReadSeg (c : Carrier) (tag princ key type code blk : Nat) (val : Bytes) (pend : Bool) (s : State) : State :=
  let total := if code = aOK then val.length else 0
  let blk := match c with | .mbox _ => 1 | _ => max 1 (min 32 blk)
  let s := answer c tag mREADSEG 1 (le 2 code ++ le 1 pend.toNat ++ le 1 blk ++ le 4 total) (decide (code ≠ aOK)) s
  if code ≠ aOK then s
  else
    let x : Xfer := { carrier := c, tag := tag, princ := princ, index := key / 256, sub := key % 256, type := type, write := false,
                      total := total, blk := blk, data := val, at_ := s.now }
    sendBlock x 1 (s.onDict (fun d => { d with xfers := d.xfers ++ [x] }))

/-! ## The firmware port -/

/-- Header and data area of slot `i` (R595). -/
def fwHead (s : State) (i : Nat) : Nat := (s.rd rDENG_FWBUF).toNat + 0x20 * i
def fwData (s : State) (i : Nat) : Nat := (s.rd rDENG_FWBUF).toNat + 0x1000 * (i + 1)

/-- Slot `i` set. -/
def setFw (i : Nat) (q : Option FwReq) (s : State) : State := s.onDict (fun d => { d with fw := upd d.fw i (fun _ => q) })

/-- A request's next part handed to firmware: header, data, FWREQ (table *Fall-through request header*). -/
def fwPass (i : Nat) (q : FwReq) (s : State) : State :=
  let part := if q.op = 2 then slice q.data q.offset 4096 else []
  let total := if q.op = 2 then q.data.length else 0
  let first := decide (q.offset = 0)
  let last := if q.op = 2 then decide (q.data.length ≤ q.offset + 4096) else decide (q.type ≠ 0x0E)
  let h := le 1 q.op ++ le 1 q.sub ++ le 2 q.index ++ le 1 q.type ++ le 1 q.princ ++ le 1 (first.toNat + 2 * last.toNat) ++ [0]
    ++ le 4 q.offset ++ le 4 part.length ++ le 4 (if first then total else 0) ++ zeros 12
  let s := dengStore (fwHead s i) h (dengStore (fwData s i) part s)
  (setFw i (some { q with at_ := s.now }) s).raise rDENG_INTSTAT 0

/-- The reply to a request that firmware served. -/
def fwAnswer (q : FwReq) (code : Nat) (s : State) : State :=
  let read := decide (q.op = 1 ∨ q.op = 3)
  let code := if read ∧ q.form = 0 ∧ code = aOK ∧ readLimit q.carrier q.room < q.data.length then aLENGTH else code
  if q.op = 4 then s
  else if q.form = 1 then answerReadSeg q.carrier q.tag q.princ (okey q.index q.sub) q.type code q.blk q.data false s
  else if q.form = 2 then blockAck q.carrier q.tag q.sno q.blk code true s
  else if read then answerRead q.carrier q.tag q.type code q.data false s
  else answerWrite q.carrier q.tag code s

/-- FWRSP: firmware answers a slot with a code; FWRSPLEN bytes of a read lie in the data area. A DOMAIN goes on in further
requests; an answer to no request counts as late (R583, R596). -/
def fwRsp (w : Word) (s : State) : State :=
  let i := bits w 18 16
  let code := bits w 15 0
  match s.dict.fw.getD i none with
  | none => s.setFld rDENG_FWSTAT 31 16 (satAdd 16 (s.fld rDENG_FWSTAT 31 16) 1)
  | some q =>
    if code ≠ aOK then fwAnswer q code (setFw i none s)
    else if q.op = 2 then
      if q.data.length ≤ q.offset + 4096 then fwAnswer q aOK (setFw i none s) else fwPass i { q with offset := q.offset + 4096 } s
    else if q.op = 4 then setFw i none s
    else
      let n := min 4096 (s.fld rDENG_FWRSPLEN 12 0)
      let (bs, s) := dengLoad (fwData s i) n s
      let q := { q with data := (q.data ++ bs.getD []).take 65536, offset := q.offset + n }
      if q.type = 0x0E ∧ n = 4096 ∧ q.data.length < 65536 then fwPass i q s else fwAnswer q aOK (setFw i none s)

/-- FWTMO milliseconds without an answer end a fall-through request with TIMEOUT (R583). -/
def fwTimeout (i : Nat) (s : State) : State :=
  match s.dict.fw.getD i none with
  | none => s
  | some q =>
    if s.now < q.at_ + max 1 (s.fld rDENG_FWTMO 15 0) * 1000000 then s
    else
      let s := s.setFld rDENG_FWSTAT 15 0 (satAdd 16 (s.fld rDENG_FWSTAT 15 0) 1)
      fwAnswer q aTIMEOUT ((setFw i none s).raise rDENG_INTSTAT 3)

/-- Every slot answered BUSY_RETRY (R582). -/
def fwFlush (s : State) : State :=
  (List.range 8).foldl (fun s i =>
    match s.dict.fw.getD i none with
    | none => s
    | some q => fwAnswer q aBUSY (setFw i none s)) s

end Sys2Proof.Machine
end

