-- ==== Sys2Proof/Machine/Restart.lean ====
section
/-!
DEFINITION. The warm restart of Serge (R1082–R1085, table *Warm restart, from the request*): halt and GAPs, draining of
firmware's jobs, reset of the core, reload by the ROM.
-/

namespace Sys2Proof.Machine

/-- Firmware's running work is done: no general job runs, no raw card transfer (step 2). -/
def warmDrained (s : State) : Bool :=
  s.digest.running.isEmpty && s.cipher.running.isEmpty &&
    (match s.pk.running with | some (.firmware ..) => false | _ => true) && s.cards.ports.all (fun p => p.xfer.isNone)

/-- Step 3: the unlocked regions of checkers 1, 9 and 10 that name Serge. -/
def warmRegions (s : State) : State :=
  [1, 9, 10].foldl (fun s k =>
    (List.range 32).foldl (fun s r =>
      let cfg := s.rd (rCHK_CFG k r)
      if bit cfg 0 && !bit cfg 1 && bit (s.rd (rCHK_MASKLO k r)) 1 then s.wr (rCHK_CFG k r) (setBit cfg 0 false) else s) s) s

/-- Step 3: core SRAM, and Serge's registers but the interrupt controller's. -/
def warmCore (s : State) : State :=
  let private_ (a : Nat) : Bool := decide (0xE0001000 ≤ a ∧ a < 0xE1000000)
  { s with
    mem := s.mem.filter (fun e => !inCore e.1 1)
    regs := s.regs.filter (fun e => !private_ e.1)
    serge := { levels := s.serge.levels, taken := s.serge.taken, wdKey := s.serge.wdKey, wdTimeout := s.serge.wdTimeout,
               wdWin := s.serge.wdWin, wdAt := s.serge.wdAt } }

/-- The ROM's load reaches core SRAM and the flash window (R1084). -/
def warmLoad (s : State) : Bool × State :=
  let (a, s) := transact 1 { master := 1, kind := .write, addr := 0x10000000 } s
  if a.isNone then (false, s)
  else if strapsOf s (s.fld rBOOT_BOOTSTAT 3 2) = 2 then (true, s)
  else
    let (b, s) := transact 10 { master := 1, kind := .read, addr := 0x60000000 } s
    (b.isSome, s)

/-- Steps 3 and 4, once firmware's work has drained. -/
def warmAdvance (s : State) : State :=
  if s.boot.warm = .idle ∨ warmDrained s = false then s
  else
    let s := warmCore (warmRegions s)
    let (ok, s) := warmLoad s
    let s := s.onBoot (fun b => { b with warm := .idle })
    if ok then
      let s := s.setFld rBOOT_BOOTSTAT 31 16 ((s.fld rBOOT_BOOTSTAT 31 16 + 1) % 65536)
      romBoot (s.fld rBOOT_BOOTSTAT 3 2) s
    else resetRequest 8 (s.setFlag rBOOT_BOOTSTAT 8 true)

/-- Steps 1 and 2: Serge halts, RESTARTING, GAP FWRESTART, firmware's waiting work goes (R1082, R582). -/
def warmStart (s : State) : State :=
  let s := s.onSerge (fun c => { c with halted := true, buf := [] })
  let s := (s.onDict (fun d => { d with restarting := true, localQ := [] })).setFlag rDENG_CTRL 0 false
  let s := writeGaps gapFWRESTART 0 (fun _ => s.pos) (fun _ => s.pos) (validCusts s) s
  let s := fwFlush s
  let s := { s with digest := { s.digest with queue := [] }, cipher := { s.cipher with queue := [] } }
  let s := s.onPk (fun p => { p with queue := [] })
  warmAdvance (s.onBoot (fun b => { b with warm := .draining }))

/-- A write of BOOT.WARM: any KEY but 0x3A7E, or a restart that runs, leaves it without effect (R1082, R1085). -/
def warmWrite (w : Word) (s : State) : State :=
  if bits w 15 0 ≠ 0x3A7E ∨ s.boot.warm ≠ .idle then s else warmStart s

/-- FWSERVE: 1 serves fall-through objects and ends RESTARTING (R582). -/
def fwServe (v : Bool) (s : State) : State :=
  let s := s.setFlag rDENG_CTRL 0 v
  if v ∧ s.boot.warm = .idle then s.onDict (fun d => { d with restarting := false }) else s

end Sys2Proof.Machine
end

