-- ==== Sys2Proof/Machine/Serve.lean ====
section
/-!
DEFINITION. The dictionary engine's checks and service (R553–R602): who may do what to which object, what a write does by
its commit class, procedures, defaults, sticky bits.
-/

namespace Sys2Proof.Machine

/-! ## Sticky bits -/

/-- The bit numbers of the table *Sticky bits*. -/
def stickyListed (n : Nat) : Bool :=
  decide (n ≤ 16 ∨ (32 ≤ n ∧ n ≤ 36) ∨ (64 ≤ n ∧ n ≤ 75) ∨ (96 ≤ n ∧ n ≤ 106) ∨ (128 ≤ n ∧ n ≤ 131) ∨ (224 ≤ n ∧ n ≤ 230))

/-- A sticky bit cleared; word 7 through the bridge (R1099). -/
def clearSticky (n : Nat) (s : State) : State :=
  if n / 32 = 7 then feltPost rFELT_FSTICKY (BitVec.ofNat 32 (2 ^ (n % 32))) s else s.setFlag (stickyReg n) (n % 32) false

/-- CLEAR_STICKY with a bit number (R1099). -/
def clearStickyRun (n : Nat) (s : State) : Nat × State := if stickyListed n then (aOK, clearSticky n s) else (aRANGE, s)

/-- SRC and ARG of a standing bit whose condition holds (table *Sticky bits*). -/
def standing (s : State) (n : Nat) : Option (Nat × Nat) :=
  match n with
  | 7 => if s.power.pfailN then none else some (8, 0)
  | 32 => if s.flag rTWEED_CLKSTAT 3 then some (8, 0) else none
  | 35 => ((List.range 6).find? (fun p => s.flag (rTWEED_PLLSTAT p) 3)).map (fun p => (8, p))
  | 70 => if s.rng.es = .parked then some (38, 0) else none
  | 106 => ((List.range 17).find? (fun k => (s.nspace k).full)).map (fun k => (49, k))
  | 128 => ([0, 1].find? (fun c => decide ((s.can c).st = .stuck))).map (fun c => (65 + c, c))
  | 226 => if s.felt.cellOut then some (9, 0) else none
  | 228 => if (nth s.felt.src 13).tripped then some (9, 0) else none
  | _ => none

/-- STANDING_RESET: a standing bit is set again while its condition holds (R1100). -/
def standingReset (n : Nat) (s : State) : State :=
  match standing s n with
  | some (src, arg) => if n / 32 = 7 then feltSticky n arg s else setSticky n src arg s
  | none => s

/-- DIAGPUSH: a FIRMWARE entry; at most 1,000 in a second of EVT; ignored from step 5 of the last breath (R1106). -/
def diagPush (w : Word) (s : State) : State :=
  if 5 ≤ s.power.lb then s
  else
    let sec := s.felt.evt / 2 ^ 24
    let n := if s.diag.pushSec = sec then s.diag.pushes else 0
    if 1000 ≤ n then s.setFld rTWEED_DIAGSTAT 31 16 (satInc 16 (s.fld rTWEED_DIAGSTAT 31 16))
    else
      diagEntry { evt := s.felt.evt, type := 3, src := bits w 7 0, code := bits w 31 16, arg := (s.rd rTWEED_DIAGARG).toNat }
        (s.onDiag (fun d => { d with pushSec := sec, pushes := n + 1 }))

/-! ## Values -/

/-- The byte lies between two values. -/
def btw (b : Byte) (lo hi : Nat) : Bool := decide (lo ≤ b.toNat ∧ b.toNat ≤ hi)

/-- Valid UTF-8 (R551). -/
def utf8 : Nat → Bytes → Bool
  | _, [] => true
  | 0, _ => false
  | n + 1, b :: r =>
    let tail (k : Nat) (lo hi : Nat) : Bool :=
      match r with
      | c :: r' => btw c lo hi && (r'.take (k - 1)).all (fun x => btw x 0x80 0xBF) && decide (k ≤ r.length) && utf8 n (r.drop k)
      | [] => false
    if btw b 0 0x7F then utf8 n r
    else if btw b 0xC2 0xDF then tail 1 0x80 0xBF
    else if btw b 0xE0 0xE0 then tail 2 0xA0 0xBF
    else if btw b 0xED 0xED then tail 2 0x80 0x9F
    else if btw b 0xE1 0xEF then tail 2 0x80 0xBF
    else if btw b 0xF0 0xF0 then tail 3 0x90 0xBF
    else if btw b 0xF1 0xF3 then tail 3 0x80 0xBF
    else if btw b 0xF4 0xF4 then tail 3 0x80 0x8F
    else false

/-- A stored value, else the one in force. -/
def wanted (s : State) (key : Nat) : Nat := ofLe ((kget s.dict.stored key).getD (heldVal s key))

/-- The bit rates agree (R609). -/
def ratesOk (arb data : Nat) : Bool :=
  decide (arb ∈ ([125, 250, 500, 1000] : List Nat)) &&
    (decide (data = arb) || (decide (data ∈ ([1000, 2000, 4000, 5000, 8000] : List Nat)) && decide (arb ≤ data)))

/-- A value lies in the object's range (R551, R555, R575, R609, R914). -/
def rangeOk (s : State) (key : Nat) (o : Obj) (v : Bytes) : Bool :=
  let n := ofLe v
  if o.noArg then true
  else
    match o.type with
    | .bool => decide (n ≤ 1)
    | .vstr _ => utf8 v.length v
    | .oct _ | .dig256 | .domain | .pstat => true
    | _ =>
      if key = okey 0x1110 1 ∨ key = okey 0x1111 1 then false
      else if key = okey 0x1100 2 then ratesOk n (wanted s (okey 0x1100 3))
      else if key = okey 0x1100 3 then ratesOk (wanted s (okey 0x1100 2)) n
      else if key = okey 0x9010 1 then decide (n % 1000 = 0 ∧ o.lo ≤ n ∧ n ≤ o.hi)
      else if key = okey 0x3200 2 ∨ key = okey 0x4000 0xF then decide (n &&& o.hi = n)
      else if key = okey 0x3002 1 ∨ key = okey 0x3002 2 then decide (n &&& 0xFFFFFFFFFFF07 = n ∧ n % 4 ≠ 3)
      else if o.src = .desc 6 then decide (n % 16 = 0 ∧ o.lo ≤ n ∧ n ≤ o.hi)
      else decide (o.lo ≤ n ∧ n ≤ o.hi)

/-! ## Rights -/

/-- The rights profile of an object (R556, R558). -/
def profileOf (s : State) (key : Nat) (o : Obj) : Nat :=
  match o.prof with
  | .fixed p => p
  | .custody => let i := key / 256; ofLe (heldVal s (okey (i - i % 0x40 + 1) 1))

/-- The right that a profile gives a principal (R556). -/
def rightOf (s : State) (princ : Nat) (key : Nat) (o : Obj) : Nat :=
  (ofLe (heldVal s (okey (0x1120 + profileOf s key o) 0)) >>> (4 * princ)) % 16

/-- The right allows a read: RO, RW or CONST; P0 always; a FUSE-class object every principal (R554, R556, R561). -/
def mayRead (s : State) (princ key : Nat) (o : Obj) : Bool :=
  princ == 0 || o.cls == .fuse || decide (rightOf s princ key o ∈ ([1, 3, 4] : List Nat))

/-- The right allows a write or run: WO or RW; P0 always; never of an object without a commit class (R554, R560). -/
def mayWrite (s : State) (princ key : Nat) (o : Obj) : Bool :=
  o.cls != .ro && (princ == 0 || decide (rightOf s princ key o ∈ ([2, 3] : List Nat)))

/-- ENABLED; P0 cannot lock itself out (R553). -/
def princOk (s : State) (princ : Nat) : Bool := princ == 0 || enabledOf s princ

/-! ## Procedures -/

/-- The abort code of a procedure that is done at once. -/
def ProcRes.abort : ProcRes → Nat
  | .ok => aOK
  | .state => aSTATE
  | .range => aRANGE
  | .hwFault => aHWFAULT
  | .timeout => aTIMEOUT
  | .aborted => aABORTED

/-- A procedure that ends as it starts: refused with its code, or DONE. -/
def procAtOnce (key princ : Nat) (r : Nat × State) : Nat × State :=
  if r.1 = aOK then (aOK, procRan key princ aOK r.2) else r

/-- A procedure whose work goes on. -/
def procGoes (key princ : Nat) (r : Nat × State) : Nat × State :=
  if r.1 = aOK then (aOK, procSettle (procStart key princ r.2)) else r

/-- MEDIA_INIT: refused in a wrong state, else run to its end (R367). -/
def mediaRun (princ : Nat) (bad : List (Nat × Nat × Nat)) (s : State) : Nat × State :=
  let (r, s') := mediaInit bad s
  if r = .state then (aSTATE, s) else (aOK, procRan (okey 0x4020 0) princ r.abort s')

/-- ZEROIZE by object (table *Damask objects*). -/
def zeroizeRun (h : Nat) (s : State) : Nat × State :=
  if !current s h then (aSTATE, s) else if ksBusy s then (aBUSY, s) else (aOK, ksZeroize h s)

/-- KEYWRAP by object 0x3204. -/
def keywrapRun (d : Bytes) (s : State) : Nat × State :=
  let c := dfld d 0 1
  let kind := dfld d 1 1
  let alg := dfld d 2 1
  if 63 < c ∨ 3 < kind ∨ 3 < alg then (aRANGE, s)
  else if kwBusy s then (aBUSY, s)
  else
    let src := dfld d 3 2
    let s := (s.setFld rLINEN_KWSRC 15 0 src).wr rLINEN_KWCMD (field 13 12 alg ||| field 9 8 kind ||| field 5 0 c)
    (aOK, keywrap c kind alg src s)

/-- The namespace procedures reply with their check and run to the end (R461, R462). -/
def nsRun (key princ : Nat) (r : ProcRes × State) : Nat × State :=
  if r.1 = .state ∨ r.1 = .range then (r.1.abort, r.2) else (aOK, procRan key princ r.1.abort r.2)

/-! ### Defaults -/

/-- The default of an object (R571): its own, or the reset value of its register fields. -/
def defaultOf (o : Obj) : Bytes :=
  match o.dflt with
  | some d => d
  | none =>
    match o.src with
    | .regs l => le o.type.size ((l.map (fun p => bits (regReset p.a) p.hi p.lo <<< p.from_)).foldl (· + ·) 0)
    | _ => []

/-- A register behind an IMM object of Felt's: through the bridge, at once (R602, R1029). -/
def feltNow (a : Nat) (w : Word) (s : State) : State := (List.range 9).foldl (fun s _ => feltLand s) (feltPost a w s)

/-- An IMM register object written: the shadow procedure refuses while firmware holds its first half (R602). -/
def immRegs (l : List Piece) (v : Nat) (s : State) : Nat × State :=
  match l with
  | [] => (aOK, s)
  | p :: _ =>
    if s.felt.half.isSome ∧ p.a ∈ rwsRegs then (aHWFAULT, shadowReject p.a s)
    else (aOK, feltNow p.a (setBits (s.rd p.a) p.hi p.lo v) s)

/-- One object put back to its default by its commit class (R573). -/
def restoreOne (key : Nat) (o : Obj) (s : State) : State :=
  match o.cls with
  | .cpt => s.onDict (fun d => { d with pending := kput d.pending key (defaultOf o) })
  | .boot =>
    if key = okey 0x9010 1 then s.onDict (fun d => { d with stored := serase d.stored key })
    else s.onDict (fun d => { d with stored := kput d.stored key (defaultOf o) })
  | .imm =>
    match o.src with
    | .regs l => (immRegs l (ofLe (defaultOf o)) s).2
    | .held => s.onDict (fun d => { d with held := kput d.held key (defaultOf o) })
    | _ => s
  | _ => s

/-- RESTORE_DEFAULTS over the indices of a group. -/
def restoreAll (p : Nat → Bool) (s : State) : State :=
  (allIndices.filter p).foldl (fun s i =>
    match indexOf i with
    | some x => x.entries.foldl (fun s o => restoreOne (okey i o.sub) o s) s
    | none => s) s

/-- The indices that an argument of RESTORE_DEFAULTS names; none: RANGE (R574, R575). -/
def restoreGroup (arg : Nat) : Option (Nat → Bool) :=
  if 512 ≤ arg then none
  else if 256 ≤ arg then
    if arg % 256 < 64 then let b := 0x2000 + 0x40 * (arg % 256); some (fun i => decide (b ≤ i ∧ i < b + 0x40)) else none
  else groupOf arg

/-- RESTORE_DEFAULTS (R573–R575). -/
def restoreDefaults (arg : Nat) (s : State) : Nat × State :=
  match restoreGroup arg with
  | none => (aRANGE, s)
  | some p => (aOK, restoreAll p s)

/-! ### Running -/

/-- A procedure run with its argument: the reply's code and the state (R585). -/
def runProc (key princ : Nat) (d : Bytes) (env : ProcEnv) (s : State) : Nat × State :=
  let i := key / 256
  if i = 0x3202 then procAtOnce key princ (aOK, anchorRequest true s)
  else if i = 0x3203 then procAtOnce key princ (aOK, epochRequest { reason := .request } s)
  else if i = 0x3204 then procGoes key princ (keywrapRun d s)
  else if i = 0x4020 then mediaRun princ env.bad s
  else if i = 0x4050 then nsRun key princ (holdRelease (dfld d 0 1) (dfld d 1 8) (dfld d 9 8) s)
  else if i = 0x4051 then nsRun key princ (nsPurge (dfld d 0 1) s)
  else if i = 0x4052 then if s.jrn.replaying then (aSTATE, s) else procGoes key princ (aOK, ckRequest s)
  else if i = 0x5020 then procAtOnce key princ (zeroizeRun (ofLe d) s)
  else if i = 0x5021 then procAtOnce key princ (aOK, selfTest env.badDigest env.badCipher s)
  else if i = 0x5801 then exportStart princ s
  else if i = 0x5803 then exportAbort princ false s
  else if i = 0x5804 then courtCopy princ (ofLe d) s
  else if i = 0x8001 then procAtOnce key princ (setTime d s)
  else if i = 0x8032 then procGoes key princ (tbist (ofLe d) s)
  else if i = 0x9000 then procAtOnce key princ (aOK, startLastBreath s)
  else if i = 0xA001 then procAtOnce key princ (clearStickyRun (ofLe d) s)
  else if i = 0xF001 then if ofLe d < 1 ∨ 4 < ofLe d then (aRANGE, s) else lifecycleAdvance (ofLe d) s
  else if i = 0xF010 then (aOK, resetRequest 9 s)
  else if i = 0xF020 then procAtOnce key princ (restoreDefaults (ofLe d) s)
  else if key = okey 0xF030 3 then procAtOnce key princ (fwCommit s)
  else if s.boot.warm ≠ .idle then (aBUSY, s)
  else
    let s := warmStart (procStart key princ s)
    (aOK, procSettle s)

/-- Procedures that take the machine down: their reply goes first (R529, table *From reset release*). -/
def replyFirst (key : Nat) : Bool :=
  decide (key = okey 0xF010 0 ∨ key = okey 0xF001 0 ∨ key = okey 0x9000 6)

/-! ## Writes -/

/-- A write of an IMM object that is no procedure. -/
def writeImm (key : Nat) (o : Obj) (v : Bytes) (s : State) : Nat × State :=
  let i := key / 256
  if key = okey 0xF030 1 then fwOffset (ofLe v) s
  else if key = okey 0xF030 2 then fwChunk v s
  else if key = okey 0xF040 2 then debugResponse v s
  else if i = 0x5800 then
    if s.cards.exp.job.isSome then (aBUSY, s) else (aOK, s.onDict (fun d => { d with held := kput d.held key v }))
  else
    match o.src with
    | .regs l => immRegs l (ofLe v) s
    | _ => (aOK, s.onDict (fun d => { d with held := kput d.held key v }))

/-- A write of a FUSE-class object: PERSONALISE only, and once; programmed and read back before the reply (R561, R562). -/
def writeFuse (key : Nat) (v : Bytes) (s : State) : Nat × State :=
  let ws := fuseWords key v
  if s.fuse.life ≠ .personalise ∨ ws.any (fun w => dataProgrammed s (dataPhys 256 w.1)) then (aSTATE, s)
  else if s.fuse.op.isSome then (aBUSY, s)
  else (aOK, ws.foldl (fun s w => fuseProgramAll (dataWords (dataPhys 256 w.1) w.2) s) s)

/-- A write that has passed its checks, by commit class (table *Commit classes*). -/
def writeObj (key princ : Nat) (o : Obj) (v : Bytes) (env : ProcEnv) (s : State) : Nat × State :=
  match o.cls with
  | .ro => (aNORIGHT, s)
  | .cpt => (aOK, s.onDict (fun d => { d with pending := kput d.pending key v }))
  | .boot => (aOK, s.onDict (fun d => { d with stored := kput d.stored key v }))
  | .fuse => writeFuse key v s
  | .imm => if o.src = .proc then runProc key princ v env s else writeImm key o v s

/-- STATE and RANGE of the object's own check go before BUSY_RETRY and HW_FAULT (R576). -/
def writeOrdered (key princ : Nat) (o : Obj) (v : Bytes) (env : ProcEnv) (busy : Bool) (s : State) : Nat × State :=
  let r := writeObj key princ o v env s
  if busy || !objOpen s key then
    if r.1 = aRANGE ∨ r.1 = aSTATE then (r.1, s) else (if busy then aBUSY else aHWFAULT, s)
  else r

/-! ## Requests -/

/-- A request as the engine takes it. `form`: 0 READ or WRITE, 1 a READ_SEG, 2 a WRITE_SEG init, 3 the whole value of a
WRITE_SEG. -/
structure Request where
  carrier : Carrier := .loc 0
  princ : Nat := 0
  tag : Nat := 0
  op : Nat := 1
  index : Nat := 0
  sub : Nat := 0
  type : Nat := 0
  data : Bytes := []
  form : Nat := 0
  total : Nat := 0
  blk : Nat := 1
  sno : Nat := 0
  room : Nat := 65536
  env : ProcEnv := {}
  deriving DecidableEq, Repr, Inhabited

/-- The request writes. -/
def Request.writes (r : Request) : Bool := decide (r.op = 2)

/-- The carrier brings a DOMAIN whole (R594). -/
def Carrier.whole : Carrier → Bool
  | .loc _ | .card .. => true
  | _ => false

/-- The expected type code: a procedure reads as PSTAT, and one without an argument is written with 0x00 (R585, R586). -/
def typeOf (o : Obj) (write : Bool) : Nat :=
  if o.src = .proc then (if write then (if o.noArg then 0 else o.type.code) else 0x0F) else o.type.code

/-- The access form suits the kind (R549, R594, R645). -/
def formOk (o : Obj) (r : Request) : Bool :=
  if r.form = 0 then o.type != .domain || o.src == .proc || r.carrier.whole else o.src != .proc

/-- The value's length suits the type (table *Types*). -/
def lengthFits (o : Obj) (n : Nat) : Bool :=
  if o.noArg then decide (n = 0) else if o.type = .domain then decide (n ≤ min 65536 o.hi) else o.type.lengthOk n

/-- A DOMAIN that some transfer is writing (R577, R590). -/
def domainBusy (s : State) (r : Request) : Bool :=
  s.dict.xfers.any (fun x => x.write && decide (x.index = r.index ∧ x.sub = r.sub) &&
    !decide (x.carrier = r.carrier ∧ x.tag = r.tag))

/-- The index is an ARRAY or RECORD. -/
def OIndex.isRecord : OIndex → Bool
  | .record _ => true
  | _ => false

/-- NO_OBJECT to NO_SUB of a hardware-served index, and the checks up to RANGE (R576). -/
def hwCheck (s : State) (r : Request) (x : OIndex) : Except Nat Obj :=
  let key := okey r.index r.sub
  match x.entry r.sub with
  | none => .error aNOSUB
  | some o =>
    let o := if r.sub == 0 && x.isRecord then { o with cls := .ro } else o
    if !princOk s r.princ then .error aSESSION
    else if (if r.writes then !mayWrite s r.princ key o else !mayRead s r.princ key o) then .error aNORIGHT
    else if r.type ≠ typeOf o r.writes ∨ formOk o r = false then .error aTYPE
    else if r.writes ∧ lengthFits o (if r.form = 2 then r.total else r.data.length) = false then .error aLENGTH
    else if r.writes ∧ r.form ≠ 2 ∧ rangeOk s key o r.data = false then .error aRANGE
    else .ok o

/-- The answer to a request by its form. -/
def reply (r : Request) (code : Nat) (val : Bytes) (pend : Bool) (s : State) : State :=
  let key := okey r.index r.sub
  if r.form = 1 then answerReadSeg r.carrier r.tag r.princ key r.type code r.blk val pend s
  else if r.form = 2 then
    let blk := match r.carrier with | .mbox _ => 1 | _ => max 1 (min 32 r.blk)
    answer r.carrier r.tag mWRITESEG 1 (le 2 code ++ [0] ++ le 1 blk) (decide (code ≠ aOK)) s
  else if r.form = 3 then blockAck r.carrier r.tag r.sno r.blk code true s
  else if r.writes then answerWrite r.carrier r.tag code s
  else answerRead r.carrier r.tag r.type code val pend s

/-- A segmented write is open from its init on. -/
def openWrite (r : Request) (s : State) : State :=
  let blk := match r.carrier with | .mbox _ => 1 | _ => max 1 (min 32 r.blk)
  let x : Xfer := { carrier := r.carrier, tag := r.tag, princ := r.princ, index := r.index, sub := r.sub, type := r.type,
                    write := true, total := r.total, blk := blk, at_ := s.now }
  s.onDict (fun d => { d with xfers := d.xfers ++ [x] })

/-- A read served: the value in force, or with PEND the pending one (R567). -/
def serveRead (r : Request) (o : Obj) (s : State) : State :=
  let key := okey r.index r.sub
  if !objOpen s key then reply r aHWFAULT [] false s
  else if key = okey 0xF040 1 then
    let (code, v, s) := debugChallenge s
    reply r code v false s
  else
    let p := pendVal s key o
    let v := if r.op = 3 then p.getD (objVal s key o) else objVal s key o
    if r.form = 0 ∧ readLimit r.carrier r.room < v.length then reply r aLENGTH [] false s
    else reply r aOK v p.isSome (if o.src = .view then s.fresh else s)

/-- A reply that goes before a reset leaves its bus at once (R529). -/
def flushReply (c : Carrier) (s : State) : State :=
  match c with
  | .sess i =>
    let n := (s.sess i).carrier
    match (s.can n).ydp.getLast? with
    | some m =>
      if 2 ≤ n then s
      else
        let o := outgoing s m
        let fr := ydpFrameOf s o
        msgSent o (setCan n (fun c => { c with ydp := c.ydp.dropLast, sent := some fr }) s)
    | none => s
  | _ => s

/-- A write served. -/
def serveWrite (r : Request) (o : Obj) (s : State) : State :=
  let key := okey r.index r.sub
  let busy := (o.type == .domain && domainBusy s r) || (o.src == .proc && decide ((procStat s key).st = 1) && decide (r.index ≠ 0x5804))
  if r.form = 2 then
    let code := if o.cls = .fuse ∧ s.fuse.life ≠ .personalise then aSTATE
      else if busy then aBUSY else if !objOpen s key then aHWFAULT else aOK
    reply r code [] false (if code = aOK then openWrite r s else s)
  else
    let out := writeOrdered key r.princ o r.data r.env busy s
    if out.1 = aOK ∧ replyFirst key = true then (writeOrdered key r.princ o r.data r.env busy (flushReply r.carrier (reply r aOK [] false s))).2
    else reply r out.1 [] false out.2

/-- A request for an index that firmware serves (R576, R577, R580–R582). -/
def fallThrough (r : Request) (s : State) : State :=
  if s.dict.restarting then reply r aBUSY [] false s
  else if !s.flag rDENG_CTRL 0 ∨ (0x2000 ≤ r.index ∧ r.index < 0x3000) then reply r aNOOBJ [] false s
  else if !princOk s r.princ then reply r aSESSION [] false s
  else if r.form = 2 then reply r aOK [] false (openWrite r s)
  else
    match (List.range 8).find? (fun i => (s.dict.fw.getD i none).isNone) with
    | none => reply r aBUSY [] false s
    | some i =>
      fwPass i { carrier := r.carrier, tag := r.tag, op := r.op, index := r.index, sub := r.sub, type := r.type, princ := r.princ,
                 data := if r.writes then r.data else [], form := if r.form = 1 then 1 else if r.form = 3 then 2 else 0,
                 blk := r.blk, sno := r.sno, room := r.room } s

/-- A request served (R576–R584). With the engine's clock gated every request ends HW_FAULT. -/
def serve (r : Request) (s : State) : State :=
  if s.gated 0 10 then reply r aHWFAULT [] false s
  else
    let s := s.add64 rDENG_REQCNT_LO rDENG_REQCNT_HI 1
    match indexOf r.index with
    | none => fallThrough r s
    | some x =>
      match hwCheck s r x with
      | .error code => reply r code [] false s
      | .ok o => if r.writes then serveWrite r o s else serveRead r o s

/-! ## Descriptors -/

/-- A local or driver-card request descriptor read and served (R593, R778). -/
def serveDesc (c : Carrier) (addr princ : Nat) (env : ProcEnv) (s : State) : State :=
  let (d, s) := dengLoad addr 32 s
  match d with
  | none => s
  | some d =>
    let op := dfld d 0 1
    let n := dfld d 8 4
    let r : Request := { carrier := c, princ := princ, op := op, sub := dfld d 1 1, index := dfld d 2 2, type := dfld d 4 1, room := n, env := env }
    if op < 1 ∨ 3 < op then localEnd addr aTYPE false [] false s
    else if op = 2 then
      if 65536 < n then localEnd addr aLENGTH false [] false s
      else
        let (v, s) := dengLoad (dfld d 0x10 8) n s
        match v with
        | none => localEnd addr aHWFAULT false [] false s
        | some v => serve { r with data := v } s
    else serve r s

/-- LSUBMIT: a descriptor joins the local queue of 4 (R593). -/
def lsubmit (addr : Nat) (s : State) : State :=
  if 4 ≤ s.dict.localQ.length then s.raise rDENG_INTSTAT 4
  else s.onDict (fun d => { d with localQ := d.localQ ++ [addr / 32 * 32] })

/-- The oldest local descriptor is served. -/
def serveLocal (env : ProcEnv) (s : State) : State :=
  match s.dict.localQ with
  | [] => s
  | a :: q => serveDesc (.loc a) a 0 env (s.onDict (fun d => { d with localQ := q }))

/-- PREQ: a driver-card request for the slot of AUTHCTL joins its queue of 4 (R778). -/
def preqSubmit (addr : Nat) (s : State) : State :=
  if 4 ≤ s.cards.preq.length then s
  else s.onCards (fun c => { c with preq := c.preq ++ [(addr / 32 * 32, s.fld rPERC_AUTHCTL 8 8)] })

/-- The oldest driver-card request is served with the principal its slot's AUTH names; without AUTH it ends with SESSION
(R778, R779). -/
def serveCard (env : ProcEnv) (s : State) : State :=
  match s.cards.preq with
  | [] => s
  | (a, i) :: q =>
    let s := s.onCards (fun c => { c with preq := q })
    if s.flag (rPERC_SSTAT i) 6 then serveDesc (.card a i) a (s.fld (rPERC_SSTAT i) 11 8) env s
    else localEnd a aSESSION false [] false s

end Sys2Proof.Machine
end

