-- ==== Sys2Proof/Machine/Session.lean ====
section
/-!
DEFINITION. Requests on the wire: YDP frames on CAN and the service UART with their checks, sessions (R613–R659), segmented
transfers (R646–R650), aborts (R651–R655), and the mailbox of principal P1 (R660, R682–R691).
-/

namespace Sys2Proof.Machine

/-! ## Messages of a transaction, whatever the carrier -/

/-- A message as the engine sees it: carrier, principal, TAG, code, FLAGS, body. -/
structure Msg where
  carrier : Carrier := .loc 0
  princ : Nat := 0
  tag : Nat := 0
  msg : Nat := 0
  flags : Nat := 0
  body : Bytes := []
  env : ProcEnv := {}
  deriving DecidableEq, Repr, Inhabited

/-- The request in a message's body (table *Bodies*). -/
def Msg.request (m : Msg) : Request :=
  { carrier := m.carrier, princ := m.princ, tag := m.tag, index := dfld m.body 0 2, sub := dfld m.body 2 1,
    type := dfld m.body 3 1, env := m.env,
    op := if m.msg = mWRITE ∨ m.msg = mWRITESEG then 2 else if m.flags.testBit 2 then 3 else 1,
    data := if m.msg = mWRITE then m.body.drop 4 else [],
    form := if m.msg = mREADSEG then 1 else if m.msg = mWRITESEG then 2 else 0,
    total := dfld m.body 4 4, blk := max 1 (min 32 (dfld m.body 8 1)) }

/-- The body length suits the message. -/
def Msg.sized (m : Msg) : Bool :=
  let n := m.body.length
  if m.msg = mREAD then decide (n = 4)
  else if m.msg = mWRITE then decide (4 ≤ n)
  else if m.msg = mREADSEG ∨ m.msg = mWRITESEG then decide (n = 12)
  else true

/-- A READ, WRITE or init: a body of the wrong length ends with LENGTH, otherwise it is served. -/
def msgRequest (m : Msg) (s : State) : State :=
  if m.sized then serve m.request s else reply m.request aLENGTH [] false s

/-! ## Segments -/

/-- The whole value of a segmented write is there: it takes effect when its length is the declared one (R589). -/
def writeSegEnd (x : Xfer) (sno : Nat) (env : ProcEnv) (s : State) : State :=
  let s := dropXfer x.carrier x.tag s
  if x.data.length ≠ x.total then blockAck x.carrier x.tag sno x.blk aLENGTH true s
  else
    serve { carrier := x.carrier, princ := x.princ, tag := x.tag, op := 2, index := x.index, sub := x.sub, type := x.type,
            data := x.data, form := 3, blk := x.blk, sno := sno, env := env } s

/-- A segment frame: kept in order, discarded behind a gap or as a repetition; a full block and the LAST segment are
acknowledged (R646–R649). -/
def takeSegment (m : Msg) (s : State) : State :=
  match xferOf s m.carrier m.tag with
  | none => s
  | some x =>
    let sno := dfld m.body 0 1 % 64
    let last := decide (128 ≤ dfld m.body 0 1)
    let data := m.body.drop 1
    let fits := if last then decide (data.length ≤ segSize m.carrier) else decide (data.length = segSize m.carrier)
    if !x.write ∨ fits = false then s
    else if sno ≠ x.inBlk + 1 then
      let s := putXfer { x with gap := x.gap || decide (x.inBlk + 1 < sno), at_ := s.now } s
      match m.carrier with
      | .mbox _ => blockAck x.carrier x.tag x.inBlk x.blk aOK false s
      | _ => s
    else
      let x := { x with data := x.data ++ data, inBlk := sno, at_ := s.now, gap := false }
      if last then writeSegEnd x sno m.env s
      else if sno = x.blk then blockAck x.carrier x.tag sno x.blk aOK false (putXfer { x with inBlk := 0 } s)
      else putXfer x s

/-- BLOCK_GAP_EXPIRY: 100 ms after the last segment received while a gap remains (R649). -/
def gapExpiry (n : Nat) (s : State) : State :=
  match s.dict.xfers[n]? with
  | none => s
  | some x =>
    if x.write && x.gap && decide (x.at_ + 100000000 ≤ s.now) then
      blockAck x.carrier x.tag x.inBlk x.blk aOK false (putXfer { x with gap := false } s)
    else s

/-- A BLOCK_ACK of a segmented read: the next block, or the end when it covers LAST (R647, R653). -/
def blockAcked (m : Msg) (s : State) : State :=
  match xferOf s m.carrier m.tag with
  | none => s
  | some x =>
    if x.write then s
    else
      let sno := min (dfld m.body 0 1 % 64) x.blk
      let acked := x.acked + sno * segSize x.carrier
      let blk := match m.carrier with | .mbox _ => 1 | _ => max 1 (min 32 (dfld m.body 1 1))
      let covers := if x.total = 0 then decide (1 ≤ sno) else decide (x.total ≤ acked)
      if covers then
        let s := dropXfer x.carrier x.tag s
        match m.carrier with
        | .mbox k => mboxFree k s
        | _ => s
      else
        let x := { x with acked := acked, blk := blk, at_ := s.now }
        sendBlock x 1 (putXfer x s)

/-- SEGTMO milliseconds without a frame of the transfer: ABORT with CODE TIMEOUT, partial data gone (R591). -/
def segTimeout (n : Nat) (s : State) : State :=
  match s.dict.xfers[n]? with
  | none => s
  | some x =>
    if s.now < x.at_ + max 1 (s.fld rDENG_SEGTMO 15 0) * 1000000 then s
    else answer x.carrier x.tag mABORT 0 (le 2 aTIMEOUT) true (dropXfer x.carrier x.tag s)

/-! ## Aborts -/

/-- Messages that still wait and end a transaction of session `i`. -/
def waitingReply (s : State) (i tag : Nat) : Bool :=
  s.ging.can.any (fun c => c.ydp.any (fun m => m.closes && decide (m.sess = some i ∧ m.tag = tag)))

/-- ABORT outcomes. -/
def abABORTED : Nat := 0
def abLATE : Nat := 1
def abNOTFOUND : Nat := 2

/-- The firmware slot that serves a transaction. -/
def fwSlotOf (s : State) (c : Carrier) (tag : Nat) : Option Nat :=
  (List.range 8).find? (fun i => match s.dict.fw.getD i none with
    | some q => decide (q.carrier = c ∧ q.tag = tag ∧ q.op ≠ 4)
    | none => false)

/-- What an ABORT of the transaction of a carrier and TAG does: a segmented transfer ends; a fall-through request is passed to
firmware as OP 4; an answer that waits is late (R592, R652–R655). `tie`: the completion is latched on the sampling edge. -/
def abortTrans (c : Carrier) (tag : Nat) (tie : Bool) (s : State) : Nat × State :=
  match xferOf s c tag with
  | some _ => (abABORTED, dropXfer c tag s)
  | none =>
    match fwSlotOf s c tag with
    | some i =>
      match s.dict.fw.getD i none with
      | some q => (abABORTED, fwPass i { q with op := 4, offset := 0, data := [] } s)
      | none => (abNOTFOUND, s)
    | none =>
      let waits := match c with | .sess i => waitingReply s i tag | _ => false
      (if waits || tie then abLATE else abNOTFOUND, s)

/-- A peer's ABORT is always answered (R651). -/
def abortMsg (m : Msg) (target : Carrier) (tie : Bool) (s : State) : State :=
  let (out, s) := abortTrans target m.tag tie s
  let s := s.onDict (fun d => { d with aborts := satInc 32 d.aborts })
  answer m.carrier m.tag mABORT 1 [BitVec.ofNat 8 out, 0] true s

/-! ## YDP frames -/

/-- A discarded frame that breaks the protocol (R615, R618, R644). -/
def protErr (s : State) : State := (s.raise rGING_INTSTAT 5).addSat rGING_PROTERR 1

/-- A frame whose tag does not verify (R622). -/
def authFail (s : State) : State := (s.raise rGING_INTSTAT 2).addSat rGING_AUTHFAIL 1

/-- The layout checks of a frame (R615, R617, R618): class, length, BLEN, padding, VER, reserved flag. -/
def frameOk (cls : Nat) (p : Bytes) : Bool :=
  let n := p.length
  let flags := dfld p 3 1
  let blen := dfld p 2 1
  decide (classOf (dfld p 0 1) (flags.testBit 1) = some cls) && decide (n ∈ ([12, 16, 20, 24, 32, 48, 64] : List Nat)) &&
    decide (blen + 12 ≤ n) && decide (flags / 16 = 1) && !flags.testBit 3 && (slice p (4 + blen) (n - 12 - blen)).all (· == 0)

/-- The counter value of a received CTRLO (R624). -/
def rxCount (e l : Nat) : Nat := e + (l + 256 - e % 256) % 256

/-- The tag of a frame verifies under a key and counter (R620). -/
def tagOk (key : Bytes) (id c : Nat) (p : Bytes) : Bool := p.drop (p.length - 8) == ydpTag key id c (p.take (p.length - 8))

/-- Open sessions of a carrier and node. -/
def sessAt (s : State) (carrier src : Nat) : List Nat :=
  (List.range 8).filter (fun i => let x := s.sess i; decide (x.st = .openSess ∧ x.carrier = carrier ∧ x.node = src))

/-- The session that a frame belongs to: the one under whose key it verifies, else the first (notes/assumptions/43.md). -/
def sessOf (s : State) (carrier src id : Nat) (p : Bytes) : Option (Nat × Bool) :=
  let l := sessAt s carrier src
  let ok (i : Nat) : Bool := let x := s.sess i; tagOk x.inKey id (rxCount x.rxctr (dfld p 1 1)) p
  match l.find? ok with
  | some i => some (i, true)
  | none => l.head?.map (fun i => (i, false))

/-- Open transactions of a session: their tags (R642). -/
def openTags (s : State) (i : Nat) : List Nat :=
  (s.dict.xfers.filter (fun x => decide (x.carrier = .sess i))).map Xfer.tag
    ++ s.dict.fw.filterMap (fun q => match q with | some r => if r.carrier = .sess i ∧ r.op ≠ 4 then some r.tag else none | none => none)
    ++ s.ging.can.flatMap (fun c => (c.ydp.filter (fun m => m.closes && decide (m.sess = some i))).map YMsg.tag)

/-- The message opens a transaction. -/
def opens (msg flags : Nat) : Bool :=
  decide (msg = mREAD ∨ msg = mWRITE) || (decide (msg = mREADSEG ∨ msg = mWRITESEG) && !flags.testBit 1)

/-- A message of an open session whose counter has been accepted. -/
def sessMsg (i : Nat) (m : Msg) (tie : Bool) (s : State) : State :=
  if opens m.msg m.flags then
    if m.tag ∈ openTags s i then protErr s
    else if 4 ≤ (openTags s i).length then reply m.request aBUSY [] false s
    else msgRequest m s
  else if m.msg = mREADSEG ∨ m.msg = mWRITESEG then takeSegment m s
  else if m.msg = mBLOCKACK then blockAcked m s
  else if m.msg = mABORT then abortMsg m m.carrier tie s
  else if m.msg = mCLOSE then
    let x := s.sess i
    ydpSend x.carrier (closeMsg s i 0 1 m.tag) (sessShut i s)
  else s

/-- A request with no session is answered SESSION, with a zero tag (R553, R621). -/
def sessionless (carrier src tag msg flags : Nat) (s : State) : State :=
  if opens msg flags then
    let body := le 2 aSESSION ++ (if msg = mREADSEG then zeros 6 else [0, 0])
    ydpSend carrier { cls := 0x0C, dest := src, tag := tag, msg := msg, flags := 1, body := body, auth := .none } s
  else s

/-! ## Session opening -/

/-- REFUSE (table *Session opening*). -/
def refuse (carrier src tag code : Nat) (s : State) : State :=
  ydpSend carrier { cls := 0x04, dest := src, tag := tag, msg := mOPEN, flags := 1, body := [0x0F, 0] ++ le 2 code, auth := .none } s

/-- K of a principal: the key of its handle, current and with HMAC usage. -/
def princK (s : State) (p : Nat) : Option Bytes :=
  match useKey s (princKey s p) uHMAC with
  | .key k => some k
  | _ => none

/-- The slot for a new challenge: the principal's own challenge, a free one, else its own session (R633, R636). -/
def sessSlot (s : State) (p : Nat) : Option Nat :=
  let find (f : Sess → Bool) : Option Nat := (List.range 8).find? (fun i => f (s.sess i))
  match find (fun x => decide (x.st = .challenged ∧ x.princ = p)) with
  | some i => some i
  | none =>
    match find (fun x => decide (x.st = .closed)) with
    | some i => some i
    | none => find (fun x => decide (x.princ = p ∧ x.st ≠ .closed))

/-- The challenge of an accepted phase 1 (R629–R631). -/
def challenge (carrier src tag p i : Nat) (np nd : Bytes) (s : State) : State :=
  let s := if (s.sess i).st = .openSess ∨ (s.sess i).st = .suspended then sessClose i 3 s else s
  let h := princKey s p
  let nonces := np ++ nd ++ le 1 p ++ le 1 src ++ le 1 (nodeId s)
  let s := setSess i (fun _ =>
    { st := .challenged, princ := p, carrier := carrier, node := src, handle := h, nonces := nonces, tag := tag, chalAt := s.now }) s
  ydpSend carrier { sess := some i, cls := 0x04, dest := src, tag := tag, msg := mOPEN, flags := 1,
                    body := [2, BitVec.ofNat 8 i, 0, 0] ++ nd ++ np, auth := .key h } s

/-- Phase 1 (R632, R633). -/
def phase1 (carrier id : Nat) (p : Bytes) (s : State) : State :=
  let src := id / 2 ^ 8 % 256
  let tag := id % 256
  let b := p.drop 4
  let pr := dfld b 1 1
  if dfld p 2 1 ≠ 20 ∨ dfld b 2 1 ≠ 1 then protErr s
  else
    let k := if pr < 16 then princK s pr else none
    let bad := match k with | some key => !tagOk key id 0 p | none => false
    if bad then authFail s
    else
      let kind := kindOf s pr
      if k.isNone ∨ enabledOf s pr = false ∨ (kind ≠ 3 ∧ kind ≠ 4) ∨ (princNode s pr ≠ 0 ∧ princNode s pr ≠ src)
          ∨ (kind = 3 ∧ carrier = 2) then refuse carrier src tag aSESSION s
      else
        match sessSlot s pr with
        | none => refuse carrier src tag aBUSY s
        | some i =>
          match drbgNow 16 s with
          | (some nd, s) => challenge carrier src tag pr i (slice b 4 16) nd s
          | (none, s) => refuse carrier src tag aHWFAULT s

/-- 500 ms from phase 2 to phase 3 (R634). -/
def phase3Limit : Nat := 500000000

/-- CONFIRM: keys, counters 0, older sessions of the principal superseded (R629, R631, R635). -/
def confirmSess (i : Nat) (key : Bytes) (s : State) : State :=
  let x := s.sess i
  let s := (List.range 8).foldl (fun s j =>
    let y := s.sess j
    if j ≠ i ∧ y.princ = x.princ ∧ (y.st = .openSess ∨ y.st = .suspended) then sessClose j 3 s else s) s
  let s := setSess i (fun x => { x with
    st := .openSess, inKey := hmac256 key ([0x50] ++ x.nonces), outKey := hmac256 key ([0x44] ++ x.nonces), txctr := 0, rxctr := 0,
    tagFails := 0, heardAt := s.now }) s
  let s := s.onGing (fun g => { g with opened := upd g.opened x.princ (satInc 32) })
  ydpSend x.carrier { sess := some i, cls := 0x04, dest := x.node, tag := x.tag, msg := mOPEN, flags := 1,
                      body := [4, BitVec.ofNat 8 i, 0, 0] } (s.raise rGING_INTSTAT 0)

/-- Phase 3: the challenge of this carrier, node and TAG (R629, R634). -/
def phase3 (carrier id : Nat) (p : Bytes) (s : State) : State :=
  let src := id / 2 ^ 8 % 256
  let tag := id % 256
  let b := p.drop 4
  let i := dfld b 1 1
  let x := s.sess i
  if dfld p 2 1 ≠ 20 then protErr s
  else if 8 ≤ i ∨ x.st ≠ .challenged ∨ x.carrier ≠ carrier ∨ x.node ≠ src ∨ x.tag ≠ tag ∨ x.chalAt + phase3Limit < s.now then s
  else
    match useKey s x.handle uHMAC with
    | .key key =>
      if !tagOk key id 0 p then authFail s
      else if slice b 4 16 = (hmac256 key ([0x52] ++ x.nonces)).take 16 then confirmSess i key s
      else refuse carrier src tag aSESSION (setSess i (fun x => { x with st := .closed }) s)
    | _ => refuse carrier src tag aSESSION (setSess i (fun x => { x with st := .closed }) s)

/-! ## Reception -/

/-- A frame of an open session: tag and counter, then its message; REKEY_REQ and the close at the counter's end
(R622–R626). -/
def sessFrame (i : Nat) (verified : Bool) (id : Nat) (p : Bytes) (env : ProcEnv) (tie : Bool) (s : State) : State :=
  let x := s.sess i
  let l := dfld p 1 1
  if !verified then
    let s := setSess i (fun x => { x with tagFails := x.tagFails + 1 }) (authFail s)
    if 32 ≤ x.tagFails + 1 then sessClose i 4 s else s
  else if 128 ≤ (l + 256 - x.rxctr % 256) % 256 then s
  else
    let c := rxCount x.rxctr l
    let s := setSess i (fun x => { x with rxctr := c + 1, heardAt := s.now }) s
    let s := if rekeyDue (c + 1) then rekeyReq i s else s
    let m : Msg := { carrier := .sess i, princ := x.princ, tag := id % 256, msg := dfld p 0 1, flags := dfld p 3 1,
                     body := slice p 4 (dfld p 2 1), env := env }
    let s := sessMsg i m tie s
    if c = 0xFFFFFFFF ∧ (s.sess i).st = .openSess then sessClose i 1 s else s

/-- A YDP frame from a carrier: CAN0, CAN1 or the UART. -/
def ydpFrame (carrier id : Nat) (p : Bytes) (env : ProcEnv) (tie : Bool) (s : State) : State :=
  let cls := id / 2 ^ 24 % 32
  let src := id / 2 ^ 8 % 256
  let msg := dfld p 0 1
  let flags := dfld p 3 1
  if !frameOk cls p then protErr s
  else if msg = mOPEN then
    let phase := dfld p 4 1
    if phase = 1 then phase1 carrier id p s else if phase = 3 then phase3 carrier id p s else s
  else
    match sessOf s carrier src id p with
    | some (i, ok) => sessFrame i ok id p env tie s
    | none => sessionless carrier src (id % 256) msg flags s

/-- A frame on CAN `n`, as the controller receives it: YDP's, firmware's, or nobody's (R607, R613, R614, R616). -/
def canReceive (n : Nat) (fr : CanFrame) (ts : Nat) (env : ProcEnv) (tie : Bool) (s : State) : State :=
  if !(s.can n).onBus then s
  else
    let s := rxGood n (nodeClash n fr s)
    if fr.rtr then s
    else if isYdp s fr then ydpFrame n (fr.id % 2 ^ 29) fr.data env tie s
    else fwReceive n fr ts s

/-- A frame on the UART while UARTYDP is 1 (R661). -/
def uartReceive (id : Nat) (p : Bytes) (env : ProcEnv) (tie : Bool) (s : State) : State :=
  if s.flag rGING_GCTRL 24 ∧ id / 2 ^ 16 % 256 = nodeId s then ydpFrame 2 (id % 2 ^ 29) p env tie s else s

/-- A frame on carrier 0, 1 (CAN) or 2 (UART). -/
def frameIn (carrier id : Nat) (p : Bytes) (env : ProcEnv) (tie : Bool) (s : State) : State :=
  if carrier < 2 then
    canReceive carrier { id := id % 2 ^ 29, data := p } (Config.freeNat s.freeCtr % 65536) env tie s.fresh
  else uartReceive id p env tie s

/-! ## Expiries and closes -/

/-- PHASE_3_TIMEOUT (R634). -/
def phase3Timeout (i : Nat) (s : State) : State :=
  let x := s.sess i
  if x.st = .challenged ∧ x.chalAt + phase3Limit ≤ s.now then setSess i (fun x => { x with st := .closed }) s else s

/-- IDLE_EXPIRY: 60 s without an accepted peer frame (R638). -/
def idleExpiry (i : Nat) (s : State) : State :=
  let x := s.sess i
  if x.st = .openSess ∧ x.heardAt + 60000000000 ≤ s.now then sessClose i 2 s else s

/-- SUSPEND_EXPIRY: 10 s in SUSPENDED (table *Session states*). -/
def suspendExpiry (i : Nat) (s : State) : State :=
  let x := s.sess i
  if x.st = .suspended ∧ x.suspAt + suspLimit ≤ s.now then sessClose i 6 s else s

/-- SESS[s].CLOSE.GO closes with reason REQUESTED (R638). -/
def sessCloseGo (i : Nat) (s : State) : State :=
  let x := s.sess i
  if x.st = .openSess ∨ x.st = .suspended then sessClose i 0 s else s

/-- FWNOTIFY: EVENT below 0x8000 is ignored (register FWNOTIFY, R656). -/
def fwNotify (w : Word) (s : State) : State :=
  if bits w 31 16 < 0x8000 then s else notify (bits w 31 16) (bits w 15 0) s

/-! ## Mailbox -/

/-- The other slot that holds a transaction of this TAG (R686). -/
def mboxOther (s : State) (k tag : Nat) : Option Nat :=
  (List.range 4).find? (fun j => decide (j ≠ k ∧ s.pcie.slots.getD j none = some tag))

/-- A response that carries an abort code alone. -/
def mboxCode (k tag msg code : Nat) (s : State) : State := mboxSend k (mboxMsg msg tag 1 (le 2 code ++ [0, 0])) s

/-- The message in REQ[k], rung by MBDB (R682–R691). -/
def mboxRing (k : Nat) (env : ProcEnv) (tie : Bool) (s : State) : State :=
  let h := s.load (reqBuf k) 8
  let msg := dfld h 0 1
  let tag := dfld h 1 1
  let flags := dfld h 2 1
  let len := dfld h 4 2
  let busy := s.pcie.slots.getD k none
  let m : Msg := { carrier := .mbox k, princ := 1, tag := tag, msg := msg, flags := flags, body := s.load (reqBuf k + 8) len, env := env }
  if !s.reached ∨ 4 ≤ k then s
  else if 4088 < len ∨ dfld h 3 1 ≠ 0 ∨ dfld h 6 2 ≠ 0 ∨ 8 ≤ flags then
    if busy.isSome then s else mboxCode k tag msg aLENGTH s
  else if busy.isSome then
    if busy ≠ some tag then s
    else if (msg = mREADSEG ∨ msg = mWRITESEG) ∧ flags.testBit 1 = true then takeSegment m s
    else if msg = mBLOCKACK then blockAcked m s
    else s
  else if msg = mABORT then
    let j := mboxOther s k tag
    let (out, s) := match j with
      | some j => let r := abortTrans (.mbox j) tag tie s; (r.1, if r.1 = abABORTED then mboxFree j r.2 else r.2)
      | none => (if tie then abLATE else abNOTFOUND, s)
    let s := s.onDict (fun d => { d with aborts := satInc 32 d.aborts })
    mboxSend k (mboxMsg mABORT tag 1 [BitVec.ofNat 8 out, 0]) s
  else if opens msg flags then
    if (mboxOther s k tag).isSome then mboxCode k tag msg aSTATE s
    else msgRequest m (s.onPcie (fun p => { p with slots := upd p.slots k (fun _ => some tag) }))
  else s

/-- RSPVALID_CLEAR: the slot takes a response that waits (R683). -/
def rspClear (k : Nat) (s : State) : State :=
  let s := s.setFlag rBAR0_MBSTAT (8 + k) false
  match s.pcie.held.getD k none with
  | some m => mboxPut k m (s.onPcie (fun p => { p with held := upd p.held k (fun _ => none) }))
  | none => s

/-- POP of the notify queue (R690). -/
def notifyPop (s : State) : State := s.onPcie (fun p => { p with notifyQ := p.notifyQ.drop 1 })

end Sys2Proof.Machine
end

