-- ==== Sys2Proof/Machine/Requests.lean ====
section
/-!
DEFINITION. How a command that names a kind of request meets the request that waits: the request is served only when it is
of that kind. And the two follow-ups of finished work: a warm restart that waited for it, procedures that are DONE.
-/

namespace Sys2Proof.Machine

/-- Work has ended: a warm restart that drains may go on (R1082), procedures whose work is over are DONE (R586). -/
def wrapUp (s : State) : State := procSettle (warmAdvance s)

/-- Profile 6 gives P1 the right to write (R696). -/
def rdRight (s : State) : Bool := decide ((ofLe (heldVal s (okey 0x1126 0)) >>> 4) % 16 ∈ ([2, 3] : List Nat))

/-- The message code of a request descriptor: OP 2 writes, every other OP is answered as a read. -/
def descKind (s : State) (a : Nat) : Nat := if s.byte a = 2 then mWRITE else mREAD

/-- The message code of the request that waits, and whether it is a data segment (FLAGS bit 1); none when none waits. -/
def reqKind (s : State) (r : ReqIn) : Option (Nat × Bool) :=
  match r with
  | .loc => s.dict.localQ.head?.map (fun a => (descKind s a, false))
  | .card => s.cards.preq.head?.map (fun e => (descKind s e.1, false))
  | .mbox k => some ((s.byte (reqBuf k.val)).toNat, (s.byte (reqBuf k.val + 2)).toNat.testBit 1)
  | .ydp _ _ p => some (dfld p 0 1, (dfld p 3 1).testBit 1)

/-- The request that waits is taken up, whatever it is. A gated Gingham, controller or endpoint takes none (R965). -/
def dispatchReq (r : ReqIn) (env : ProcEnv) (tie : Bool) (s : State) : State :=
  match r with
  | .loc => serveLocal env s
  | .card => serveCard env s
  | .mbox k => if s.gated 0 11 then s else mboxRing k.val env tie s
  | .ydp c id p =>
    if s.gated 2 4 || (decide (c.val < 2) && s.gated 2 (5 + c.val)) then s else frameIn c.val id.toNat p env tie s

/-- A request of the message codes `msgs`, as an init or as a data segment, is taken up; any other one waits on. -/
def takeReq (msgs : List Nat) (seg : Bool) (r : ReqIn) (env : ProcEnv) (tie : Bool) (s : State) : State :=
  match reqKind s r with
  | some (m, d) => if msgs.contains m && (d == seg || !(m == mREADSEG || m == mWRITESEG)) then dispatchReq r env tie s else s
  | none => s

/-- A SESSION_OPEN frame of phase 1 or 3. -/
def takeOpen (phase : Nat) (c : Fin 3) (id : BitVec 29) (p : Bytes) (s : State) : State :=
  if dfld p 0 1 = mOPEN ∧ dfld p 4 1 = phase then dispatchReq (.ydp c id p) {} false s else s

end Sys2Proof.Machine
end

