-- ==== Sys2Proof/Machine/Irq.lean ====
section
/-!
DEFINITION. Serge's core-private units (R847–R851, R863–R872, R894–R898): interrupt sources and levels, end of interrupt,
software sources, the four timers, the watchdog's service, the core fault block and the spill-engine registers; what
core-private registers read as.
-/

namespace Sys2Proof.Machine

/-! ## Interrupt sources -/

/-- The sources of the table *Interrupt sources*; any other is never asserted (R870). -/
def srcListed (n : Nat) : Bool :=
  decide (n ≤ 4 ∨ (8 ≤ n ∧ n ≤ 11) ∨ (16 ≤ n ∧ n ≤ 24) ∨ (32 ≤ n ∧ n ≤ 38) ∨ (40 ≤ n ∧ n ≤ 49) ∨ n = 56 ∨ n = 57 ∨
    n = 59 ∨ n = 60 ∨ (64 ≤ n ∧ n ≤ 66) ∨ (72 ≤ n ∧ n ≤ 76) ∨ (80 ≤ n ∧ n ≤ 103) ∨ (128 ≤ n ∧ n ≤ 255))

/-- Some flag of an INTSTAT register, enabled in its INTEN, within bits `hi:lo` (R863). -/
def flagged (s : State) (stat en hi lo : Nat) : Bool := bits (s.rd stat &&& s.rd en) hi lo != 0

/-- The clock enable of the block that asserts a source; a gated block's source is not pending (R966). -/
def srcGate (n : Nat) : Option (Nat × Nat) :=
  if 16 ≤ n ∧ n ≤ 24 then some (0, 1)
  else if n = 32 then some (0, 2)
  else if n = 33 then some (0, 3)
  else if n = 34 then some (0, 4)
  else if n = 35 then some (0, 5)
  else if n = 36 then some (0, 6)
  else if n = 37 then some (0, 7)
  else if n = 10 then some (0, 0)
  else if n = 40 ∨ n = 49 then some (0, 9)
  else if 41 ≤ n ∧ n ≤ 48 then some (1, n - 41)
  else if n = 56 ∨ n = 57 then some (2, n - 56)
  else if n = 59 ∨ n = 60 then some (2, n - 57)
  else if 64 ≤ n ∧ n ≤ 66 then some (2, n - 60)
  else if n = 72 then some (0, 11)
  else if n = 74 then some (0, 10)
  else none

/-- The block of source `n` asserts it (R863, R868; the sources' own tables). The service UART, GPIO, the sensors and the
OSPI controller have no interrupt registers in the spec and assert nothing; the RNG has none either. -/
def srcAsserted (s : State) (n : Nat) : Bool :=
  if n < 4 then s.flag (rTIMER_STAT n) 0 && s.flag (rTIMER_CTRL n) 2
  else if n = 4 then s.flag rTWEED_WDSTAT 0 && s.flag rTWEED_WDCTRL 2
  else if n = 8 then flagged s rTWEED_CLKINT rTWEED_CLKINTEN 7 0 || flagged s rTWEED_STKNEW rTWEED_STKNEWEN 7 0
  else if n = 9 then flagged s rFELT_FINTSTAT rFELT_FINTEN 7 0
  else if n = 10 then s.flag rFUSE_STAT 2
  else if n = 11 then flagged s rACC_INTSTAT rACC_INTEN 11 0
  else if n = 16 then flagged s rCANVAS_INTSTAT rCANVAS_INTEN 2 0
  else if 17 ≤ n ∧ n ≤ 24 then flagged s rCANVAS_INTSTAT rCANVAS_INTEN (n - 9) (n - 9)
  else if n = 32 then flagged s rMUSLIN_INTSTAT rMUSLIN_INTEN 31 0
  else if n = 33 then flagged s rLINEN_INTSTAT rLINEN_INTEN 31 0
  else if n = 34 then flagged s rDIGEST_INTSTAT rDIGEST_INTEN 31 0
  else if n = 35 then flagged s rCIPHER_INTSTAT rCIPHER_INTEN 31 0
  else if n = 36 then flagged s rPK_INTSTAT rPK_INTEN 31 0
  else if n = 37 then flagged s rKEYSTORE_INTSTAT rKEYSTORE_INTEN 31 0
  else if n = 40 then flagged s rTWILL_INTSTAT rTWILL_INTEN 31 0
  else if 41 ≤ n ∧ n ≤ 48 then flagged s (rTWILL_CHINTSTAT (n - 41)) (rTWILL_CHINTEN (n - 41)) 31 0
  else if n = 49 then flagged s rTWILL_JINTSTAT rTWILL_JINTEN 31 0
  else if n = 56 ∨ n = 57 then flagged s (rCHAM_INTSTAT (n - 56)) (rCHAM_INTEN (n - 56)) 31 0
  else if n = 59 ∨ n = 60 then flagged s (rPERC_INTSTAT (n - 59)) (rPERC_INTEN (n - 59)) 31 0
  else if n = 64 then flagged s rGING_INTSTAT rGING_INTEN 31 0
  else if n = 65 ∨ n = 66 then flagged s (rGING_CINTSTAT (n - 65)) (rGING_CINTEN (n - 65)) 31 0
  else if n = 72 then flagged s rPCIE_INTSTAT rPCIE_INTEN 31 0
  else if n = 74 then flagged s rDENG_INTSTAT rDENG_INTEN 31 0
  else if 128 ≤ n then s.flag (rIC_SRC n) 16
  else false

/-- A source is pending (R863, R966). -/
def srcPending (s : State) (n : Nat) : Bool :=
  srcAsserted s n && (match srcGate n with | some (r, b) => !s.gated r b | none => true)

/-- The enabled sources with their priorities, ascending. A source that the register file does not list is disabled. -/
def srcEnabled (s : State) : List (Nat × Nat) :=
  s.regs.filterMap (fun e =>
    if 0xE0000000 ≤ e.1 ∧ e.1 < 0xE0000400 ∧ bit e.2 8 = true then some ((e.1 - 0xE0000000) / 4, bits e.2 3 0) else none)

/-- CURLVL.LEVEL. -/
def curLevel (s : State) : Nat := s.fld rIC_CURLVL 3 0

/-- The interrupt to take, with its priority: highest priority, then lowest number, among the eligible sources (R864). -/
def nextIrq (s : State) : Option (Nat × Nat) :=
  ((srcEnabled s).filter (fun e => decide (curLevel s < e.2) && srcPending s e.1)).foldl (fun best e =>
    match best with
    | none => some e
    | some b => if b.2 < e.2 then some e else some b) none

/-- Some source is pending and enabled (R828). -/
def irqWakes (s : State) : Bool := (srcEnabled s).any (fun e => srcPending s e.1)

/-- CURLVL from a level and the depth of the stack. -/
def curlvlWord (level depth : Nat) : Word := field 3 0 level ||| field 11 8 depth

/-- Levels and ACTIVE on taking source `n` at priority `p` (R865). -/
def pushLevel (n p : Nat) (s : State) : State :=
  let lv := curLevel s
  let s := s.onSerge (fun c => { c with levels := lv :: c.levels, taken := n :: c.taken })
  s.wr rIC_CURLVL (curlvlWord p s.serge.levels.length)

/-- EOI: the stack pops into CURLVL, the source taken last is no longer ACTIVE; ignored with an empty stack (R866). -/
def eoi (s : State) : State :=
  match s.serge.levels with
  | [] => s
  | l :: ls => (s.onSerge (fun c => { c with levels := ls, taken := c.taken.drop 1 })).wr rIC_CURLVL (curlvlWord l ls.length)

/-- SWISET and SWICLR: numbers below 128 are ignored (R868). -/
def swi (n : Nat) (b : Bool) (s : State) : State := if 128 ≤ n ∧ n < 256 then s.setFlag (rIC_SRC n) 16 b else s

/-! ## Timers -/

/-- A count between 0 and LOAD: where a running timer stands (notes/assumptions/52.md). -/
def timerFree (n : Nat) (s : State) : Word := loWord (s.freeWord.toNat % ((s.rd (rTIMER_LOAD n)).toNat + 1))

/-- A write of CTRL: EN from 0 to 1 loads COUNT; clearing EN stops it, and on the edge at which COUNT reaches 0 (`tie`)
EXPIRED is set first (R847, R851). -/
def timerCtrl (n : Nat) (w : Word) (tie : Bool) (s : State) : State :=
  let was := s.flag (rTIMER_CTRL n) 0
  let s := s.wr (rTIMER_CTRL n) (w &&& 0x0000FF07#32)
  if was = false ∧ bit w 0 = true then s.wr (rTIMER_COUNT n) (s.rd (rTIMER_LOAD n))
  else if was = true ∧ bit w 0 = false then
    if tie then (s.setFlag (rTIMER_STAT n) 0 true).wr (rTIMER_COUNT n) 0#32
    else (s.wr (rTIMER_COUNT n) (timerFree n s)).fresh
  else s

/-- TIMER_EXPIRY: COUNT reaches 0; a periodic timer goes on from LOAD, a one-shot timer stops (R848–R850). -/
def timerExpiry (n : Nat) (s : State) : State :=
  if s.flag (rTIMER_CTRL n) 0 then
    let s := s.setFlag (rTIMER_STAT n) 0 true
    if s.flag (rTIMER_CTRL n) 1 then s.wr (rTIMER_COUNT n) (s.rd (rTIMER_LOAD n))
    else (s.setFlag (rTIMER_CTRL n) 0 false).wr (rTIMER_COUNT n) 0#32
  else s

/-! ## Watchdog -/

/-- The watchdog's reset with its reason in WDSTAT (R895). -/
def wdReset (reason : Nat) (s : State) : State :=
  let s := s.setFld rTWEED_WDSTAT 2 1 reason
  assertReset 3 (setSticky 4 8 (s.rd rTWEED_WDSTAT).toNat s)

/-- A write of WDSERVICE: 0xA5C3, then 0x5A3C within 64 core cycles (106 ns) and after WIN / 16 of TIMEOUT, restarts the
counter with the settings written since; too early, or any other value, resets (R894, R895, R897). -/
def wdService (v : Nat) (s : State) : State :=
  let c := s.serge
  if s.flag rTWEED_WDCTRL 0 = false then s
  else if v = 0xA5C3 then s.onSerge (fun c => { c with wdKey := some s.now })
  else if v = 0x5A3C then
    match c.wdKey with
    | none => s
    | some k =>
      let s := s.onSerge (fun c => { c with wdKey := none })
      if 320 < 3 * (s.now - k) then s
      else if 16 * (s.now - c.wdAt) < c.wdWin * c.wdTimeout * 1000000 then wdReset 1 s
      else s.onSerge (fun c => { c with wdAt := s.now, wdTimeout := s.fld rTWEED_WDCTRL 31 16, wdWin := s.fld rTWEED_WDCTRL 7 4 })
  else wdReset 2 (s.onSerge (fun c => { c with wdKey := none }))

/-- The count, on a clock within ±2 %, may have reached `num / 4` of TIMEOUT. -/
def wdReached (s : State) (num : Nat) : Bool :=
  s.flag rTWEED_WDCTRL 0 && decide (98 * num * s.serge.wdTimeout * 1000000 ≤ 400 * (s.now - s.serge.wdAt))

/-- WATCHDOG_TIMEOUT (R895). -/
def wdExpiry (s : State) : State := if wdReached s 4 then wdReset 0 s else s

/-- WATCHDOG_WARNING: three quarters of TIMEOUT (R896). -/
def wdWarning (s : State) : State := if wdReached s 3 then s.setFlag rTWEED_WDSTAT 0 true else s

/-- A write of WDCTRL: ignored when locked; EN cannot be cleared in FIELD and RMA; enabling starts the count (R897). -/
def wdCtrlWrite (w : Word) (s : State) : State :=
  if s.flag rTWEED_WDCTRL 1 then s
  else
    let w := if s.locked then setBit w 0 true else w
    let was := s.flag rTWEED_WDCTRL 0
    let old := s.rd rTWEED_WDCTRL
    let t := if 10 ≤ bits w 31 16 then bits w 31 16 else bits old 31 16
    let s := s.wr rTWEED_WDCTRL (field 31 16 t ||| (w &&& 0x000000F7#32))
    if was = false ∧ bit w 0 = true then
      s.onSerge (fun c => { c with wdAt := s.now, wdKey := none, wdTimeout := t, wdWin := bits w 7 4 })
    else s

/-! ## Core-private registers -/

/-- WINSTAT and WSTAT. -/
def winStat (c : Serge) : Word := field 3 0 c.cwp ||| field 7 4 c.oldest ||| field 11 8 c.count ||| field 16 16 c.tw.toNat

/-- What a core-private register reads as; a running timer's COUNT is free between 0 and LOAD. -/
def coreView (s : State) (a : Nat) : Word :=
  if a < 0xE0000400 then
    let n := (a - 0xE0000000) / 4
    if srcListed n then
      setBit (setBit (s.rd a) 16 (srcPending s n)) 17 (s.serge.taken.contains n)
    else 0#32
  else if a = rSPILL_WSTAT then winStat s.serge
  else
    match (List.range 4).find? (fun n => decide (a = rTIMER_COUNT n)) with
    | some n => if s.flag (rTIMER_CTRL n) 0 then timerFree n s else s.rd a
    | none => s.rd a

/-- A write of a register by its fields' types (R16, R19). -/
def plainWrite (a : Nat) (w : Word) (s : State) : State :=
  match regAt a with
  | some r => s.wr a (r.write (s.rd a) w)
  | none => s

/-- A write of SERRINFO: clearing VALID ends what a STOREERR was taken for (R883). -/
def serrWrite (w : Word) (s : State) : State :=
  let s := plainWrite rCFAULT_SERRINFO w s
  if bit w 0 then s.onSerge (fun c => { c with storeErrTaken := false }) else s

/-- LOWWSP becomes the current WSP, whatever is written (table *Spill-engine registers*). -/
def lowWspWrite (s : State) : State := s.wr rSPILL_LOWWSP (s.rd rSPILL_WSP)

/-- A write of a core-private register. -/
def coreWrite (a : Nat) (w : Word) (env : WriteEnv) (s : State) : State :=
  if a < 0xE0000400 then if srcListed ((a - 0xE0000000) / 4) then plainWrite a w s else s
  else if a = rIC_EOI then eoi s
  else if a = rIC_SWISET then swi (bits w 7 0) true s
  else if a = rIC_SWICLR then swi (bits w 7 0) false s
  else if a = rCFAULT_SERRINFO then serrWrite w s
  else if a = rSPILL_LOWWSP then lowWspWrite s
  else
    match (List.range 4).find? (fun n => decide (a = rTIMER_CTRL n)) with
    | some n => timerCtrl n w env.tie s
    | none => plainWrite a w s

end Sys2Proof.Machine
end

