-- ==== Sys2Proof/Machine/Bus.lean ====
section
/-!
DEFINITION. The registers as a master on the bus, or the host through BAR0 and BAR2, reads and writes them: gated blocks (R965),
64-bit pairs (R22), write-only and self-clearing fields with the action that a write starts, and every other register by the
types of its fields (R16, R19).
-/

namespace Sys2Proof.Machine

/-! ## Blocks -/

/-- The clock-enable bits whose gate cuts the register at `a` off (table *Enable bits*, R965). -/
def blocksOf (a : Nat) : List (Nat × Nat) :=
  if within 0x40020000 0x100 a 1 then [(0, 0)]
  else if within 0x40040000 0x10000 a 1 then [(0, 1)]
  else if within 0x40050000 0x10000 a 1 then [(0, 2)]
  else if within 0x40060000 0x10000 a 1 then [(0, 3)]
  else if within 0x40070000 0x10000 a 1 then [(0, 4)]
  else if within 0x40080000 0x10000 a 1 then [(0, 5)]
  else if within 0x40090000 0x10000 a 1 then [(0, 6)]
  else if within 0x400A0000 0x10000 a 1 then [(0, 7)]
  else if within 0x40150000 0x10000 a 1 then [(0, 8)]
  else if within 0x400B1000 0x8000 a 1 then [(0, 9), (1, (a - 0x400B1000) / 0x1000)]
  else if within 0x400B0000 0x10000 a 1 then [(0, 9)]
  else if within 0x40110000 0x10000 a 1 then [(0, 10)]
  else if within 0x400F0000 0x10000 a 1 then [(0, 11)]
  else if within 0x40100000 0x10000 a 1 then [(0, 12)]
  else if within 0x40120000 0x10000 a 1 then [(0, 13)]
  else if within 0x40130000 0x10000 a 1 then [(0, 14)]
  else if within 0x40140000 0x10000 a 1 then [(0, 15)]
  else if within 0x400C0000 0x400 a 1 then [(2, (a - 0x400C0000) / 0x200)]
  else if within 0x400D0000 0x200 a 1 then [(2, 2 + (a - 0x400D0000) / 0x100)]
  else if within 0x400E1000 0x2000 a 1 then [(2, 4), (2, 5 + (a - 0x400E1000) / 0x1000)]
  else if within 0x400E0000 0x10000 a 1 then [(2, 4)]
  else if bar0 ≤ a then [(0, 11)]
  else []

/-- The register's block is gated. -/
def regGated (s : State) (a : Nat) : Bool := (blocksOf a).any (fun b => s.gated b.1 b.2)

/-- The register's block lost its defined state (R962). -/
def regLost (s : State) (a : Nat) : Bool := (blocksOf a).any (fun b => s.tweed.lost.contains b)

/-! ## Reads -/

/-- The high word of the 64-bit value whose low word is at `a` (R22). -/
def pairHigh (a : Nat) : Option Nat :=
  if a ∈ [rCANVAS_COMMITCNT_LO, rLINEN_DEVSEQ_LO, rLINEN_ANCSEQ_LO, rDIGEST_JOBCNT_LO, rCIPHER_JOBCNT_LO, rRNG_RESEEDCNT_LO,
      rPK_JOBCNT_LO, rTWILL_LOSTCNT_LO, rTWILL_LSN_LO, rTWILL_CKLSN_LO, rTWILL_JWEAR_LO, rDENG_REQCNT_LO, rCHAM_XBYTES_LO,
      rCHAM_OLDEST_LO, rFELT_EVT_LO, rFELT_MONO_LO, rFELT_RTC_LO, rFELT_SLEWREM_LO, rTWEED_DIAGCNT_LO] then some (a + 4)
  else if (arr a (rMUSLIN_PCNT_PKT_LO 0) 4 32).isSome || (arr a (rLINEN_SEQ_LO 0) 64 8).isSome ||
      (arr a (rTWILL_READS_LO 0) 8 0x1000).isSome || (arr a (rTWILL_PROGS_LO 0) 8 0x1000).isSome ||
      (arr a (rTWILL_ERASES_LO 0) 8 0x1000).isSome || (arr a (rTWILL_CORRBITS_LO 0) 8 0x1000).isSome ||
      (arr a (rTWILL_NSLOW_LO 0) 16 0x20).isSome || (arr a (rTWILL_NSWP_LO 0) 16 0x20).isSome ||
      (arr a (rPCIE_RD_WRPTR_LO 0) 8 0x100).isSome || (arr a (rPCIE_RD_OLDEST_LO 0) 8 0x100).isSome then some (a + 4)
  else none

/-- The registers that a read of `a` latches with it: the high word of a pair, POS with FRAME (R62), the other words of a chain
head with its first. -/
def latchedBy (a : Nat) : List Nat :=
  match pairHigh a with
  | some h => [h]
  | none =>
    if a = rCANVAS_FRAME then [rCANVAS_POS]
    else if (arr a (rLINEN_HEAD 0 0) 64 0x20).isSome || a == rLINEN_DEVHEAD 0 then (List.range 7).map (fun k => a + 4 * (k + 1))
    else []

/-- Values latched, each under its register's address; an earlier value goes. -/
def latch (l : List (Nat × Word)) (s : State) : State :=
  { s with latches := l ++ s.latches.filter (fun e => !(l.map Prod.fst).contains e.1) }

/-- A register that only takes writes, all of it: it reads 0 (R16). -/
def writeOnly (a : Nat) : Bool :=
  match regAt a with
  | some r => r.fields.all (fun x => x.ty == .wo || x.ty == .w1s)
  | none => false

/-- A read of a listed register: the value, and what the read does. A gated block reads 0 (R965); one that lost its state reads
anything (R962); a latched word is answered once (R22). -/
def regRead (a : Nat) (s : State) : Word × State :=
  if regGated s a then (0#32, s)
  else if regLost s a then (s.freeWord, s.fresh)
  else if writeOnly a then (0#32, s)
  else if a = rRNG_OUT then
    let s := outRead s
    (s.rd rRNG_OUT, s)
  else
    match arr a (rPERC_RXFIFO 0) 2 0x100 with
    | some i => (regView s a, setCSlot i (fun x => { x with rx := x.rx.drop 1 }) s)
    | none =>
      match s.latches.lookup a with
      | some w => (w, { s with latches := s.latches.filter (fun e => e.1 != a) })
      | none =>
        let v := regView s a
        let s := if a = rOSPI_XIPHIT ∨ a = rOSPI_XIPMISS ∨ a = rPCIE_LINKSTAT ∨ a = rPCIE_AERSTAT then s.fresh else s
        (v, latch ((latchedBy a).map (fun h => (h, regView s h))) s)

/-! ## Writes, block by block -/

/-- A write of Canvas's CTRL: its fields, and the edges of EN (R108, R110). -/
def canvasCtrl (w : Word) (env : WriteEnv) (s : State) : State :=
  let was := s.flag rCANVAS_CTRL 0
  let s := plainWrite rCANVAS_CTRL (setBit w 0 was) s
  if bit w 0 && !was then canvasEnable s.now env.lf s
  else if was && !bit w 0 then canvasDisable s.now env.lf s
  else s

/-- Canvas. -/
def wrCanvas (a : Nat) (w : Word) (env : WriteEnv) (s : State) : State :=
  if a = rCANVAS_CTRL then canvasCtrl w env s
  else if a = rCANVAS_SLOTUPD then if bit w 0 then slotApply s else s
  else plainWrite a w s

/-- A write of a door's register: CFG has its own rule, the ring's addresses change only while EN is 0 (R130). -/
def doorWrite (d off : Nat) (w : Word) (s : State) : State :=
  let a := rMUSLIN_DOOR_RINGLO d + off
  if off = 0x10 then writeDoorCfg d w s
  else if off < 0x10 then if (s.door d).en then s else plainWrite a w s
  else s

/-- Muslin. -/
def wrMuslin (a : Nat) (w : Word) (s : State) : State :=
  if a = rMUSLIN_CUSTCTL then if bit w 16 then inval (bits w 5 0) (bit w 8) s else s
  else if within 0x40050800 0x800 a 1 then doorWrite ((a - 0x40050800) / 0x20) ((a - 0x40050800) % 0x20) w s
  else
    match arr a (rMUSLIN_PORTCFG 0) 4 4 with
    | some p =>
      match regAt a with
      | some r => portCfgWrite p (r.write (s.rd a) w) s
      | none => s
    | none =>
      match arr a (rMUSLIN_CUSTSTAT 0) 64 4 with
      | some n => if bit w 27 then setCust n (fun c => { c with crcErr := false }) s else s
      | none => plainWrite a w s

/-- LINEN.CMD: its three W1S bits, lowest first. -/
def linenCmd (w : Word) (s : State) : State :=
  let s := if bit w 0 then anchorRequest true s else s
  let s := if bit w 1 then epochRequest { reason := .request } s else s
  if bit w 2 then timemap s else s

/-- Linen. -/
def wrLinen (a : Nat) (w : Word) (s : State) : State :=
  if a = rLINEN_CMD then linenCmd w s
  else if a = rLINEN_KWCMD then
    let s := plainWrite a w s
    if bit w 31 then keywrap (bits w 5 0) (bits w 9 8) (bits w 13 12) (s.fld rLINEN_KWSRC 15 0) s else s
  else plainWrite a w s

/-- A key-store command by its OP code (table *Key-store commands*); a reserved OP does nothing. -/
def ksOp (op slot arg : Nat) (s : State) : State :=
  match op with
  | 1 => ksCommand (ksAlloc slot) s
  | 2 => ksCommand (ksZeroize arg) s
  | 3 => ksCommand (ksNarrow arg) s
  | 4 => ksCommand (ksGenerate slot arg) s
  | 5 => ksCommand (ksImport arg) s
  | 6 => ksCommand (ksKeymove slot arg) s
  | 7 => ksCommand (ksRestore slot arg) s
  | _ => s

/-- A write of KEYSTORE.CMD with GO. -/
def ksIssue (op slot arg : Nat) (s : State) : State :=
  ksOp op slot arg (s.wr rKEYSTORE_CMD (field 26 24 op ||| field 23 16 slot ||| field 15 0 arg))

/-- The key store. -/
def wrKeys (a : Nat) (w : Word) (s : State) : State :=
  if a = rKEYSTORE_CMD then
    if bit w 31 then ksIssue (bits w 26 24) (bits w 23 16) (bits w 15 0) s else plainWrite a w s
  else
    match arr a (rKEYSTORE_IMPWIN 0) 16 4 with
    | some k => s.onKeys (fun x => { x with impwin := upd x.impwin k (fun _ => w) })
    | none => plainWrite a w s

/-- A digest or cipher unit's own registers, at `off` from its base. -/
def wrUnit (u : UnitId) (off a : Nat) (w : Word) (env : WriteEnv) (s : State) : State :=
  if off = 4 then submitJob u w.toNat s
  else if off = 0xC then abortJob u w.toNat env.tie s
  else plainWrite a w s

/-- The cipher unit with its context registers. -/
def wrCipher (a : Nat) (w : Word) (env : WriteEnv) (s : State) : State :=
  if a = rCIPHER_CTXSEL then
    if bit w 16 then ctxCommit (bits w 6 0) (bits w 12 10) (bit w 13) s else plainWrite a w s
  else
    match arr a (rCIPHER_CTXWIN 0) 16 4 with
    | some k => s.onCtx (fun x => { x with ctxwin := upd x.ctxwin k (fun _ => w) })
    | none => wrUnit .cipher (a - 0x40080000) a w env s

/-- The PK unit. -/
def wrPk (a : Nat) (w : Word) (env : WriteEnv) (s : State) : State :=
  if a = rPK_SUBMIT then pkSubmit w.toNat s
  else if a = rPK_ABORT then pkAbort w.toNat env.tie s
  else plainWrite a w s

/-- Twill: media, journal and channels. -/
def wrTwill (a : Nat) (w : Word) (env : WriteEnv) (s : State) : State :=
  if a = rTWILL_RDABORT then rdAbort (bits w 15 0) env.tie s
  else if a = rTWILL_RRDATA then rrWrite w s
  else if a = rTWILL_PAIRDATA then pairWrite (bits w 15 0) s
  else if a = rTWILL_CMD then if bit w 0 then ckRequest s else s
  else
    match arr a (rTWILL_OFFDATA 0) 8 0x1000 with
    | some n => offWrite n (bits w 7 0) s
    | none =>
      if (arr a (rTWILL_NSCFG 0) 16 0x20).isSome || (arr a (rTWILL_NSRES 0) 16 0x20).isSome then
        match regAt a with
        | some r => cptWr a (r.write (s.rd a) w) s
        | none => s
      else plainWrite a w s

/-- Tweed: reset, power, watchdog, clocks, sticky bits and the diagnostic log. -/
def wrTweed (a : Nat) (w : Word) (env : WriteEnv) (s : State) : State :=
  if a = rTWEED_RSTREQ then if bits w 15 0 = 0x5AFE then resetRequest 8 s else s
  else if a = rTWEED_PWRCMD then pwrCmd w s
  else if a = rTWEED_WAKECFG then feltPost a w s
  else if a = rTWEED_WDCTRL then wdCtrlWrite w s
  else if a = rTWEED_WDSERVICE then wdService (bits w 15 0) s
  else if a = rTWEED_PLLOUT then pllOutWrite w s
  else if a = rTWEED_STICKY7 then feltPost rFELT_FSTICKY (w &&& 0x7F#32) s
  else if a = rTWEED_DIAGPUSH then diagPush w s
  else
    match arr a (rTWEED_ROOTSEL 0) 41 4 with
    | some r => rootSelWrite r w env.idle s
    | none =>
      match arr a (rTWEED_CKEN 0) 7 4 with
      | some r => ckenWrite r w s
      | none =>
        match arr a (rTWEED_CLKOUTCFG 0) 2 4 with
        | some n => clkoutWrite n w s
        | none => plainWrite a w s

/-- Fuses, boot and the OSPI controller. -/
def wrBoot (a : Nat) (w : Word) (env : WriteEnv) (s : State) : State :=
  if a = rFUSE_PROGCMD then progCmd w env.temp s
  else if a = rBOOT_CONFIRM then confirm (bits w 15 0) env.temp s
  else if a = rBOOT_WARM then warmWrite w s
  else if a = rBOOT_CERTCMD then if bit w 0 then certGo s else s
  else plainWrite a w s

/-- The dictionary engine. -/
def wrDeng (a : Nat) (w : Word) (s : State) : State :=
  if a = rDENG_CTRL then fwServe (bit w 0) s
  else if a = rDENG_FWRSP then fwRsp w s
  else if a = rDENG_LSUBMIT then lsubmit w.toNat s
  else plainWrite a w s

/-- A CAN controller's registers, at `off` from its base. -/
def wrCan (n off a : Nat) (w : Word) (env : WriteEnv) (s : State) : State :=
  if off = 0 then cctrlWrite n w s
  else if off = 0x20 then txReq n w s
  else if off = 0x24 then txCancel n w env.late s
  else if off = 0x400 then if bit w 8 then rxPop n s else s
  else plainWrite a w s

/-- Gingham. -/
def wrGing (a : Nat) (w : Word) (env : WriteEnv) (s : State) : State :=
  if a = rGING_FWNOTIFY then fwNotify w s
  else if within 0x400E1000 0x2000 a 1 then wrCan ((a - 0x400E1000) / 0x1000) (a % 0x1000) a w env s
  else
    match arr a (rGING_SESS_CLOSE 0) 8 0x10 with
    | some i => if bit w 0 then sessCloseGo i s else s
    | none => plainWrite a w s

/-- A read door's registers, at `off` from its base, from Serge and from the host alike. -/
def readDoorWrite (r off : Nat) (w : Word) (env : WriteEnv) (s : State) : State :=
  let a := rPCIE_RD_CMD r + off
  if off = 0 then
    if bit w 0 then rdStart r (rdRight s) s
    else if bit w 1 then rdoorAbort r env.tie s
    else s
  else if off = 0x28 then rdPtrWrite r (w.toNat + 2 ^ 32 * (s.rd (rPCIE_RD_RDPTR_HI r)).toNat) s
  else if off = 0x2C then rdPtrWrite r ((s.rd (rPCIE_RD_RDPTR_LO r)).toNat + 2 ^ 32 * w.toNat) s
  else plainWrite a w s

/-- The PCIe block. -/
def wrPcie (a : Nat) (w : Word) (env : WriteEnv) (s : State) : State :=
  if within 0x400F1000 0x800 a 1 then readDoorWrite ((a - 0x400F1000) / 0x100) ((a - 0x400F1000) % 0x100) w env s
  else plainWrite a w s

/-- Chambray. -/
def wrCham (a : Nat) (w : Word) (env : WriteEnv) (s : State) : State :=
  if within 0x400C0000 0x400 a 1 then
    let p := (a - 0x400C0000) / 0x200
    let off := (a - 0x400C0000) % 0x200
    if off = 0 then
      let s := plainWrite a w s
      if bit w 1 then reinit p s else s
    else if off = 0x10 then cardCmd p w s
    else if off = 0x38 then if bit w 0 then pabort p env.cardTie s else s
    else plainWrite a w s
  else plainWrite a w s

/-- A write of SCTL: its fields, then DEACT, then ACTIVATE. -/
def sctlWrite (i : Nat) (w : Word) (s : State) : State :=
  let s := plainWrite (rPERC_SCTL i) w s
  let s := if bit w 2 then deact i s else s
  if bit w 1 then activate i s else s

/-- Percale. -/
def wrPerc (a : Nat) (w : Word) (env : WriteEnv) (s : State) : State :=
  if a = rPERC_AUTHCTL then authStart w s
  else if a = rPERC_PREQ then preqSubmit w.toNat s
  else
    match arr a (rPERC_AUTHRSP 0) 4 4 with
    | some k => authRsp k w s
    | none =>
      match arr a (rPERC_TXFIFO 0) 2 0x100 with
      | some i => txWrite i (w.setWidth 8) env.sent env.refused s
      | none =>
        match arr a (rPERC_SCTL 0) 2 0x100 with
        | some i => sctlWrite i w s
        | none => plainWrite a w s

/-- An access checker's registers: a locked region takes no write (R908); clearing FINFO.VALID clears the checker's bit of
ACC.INTSTAT, which mirrors it (R911). -/
def wrChecker (a : Nat) (w : Word) (s : State) : State :=
  let k := (a - 0x40030000) / 0x1000
  let off := a % 0x1000
  if off < 0x400 then
    if s.flag (rCHK_CFG k (off / 0x20)) 1 then s else plainWrite a w s
  else
    let s := plainWrite a w s
    if k < 12 ∧ a = rCHK_FINFO k ∧ bit w 31 = true then s.setFlag rACC_INTSTAT k false else s

/-- A write of a listed register by its address. -/
def blockWrite (a : Nat) (w : Word) (env : WriteEnv) (s : State) : State :=
  if a < 0x40010000 then wrTweed a w env s
  else if a < 0x40020000 then feltWrite a w env.inTime s
  else if a < 0x40030000 then wrBoot a w env s
  else if a < 0x40040000 then wrChecker a w s
  else if a < 0x40050000 then wrCanvas a w env s
  else if a < 0x40060000 then wrMuslin a w s
  else if a < 0x40070000 then wrLinen a w s
  else if a < 0x40080000 then wrUnit .digest (a - 0x40070000) a w env s
  else if a < 0x40090000 then wrCipher a w env s
  else if a < 0x400A0000 then wrPk a w env s
  else if a < 0x400B0000 then wrKeys a w s
  else if a < 0x400C0000 then wrTwill a w env s
  else if a < 0x400D0000 then wrCham a w env s
  else if a < 0x400E0000 then wrPerc a w env s
  else if a < 0x400F0000 then wrGing a w env s
  else if a < 0x40100000 then wrPcie a w env s
  else if a < 0x40110000 then wrBoot a w env s
  else if a < 0x40120000 then wrDeng a w s
  else plainWrite a w s

/-- A write of a register: a gated block ignores it (R965), and so does one that lost its state; what ended with it is settled. -/
def regWrite (a : Nat) (w : Word) (env : WriteEnv) (s : State) : State :=
  if regGated s a || regLost s a then s else wrapUp (blockWrite a w env s)

/-! ## The host's windows -/

/-- The message of a vector that is unmasked with its pending bit set goes out (R681). -/
def msixRelease (n : Nat) (s : State) : State :=
  let m := nth s.pcie.msix n
  if m.pending && !m.masked && s.pcie.msixEn && !s.pcie.msixAllMasked then
    msix n (s.onPcie (fun p => { p with msix := upd p.msix n (fun m => { m with pending := false }) }))
  else s

/-- A word of an MSI-X table entry: address low, address high, data, vector control with its mask bit 0. -/
def msixWrite (n k : Nat) (w : Word) (s : State) : State :=
  let put (g : Msix → Msix) (s : State) : State := s.onPcie (fun p => { p with msix := upd p.msix n g })
  match k with
  | 0 => put (fun m => { m with addr := m.addr / 2 ^ 32 * 2 ^ 32 + w.toNat / 4 * 4 }) s
  | 1 => put (fun m => { m with addr := m.addr % 2 ^ 32 + w.toNat * 2 ^ 32 }) s
  | 2 => put (fun m => { m with data := w.toNat }) s
  | _ => msixRelease n (put (fun m => { m with masked := bit w 0 }) s)

/-- What a word of the MSI-X table reads as. -/
def msixRead (s : State) (n k : Nat) : Word :=
  let m := nth s.pcie.msix n
  match k with
  | 0 => loWord m.addr
  | 1 => hiWord m.addr
  | 2 => loWord m.data
  | _ => field 0 0 m.masked.toNat

/-- A write of the host to BAR0 at `off`, an aligned word; an unimplemented location ignores it (R674, R677). -/
def bar0Write (off : Nat) (w : Word) (env : WriteEnv) (s : State) : State :=
  if regGated s (bar0 + off) then s
  else if off = 0x0004 then plainWrite (bar0 + off) w s
  else if off = 0x0100 then wrapUp ((List.range 4).foldl (fun s k => if bit w k then mboxRing k env.proc env.tie s else s) s)
  else if off = 0x0104 then (List.range 4).foldl (fun s k => if bit w (8 + k) then rspClear k s else s) s
  else if off = 0x0500 then if bit w 8 then notifyPop s else s
  else if within 0x1000 0x100 off 1 then doorbell ((off - 0x1000) / 4) (bits w 9 0) s
  else if within 0x2000 0x400 off 1 then msixWrite ((off - 0x2000) / 16) (off % 16 / 4) w s
  else if within 0x4000 0x4000 off 1 then s.store (bar0 + off) (le 4 w.toNat)
  else if within 0xC000 0x800 off 1 ∧ (regAt (off - 0xC000 + 0x400F1000)).isSome then
    wrapUp (readDoorWrite ((off - 0xC000) / 0x100) (off % 0x100) w env s)
  else s

/-- A write of the host to BAR2 at `off`: a door's registers, its doorbell, its vector (R675). -/
def bar2Write (off : Nat) (w : Word) (s : State) : State :=
  let n := off / 0x4000
  let o := off % 0x4000
  if 64 ≤ n ∨ regGated s (bar0 + off) = true ∨ s.gated 0 2 = true then s
  else if o = 0x18 then doorbell n (bits w 9 0) s
  else if o = 0x20 then vselWrite n (bits w 5 0) s
  else if o < 0x18 then doorWrite n o w s
  else s

/-- What the host reads at BAR0 `off` (R677). -/
def bar0Read (off : Nat) (s : State) : Word × State :=
  if regGated s (bar0 + off) then (0#32, s)
  else if within 0x2000 0x400 off 1 then (msixRead s ((off - 0x2000) / 16) (off % 16 / 4), s)
  else if within 0x3000 8 off 1 then
    (loWord (bitsOf (((s.pcie.msix.map Msix.pending).drop ((off - 0x3000) * 8)).take 32)), s)
  else if within 0x4000 0x8000 off 1 then (wordOf (s.load (bar0 + off) 4), s)
  else if within 0xC000 0x800 off 1 then
    let a := off - 0xC000 + 0x400F1000
    if (regAt a).isSome then regRead a s else (0#32, s)
  else if (regAt (bar0 + off)).isSome then regRead (bar0 + off) s
  else (0#32, s)

end Sys2Proof.Machine
end

