-- ==== Sys2Proof/Machine/Serge.lean ====
section
/-!
DEFINITION. Serge, the core (R780–R853): its registers through the windows, traps and returns, memory accesses with the store
buffer, the spill engine's operations, special registers. What one instruction does is in `Sys2Proof.Machine.Instructions`.
-/

namespace Sys2Proof.Machine

/-! ## Registers -/

/-- The window whose t and d registers an instruction sees (R787, R788). -/
def Serge.win (c : Serge) : Nat := if c.tw then 15 else c.cwp

/-- The place in the physical file that register field `r`, 1–31, reaches (table *Register fields*): c1–c7 at 1–7, then 16
registers for each window, t0–t7 before d0–d7. -/
def Serge.phys (c : Serge) (r : Nat) : Nat :=
  if r < 8 then r
  else if r < 16 then 16 * (if c.tw then c.cwp else (c.cwp + 14) % 15) + 8 + r
  else 16 * c.win + r - 8

/-- What a register never written holds: 0 (R786). -/
def rfDefault (_ : Nat) : Word := 0#32

/-- A register of the physical file. -/
def Serge.file (c : Serge) (i : Nat) : Word := sget rfDefault c.rf i

/-- A register of the physical file set. -/
def Serge.setFile (c : Serge) (i : Nat) (w : Word) : Serge := { c with rf := sset rfDefault c.rf i w }

/-- x[r]: c0 reads 0 (R787). -/
def Serge.x (c : Serge) (r : BitVec 5) : Word := if r = 0 then 0#32 else c.file (c.phys r.toNat)

/-- x[r] = w; a write of c0 is discarded (R787). -/
def Serge.setX (c : Serge) (r : BitVec 5) (w : Word) : Serge := if r = 0 then c else c.setFile (c.phys r.toNat) w

/-- A register read. -/
def State.x (s : State) (r : BitVec 5) : Word := s.serge.x r

/-- A register written. -/
def State.setX (r : BitVec 5) (w : Word) (s : State) : State := s.onSerge (fun c => c.setX r w)

/-- PSTAT as a word. -/
def Serge.pstat (c : Serge) : Word :=
  field 0 0 c.priv.toNat ||| field 1 1 c.ie.toNat ||| field 2 2 c.tw.toNat ||| field 3 3 c.ct.toNat

/-! ## The outcome of a part of an instruction -/

/-- What a part of an instruction leads to: a value and the state it leaves; a synchronous trap with its cause and EVAL; an
access to a unit whose registers the spec does not give. -/
inductive Act (α : Type) where
  | ok (a : α) (s : State)
  | trap (cause : Nat) (eval : Word) (s : State)
  | noUnit (s : State)

/-- One part after another. -/
def Act.bind {α β : Type} (r : Act α) (g : α → State → Act β) : Act β :=
  match r with
  | .ok a s => g a s
  | .trap c e s => .trap c e s
  | .noUnit s => .noUnit s

/-! ### Trap causes (table *Trap causes*) -/

/-- Codes of the synchronous causes. -/
def tFETCH : Nat := 0x01
def tILLEGAL : Nat := 0x02
def tPRIV : Nat := 0x03
def tTRAP : Nat := 0x04
def tALIGN : Nat := 0x05
def tACCESS : Nat := 0x06
def tBUSERR : Nat := 0x07
def tECC : Nat := 0x08
def tSPILLLIMIT : Nat := 0x09
def tFILLUNDER : Nat := 0x0A
def tSPILLFAULT : Nat := 0x0B
def tSTOREERR : Nat := 0x0C
def tINTERRUPT : Nat := 0x10
def tNMI : Nat := 0x11

/-- The vector of a cause, from TVEC. -/
def vectorOf (cause : Nat) : Word :=
  if cause = tINTERRUPT then 0x40#32 else if cause = tNMI then 0x80#32 else if cause = tSTOREERR then 0xC0#32 else 0#32

/-- Trap entry: EPC, EPSTAT with TW 0, ECAUSE and EVAL; PRIV 1, IE 0, TW 1; the cause's vector (R860, R862). -/
def enterTrap (cause : Nat) (eval : Word) (c : Serge) : Serge :=
  { c with epc := c.pc, epstat := ({ c with tw := false } : Serge).pstat, ecause := BitVec.ofNat 32 cause, eval := eval,
           priv := true, ie := false, tw := true, pc := c.tvec + vectorOf cause, cycles := c.cycles + 4, waiting := false }

/-- The window double fault: a safe halt, STK_WDF, DFPC and DFCAUSE, a full reset with cause 6 (R880, R881). -/
def doubleFault (cause : Nat) (s : State) : State :=
  let pc := s.serge.pc
  let s := s.onSerge (fun c => { c with halted := true, buf := [] })
  let s := (s.wr rCFAULT_DFPC pc).wr rCFAULT_DFCAUSE (field 7 0 cause ||| field 31 31 1)
  assertReset 6 (setSticky 0 0xFF pc.toNat s)

/-- A synchronous trap: taken, or with TW 1 a window double fault (R856, R857, R880). -/
def takeTrap (cause : Nat) (eval : Word) (s : State) : State :=
  if s.serge.tw then doubleFault cause s else s.onSerge (enterTrap cause eval)

/-- An instruction retires: the next PC, its cycles with those that waits added, INSTRET. -/
def retire (pc : Word) (cost : Nat) (s : State) : State :=
  (s.onSerge (fun c => { c with pc := pc, cycles := c.cycles + cost + Config.stallCycles s.freeCtr, instret := c.instret + 1 })).fresh

/-- Retires at the next instruction. -/
def next (cost : Nat) (s : State) : State := retire (s.serge.pc + 4) cost s

/-! ## Store buffer -/

/-- A store that failed after it left the buffer: SERRADDR and KIND of the first, VALID, COUNT (R882). -/
def storeErr (kind addr : Nat) (s : State) : State :=
  let s := if s.flag rCFAULT_SERRINFO 0 then s
    else
      let s := (s.wr rCFAULT_SERRADDR (loWord addr)).setFld rCFAULT_SERRINFO 3 1 kind
      (s.setFlag rCFAULT_SERRINFO 0 true).onSerge (fun c => { c with storeErrTaken := false })
  s.incFld rCFAULT_SERRINFO 31 16

/-- The outbound window at 0x7000_0000. -/
def inOutbound (a : Nat) : Bool := within 0x70000000 0x10000000 a 1

/-- The host address that the outbound window gives (R714). -/
def outboundAddr (s : State) (a : Nat) : Nat := (s.rd64 rPCIE_OBBASE_LO rPCIE_OBBASE_HI) / 2 ^ 28 * 2 ^ 28 + (a - 0x70000000)

/-- The outbound window is up (R714). -/
def outboundUp (s : State) : Bool := s.masters

/-- A buffered store is performed: core and stripe SRAM take it, the outbound window posts it or fails (R837, R882). -/
def performStore (e : StoreEnt) (s : State) : State :=
  if inOutbound e.addr then
    if outboundUp s then s.hostStore (outboundAddr s e.addr) (le e.size e.data.toNat) else storeErr 1 e.addr s
  else s.store e.addr (le e.size e.data.toNat)

/-- STORE_BUFFER_DRAIN: the oldest buffered store is performed (R837). -/
def drainOne (s : State) : State :=
  match s.serge.buf with
  | [] => s
  | e :: q => performStore e (s.onSerge (fun c => { c with buf := q }))

/-- The store buffer drains, 4 stores at most. -/
def drainAll (s : State) : State := drainOne (drainOne (drainOne (drainOne s)))

/-- STORE_FAILURE: the oldest buffered store fails after it has left the buffer, as an outbound write (kind 1) or as a byte or
halfword store whose word is uncorrectable, which stays as it was (kind 2, R882, R884). -/
def storeFailure (s : State) : State :=
  match s.serge.buf with
  | [] => s
  | e :: q =>
    let kind := if inOutbound e.addr then 1 else 2
    if kind = 2 ∧ 4 ≤ e.size then s else storeErr kind e.addr (s.onSerge (fun c => { c with buf := q }))

/-- A word read with ECC: counted, core SRAM in CFAULT, stripe SRAM in the checkers' common registers (R889, R891). -/
def noteEcc (e : Ecc) (a : Nat) (s : State) : State :=
  match e with
  | .ok => s
  | .corrected => if inCore a 1 then s.addSat rCFAULT_ECCCORR 1 else if inStripe a 1 then s.addSat rACC_STRCORR 1 else s
  | .uncorrectable => if inCore a 1 then s.addSat rCFAULT_ECCUNC 1 else if inStripe a 1 then s.addSat rACC_STRUNC 1 else s

/-! ## Data accesses -/

/-- The checker that serves an address of Serge, and the address that it checks. -/
def serveAt (s : State) (a : Nat) : Option (Nat × Nat) :=
  if inOutbound a then some (11, outboundAddr s a) else (checkerOf a).map (fun k => (k, a))

/-- A transaction of Serge. -/
def coreTxn (priv : Bool) (kind : Access) (a : Nat) : Txn := { master := 1, priv := priv, kind := kind, addr := a }

/-- A core-private address (R43, R854). -/
def inPrivate (a : Nat) : Bool := within 0xE0000000 0x10000000 a 1

/-- The request phase of a data access of `n` bytes: ALIGN, ACCESS, BUSERR, or its attributes (R833, R855, R856, R854). An
atomic asks for a read and a write. -/
def request (kinds : List Access) (a n : Nat) (s : State) : Act Attr :=
  let ev := loWord a
  if a % n ≠ 0 then .trap tALIGN ev s
  else if inPrivate a then
    if s.serge.priv = false then .trap tACCESS ev s
    else if n ≠ 4 ∨ (regAt a).isNone = true ∨ 2 ≤ kinds.length then .trap tBUSERR ev s
    else .ok { ord := 1 } s
  else
    match serveAt s a with
    | none => .trap tBUSERR ev s
    | some (k, at_) =>
      kinds.foldl (fun r kind => r.bind (fun _ s =>
        match transact k (coreTxn s.serge.priv kind at_) s with
        | (some attr, s) => .ok attr s
        | (none, s) => .trap tACCESS ev s)) (.ok {} s)

/-- A peripheral address (R44). -/
def inPeriph (a : Nat) : Bool := within 0x40000000 0x160000 a 1

/-- The service UART, GPIO and the sensors, whose registers the spec does not give. -/
def unitless (a : Nat) : Bool := within 0x40120000 0x30000 a 1

/-- A byte of memory as Serge reads it, behind the buffered stores that hold it, latest first (R840). Which granule of stripe
SRAM holds which stripe's bytes is not given: a byte there is free. -/
def byteSeen (s : State) (a : Nat) : Byte :=
  match s.serge.buf.reverse.find? (fun e => within e.addr e.size a 1) with
  | some e => (le e.size e.data.toNat).getD (a - e.addr) 0
  | none => if within 0x20001000 0xFFF000 a 1 then Config.freeByte (s.freeCtr * 2 ^ 32 + a) else s.byte a

/-- `n` bytes as Serge reads them. -/
def bytesSeen (s : State) (a : Nat) : Nat → Bytes
  | 0 => []
  | n + 1 => byteSeen s a :: bytesSeen s (a + 1) n

/-- The word of the key-store handle port (table *Handle port*): handle, ATTR, state, 0. -/
def handleWord (s : State) (off : Nat) : Word :=
  let n := off / 16
  let k := s.slot n
  match off % 16 / 4 with
  | 0 => field 15 0 (handleOf s n)
  | 1 => k.attr
  | 2 => match k.st with | .empty => 0#32 | .reserved => 1#32 | .loaded => 2#32
  | _ => 0#32

/-- `n` bytes from word-wide storage. -/
def lanesOf (w : Word) (a n : Nat) : Word := wordOf (slice (le 4 w.toNat) (a % 4) n)

/-- A byte of the flash as the execute-in-place window shows it (R1067). -/
def flashByte (s : State) (off : Nat) : Byte := sget flashDefault s.boot.flash off

/-- The value that an admitted read of `n` bytes returns: a bus error from its target, or the bytes, zero-extended. -/
def readTarget (a n : Nat) (env : CoreEnv) (s : State) : Act Word :=
  let ev := loWord a
  if inPrivate a then .ok (coreView s a) (if (List.range 4).any (fun k => decide (a = rTIMER_COUNT k)) then s.fresh else s)
  else if inCore a 1 || inStripe a 1 then
    match env.data with
    | .uncorrectable => .trap tECC ev (noteEcc env.data a s)
    | e => .ok (wordOf (bytesSeen s a n)) (noteEcc e a s).fresh
  else if within 0 0x80000 a 1 then .ok (wordOf ((List.range n).map (fun i => Config.romByte (a + i)))) s
  else if inMram a 1 then .ok (wordOf (s.load a n)) s
  else if unitless a then .noUnit s
  else if inPeriph a then
    if n ≠ 4 ∨ (regAt a).isNone = true then .trap tBUSERR ev s
    else
      let (w, s) := regRead a s
      .ok w s
  else if within 0x50000000 0x1000 a 1 then .ok (lanesOf (handleWord s (a - 0x50000000)) a n) s
  else if inOutbound a then
    match env.host with
    | some w => if outboundUp s then .ok (wordOf (fit n (le 4 w.toNat))) s else .trap tBUSERR ev s
    | none => .trap tBUSERR ev s
  else .ok (wordOf ((List.range n).map (fun i => flashByte s (a - 0x60000000 + i)))) s

/-- Whether a read waits for the store buffer: anything but a plain read of core or stripe SRAM (R839–R842). -/
def readDrains (a : Nat) (attr : Attr) : Bool := !(inCore a 1 || inStripe a 1) || attr.ord != 0

/-- A load of `n` bytes at `a`. -/
def loadAt (a n : Nat) (env : CoreEnv) (s : State) : Act Word :=
  (request [.read] a n s).bind (fun attr s => readTarget a n env (if readDrains a attr then drainAll s else s))

/-- The cycles of a load (table *Instruction timing*). -/
def loadCost (a : Nat) : Nat := if inStripe a 1 then 6 else if inMram a 1 then 12 else if inPeriph a then 8 else 2

/-- A store joins the buffer; a full buffer drains its oldest first (R837). -/
def bufferStore (e : StoreEnt) (s : State) : State :=
  let s := if 4 ≤ s.serge.buf.length then drainOne s else s
  s.onSerge (fun c => { c with buf := c.buf ++ [e] })

/-- An admitted store of `n` bytes: into the buffer with B 1, performed before the next instruction with B 0 or ORD 2 (R838,
R842); a register takes it in order; a target that takes no write answers with a bus error. -/
def writeTarget (a n : Nat) (w : Word) (attr : Attr) (env : CoreEnv) (s : State) : Act Unit :=
  let ev := loWord a
  if inPrivate a then .ok () (coreWrite a w env.io (drainAll s))
  else if inCore a 1 || inStripe a 1 then
    let e : StoreEnt := { addr := a, size := n, data := w, ord := attr.ord }
    if attr.b && attr.ord != 2 then .ok () (bufferStore e s)
    else if n < 4 ∧ env.data = .uncorrectable then .ok () (storeErr 2 a (noteEcc env.data a (drainAll s)))
    else .ok () (performStore e (drainAll s))
  else if inOutbound a then
    let e : StoreEnt := { addr := a, size := n, data := w, ord := attr.ord }
    if attr.b && attr.ord != 2 then .ok () (bufferStore e s)
    else if outboundUp s then .ok () (performStore e (drainAll s))
    else .trap tBUSERR ev (drainAll s)
  else if unitless a then .noUnit s
  else if inPeriph a then
    if n ≠ 4 ∨ (regAt a).isNone = true then .trap tBUSERR ev s
    else .ok () (regWrite a w env.io (drainAll s))
  else .trap tBUSERR ev s

/-- A store of the low `n` bytes of `w` at `a`. -/
def storeAt (a n : Nat) (w : Word) (env : CoreEnv) (s : State) : Act Unit :=
  (request [.write] a n s).bind (fun attr s => writeTarget a n w attr env s)

/-- SWAP and CAS: the old word at `a`, and `g` of it written when it gives a word; only core and stripe SRAM (R834, R836). -/
def atomicAt (a : Nat) (g : Word → Option Word) (env : CoreEnv) (s : State) : Act Word :=
  (request [.read, .write] a 4 s).bind (fun _ s =>
    if inCore a 4 || inStripe a 4 then
      (readTarget a 4 env (drainAll s)).bind (fun old s =>
        match g old with
        | some w => .ok old (s.store a (le 4 w.toNat))
        | none => .ok old s)
    else .trap tBUSERR (loWord a) s)

/-! ## Spill engine -/

/-- The spill unit of a frame in window `v`: a0–a7, then t0–t7 (R794). -/
def spillWords (c : Serge) (v : Nat) : List Word :=
  (List.range 8).map (fun k => c.file (16 * ((v + 14) % 15) + 16 + k)) ++ (List.range 8).map (fun k => c.file (16 * v + 8 + k))

/-- A spill unit put back into window `v`. -/
def fillWords (v : Nat) (l : List Word) (c : Serge) : Serge :=
  l.zipIdx.foldl (fun c p => c.setFile (if p.2 < 8 then 16 * ((v + 14) % 15) + 16 + p.2 else 16 * v + p.2) p.1) c

/-- WSP as a number. -/
def wsp (s : State) : Nat := (s.rd rSPILL_WSP).toNat

/-- 32-bit addition and subtraction on numbers. -/
def add32 (a b : Nat) : Nat := (a + b) % 2 ^ 32
def sub32 (a b : Nat) : Nat := (a + (2 ^ 32 - b % 2 ^ 32)) % 2 ^ 32

/-- The access of a spill or a fill at `a`: privileged, wholly within core SRAM, through its checker (R799, R800). -/
def spillAccess (kind : Access) (a : Nat) (s : State) : Act Unit :=
  if inCore a 64 then
    match transact 1 (coreTxn true kind a) s with
    | (some _, s) => .ok () s
    | (none, s) => .trap tSPILLFAULT (loWord a) s
  else .trap tSPILLFAULT (loWord a) s

/-- The oldest frame's unit stored at `a`, with WSP, SPILLCNT and LOWWSP (R795, table *Spill registers*). -/
def spillMem (a : Nat) (s : State) : State :=
  let s := s.store a ((spillWords s.serge s.serge.oldest).flatMap (fun w => le 4 w.toNat))
  let s := (s.wr rSPILL_WSP (loWord a)).addSat rSPILL_SPILLCNT 1
  if a < (s.rd rSPILL_LOWWSP).toNat then s.wr rSPILL_LOWWSP (loWord a) else s

/-- The oldest frame is no longer resident. -/
def dropOldest (c : Serge) : Serge := { c with oldest := (c.oldest + 1) % 15, count := c.count - 1 }

/-- The oldest frame is spilled below WSP, against a limit; WSP, OLDEST, COUNT follow (R795, R797, R800). A spill that faults
leaves its 64 bytes undefined. -/
def spillOldest (limit : Nat) (s : State) : Act Unit :=
  let a := sub32 (wsp s) 64
  if a < limit then .trap tSPILLLIMIT (s.rd rSPILL_WSP) s
  else
    match spillAccess .write a (drainAll s) with
    | .ok _ s => .ok () ((spillMem a s).onSerge dropOldest)
    | .trap c e s => .trap c e (if inCore a 64 then (s.store a (freeBytes s.freeCtr 64)).fresh else s)
    | .noUnit s => .noUnit s

/-- Registers of a window cleared (R801). -/
def clearWindow (v : Nat) (c : Serge) : Serge := { c with rf := c.rf.filter (fun e => !within (16 * v + 8) 16 e.1 1) }

/-- The ENTER operation with a frame of `f` bytes; the answer says whether a frame was spilled (R796). -/
def enterOp (f : Word) (limit : Nat) (s : State) : Act Bool :=
  let go (spilled : Bool) (s : State) : Act Bool :=
    .ok spilled (s.onSerge (fun c =>
      let sp := c.file 7
      let v := (c.cwp + 1) % 15
      ((clearWindow v { c with cwp := v, count := c.count + 1 }).setFile (16 * v + 15) sp).setFile 7 (sp - f)))
  if s.serge.count = 14 then (spillOldest limit s).bind (fun _ s => go true s) else go false s

/-- A unit becomes the frame below the current one, and the oldest. -/
def takeFrame (l : List Word) (c : Serge) : Serge :=
  let v := (c.cwp + 14) % 15
  { fillWords v l c with oldest := v }

/-- The frame below is filled from WSP (R795, R796, R800). -/
def fillBelow (env : CoreEnv) (s : State) : Act Unit :=
  let a := wsp s
  if (s.rd rSPILL_WSB).toNat < add32 a 64 then .trap tFILLUNDER (loWord a) s
  else
    (spillAccess .read a (drainAll s)).bind (fun _ s =>
      let s := noteEcc env.data a s
      if env.data = .uncorrectable then .trap tSPILLFAULT (loWord (a + 4 * env.which.val)) s
      else
        .ok () (((s.wr rSPILL_WSP (loWord (add32 a 64))).addSat rSPILL_FILLCNT 1).onSerge (takeFrame (wordsOf 16 (s.load a 64)))))

/-- The LEAVE operation; the answer says whether a frame was filled (R796). -/
def leaveOp (env : CoreEnv) (s : State) : Act Bool :=
  let go (filled : Bool) (s : State) : Act Bool :=
    .ok filled (s.onSerge (fun c => { c.setFile 7 (c.file (16 * c.cwp + 15)) with cwp := (c.cwp + 14) % 15 }))
  if s.serge.count = 1 then (fillBelow env s).bind (fun _ s => go true s)
  else go false (s.onSerge (fun c => { c with count := c.count - 1 }))

/-- WFLUSH: every resident frame but the current one is spilled, oldest first; the answer is how many (R804, R805). -/
def flushOp (limit : Nat) : Nat → Nat → State → Act Nat
  | 0, k, s => .ok k s
  | n + 1, k, s => if s.serge.count ≤ 1 then .ok k s else (spillOldest limit s).bind (fun _ s => flushOp limit n (k + 1) s)

/-! ## Special registers -/

/-- The special registers of the table that name state, with user-mode access to their read. -/
def srListed (n : Nat) : Bool := decide (n ≤ 5 ∨ n = 8 ∨ (0x10 ≤ n ∧ n ≤ 0x13) ∨ n = 0x20)
def srAnyMode (n : Nat) : Bool := decide (0x10 ≤ n)

/-- The latch of a counter's high word (R22). -/
def srLatch (n : Nat) : Nat := 0xF0000000 + n

/-- What MOVG reads (table *Special registers*); a read of a counter's low word latches its high word (R22). -/
def srRead (n : Nat) (s : State) : Word × State :=
  let c := s.serge
  let low (v : Nat) : Word × State := (loWord v, latch [(srLatch (n + 1), hiWord v)] s)
  let high (v : Nat) : Word × State :=
    match s.latches.lookup (srLatch n) with
    | some w => (w, { s with latches := s.latches.filter (fun e => e.1 != srLatch n) })
    | none => (hiWord v, s)
  match n with
  | 0 => (c.pstat, s)
  | 1 => (c.epc, s)
  | 2 => (c.epstat, s)
  | 3 => (c.ecause, s)
  | 4 => (c.eval, s)
  | 5 => (c.tvec, s)
  | 8 => (winStat c, s)
  | 0x10 => low c.cycles
  | 0x11 => high c.cycles
  | 0x12 => low c.instret
  | 0x13 => high c.instret
  | _ => (0x01100800#32, s)

/-- MOVS to PSTAT: TW is ignored, and IE while TW is 1 (R811, R812). -/
def pstatWrite (w : Word) (c : Serge) : Serge :=
  { c with priv := bit w 0, ie := if c.tw then c.ie else bit w 1, ct := bit w 3 }

/-- What MOVS writes; a read-only register ignores it (R16). -/
def srWrite (n : Nat) (w : Word) (s : State) : State :=
  s.onSerge (fun c =>
    match n with
    | 0 => pstatWrite w c
    | 1 => { c with epc := w &&& 0xFFFFFFFC#32 }
    | 2 => { c with epstat := w &&& 0xB#32 }
    | 5 => { c with tvec := w &&& 0xFFFFFF00#32 }
    | _ => c)

/-- TRET: PC from EPC, PSTAT from EPSTAT with TW 0 (R815). A STOREERR whose VALID still stands is due again (R883). -/
def trapReturn (c : Serge) : Serge :=
  { c with priv := bit c.epstat 0, ie := bit c.epstat 1, tw := false, ct := bit c.epstat 3, storeErrTaken := false }

/-! ## The boundary -/

/-- An NMI at a boundary (R872, R873). -/
def takeNmi (s : State) : State :=
  let m := s.rd rIC_NMIPEND
  (s.wr rIC_NMIPEND 0#32).onSerge (enterTrap tNMI m)

/-- A STOREERR at a boundary (R883). -/
def takeStoreErr (s : State) : State :=
  let a := s.rd rCFAULT_SERRADDR
  s.onSerge (fun c => { enterTrap tSTOREERR a c with storeErrTaken := true })

/-- An interrupt at a boundary (R865). -/
def takeIrq (n p : Nat) (s : State) : State := (pushLevel n p s).onSerge (enterTrap tINTERRUPT (BitVec.ofNat 32 n))

/-- An NMI is pending and TW is 0. -/
def nmiDue (s : State) : Bool := !s.serge.tw && s.rd rIC_NMIPEND != 0#32

/-- A STOREERR is pending and TW is 0 (R883). -/
def storeErrDue (s : State) : Bool := !s.serge.tw && s.flag rCFAULT_SERRINFO 0 && !s.serge.storeErrTaken

/-- The interrupt that may be taken now (R859, R864). -/
def irqDue (s : State) : Option (Nat × Nat) := if s.serge.ie && !s.serge.tw then nextIrq s else none

/-- The asynchronous trap of this boundary, taken first in the order of R859; none when the next instruction executes. -/
def boundaryTrap (s : State) : Option State :=
  if nmiDue s then some (takeNmi s)
  else if storeErrDue s then some (takeStoreErr s)
  else match irqDue s with | some (n, p) => some (takeIrq n p s) | none => none

/-- The core issues no instruction: no power or held in reset, halted, a warm restart under way, or in WFI with nothing to end it (R828). -/
def stalled (s : State) : Bool :=
  !s.live || s.serge.halted || decide (s.boot.warm ≠ .idle) ||
    (s.serge.waiting && !irqWakes s && !nmiDue s && !storeErrDue s)

/-- The fetch at PC: refused, no slave port, an error response, an uncorrectable word (R854). -/
def fetchCheck (env : CoreEnv) (s : State) : Act Unit :=
  let a := s.serge.pc.toNat
  match serveAt s a with
  | none => .trap tFETCH s.serge.pc s
  | some (k, at_) =>
    match transact k (coreTxn s.serge.priv .fetch at_) s with
    | (none, s) => .trap tFETCH s.serge.pc s
    | (some _, s) =>
      let s := noteEcc env.fetch a s
      if env.fetch = .uncorrectable ∨ (inOutbound a = true ∧ outboundUp s = false) then .trap tFETCH s.serge.pc s else .ok () s

end Sys2Proof.Machine
end

