-- ==== Sys2Proof/Machine/Events.lean ====
section
/-!
DEFINITION. Effects that a command names and that no block's file holds: a job whose source is uncorrectable, a stripe read
again from its tile, procedures, fuse operations, a lockstep mismatch, the scrubber, the first pass of either kind of export
job, a cause of link loss.
-/

namespace Sys2Proof.Machine

/-- A job whose lane reads an uncorrectable core SRAM word ends with BUS_ERR (R891, R910). -/
def jobFails (u : UnitId) (l : Nat) (s : State) : State :=
  match (s.unit u).running.find? (fun j => j.lane == l) with
  | none => s
  | some j => endJob u j.addr jBUS (dropJob u j.addr (s.addSat rCFAULT_ECCUNC 1))

/-- DIGEST_JOB_DONE and CIPHER_JOB_DONE; `ue`: the lane read an uncorrectable word of core SRAM. -/
def jobEnds (u : UnitId) (l : Nat) (ue : Bool) (s : State) : State := if ue then jobFails u l s else jobDone u l s

/-- STRIPE_ENCRYPT; `ue`: the address of a word of stripe SRAM that was uncorrectable and came from its journal tile instead,
which sets STK_SRAMUE (R892). -/
def encryptRead (jsn : Nat) (ue : Option Word) (s : State) : State :=
  match ue with
  | none => stripeEncrypt jsn s
  | some a => stripeEncrypt jsn (setSticky 5 11 a.toNat (s.addSat rACC_STRUNC 1))

/-- PK_JOB_DONE: the result is delivered; a KEYWRAP's key pair starts its exchange (R211, R319). -/
def pkJobDone (c : PkCheck) (s : State) : State := wrapUp (kwKeygenDone (pkDone c s))

/-- A procedure whose WRITE has been accepted runs (R585). -/
def procRow (key princ : Nat) (d : Bytes) (env : ProcEnv) (s : State) : State := wrapUp (runProc key princ d env s).2

/-- A fuse operation asked for through PROGDATA and PROGCMD with its KEY (R1050). -/
def fuseCommand (op addr : Nat) (data : Word) (temp : Int) (s : State) : State :=
  fuseStart op addr data temp (s.wr rFUSE_PROGDATA data)

/-- A lockstep mismatch, or a parity error of the register file: safe halt, sticky bits, a full reset with cause 4; in the last
breath it is deferred and the halt does not occur (R886, R887, table *Trap, lockstep and checker races*). -/
def lockstepMismatch (parity : Bool) (s : State) : State :=
  let s := setSticky 1 0xFF 0 s
  let s := if parity then setSticky 2 0xFF 0 s else s
  let s := if s.dying then s else s.onSerge (fun c => { c with halted := true, buf := [] })
  assertReset 4 s

/-- SCRUB: words of core and stripe SRAM that the scrubber corrected (R890). -/
def scrub (core stripe : Nat) (s : State) : State := (s.addSat rCFAULT_ECCCORR core).addSat rACC_STRCORR stripe

/-- INTERRUPT, NMI, STOREERR: taken at a boundary in the order of R859; nothing happens where another goes first, or none is
due. -/
def interruptRow (s : State) : State :=
  if stalled s || nmiDue s || storeErrDue s then s
  else match irqDue s with | some (n, p) => takeIrq n p s | none => s

/-- An NMI at a boundary with TW 0 (R872, R873). -/
def nmiRow (s : State) : State := if !stalled s && nmiDue s then takeNmi s else s

/-- A STOREERR at a boundary with TW 0 and no NMI (R859, R883). -/
def storeErrRow (s : State) : State := if !stalled s && !nmiDue s && storeErrDue s then takeStoreErr s else s

/-- TIMER_ENABLE: CTRL with EN, its other fields as given (R847). -/
def timerEnable (n : Nat) (w : Word) (s : State) : State := timerCtrl n (setBit w 0 true) false s

/-- LOCK: CFG with LOCK written to a region (R908). -/
def lockRegion (k r : Nat) (w : Word) (s : State) : State := wrChecker (rCHK_CFG k r) (setBit w 1 true) s

/-- FIRST_PASS_DONE of read door 0–7, or of the card export (R703). -/
def firstPassRow (id : Nat) (s : State) : State := if id < 8 then rdFirstPass id s else expFirstPass s

/-- LINK_LOSS by cause (R710). -/
def linkLossRow (c : LinkCause) (s : State) : State :=
  match c with
  | .perst => perstLow s
  | .down | .hotReset => linkDown s
  | .flr => flrStart s
  | .d3 => d3Enter s
  | .bmeCleared => bmeWrite false s

/-- LINK_UP with what the host then sets: Bus Master Enable, MSI-X Enable (R681, R713). -/
def linkUpRow (speed width : Nat) (bme msixEn : Bool) (s : State) : State :=
  let s := linkUp speed width s
  bmeWrite bme (s.onPcie (fun p => { p with msixEn := p.up && msixEn }))

/-- POP of a controller's firmware FIFO, or of the notify queue (R690). -/
def popRow (q : Option (Fin 2)) (s : State) : State :=
  match q with
  | some n => if s.gated 2 4 || s.gated 2 (5 + n.val) then s else rxPop n.val s
  | none => if s.gated 0 11 then s else notifyPop s

/-- WARM_RESTART, by object or by BOOT.WARM (R1082). -/
def warmRow (s : State) : State := if s.boot.warm = .idle then wrapUp (warmStart s) else s

/-- DEBUG_CHALLENGE (R1087). -/
def challengeRow (s : State) : State := (debugChallenge s).2.2

end Sys2Proof.Machine
end

