-- ==== Sys2Proof/Machine/Instructions.lean ====
section
/-!
DEFINITION. What Serge's instructions compute (tables *Register operations*, *Multiply and divide*, *Other operations*) and how
long they take (table *Instruction timing*), and the words that encode them (table *Formats*), which ILLEGAL and PRIV put into
EVAL.
-/

namespace Sys2Proof.Machine

/-! ## Encodings -/

/-- Format R3. -/
def encR (op : Nat) (rd rs1 rs2 : BitVec 5) (fn : Nat) : Word :=
  field 31 26 op ||| field 25 21 rd.toNat ||| field 20 16 rs1.toNat ||| field 15 11 rs2.toNat ||| field 10 0 fn

/-- Format I, and with rs1, rs2 in the register fields format B. -/
def encI (op : Nat) (rd rs1 : BitVec 5) (xop : Nat) (imm : BitVec 14) : Word :=
  field 31 26 op ||| field 25 21 rd.toNat ||| field 20 16 rs1.toNat ||| field 15 14 xop ||| field 13 0 imm.toNat

/-- Formats U and J. -/
def encU (op : Nat) (rd : BitVec 5) (imm : BitVec 20) : Word := field 31 26 op ||| field 25 21 rd.toNat ||| field 19 0 imm.toNat

/-- Format S. -/
def encS (rd rs1 : BitVec 5) (fn : Nat) (imm : BitVec 11) : Word :=
  field 31 26 0x3F ||| field 25 21 rd.toNat ||| field 20 16 rs1.toNat ||| field 15 11 fn ||| field 10 0 imm.toNat

/-- The word is an allocated instruction, with every reserved or unused field 0 (R818). -/
def allocated (w : Word) : Bool :=
  let op := bits w 31 26
  let rd := bits w 25 21
  let rs1 := bits w 20 16
  let rs2 := bits w 15 11
  let fn := bits w 10 0
  let xop := bits w 15 14
  let imm := bits w 13 0
  if op = 0 then decide (fn ≤ 0x10 ∨ (fn ≤ 0x17 ∧ rs2 = 0))
  else if op = 1 then decide (fn ≤ 7)
  else if op ≤ 7 then xop == 0
  else if op = 8 then imm / 32 == 0
  else if op = 9 ∨ op = 0xA then !bit w 20
  else if 0xC ≤ op ∧ op ≤ 0x14 then xop == 0
  else if op = 0x15 then fn == 0
  else if op = 0x18 then true
  else if op = 0x19 then decide (xop ≤ 1)
  else if op = 0x1A ∨ op = 0x1B then bits w 25 20 == 0
  else if op = 0x1C then xop == 0
  else if op = 0x1D then
    rd == 0 && rs1 == 0 && (xop == 0 || (xop == 1 && imm == 0) || xop == 2)
  else if op = 0x3F then
    match rs2 with
    | 0 => rd == 0 && rs1 == 0
    | 1 | 2 | 6 => rd == 0 && rs1 == 0 && fn == 0
    | 3 => rd == 0 && rs1 == 0 && fn / 8 == 0
    | 4 => rd == 0
    | 5 => rs1 == 0
    | _ => false
  else false

/-! ## Values -/

/-- 1 or 0. -/
def boolWord (b : Bool) : Word := if b then 1#32 else 0#32

/-- A shift amount: bits 4:0. -/
def shamtOf (w : Word) : Nat := w.toNat % 32

/-- Leading zeros, 32 for 0. -/
def clz (w : Word) : Word := if w = 0 then 32#32 else BitVec.ofNat 32 (31 - w.toNat.log2)

/-- Trailing zeros, 32 for 0. -/
def ctz (w : Word) : Word := BitVec.ofNat 32 (((List.range 32).find? (fun i => bit w i)).getD 32)

/-- Bits set. -/
def popc (w : Word) : Word := BitVec.ofNat 32 ((List.range 32).filter (fun i => bit w i)).length

/-- Byte order reversed. -/
def bswap (w : Word) : Word := wordOf (le 4 w.toNat).reverse

/-- A word as a number, signed or unsigned. -/
def asInt (sgn : Bool) (w : Word) : Int := if sgn then w.toInt else w.toNat

/-- Bits 63:32 of a product. -/
def mulHigh (s1 s2 : Bool) (a b : Word) : Word := hiWord (unsigned 64 (asInt s1 a * asInt s2 b))

/-- Quotients and remainders, with the corners of R821 and R822. -/
def divU (a b : Word) : Word := if b = 0 then 0xFFFFFFFF#32 else BitVec.ofNat 32 (a.toNat / b.toNat)
def remU (a b : Word) : Word := if b = 0 then a else BitVec.ofNat 32 (a.toNat % b.toNat)
def divS (a b : Word) : Word := if b = 0 then 0xFFFFFFFF#32 else BitVec.ofInt 32 (a.toInt.tdiv b.toInt)
def remS (a b : Word) : Word := if b = 0 then a else BitVec.ofInt 32 (a.toInt.tmod b.toInt)

/-- The bit length of a number. -/
def bitLen (n : Nat) : Nat := if n = 0 then 0 else n.log2 + 1

/-- Cycles of the MUL family (R830). -/
def mulCost (s : State) (b : Word) : Nat := if !s.serge.ct && decide (b.toNat < 2 ^ 16) then 2 else 3

/-- Cycles of the DIV and REM family (R830). -/
def divCost (s : State) (a b : Word) : Nat :=
  if s.serge.ct then 20 else if b = 0 then 4 else 4 + (bitLen a.toNat + 1) / 2

/-! ## Register operations -/

/-- rd takes a value that the state before gives, in so many cycles. -/
def aluTimed (rd : BitVec 5) (cost : State → Nat) (f : State → Word) (s : State) : Act Unit := .ok () (next (cost s) (s.setX rd (f s)))

/-- A register operation of fixed time. -/
def alu (rd : BitVec 5) (cost : Nat) (f : State → Word) (s : State) : Act Unit := aluTimed rd (fun _ => cost) f s

/-! ## Memory -/

/-- rs1 plus the sign-extended immediate. -/
def ea (rs1 : BitVec 5) (imm : BitVec 14) (s : State) : Nat := (s.x rs1 + imm.signExtend 32).toNat

/-- A load of `n` bytes with its extension. -/
def loadOp (rd rs1 : BitVec 5) (imm : BitVec 14) (n : Nat) (ext : Word → Word) (env : CoreEnv) (s : State) : Act Unit :=
  let a := ea rs1 imm s
  (loadAt a n env s).bind (fun w s => .ok () (next (loadCost a) (s.setX rd (ext w))))

/-- A store of the low `n` bytes of rd. -/
def storeOp (rd rs1 : BitVec 5) (imm : BitVec 14) (n : Nat) (env : CoreEnv) (s : State) : Act Unit :=
  (storeAt (ea rs1 imm s) n (s.x rd) env s).bind (fun _ s => .ok () (next 1 s))

/-- SWAP and CAS: `g` says what is written, from the state before and the old word. -/
def atomicOp (rd : BitVec 5) (addr : State → Nat) (g : State → Word → Option Word) (env : CoreEnv) (s : State) : Act Unit :=
  (atomicAt (addr s) (g s) env s).bind (fun t s => .ok () (next 4 (s.setX rd t)))

/-! ## Control flow -/

/-- The target of an offset in words (R819). -/
def target {n : Nat} (off : BitVec n) (s : State) : Word := s.serge.pc + (off.signExtend 32 <<< 2)

/-- A compare and branch. -/
def branchOp (off : BitVec 14) (taken : State → Bool) (s : State) : Act Unit :=
  .ok () (if taken s then retire (target off s) 3 s else next 1 s)

/-- JMP. -/
def jumpOp (off : BitVec 20) (s : State) : Act Unit := .ok () (retire (target off s) 2 s)

/-- CALL: d7 is the return address (R790). -/
def callOp (off : BitVec 20) (s : State) : Act Unit := .ok () (retire (target off s) 2 (s.setX 31 (s.serge.pc + 4)))

/-- JALR: the target is computed before rd is written (R827). -/
def jalrOp (rd rs1 : BitVec 5) (imm : BitVec 14) (s : State) : Act Unit :=
  .ok () (retire ((s.x rs1 + imm.signExtend 32) &&& 0xFFFFFFFC#32) 3 (s.setX rd (s.serge.pc + 4)))

/-! ## Windows -/

/-- A frame size: the immediate times 8. -/
def frameOf (imm : BitVec 14) : Word := imm.setWidth 32 <<< 3

/-- ILLEGAL with the instruction's word. -/
def illegal (w : Word) (s : State) : Act Unit := .trap tILLEGAL w s

/-- ENTER (R796–R798, R806). -/
def enterInstr (imm : BitVec 14) (s : State) : Act Unit :=
  if s.serge.tw then illegal (encI 0x1D 0 0 0 imm) s
  else (enterOp (frameOf imm) (s.rd rSPILL_WSL).toNat s).bind (fun spilled s => .ok () (next (if spilled then 19 else 1) s))

/-- LEAVE (R796, R798, R806). -/
def leaveInstr (env : CoreEnv) (s : State) : Act Unit :=
  if s.serge.tw then illegal (encI 0x1D 0 0 1 0) s
  else (leaveOp env s).bind (fun filled s => .ok () (next (if filled then 21 else 1) s))

/-- TDROP (R802, R803, R826). -/
def tdropInstr (imm : BitVec 14) (s : State) : Act Unit :=
  if !s.serge.tw then illegal (encI 0x1D 0 0 2 imm) s
  else
    (enterOp (frameOf imm) (sub32 (s.rd rSPILL_WSL).toNat 64) s).bind (fun spilled s =>
      let s := s.onSerge (fun c => { (c.setFile 4 c.epc).setFile 5 c.epstat with tw := false })
      .ok () (next (if spilled then 20 else 2) s))

/-- WFLUSH (R804–R806, R825). -/
def wflushInstr (s : State) : Act Unit :=
  if s.serge.tw then illegal (encS 0 0 6 0) s
  else if !s.serge.priv then .trap tPRIV (encS 0 0 6 0) s
  else (flushOp (s.rd rSPILL_WSL).toNat 14 0 s).bind (fun k s => .ok () (next (1 + 18 * k) s))

/-! ## System -/

/-- TRAP: EVAL is imm11 (R857). -/
def trapInstr (imm : BitVec 11) (s : State) : Act Unit := .trap tTRAP (imm.setWidth 32) s

/-- TRET: 3 cycles (R815, R816, R825, R862). -/
def tretInstr (s : State) : Act Unit :=
  if !s.serge.priv then .trap tPRIV (encS 0 0 1 0) s
  else
    let pc := s.serge.epc
    .ok () (retire pc 3 (s.onSerge trapReturn))

/-- WFI stalls until an interrupt is pending and enabled (R825, R828). -/
def wfiInstr (s : State) : Act Unit :=
  if !s.serge.priv then .trap tPRIV (encS 0 0 2 0) s
  else .ok () (next 1 (s.onSerge (fun c => { c with waiting := true })))

/-- FENCE: every kind of it is met when the store buffer has drained, since loads complete in order and nothing is prefetched
here; kinds 10:3 are reserved (R818, R843, R844). -/
def fenceInstr (imm : BitVec 11) (s : State) : Act Unit :=
  if 8 ≤ imm.toNat then illegal (encS 0 0 3 imm) s else .ok () (next 1 (drainAll s))

/-- MOVS (R809–R813). -/
def movsInstr (imm : BitVec 11) (rs1 : BitVec 5) (s : State) : Act Unit :=
  if !srListed imm.toNat then illegal (encS 0 rs1 4 imm) s
  else if !s.serge.priv then .trap tPRIV (encS 0 rs1 4 imm) s
  else .ok () (next (if imm = 0 then 2 else 1) (srWrite imm.toNat (s.x rs1) s))

/-- MOVG (R809, R810, R22). -/
def movgInstr (rd : BitVec 5) (imm : BitVec 11) (s : State) : Act Unit :=
  if !srListed imm.toNat then illegal (encS rd 0 5 imm) s
  else if !s.serge.priv && !srAnyMode imm.toNat then .trap tPRIV (encS rd 0 5 imm) s
  else
    let (w, s) := srRead imm.toNat s
    .ok () (next 1 (s.setX rd w))

end Sys2Proof.Machine
end

