-- ==== Sys2Proof/Machine/Guard.lean ====
section
/-!
DEFINITION. How a command's effect becomes its outcome: time, the blocks that must run, and for an instruction the boundary
before it and the trap that may end it.
-/

namespace Sys2Proof.Machine

/-- A command that acts whatever the device does. -/
def always (t : Nat) (g : State → State) (s : State) : Host.Outcome State Fault Refusal := .next (g (s.at t))

/-- A command of blocks, by their clock-enable bits. A device held in reset or without power, and a gated block, do nothing; a
block whose state is undefined faults (R962, R965). -/
def onUnits (t : Nat) (l : List (Nat × Nat)) (g : State → State) (s : State) : Host.Outcome State Fault Refusal :=
  let s := s.at t
  if !s.live || l.any (fun u => s.gated u.1 u.2) then .next s
  else if l.any (fun u => s.tweed.lost.contains u) then .fault .blockUndefined
  else .next (g s)

/-- What a part of an instruction leads to, as an outcome: a trap is taken (R857, R860, R880). -/
def Act.outcome (r : Act Unit) : Host.Outcome State Fault Refusal :=
  match r with
  | .ok _ s => .next s
  | .trap c e s => .next (takeTrap c e s)
  | .noUnit _ => .refused .unitNotGiven

/-- An instruction at a boundary: nothing while the core is stalled; a pending asynchronous trap in its place (R859); else its
fetch and its effect. -/
def issue (env : CoreEnv) (g : State → Act Unit) (s : State) : Host.Outcome State Fault Refusal :=
  let s := s.at env.t
  if stalled s then .next s
  else
    match boundaryTrap s with
    | some s => .next s
    | none =>
      let s := s.onSerge (fun c => { c with waiting := false })
      ((fetchCheck env s).bind (fun _ s => g s)).outcome

end Sys2Proof.Machine
end

