-- ==== Sys2Proof/Machine/CmdBoot.lean ====
section
/-!
DEFINITION. The meanings of fuses, lifecycle and boot, one definition per row of the opcode table.
-/

namespace Sys2Proof.Machine

/-- DATA (R1050): fuse operation DATA programs one data word with its code. -/
def execFuseData (t : Nat) (a : BitVec 10) (d : Word) (temp : Int) (s : State) : Host.Outcome State Fault Refusal :=
  onUnits t [(0, 0)] (fun s => fuseCommand 1 a.toNat d temp s) s

/-- CRITICAL (R1050): fuse operation CRITICAL programs bits of a lock word in three copies. -/
def execFuseCritical (t : Nat) (a : BitVec 10) (d : Word) (temp : Int) (s : State) : Host.Outcome State Fault Refusal :=
  onUnits t [(0, 0)] (fun s => fuseCommand 2 a.toNat d temp s) s

/-- THERMO (R1050): fuse operation THERMO advances a thermometer counter. -/
def execFuseThermo (t : Nat) (a : BitVec 10) (d : Word) (temp : Int) (s : State) : Host.Outcome State Fault Refusal :=
  onUnits t [(0, 0)] (fun s => fuseCommand 3 a.toNat d temp s) s

/-- GENROOT (R1054): fuse operation GENROOT programs ROOT from the DRBG. -/
def execGenroot (t : Nat) (temp : Int) (s : State) : Host.Outcome State Fault Refusal :=
  onUnits t [(0, 0)] (fun s => fuseCommand 4 0 0#32 temp s) s

/-- FUSE_PROGRAMMING_DONE (R1051): A fuse operation ends, with its read-back checked. -/
def execFuseProgrammingDone (t good : Nat) (part : Word) (s : State) : Host.Outcome State Fault Refusal :=
  onUnits t [(0, 0)] (fun s => wrapUp (fuseDone good part s)) s

/-- FUSE_RESENSE (R1048): A 20 °C temperature change re-senses words 0–127 and may set DRIFT. -/
def execFuseResense (t : Nat) (l : List Sense) (temp : Int) (s : State) : Host.Outcome State Fault Refusal :=
  onUnits t [(0, 0)] (fun s => fuseResense l temp s) s

/-- LIFECYCLE_ADVANCE (R1060): procedure 0xF001 programs the next C0 bit and resets. -/
def execLifecycleAdvance (t : Nat) (princ : BitVec 4) (target : BitVec 8) (s : State) : Host.Outcome State Fault Refusal :=
  onUnits t [] (fun s => procRow (okey 0xF001 0) princ.toNat (le 1 target.toNat) {} s) s

/-- CERTCMD_GO (R1063): A write of BOOT.CERTCMD.GO stores the certificate chain and programs CERTDIG. -/
def execCertcmdGo (t : Nat) (s : State) : Host.Outcome State Fault Refusal :=
  onUnits t [] (fun s => certGo s) s

/-- RECOVERY_BLOCK (R1070): A recovery image block arrives over the UART and is acknowledged. -/
def execRecoveryBlock (t : Nat) (d : Bytes) (crcOk : Bool) (s : State) : Host.Outcome State Fault Refusal :=
  onUnits t [] (fun s => recoveryBlock d crcOk s) s

/-- FW_OFFSET (R1077): object 0xF030:01 erases the inactive slot or sets the offset. -/
def execFwOffset (t : Nat) (v : Word) (s : State) : Host.Outcome State Fault Refusal :=
  onUnits t [] (fun s => (fwOffset v.toNat s).2) s

/-- FW_CHUNK (R1078): object 0xF030:02 programs bytes into the inactive slot. -/
def execFwChunk (t : Nat) (d : Bytes) (s : State) : Host.Outcome State Fault Refusal :=
  onUnits t [] (fun s => (fwChunk d s).2) s

/-- OSPI_OPERATION_DONE (R1075): an OSPI erase or program ends, and stalled fetches resume. -/
def execOspiOperationDone (t : Nat) (s : State) : Host.Outcome State Fault Refusal :=
  onUnits t [(0, 12)] (fun s => wrapUp (ospiDone s)) s

/-- FW_COMMIT (R1079): object 0xF030:03 verifies the inactive slot and writes a trial preference. -/
def execFwCommit (t : Nat) (princ : BitVec 4) (s : State) : Host.Outcome State Fault Refusal :=
  onUnits t [] (fun s => procRow (okey 0xF030 3) princ.toNat [] {} s) s

/-- CONFIRM (R1081): A write of BOOT.CONFIRM with KEY ends the trial and raises the rollback floor. -/
def execConfirm (t : Nat) (key : BitVec 16) (temp : Int) (s : State) : Host.Outcome State Fault Refusal :=
  onUnits t [] (fun s => confirm key.toNat temp s) s

/-- WARM_RESTART (R1082): object 0xF030:04 or BOOT.WARM halts Serge, writes GAP FWRESTART and reruns the ROM. -/
def execWarmRestart (t : Nat) (s : State) : Host.Outcome State Fault Refusal :=
  onUnits t [] (fun s => warmRow s) s

/-- DEBUG_CHALLENGE (R1087): A read of 0xF040:01 returns a fresh challenge. -/
def execDebugChallenge (t : Nat) (s : State) : Host.Outcome State Fault Refusal :=
  onUnits t [] (fun s => challengeRow s) s

/-- DEBUG_RESPONSE (R1089): A write of 0xF040:02 checks the signature and unlocks debug. -/
def execDebugResponse (t : Nat) (sig : Bytes) (s : State) : Host.Outcome State Fault Refusal :=
  onUnits t [] (fun s => (debugResponse sig s).2) s

/-- DIAGPUSH (R1106): A write of DIAGPUSH writes a FIRMWARE diagnostic entry, at most 1,000 per second. -/
def execDiagpush (t : Nat) (w : Word) (s : State) : Host.Outcome State Fault Refusal :=
  onUnits t [] (fun s => diagPush w s) s

/-- STANDING_RESET (R1100): A standing bit cleared while its condition holds is set again within 1 ms. -/
def execStandingReset (t : Nat) (n : BitVec 8) (s : State) : Host.Outcome State Fault Refusal :=
  onUnits t [] (fun s => standingReset n.toNat s) s

end Sys2Proof.Machine
end

