-- ==== Sys2Proof/Machine/CmdCanvas.lean ====
section
/-!
DEFINITION. The meanings of Canvas, one definition per row of the opcode table.
-/

namespace Sys2Proof.Machine

/-- REF_FRAME_START (R63): A reference frame start arrives, either an FS packet on the reference binding or a filtered
FSYNC_IN edge, and is qualified against the nominal period. -/
def execRefFrameStart (t : Nat) (lf : LaneFails) (s : State) : Host.Outcome State Fault Refusal :=
  onUnits t [(0, 1)] (fun s => refFrameStart s.now lf s) s

/-- FLYWHEEL_FRAME_START (R72): the flywheel period expires and Canvas generates a frame start in ACQUIRE, FLYWHEEL or PULLIN,
or under REFSEL FLYWHEEL. -/
def execFlywheelFrameStart (t : Nat) (lf : LaneFails) (s : State) : Host.Outcome State Fault Refusal :=
  onUnits t [(0, 1)] (fun s => flywheelFrameStart s.now lf s) s

/-- REFLOST_TAKEOVER (R71): no reference frame start arrives within 1.5 nominal periods: Canvas enters FLYWHEEL, generates a
frame start and writes GAP REFLOST. -/
def execReflostTakeover (t : Nat) (lf : LaneFails) (s : State) : Host.Outcome State Fault Refusal :=
  onUnits t [(0, 1)] (fun s => reflostTakeover s.now lf s) s

/-- FRAME_END (R81): frame end arrives, as a reference FE packet or as a synthesised end one nominal blanking before the next
frame start, and blanking begins. -/
def execFrameEnd (t : Nat) (lf : LaneFails) (s : State) : Host.Outcome State Fault Refusal :=
  onUnits t [(0, 1)] (fun s => canvasFrameEnd s.now lf s) s

/-- LINE_TICK (R58): LINE advances on a reference long packet or on a timed LINEPER or blanking tick, and armed slots at that
position fire. -/
def execLineTick (t : Nat) (lf : LaneFails) (s : State) : Host.Outcome State Fault Refusal :=
  onUnits t [(0, 1)] (fun s => lineTick s.now lf s) s

/-- COMMIT_POINT_TIMER (R99): the 1,000,000-fabric-cycle commit timer, or the backstop of R100, expires and makes a commit
point. -/
def execCommitPointTimer (t : Nat) (s : State) : Host.Outcome State Fault Refusal :=
  onUnits t [(0, 1)] (fun s => commitTimer s.now s) s

/-- FSYNC_OUT_FRAME_PULSE (R103): in mode FRAME, OFFSET microseconds after every DIV-th frame start, an FSYNC_OUT pulse
begins. -/
def execFsyncOutFramePulse (t : Nat) (n : Fin 2) (s : State) : Host.Outcome State Fault Refusal :=
  onUnits t [(0, 1)] (fun s => fsyncPulse n.val s) s

/-- PULSE_END (R104): WIDTH × 100 ns after a pulse begins, the output returns inactive. -/
def execPulseEnd (t : Nat) (n : Fin 32) (s : State) : Host.Outcome State Fault Refusal :=
  onUnits t [(0, 1)] (fun s => pulseEnd n.val s) s

/-- CANVAS_DISABLE (R108): A write that clears CANVAS.CTRL.EN runs the catch-up, closes the windows and holds FRAME and the
slots. -/
def execCanvasDisable (t : Nat) (lf : LaneFails) (s : State) : Host.Outcome State Fault Refusal :=
  onUnits t [(0, 1)] (fun s => canvasDisable s.now lf s) s

/-- CANVAS_ENABLE (R110): A write that sets CANVAS.CTRL.EN generates a frame start at once and enters ACQUIRE. -/
def execCanvasEnable (t : Nat) (lf : LaneFails) (s : State) : Host.Outcome State Fault Refusal :=
  onUnits t [(0, 1)] (fun s => canvasEnable s.now lf s) s

/-- APPLY (R95): A write of SLOTUPD.APPLY stages the slot set to apply at the next frame start. -/
def execApply (t : Nat) (s : State) : Host.Outcome State Fault Refusal :=
  onUnits t [(0, 1)] (fun s => slotApply s) s

end Sys2Proof.Machine
end

