-- ==== Sys2Proof/Machine/CmdCards.lean ====
section
/-!
DEFINITION. The meanings of the card blocks, one definition per row of the opcode table.
-/

namespace Sys2Proof.Machine

/-- INSERTION (R718): CD_N low for 100 ms counts as insertion and starts card initialisation. -/
def execInsertion (t : Nat) (p : Fin 2) (s : State) : Host.Outcome State Fault Refusal :=
  onUnits t [(2, p.val)] (fun s => insertion p.val s) s

/-- CARD_READY (R719): card initialisation completes, with mode selection and tuning, or the card ends FAILED. -/
def execCardReady (t : Nat) (p : Fin 2) (r : CardInit) (s : State) : Host.Outcome State Fault Refusal :=
  onUnits t [(2, p.val)] (fun s => cardReady p.val r s) s

/-- REMOVAL (R736): CD_N high for 2 µs runs the power-off order and aborts the transfer. -/
def execRemoval (t : Nat) (p : Fin 2) (s : State) : Host.Outcome State Fault Refusal :=
  onUnits t [(2, p.val)] (fun s => wrapUp (removal p.val s)) s

/-- CMD (R740): A write of the port CMD with GO issues a raw card command, or gives LOCKED. -/
def execCmd (t : Nat) (p : Fin 2) (w : Word) (s : State) : Host.Outcome State Fault Refusal :=
  onUnits t [(2, p.val)] (fun s => cardCmd p.val (setBit w 31 true) s) s

/-- CARD_TRANSFER_DONE (R742): A card transfer's last data CRC or busy end latches its completion, or a CRC error triggers a
retune and retry. -/
def execCardTransferDone (t : Nat) (p : Fin 2) (out : CardOut) (s : State) : Host.Outcome State Fault Refusal :=
  onUnits t [(2, p.val)] (fun s => wrapUp (cardDone p.val out s)) s

/-- PABORT (R742): A write of PABORT resolves a firmware card transfer to LATE or ABORTED. -/
def execPabort (t : Nat) (p : Fin 2) (tie : Option CardOut) (s : State) : Host.Outcome State Fault Refusal :=
  onUnits t [(2, p.val)] (fun s => wrapUp (pabort p.val tie s)) s

/-- BUSY_TIMEOUT (R734): DAT0 stays low past its bound and the card is FAILED. -/
def execBusyTimeout (t : Nat) (p : Fin 2) (s : State) : Host.Outcome State Fault Refusal :=
  onUnits t [(2, p.val)] (fun s => wrapUp (busyTimeout p.val s)) s

/-- RETUNE_TRIGGER (R725): the RETUNE_S timer or a temperature change of RETUNE_DT starts a retune. -/
def execRetuneTrigger (t : Nat) (p : Fin 2) (temp : Int) (s : State) : Host.Outcome State Fault Refusal :=
  onUnits t [(2, p.val)] (fun s => retuneTrigger p.val temp s) s

/-- RETUNE_STEP (R724): one 8-tap tuning step runs in a CAL window or a command gap. -/
def execRetuneStep (t : Nat) (p : Fin 2) (mask : Nat) (temp : Int) (s : State) : Host.Outcome State Fault Refusal :=
  onUnits t [(2, p.val)] (fun s => retuneStep p.val mask temp s) s

/-- REINIT (R735): A write of PCTL.REINIT restarts card initialisation. -/
def execReinit (t : Nat) (p : Fin 2) (s : State) : Host.Outcome State Fault Refusal :=
  onUnits t [(2, p.val)] (fun s => reinit p.val s) s

/-- SLEEP (R722): port B puts the cartridge to sleep after SLEEPS idle seconds. -/
def execSleep (t : Nat) (s : State) : Host.Outcome State Fault Refusal :=
  onUnits t [(2, 1)] (fun s => cardSleep s) s

/-- EXPORT_START (R745): object 0x5801 latches the export parameters and starts an export job to a card. -/
def execExportStart (t : Nat) (princ : BitVec 4) (s : State) : Host.Outcome State Fault Refusal :=
  onUnits t [] (fun s => procRow (okey 0x5801 0) princ.toNat [] {} s) s

/-- EXPORT_ABORT (R753): object 0x5803 resolves an export to LATE or ABORTED. -/
def execExportAbort (t : Nat) (princ : BitVec 4) (tie : Bool) (s : State) : Host.Outcome State Fault Refusal :=
  onUnits t [] (fun s => wrapUp (exportAbort princ.toNat tie s).2) s

/-- EXPORT_COMPLETION (R750): the record block's busy period ends, latching the export, and the job proceeds to PROTECTING. -/
def execExportCompletion (t : Nat) (s : State) : Host.Outcome State Fault Refusal :=
  onUnits t [] (fun s => wrapUp (expLatch s)) s

/-- COURT_COPY (R759): object 0x5804 arms, or by a second principal sets PERM_WRITE_PROTECT. -/
def execCourtCopy (t : Nat) (princ : BitVec 4) (target : BitVec 8) (s : State) : Host.Outcome State Fault Refusal :=
  onUnits t [] (fun s => procRow (okey 0x5804 0) princ.toNat (le 1 target.toNat) {} s) s

/-- COURT_COPY_TIMEOUT (R760): 60 s without a second run ends COURT_COPY with TIMEOUT. -/
def execCourtCopyTimeout (t : Nat) (s : State) : Host.Outcome State Fault Refusal :=
  onUnits t [] (fun s => wrapUp (courtTimeout s)) s

/-- PRESENCE (R762): SCs_PRES holding its level for 10 ms makes the slot present, and may start activation. -/
def execPresence (t : Nat) (i : Fin 2) (level : Bool) (s : State) : Host.Outcome State Fault Refusal :=
  onUnits t [(2, 2 + i.val)] (fun s => presence i.val level s) s

/-- ACTIVATE (R763): SCTL.ACTIVATE starts activation at the lowest allowed class. -/
def execActivate (t : Nat) (i : Fin 2) (s : State) : Host.Outcome State Fault Refusal :=
  onUnits t [(2, 2 + i.val)] (fun s => activate i.val s) s

/-- ATR (R765): an ATR is captured, checked and decoded, and a PPS may be sent. -/
def execAtr (t : Nat) (i : Fin 2) (bs : Bytes) (parityBad : Bool) (s : State) : Host.Outcome State Fault Refusal :=
  onUnits t [(2, 2 + i.val)] (fun s => atr i.val bs parityBad s) s

/-- ATR_TIMEOUT (R763): no ATR within 40,000 clocks deactivates the card and tries the next class, or leaves the slot FAILED.
-/
def execAtrTimeout (t : Nat) (i : Fin 2) (s : State) : Host.Outcome State Fault Refusal :=
  onUnits t [(2, 2 + i.val)] (fun s => atrTimeout i.val s) s

/-- PPS_RESPONSE (R767): A PPS response applies Fi and Di, or deactivates the card. -/
def execPpsResponse (t : Nat) (i : Fin 2) (confirms : Bool) (s : State) : Host.Outcome State Fault Refusal :=
  onUnits t [(2, 2 + i.val)] (fun s => ppsResponse i.val confirms s) s

/-- DEACT (R772): SCTL.DEACT, removal or a fault deactivates the card within 100 µs. -/
def execDeact (t : Nat) (i : Fin 2) (s : State) : Host.Outcome State Fault Refusal :=
  onUnits t [(2, 2 + i.val)] (fun s => deact i.val s) s

/-- IO_STUCK (R773): I/O low beyond the waiting time deactivates the slot and sets STK_CARDIO. -/
def execIoStuck (t : Nat) (i : Fin 2) (s : State) : Host.Outcome State Fault Refusal :=
  onUnits t [(2, 2 + i.val)] (fun s => ioStuck i.val s) s

/-- OVERCURRENT (R774): card current above 60 mA for 10 µs deactivates the slot. -/
def execOvercurrent (t : Nat) (i : Fin 2) (s : State) : Host.Outcome State Fault Refusal :=
  onUnits t [(2, 2 + i.val)] (fun s => overcurrent i.val s) s

/-- CLOCK_STOP (R771): 1,860 clocks after the last character, CLK stops at the indicated level. -/
def execClockStop (t : Nat) (i : Fin 2) (s : State) : Host.Outcome State Fault Refusal :=
  onUnits t [(2, 2 + i.val)] (fun s => clockStop i.val s) s

/-- TXFIFO_WRITE (R770): A write of TXFIFO queues a character for T=0 or T=1 transmission. -/
def execTxfifoWrite (t : Nat) (i : Fin 2) (b : Byte) (sent : Nat) (refused : Bool) (s : State) :
    Host.Outcome State Fault Refusal :=
  onUnits t [(2, 2 + i.val)] (fun s => txWrite i.val b sent refused s) s

/-- CHARACTER_RECEIVED (R770): A card character is received, parity- and epilogue-checked, and enters RXFIFO. -/
def execCharacterReceived (t : Nat) (i : Fin 2) (b : Byte) (parityErr : Bool) (s : State) :
    Host.Outcome State Fault Refusal :=
  onUnits t [(2, 2 + i.val)] (fun s => charReceived i.val b parityErr s) s

/-- AUTHCTL_START (R776): A write of AUTHCTL.START places a DRBG challenge in AUTHCHAL. -/
def execAuthctlStart (t : Nat) (w : Word) (s : State) : Host.Outcome State Fault Refusal :=
  onUnits t [] (fun s => authStart (setBit w 31 true) s) s

/-- AUTHRSP_WRITE (R777): A write of AUTHRSP[3] checks the card response and sets AUTH or FAIL. -/
def execAuthrspWrite (t : Nat) (k : Fin 4) (w : Word) (s : State) : Host.Outcome State Fault Refusal :=
  onUnits t [] (fun s => authRsp k.val w s) s

/-- PREQ (R778): firmware submits a driver-card principal request to PREQ. -/
def execPreq (t : Nat) (a : Word) (s : State) : Host.Outcome State Fault Refusal :=
  onUnits t [] (fun s => preqSubmit a.toNat s) s

end Sys2Proof.Machine
end

