-- ==== Sys2Proof/Machine/CmdDamask.lean ====
section
/-!
DEFINITION. The meanings of Damask, one definition per row of the opcode table.
-/

namespace Sys2Proof.Machine

/-- ALLOC (R230): key-store command ALLOC reserves an EMPTY slot, advances its generation and returns a handle. -/
def execAlloc (t : Nat) (n : Fin 256) (s : State) : Host.Outcome State Fault Refusal :=
  onUnits t [(0, 7)] (fun s => ksIssue 1 n.val 0 s) s

/-- ZEROIZE (R230): key-store command ZEROIZE, or object 0x5020, empties a slot and advances its generation. -/
def execZeroize (t : Nat) (h : BitVec 16) (s : State) : Host.Outcome State Fault Refusal :=
  onUnits t [(0, 7)] (fun s => ksIssue 2 0 h.toNat s) s

/-- NARROW (R233): key-store command NARROW clears USAGE bits of a LOADED slot. -/
def execNarrow (t : Nat) (h : BitVec 16) (s : State) : Host.Outcome State Fault Refusal :=
  onUnits t [(0, 7)] (fun s => ksIssue 3 0 h.toNat s) s

/-- GENERATE (R234): key-store command GENERATE fills a RESERVED slot from the DRBG. -/
def execGenerate (t : Nat) (n : Fin 256) (h : BitVec 16) (s : State) : Host.Outcome State Fault Refusal :=
  onUnits t [(0, 7)] (fun s => ksIssue 4 n.val h.toNat s) s

/-- IMPORT (R236): key-store command IMPORT fills a RESERVED slot from IMPWIN, subject to lifecycle. -/
def execImportKey (t : Nat) (h : BitVec 16) (s : State) : Host.Outcome State Fault Refusal :=
  onUnits t [(0, 7)] (fun s => ksIssue 5 0 h.toNat s) s

/-- KEYMOVE (R265): key-store command KEYMOVE loads a general cipher context from a slot. -/
def execKeymove (t : Nat) (n : Fin 256) (ctx : BitVec 16) (s : State) : Host.Outcome State Fault Refusal :=
  onUnits t [(0, 7)] (fun s => ksIssue 6 n.val ctx.toNat s) s

/-- RESTORE (R271): key-store command RESTORE loads a custody key bank after the KCV check. -/
def execRestore (t : Nat) (n : Fin 256) (ctx : BitVec 16) (s : State) : Host.Outcome State Fault Refusal :=
  onUnits t [(0, 7)] (fun s => ksIssue 7 n.val ctx.toNat s) s

/-- FELT_WRITE_THROUGH_DONE (R238): the write-through of a slot 0–15 change to Felt RAM completes and FELTBUSY clears. -/
def execFeltWriteThroughDone (t : Nat) (n : Fin 16) (s : State) : Host.Outcome State Fault Refusal :=
  onUnits t [(0, 7)] (fun s => feltWriteThrough n.val s) s

/-- DIGEST_SUBMIT (R250): A write of a job address to DIGEST.SUBMIT queues a general digest job, or sets QERR. -/
def execDigestSubmit (t : Nat) (a : Word) (s : State) : Host.Outcome State Fault Refusal :=
  onUnits t [(0, 4)] (fun s => submitJob .digest a.toNat s) s

/-- DIGEST_JOB_START (R251): A digest lane becomes free and starts the next queued job in submission order, latching its key.
-/
def execDigestJobStart (t : Nat) (s : State) : Host.Outcome State Fault Refusal :=
  onUnits t [(0, 4)] (fun s => startJob .digest s) s

/-- DIGEST_JOB_DONE (R252): A digest job completes, and its output, STATUS and JOBDONE are written. -/
def execDigestJobDone (t : Nat) (l : Fin 8) (ue : Bool) (s : State) : Host.Outcome State Fault Refusal :=
  onUnits t [(0, 4)] (fun s => wrapUp (jobEnds .digest l.val ue s)) s

/-- DIGEST_ABORT (R301): A write of DIGEST.ABORT resolves to LATE, ABORTED or NOTFOUND. -/
def execDigestAbort (t : Nat) (a : Word) (tie : Bool) (s : State) : Host.Outcome State Fault Refusal :=
  onUnits t [(0, 4)] (fun s => wrapUp (abortJob .digest a.toNat tie s)) s

/-- CIPHER_SUBMIT (R262): A write of a job address to CIPHER.SUBMIT queues a general cipher job. -/
def execCipherSubmit (t : Nat) (a : Word) (s : State) : Host.Outcome State Fault Refusal :=
  onUnits t [(0, 5)] (fun s => submitJob .cipher a.toNat s) s

/-- CIPHER_JOB_START (R266): A cipher lane starts the next queued job and latches its key. -/
def execCipherJobStart (t : Nat) (s : State) : Host.Outcome State Fault Refusal :=
  onUnits t [(0, 5)] (fun s => startJob .cipher s) s

/-- CIPHER_JOB_DONE (R282): A cipher job completes, with its output or TAGFAIL or UNWRAP_FAIL, and STATUS written. -/
def execCipherJobDone (t : Nat) (l : Fin 8) (ue : Bool) (s : State) : Host.Outcome State Fault Refusal :=
  onUnits t [(0, 5)] (fun s => wrapUp (jobEnds .cipher l.val ue s)) s

/-- CIPHER_ABORT (R301): A write of CIPHER.ABORT resolves to LATE, ABORTED or NOTFOUND. -/
def execCipherAbort (t : Nat) (a : Word) (tie : Bool) (s : State) : Host.Outcome State Fault Refusal :=
  onUnits t [(0, 5)] (fun s => wrapUp (abortJob .cipher a.toNat tie s)) s

/-- CTXSEL_COMMIT (R263): A write of CIPHER.CTXSEL with COMMIT loads a general context from CTXWIN, or is refused with
CTXDENY. -/
def execCtxselCommit (t : Nat) (ctx : BitVec 7) (ty : BitVec 3) (du : Bool) (s : State) : Host.Outcome State Fault Refusal :=
  onUnits t [(0, 5)] (fun s => ctxCommit ctx.toNat ty.toNat du s) s

/-- STRIPE_ENCRYPT (R272): Twill encrypts a sealed stripe under the bank of its KEYVER, or under context 79 for KEYVER 0, or
it waits. -/
def execStripeEncrypt (t jsn : Nat) (ue : Option Word) (s : State) : Host.Outcome State Fault Refusal :=
  onUnits t [(0, 5), (0, 9)] (fun s => encryptRead jsn ue s) s

/-- LANE_MISMATCH (R297): A lane's datapath check fails mid-job: the lane parks, unless it is the last, and the job reruns on
another lane. -/
def execLaneMismatch (t : Nat) (u : UnitId) (l : Fin 8) (s : State) : Host.Outcome State Fault Refusal :=
  onUnits t [(0, match u with | .digest => 4 | .cipher => 5)] (fun s => laneMismatch u l.val s) s

/-- SELFTEST (R296): procedure 0x5021 tests every digest and cipher lane, one at a time. -/
def execSelftest (t : Nat) (princ : BitVec 4) (env : ProcEnv) (s : State) : Host.Outcome State Fault Refusal :=
  onUnits t [] (fun s => procRow (okey 0x5021 0) princ.toNat [] env s) s

/-- HEALTH_TEST_FAILURE (R289): an entropy health test fails: samples are discarded and the start-up test reruns, and the
third failure in a second parks the source. -/
def execHealthTestFailure (t : Nat) (s : State) : Host.Outcome State Fault Refusal :=
  onUnits t [(0, 8)] (fun s => healthFail s) s

/-- START_UP_TEST_DONE (R288): the entropy source completes its 256 µs start-up test. -/
def execStartUpTestDone (t : Nat) (s : State) : Host.Outcome State Fault Refusal :=
  onUnits t [(0, 8)] (fun s => startUpDone s) s

/-- DRBG_REQUEST (R293): A DRBG request is served, reseeding when due, or waits up to 300 µs, or fails with ENTROPY. -/
def execDrbgRequest (t : Nat) (n : Fin 4096) (s : State) : Host.Outcome State Fault Refusal :=
  onUnits t [(0, 8)] (fun s => drbgAsk (n.val + 1) s) s

/-- DRBG_WAIT_EXPIRY (R293): the 300 µs wait of a reseeding request expires, and the request fails with ENTROPY. -/
def execDrbgWaitExpiry (t : Nat) (s : State) : Host.Outcome State Fault Refusal :=
  onUnits t [(0, 8)] (fun s => waitExpiry s) s

/-- OUT_READ (R294): A read of RNG.OUT draws 4 bytes from the DRBG, or returns 0 and sets UNDERRUN. -/
def execOutRead (t : Nat) (s : State) : Host.Outcome State Fault Refusal :=
  onUnits t [(0, 8)] (fun s => outRead s) s

/-- PK_SUBMIT (R313): A write of a job address to PK.SUBMIT queues a firmware PK job, or sets QERR. -/
def execPkSubmit (t : Nat) (a : Word) (s : State) : Host.Outcome State Fault Refusal :=
  onUnits t [(0, 6)] (fun s => pkSubmit a.toNat s) s

/-- PK_JOB_START (R322): the PK unit becomes free and starts the next Linen job, or else the next firmware job, waking and
wiping as needed. -/
def execPkJobStart (t : Nat) (s : State) : Host.Outcome State Fault Refusal :=
  onUnits t [(0, 6)] (fun s => pkStart s) s

/-- PK_JOB_DONE (R319): A PK job's two runs compare, and its output, end wipe and STATUS are written, or it ends PKFAULT. -/
def execPkJobDone (t : Nat) (check : PkCheck) (s : State) : Host.Outcome State Fault Refusal :=
  onUnits t [(0, 6)] (fun s => pkJobDone check s) s

/-- PREEMPT (R323): A Linen job arrives while a firmware job runs with PREEMPT set, and stops that job within 1 µs. -/
def execPreempt (t : Nat) (s : State) : Host.Outcome State Fault Refusal :=
  onUnits t [(0, 6)] (fun s => pkPreempt s) s

/-- PK_ABORT (R350): A write of PK.ABORT resolves to LATE, ABORTED or NOTFOUND. -/
def execPkAbort (t : Nat) (a : Word) (tie : Bool) (s : State) : Host.Outcome State Fault Refusal :=
  onUnits t [(0, 6)] (fun s => wrapUp (pkAbort a.toNat tie s)) s

/-- PK_GATE (R341): GATEDLY microseconds of idle expire, and the PK unit wipes its operand RAM and power-gates itself. -/
def execPkGate (t : Nat) (s : State) : Host.Outcome State Fault Refusal :=
  onUnits t [(0, 6)] (fun s => pkGate s) s

/-- PK_WIPE_DONE (R328): an operand RAM wipe completes and the owner tag becomes NONE. -/
def execPkWipeDone (t : Nat) (s : State) : Host.Outcome State Fault Refusal :=
  onUnits t [(0, 6)] (fun s => pkWipeDone s) s

end Sys2Proof.Machine
end

