-- ==== Sys2Proof/Machine/CmdDict.lean ====
section
/-!
DEFINITION. The meanings of the object dictionary, one definition per row of the opcode table.
-/

namespace Sys2Proof.Machine

/-- READ (R576): A dictionary READ request from any carrier is checked and answered. -/
def execRead (t : Nat) (r : ReqIn) (env : ProcEnv) (tie : Bool) (s : State) : Host.Outcome State Fault Refusal :=
  onUnits t [] (fun s => wrapUp (takeReq [mREAD] false r env tie s)) s

/-- WRITE (R576): A dictionary WRITE request is checked, then applied, made pending or stored by its commit class, or runs a
PROC. -/
def execWrite (t : Nat) (r : ReqIn) (env : ProcEnv) (tie : Bool) (s : State) : Host.Outcome State Fault Refusal :=
  onUnits t [] (fun s => wrapUp (takeReq [mWRITE] false r env tie s)) s

/-- READ_SEG (R650): A READ_SEG init starts a segmented read of the value in force. -/
def execReadSeg (t : Nat) (r : ReqIn) (env : ProcEnv) (tie : Bool) (s : State) : Host.Outcome State Fault Refusal :=
  onUnits t [] (fun s => wrapUp (takeReq [mREADSEG] false r env tie s)) s

/-- WRITE_SEG (R589): A WRITE_SEG init opens a segmented write. -/
def execWriteSeg (t : Nat) (r : ReqIn) (env : ProcEnv) (tie : Bool) (s : State) : Host.Outcome State Fault Refusal :=
  onUnits t [] (fun s => wrapUp (takeReq [mWRITESEG] false r env tie s)) s

/-- SEGMENT (R648): A segment frame of a transfer is received and kept in order, or discarded. -/
def execSegment (t : Nat) (r : ReqIn) (env : ProcEnv) (tie : Bool) (s : State) : Host.Outcome State Fault Refusal :=
  onUnits t [] (fun s => wrapUp (takeReq [mREADSEG, mWRITESEG] true r env tie s)) s

/-- BLOCK_ACK (R649): A BLOCK_ACK sets the next block or ends a segmented read. -/
def execBlockAck (t : Nat) (r : ReqIn) (env : ProcEnv) (tie : Bool) (s : State) : Host.Outcome State Fault Refusal :=
  onUnits t [] (fun s => wrapUp (takeReq [mBLOCKACK] false r env tie s)) s

/-- ABORT (R651): A YDP ABORT names a transaction by TAG and is answered ABORTED, LATE or NOTFOUND. -/
def execAbort (t : Nat) (r : ReqIn) (env : ProcEnv) (tie : Bool) (s : State) : Host.Outcome State Fault Refusal :=
  onUnits t [] (fun s => wrapUp (takeReq [mABORT] false r env tie s)) s

/-- BLOCK_GAP_EXPIRY (R649): 100 ms after the last segment with a gap, the receiver sends BLOCK_ACK. -/
def execBlockGapExpiry (t n : Nat) (s : State) : Host.Outcome State Fault Refusal :=
  onUnits t [(0, 10)] (fun s => gapExpiry n s) s

/-- SEGTMO_EXPIRY (R591): no segment for SEGTMO ends the transfer with TIMEOUT. -/
def execSegtmoExpiry (t n : Nat) (s : State) : Host.Outcome State Fault Refusal :=
  onUnits t [(0, 10)] (fun s => segTimeout n s) s

/-- LSUBMIT (R593): P0 submits a local request descriptor to DENG.LSUBMIT. -/
def execLsubmit (t : Nat) (a : Word) (s : State) : Host.Outcome State Fault Refusal :=
  onUnits t [(0, 10)] (fun s => lsubmit a.toNat s) s

/-- FWRSP (R596): firmware answers a fall-through slot through DENG.FWRSP. -/
def execFwrsp (t : Nat) (w : Word) (s : State) : Host.Outcome State Fault Refusal :=
  onUnits t [(0, 10)] (fun s => wrapUp (fwRsp w s)) s

/-- FWTMO_EXPIRY (R583): A fall-through request unanswered for FWTMO ends with TIMEOUT. -/
def execFwtmoExpiry (t : Nat) (i : Fin 8) (s : State) : Host.Outcome State Fault Refusal :=
  onUnits t [(0, 10)] (fun s => wrapUp (fwTimeout i.val s)) s

/-- FWSERVE (R582): A write setting DENG.CTRL.FWSERVE ends BUSY_RETRY for fall-through objects. -/
def execFwserve (t : Nat) (v : Bool) (s : State) : Host.Outcome State Fault Refusal :=
  onUnits t [(0, 10)] (fun s => fwServe v s) s

/-- RESTORE_DEFAULTS (R573): procedure 0xF020 restores one group's defaults. -/
def execRestoreDefaults (t : Nat) (princ : BitVec 4) (arg : BitVec 16) (s : State) : Host.Outcome State Fault Refusal :=
  onUnits t [(0, 10)] (fun s => procRow (okey 0xF020 0) princ.toNat (le 2 arg.toNat) {} s) s

/-- CLEAR_STICKY (R1099): object 0xA001 or a W1C write of a sticky register clears sticky bits. -/
def execClearSticky (t : Nat) (princ : BitVec 4) (n : BitVec 8) (s : State) : Host.Outcome State Fault Refusal :=
  onUnits t [] (fun s => procRow (okey 0xA001 0) princ.toNat (le 1 n.toNat) {} s) s

end Sys2Proof.Machine
end

