-- ==== Sys2Proof/Machine/CmdFelt.lean ====
section
/-!
DEFINITION. The meanings of Felt, one definition per row of the opcode table.
-/

namespace Sys2Proof.Machine

/-- ALARM (R974): RTC equals ALARM with EN set, so ALARM is set and a PARKED device may wake. -/
def execAlarm (t : Nat) (s : State) : Host.Outcome State Fault Refusal :=
  always t (fun s => alarm s) s

/-- PPS_EDGE (R982): A PPS_IN edge is captured, and when accepted it updates ADJ. -/
def execPpsEdge (t : Nat) (cap : BitVec 64) (s : State) : Host.Outcome State Fault Refusal :=
  always t (fun s => ppsEdge cap.toNat s) s

/-- PPS_LOSS (R988): PPSCFG.LOSS seconds without an accepted edge move PPS_LOCKED to HOLDOVER. -/
def execPpsLoss (t : Nat) (s : State) : Host.Outcome State Fault Refusal :=
  always t (fun s => ppsLoss s) s

/-- LEAP_SECOND (R991): at the end of a UTC day with LEAP non-zero, UTCOFF absorbs it. -/
def execLeapSecond (t : Nat) (s : State) : Host.Outcome State Fault Refusal :=
  always t (fun s => leapSecond s) s

/-- SET_TIME (R993): procedure 0x8001 checks a signed request and steps or slews EVT. -/
def execSetTime (t : Nat) (princ : BitVec 4) (d : Bytes) (s : State) : Host.Outcome State Fault Refusal :=
  onUnits t [] (fun s => procRow (okey 0x8001 0) princ.toNat d {} s) s

/-- TAMPER_SAMPLE (R998): A tamper pin or sensor is sampled at its rate. -/
def execTamperSample (t : Nat) (src : Fin 20) (v : Bool) (s : State) : Host.Outcome State Fault Refusal :=
  always t (fun s => tamperSample src.val v s) s

/-- CELL_OUT (R1023): VBAT falls below 1.0 V with VDD_IO18 present. -/
def execCellOut (t : Nat) (s : State) : Host.Outcome State Fault Refusal :=
  always t (fun s => cellOut s) s

/-- GLITCH (R1120): VDD_CORE goes out of bounds for 10 ns, which is a GLITCH tamper event. -/
def execGlitch (t : Nat) (s : State) : Host.Outcome State Fault Refusal :=
  always t (fun s => glitch s) s

/-- XRTC_MONITOR_WINDOW (R1005): an XRTC window fails or passes, so EVT switches to IRC32K or back. -/
def execXrtcMonitorWindow (t count : Nat) (s : State) : Host.Outcome State Fault Refusal :=
  always t (fun s => xrtcWindow count s) s

/-- SHADOW_MISMATCH (R1021): an RWS register differs from its shadow, which trips source 19 and resets with cause 0x05. -/
def execShadowMismatch (t : Nat) (a : Word) (s : State) : Host.Outcome State Fault Refusal :=
  always t (fun s => shadowMismatch a.toNat s) s

/-- SHADOW_WRITE (R1019): A write to an RWS register or its shadow is accepted as a pair, or rejected. -/
def execShadowWrite (t : Nat) (a w : Word) (inTime : Bool) (s : State) : Host.Outcome State Fault Refusal :=
  onUnits t [] (fun s => feltWrite a.toNat w inTime s) s

/-- TBIST (R1015): procedure 0x8032 stimulates a tamper source with responses suppressed. -/
def execTbist (t : Nat) (princ : BitVec 4) (src : BitVec 8) (s : State) : Host.Outcome State Fault Refusal :=
  onUnits t [] (fun s => procRow (okey 0x8032 0) princ.toNat (le 1 src.toNat) {} s) s

/-- TBIST_DONE (R1017): the built-in test ends, records PASS or FAIL and writes a log entry. -/
def execTbistDone (t : Nat) (pass : Bool) (s : State) : Host.Outcome State Fault Refusal :=
  onUnits t [] (fun s => wrapUp (tbistDone pass s)) s

/-- SUPPLY_SWITCHOVER (R969): Felt switches between VDD_IO18 and VBAT. -/
def execSupplySwitchover (t : Nat) (toVbat : Bool) (s : State) : Host.Outcome State Fault Refusal :=
  always t (fun s => supplySwitch toVbat s) s

/-- FELT_WRITE_LANDS (R1029): A posted Felt register write lands and the mirror updates. -/
def execFeltWriteLands (t : Nat) (s : State) : Host.Outcome State Fault Refusal :=
  always t (fun s => feltLand s) s

end Sys2Proof.Machine
end

