-- ==== Sys2Proof/Machine/CmdGingham.lean ====
section
/-!
DEFINITION. The meanings of Gingham, one definition per row of the opcode table.
-/

namespace Sys2Proof.Machine

/-- CAN_FRAME_RECEIVE (R607): A CAN frame received that does not go to YDP enters the firmware FIFO, or is discarded. -/
def execCanFrameReceive (t : Nat) (n : Fin 2) (fr : CanFrame) (ts : BitVec 16) (env : ProcEnv) (tie : Bool) (s : State) :
    Host.Outcome State Fault Refusal :=
  onUnits t [(2, 4), (2, 5 + n.val)] (fun s => wrapUp (canReceive n.val fr ts.toNat env tie s)) s

/-- SESSION_OPEN (R632): A SESSION_OPEN phase 1 is checked and answered CHALLENGE or REFUSE. -/
def execSessionOpen (t : Nat) (c : Fin 3) (id : BitVec 29) (p : Bytes) (s : State) : Host.Outcome State Fault Refusal :=
  onUnits t [] (fun s => takeOpen 1 c id p s) s

/-- RESPONSE (R634): A SESSION_OPEN phase 3 with a correct RESP opens the session with CONFIRM, superseding any old one. -/
def execResponse (t : Nat) (c : Fin 3) (id : BitVec 29) (p : Bytes) (s : State) : Host.Outcome State Fault Refusal :=
  onUnits t [] (fun s => takeOpen 3 c id p s) s

/-- PHASE_3_TIMEOUT (R634): no phase 3 within 500 ms of phase 2 closes the challenged slot. -/
def execPhase3Timeout (t : Nat) (i : Fin 8) (s : State) : Host.Outcome State Fault Refusal :=
  onUnits t [(2, 4)] (fun s => phase3Timeout i.val s) s

/-- SESSION_CLOSE (R638): A peer SESSION_CLOSE closes the session and is answered. -/
def execSessionClose (t : Nat) (r : ReqIn) (env : ProcEnv) (tie : Bool) (s : State) : Host.Outcome State Fault Refusal :=
  onUnits t [] (fun s => wrapUp (takeReq [mCLOSE] false r env tie s)) s

/-- IDLE_EXPIRY (R638): 60 s without an accepted peer frame closes the session IDLE. -/
def execIdleExpiry (t : Nat) (i : Fin 8) (s : State) : Host.Outcome State Fault Refusal :=
  onUnits t [(2, 4)] (fun s => wrapUp (idleExpiry i.val s)) s

/-- SUSPEND_EXPIRY (R637): A session SUSPENDED for 10 s closes EXPIRED. -/
def execSuspendExpiry (t : Nat) (i : Fin 8) (s : State) : Host.Outcome State Fault Refusal :=
  onUnits t [(2, 4)] (fun s => wrapUp (suspendExpiry i.val s)) s

/-- HEARTBEAT (R641): A peer HEARTBEAT holds the session and gets no reply. -/
def execHeartbeat (t : Nat) (r : ReqIn) (env : ProcEnv) (tie : Bool) (s : State) : Host.Outcome State Fault Refusal :=
  onUnits t [] (fun s => wrapUp (takeReq [mHEARTBEAT] false r env tie s)) s

/-- HEARTBEAT_PERIOD (R658): every HEARTBEAT_MS, the device broadcasts HEARTBEAT on each active controller. -/
def execHeartbeatPeriod (t : Nat) (s : State) : Host.Outcome State Fault Refusal :=
  onUnits t [(2, 4)] (fun s => Sys2Proof.Machine.heartbeat s) s

/-- FWNOTIFY (R656): A write of GINGHAM.FWNOTIFY raises a firmware NOTIFY. -/
def execFwnotify (t : Nat) (w : Word) (s : State) : Host.Outcome State Fault Refusal :=
  onUnits t [(2, 4)] (fun s => fwNotify w s) s

/-- TXREQ (R606): A write of TXREQ offers firmware TX buffers for transmission, lowest identifier first. -/
def execTxreq (t : Nat) (n : Fin 2) (mask : Word) (s : State) : Host.Outcome State Fault Refusal :=
  onUnits t [(2, 4), (2, 5 + n.val)] (fun s => txReq n.val mask s) s

/-- TXCANCEL (R663): A write of TXCANCEL removes a pending frame, or lets it complete as CANCEL_LATE. -/
def execTxcancel (t : Nat) (n : Fin 2) (mask late : Word) (s : State) : Host.Outcome State Fault Refusal :=
  onUnits t [(2, 4), (2, 5 + n.val)] (fun s => txCancel n.val mask late s) s

/-- CAN_TX_DONE (R664): A CAN frame transmission completes or ends in an error. -/
def execCanTxDone (t : Nat) (n : Fin 2) (err : Bool) (s : State) : Host.Outcome State Fault Refusal :=
  onUnits t [(2, 4), (2, 5 + n.val)] (fun s => txDone n.val err s) s

/-- SESS_CLOSE_GO (R638): A write of SESS[s].CLOSE.GO closes the session with reason REQUESTED. -/
def execSessCloseGo (t : Nat) (i : Fin 8) (s : State) : Host.Outcome State Fault Refusal :=
  onUnits t [(2, 4)] (fun s => wrapUp (sessCloseGo i.val s)) s

/-- BUS_OFF (R665): the controller enters bus-off under ISO 11898-1 error confinement. -/
def execBusOff (t : Nat) (n : Fin 2) (s : State) : Host.Outcome State Fault Refusal :=
  onUnits t [(2, 4), (2, 5 + n.val)] (fun s => busOff n.val s) s

/-- BUS_OFF_RECOVERY (R665): 128 occurrences of 11 recessive bits with AUTORECOV recover the controller. -/
def execBusOffRecovery (t : Nat) (n : Fin 2) (s : State) : Host.Outcome State Fault Refusal :=
  onUnits t [(2, 4), (2, 5 + n.val)] (fun s => busOffRecovery n.val s) s

/-- CCTRL_MODE_WRITE (R665): A write of CCTRL.MODE sets the controller mode and restarts a bus-off controller. -/
def execCctrlModeWrite (t : Nat) (n : Fin 2) (w : Word) (s : State) : Host.Outcome State Fault Refusal :=
  onUnits t [(2, 4), (2, 5 + n.val)] (fun s => cctrlWrite n.val w s) s

/-- STUCK (R666): RX dominant for 2,048 bit times puts the controller in STUCK and suspends its sessions. -/
def execStuck (t : Nat) (n : Fin 2) (s : State) : Host.Outcome State Fault Refusal :=
  onUnits t [(2, 4), (2, 5 + n.val)] (fun s => canStuck n.val s) s

/-- STUCK_RECHECK (R666): once per second, a STUCK controller watches RX for 1 ms and integrates on 11 recessive bits. -/
def execStuckRecheck (t : Nat) (n : Fin 2) (recessive : Bool) (s : State) : Host.Outcome State Fault Refusal :=
  onUnits t [(2, 4), (2, 5 + n.val)] (fun s => stuckRecheck n.val recessive s) s

/-- TSCNT_WRAP (R611): TSCNT wraps and Gingham latches EVT. -/
def execTscntWrap (t : Nat) (n : Fin 2) (s : State) : Host.Outcome State Fault Refusal :=
  onUnits t [(2, 4), (2, 5 + n.val)] (fun s => tscntWrap n.val s) s

/-- POP (R690): A write of RXSTAT.POP or NQSTAT.POP removes the head entry of a FIFO or notify queue. -/
def execPop (t : Nat) (q : Option (Fin 2)) (s : State) : Host.Outcome State Fault Refusal :=
  onUnits t [] (fun s => popRow q s) s

end Sys2Proof.Machine
end

