-- ==== Sys2Proof/Machine/CmdLate.lean ====
section
/-!
DEFINITION. The meanings of links, buses and supplies, one definition per row of the opcode table.
-/

namespace Sys2Proof.Machine

/-- HS_BURST_END (R126): A camera port's high-speed burst ends and the port enters its stop state: a packet short of its word
count is kept as TRUNC with ERRMARK, and a pending PORTCFG change takes effect. -/
def execHsBurstEnd (t : Nat) (p : Fin 4) (s : State) : Host.Outcome State Fault Refusal :=
  onUnits t [(0, 2), (1, 8 + p.val)] (fun s => burstEnd p.val s) s

/-- CAN_INTEGRATION (R665): A controller in INTEGRATING sees 11 consecutive recessive bits and becomes ACTIVE. -/
def execCanIntegration (t : Nat) (n : Fin 2) (s : State) : Host.Outcome State Fault Refusal :=
  onUnits t [(2, 4), (2, 5 + n.val)] (fun s => canIntegration n.val s) s

/-- CAN_BUS_ERROR (R665): A CAN bus error detected in transmission or reception changes TEC and REC, and the controller may
move between ACTIVE and PASSIVE. -/
def execCanBusError (t : Nat) (n : Fin 2) (tx eight : Bool) (s : State) : Host.Outcome State Fault Refusal :=
  onUnits t [(2, 4), (2, 5 + n.val)] (fun s => canBusError n.val tx eight s) s

/-- WAITING_TIME_EXPIRY (R770): A smart-card waiting time (WT, CWT, BWT, or the PPS initial waiting time) runs out with I/O
idle, so the transfer ends with ERR WT, or the card is deactivated after a PPS. -/
def execWaitingTimeExpiry (t : Nat) (i : Fin 2) (s : State) : Host.Outcome State Fault Refusal :=
  onUnits t [(2, 2 + i.val)] (fun s => waitingExpiry i.val s) s

/-- LINK_UP (R713): PERST# is released and the PCIe link trains to L0, so the endpoint's host-side paths and the outbound
window work again. -/
def execLinkUp (t : Nat) (speed : BitVec 2) (width : BitVec 3) (bme msixEn : Bool) (s : State) :
    Host.Outcome State Fault Refusal :=
  onUnits t [] (fun s => linkUpRow speed.toNat width.toNat bme msixEn s) s

/-- FLR_COMPLETE (R711): A function-level reset completes within 10 ms of the write that started it. -/
def execFlrComplete (t : Nat) (s : State) : Host.Outcome State Fault Refusal :=
  onUnits t [] (fun s => flrComplete s) s

/-- XRTC_CYCLE (R977): at each XRTC cycle, RTC and EVT advance by the ADJ sub-units, SLEWREM is absorbed, the bridge copy
reloads, and shadows are compared. -/
def execXrtcCycle (t : Nat) (s : State) : Host.Outcome State Fault Refusal :=
  always t (fun s => xrtcCycle s) s

/-- VBAT_APPLIED (R969): VBAT rises into range: from OFF, Felt starts running in VAULT, and with CELLOUT set, the flag clears
above 2.0 V. -/
def execVbatApplied (t : Nat) (above2V : Bool) (s : State) : Host.Outcome State Fault Refusal :=
  always t (fun s => vbatApplied above2V s) s

/-- FELT_SUPPLY_LOSS (R1024): VBAT is removed while VDD_IO18 is absent, so Felt loses every content and the device goes to
OFF. -/
def execFeltSupplyLoss (t : Nat) (s : State) : Host.Outcome State Fault Refusal :=
  always t (fun s => feltSupplyLoss s) s

/-- POWER_UP_PMIC_EN (R1122): 5 ms after VDD_IO18 reaches its range from OFF or VAULT, Felt drives PMIC_EN high so that the
core rails come up. -/
def execPowerUpPmicEn (t : Nat) (s : State) : Host.Outcome State Fault Refusal :=
  always t (fun s => powerUp s) s

end Sys2Proof.Machine
end

