-- ==== Sys2Proof/Machine/CmdLinen.lean ====
section
/-!
DEFINITION. The meanings of Linen, one definition per row of the opcode table.
-/

namespace Sys2Proof.Machine

/-- ANCHOR_NOW (R197): LINEN.CMD.ANCHOR_NOW or object 0x3202 requests an ANCHOR with REQUESTED set. -/
def execAnchorNow (t : Nat) (s : State) : Host.Outcome State Fault Refusal :=
  onUnits t [(0, 3)] (fun s => anchorRequest true s) s

/-- ANCHOR_SIGNED (R199): the ANCHOR signature returns, and the ANCHOR record and device head are written, or one retry
follows a fault. -/
def execAnchorSigned (t : Nat) (s : State) : Host.Outcome State Fault Refusal :=
  onUnits t [(0, 3)] (fun s => lbAnchorDone (anchorSigned s)) s

/-- EPOCH_NOW (R202): LINEN.CMD.EPOCH_NOW or object 0x3203 adds an epoch request to PEND. -/
def execEpochNow (t : Nat) (s : State) : Host.Outcome State Fault Refusal :=
  onUnits t [(0, 3)] (fun s => epochRequest { reason := .request } s) s

/-- TIMEMAP_NOW (R189): LINEN.CMD.TIMEMAP_NOW requests a TIMEMAP record. -/
def execTimemapNow (t : Nat) (s : State) : Host.Outcome State Fault Refusal :=
  onUnits t [(0, 3)] (fun s => timemap s) s

/-- TIMEMAP_PERIOD (R189): TMAPPER seconds of EVT elapse and Linen writes a TIMEMAP record. -/
def execTimemapPeriod (t : Nat) (s : State) : Host.Outcome State Fault Refusal :=
  onUnits t [(0, 3)] (fun s => timemapPeriod s) s

/-- EPOCH_SEQUENCE_START (R205): with PEND non-zero and no ANCHOR in flight, the sequencer starts an epoch sequence by a
KEYGEN into the inactive slot. -/
def execEpochSequenceStart (t : Nat) (s : State) : Host.Outcome State Fault Refusal :=
  onUnits t [(0, 3)] (fun s => epochStart s) s

/-- EPOCH_KEYGEN_DONE (R346): the epoch key pair is generated, NEWKEYID is computed and the EPOCH body signing is issued. -/
def execEpochKeygenDone (t : Nat) (s : State) : Host.Outcome State Fault Refusal :=
  onUnits t [(0, 3)] (fun s => epochKeygenDone s) s

/-- EPOCH_SIGNED (R205): the EPOCH signature returns: the record is written, the old slot zeroised, ACTIVE inverted and PEND
decremented. -/
def execEpochSigned (t : Nat) (s : State) : Host.Outcome State Fault Refusal :=
  onUnits t [(0, 3)] (fun s => epochSigned s) s

/-- KEYWRAP (R211): LINEN.KWCMD GO or object 0x3204 starts an escrow: an ephemeral KEYGEN, then ECDH, HKDF and wrap. -/
def execKeywrap (t : Nat) (c : Fin 64) (kind alg : BitVec 2) (src : BitVec 16) (s : State) :
    Host.Outcome State Fault Refusal :=
  onUnits t [(0, 3)] (fun s => keywrap c.val kind.toNat alg.toNat src.toNat s) s

/-- KEYWRAP_DONE (R211): the wrap completes and the KEYWRAP record is held for the custody's next stripe close, or written at
a commit point. -/
def execKeywrapDone (t : Nat) (s : State) : Host.Outcome State Fault Refusal :=
  onUnits t [(0, 3)] (fun s => wrapUp (keywrapDone s)) s

end Sys2Proof.Machine
end

