-- ==== Sys2Proof/Machine/CmdMuslin.lean ====
section
/-!
DEFINITION. The meanings of Muslin, one definition per row of the opcode table.
-/

namespace Sys2Proof.Machine

/-- LONG_PACKET (R117): A CSI-2 long packet is received whole and is bound to a custody, discarded as unbound, or handled as a
packet error. -/
def execLongPacket (t : Nat) (p : Fin 4) (vc : Fin 16) (dt : BitVec 6) (wc : BitVec 16) (payload : Bytes) (h : Header) (crcOk : Bool) (s : State) :
    Host.Outcome State Fault Refusal :=
  onUnits t [(0, 2), (1, 8 + p.val)] (fun s => longPacket p.val vc.val dt.toNat wc.toNat payload h crcOk s) s

/-- FS_PACKET (R124): an FS short packet starts the custody's frame, implying an FE first when a frame is open. -/
def execFsPacket (t : Nat) (p : Fin 4) (vc : Fin 16) (s : State) : Host.Outcome State Fault Refusal :=
  onUnits t [(0, 2), (1, 8 + p.val)] (fun s => framePacket p.val (.fs vc.val) s) s

/-- FE_PACKET (R125): an FE short packet ends the custody's frame, or is counted in FSMISS when no frame is open. -/
def execFePacket (t : Nat) (p : Fin 4) (vc : Fin 16) (s : State) : Host.Outcome State Fault Refusal :=
  onUnits t [(0, 2), (1, 8 + p.val)] (fun s => framePacket p.val (.fe vc.val) s) s

/-- DESKEW_SEQUENCE (R115): A deskew calibration sequence aligns the port's lanes, or sets DESKEWFAIL. -/
def execDeskewSequence (t : Nat) (p : Fin 4) (aligned : Bool) (s : State) : Host.Outcome State Fault Refusal :=
  onUnits t [(0, 2), (1, 8 + p.val)] (fun s => deskew p.val aligned s) s

/-- BYTE_ACCEPTED (R120): muslin's journal write of a byte completes, so the byte is accepted into the custody's open stripe
and the data ring. -/
def execByteAccepted (t : Nat) (cam : Fin 4) (s : State) : Host.Outcome State Fault Refusal :=
  onUnits t [(0, 2)] (fun s => byteAccepted cam.val s) s

/-- STRIPE_RECORD_WRITTEN (R40): the seal completes, and the records ordered by R190 and the chain head are in MRAM. -/
def execStripeRecordWritten (t : Nat) (c : Fin 64) (s : State) : Host.Outcome State Fault Refusal :=
  onUnits t [(0, 3)] (fun s => stripeRecordWritten c.val s) s

/-- INVAL (R164): A write of MUSLIN.CUSTCTL with INVAL fetches entry n once and holds it until the switch of APPLYAT. -/
def execInval (t : Nat) (n : Fin 64) (applyAt : Bool) (s : State) : Host.Outcome State Fault Refusal :=
  onUnits t [(0, 2)] (fun s => inval n.val applyAt s) s

/-- DOORBELL (R175): A write of a door's TAIL through DB[n] or its window makes descriptors fetchable, or is ignored and sets
ERR. -/
def execDoorbell (t : Nat) (d : Fin 64) (tail : BitVec 10) (s : State) : Host.Outcome State Fault Refusal :=
  onUnits t [(0, 2)] (fun s => doorbell d.val tail.toNat s) s

/-- DESCRIPTOR_FETCH_DONE (R133): A door descriptor read completes, and the descriptor is checked and completed INVALID, or
queued for data. -/
def execDescriptorFetchDone (t : Nat) (d : Fin 64) (ok : Bool) (b : Bytes) (s : State) : Host.Outcome State Fault Refusal :=
  onUnits t [(0, 2)] (fun s => descriptorFetched d.val ok b s) s

/-- DOOR_DATA_READ_DONE (R140): A host data read of up to 512 bytes completes with data for the custody, or fails and leads to
DROP FETCH. -/
def execDoorDataReadDone (t : Nat) (d : Fin 64) (ok : Bool) (b : Bytes) (s : State) : Host.Outcome State Fault Refusal :=
  onUnits t [(0, 2)] (fun s => doorDataRead d.val ok b s) s

/-- DOOR_DISABLE (R143): A write that clears MUSLIN.DOOR[n].CFG.EN abandons the outstanding descriptors and returns HEAD and
TAIL to 0. -/
def execDoorDisable (t : Nat) (d : Fin 64) (w : Word) (s : State) : Host.Outcome State Fault Refusal :=
  onUnits t [(0, 2)] (fun s => writeDoorCfg d.val (setBit w 8 false) s) s

end Sys2Proof.Machine
end

