-- ==== Sys2Proof/Machine/CmdPcie.lean ====
section
/-!
DEFINITION. The meanings of the host interface, one definition per row of the opcode table.
-/

namespace Sys2Proof.Machine

/-- RSPVALID_CLEAR (R683): the host writes MBSTAT.RSPVALID[s] to free a mailbox slot. -/
def execRspvalidClear (t : Nat) (k : Fin 4) (s : State) : Host.Outcome State Fault Refusal :=
  onUnits t [(0, 11)] (fun s => rspClear k.val s) s

/-- LINK_LOSS (R710): PERST#, link down, hot reset, FLR, D3hot or BME cleared abandons doors, read doors and mailbox
transactions. -/
def execLinkLoss (t : Nat) (c : LinkCause) (s : State) : Host.Outcome State Fault Refusal :=
  onUnits t [] (fun s => wrapUp (linkLossRow c s)) s

/-- START (R696): A write of RD[r].CMD.START checks rights and range and starts a read-door export job. -/
def execStart (t : Nat) (r : Fin 8) (s : State) : Host.Outcome State Fault Refusal :=
  onUnits t [(0, 11)] (fun s => rdStart r.val (rdRight s) s) s

/-- FIRST_PASS_DONE (R703): A read-door or export job's first pass resolves and sizes the package and holds references. -/
def execFirstPassDone (t : Nat) (id : Fin 9) (s : State) : Host.Outcome State Fault Refusal :=
  onUnits t [] (fun s => wrapUp (firstPassRow id.val s)) s

/-- RDPTR_WRITE (R698): A host write of RDPTR lets a waiting read-door job write further package bytes. -/
def execRdptrWrite (t : Nat) (r : Fin 8) (v : BitVec 64) (s : State) : Host.Outcome State Fault Refusal :=
  onUnits t [(0, 11)] (fun s => rdPtrWrite r.val v.toNat s) s

/-- STATUS_BLOCK (R699): WRPTR advances WMARK × 4 KiB, so a status block is written and the door's vector raised. -/
def execStatusBlock (t : Nat) (r : Fin 8) (s : State) : Host.Outcome State Fault Refusal :=
  onUnits t [(0, 11)] (fun s => rdStatusBlock r.val s) s

/-- STALL_EXPIRY (R700): RDPTR does not advance for STALL seconds and the job ends STALL. -/
def execStallExpiry (t : Nat) (r : Fin 8) (s : State) : Host.Outcome State Fault Refusal :=
  onUnits t [(0, 11)] (fun s => rdStall r.val s) s

/-- READ_DOOR_ABORT (R709): A write of RD[r].CMD.ABORT resolves to LATE or ABORTED. -/
def execReadDoorAbort (t : Nat) (r : Fin 8) (tie : Bool) (s : State) : Host.Outcome State Fault Refusal :=
  onUnits t [(0, 11)] (fun s => rdoorAbort r.val tie s) s

/-- READ_DOOR_COMPLETION (R709): the last trailer byte enters the PCIe write queue, latching the job's completion. -/
def execReadDoorCompletion (t : Nat) (r : Fin 8) (s : State) : Host.Outcome State Fault Refusal :=
  onUnits t [(0, 11)] (fun s => rdComplete r.val s) s

/-- VSEL_WRITE (R679): A write of VSEL[n] sets the door's MSI-X vector, and values 0–9 are ignored. -/
def execVselWrite (t : Nat) (n : Fin 64) (v : BitVec 6) (s : State) : Host.Outcome State Fault Refusal :=
  onUnits t [(0, 11)] (fun s => vselWrite n.val v.toNat s) s

end Sys2Proof.Machine
end

