-- ==== Sys2Proof/Machine/CmdPower.lean ====
section
/-!
DEFINITION. The meanings of power and reset, one definition per row of the opcode table.
-/

namespace Sys2Proof.Machine

/-- PFAIL_N_FALL (R510): A filtered PFAIL_N low is sampled in RUN, closing ingest and starting the last-breath sequence. -/
def execPfailNFall (t : Nat) (s : State) : Host.Outcome State Fault Refusal :=
  always t (fun s => pfailFall s) s

/-- LAST_BREATH_FLUSH (R515): tile-table, LEDGER and TIMECK entries are written from the reserve and MRAM buffers drain. -/
def execLastBreathFlush (t : Nat) (s : State) : Host.Outcome State Fault Refusal :=
  always t (fun s => lbFlush s) s

/-- NAND_PARK (R518): at 1.15 ms CE_N goes high and WP_N low on every channel, whatever is still in flight. -/
def execNandPark (t : Nat) (s : State) : Host.Outcome State Fault Refusal :=
  always t (fun s => nandPark s) s

/-- PARK (R507): TWEED.PWRCMD with KEY and PARK, or object 0x9000:06, starts the last-breath sequence as a park. -/
def execPark (t : Nat) (s : State) : Host.Outcome State Fault Refusal :=
  onUnits t [] (fun s => startLastBreath s) s

/-- OPEN (R542): TWEED.PWRCMD with KEY and OPEN resumes recording at or after reset step 4. -/
def execOpenRecording (t : Nat) (s : State) : Host.Outcome State Fault Refusal :=
  onUnits t [] (fun s => recordingResume s) s

/-- IGNITION_PARK (R506): IGN_IN low for IGNDLY seconds with IGNPARK set starts the last-breath sequence as a park. -/
def execIgnitionPark (t : Nat) (s : State) : Host.Outcome State Fault Refusal :=
  always t (fun s => ignitionPark s) s

/-- WAKE (R504): an enabled wake source after 100 ms in PARKED drives PMIC_EN high and leads to a power-on reset. -/
def execWake (t : Nat) (src : Fin 4) (s : State) : Host.Outcome State Fault Refusal :=
  always t (fun s => wake src.val s) s

/-- WARMPOR_HOLD (R505): VDD_CORE is still in range 10 ms after PMIC_EN falls, so the core is held in reset. -/
def execWarmporHold (t : Nat) (s : State) : Host.Outcome State Fault Refusal :=
  always t (fun s => warmporHold s) s

/-- POR (R1119): all supply monitors have been above their release thresholds for 200 µs, so POR releases and the reset
sequence runs. -/
def execPor (t : Nat) (o : BootOut) (s : State) : Host.Outcome State Fault Refusal :=
  always t (fun s => por o s) s

/-- SUPPLY_MONITOR_FALL (R1119): A supply monitor falls below its threshold and asserts POR. -/
def execSupplyMonitorFall (t : Nat) (io18Lost : Bool) (s : State) : Host.Outcome State Fault Refusal :=
  always t (fun s => monitorFall io18Lost s) s

/-- FULL_RESET (R526): the single full reset of every source runs the reset sequence to reset release. -/
def execFullReset (t : Nat) (o : BootOut) (s : State) : Host.Outcome State Fault Refusal :=
  always t (fun s => fullReset o s) s

/-- RSTREQ (R528): A write of TWEED.RSTREQ with KEY 0x5AFE seals open stripes with cause SEAL and then asserts a full reset.
-/
def execRstreq (t : Nat) (s : State) : Host.Outcome State Fault Refusal :=
  onUnits t [] (fun s => resetRequest 8 s) s

/-- RESET (R529): procedure 0xF010 replies OK, runs the pre-reset close and resets with cause 0x09. -/
def execReset (t : Nat) (s : State) : Host.Outcome State Fault Refusal :=
  onUnits t [] (fun s => resetRequest 9 s) s

/-- RST_N_FALL (R533): RST_N low for 1 µs or longer asserts a full reset, which is held while the pin stays low. -/
def execRstNFall (t : Nat) (s : State) : Host.Outcome State Fault Refusal :=
  always t (fun s => rstFall s) s

/-- RST_N_RISE (R533): RST_N rises and releases the reset, setting SVCREQ after 3 s or more. -/
def execRstNRise (t : Nat) (s : State) : Host.Outcome State Fault Refusal :=
  always t (fun s => rstRise s) s

/-- RSTHOLD_MAX_EXPIRY (R535): RST_N low beyond RSTHOLD_MAX is declared stuck and released, and the pin is ignored until
rearmed. -/
def execRstholdMaxExpiry (t : Nat) (s : State) : Host.Outcome State Fault Refusal :=
  always t (fun s => rstStuck s) s

/-- RST_N_REARM (R535): RST_N high for 100 ms after a stuck declaration rearms the pin. -/
def execRstNRearm (t : Nat) (s : State) : Host.Outcome State Fault Refusal :=
  always t (fun s => rstRearm s) s

/-- PFAIL_STUCK_CHECK (R538): PFAIL_N is still low 1 s after reset release, so STK_PFSTUCK is set. -/
def execPfailStuckCheck (t : Nat) (s : State) : Host.Outcome State Fault Refusal :=
  always t (fun s => pfailStuck s) s

/-- INGEST_OPEN_AFTER_PFAIL (R539): PFAIL_N high for 10 ms opens ingest and enters RUN. -/
def execIngestOpenAfterPfail (t : Nat) (s : State) : Host.Outcome State Fault Refusal :=
  always t (fun s => ingestOpen s) s

/-- RECORDING_RESUME (R544): at OPEN or 250 ms after reset release, ingest opens and GAP records are written in every valid
custody. -/
def execRecordingResume (t : Nat) (s : State) : Host.Outcome State Fault Refusal :=
  always t (fun s => recordingResume s) s

end Sys2Proof.Machine
end

