-- ==== Sys2Proof/Machine/CmdRegs.lean ====
section
/-!
DEFINITION. The meanings of the two rows that carry a whole address or word: a register write, and a word that is no
instruction.
-/

namespace Sys2Proof.Machine

/-- A register write at a Serge-view address: a bus error where no register lies (R21, R46). -/
def devWrite (a : Nat) (w : Word) (env : WriteEnv) (s : State) : Host.Outcome State Fault Refusal :=
  if unitless a then .refused .unitNotGiven
  else if (regAt a).isNone || a % 4 != 0 then .fault .busError
  else if inPrivate a then .next (coreWrite a w env s)
  else if !regGated s a && regLost s a then .fault .blockUndefined
  else .next (regWrite a w env s)

/-- REGISTER_WRITE (R16): a write to a register that has no row of its own sets its fields by type. The host's writes reach the
device while it is reached. -/
def execRegisterWrite (t : Nat) (a : RegAddr) (w : Word) (env : WriteEnv) (s : State) : Host.Outcome State Fault Refusal :=
  let s := s.at t
  if !s.live then .next s
  else
    match a with
    | .dev a => devWrite a.toNat w env s
    | .bar0 k => .next (if s.reached then bar0Write (4 * k.toNat) w env s else s)
    | .bar2 k => .next (if s.reached then bar2Write (4 * k.toNat) w s else s)

/-- ILLEGAL_INSTRUCTION (R818): a word that is no allocated instruction raises ILLEGAL. -/
def execIllegalInstruction (w : Word) (env : CoreEnv) (s : State) : Host.Outcome State Fault Refusal :=
  if allocated w then .refused .illFormed else issue env (illegal w) s

end Sys2Proof.Machine
end

