-- ==== Sys2Proof/Machine/CmdSerge.lean ====
section
/-!
DEFINITION. The meanings of Serge, one definition per row of the opcode table.
-/

namespace Sys2Proof.Machine

/-- INTERRUPT (R865): at an instruction boundary the highest eligible interrupt source is taken. -/
def execInterrupt (t : Nat) (s : State) : Host.Outcome State Fault Refusal :=
  onUnits t [] (fun s => interruptRow s) s

/-- NMI (R872): A latched NMI is taken at a boundary with TW 0. -/
def execNmi (t : Nat) (s : State) : Host.Outcome State Fault Refusal :=
  onUnits t [] (fun s => nmiRow s) s

/-- STOREERR (R883): A pending imprecise store error is taken at a boundary with TW 0. -/
def execStoreerr (t : Nat) (s : State) : Host.Outcome State Fault Refusal :=
  onUnits t [] (fun s => storeErrRow s) s

/-- STORE_FAILURE (R882): A buffered store fails after leaving the buffer and records SERRADDR and SERRINFO. -/
def execStoreFailure (t : Nat) (s : State) : Host.Outcome State Fault Refusal :=
  onUnits t [] (fun s => storeFailure s) s

/-- STORE_BUFFER_DRAIN (R837): A buffered store is performed to the interconnect in program order. -/
def execStoreBufferDrain (t : Nat) (s : State) : Host.Outcome State Fault Refusal :=
  onUnits t [] (fun s => drainOne s) s

/-- EOI (R866): A write of IC.EOI pops CURLVL and clears the last ACTIVE bit. -/
def execEoi (t : Nat) (s : State) : Host.Outcome State Fault Refusal :=
  onUnits t [] (fun s => eoi s) s

/-- SWISET (R868): A write of IC.SWISET sets a software source pending. -/
def execSwiset (t : Nat) (n : BitVec 8) (s : State) : Host.Outcome State Fault Refusal :=
  onUnits t [] (fun s => swi n.toNat true s) s

/-- SWICLR (R868): A write of IC.SWICLR clears a software source. -/
def execSwiclr (t : Nat) (n : BitVec 8) (s : State) : Host.Outcome State Fault Refusal :=
  onUnits t [] (fun s => swi n.toNat false s) s

/-- TIMER_ENABLE (R847): A write setting a timer's CTRL.EN loads COUNT from LOAD. -/
def execTimerEnable (t : Nat) (n : Fin 4) (w : Word) (s : State) : Host.Outcome State Fault Refusal :=
  onUnits t [] (fun s => timerEnable n.val w s) s

/-- TIMER_EXPIRY (R848): A timer COUNT reaches 0, setting EXPIRED, then reloads or stops. -/
def execTimerExpiry (t : Nat) (n : Fin 4) (s : State) : Host.Outcome State Fault Refusal :=
  onUnits t [] (fun s => timerExpiry n.val s) s

/-- LOWWSP_WRITE (R853): A write of LOWWSP sets it to the current WSP. -/
def execLowwspWrite (t : Nat) (s : State) : Host.Outcome State Fault Refusal :=
  onUnits t [] (fun s => lowWspWrite s) s

/-- WDSERVICE (R894): A write of WDSERVICE advances or completes the service sequence, or resets on a bad key or early
service. -/
def execWdservice (t : Nat) (v : BitVec 16) (s : State) : Host.Outcome State Fault Refusal :=
  onUnits t [] (fun s => wdService v.toNat s) s

/-- WATCHDOG_TIMEOUT (R895): the watchdog count reaches TIMEOUT and asserts a full reset with cause 0x03. -/
def execWatchdogTimeout (t : Nat) (s : State) : Host.Outcome State Fault Refusal :=
  onUnits t [] (fun s => wdExpiry s) s

/-- WATCHDOG_WARNING (R896): the count reaches three quarters of TIMEOUT and sets WARN. -/
def execWatchdogWarning (t : Nat) (s : State) : Host.Outcome State Fault Refusal :=
  onUnits t [] (fun s => wdWarning s) s

/-- LOCKSTEP_MISMATCH (R886): A lockstep comparison or register parity fails, halting safely and resetting with cause 0x04. -/
def execLockstepMismatch (t : Nat) (parity : Bool) (s : State) : Host.Outcome State Fault Refusal :=
  onUnits t [] (fun s => lockstepMismatch parity s) s

/-- SCRUB (R890): the SRAM scrubber reads and corrects words in idle cycles, every 10 s. -/
def execScrub (t core stripe : Nat) (s : State) : Host.Outcome State Fault Refusal :=
  onUnits t [] (fun s => scrub core stripe s) s

/-- LOCK (R908): A write of 1 to a region's CFG.LOCK fixes the region until a full reset. -/
def execLock (t : Nat) (k : Fin 12) (r : Fin 32) (w : Word) (s : State) : Host.Outcome State Fault Refusal :=
  onUnits t [] (fun s => lockRegion k.val r.val w s) s

end Sys2Proof.Machine
end

