-- ==== Sys2Proof/Machine/CmdTweed.lean ====
section
/-!
DEFINITION. The meanings of Tweed, one definition per row of the opcode table.
-/

namespace Sys2Proof.Machine

/-- ROOTSEL_GO (R922): A write of ROOTSEL[r] with GO starts a stop-switch-restart of a root, or is refused. -/
def execRootselGo (t : Nat) (r : Fin 41) (src : BitVec 2) (idle : Bool) (s : State) : Host.Outcome State Fault Refusal :=
  onUnits t [] (fun s => rootSelWrite r.val (field 8 8 1 ||| field 1 0 src.toNat) idle s) s

/-- ROOT_SWITCH_DONE (R925): the first new-source edge is delivered and DONE is set. -/
def execRootSwitchDone (t : Nat) (r : Fin 41) (s : State) : Host.Outcome State Fault Refusal :=
  onUnits t [] (fun s => rootDone r.val s) s

/-- ROOT_SWITCH_TIMEOUT (R926): the new source gives fewer than 3 edges in 100 µs, so the root returns to the old source or to
IRC96. -/
def execRootSwitchTimeout (t : Nat) (r : Fin 41) (oldAlive : Bool) (s : State) : Host.Outcome State Fault Refusal :=
  onUnits t [] (fun s => rootTimeout r.val oldAlive s) s

/-- XIN_WINDOW_FAIL (R948): an XIN monitor window fails, moving the PLL references to IRC96 ÷ 4 and firing CLKFAIL. -/
def execXinWindowFail (t count : Nat) (ended : Bool) (s : State) : Host.Outcome State Fault Refusal :=
  onUnits t [] (fun s => xinWindow count ended s) s

/-- XINOK1S (R952): XIN passes every window for 1 s, so XINOK1S is set. -/
def execXinok1s (t : Nat) (s : State) : Host.Outcome State Fault Refusal :=
  onUnits t [] (fun s => xinOk1s s) s

/-- REFCLK_WINDOW_FAIL (R947): A PCIE_REFCLK monitor window fails. -/
def execRefclkWindowFail (t count : Nat) (ended : Bool) (s : State) : Host.Outcome State Fault Refusal :=
  onUnits t [] (fun s => refclkWindow count ended s) s

/-- PLL_LOCK_LOSS (R957): A PLL loses lock with a good reference, so its roots move to IRC96 and relock is retried. -/
def execPllLockLoss (t : Nat) (p : Fin 6) (s : State) : Host.Outcome State Fault Refusal :=
  onUnits t [] (fun s => pllLoss p.val s) s

/-- PLL_RETRY_EXPIRY (R958): A 50 µs lock retry ends, so the PLL switches back or, after three failures, parks. -/
def execPllRetryExpiry (t : Nat) (p : Fin 6) (locked : Bool) (s : State) : Host.Outcome State Fault Refusal :=
  onUnits t [] (fun s => pllRetry p.val locked s) s

/-- PLL_REFERENCE_LOSS (R918): A PLL misses its reference and enters holdover. -/
def execPllReferenceLoss (t : Nat) (p : Fin 6) (returned : Bool) (s : State) : Host.Outcome State Fault Refusal :=
  onUnits t [] (fun s => pllRefLoss p.val returned s) s

/-- IRC96_TRIM_WINDOW (R941): A 1,024-XRTC-cycle window ends and may step the IRC96 trim. -/
def execIrc96TrimWindow (t count : Nat) (s : State) : Host.Outcome State Fault Refusal :=
  onUnits t [] (fun s => trimWindow count s) s

/-- SSC_APPLY (R932): A change of SSC[p] takes effect at the next nominal crossing of the sweep. -/
def execSscApply (t : Nat) (p : Fin 6) (s : State) : Host.Outcome State Fault Refusal :=
  onUnits t [] (fun s => sscApply p.val s) s

/-- PLLOUT_WRITE (R937): A write of PLLOUT relocks PLL_OUT, with CLKOUT held low until lock. -/
def execPlloutWrite (t : Nat) (w : Word) (s : State) : Host.Outcome State Fault Refusal :=
  onUnits t [] (fun s => pllOutWrite w s) s

/-- CLKOUTCFG_WRITE (R939): A CLKOUTCFG change takes effect at the end of the current low phase. -/
def execClkoutcfgWrite (t : Nat) (n : Fin 2) (w : Word) (s : State) : Host.Outcome State Fault Refusal :=
  onUnits t [] (fun s => clkoutWrite n.val w s) s

/-- GATE_REQUEST (R961): A write of 0 to a CKEN bit asks the block for idle, and the gate closes on idle. -/
def execGateRequest (t : Nat) (r : Fin 3) (b : Fin 16) (idle : Bool) (s : State) : Host.Outcome State Fault Refusal :=
  onUnits t [] (fun s => gateRequest r.val b.val idle s) s

/-- GATE_TIMEOUT (R962): the block is not idle within 10 µs, so the gate closes anyway and STK_GATEBUSY is set. -/
def execGateTimeout (t : Nat) (r : Fin 3) (b : Fin 16) (s : State) : Host.Outcome State Fault Refusal :=
  onUnits t [] (fun s => gateTimeout r.val b.val s) s

/-- GATE_OPEN (R963): A write of 1 to a CKEN bit opens the gate, or cancels a pending idle request. -/
def execGateOpen (t : Nat) (r : Fin 3) (b : Fin 16) (s : State) : Host.Outcome State Fault Refusal :=
  onUnits t [] (fun s => gateOpen_ r.val b.val s) s

end Sys2Proof.Machine
end

