-- ==== Sys2Proof/Machine/CmdTwill.lean ====
section
/-!
DEFINITION. The meanings of Twill, one definition per row of the opcode table.
-/

namespace Sys2Proof.Machine

/-- NAND_OPERATION_DONE (R359): read Status Enhanced shows a NAND operation complete, passed or FAIL. -/
def execNandOperationDone (t : Nat) (n : Fin 8) (j : Fin 16) (res : NandRes) (badLane : Option (Fin 20)) (s : State) :
    Host.Outcome State Fault Refusal :=
  onUnits t [(0, 9), (1, n.val)] (fun s => wrapUp (nandDone n.val j.val res (badLane.map Fin.val) s)) s

/-- NAND_OPERATION_ISSUE (R355): A channel issues its next queued NAND operation when it is free. -/
def execNandOperationIssue (t : Nat) (n : Fin 8) (rbHigh : Bool) (s : State) : Host.Outcome State Fault Refusal :=
  onUnits t [(0, 9), (1, n.val)] (fun s => nandIssue n.val rbHigh s) s

/-- MEDIA_INIT (R367): procedure 0x4020 reads factory markers, writes bad-block tables, reserves spares and writes the
geometry record. -/
def execMediaInit (t : Nat) (princ : BitVec 4) (env : ProcEnv) (s : State) : Host.Outcome State Fault Refusal :=
  onUnits t [(0, 9)] (fun s => procRow (okey 0x4020 0) princ.toNat [] env s) s

/-- PAIRDATA_WRITE (R388): A write of TWILL.PAIRDATA stores a pair-table entry and auto-increments PAIRIDX, unless a channel
is READY. -/
def execPairdataWrite (t : Nat) (v : BitVec 16) (s : State) : Host.Outcome State Fault Refusal :=
  onUnits t [(0, 9)] (fun s => pairWrite v.toNat s) s

/-- RRDATA_WRITE (R399): A write of TWILL.RRDATA stores four read-retry bytes and auto-increments RRIDX. -/
def execRrdataWrite (t : Nat) (w : Word) (s : State) : Host.Outcome State Fault Refusal :=
  onUnits t [(0, 9)] (fun s => rrWrite w s) s

/-- OFFDATA_WRITE (R391): A write of OFFDATA sets a LUN level offset as a probe result would, and OFFIDX auto-increments. -/
def execOffdataWrite (t : Nat) (n : Fin 8) (v : BitVec 8) (s : State) : Host.Outcome State Fault Refusal :=
  onUnits t [(0, 9), (1, n.val)] (fun s => offWrite n.val v.toNat s) s

/-- SUPERPAGE_PROGRAM (R382): A superpage whose data slots are full is programmed, with parity and ledger units placed. -/
def execSuperpageProgram (t : Nat) (n : Fin 17) (s : State) : Host.Outcome State Fault Refusal :=
  onUnits t [(0, 9)] (fun s => superpageProgram n.val s) s

/-- FILLMAX_EXPIRY (R382): FILLMAX milliseconds after a superpage's first slot filled, it is programmed with padding. -/
def execFillmaxExpiry (t : Nat) (n : Fin 17) (s : State) : Host.Outcome State Fault Refusal :=
  onUnits t [(0, 9)] (fun s => fillmax n.val s) s

/-- PAIRMAX_EXPIRY (R390): A superpage has waited PAIRMAX milliseconds for its closer, so padding superpages are programmed.
-/
def execPairmaxExpiry (t k : Nat) (s : State) : Host.Outcome State Fault Refusal :=
  onUnits t [(0, 9)] (fun s => pairmax k s) s

/-- PROBE (R394): in a CAL window with class bit 0, a probe sweeps one level of one LUN. -/
def execProbe (t : Nat) (n : Fin 8) (j : Fin 16) (decoded : Bool) (mism : List Nat) (s : State) :
    Host.Outcome State Fault Refusal :=
  onUnits t [(0, 9), (1, n.val)] (fun s => probe n.val j.val decoded mism s) s

/-- SCRUB_PATROL (R401): every PATROLH hours, in GC windows, Twill reads one codeword of each segment and may mark it for
refresh. -/
def execScrubPatrol (t : Nat) (s : State) : Host.Outcome State Fault Refusal :=
  onUnits t [(0, 9)] (fun s => scrubPatrol s) s

/-- OPERATION_OVERDUE (R406): an operation passes its maximum time, and its LUN is excluded from new superpages and segments.
-/
def execOperationOverdue (t : Nat) (n : Fin 8) (j : Fin 16) (s : State) : Host.Outcome State Fault Refusal :=
  onUnits t [(0, 9), (1, n.val)] (fun s => opOverdue n.val j.val s) s

/-- OPERATION_TIMEOUT (R407): an operation whose LUN is busy at timeout parks its target and completes its operations
TGT_LOST. -/
def execOperationTimeout (t : Nat) (n : Fin 8) (j : Fin 16) (completed : Bool) (s : State) :
    Host.Outcome State Fault Refusal :=
  onUnits t [(0, 9), (1, n.val)] (fun s => opTimeout n.val j.val completed s) s

/-- RBSTUCK_EXPIRY (R409): RB_N stays low for RBSTUCK, so the channel is parked and its operations end CHAN_LOST. -/
def execRbstuckExpiry (t : Nat) (n : Fin 8) (s : State) : Host.Outcome State Fault Refusal :=
  onUnits t [(0, 9), (1, n.val)] (fun s => rbStuck n.val s) s

/-- ENCODER_LANE_FAILURE (R422): an encoded codeword fails the syndrome checker: the lane parks and the codeword is encoded
again. -/
def execEncoderLaneFailure (t : Nat) (lane : Fin 4) (s : State) : Host.Outcome State Fault Refusal :=
  onUnits t [(0, 9)] (fun s => parkLdpc (16 + lane.val) s) s

/-- RDABORT (R425): A write of TWILL.RDABORT resolves an export read job to LATE, ABORTED or NOTFOUND. -/
def execRdabort (t : Nat) (id : BitVec 16) (tie : Bool) (s : State) : Host.Outcome State Fault Refusal :=
  onUnits t [(0, 9)] (fun s => rdAbort id.toNat tie s) s

/-- CHECKPOINT_NOW (R443): object 0x4052 or TWILL.CMD.CKPT starts a checkpoint, or merges into one running. -/
def execCheckpointNow (t : Nat) (s : State) : Host.Outcome State Fault Refusal :=
  onUnits t [(0, 9)] (fun s => ckRequest s) s

/-- CHECKPOINT_START (R443): A checkpoint starts on low log space or AUTOPCT occupancy, and takes its snapshot. -/
def execCheckpointStart (t : Nat) (s : State) : Host.Outcome State Fault Refusal :=
  onUnits t [(0, 9)] (fun s => ckAuto s) s

/-- CHECKPOINT_DONE (R444): dirty table pages are safe, the alternate slot is written, and the CKPT entry lets the log tail
advance. -/
def execCheckpointDone (t : Nat) (s : State) : Host.Outcome State Fault Refusal :=
  onUnits t [(0, 9)] (fun s => wrapUp (ckDone s)) s

/-- TIMECK (R439): once per second of EVT, Twill writes a TIMECK entry. -/
def execTimeck (t : Nat) (s : State) : Host.Outcome State Fault Refusal :=
  onUnits t [(0, 9)] (fun s => timeck s) s

/-- MRAM_SCRUB (R448): every SCRUBD days, Twill reads the configuration area and checkpoint slots and writes back corrected
words. -/
def execMramScrub (t corrected : Nat) (s : State) : Host.Outcome State Fault Refusal :=
  onUnits t [(0, 9)] (fun s => mramScrub corrected s) s

/-- FIELD_SENSOR_ASSERT (R450): the field sensor reports above 20 mT, so journal writes are read back and MAGHI is set. -/
def execFieldSensorAssert (t : Nat) (s : State) : Host.Outcome State Fault Refusal :=
  onUnits t [(0, 9)] (fun s => fieldOn s) s

/-- FIELD_SENSOR_DEASSERT (R451): the field sensor deasserts, so Twill reads every live journal structure once and starts a
checkpoint. -/
def execFieldSensorDeassert (t corrected : Nat) (badTile : Bool) (s : State) : Host.Outcome State Fault Refusal :=
  onUnits t [(0, 9)] (fun s => fieldOff corrected badTile s) s

/-- HOLD_RELEASE (R461): procedure 0x4050 makes a unit range dead in a LOOP or HOLD namespace. -/
def execHoldRelease (t : Nat) (princ : BitVec 4) (n : BitVec 8) (lo hi : BitVec 64) (s : State) :
    Host.Outcome State Fault Refusal :=
  onUnits t [(0, 9)] (fun s => procRow (okey 0x4050 0) princ.toNat (le 1 n.toNat ++ le 8 lo.toNat ++ le 8 hi.toNat) {} s) s

/-- NS_PURGE (R462): procedure 0x4051 makes every unit of a LOOP or HOLD namespace dead. -/
def execNsPurge (t : Nat) (princ : BitVec 4) (n : BitVec 8) (s : State) : Host.Outcome State Fault Refusal :=
  onUnits t [(0, 9)] (fun s => procRow (okey 0x4051 0) princ.toNat (le 1 n.toNat) {} s) s

/-- SEGMENT_ALLOCATION (R486): Twill chooses a FREE segment ahead of an open one, logs ALLOCATING and erases its member
blocks. -/
def execSegmentAllocation (t : Nat) (n : Fin 17) (gc : Bool) (s : State) : Host.Outcome State Fault Refusal :=
  onUnits t [(0, 9)] (fun s => segAllocate n.val gc s) s

/-- SEGMENT_ERASE_DONE (R487): the allocation erases complete, with failed blocks replaced by spares, and SEGSTATE ALLOCATED
is logged. -/
def execSegmentEraseDone (t k : Nat) (s : State) : Host.Outcome State Fault Refusal :=
  onUnits t [(0, 9)] (fun s => segEraseDone k s) s

/-- GC_COPY (R479): garbage collection starts copying live units of a selected source into a destination, in a window or under
urgency. -/
def execGcCopy (t : Nat) (s : State) : Host.Outcome State Fault Refusal :=
  onUnits t [(0, 9)] (fun s => gcCopy s) s

/-- READ_JOB_END (R485): A read job ends and releases its segment references. -/
def execReadJobEnd (t id : Nat) (s : State) : Host.Outcome State Fault Refusal :=
  onUnits t [(0, 9)] (fun s => readJobEnd id s) s

/-- TABLE_PAGES_READ (R494): table pages are read from NAND after the channels are READY, and placement begins. -/
def execTablePagesRead (t : Nat) (s : State) : Host.Outcome State Fault Refusal :=
  onUnits t [(0, 9)] (fun s => tablesRead s) s

end Sys2Proof.Machine
end

