-- ==== Sys2Proof/Machine/InsAlu.lean ====
section
/-!
DEFINITION. The meanings of Serge's register, immediate, multiply and divide instructions, one definition per row of the opcode table.
-/

namespace Sys2Proof.Machine

/-- ADD (R824): rd = rs1 + rs2. -/
def execAdd (rd rs1 rs2 : BitVec 5) (env : CoreEnv) (s : State) : Host.Outcome State Fault Refusal :=
  issue env (alu rd 1 (fun s => (s.x rs1) + (s.x rs2))) s

/-- SUB (R824): rd = rs1 − rs2. -/
def execSub (rd rs1 rs2 : BitVec 5) (env : CoreEnv) (s : State) : Host.Outcome State Fault Refusal :=
  issue env (alu rd 1 (fun s => (s.x rs1) - (s.x rs2))) s

/-- AND (R824): Bitwise AND. -/
def execAnd (rd rs1 rs2 : BitVec 5) (env : CoreEnv) (s : State) : Host.Outcome State Fault Refusal :=
  issue env (alu rd 1 (fun s => (s.x rs1) &&& (s.x rs2))) s

/-- OR (R824): Bitwise OR. -/
def execOr (rd rs1 rs2 : BitVec 5) (env : CoreEnv) (s : State) : Host.Outcome State Fault Refusal :=
  issue env (alu rd 1 (fun s => (s.x rs1) ||| (s.x rs2))) s

/-- XOR (R824): Bitwise XOR. -/
def execXor (rd rs1 rs2 : BitVec 5) (env : CoreEnv) (s : State) : Host.Outcome State Fault Refusal :=
  issue env (alu rd 1 (fun s => (s.x rs1) ^^^ (s.x rs2))) s

/-- ANDN (R824): rs1 AND NOT rs2. -/
def execAndn (rd rs1 rs2 : BitVec 5) (env : CoreEnv) (s : State) : Host.Outcome State Fault Refusal :=
  issue env (alu rd 1 (fun s => (s.x rs1) &&& ~~~(s.x rs2))) s

/-- SLL (R824): Shift left logical by register. -/
def execSll (rd rs1 rs2 : BitVec 5) (env : CoreEnv) (s : State) : Host.Outcome State Fault Refusal :=
  issue env (alu rd 1 (fun s => (s.x rs1) <<< shamtOf (s.x rs2))) s

/-- SRL (R824): Shift right logical by register. -/
def execSrl (rd rs1 rs2 : BitVec 5) (env : CoreEnv) (s : State) : Host.Outcome State Fault Refusal :=
  issue env (alu rd 1 (fun s => (s.x rs1) >>> shamtOf (s.x rs2))) s

/-- SRA (R824): Shift right arithmetic by register. -/
def execSra (rd rs1 rs2 : BitVec 5) (env : CoreEnv) (s : State) : Host.Outcome State Fault Refusal :=
  issue env (alu rd 1 (fun s => (s.x rs1).sshiftRight (shamtOf (s.x rs2)))) s

/-- ROR (R824): Rotate right by register. -/
def execRor (rd rs1 rs2 : BitVec 5) (env : CoreEnv) (s : State) : Host.Outcome State Fault Refusal :=
  issue env (alu rd 1 (fun s => (s.x rs1).rotateRight (shamtOf (s.x rs2)))) s

/-- SLT (R824): Signed set-less-than. -/
def execSlt (rd rs1 rs2 : BitVec 5) (env : CoreEnv) (s : State) : Host.Outcome State Fault Refusal :=
  issue env (alu rd 1 (fun s => boolWord ((s.x rs1).slt (s.x rs2)))) s

/-- SLTU (R824): Unsigned set-less-than. -/
def execSltu (rd rs1 rs2 : BitVec 5) (env : CoreEnv) (s : State) : Host.Outcome State Fault Refusal :=
  issue env (alu rd 1 (fun s => boolWord ((s.x rs1).ult (s.x rs2)))) s

/-- MIN (R824): Signed minimum. -/
def execMin (rd rs1 rs2 : BitVec 5) (env : CoreEnv) (s : State) : Host.Outcome State Fault Refusal :=
  issue env (alu rd 1 (fun s => if (s.x rs1).slt (s.x rs2) then (s.x rs1) else (s.x rs2))) s

/-- MAX (R824): Signed maximum. -/
def execMax (rd rs1 rs2 : BitVec 5) (env : CoreEnv) (s : State) : Host.Outcome State Fault Refusal :=
  issue env (alu rd 1 (fun s => if (s.x rs1).slt (s.x rs2) then (s.x rs2) else (s.x rs1))) s

/-- MINU (R824): Unsigned minimum. -/
def execMinu (rd rs1 rs2 : BitVec 5) (env : CoreEnv) (s : State) : Host.Outcome State Fault Refusal :=
  issue env (alu rd 1 (fun s => if (s.x rs1).ult (s.x rs2) then (s.x rs1) else (s.x rs2))) s

/-- MAXU (R824): Unsigned maximum. -/
def execMaxu (rd rs1 rs2 : BitVec 5) (env : CoreEnv) (s : State) : Host.Outcome State Fault Refusal :=
  issue env (alu rd 1 (fun s => if (s.x rs1).ult (s.x rs2) then (s.x rs2) else (s.x rs1))) s

/-- CSEL (R824): Conditional select on rd. -/
def execCsel (rd rs1 rs2 : BitVec 5) (env : CoreEnv) (s : State) : Host.Outcome State Fault Refusal :=
  issue env (alu rd 1 (fun s => if s.x rd = 0 then (s.x rs2) else (s.x rs1))) s

/-- CLZ (R824): Count leading zeros. -/
def execClz (rd rs1 : BitVec 5) (env : CoreEnv) (s : State) : Host.Outcome State Fault Refusal :=
  issue env (alu rd 1 (fun s => clz (s.x rs1))) s

/-- CTZ (R824): Count trailing zeros. -/
def execCtz (rd rs1 : BitVec 5) (env : CoreEnv) (s : State) : Host.Outcome State Fault Refusal :=
  issue env (alu rd 1 (fun s => ctz (s.x rs1))) s

/-- POPC (R824): Population count. -/
def execPopc (rd rs1 : BitVec 5) (env : CoreEnv) (s : State) : Host.Outcome State Fault Refusal :=
  issue env (alu rd 1 (fun s => popc (s.x rs1))) s

/-- BSWAP (R824): Byte-order reverse. -/
def execBswap (rd rs1 : BitVec 5) (env : CoreEnv) (s : State) : Host.Outcome State Fault Refusal :=
  issue env (alu rd 1 (fun s => bswap (s.x rs1))) s

/-- SEXTB (R824): Sign-extend a byte. -/
def execSextb (rd rs1 : BitVec 5) (env : CoreEnv) (s : State) : Host.Outcome State Fault Refusal :=
  issue env (alu rd 1 (fun s => ((s.x rs1).setWidth 8).signExtend 32)) s

/-- SEXTH (R824): Sign-extend a halfword. -/
def execSexth (rd rs1 : BitVec 5) (env : CoreEnv) (s : State) : Host.Outcome State Fault Refusal :=
  issue env (alu rd 1 (fun s => ((s.x rs1).setWidth 16).signExtend 32)) s

/-- ZEXTH (R824): Zero-extend a halfword. -/
def execZexth (rd rs1 : BitVec 5) (env : CoreEnv) (s : State) : Host.Outcome State Fault Refusal :=
  issue env (alu rd 1 (fun s => ((s.x rs1).setWidth 16).setWidth 32)) s

/-- MUL (R824): Low 32 bits of the product. -/
def execMul (rd rs1 rs2 : BitVec 5) (env : CoreEnv) (s : State) : Host.Outcome State Fault Refusal :=
  issue env (aluTimed rd (fun s => mulCost s (s.x rs2)) (fun s => (s.x rs1) * (s.x rs2))) s

/-- MULH (R824): High 32 bits of the signed product. -/
def execMulh (rd rs1 rs2 : BitVec 5) (env : CoreEnv) (s : State) : Host.Outcome State Fault Refusal :=
  issue env (aluTimed rd (fun s => mulCost s (s.x rs2)) (fun s => mulHigh true true (s.x rs1) (s.x rs2))) s

/-- MULHU (R824): High 32 bits of the unsigned product. -/
def execMulhu (rd rs1 rs2 : BitVec 5) (env : CoreEnv) (s : State) : Host.Outcome State Fault Refusal :=
  issue env (aluTimed rd (fun s => mulCost s (s.x rs2)) (fun s => mulHigh false false (s.x rs1) (s.x rs2))) s

/-- MULHSU (R824): High 32 bits of the signed-by-unsigned product. -/
def execMulhsu (rd rs1 rs2 : BitVec 5) (env : CoreEnv) (s : State) : Host.Outcome State Fault Refusal :=
  issue env (aluTimed rd (fun s => mulCost s (s.x rs2)) (fun s => mulHigh true false (s.x rs1) (s.x rs2))) s

/-- DIV (R821): Signed quotient. -/
def execDiv (rd rs1 rs2 : BitVec 5) (env : CoreEnv) (s : State) : Host.Outcome State Fault Refusal :=
  issue env (aluTimed rd (fun s => divCost s (s.x rs1) (s.x rs2)) (fun s => divS (s.x rs1) (s.x rs2))) s

/-- DIVU (R821): Unsigned quotient. -/
def execDivu (rd rs1 rs2 : BitVec 5) (env : CoreEnv) (s : State) : Host.Outcome State Fault Refusal :=
  issue env (aluTimed rd (fun s => divCost s (s.x rs1) (s.x rs2)) (fun s => divU (s.x rs1) (s.x rs2))) s

/-- REM (R821): Signed remainder. -/
def execRem (rd rs1 rs2 : BitVec 5) (env : CoreEnv) (s : State) : Host.Outcome State Fault Refusal :=
  issue env (aluTimed rd (fun s => divCost s (s.x rs1) (s.x rs2)) (fun s => remS (s.x rs1) (s.x rs2))) s

/-- REMU (R821): Unsigned remainder. -/
def execRemu (rd rs1 rs2 : BitVec 5) (env : CoreEnv) (s : State) : Host.Outcome State Fault Refusal :=
  issue env (aluTimed rd (fun s => divCost s (s.x rs1) (s.x rs2)) (fun s => remU (s.x rs1) (s.x rs2))) s

/-- ADDI (R820): Add a sign-extended immediate. -/
def execAddi (rd rs1 : BitVec 5) (imm : BitVec 14) (env : CoreEnv) (s : State) : Host.Outcome State Fault Refusal :=
  issue env (alu rd 1 (fun s => (s.x rs1) + imm.signExtend 32)) s

/-- ANDI (R820): AND with a zero-extended immediate. -/
def execAndi (rd rs1 : BitVec 5) (imm : BitVec 14) (env : CoreEnv) (s : State) : Host.Outcome State Fault Refusal :=
  issue env (alu rd 1 (fun s => (s.x rs1) &&& imm.setWidth 32)) s

/-- ORI (R820): OR with a zero-extended immediate. -/
def execOri (rd rs1 : BitVec 5) (imm : BitVec 14) (env : CoreEnv) (s : State) : Host.Outcome State Fault Refusal :=
  issue env (alu rd 1 (fun s => (s.x rs1) ||| imm.setWidth 32)) s

/-- XORI (R820): XOR with a zero-extended immediate. -/
def execXori (rd rs1 : BitVec 5) (imm : BitVec 14) (env : CoreEnv) (s : State) : Host.Outcome State Fault Refusal :=
  issue env (alu rd 1 (fun s => (s.x rs1) ^^^ imm.setWidth 32)) s

/-- SLTI (R824): Signed compare with an immediate. -/
def execSlti (rd rs1 : BitVec 5) (imm : BitVec 14) (env : CoreEnv) (s : State) : Host.Outcome State Fault Refusal :=
  issue env (alu rd 1 (fun s => boolWord ((s.x rs1).slt (imm.signExtend 32)))) s

/-- SLTIU (R824): Unsigned compare with an immediate. -/
def execSltiu (rd rs1 : BitVec 5) (imm : BitVec 14) (env : CoreEnv) (s : State) : Host.Outcome State Fault Refusal :=
  issue env (alu rd 1 (fun s => boolWord ((s.x rs1).ult (imm.signExtend 32)))) s

/-- SLLI (R824): Shift left by an immediate. -/
def execSlli (rd rs1 shamt : BitVec 5) (env : CoreEnv) (s : State) : Host.Outcome State Fault Refusal :=
  issue env (alu rd 1 (fun s => (s.x rs1) <<< shamt.toNat)) s

/-- SRLI (R824): Shift right logical by an immediate. -/
def execSrli (rd rs1 shamt : BitVec 5) (env : CoreEnv) (s : State) : Host.Outcome State Fault Refusal :=
  issue env (alu rd 1 (fun s => (s.x rs1) >>> shamt.toNat)) s

/-- SRAI (R824): Shift right arithmetic by an immediate. -/
def execSrai (rd rs1 shamt : BitVec 5) (env : CoreEnv) (s : State) : Host.Outcome State Fault Refusal :=
  issue env (alu rd 1 (fun s => (s.x rs1).sshiftRight shamt.toNat)) s

/-- RORI (R824): Rotate right by an immediate. -/
def execRori (rd rs1 shamt : BitVec 5) (env : CoreEnv) (s : State) : Host.Outcome State Fault Refusal :=
  issue env (alu rd 1 (fun s => (s.x rs1).rotateRight shamt.toNat)) s

/-- LUI (R824): Load the upper immediate. -/
def execLui (rd : BitVec 5) (imm : BitVec 20) (env : CoreEnv) (s : State) : Host.Outcome State Fault Refusal :=
  issue env (alu rd 1 (fun _ => imm.setWidth 32 <<< 12)) s

/-- PCA (R824): PC-relative word address. -/
def execPca (rd : BitVec 5) (imm : BitVec 20) (env : CoreEnv) (s : State) : Host.Outcome State Fault Refusal :=
  issue env (alu rd 1 (fun s => s.serge.pc + (imm.signExtend 32 <<< 2))) s

end Sys2Proof.Machine
end

