-- ==== Sys2Proof/Machine/InsFlow.lean ====
section
/-!
DEFINITION. The meanings of Serge's branches, jumps and window operations, one definition per row of the opcode table.
-/

namespace Sys2Proof.Machine

/-- BEQ (R819): Branch if equal. -/
def execBeq (rs1 rs2 : BitVec 5) (off : BitVec 14) (env : CoreEnv) (s : State) : Host.Outcome State Fault Refusal :=
  issue env (branchOp off (fun s => (s.x rs1) == (s.x rs2))) s

/-- BNE (R819): Branch if not equal. -/
def execBne (rs1 rs2 : BitVec 5) (off : BitVec 14) (env : CoreEnv) (s : State) : Host.Outcome State Fault Refusal :=
  issue env (branchOp off (fun s => (s.x rs1) != (s.x rs2))) s

/-- BLT (R819): Branch if signed less. -/
def execBlt (rs1 rs2 : BitVec 5) (off : BitVec 14) (env : CoreEnv) (s : State) : Host.Outcome State Fault Refusal :=
  issue env (branchOp off (fun s => (s.x rs1).slt (s.x rs2))) s

/-- BGE (R819): Branch if signed greater or equal. -/
def execBge (rs1 rs2 : BitVec 5) (off : BitVec 14) (env : CoreEnv) (s : State) : Host.Outcome State Fault Refusal :=
  issue env (branchOp off (fun s => !(s.x rs1).slt (s.x rs2))) s

/-- BLTU (R819): Branch if unsigned less. -/
def execBltu (rs1 rs2 : BitVec 5) (off : BitVec 14) (env : CoreEnv) (s : State) : Host.Outcome State Fault Refusal :=
  issue env (branchOp off (fun s => (s.x rs1).ult (s.x rs2))) s

/-- BGEU (R819): Branch if unsigned greater or equal. -/
def execBgeu (rs1 rs2 : BitVec 5) (off : BitVec 14) (env : CoreEnv) (s : State) : Host.Outcome State Fault Refusal :=
  issue env (branchOp off (fun s => !(s.x rs1).ult (s.x rs2))) s

/-- JMP (R819): Jump. -/
def execJmp (off : BitVec 20) (env : CoreEnv) (s : State) : Host.Outcome State Fault Refusal :=
  issue env (jumpOp off) s

/-- CALL (R790): Jump with d7 = PC + 4. -/
def execCall (off : BitVec 20) (env : CoreEnv) (s : State) : Host.Outcome State Fault Refusal :=
  issue env (callOp off) s

/-- JALR (R827): Register-indirect jump and link. -/
def execJalr (rd rs1 : BitVec 5) (imm : BitVec 14) (env : CoreEnv) (s : State) : Host.Outcome State Fault Refusal :=
  issue env (jalrOp rd rs1 imm) s

/-- ENTER (R796): Rotate to a new window, spilling the oldest frame when the ring is full. -/
def execEnter (imm : BitVec 14) (env : CoreEnv) (s : State) : Host.Outcome State Fault Refusal :=
  issue env (enterInstr imm) s

/-- LEAVE (R796): Return to the previous window, filling it when it is not resident. -/
def execLeave (env : CoreEnv) (s : State) : Host.Outcome State Fault Refusal :=
  issue env (leaveInstr env) s

/-- TDROP (R802): Leave the trap window into a new normal window using the reserve limit. -/
def execTdrop (imm : BitVec 14) (env : CoreEnv) (s : State) : Host.Outcome State Fault Refusal :=
  issue env (tdropInstr imm) s

end Sys2Proof.Machine
end

