-- ==== Sys2Proof/Machine/InsMem.lean ====
section
/-!
DEFINITION. The meanings of Serge's loads, stores and atomics, one definition per row of the opcode table.
-/

namespace Sys2Proof.Machine

/-- LB (R833): Load a sign-extended byte. -/
def execLb (rd rs1 : BitVec 5) (imm : BitVec 14) (env : CoreEnv) (s : State) : Host.Outcome State Fault Refusal :=
  issue env (loadOp rd rs1 imm 1 (fun w => (w.setWidth 8).signExtend 32) env) s

/-- LBU (R833): Load a zero-extended byte. -/
def execLbu (rd rs1 : BitVec 5) (imm : BitVec 14) (env : CoreEnv) (s : State) : Host.Outcome State Fault Refusal :=
  issue env (loadOp rd rs1 imm 1 (fun w => (w.setWidth 8).setWidth 32) env) s

/-- LH (R833): Load a sign-extended halfword. -/
def execLh (rd rs1 : BitVec 5) (imm : BitVec 14) (env : CoreEnv) (s : State) : Host.Outcome State Fault Refusal :=
  issue env (loadOp rd rs1 imm 2 (fun w => (w.setWidth 16).signExtend 32) env) s

/-- LHU (R833): Load a zero-extended halfword. -/
def execLhu (rd rs1 : BitVec 5) (imm : BitVec 14) (env : CoreEnv) (s : State) : Host.Outcome State Fault Refusal :=
  issue env (loadOp rd rs1 imm 2 (fun w => (w.setWidth 16).setWidth 32) env) s

/-- LW (R833): Load a word. -/
def execLw (rd rs1 : BitVec 5) (imm : BitVec 14) (env : CoreEnv) (s : State) : Host.Outcome State Fault Refusal :=
  issue env (loadOp rd rs1 imm 4 (fun w => w) env) s

/-- SB (R837): Store a byte through the store buffer. -/
def execSb (rd rs1 : BitVec 5) (imm : BitVec 14) (env : CoreEnv) (s : State) : Host.Outcome State Fault Refusal :=
  issue env (storeOp rd rs1 imm 1 env) s

/-- SH (R837): Store a halfword through the store buffer. -/
def execSh (rd rs1 : BitVec 5) (imm : BitVec 14) (env : CoreEnv) (s : State) : Host.Outcome State Fault Refusal :=
  issue env (storeOp rd rs1 imm 2 env) s

/-- SW (R837): Store a word through the store buffer. -/
def execSw (rd rs1 : BitVec 5) (imm : BitVec 14) (env : CoreEnv) (s : State) : Host.Outcome State Fault Refusal :=
  issue env (storeOp rd rs1 imm 4 env) s

/-- SWAP (R835): Atomic swap on core or stripe SRAM. -/
def execSwap (rd rs1 : BitVec 5) (imm : BitVec 14) (env : CoreEnv) (s : State) : Host.Outcome State Fault Refusal :=
  issue env (atomicOp rd (fun s => ea rs1 imm s) (fun s _ => some (s.x rd)) env) s

/-- CAS (R835): Atomic compare-and-swap. -/
def execCas (rd rs1 rs2 : BitVec 5) (env : CoreEnv) (s : State) : Host.Outcome State Fault Refusal :=
  issue env (atomicOp rd (fun s => (s.x rs1).toNat) (fun s t => if t = s.x rs2 then some (s.x rd) else none) env) s

end Sys2Proof.Machine
end

