-- ==== Sys2Proof/Machine/InsSys.lean ====
section
/-!
DEFINITION. The meanings of Serge's system instructions, one definition per row of the opcode table.
-/

namespace Sys2Proof.Machine

/-- TRAP (R857): Raise a synchronous TRAP with EVAL = imm11. -/
def execTrap (imm : BitVec 11) (env : CoreEnv) (s : State) : Host.Outcome State Fault Refusal :=
  issue env (trapInstr imm) s

/-- TRET (R815): Restore PC and PSTAT from EPC and EPSTAT. -/
def execTret (env : CoreEnv) (s : State) : Host.Outcome State Fault Refusal :=
  issue env (tretInstr) s

/-- WFI (R828): Stall until an interrupt is pending and enabled. -/
def execWfi (env : CoreEnv) (s : State) : Host.Outcome State Fault Refusal :=
  issue env (wfiInstr) s

/-- FENCE (R843): Order memory accesses by the SL, SYNC and IFETCH kinds. -/
def execFence (imm : BitVec 11) (env : CoreEnv) (s : State) : Host.Outcome State Fault Refusal :=
  issue env (fenceInstr imm) s

/-- MOVS (R811): Write a special register. -/
def execMovs (imm : BitVec 11) (rs1 : BitVec 5) (env : CoreEnv) (s : State) : Host.Outcome State Fault Refusal :=
  issue env (movsInstr imm rs1) s

/-- MOVG (R809): Read a special register. -/
def execMovg (rd : BitVec 5) (imm : BitVec 11) (env : CoreEnv) (s : State) : Host.Outcome State Fault Refusal :=
  issue env (movgInstr rd imm) s

/-- WFLUSH (R804): Spill every resident frame except the current one. -/
def execWflush (env : CoreEnv) (s : State) : Host.Outcome State Fault Refusal :=
  issue env (wflushInstr) s

end Sys2Proof.Machine
end

