-- ==== Sys2Proof/Machine/Dispatch.lean ====
section
/-!
DEFINITION. What each command does: one arm per constructor, each a call of that command's own meaning.
-/

namespace Sys2Proof.Machine

/-- The effect of a command on everything but the queue. -/
def exec (i : Instr) (s : State) : Host.Outcome State Fault Refusal :=
  match i with
  | .refFrameStart t lf => Sys2Proof.Machine.execRefFrameStart t lf s
  | .flywheelFrameStart t lf => Sys2Proof.Machine.execFlywheelFrameStart t lf s
  | .reflostTakeover t lf => Sys2Proof.Machine.execReflostTakeover t lf s
  | .frameEnd t lf => Sys2Proof.Machine.execFrameEnd t lf s
  | .lineTick t lf => Sys2Proof.Machine.execLineTick t lf s
  | .commitPointTimer t => Sys2Proof.Machine.execCommitPointTimer t s
  | .fsyncOutFramePulse t n => Sys2Proof.Machine.execFsyncOutFramePulse t n s
  | .pulseEnd t n => Sys2Proof.Machine.execPulseEnd t n s
  | .canvasDisable t lf => Sys2Proof.Machine.execCanvasDisable t lf s
  | .canvasEnable t lf => Sys2Proof.Machine.execCanvasEnable t lf s
  | .apply t => Sys2Proof.Machine.execApply t s
  | .longPacket t p vc dt wc payload h crcOk => Sys2Proof.Machine.execLongPacket t p vc dt wc payload h crcOk s
  | .fsPacket t p vc => Sys2Proof.Machine.execFsPacket t p vc s
  | .fePacket t p vc => Sys2Proof.Machine.execFePacket t p vc s
  | .deskewSequence t p aligned => Sys2Proof.Machine.execDeskewSequence t p aligned s
  | .byteAccepted t cam => Sys2Proof.Machine.execByteAccepted t cam s
  | .stripeRecordWritten t c => Sys2Proof.Machine.execStripeRecordWritten t c s
  | .inval t n applyAt => Sys2Proof.Machine.execInval t n applyAt s
  | .doorbell t d tail => Sys2Proof.Machine.execDoorbell t d tail s
  | .descriptorFetchDone t d ok b => Sys2Proof.Machine.execDescriptorFetchDone t d ok b s
  | .doorDataReadDone t d ok b => Sys2Proof.Machine.execDoorDataReadDone t d ok b s
  | .doorDisable t d w => Sys2Proof.Machine.execDoorDisable t d w s
  | .anchorNow t => Sys2Proof.Machine.execAnchorNow t s
  | .anchorSigned t => Sys2Proof.Machine.execAnchorSigned t s
  | .epochNow t => Sys2Proof.Machine.execEpochNow t s
  | .timemapNow t => Sys2Proof.Machine.execTimemapNow t s
  | .timemapPeriod t => Sys2Proof.Machine.execTimemapPeriod t s
  | .epochSequenceStart t => Sys2Proof.Machine.execEpochSequenceStart t s
  | .epochKeygenDone t => Sys2Proof.Machine.execEpochKeygenDone t s
  | .epochSigned t => Sys2Proof.Machine.execEpochSigned t s
  | .keywrap t c kind alg src => Sys2Proof.Machine.execKeywrap t c kind alg src s
  | .keywrapDone t => Sys2Proof.Machine.execKeywrapDone t s
  | .alloc t n => Sys2Proof.Machine.execAlloc t n s
  | .zeroize t h => Sys2Proof.Machine.execZeroize t h s
  | .narrow t h => Sys2Proof.Machine.execNarrow t h s
  | .generate t n h => Sys2Proof.Machine.execGenerate t n h s
  | .importKey t h => Sys2Proof.Machine.execImportKey t h s
  | .keymove t n ctx => Sys2Proof.Machine.execKeymove t n ctx s
  | .restore t n ctx => Sys2Proof.Machine.execRestore t n ctx s
  | .feltWriteThroughDone t n => Sys2Proof.Machine.execFeltWriteThroughDone t n s
  | .digestSubmit t a => Sys2Proof.Machine.execDigestSubmit t a s
  | .digestJobStart t => Sys2Proof.Machine.execDigestJobStart t s
  | .digestJobDone t l ue => Sys2Proof.Machine.execDigestJobDone t l ue s
  | .digestAbort t a tie => Sys2Proof.Machine.execDigestAbort t a tie s
  | .cipherSubmit t a => Sys2Proof.Machine.execCipherSubmit t a s
  | .cipherJobStart t => Sys2Proof.Machine.execCipherJobStart t s
  | .cipherJobDone t l ue => Sys2Proof.Machine.execCipherJobDone t l ue s
  | .cipherAbort t a tie => Sys2Proof.Machine.execCipherAbort t a tie s
  | .ctxselCommit t ctx ty du => Sys2Proof.Machine.execCtxselCommit t ctx ty du s
  | .stripeEncrypt t jsn ue => Sys2Proof.Machine.execStripeEncrypt t jsn ue s
  | .laneMismatch t u l => Sys2Proof.Machine.execLaneMismatch t u l s
  | .selftest t princ env => Sys2Proof.Machine.execSelftest t princ env s
  | .healthTestFailure t => Sys2Proof.Machine.execHealthTestFailure t s
  | .startUpTestDone t => Sys2Proof.Machine.execStartUpTestDone t s
  | .drbgRequest t n => Sys2Proof.Machine.execDrbgRequest t n s
  | .drbgWaitExpiry t => Sys2Proof.Machine.execDrbgWaitExpiry t s
  | .outRead t => Sys2Proof.Machine.execOutRead t s
  | .pkSubmit t a => Sys2Proof.Machine.execPkSubmit t a s
  | .pkJobStart t => Sys2Proof.Machine.execPkJobStart t s
  | .pkJobDone t check => Sys2Proof.Machine.execPkJobDone t check s
  | .preempt t => Sys2Proof.Machine.execPreempt t s
  | .pkAbort t a tie => Sys2Proof.Machine.execPkAbort t a tie s
  | .pkGate t => Sys2Proof.Machine.execPkGate t s
  | .pkWipeDone t => Sys2Proof.Machine.execPkWipeDone t s
  | .nandOperationDone t n j res badLane => Sys2Proof.Machine.execNandOperationDone t n j res badLane s
  | .nandOperationIssue t n rbHigh => Sys2Proof.Machine.execNandOperationIssue t n rbHigh s
  | .mediaInit t princ env => Sys2Proof.Machine.execMediaInit t princ env s
  | .pairdataWrite t v => Sys2Proof.Machine.execPairdataWrite t v s
  | .rrdataWrite t w => Sys2Proof.Machine.execRrdataWrite t w s
  | .offdataWrite t n v => Sys2Proof.Machine.execOffdataWrite t n v s
  | .superpageProgram t n => Sys2Proof.Machine.execSuperpageProgram t n s
  | .fillmaxExpiry t n => Sys2Proof.Machine.execFillmaxExpiry t n s
  | .pairmaxExpiry t k => Sys2Proof.Machine.execPairmaxExpiry t k s
  | .probe t n j decoded mism => Sys2Proof.Machine.execProbe t n j decoded mism s
  | .scrubPatrol t => Sys2Proof.Machine.execScrubPatrol t s
  | .operationOverdue t n j => Sys2Proof.Machine.execOperationOverdue t n j s
  | .operationTimeout t n j completed => Sys2Proof.Machine.execOperationTimeout t n j completed s
  | .rbstuckExpiry t n => Sys2Proof.Machine.execRbstuckExpiry t n s
  | .encoderLaneFailure t lane => Sys2Proof.Machine.execEncoderLaneFailure t lane s
  | .rdabort t id tie => Sys2Proof.Machine.execRdabort t id tie s
  | .checkpointNow t => Sys2Proof.Machine.execCheckpointNow t s
  | .checkpointStart t => Sys2Proof.Machine.execCheckpointStart t s
  | .checkpointDone t => Sys2Proof.Machine.execCheckpointDone t s
  | .timeck t => Sys2Proof.Machine.execTimeck t s
  | .mramScrub t corrected => Sys2Proof.Machine.execMramScrub t corrected s
  | .fieldSensorAssert t => Sys2Proof.Machine.execFieldSensorAssert t s
  | .fieldSensorDeassert t corrected badTile => Sys2Proof.Machine.execFieldSensorDeassert t corrected badTile s
  | .holdRelease t princ n lo hi => Sys2Proof.Machine.execHoldRelease t princ n lo hi s
  | .nsPurge t princ n => Sys2Proof.Machine.execNsPurge t princ n s
  | .segmentAllocation t n gc => Sys2Proof.Machine.execSegmentAllocation t n gc s
  | .segmentEraseDone t k => Sys2Proof.Machine.execSegmentEraseDone t k s
  | .gcCopy t => Sys2Proof.Machine.execGcCopy t s
  | .readJobEnd t id => Sys2Proof.Machine.execReadJobEnd t id s
  | .tablePagesRead t => Sys2Proof.Machine.execTablePagesRead t s
  | .pfailNFall t => Sys2Proof.Machine.execPfailNFall t s
  | .lastBreathFlush t => Sys2Proof.Machine.execLastBreathFlush t s
  | .nandPark t => Sys2Proof.Machine.execNandPark t s
  | .park t => Sys2Proof.Machine.execPark t s
  | .openRecording t => Sys2Proof.Machine.execOpenRecording t s
  | .ignitionPark t => Sys2Proof.Machine.execIgnitionPark t s
  | .wake t src => Sys2Proof.Machine.execWake t src s
  | .warmporHold t => Sys2Proof.Machine.execWarmporHold t s
  | .por t o => Sys2Proof.Machine.execPor t o s
  | .supplyMonitorFall t io18Lost => Sys2Proof.Machine.execSupplyMonitorFall t io18Lost s
  | .fullReset t o => Sys2Proof.Machine.execFullReset t o s
  | .rstreq t => Sys2Proof.Machine.execRstreq t s
  | .reset t => Sys2Proof.Machine.execReset t s
  | .rstNFall t => Sys2Proof.Machine.execRstNFall t s
  | .rstNRise t => Sys2Proof.Machine.execRstNRise t s
  | .rstholdMaxExpiry t => Sys2Proof.Machine.execRstholdMaxExpiry t s
  | .rstNRearm t => Sys2Proof.Machine.execRstNRearm t s
  | .pfailStuckCheck t => Sys2Proof.Machine.execPfailStuckCheck t s
  | .ingestOpenAfterPfail t => Sys2Proof.Machine.execIngestOpenAfterPfail t s
  | .recordingResume t => Sys2Proof.Machine.execRecordingResume t s
  | .read t r env tie => Sys2Proof.Machine.execRead t r env tie s
  | .write t r env tie => Sys2Proof.Machine.execWrite t r env tie s
  | .readSeg t r env tie => Sys2Proof.Machine.execReadSeg t r env tie s
  | .writeSeg t r env tie => Sys2Proof.Machine.execWriteSeg t r env tie s
  | .segment t r env tie => Sys2Proof.Machine.execSegment t r env tie s
  | .blockAck t r env tie => Sys2Proof.Machine.execBlockAck t r env tie s
  | .abort t r env tie => Sys2Proof.Machine.execAbort t r env tie s
  | .blockGapExpiry t n => Sys2Proof.Machine.execBlockGapExpiry t n s
  | .segtmoExpiry t n => Sys2Proof.Machine.execSegtmoExpiry t n s
  | .lsubmit t a => Sys2Proof.Machine.execLsubmit t a s
  | .fwrsp t w => Sys2Proof.Machine.execFwrsp t w s
  | .fwtmoExpiry t idx => Sys2Proof.Machine.execFwtmoExpiry t idx s
  | .fwserve t v => Sys2Proof.Machine.execFwserve t v s
  | .restoreDefaults t princ arg => Sys2Proof.Machine.execRestoreDefaults t princ arg s
  | .clearSticky t princ n => Sys2Proof.Machine.execClearSticky t princ n s
  | .canFrameReceive t n fr ts env tie => Sys2Proof.Machine.execCanFrameReceive t n fr ts env tie s
  | .sessionOpen t c id p => Sys2Proof.Machine.execSessionOpen t c id p s
  | .response t c id p => Sys2Proof.Machine.execResponse t c id p s
  | .phase3Timeout t idx => Sys2Proof.Machine.execPhase3Timeout t idx s
  | .sessionClose t r env tie => Sys2Proof.Machine.execSessionClose t r env tie s
  | .idleExpiry t idx => Sys2Proof.Machine.execIdleExpiry t idx s
  | .suspendExpiry t idx => Sys2Proof.Machine.execSuspendExpiry t idx s
  | .heartbeat t r env tie => Sys2Proof.Machine.execHeartbeat t r env tie s
  | .heartbeatPeriod t => Sys2Proof.Machine.execHeartbeatPeriod t s
  | .fwnotify t w => Sys2Proof.Machine.execFwnotify t w s
  | .txreq t n mask => Sys2Proof.Machine.execTxreq t n mask s
  | .txcancel t n mask late => Sys2Proof.Machine.execTxcancel t n mask late s
  | .canTxDone t n err => Sys2Proof.Machine.execCanTxDone t n err s
  | .sessCloseGo t idx => Sys2Proof.Machine.execSessCloseGo t idx s
  | .busOff t n => Sys2Proof.Machine.execBusOff t n s
  | .busOffRecovery t n => Sys2Proof.Machine.execBusOffRecovery t n s
  | .cctrlModeWrite t n w => Sys2Proof.Machine.execCctrlModeWrite t n w s
  | .stuck t n => Sys2Proof.Machine.execStuck t n s
  | .stuckRecheck t n recessive => Sys2Proof.Machine.execStuckRecheck t n recessive s
  | .tscntWrap t n => Sys2Proof.Machine.execTscntWrap t n s
  | .pop t q => Sys2Proof.Machine.execPop t q s
  | .rspvalidClear t k => Sys2Proof.Machine.execRspvalidClear t k s
  | .linkLoss t c => Sys2Proof.Machine.execLinkLoss t c s
  | .start t r => Sys2Proof.Machine.execStart t r s
  | .firstPassDone t id => Sys2Proof.Machine.execFirstPassDone t id s
  | .rdptrWrite t r v => Sys2Proof.Machine.execRdptrWrite t r v s
  | .statusBlock t r => Sys2Proof.Machine.execStatusBlock t r s
  | .stallExpiry t r => Sys2Proof.Machine.execStallExpiry t r s
  | .readDoorAbort t r tie => Sys2Proof.Machine.execReadDoorAbort t r tie s
  | .readDoorCompletion t r => Sys2Proof.Machine.execReadDoorCompletion t r s
  | .vselWrite t n v => Sys2Proof.Machine.execVselWrite t n v s
  | .insertion t p => Sys2Proof.Machine.execInsertion t p s
  | .cardReady t p r => Sys2Proof.Machine.execCardReady t p r s
  | .removal t p => Sys2Proof.Machine.execRemoval t p s
  | .cmd t p w => Sys2Proof.Machine.execCmd t p w s
  | .cardTransferDone t p out => Sys2Proof.Machine.execCardTransferDone t p out s
  | .pabort t p tie => Sys2Proof.Machine.execPabort t p tie s
  | .busyTimeout t p => Sys2Proof.Machine.execBusyTimeout t p s
  | .retuneTrigger t p temp => Sys2Proof.Machine.execRetuneTrigger t p temp s
  | .retuneStep t p mask temp => Sys2Proof.Machine.execRetuneStep t p mask temp s
  | .reinit t p => Sys2Proof.Machine.execReinit t p s
  | .sleep t => Sys2Proof.Machine.execSleep t s
  | .exportStart t princ => Sys2Proof.Machine.execExportStart t princ s
  | .exportAbort t princ tie => Sys2Proof.Machine.execExportAbort t princ tie s
  | .exportCompletion t => Sys2Proof.Machine.execExportCompletion t s
  | .courtCopy t princ target => Sys2Proof.Machine.execCourtCopy t princ target s
  | .courtCopyTimeout t => Sys2Proof.Machine.execCourtCopyTimeout t s
  | .presence t idx level => Sys2Proof.Machine.execPresence t idx level s
  | .activate t idx => Sys2Proof.Machine.execActivate t idx s
  | .atr t idx bs parityBad => Sys2Proof.Machine.execAtr t idx bs parityBad s
  | .atrTimeout t idx => Sys2Proof.Machine.execAtrTimeout t idx s
  | .ppsResponse t idx confirms => Sys2Proof.Machine.execPpsResponse t idx confirms s
  | .deact t idx => Sys2Proof.Machine.execDeact t idx s
  | .ioStuck t idx => Sys2Proof.Machine.execIoStuck t idx s
  | .overcurrent t idx => Sys2Proof.Machine.execOvercurrent t idx s
  | .clockStop t idx => Sys2Proof.Machine.execClockStop t idx s
  | .txfifoWrite t idx b sent refused => Sys2Proof.Machine.execTxfifoWrite t idx b sent refused s
  | .characterReceived t idx b parityErr => Sys2Proof.Machine.execCharacterReceived t idx b parityErr s
  | .authctlStart t w => Sys2Proof.Machine.execAuthctlStart t w s
  | .authrspWrite t k w => Sys2Proof.Machine.execAuthrspWrite t k w s
  | .preq t a => Sys2Proof.Machine.execPreq t a s
  | .add rd rs1 rs2 env => Sys2Proof.Machine.execAdd rd rs1 rs2 env s
  | .sub rd rs1 rs2 env => Sys2Proof.Machine.execSub rd rs1 rs2 env s
  | .and rd rs1 rs2 env => Sys2Proof.Machine.execAnd rd rs1 rs2 env s
  | .or rd rs1 rs2 env => Sys2Proof.Machine.execOr rd rs1 rs2 env s
  | .xor rd rs1 rs2 env => Sys2Proof.Machine.execXor rd rs1 rs2 env s
  | .andn rd rs1 rs2 env => Sys2Proof.Machine.execAndn rd rs1 rs2 env s
  | .sll rd rs1 rs2 env => Sys2Proof.Machine.execSll rd rs1 rs2 env s
  | .srl rd rs1 rs2 env => Sys2Proof.Machine.execSrl rd rs1 rs2 env s
  | .sra rd rs1 rs2 env => Sys2Proof.Machine.execSra rd rs1 rs2 env s
  | .ror rd rs1 rs2 env => Sys2Proof.Machine.execRor rd rs1 rs2 env s
  | .slt rd rs1 rs2 env => Sys2Proof.Machine.execSlt rd rs1 rs2 env s
  | .sltu rd rs1 rs2 env => Sys2Proof.Machine.execSltu rd rs1 rs2 env s
  | .min rd rs1 rs2 env => Sys2Proof.Machine.execMin rd rs1 rs2 env s
  | .max rd rs1 rs2 env => Sys2Proof.Machine.execMax rd rs1 rs2 env s
  | .minu rd rs1 rs2 env => Sys2Proof.Machine.execMinu rd rs1 rs2 env s
  | .maxu rd rs1 rs2 env => Sys2Proof.Machine.execMaxu rd rs1 rs2 env s
  | .csel rd rs1 rs2 env => Sys2Proof.Machine.execCsel rd rs1 rs2 env s
  | .clz rd rs1 env => Sys2Proof.Machine.execClz rd rs1 env s
  | .ctz rd rs1 env => Sys2Proof.Machine.execCtz rd rs1 env s
  | .popc rd rs1 env => Sys2Proof.Machine.execPopc rd rs1 env s
  | .bswap rd rs1 env => Sys2Proof.Machine.execBswap rd rs1 env s
  | .sextb rd rs1 env => Sys2Proof.Machine.execSextb rd rs1 env s
  | .sexth rd rs1 env => Sys2Proof.Machine.execSexth rd rs1 env s
  | .zexth rd rs1 env => Sys2Proof.Machine.execZexth rd rs1 env s
  | .mul rd rs1 rs2 env => Sys2Proof.Machine.execMul rd rs1 rs2 env s
  | .mulh rd rs1 rs2 env => Sys2Proof.Machine.execMulh rd rs1 rs2 env s
  | .mulhu rd rs1 rs2 env => Sys2Proof.Machine.execMulhu rd rs1 rs2 env s
  | .mulhsu rd rs1 rs2 env => Sys2Proof.Machine.execMulhsu rd rs1 rs2 env s
  | .div rd rs1 rs2 env => Sys2Proof.Machine.execDiv rd rs1 rs2 env s
  | .divu rd rs1 rs2 env => Sys2Proof.Machine.execDivu rd rs1 rs2 env s
  | .rem rd rs1 rs2 env => Sys2Proof.Machine.execRem rd rs1 rs2 env s
  | .remu rd rs1 rs2 env => Sys2Proof.Machine.execRemu rd rs1 rs2 env s
  | .addi rd rs1 imm env => Sys2Proof.Machine.execAddi rd rs1 imm env s
  | .andi rd rs1 imm env => Sys2Proof.Machine.execAndi rd rs1 imm env s
  | .ori rd rs1 imm env => Sys2Proof.Machine.execOri rd rs1 imm env s
  | .xori rd rs1 imm env => Sys2Proof.Machine.execXori rd rs1 imm env s
  | .slti rd rs1 imm env => Sys2Proof.Machine.execSlti rd rs1 imm env s
  | .sltiu rd rs1 imm env => Sys2Proof.Machine.execSltiu rd rs1 imm env s
  | .slli rd rs1 shamt env => Sys2Proof.Machine.execSlli rd rs1 shamt env s
  | .srli rd rs1 shamt env => Sys2Proof.Machine.execSrli rd rs1 shamt env s
  | .srai rd rs1 shamt env => Sys2Proof.Machine.execSrai rd rs1 shamt env s
  | .rori rd rs1 shamt env => Sys2Proof.Machine.execRori rd rs1 shamt env s
  | .lui rd imm env => Sys2Proof.Machine.execLui rd imm env s
  | .pca rd imm env => Sys2Proof.Machine.execPca rd imm env s
  | .lb rd rs1 imm env => Sys2Proof.Machine.execLb rd rs1 imm env s
  | .lbu rd rs1 imm env => Sys2Proof.Machine.execLbu rd rs1 imm env s
  | .lh rd rs1 imm env => Sys2Proof.Machine.execLh rd rs1 imm env s
  | .lhu rd rs1 imm env => Sys2Proof.Machine.execLhu rd rs1 imm env s
  | .lw rd rs1 imm env => Sys2Proof.Machine.execLw rd rs1 imm env s
  | .sb rd rs1 imm env => Sys2Proof.Machine.execSb rd rs1 imm env s
  | .sh rd rs1 imm env => Sys2Proof.Machine.execSh rd rs1 imm env s
  | .sw rd rs1 imm env => Sys2Proof.Machine.execSw rd rs1 imm env s
  | .swap rd rs1 imm env => Sys2Proof.Machine.execSwap rd rs1 imm env s
  | .cas rd rs1 rs2 env => Sys2Proof.Machine.execCas rd rs1 rs2 env s
  | .beq rs1 rs2 off env => Sys2Proof.Machine.execBeq rs1 rs2 off env s
  | .bne rs1 rs2 off env => Sys2Proof.Machine.execBne rs1 rs2 off env s
  | .blt rs1 rs2 off env => Sys2Proof.Machine.execBlt rs1 rs2 off env s
  | .bge rs1 rs2 off env => Sys2Proof.Machine.execBge rs1 rs2 off env s
  | .bltu rs1 rs2 off env => Sys2Proof.Machine.execBltu rs1 rs2 off env s
  | .bgeu rs1 rs2 off env => Sys2Proof.Machine.execBgeu rs1 rs2 off env s
  | .jmp off env => Sys2Proof.Machine.execJmp off env s
  | .call off env => Sys2Proof.Machine.execCall off env s
  | .jalr rd rs1 imm env => Sys2Proof.Machine.execJalr rd rs1 imm env s
  | .enter imm env => Sys2Proof.Machine.execEnter imm env s
  | .leave env => Sys2Proof.Machine.execLeave env s
  | .tdrop imm env => Sys2Proof.Machine.execTdrop imm env s
  | .trap imm env => Sys2Proof.Machine.execTrap imm env s
  | .tret env => Sys2Proof.Machine.execTret env s
  | .wfi env => Sys2Proof.Machine.execWfi env s
  | .fence imm env => Sys2Proof.Machine.execFence imm env s
  | .movs imm rs1 env => Sys2Proof.Machine.execMovs imm rs1 env s
  | .movg rd imm env => Sys2Proof.Machine.execMovg rd imm env s
  | .wflush env => Sys2Proof.Machine.execWflush env s
  | .interrupt t => Sys2Proof.Machine.execInterrupt t s
  | .nmi t => Sys2Proof.Machine.execNmi t s
  | .storeerr t => Sys2Proof.Machine.execStoreerr t s
  | .storeFailure t => Sys2Proof.Machine.execStoreFailure t s
  | .storeBufferDrain t => Sys2Proof.Machine.execStoreBufferDrain t s
  | .eoi t => Sys2Proof.Machine.execEoi t s
  | .swiset t n => Sys2Proof.Machine.execSwiset t n s
  | .swiclr t n => Sys2Proof.Machine.execSwiclr t n s
  | .timerEnable t n w => Sys2Proof.Machine.execTimerEnable t n w s
  | .timerExpiry t n => Sys2Proof.Machine.execTimerExpiry t n s
  | .lowwspWrite t => Sys2Proof.Machine.execLowwspWrite t s
  | .wdservice t v => Sys2Proof.Machine.execWdservice t v s
  | .watchdogTimeout t => Sys2Proof.Machine.execWatchdogTimeout t s
  | .watchdogWarning t => Sys2Proof.Machine.execWatchdogWarning t s
  | .lockstepMismatch t parity => Sys2Proof.Machine.execLockstepMismatch t parity s
  | .scrub t core stripe => Sys2Proof.Machine.execScrub t core stripe s
  | .lock t k r w => Sys2Proof.Machine.execLock t k r w s
  | .rootselGo t r src idle => Sys2Proof.Machine.execRootselGo t r src idle s
  | .rootSwitchDone t r => Sys2Proof.Machine.execRootSwitchDone t r s
  | .rootSwitchTimeout t r oldAlive => Sys2Proof.Machine.execRootSwitchTimeout t r oldAlive s
  | .xinWindowFail t count ended => Sys2Proof.Machine.execXinWindowFail t count ended s
  | .xinok1s t => Sys2Proof.Machine.execXinok1s t s
  | .refclkWindowFail t count ended => Sys2Proof.Machine.execRefclkWindowFail t count ended s
  | .pllLockLoss t p => Sys2Proof.Machine.execPllLockLoss t p s
  | .pllRetryExpiry t p locked => Sys2Proof.Machine.execPllRetryExpiry t p locked s
  | .pllReferenceLoss t p returned => Sys2Proof.Machine.execPllReferenceLoss t p returned s
  | .irc96TrimWindow t count => Sys2Proof.Machine.execIrc96TrimWindow t count s
  | .sscApply t p => Sys2Proof.Machine.execSscApply t p s
  | .plloutWrite t w => Sys2Proof.Machine.execPlloutWrite t w s
  | .clkoutcfgWrite t n w => Sys2Proof.Machine.execClkoutcfgWrite t n w s
  | .gateRequest t r b idle => Sys2Proof.Machine.execGateRequest t r b idle s
  | .gateTimeout t r b => Sys2Proof.Machine.execGateTimeout t r b s
  | .gateOpen t r b => Sys2Proof.Machine.execGateOpen t r b s
  | .alarm t => Sys2Proof.Machine.execAlarm t s
  | .ppsEdge t cap => Sys2Proof.Machine.execPpsEdge t cap s
  | .ppsLoss t => Sys2Proof.Machine.execPpsLoss t s
  | .leapSecond t => Sys2Proof.Machine.execLeapSecond t s
  | .setTime t princ d => Sys2Proof.Machine.execSetTime t princ d s
  | .tamperSample t src v => Sys2Proof.Machine.execTamperSample t src v s
  | .cellOut t => Sys2Proof.Machine.execCellOut t s
  | .glitch t => Sys2Proof.Machine.execGlitch t s
  | .xrtcMonitorWindow t count => Sys2Proof.Machine.execXrtcMonitorWindow t count s
  | .shadowMismatch t a => Sys2Proof.Machine.execShadowMismatch t a s
  | .shadowWrite t a w inTime => Sys2Proof.Machine.execShadowWrite t a w inTime s
  | .tbist t princ src => Sys2Proof.Machine.execTbist t princ src s
  | .tbistDone t pass => Sys2Proof.Machine.execTbistDone t pass s
  | .supplySwitchover t toVbat => Sys2Proof.Machine.execSupplySwitchover t toVbat s
  | .feltWriteLands t => Sys2Proof.Machine.execFeltWriteLands t s
  | .fuseData t a d temp => Sys2Proof.Machine.execFuseData t a d temp s
  | .fuseCritical t a d temp => Sys2Proof.Machine.execFuseCritical t a d temp s
  | .fuseThermo t a d temp => Sys2Proof.Machine.execFuseThermo t a d temp s
  | .genroot t temp => Sys2Proof.Machine.execGenroot t temp s
  | .fuseProgrammingDone t good part => Sys2Proof.Machine.execFuseProgrammingDone t good part s
  | .fuseResense t l temp => Sys2Proof.Machine.execFuseResense t l temp s
  | .lifecycleAdvance t princ target => Sys2Proof.Machine.execLifecycleAdvance t princ target s
  | .certcmdGo t => Sys2Proof.Machine.execCertcmdGo t s
  | .recoveryBlock t d crcOk => Sys2Proof.Machine.execRecoveryBlock t d crcOk s
  | .fwOffset t v => Sys2Proof.Machine.execFwOffset t v s
  | .fwChunk t d => Sys2Proof.Machine.execFwChunk t d s
  | .ospiOperationDone t => Sys2Proof.Machine.execOspiOperationDone t s
  | .fwCommit t princ => Sys2Proof.Machine.execFwCommit t princ s
  | .confirm t key temp => Sys2Proof.Machine.execConfirm t key temp s
  | .warmRestart t => Sys2Proof.Machine.execWarmRestart t s
  | .debugChallenge t => Sys2Proof.Machine.execDebugChallenge t s
  | .debugResponse t sig => Sys2Proof.Machine.execDebugResponse t sig s
  | .diagpush t w => Sys2Proof.Machine.execDiagpush t w s
  | .standingReset t n => Sys2Proof.Machine.execStandingReset t n s
  | .registerWrite t a w env => Sys2Proof.Machine.execRegisterWrite t a w env s
  | .illegalInstruction w env => Sys2Proof.Machine.execIllegalInstruction w env s
  | .hsBurstEnd t p => Sys2Proof.Machine.execHsBurstEnd t p s
  | .canIntegration t n => Sys2Proof.Machine.execCanIntegration t n s
  | .canBusError t n tx eight => Sys2Proof.Machine.execCanBusError t n tx eight s
  | .waitingTimeExpiry t idx => Sys2Proof.Machine.execWaitingTimeExpiry t idx s
  | .linkUp t speed width bme msixEn => Sys2Proof.Machine.execLinkUp t speed width bme msixEn s
  | .flrComplete t => Sys2Proof.Machine.execFlrComplete t s
  | .xrtcCycle t => Sys2Proof.Machine.execXrtcCycle t s
  | .vbatApplied t above2V => Sys2Proof.Machine.execVbatApplied t above2V s
  | .feltSupplyLoss t => Sys2Proof.Machine.execFeltSupplyLoss t s
  | .powerUpPmicEn t => Sys2Proof.Machine.execPowerUpPmicEn t s

end Sys2Proof.Machine
end

