-- ==== Sys2Proof/WellFormed.lean ====
section
/-!
DEFINITION. Which commands are well formed: the operands whose types admit more than the spec's own shapes are checked here,
command by command. `exec` gives an ill-formed command a meaning too; only the statements that need the shape ask for it.
-/

namespace Sys2Proof

open Sys2Proof.Machine

/-- A YDP frame's payload has at most 64 bytes (R604); the other places hold their own request. -/
def reqOk : ReqIn → Bool
  | .loc => true
  | .card => true
  | .mbox _ => true
  | .ydp _ _ payload => decide (payload.length ≤ 64)

/-- A card's response has at most four words (registers RESP[0–3]). -/
def cardOutOk : CardOut → Bool
  | .done resp _ => decide (resp.length ≤ 4)
  | .crc _ => true
  | .silent => true

/-- A Serge-view register address is that of a word (R20). -/
def regAddrOk : RegAddr → Bool
  | .dev a => decide (a.toNat % 4 = 0)
  | .bar0 _ => true
  | .bar2 _ => true

/-- The command is well formed: a packet's payload is no longer than its word count (R117); a descriptor has 32 bytes (R129); a
host read at most 512 (table *Door timing*); a CAN frame a legal length and an identifier of its format (R669, R604); a YDP payload at most 64
bytes; a CID 16 bytes (table *Export record block*); a recovery block 1,024 (R1070); a signature 64 (R1088); an illegal word is not allocated (R818). -/
def Instr.wf (i : Instr) : Bool :=
  match i with
  | .refFrameStart .. => true
  | .flywheelFrameStart .. => true
  | .reflostTakeover .. => true
  | .frameEnd .. => true
  | .lineTick .. => true
  | .commitPointTimer .. => true
  | .fsyncOutFramePulse .. => true
  | .pulseEnd .. => true
  | .canvasDisable .. => true
  | .canvasEnable .. => true
  | .apply .. => true
  | .longPacket _ _ _ _ wc payload _ _ => decide (payload.length ≤ wc.toNat)
  | .fsPacket .. => true
  | .fePacket .. => true
  | .deskewSequence .. => true
  | .byteAccepted .. => true
  | .stripeRecordWritten .. => true
  | .inval .. => true
  | .doorbell .. => true
  | .descriptorFetchDone _ _ ok b => !ok || decide (b.length = 32)
  | .doorDataReadDone _ _ ok b => !ok || decide (b.length ≤ 512)
  | .doorDisable .. => true
  | .anchorNow .. => true
  | .anchorSigned .. => true
  | .epochNow .. => true
  | .timemapNow .. => true
  | .timemapPeriod .. => true
  | .epochSequenceStart .. => true
  | .epochKeygenDone .. => true
  | .epochSigned .. => true
  | .keywrap .. => true
  | .keywrapDone .. => true
  | .alloc .. => true
  | .zeroize .. => true
  | .narrow .. => true
  | .generate .. => true
  | .importKey .. => true
  | .keymove .. => true
  | .restore .. => true
  | .feltWriteThroughDone .. => true
  | .digestSubmit .. => true
  | .digestJobStart .. => true
  | .digestJobDone .. => true
  | .digestAbort .. => true
  | .cipherSubmit .. => true
  | .cipherJobStart .. => true
  | .cipherJobDone .. => true
  | .cipherAbort .. => true
  | .ctxselCommit .. => true
  | .stripeEncrypt .. => true
  | .laneMismatch .. => true
  | .selftest .. => true
  | .healthTestFailure .. => true
  | .startUpTestDone .. => true
  | .drbgRequest .. => true
  | .drbgWaitExpiry .. => true
  | .outRead .. => true
  | .pkSubmit .. => true
  | .pkJobStart .. => true
  | .pkJobDone .. => true
  | .preempt .. => true
  | .pkAbort .. => true
  | .pkGate .. => true
  | .pkWipeDone .. => true
  | .nandOperationDone .. => true
  | .nandOperationIssue .. => true
  | .mediaInit .. => true
  | .pairdataWrite .. => true
  | .rrdataWrite .. => true
  | .offdataWrite .. => true
  | .superpageProgram .. => true
  | .fillmaxExpiry .. => true
  | .pairmaxExpiry .. => true
  | .probe .. => true
  | .scrubPatrol .. => true
  | .operationOverdue .. => true
  | .operationTimeout .. => true
  | .rbstuckExpiry .. => true
  | .encoderLaneFailure .. => true
  | .rdabort .. => true
  | .checkpointNow .. => true
  | .checkpointStart .. => true
  | .checkpointDone .. => true
  | .timeck .. => true
  | .mramScrub .. => true
  | .fieldSensorAssert .. => true
  | .fieldSensorDeassert .. => true
  | .holdRelease .. => true
  | .nsPurge .. => true
  | .segmentAllocation .. => true
  | .segmentEraseDone .. => true
  | .gcCopy .. => true
  | .readJobEnd .. => true
  | .tablePagesRead .. => true
  | .pfailNFall .. => true
  | .lastBreathFlush .. => true
  | .nandPark .. => true
  | .park .. => true
  | .openRecording .. => true
  | .ignitionPark .. => true
  | .wake .. => true
  | .warmporHold .. => true
  | .por .. => true
  | .supplyMonitorFall .. => true
  | .fullReset .. => true
  | .rstreq .. => true
  | .reset .. => true
  | .rstNFall .. => true
  | .rstNRise .. => true
  | .rstholdMaxExpiry .. => true
  | .rstNRearm .. => true
  | .pfailStuckCheck .. => true
  | .ingestOpenAfterPfail .. => true
  | .recordingResume .. => true
  | .read _ r _ _ => reqOk r
  | .write _ r _ _ => reqOk r
  | .readSeg _ r _ _ => reqOk r
  | .writeSeg _ r _ _ => reqOk r
  | .segment _ r _ _ => reqOk r
  | .blockAck _ r _ _ => reqOk r
  | .abort _ r _ _ => reqOk r
  | .blockGapExpiry .. => true
  | .segtmoExpiry .. => true
  | .lsubmit .. => true
  | .fwrsp .. => true
  | .fwtmoExpiry .. => true
  | .fwserve .. => true
  | .restoreDefaults .. => true
  | .clearSticky .. => true
  | .canFrameReceive _ _ fr _ _ _ => canLength fr.data.length fr.fdf && decide (fr.id < 2 ^ (if fr.xtd then 29 else 11))
  | .sessionOpen _ _ _ p => decide (p.length ≤ 64)
  | .response _ _ _ p => decide (p.length ≤ 64)
  | .phase3Timeout .. => true
  | .sessionClose _ r _ _ => reqOk r
  | .idleExpiry .. => true
  | .suspendExpiry .. => true
  | .heartbeat _ r _ _ => reqOk r
  | .heartbeatPeriod .. => true
  | .fwnotify .. => true
  | .txreq .. => true
  | .txcancel .. => true
  | .canTxDone .. => true
  | .sessCloseGo .. => true
  | .busOff .. => true
  | .busOffRecovery .. => true
  | .cctrlModeWrite .. => true
  | .stuck .. => true
  | .stuckRecheck .. => true
  | .tscntWrap .. => true
  | .pop .. => true
  | .rspvalidClear .. => true
  | .linkLoss .. => true
  | .start .. => true
  | .firstPassDone .. => true
  | .rdptrWrite .. => true
  | .statusBlock .. => true
  | .stallExpiry .. => true
  | .readDoorAbort .. => true
  | .readDoorCompletion .. => true
  | .vselWrite .. => true
  | .insertion .. => true
  | .cardReady _ _ r => decide (r.cid.length = 16)
  | .removal .. => true
  | .cmd .. => true
  | .cardTransferDone _ _ out => cardOutOk out
  | .pabort .. => true
  | .busyTimeout .. => true
  | .retuneTrigger .. => true
  | .retuneStep .. => true
  | .reinit .. => true
  | .sleep .. => true
  | .exportStart .. => true
  | .exportAbort .. => true
  | .exportCompletion .. => true
  | .courtCopy .. => true
  | .courtCopyTimeout .. => true
  | .presence .. => true
  | .activate .. => true
  | .atr .. => true
  | .atrTimeout .. => true
  | .ppsResponse .. => true
  | .deact .. => true
  | .ioStuck .. => true
  | .overcurrent .. => true
  | .clockStop .. => true
  | .txfifoWrite .. => true
  | .characterReceived .. => true
  | .authctlStart .. => true
  | .authrspWrite .. => true
  | .preq .. => true
  | .add .. => true
  | .sub .. => true
  | .and .. => true
  | .or .. => true
  | .xor .. => true
  | .andn .. => true
  | .sll .. => true
  | .srl .. => true
  | .sra .. => true
  | .ror .. => true
  | .slt .. => true
  | .sltu .. => true
  | .min .. => true
  | .max .. => true
  | .minu .. => true
  | .maxu .. => true
  | .csel .. => true
  | .clz .. => true
  | .ctz .. => true
  | .popc .. => true
  | .bswap .. => true
  | .sextb .. => true
  | .sexth .. => true
  | .zexth .. => true
  | .mul .. => true
  | .mulh .. => true
  | .mulhu .. => true
  | .mulhsu .. => true
  | .div .. => true
  | .divu .. => true
  | .rem .. => true
  | .remu .. => true
  | .addi .. => true
  | .andi .. => true
  | .ori .. => true
  | .xori .. => true
  | .slti .. => true
  | .sltiu .. => true
  | .slli .. => true
  | .srli .. => true
  | .srai .. => true
  | .rori .. => true
  | .lui .. => true
  | .pca .. => true
  | .lb .. => true
  | .lbu .. => true
  | .lh .. => true
  | .lhu .. => true
  | .lw .. => true
  | .sb .. => true
  | .sh .. => true
  | .sw .. => true
  | .swap .. => true
  | .cas .. => true
  | .beq .. => true
  | .bne .. => true
  | .blt .. => true
  | .bge .. => true
  | .bltu .. => true
  | .bgeu .. => true
  | .jmp .. => true
  | .call .. => true
  | .jalr .. => true
  | .enter .. => true
  | .leave .. => true
  | .tdrop .. => true
  | .trap .. => true
  | .tret .. => true
  | .wfi .. => true
  | .fence .. => true
  | .movs .. => true
  | .movg .. => true
  | .wflush .. => true
  | .interrupt .. => true
  | .nmi .. => true
  | .storeerr .. => true
  | .storeFailure .. => true
  | .storeBufferDrain .. => true
  | .eoi .. => true
  | .swiset .. => true
  | .swiclr .. => true
  | .timerEnable .. => true
  | .timerExpiry .. => true
  | .lowwspWrite .. => true
  | .wdservice .. => true
  | .watchdogTimeout .. => true
  | .watchdogWarning .. => true
  | .lockstepMismatch .. => true
  | .scrub .. => true
  | .lock .. => true
  | .rootselGo .. => true
  | .rootSwitchDone .. => true
  | .rootSwitchTimeout .. => true
  | .xinWindowFail .. => true
  | .xinok1s .. => true
  | .refclkWindowFail .. => true
  | .pllLockLoss .. => true
  | .pllRetryExpiry .. => true
  | .pllReferenceLoss .. => true
  | .irc96TrimWindow .. => true
  | .sscApply .. => true
  | .plloutWrite .. => true
  | .clkoutcfgWrite .. => true
  | .gateRequest .. => true
  | .gateTimeout .. => true
  | .gateOpen .. => true
  | .alarm .. => true
  | .ppsEdge .. => true
  | .ppsLoss .. => true
  | .leapSecond .. => true
  | .setTime .. => true
  | .tamperSample .. => true
  | .cellOut .. => true
  | .glitch .. => true
  | .xrtcMonitorWindow .. => true
  | .shadowMismatch .. => true
  | .shadowWrite .. => true
  | .tbist .. => true
  | .tbistDone .. => true
  | .supplySwitchover .. => true
  | .feltWriteLands .. => true
  | .fuseData .. => true
  | .fuseCritical .. => true
  | .fuseThermo .. => true
  | .genroot .. => true
  | .fuseProgrammingDone .. => true
  | .fuseResense .. => true
  | .lifecycleAdvance .. => true
  | .certcmdGo .. => true
  | .recoveryBlock _ d _ => decide (d.length = 1024)
  | .fwOffset .. => true
  | .fwChunk .. => true
  | .ospiOperationDone .. => true
  | .fwCommit .. => true
  | .confirm .. => true
  | .warmRestart .. => true
  | .debugChallenge .. => true
  | .debugResponse _ sig => decide (sig.length = 64)
  | .diagpush .. => true
  | .standingReset .. => true
  | .registerWrite _ a _ _ => regAddrOk a
  | .illegalInstruction w _ => !allocated w
  | .hsBurstEnd .. => true
  | .canIntegration .. => true
  | .canBusError .. => true
  | .waitingTimeExpiry .. => true
  | .linkUp .. => true
  | .flrComplete .. => true
  | .xrtcCycle .. => true
  | .vbatApplied .. => true
  | .feltSupplyLoss .. => true
  | .powerUpPmicEn .. => true

end Sys2Proof
end

