-- ==== Sys2Proof/Safety.lean ====
section
/-!
DEFINITION. What claims call a good state, and what they ask for before they say that a command has its effect.
-/

namespace Sys2Proof

open Sys2Proof.Machine

/-- The registers, the memories and the host's memory stand in their one canonical form: addresses strictly rise and no entry
holds what its address reads as unlisted. -/
def Memory.wf (s : State) : Bool :=
  swf regReset s.regs && swf memDefault s.mem && swf hostDefault s.hostMem

/-- Serge's windows are consistent: CWP and OLDEST name normal windows, COUNT is 1–14, and the frames in use run from OLDEST to CWP
(R788, R789, R793); and its store buffer holds at most 4 stores (R837). -/
def Core.wf (c : Serge) : Bool :=
  decide (c.cwp < 15 ∧ c.oldest < 15 ∧ 1 ≤ c.count ∧ c.count ≤ 14 ∧ (c.oldest + c.count) % 15 = (c.cwp + 1) % 15 ∧ c.buf.length ≤ 4)

/-- Every fuse bit that reads programmed in `f` does so in `g` (R1034). -/
def Fuse.grows (f g : Fuse) : Prop :=
  ∀ p, sget (fun _ => 0#32) f.words p &&& sget (fun _ => 0#32) g.words p = sget (fun _ => 0#32) f.words p

/-- The blocks named by clock-enable bits act on a command at instant `t`: the device runs (R526), their clocks do, and none of
them was gated while it was busy (R961, R962, R965). -/
def Acts (l : List (Nat × Nat)) (t : Nat) (s : State) : Prop :=
  (s.at t).live = true ∧ (∀ u ∈ l, (s.at t).gated u.1 u.2 = false) ∧ (∀ u ∈ l, s.tweed.lost.contains u = false)

/-- Serge issues the instruction and executes it in state `s'`: it is not stalled, no asynchronous trap is taken in its place
(R859), and its fetch is admitted (R854). -/
def Issues (env : CoreEnv) (s s' : State) : Prop :=
  stalled (s.at env.t) = false ∧ boundaryTrap (s.at env.t) = none ∧
    fetchCheck env ((s.at env.t).onSerge (fun c => { c with waiting := false })) = .ok () s'

/-- The state in which an instruction has retired: PC, the cycles of the table *Instruction timing* with those of waits, INSTRET,
the register file; nothing else is changed. -/
def Retired (s : State) (pc : Word) (cost : Nat) (rf : List (Nat × Word)) : State :=
  { s with
    serge := { s.serge with pc := pc, cycles := s.serge.cycles + cost + Config.stallCycles s.freeCtr, instret := s.serge.instret + 1, rf := rf }
    freeCtr := s.freeCtr + 1 }

/-- An instruction has retired, leaving `w` in `rd` and every other register of every window as it was; c0 stays 0 (R787). -/
def Writes (s t : State) (pc : Word) (cost : Nat) (rd : BitVec 5) (w : Word) : Prop :=
  (∃ rf, t = Retired s pc cost rf) ∧
  (∀ r, t.x r = if r = rd ∧ r ≠ 0 then w else s.x r) ∧
  (∀ i, rd = 0 ∨ i ≠ s.serge.phys rd.toNat → t.serge.file i = s.serge.file i)

/-- A trap is entered at the vector `off` from TVEC: EPC, EPSTAT with TW 0, ECAUSE and EVAL, then PRIV 1, IE 0, TW 1 and CT as it was
(R814, R860), 4 cycles later (R862); CWP, COUNT, OLDEST, the registers and everything else are unchanged. -/
def Trapped (s : State) (cause : Nat) (eval off : Word) : State :=
  { s with serge := { s.serge with
      epc := s.serge.pc
      epstat := (if s.serge.priv then 1#32 else 0#32) + (if s.serge.ie then 2#32 else 0#32) + (if s.serge.ct then 8#32 else 0#32)
      ecause := BitVec.ofNat 32 cause
      eval := eval
      priv := true
      ie := false
      tw := true
      pc := s.serge.tvec + off
      cycles := s.serge.cycles + 4
      waiting := false } }

/-- A number of cycles that the table *Instruction timing* gives for the DIV family: 20 with CT 1, else between 4 and 20. -/
def divTime (ct : Bool) (cost : Nat) : Prop := (ct = true → cost = 20) ∧ 4 ≤ cost ∧ cost ≤ 20

/-- A number of cycles that the table *Instruction timing* gives for the MUL family: 3 with CT 1 or a source of more than 16 bits,
else 2. -/
def mulTime (ct : Bool) (b : Word) (cost : Nat) : Prop := cost = if ct = false ∧ b.toNat < 2 ^ 16 then 2 else 3

/-- The bytes of core SRAM that Serge sees after a store of the low `n` bytes of `w` at `a`: those bytes at `a`, the others as before
(R840). -/
def SeesStore (s t : State) (a n : Nat) (w : Word) : Prop :=
  ∀ b, inCore b 1 = true → byteSeen t b = if a ≤ b ∧ b < a + n then w.extractLsb' (8 * (b - a)) 8 else byteSeen s b

end Sys2Proof
end

