-- ==== Sys2Proof/Certificates/Slice0/Obligations.lean ====
section
/-!
DEFINITION. The statements for the provers, one `def Obligations.<Name> : Prop` each. A statement of an instruction of Serge is about
a state `s` in which it issues, `s'` the state its fetch leaves (`Issues`); a statement of any other command is about a state
in which its blocks act (`Acts`), at the command's instant (`s.at t`).
-/

open Sys2Proof Sys2Proof.Machine

/-! ## The machine as a whole -/

/-- A step takes the command at the front of the queue and runs it on the state that holds the rest; on an empty queue the device idles,
which is the model's choice (notes/assumptions/1.md). -/
def Obligations.StepRunsFrontCommand : Prop :=
  (∀ (c : Instr) (q : List Instr) (s : State), step { s with pending := c :: q } = exec c { s with pending := q }) ∧
  (∀ s : State, s.pending = [] → step s = .next s)

/-- The state after reset: canonical registers and memories, an empty queue, Serge's windows as R785 and R786 give them and PSTAT
0x0000_0001, every register of every window 0, the pc 0 in the boot ROM. -/
def Obligations.ResetState : Prop :=
  Memory.wf State.reset = true ∧ Core.wf State.reset.serge = true ∧ State.reset.pending = [] ∧
  State.reset.serge.pc = 0#32 ∧ State.reset.serge.pstat = 1#32 ∧ State.reset.serge.cwp = 0 ∧ State.reset.serge.count = 1 ∧
  State.reset.serge.oldest = 0 ∧ ∀ i, State.reset.serge.file i = 0#32

/-- Every step keeps registers and memories in their canonical form, from every state that has it. -/
def Obligations.StepKeepsCanonicalForm : Prop :=
  ∀ s t : State, Memory.wf s = true → step s = .next t → Memory.wf t = true

/-- Every step keeps COUNT at 1–14 (R793), CWP and OLDEST naming normal windows, the frames in use lying between them, and at most 4
stores in the buffer, from every state that has it. -/
def Obligations.StepKeepsWindowsConsistent : Prop :=
  ∀ s t : State, Core.wf s.serge = true → step s = .next t → Core.wf t.serge = true

/-- No step clears a programmed fuse bit (R1034). -/
def Obligations.FuseBitsNeverReturn : Prop := ∀ s t : State, step s = .next t → Fuse.grows s.fuse t.fuse

/-! ## Serge: register instructions -/

/-- ADD, SUB, AND, OR, XOR, ANDN; ADDI and the logic immediates, LUI, PCA: `rd` takes the result, PC moves on by 4 in 1 cycle, nothing else
changes (table *Register operations*). ADDI and PCA extend the sign, ANDI, ORI and XORI extend with zeros. -/
def Obligations.ArithmeticAndLogicResults : Prop :=
  ∀ (env : CoreEnv) (s s' : State) (rd rs1 rs2 : BitVec 5) (imm : BitVec 14) (big : BitVec 20), Core.wf s'.serge = true → Issues env s s' →
    (∃ t, exec (.add rd rs1 rs2 env) s = .next t ∧ Writes s' t (s'.serge.pc + 4) 1 rd (s'.x rs1 + s'.x rs2)) ∧
    (∃ t, exec (.sub rd rs1 rs2 env) s = .next t ∧ Writes s' t (s'.serge.pc + 4) 1 rd (s'.x rs1 - s'.x rs2)) ∧
    (∃ t, exec (.and rd rs1 rs2 env) s = .next t ∧ Writes s' t (s'.serge.pc + 4) 1 rd (s'.x rs1 &&& s'.x rs2)) ∧
    (∃ t, exec (.or rd rs1 rs2 env) s = .next t ∧ Writes s' t (s'.serge.pc + 4) 1 rd (s'.x rs1 ||| s'.x rs2)) ∧
    (∃ t, exec (.xor rd rs1 rs2 env) s = .next t ∧ Writes s' t (s'.serge.pc + 4) 1 rd (s'.x rs1 ^^^ s'.x rs2)) ∧
    (∃ t, exec (.andn rd rs1 rs2 env) s = .next t ∧ Writes s' t (s'.serge.pc + 4) 1 rd (s'.x rs1 &&& ~~~(s'.x rs2))) ∧
    (∃ t, exec (.addi rd rs1 imm env) s = .next t ∧ Writes s' t (s'.serge.pc + 4) 1 rd (s'.x rs1 + BitVec.ofInt 32 imm.toInt)) ∧
    (∃ t, exec (.andi rd rs1 imm env) s = .next t ∧ Writes s' t (s'.serge.pc + 4) 1 rd (s'.x rs1 &&& BitVec.ofNat 32 imm.toNat)) ∧
    (∃ t, exec (.ori rd rs1 imm env) s = .next t ∧ Writes s' t (s'.serge.pc + 4) 1 rd (s'.x rs1 ||| BitVec.ofNat 32 imm.toNat)) ∧
    (∃ t, exec (.xori rd rs1 imm env) s = .next t ∧ Writes s' t (s'.serge.pc + 4) 1 rd (s'.x rs1 ^^^ BitVec.ofNat 32 imm.toNat)) ∧
    (∃ t, exec (.lui rd big env) s = .next t ∧ Writes s' t (s'.serge.pc + 4) 1 rd (big ++ 0#12)) ∧
    (∃ t, exec (.pca rd big env) s = .next t ∧
      Writes s' t (s'.serge.pc + 4) 1 rd (s'.serge.pc + BitVec.ofInt 32 (4 * big.toInt)))

/-- SLL, SRL, SRA, ROR and their immediate forms, by bits 4:0 of the amount. -/
def Obligations.ShiftResults : Prop :=
  ∀ (env : CoreEnv) (s s' : State) (rd rs1 rs2 : BitVec 5), Core.wf s'.serge = true → Issues env s s' →
    (∃ t, exec (.sll rd rs1 rs2 env) s = .next t ∧ Writes s' t (s'.serge.pc + 4) 1 rd (s'.x rs1 <<< ((s'.x rs2).setWidth 5).toNat)) ∧
    (∃ t, exec (.srl rd rs1 rs2 env) s = .next t ∧ Writes s' t (s'.serge.pc + 4) 1 rd (s'.x rs1 >>> ((s'.x rs2).setWidth 5).toNat)) ∧
    (∃ t, exec (.sra rd rs1 rs2 env) s = .next t ∧
      Writes s' t (s'.serge.pc + 4) 1 rd (BitVec.ofInt 32 ((s'.x rs1).toInt / 2 ^ ((s'.x rs2).setWidth 5).toNat))) ∧
    (∃ t, exec (.ror rd rs1 rs2 env) s = .next t ∧ Writes s' t (s'.serge.pc + 4) 1 rd
      (s'.x rs1 >>> ((s'.x rs2).setWidth 5).toNat ||| s'.x rs1 <<< (32 - ((s'.x rs2).setWidth 5).toNat))) ∧
    (∃ t, exec (.slli rd rs1 rs2 env) s = .next t ∧ Writes s' t (s'.serge.pc + 4) 1 rd (s'.x rs1 <<< rs2.toNat)) ∧
    (∃ t, exec (.srli rd rs1 rs2 env) s = .next t ∧ Writes s' t (s'.serge.pc + 4) 1 rd (s'.x rs1 >>> rs2.toNat)) ∧
    (∃ t, exec (.srai rd rs1 rs2 env) s = .next t ∧
      Writes s' t (s'.serge.pc + 4) 1 rd (BitVec.ofInt 32 ((s'.x rs1).toInt / 2 ^ rs2.toNat))) ∧
    (∃ t, exec (.rori rd rs1 rs2 env) s = .next t ∧ Writes s' t (s'.serge.pc + 4) 1 rd
      (s'.x rs1 >>> rs2.toNat ||| s'.x rs1 <<< (32 - rs2.toNat)))

/-- SLT, SLTU, MIN, MAX, MINU, MAXU compare as signed or unsigned numbers; CSEL takes rs1, or rs2 where `rd` held 0. CLZ and CTZ count up to
the first one bit, 32 for 0; POPC counts the ones; BSWAP reverses the bytes; SEXTB, SEXTH, ZEXTH extend. -/
def Obligations.CompareCountAndExtendResults : Prop :=
  ∀ (env : CoreEnv) (s s' : State) (rd rs1 rs2 : BitVec 5), Core.wf s'.serge = true → Issues env s s' →
    (∃ t, exec (.slt rd rs1 rs2 env) s = .next t ∧
      Writes s' t (s'.serge.pc + 4) 1 rd (if (s'.x rs1).toInt < (s'.x rs2).toInt then 1 else 0)) ∧
    (∃ t, exec (.sltu rd rs1 rs2 env) s = .next t ∧
      Writes s' t (s'.serge.pc + 4) 1 rd (if (s'.x rs1).toNat < (s'.x rs2).toNat then 1 else 0)) ∧
    (∃ t, exec (.min rd rs1 rs2 env) s = .next t ∧
      Writes s' t (s'.serge.pc + 4) 1 rd (BitVec.ofInt 32 (min (s'.x rs1).toInt (s'.x rs2).toInt))) ∧
    (∃ t, exec (.max rd rs1 rs2 env) s = .next t ∧
      Writes s' t (s'.serge.pc + 4) 1 rd (BitVec.ofInt 32 (max (s'.x rs1).toInt (s'.x rs2).toInt))) ∧
    (∃ t, exec (.minu rd rs1 rs2 env) s = .next t ∧
      Writes s' t (s'.serge.pc + 4) 1 rd (BitVec.ofNat 32 (min (s'.x rs1).toNat (s'.x rs2).toNat))) ∧
    (∃ t, exec (.maxu rd rs1 rs2 env) s = .next t ∧
      Writes s' t (s'.serge.pc + 4) 1 rd (BitVec.ofNat 32 (max (s'.x rs1).toNat (s'.x rs2).toNat))) ∧
    (∃ t, exec (.csel rd rs1 rs2 env) s = .next t ∧
      Writes s' t (s'.serge.pc + 4) 1 rd (if s'.x rd ≠ 0 then s'.x rs1 else s'.x rs2)) ∧
    (∀ imm : BitVec 14, ∃ t, exec (.slti rd rs1 imm env) s = .next t ∧
      Writes s' t (s'.serge.pc + 4) 1 rd (if (s'.x rs1).toInt < imm.toInt then 1 else 0)) ∧
    (∀ imm : BitVec 14, ∃ t, exec (.sltiu rd rs1 imm env) s = .next t ∧
      Writes s' t (s'.serge.pc + 4) 1 rd (if (s'.x rs1).toNat < (imm.signExtend 32).toNat then 1 else 0)) ∧
    (∃ t n, exec (.clz rd rs1 env) s = .next t ∧ Writes s' t (s'.serge.pc + 4) 1 rd (BitVec.ofNat 32 n) ∧ n ≤ 32 ∧
      (∀ i < n, (s'.x rs1).getLsbD (31 - i) = false) ∧ (n < 32 → (s'.x rs1).getLsbD (31 - n) = true)) ∧
    (∃ t n, exec (.ctz rd rs1 env) s = .next t ∧ Writes s' t (s'.serge.pc + 4) 1 rd (BitVec.ofNat 32 n) ∧ n ≤ 32 ∧
      (∀ i < n, (s'.x rs1).getLsbD i = false) ∧ (n < 32 → (s'.x rs1).getLsbD n = true)) ∧
    (∃ t, exec (.popc rd rs1 env) s = .next t ∧ Writes s' t (s'.serge.pc + 4) 1 rd
      (BitVec.ofNat 32 ((List.range 32).countP fun i => (s'.x rs1).getLsbD i))) ∧
    (∃ t, exec (.bswap rd rs1 env) s = .next t ∧ Writes s' t (s'.serge.pc + 4) 1 rd
      ((s'.x rs1).extractLsb' 0 8 ++ (s'.x rs1).extractLsb' 8 8 ++ (s'.x rs1).extractLsb' 16 8 ++ (s'.x rs1).extractLsb' 24 8)) ∧
    (∃ t, exec (.sextb rd rs1 env) s = .next t ∧ Writes s' t (s'.serge.pc + 4) 1 rd (((s'.x rs1).extractLsb' 0 8).signExtend 32)) ∧
    (∃ t, exec (.sexth rd rs1 env) s = .next t ∧ Writes s' t (s'.serge.pc + 4) 1 rd (((s'.x rs1).extractLsb' 0 16).signExtend 32)) ∧
    (∃ t, exec (.zexth rd rs1 env) s = .next t ∧ Writes s' t (s'.serge.pc + 4) 1 rd (((s'.x rs1).extractLsb' 0 16).setWidth 32))

/-- The MUL family: the low and high words of the product, in the time of the table *Instruction timing* (R830). -/
def Obligations.MultiplyResults : Prop :=
  ∀ (env : CoreEnv) (s s' : State) (rd rs1 rs2 : BitVec 5), Core.wf s'.serge = true → Issues env s s' →
    ∃ cost, mulTime s'.serge.ct (s'.x rs2) cost ∧
    (∃ t, exec (.mul rd rs1 rs2 env) s = .next t ∧ Writes s' t (s'.serge.pc + 4) cost rd (s'.x rs1 * s'.x rs2)) ∧
    (∃ t, exec (.mulh rd rs1 rs2 env) s = .next t ∧ Writes s' t (s'.serge.pc + 4) cost rd
      (BitVec.ofInt 32 ((s'.x rs1).toInt * (s'.x rs2).toInt / 2 ^ 32))) ∧
    (∃ t, exec (.mulhu rd rs1 rs2 env) s = .next t ∧ Writes s' t (s'.serge.pc + 4) cost rd
      (BitVec.ofNat 32 ((s'.x rs1).toNat * (s'.x rs2).toNat / 2 ^ 32))) ∧
    (∃ t, exec (.mulhsu rd rs1 rs2 env) s = .next t ∧ Writes s' t (s'.serge.pc + 4) cost rd
      (BitVec.ofInt 32 ((s'.x rs1).toInt * (s'.x rs2).toNat / 2 ^ 32)))

/-- The DIV family: quotients that round toward 0 and the remainders that go with them, for a divisor other than 0 and a quotient
that fits; all ones and the dividend for a divisor of 0 (R821); 0x8000_0000 and 0 for 0x8000_0000 over −1 (R822). -/
def Obligations.DivideResults : Prop :=
  ∀ (env : CoreEnv) (s s' : State) (rd rs1 rs2 : BitVec 5), Core.wf s'.serge = true → Issues env s s' →
    ∃ cost q r qu ru, divTime s'.serge.ct cost ∧
    (∃ t, exec (.div rd rs1 rs2 env) s = .next t ∧ Writes s' t (s'.serge.pc + 4) cost rd q) ∧
    (∃ t, exec (.rem rd rs1 rs2 env) s = .next t ∧ Writes s' t (s'.serge.pc + 4) cost rd r) ∧
    (∃ t, exec (.divu rd rs1 rs2 env) s = .next t ∧ Writes s' t (s'.serge.pc + 4) cost rd qu) ∧
    (∃ t, exec (.remu rd rs1 rs2 env) s = .next t ∧ Writes s' t (s'.serge.pc + 4) cost rd ru) ∧
    (s'.x rs2 = 0 → q = 0xFFFFFFFF#32 ∧ qu = 0xFFFFFFFF#32 ∧ r = s'.x rs1 ∧ ru = s'.x rs1) ∧
    (s'.x rs2 ≠ 0 → qu.toNat = (s'.x rs1).toNat / (s'.x rs2).toNat ∧ ru.toNat = (s'.x rs1).toNat % (s'.x rs2).toNat) ∧
    (s'.x rs1 = 0x80000000#32 → s'.x rs2 = 0xFFFFFFFF#32 → q = 0x80000000#32 ∧ r = 0#32) ∧
    (s'.x rs2 ≠ 0 → (s'.x rs1 ≠ 0x80000000#32 ∨ s'.x rs2 ≠ 0xFFFFFFFF#32) →
      q.toInt = (s'.x rs1).toInt.tdiv (s'.x rs2).toInt ∧ r.toInt = (s'.x rs1).toInt.tmod (s'.x rs2).toInt)
/-! ## Serge: memory -/

/-- Loads of a byte, a halfword and a word from core SRAM, admitted by its checker: `rd` takes the bytes as Serge sees them, behind the
buffered stores that hold them (R840), extended by sign or zeros, in 2 cycles. -/
def Obligations.LoadResults : Prop :=
  ∀ (env : CoreEnv) (s s' : State) (rd rs1 : BitVec 5) (imm : BitVec 14) (attr : Attr), Core.wf s'.serge = true → Issues env s s' →
    env.data = .ok → attr.ord = 0 →
    let a := (s'.x rs1 + imm.signExtend 32).toNat
    let b (k : Nat) : Byte := byteSeen s' (a + k)
    (inCore a 1 = true → request [.read] a 1 s' = .ok attr s' →
      (∃ t, exec (.lb rd rs1 imm env) s = .next t ∧ Writes s'.fresh t (s'.serge.pc + 4) 2 rd ((b 0).signExtend 32)) ∧
      (∃ t, exec (.lbu rd rs1 imm env) s = .next t ∧ Writes s'.fresh t (s'.serge.pc + 4) 2 rd ((b 0).setWidth 32))) ∧
    (inCore a 2 = true → request [.read] a 2 s' = .ok attr s' →
      (∃ t, exec (.lh rd rs1 imm env) s = .next t ∧ Writes s'.fresh t (s'.serge.pc + 4) 2 rd ((b 1 ++ b 0).signExtend 32)) ∧
      (∃ t, exec (.lhu rd rs1 imm env) s = .next t ∧ Writes s'.fresh t (s'.serge.pc + 4) 2 rd ((b 1 ++ b 0).setWidth 32))) ∧
    (inCore a 4 = true → request [.read] a 4 s' = .ok attr s' →
      ∃ t, exec (.lw rd rs1 imm env) s = .next t ∧ Writes s'.fresh t (s'.serge.pc + 4) 2 rd (b 3 ++ b 2 ++ b 1 ++ b 0))

/-- Stores of a byte, a halfword and a word to core SRAM, admitted by its checker: a store joins the buffer, a full buffer draining its
oldest first, or is performed behind the drained buffer where the region has B 0 or ORD 2 (R837, R838, R842); Serge sees the bytes of `rd`
at the address and every other byte as before (R840); no register changes. -/
def Obligations.StoresAreSeen : Prop :=
  ∀ (env : CoreEnv) (s s' : State) (rd rs1 : BitVec 5) (imm : BitVec 14) (attr : Attr), Core.wf s'.serge = true → Issues env s s' →
    env.data = .ok →
    let a := (s'.x rs1 + imm.signExtend 32).toNat
    let st (n : Nat) : State :=
      let e : StoreEnt := { addr := a, size := n, data := s'.x rd, ord := attr.ord }
      Retired (if attr.b = true ∧ attr.ord ≠ 2 then
          (if 4 ≤ s'.serge.buf.length then drainOne s' else s').onSerge fun c => { c with buf := c.buf ++ [e] }
        else (drainAll s').store a (le n (s'.x rd).toNat)) (s'.serge.pc + 4) 1 s'.serge.rf
    (inCore a 1 = true → request [.write] a 1 s' = .ok attr s' →
      exec (.sb rd rs1 imm env) s = .next (st 1) ∧ SeesStore s' (st 1) a 1 (s'.x rd)) ∧
    (inCore a 2 = true → request [.write] a 2 s' = .ok attr s' →
      exec (.sh rd rs1 imm env) s = .next (st 2) ∧ SeesStore s' (st 2) a 2 (s'.x rd)) ∧
    (inCore a 4 = true → request [.write] a 4 s' = .ok attr s' →
      exec (.sw rd rs1 imm env) s = .next (st 4) ∧ SeesStore s' (st 4) a 4 (s'.x rd))

/-- SWAP and CAS in core SRAM: `rd` takes the old word, behind the drained buffer; SWAP writes the old `rd`, CAS writes it only where the
old word equals rs2 (R834–R836). -/
def Obligations.AtomicResults : Prop :=
  ∀ (env : CoreEnv) (s s' : State) (rd rs1 rs2 : BitVec 5) (imm : BitVec 14) (attr : Attr), Core.wf s'.serge = true → Issues env s s' →
    env.data = .ok →
    let old (a : Nat) : Word := byteSeen s' (a + 3) ++ byteSeen s' (a + 2) ++ byteSeen s' (a + 1) ++ byteSeen s' a
    let a := (s'.x rs1 + imm.signExtend 32).toNat
    let c := (s'.x rs1).toNat
    let u := (drainAll s').fresh
    (inCore a 4 = true → request [.read, .write] a 4 s' = .ok attr s' →
      ∃ t, exec (.swap rd rs1 imm env) s = .next t ∧ SeesStore s' t a 4 (s'.x rd) ∧
        Writes (u.store a (le 4 (s'.x rd).toNat)) t (s'.serge.pc + 4) 4 rd (old a)) ∧
    (inCore c 4 = true → request [.read, .write] c 4 s' = .ok attr s' →
      (old c = s'.x rs2 → ∃ t, exec (.cas rd rs1 rs2 env) s = .next t ∧ SeesStore s' t c 4 (s'.x rd) ∧
        Writes (u.store c (le 4 (s'.x rd).toNat)) t (s'.serge.pc + 4) 4 rd (old c)) ∧
      (old c ≠ s'.x rs2 → ∃ t, exec (.cas rd rs1 rs2 env) s = .next t ∧ SeesStore s' t c 4 (old c) ∧
        Writes u t (s'.serge.pc + 4) 4 rd (old c)))

/-- A misaligned halfword or word access, and a misaligned SWAP or CAS, raises ALIGN with the address and makes no memory access
(R833); here with PSTAT.TW 0. -/
def Obligations.MisalignedAccessTraps : Prop :=
  ∀ (env : CoreEnv) (s s' : State) (rd rs1 rs2 : BitVec 5) (imm : BitVec 14), Issues env s s' → s'.serge.tw = false →
    let a := s'.x rs1 + imm.signExtend 32
    (a.toNat % 2 ≠ 0 →
      exec (.lh rd rs1 imm env) s = .next (Trapped s' 0x05 a 0) ∧ exec (.lhu rd rs1 imm env) s = .next (Trapped s' 0x05 a 0) ∧
      exec (.sh rd rs1 imm env) s = .next (Trapped s' 0x05 a 0)) ∧
    (a.toNat % 4 ≠ 0 →
      exec (.lw rd rs1 imm env) s = .next (Trapped s' 0x05 a 0) ∧ exec (.sw rd rs1 imm env) s = .next (Trapped s' 0x05 a 0) ∧
      exec (.swap rd rs1 imm env) s = .next (Trapped s' 0x05 a 0)) ∧
    ((s'.x rs1).toNat % 4 ≠ 0 → exec (.cas rd rs1 rs2 env) s = .next (Trapped s' 0x05 (s'.x rs1) 0))

/-- Performing a buffered store changes no byte of core SRAM as Serge sees it (R840). -/
def Obligations.DrainingIsNotSeen : Prop :=
  ∀ (t : Nat) (s : State), Acts [] t s → ∀ u, exec (.storeBufferDrain t) s = .next u →
    ∀ b, inCore b 1 = true → byteSeen u b = byteSeen s b

/-! ## Serge: control flow -/

/-- A branch goes to PC plus 4 times its offset in 3 cycles when its condition holds, else to the next instruction in 1; no register
changes (R819). -/
def Obligations.BranchResults : Prop :=
  ∀ (env : CoreEnv) (s s' : State) (rs1 rs2 : BitVec 5) (off : BitVec 14), Issues env s s' →
    let go (c : Prop) [Decidable c] : State :=
      if c then Retired s' (s'.serge.pc + BitVec.ofInt 32 (4 * off.toInt)) 3 s'.serge.rf else Retired s' (s'.serge.pc + 4) 1 s'.serge.rf
    exec (.beq rs1 rs2 off env) s = .next (go (s'.x rs1 = s'.x rs2)) ∧
    exec (.bne rs1 rs2 off env) s = .next (go (s'.x rs1 ≠ s'.x rs2)) ∧
    exec (.blt rs1 rs2 off env) s = .next (go ((s'.x rs1).toInt < (s'.x rs2).toInt)) ∧
    exec (.bge rs1 rs2 off env) s = .next (go ((s'.x rs2).toInt ≤ (s'.x rs1).toInt)) ∧
    exec (.bltu rs1 rs2 off env) s = .next (go ((s'.x rs1).toNat < (s'.x rs2).toNat)) ∧
    exec (.bgeu rs1 rs2 off env) s = .next (go ((s'.x rs2).toNat ≤ (s'.x rs1).toNat))

/-- JMP; CALL leaves its return address in d7 (R790); JALR computes its target before it writes `rd`, so that `rd` may equal rs1
(R827). -/
def Obligations.JumpResults : Prop :=
  ∀ (env : CoreEnv) (s s' : State) (rd rs1 : BitVec 5) (imm : BitVec 14) (off : BitVec 20), Core.wf s'.serge = true → Issues env s s' →
    exec (.jmp off env) s = .next (Retired s' (s'.serge.pc + BitVec.ofInt 32 (4 * off.toInt)) 2 s'.serge.rf) ∧
    (∃ t, exec (.call off env) s = .next t ∧
      Writes s' t (s'.serge.pc + BitVec.ofInt 32 (4 * off.toInt)) 2 31 (s'.serge.pc + 4)) ∧
    (∃ t, exec (.jalr rd rs1 imm env) s = .next t ∧
      Writes s' t ((s'.x rs1 + imm.signExtend 32) &&& 0xFFFFFFFC#32) 3 rd (s'.serge.pc + 4))

/-- ENTER while fewer than 14 frames are resident: the caller's d registers are the new frame's a registers, t0–t6 and d0–d7 read 0
(R801), t7 holds the caller's c7, and c7 goes down by 8 times the immediate (R796). With 14 resident, the oldest frame is first spilled
below WSP, which must not pass WSL (R795, R797). -/
def Obligations.EnterResults : Prop :=
  ∀ (env : CoreEnv) (s s' : State) (imm : BitVec 14), Core.wf s'.serge = true → Issues env s s' → s'.serge.tw = false →
    (s'.serge.count < 14 →
      ∃ t, exec (.enter imm env) s = .next t ∧
        (∀ k : Nat, k < 8 → t.x (BitVec.ofNat 5 (8 + k)) = s'.x (BitVec.ofNat 5 (24 + k))) ∧
        (∀ k : Nat, k < 7 → t.x (BitVec.ofNat 5 (16 + k)) = 0) ∧ t.x 23 = s'.x 7 ∧
        (∀ k : Nat, k < 8 → t.x (BitVec.ofNat 5 (24 + k)) = 0) ∧
        t.x 7 = s'.x 7 - BitVec.ofNat 32 (8 * imm.toNat) ∧
        (∀ i, i ≠ 7 → (i < 16 * ((s'.serge.cwp + 1) % 15) + 8 ∨ 16 * ((s'.serge.cwp + 1) % 15) + 24 ≤ i) →
          t.serge.file i = s'.serge.file i) ∧
        t = Retired (s'.onSerge fun c => { c with cwp := (c.cwp + 1) % 15, count := c.count + 1 }) (s'.serge.pc + 4) 1 t.serge.rf) ∧
    (∀ u, s'.serge.count = 14 → 64 ≤ wsp s' → (s'.rd rSPILL_WSL).toNat ≤ wsp s' - 64 →
      spillAccess .write (wsp s' - 64) (drainAll s') = .ok () u →
      ∃ rf, exec (.enter imm env) s = .next (Retired ((spillMem (wsp s' - 64) u).onSerge fun c =>
        { c with cwp := (s'.serge.cwp + 1) % 15, count := 14, oldest := (s'.serge.oldest + 1) % 15 }) (s'.serge.pc + 4) 19 rf)) ∧
    (s'.serge.count = 14 → 64 ≤ wsp s' → wsp s' - 64 < (s'.rd rSPILL_WSL).toNat →
      exec (.enter imm env) s = .next (Trapped s' 0x09 (s'.rd rSPILL_WSP) 0))

/-- LEAVE while the frame below is resident: the a registers are the caller's d registers again, c7 takes t7, and the caller's a and t
registers are what the register file holds for its window (R796). Otherwise the frame below is filled from WSP, which must not pass WSB
(R795, R800). -/
def Obligations.LeaveResults : Prop :=
  ∀ (env : CoreEnv) (s s' : State), Core.wf s'.serge = true → Issues env s s' → s'.serge.tw = false →
    let below := (s'.serge.cwp + 14) % 15
    (1 < s'.serge.count →
      ∃ t, exec (.leave env) s = .next t ∧ (∀ k : Nat, k < 8 → t.x (BitVec.ofNat 5 (24 + k)) = s'.x (BitVec.ofNat 5 (8 + k))) ∧
        t.x 7 = s'.x 23 ∧ (∀ i, i ≠ 7 → t.serge.file i = s'.serge.file i) ∧
        t = Retired (s'.onSerge fun c => { c with cwp := below, count := c.count - 1 }) (s'.serge.pc + 4) 1 t.serge.rf) ∧
    (∀ u, s'.serge.count = 1 → env.data = .ok → wsp s' + 64 < 2 ^ 32 → wsp s' + 64 ≤ (s'.rd rSPILL_WSB).toNat →
      spillAccess .read (wsp s') (drainAll s') = .ok () u →
      ∃ t, exec (.leave env) s = .next t ∧ t.x 7 = s'.x 23 ∧
        (∀ k : Nat, k < 8 → t.x (BitVec.ofNat 5 (8 + k)) = BitVec.ofNat 32 (ofLe (u.load (wsp s' + 4 * k) 4)) ∧
          t.x (BitVec.ofNat 5 (16 + k)) = BitVec.ofNat 32 (ofLe (u.load (wsp s' + 32 + 4 * k) 4)) ∧
          t.x (BitVec.ofNat 5 (24 + k)) = s'.x (BitVec.ofNat 5 (8 + k))) ∧
        t = Retired (((u.wr rSPILL_WSP (BitVec.ofNat 32 (wsp s' + 64))).addSat rSPILL_FILLCNT 1).onSerge fun c =>
          { c with cwp := below, oldest := below }) (s'.serge.pc + 4) 21 t.serge.rf) ∧
    (s'.serge.count = 1 → wsp s' + 64 < 2 ^ 32 → (s'.rd rSPILL_WSB).toNat < wsp s' + 64 →
      exec (.leave env) s = .next (Trapped s' 0x0A (s'.rd rSPILL_WSP) 0))

/-- TDROP with TW 1: EPC goes to c4 and EPSTAT to c5, a new frame is entered and TW is 0 (R802), here while fewer than 14 frames are
resident; with TW 0 it raises ILLEGAL (R826). WFLUSH in privileged mode with TW 0: where no spill of it traps, COUNT is 1 at the end and
CWP is as before (R804); with TW 1 it raises a double fault, as any trap does. -/
def Obligations.TdropAndWflush : Prop :=
  ∀ (env : CoreEnv) (s s' : State) (imm : BitVec 14), Core.wf s'.serge = true → Issues env s s' →
    (s'.serge.tw = true → s'.serge.count < 14 →
      ∃ t, exec (.tdrop imm env) s = .next t ∧ t.x 4 = s'.serge.epc ∧ t.x 5 = s'.serge.epstat ∧
        t.x 7 = s'.x 7 - BitVec.ofNat 32 (8 * imm.toNat) ∧ t.x 23 = s'.x 7 ∧
        (∀ k : Nat, k < 8 → t.x (BitVec.ofNat 5 (8 + k)) = s'.x (BitVec.ofNat 5 (8 + k)) ∧ t.x (BitVec.ofNat 5 (24 + k)) = 0) ∧
        (∀ k : Nat, k < 7 → t.x (BitVec.ofNat 5 (16 + k)) = 0) ∧ t.x 1 = s'.x 1 ∧ t.x 2 = s'.x 2 ∧ t.x 3 = s'.x 3 ∧ t.x 6 = s'.x 6 ∧
        t = Retired (s'.onSerge fun c => { c with cwp := (c.cwp + 1) % 15, count := c.count + 1, tw := false }) (s'.serge.pc + 4) 2
          t.serge.rf) ∧
    (s'.serge.tw = false → exec (.tdrop imm env) s = .next (Trapped s' 0x02 (0x74008000#32 ||| imm.setWidth 32) 0)) ∧
    (s'.serge.tw = false → s'.serge.priv = true →
      (s'.serge.count = 1 → exec (.wflush env) s = .next (Retired s' (s'.serge.pc + 4) 1 s'.serge.rf)) ∧
      (∀ k u, flushOp (s'.rd rSPILL_WSL).toNat 14 0 s' = .ok k u →
        exec (.wflush env) s = .next (Retired u (s'.serge.pc + 4) (1 + 18 * k) s'.serge.rf) ∧ u.serge.count = 1 ∧
          u.serge.cwp = s'.serge.cwp ∧ k = s'.serge.count - 1))

/-! ## Serge: traps and system -/

/-- TRAP raises its trap with the immediate in EVAL and EPC at itself (R857, R860). With TW 1 it is a window double fault: Serge halts,
STK_WDF is set, DFPC and DFCAUSE hold the PC and the cause, and a full reset of cause 0x06 is asserted (R880), here outside the last breath;
no register or special register of Serge changes. TRET sets PC from EPC and PSTAT from EPSTAT, with TW = 0; CWP is unchanged (R815); a STOREERR whose VALID was not cleared is due
again (R883). -/
def Obligations.TrapEntryAndReturn : Prop :=
  ∀ (env : CoreEnv) (s s' : State) (imm : BitVec 11), Issues env s s' →
    (s'.serge.tw = false → exec (.trap imm env) s = .next (Trapped s' 0x04 (imm.setWidth 32) 0)) ∧
    (s'.serge.tw = true → s'.power.st ≠ .lastBreath → s'.power.rst = none →
      ∃ t, exec (.trap imm env) s = .next t ∧ t.serge = { s'.serge with halted := true, buf := [] } ∧ t.power.rst = some 6 ∧
        t.rd rCFAULT_DFPC = s'.serge.pc ∧ (t.rd rCFAULT_DFCAUSE).toNat % 256 = 4 ∧ t.flag (rTWEED_STICKY 0) 0 = true) ∧
    (s'.serge.priv = true → exec (.tret env) s = .next (Retired (s'.onSerge fun c => { c with
      priv := c.epstat.getLsbD 0, ie := c.epstat.getLsbD 1, tw := false, ct := c.epstat.getLsbD 3, storeErrTaken := false }) s'.serge.epc 3 s'.serge.rf))

/-- A word that is no allocated instruction, and one with a reserved field that is not 0, raises ILLEGAL with the word in EVAL (R818); so do
MOVS and MOVG of a number the table does not list. In user mode, TRET, WFI, WFLUSH, MOVS and MOVG of a privileged register raise PRIV
(R825, R810). The command that carries an illegal word refuses an allocated one. -/
def Obligations.IllegalAndPrivilegedTraps : Prop :=
  ∀ (env : CoreEnv) (s s' : State),
    (∀ w : Word, allocated w = true → exec (.illegalInstruction w env) s = .refused .illFormed) ∧
    (Issues env s s' → s'.serge.tw = false →
      (∀ w : Word, allocated w = false → exec (.illegalInstruction w env) s = .next (Trapped s' 0x02 w 0)) ∧
      (∀ (n : BitVec 11) (r : BitVec 5), srListed n.toNat = false →
        exec (.movs n r env) s = .next (Trapped s' 0x02 (encS 0 r 4 n) 0) ∧
        exec (.movg r n env) s = .next (Trapped s' 0x02 (encS r 0 5 n) 0)) ∧
      (s'.serge.priv = false →
        exec (.tret env) s = .next (Trapped s' 0x03 0xFC000800#32 0) ∧ exec (.wfi env) s = .next (Trapped s' 0x03 0xFC001000#32 0) ∧
        exec (.wflush env) s = .next (Trapped s' 0x03 0xFC003000#32 0) ∧
        ∀ (n : BitVec 11) (r : BitVec 5), srListed n.toNat = true →
          exec (.movs n r env) s = .next (Trapped s' 0x03 (encS 0 r 4 n) 0) ∧
          (n.toNat < 0x10 → exec (.movg r n env) s = .next (Trapped s' 0x03 (encS r 0 5 n) 0))))

/-- WFI waits; FENCE of any kinds empties the store buffer, and raises ILLEGAL with a reserved kind; MOVS to PSTAT keeps TW, and IE while TW
is 1 (R811, R812), in 2 cycles; to EPC, EPSTAT and TVEC it keeps the bits that read 0; to a read-only register it changes nothing but PC. -/
def Obligations.SystemResults : Prop :=
  ∀ (env : CoreEnv) (s s' : State) (rs1 : BitVec 5) (kinds : BitVec 11), Core.wf s'.serge = true → Issues env s s' →
    let movs (n : BitVec 11) (cost : Nat) (f : Serge → Serge) : Prop :=
      exec (.movs n rs1 env) s = .next (Retired (s'.onSerge f) (s'.serge.pc + 4) cost s'.serge.rf)
    (kinds.toNat < 8 → exec (.fence kinds env) s = .next (Retired (drainAll s') (s'.serge.pc + 4) 1 s'.serge.rf) ∧
      (drainAll s').serge.buf = []) ∧
    (s'.serge.priv = true →
      exec (.wfi env) s = .next (Retired (s'.onSerge fun c => { c with waiting := true }) (s'.serge.pc + 4) 1 s'.serge.rf) ∧
      movs 0 2 (fun c => { c with
        priv := (s'.x rs1).getLsbD 0, ie := if c.tw then c.ie else (s'.x rs1).getLsbD 1, ct := (s'.x rs1).getLsbD 3 }) ∧
      movs 1 1 (fun c => { c with epc := s'.x rs1 &&& 0xFFFFFFFC#32 }) ∧
      movs 2 1 (fun c => { c with epstat := s'.x rs1 &&& 0xB#32 }) ∧
      movs 5 1 (fun c => { c with tvec := s'.x rs1 &&& 0xFFFFFF00#32 }) ∧
      ∀ n : BitVec 11, n ∈ [3#11, 4#11, 8#11, 0x10#11, 0x11#11, 0x12#11, 0x13#11, 0x20#11] → movs n 1 id)

/-- MOVG reads the special registers of the table; the low word of CYCLE and of INSTRET latches its high word (R22), which the next read of
the high word returns and releases. -/
def Obligations.MovgResults : Prop :=
  ∀ (env : CoreEnv) (s s' : State) (rd : BitVec 5), Core.wf s'.serge = true → Issues env s s' →
    let reads (n : BitVec 11) (w : Word) : Prop := ∃ t, exec (.movg rd n env) s = .next t ∧ Writes s' t (s'.serge.pc + 4) 1 rd w
    let low (n : BitVec 11) (hi : Nat) (v : Nat) : Prop := ∃ t, exec (.movg rd n env) s = .next t ∧
      Writes { s' with latches := t.latches } t (s'.serge.pc + 4) 1 rd (BitVec.ofNat 32 v) ∧
      t.latches.lookup (srLatch hi) = some (BitVec.ofNat 32 (v / 2 ^ 32))
    let high (n : BitVec 11) : Prop := ∀ w, s'.latches.lookup (srLatch n.toNat) = some w → ∃ t, exec (.movg rd n env) s = .next t ∧
      Writes { s' with latches := s'.latches.filter (fun e => e.1 != srLatch n.toNat) } t (s'.serge.pc + 4) 1 rd w
    (s'.serge.priv = true →
      reads 0 ((if s'.serge.priv then 1#32 else 0#32) + (if s'.serge.ie then 2#32 else 0#32) + (if s'.serge.tw then 4#32 else 0#32) +
        (if s'.serge.ct then 8#32 else 0#32)) ∧
      reads 1 s'.serge.epc ∧ reads 2 s'.serge.epstat ∧ reads 3 s'.serge.ecause ∧ reads 4 s'.serge.eval ∧ reads 5 s'.serge.tvec ∧
      reads 8 (winStat s'.serge)) ∧
    reads 0x20 0x01100800#32 ∧ low 0x10 0x11 s'.serge.cycles ∧ low 0x12 0x13 s'.serge.instret ∧ high 0x11 ∧ high 0x13 ∧
    (s'.latches.lookup (srLatch 0x11) = none → reads 0x11 (BitVec.ofNat 32 (s'.serge.cycles / 2 ^ 32)))


/-! ## Canvas -/

/-- Frame starts and the reference (R56, R65, R67–R76, R110): while LOCKED a reference frame start is measured, becomes a Canvas frame
start and marks the position of the reference; in PULLIN its phase decides; in ACQUIRE and FLYWHEEL it must qualify twice (R70, R75),
and then steps or pulls in. The flywheel starts a frame when its period has run out, and after 1.5 nominal periods without a reference
start Canvas takes over: FLYWHEEL, sticky bit 64, REFLOST, LOSSCNT, SLIP 1, GAP records. -/
def Obligations.CanvasFrameStarts : Prop :=
  ∀ (t : Nat) (lf : LaneFails) (s : State), Acts [(0, 1)] t s → (s.at t).canvas.enabled = true →
    let u := s.at t
    let n := u.now
    let run := if qualifies u n then u.canvas.qualRun + 1 else 0
    let seen := fun v : State => v.onCanvas (fun c => { c with refAt := some n, qualRun := run, frameEndAt := none })
    (u.canvas.ctl.refsel < 2 → u.canvas.st = .locked →
      exec (.refFrameStart t lf) s = .next (markRef (canvasFrameStart n lf (seen (u.onCanvas (measure n)))))) ∧
    (u.canvas.ctl.refsel < 2 → u.canvas.st = .pullin → exec (.refFrameStart t lf) s = .next (pullIn n lf (seen u))) ∧
    (u.canvas.ctl.refsel < 2 → (u.canvas.st = .acquire ∨ u.canvas.st = .flywheel) →
      (run < 2 → exec (.refFrameStart t lf) s = .next (seen u)) ∧
      (2 ≤ run → (u.canvas.stepNext = true ∨ u.canvas.ctl.reacq = true) →
        exec (.refFrameStart t lf) s = .next (markRef (canvasFrameStart n lf (lock (seen u))))) ∧
      (2 ≤ run → u.canvas.stepNext = false → u.canvas.ctl.reacq = false →
        exec (.refFrameStart t lf) s = .next (pullIn n lf ((seen u).onCanvas fun c => { c with st := .pullin, qualRun := 0 })))) ∧
    (2 ≤ u.canvas.ctl.refsel → exec (.refFrameStart t lf) s = .next u) ∧
    (u.canvas.st ≠ .locked → u.canvas.nextFrameAt ≤ n →
      exec (.flywheelFrameStart t lf) s = .next (if u.canvas.st = .flywheel then (canvasFrameStart n lf u).addSat rCANVAS_SLIP 1
        else canvasFrameStart n lf u)) ∧
    (∀ p, u.canvas.refAt = some p → u.canvas.st = .locked → nominalPeriod u * 3 ≤ (n - p) * 2 →
      exec (.reflostTakeover t lf) s = .next (
        let v := canvasFrameStart n lf (u.onCanvas fun c => { c with st := .flywheel, qualRun := 0 })
        let v := (((setSticky 64 16 u.canvas.refPos.frame v).raise rCANVAS_INTSTAT 0).addSat rCANVAS_LOSSCNT 1).wr rCANVAS_SLIP 1
        writeGaps gapREFLOST 0 (fun _ => u.canvas.refPos) (fun _ => { v.canvas.pos with line := 0 }) (refCusts u) v))

/-- Frame end, line ticks and the commit timer (R58, R59, R81, R85, R99): a frame end opens blanking at tick 0; a line tick raises LINE by
1, up to 0xFFFF where it holds, and in blanking the tick count, and the armed slots due at the new position fire; the timer makes a commit
point when its span is over and none before. -/
def Obligations.CanvasLinesTimersAndSwitches : Prop :=
  ∀ (t : Nat) (lf : LaneFails) (s : State), Acts [(0, 1)] t s →
    let u := s.at t
    (u.canvas.enabled = true → u.canvas.blank = false →
      exec (.frameEnd t lf) s = .next (fireSlots (fun x => x.slot.rel && decide (x.slot.line = 0)) lf
        (u.onCanvas fun c => { c with blank := true, blankTicks := 0, frameEndAt := some u.now }))) ∧
    (u.canvas.pos.line = 0xFFFF → exec (.lineTick t lf) s = .next u) ∧
    (u.canvas.pos.line < 0xFFFF → (∀ x ∈ u.canvas.slots, x.armed = false) →
      exec (.lineTick t lf) s = .next (u.onCanvas fun c =>
        { c with pos := { c.pos with line := c.pos.line + 1 }, blankTicks := if c.blank then c.blankTicks + 1 else 0 })) ∧
    (u.canvas.lastCommitAt + commitSpan u ≤ u.now → exec (.commitPointTimer t) s = .next (commitPoint u)) ∧
    (u.now < u.canvas.lastCommitAt + commitSpan u → exec (.commitPointTimer t) s = .next u)

/-- FSYNC_OUT pulses, their end, and the switches of Canvas (R95, R103, R104, R108–R110): the pulse that a frame start made due begins and
is due no more; it ends alone; APPLY waits for the next frame start; disabling runs the catch-up and holds FRAME; enabling starts a frame
in ACQUIRE. -/
def Obligations.CanvasPulsesAndSwitches : Prop :=
  ∀ (t : Nat) (lf : LaneFails) (s : State), Acts [(0, 1)] t s →
    let u := s.at t
    (∀ n : Fin 2, u.canvas.enabled = true → nth u.canvas.fsDue n.val = true →
      exec (.fsyncOutFramePulse t n) s = .next (u.onCanvas fun c =>
        { c with fsDue := upd c.fsDue n.val (fun _ => false), pulses := upd c.pulses n.val (fun _ => true) })) ∧
    (∀ n : Fin 32, exec (.pulseEnd t n) s = .next (u.onCanvas fun c => { c with pulses := upd c.pulses n.val (fun _ => false) })) ∧
    exec (.apply t) s = .next (u.onCanvas fun c => { c with applyPending := true }) ∧
    (u.canvas.enabled = true → exec (.canvasDisable t lf) s = .next ((catchUp lf (u.setFlag rCANVAS_CTRL 0 false)).onCanvas fun c =>
      { c with enabled := false, st := .acquire, fsDue := [false, false], qualRun := 0, refAt := none })) ∧
    (u.canvas.enabled = false → exec (.canvasEnable t lf) s = .next (canvasFrameStart u.now lf
      ((u.setFlag rCANVAS_CTRL 0 true).onCanvas fun c => { c with enabled := true, st := .acquire, stepNext := true })))

/-- FRAME and the frame epoch count frames as one 64-bit number, and LINE returns to 0 (R56–R58). -/
def Obligations.FramesCountAsOne : Prop :=
  ∀ p : Pos, p.frame < 2 ^ 32 → p.nextFrame.frame < 2 ^ 32 ∧ p.nextFrame.line = 0 ∧
    p.nextFrame.epoch * 2 ^ 32 + p.nextFrame.frame = p.epoch * 2 ^ 32 + p.frame + 1

/-! ## Muslin -/

/-- Camera packets (R116–R118, R124, R126–R128, R152) and the deskew sequence (R115). A long packet on an enabled port outside a discard
counts in PKT; with no custody bound, or another data type, it counts in UNBOUND; one that does not fit in the line buffer is an OVERRUN
charged to its custody; a whole one with a good CRC joins the port's lines as it came, with a bad one with its error mark and CRCERR; an
uncorrectable header starts a discard. On a disabled port nothing happens. Frame packets queue behind the lines before them. The end of a burst ends a discard and takes PORTCFG over. -/
def Obligations.CameraPackets : Prop :=
  ∀ (t : Nat) (p : Fin 4) (vc : Fin 16) (s : State), Acts [(0, 2), (1, 8 + p.val)] t s →
    let u := s.at t
    let v := setPort p.val (fun x => { x with burst := true }) u
    let k := v.add64 (rMUSLIN_PCNT_PKT_LO p.val) (rMUSLIN_PCNT_PKT_HI p.val) 1
    (∀ (dt : BitVec 6) (wc : BitVec 16) (b : Bytes) (h : Header) (crc : Bool), u.flag rMUSLIN_CTRL p.val = false →
      exec (.longPacket t p vc dt wc b h crc) s = .next u) ∧
    (∀ (dt : BitVec 6) (wc : BitVec 16) (b : Bytes) (crc : Bool), u.flag rMUSLIN_CTRL p.val = true → (v.port p.val).discard = false →
      (exec (.longPacket t p vc dt wc b .uncorrectable crc) s =
        .next (chargeHeader 1 b.length (portCusts (portError p.val (rMUSLIN_PCNT_HDRERR p.val) 1 v) p.val)
          (setPort p.val (fun x => { x with discard := true }) (portError p.val (rMUSLIN_PCNT_HDRERR p.val) 1 v)))) ∧
      (cameraCust k p.val vc.val = none →
        exec (.longPacket t p vc dt wc b .ok crc) s = .next (k.addSat (rMUSLIN_PCNT_UNBOUND p.val) 1)) ∧
      (∀ c, cameraCust k p.val vc.val = some c →
        ((k.cust c).mDesc.dtAny = false → (k.cust c).mDesc.dt ≠ dt.toNat →
          exec (.longPacket t p vc dt wc b .ok crc) s = .next (k.addSat (rMUSLIN_PCNT_UNBOUND p.val) 1)) ∧
        (((k.cust c).mDesc.dtAny = true ∨ (k.cust c).mDesc.dt = dt.toNat) →
          (131072 < (k.port p.val).held + wc.toNat →
            exec (.longPacket t p vc dt wc b .ok crc) s =
              .next (chargeOverrun c wc.toNat (portError p.val (rMUSLIN_PCNT_OVERRUN p.val) 3 k))) ∧
          ((k.port p.val).held + wc.toNat ≤ 131072 → b.length = wc.toNat → 0 < b.length →
            exec (.longPacket t p vc dt wc b .ok true) s =
              .next (setPort p.val (fun x => { x with lines := x.lines ++ [.data c b false] }) k) ∧
            exec (.longPacket t p vc dt wc b .ok false) s =
              .next (setPort p.val (fun x => { x with lines := x.lines ++ [.data c b true] })
                (portError p.val (rMUSLIN_PCNT_CRCERR p.val) 0 k)))))) ∧
    (let q := fun m : Line => setPort p.val (fun x => { x with lines := x.lines ++ [m], burst := true }) u
     exec (.fsPacket t p vc) s = .next (drainFrames p.val ((q (.fs vc.val)).port p.val).lines.length (q (.fs vc.val))) ∧
     exec (.fePacket t p vc) s = .next (drainFrames p.val ((q (.fe vc.val)).port p.val).lines.length (q (.fe vc.val)))) ∧
    (bit (u.port p.val).cfg 2 = true →
      exec (.deskewSequence t p true) s = .next (setPort p.val (fun x => { x with aligned := true }) u) ∧
      exec (.deskewSequence t p false) s = .next (((setPort p.val (fun x => { x with aligned := false }) u).raise
        (rMUSLIN_PORTERR p.val) 6).raise rMUSLIN_INTSTAT p.val)) ∧
    (bit (u.port p.val).cfg 2 = false → ∀ b, exec (.deskewSequence t p b) s = .next u) ∧
    (let idle := setPort p.val (fun x => { x with burst := false, discard := false, cfg := u.rd (rMUSLIN_PORTCFG p.val) })
     (u.port p.val).short = none → exec (.hsBurstEnd t p) s = .next (idle u))

/-- Bytes, descriptors and doors (R120, R129–R133, R143, R151, R164–R168, R175, R523): while ingest is open a camera line gives the next
byte, before any door; INVAL holds the fetched descriptor, and adopts it at once with APPLYAT 0 and no stripe open; a doorbell in range
sets TAIL, one out of range sets ERR; descriptor and data reads that arrive join the door; clearing EN abandons it. -/
def Obligations.MuslinBytesAndDoors : Prop :=
  ∀ (t : Nat) (s : State), Acts [(0, 2)] t s →
    let u := s.at t
    let line := fun p => match (u.port p).lines with | .data .. :: _ => true | _ => false
    (∀ cam : Fin 4, u.power.ingest = false → exec (.byteAccepted t cam) s = .next u) ∧
    (∀ cam : Fin 4, u.power.ingest = true → line cam.val = true → exec (.byteAccepted t cam) s = .next (acceptCamera cam.val u)) ∧
    (∀ (cam : Fin 4) (d : Nat), u.power.ingest = true → (∀ p < 4, line p = false) → doorTurn u = some d →
      exec (.byteAccepted t cam) s = .next (acceptDoor d ((doorCust u d).getD 0) (u.onMuslin fun m =>
        { m with rrDoor := d, rrBytes := if d = m.rrDoor ∧ m.rrBytes < 65536 then m.rrBytes + 1 else 1 }))) ∧
    (u.power.st ≠ .lastBreath →
      (∀ (n : Fin 64) (at_ : Bool) (d : Desc) (v : State), fetchDesc n.val u = (some d, v) →
        let w := setCust n.val (fun x => { x with held := some d, applyAt := at_, frameSeen := false }) v
        (at_ = false → (v.cust n.val).openStripe = none → exec (.inval t n at_) s = .next (switchNow n.val w)) ∧
        (at_ = true ∨ (v.cust n.val).openStripe.isSome = true → exec (.inval t n at_) s = .next w)) ∧
      (∀ (n : Fin 64) (at_ : Bool) (v : State), fetchDesc n.val u = (none, v) → exec (.inval t n at_) s = .next v) ∧
      (∀ (d : Fin 64) (tail : BitVec 10),
        (ringSize u d.val ≤ tail.toNat →
          exec (.doorbell t d tail) s = .next ((u.raise (rMUSLIN_DOOR_CFG d.val) 9).raise rMUSLIN_INTSTAT 8)) ∧
        (tail.toNat < ringSize u d.val → (u.door d.val).en = true →
          exec (.doorbell t d tail) s = .next (setDoor d.val (fun x => { x with tail := tail.toNat }) u))) ∧
      (∀ (d : Fin 64) (w : Word), (u.door d.val).en = true → bit w 9 = false →
        exec (.doorDisable t d w) s = .next (abandonDoor d.val u))) ∧
    (∀ (d : Fin 64) (ok : Bool) (b : Bytes), fetchDue u d.val = true →
      (∀ v, doorRead d.val (headAddr u d.val) u = (true, v) → ok = true →
        exec (.descriptorFetchDone t d ok b) s = .next (completions d.val (setDoor d.val (fun x =>
          { x with head := ((v.door d.val).head + 1) % ringSize v d.val
                   descs := x.descs ++ [parseDoorDesc (v.door d.val).head (descInvalid v d.val b) b] }) v))) ∧
      (∀ v pass, doorRead d.val (headAddr u d.val) u = (pass, v) → ok = false →
        exec (.descriptorFetchDone t d ok b) s = .next (doorFetchError d.val v))) ∧
    (∀ (d : Fin 64) (b : Bytes) (e : DoorDesc) (c : Nat) (v : State),
      (u.door d.val).descs.find? (fun e => !e.ended && !e.invalid && decide (e.read < e.len)) = some e → doorCust u d.val = some c →
      doorRead d.val (e.addr + e.read) u = (true, v) → b.length ≤ min 512 (e.len - e.read) →
      exec (.doorDataReadDone t d true b) s = .next (setDoorDesc d.val e.index (fun x => { x with read := x.read + b.length })
        (setDoor d.val (fun x => { x with buf := x.buf ++ b }) v)))

/-! ## Linen -/

/-- Stripe records and anchors (R51, R87, R196–R201): the oldest closed stripe of a custody is sealed; a request for an ANCHOR outside
BLANK and the last breath merges into one that runs, waits behind an epoch sequence, or starts; a signed ANCHOR is written, and a failed
one sets ANCFAIL and is retried once. -/
def Obligations.LinenRecordsAndAnchors : Prop :=
  ∀ (t : Nat) (s : State), Acts [(0, 3)] t s →
    let u := s.at t
    (∀ (c : Fin 64) (z : ClosedStripe) (rest : List ClosedStripe), (u.cust c.val).sealing = z :: rest →
      exec (.stripeRecordWritten t c) s = .next (anchorAfter c.val z.stripe.jsn
        (sealStripe c.val z (setCust c.val (fun x => { x with sealing := rest }) u)))) ∧
    (u.fuse.life ≠ .blank → u.power.st ≠ .lastBreath →
      (u.linen.anchor.isSome = true ∨ u.linen.anchorNext.isSome = true → exec (.anchorNow t) s = .next (u.addSat rLINEN_ANCMERGE 1)) ∧
      (u.linen.anchor = none → u.linen.anchorNext = none → u.linen.epochSeq.isSome = true →
        exec (.anchorNow t) s = .next (u.onLinen fun l => { l with anchorNext := some { requested := true } })) ∧
      (u.linen.anchor = none → u.linen.anchorNext = none → u.linen.epochSeq = none →
        exec (.anchorNow t) s = .next (anchorStart { requested := true } u)) ∧
      (∀ v a, takeDelivered .anchorSign u = (some true, v) → u.linen.anchor = some a →
        exec (.anchorSigned t) s = .next (lbAnchorDone (anchorWrite a v))) ∧
      (∀ v a, takeDelivered .anchorSign u = (some false, v) → u.linen.anchor = some a → a.retried = false →
        exec (.anchorSigned t) s = .next (lbAnchorDone (anchorSnapshot { a with retried := true } (v.raise rLINEN_INTSTAT 4)))) ∧
      (∀ v a, takeDelivered .anchorSign u = (some false, v) → u.linen.anchor = some a → a.retried = true →
        exec (.anchorSigned t) s = .next (lbAnchorDone ((v.raise rLINEN_INTSTAT 4).onLinen fun l => { l with anchor := none }))))

/-- Epochs, TIMEMAP and key escrow (R189, R202–R205, R210–R213, R346–R348): requests for epochs count up to 65,535, above which one is
lost with its sticky bit; a sequence allots the inactive slot and asks for a key, fills the slot and asks for a signature, and ends with
the EPOCH record; a failed job is asked for once more. TIMEMAP records follow an open device chain, at the period that TMAPPER gives.
KEYWRAP starts when nothing stands against it, and ends with its record held for the custody. -/
def Obligations.LinenEpochsTimemapAndEscrow : Prop :=
  ∀ (t : Nat) (s : State), Acts [(0, 3)] t s →
    let u := s.at t
    (u.linen.epochQ.length < 65535 →
      exec (.epochNow t) s = .next (u.onLinen fun l => { l with epochQ := l.epochQ ++ [{ reason := .request }] })) ∧
    (65535 ≤ u.linen.epochQ.length →
      exec (.epochNow t) s = .next (setSticky 68 33 0 (u.onLinen fun l => { l with epochLost := satInc 16 l.epochLost }))) ∧
    ((u.chain devChain).seq = 0 → exec (.timemapNow t) s = .next u ∧ exec (.timemapPeriod t) s = .next u) ∧
    ((u.chain devChain).seq ≠ 0 →
      (let v := write devChain (.timemap (u.rd64 rFELT_UTCOFF_LO rFELT_UTCOFF_HI) (u.fld rFELT_FSTAT 10 8)
        (u.fld rFELT_LEAP 7 0) (u.rd rFELT_PPSERR).toNat u.felt.mono) u
       let w := v.onLinen fun l => { l with tmapEvt := v.felt.evt }
       let p := u.fld rLINEN_TMAPPER 15 0
       exec (.timemapNow t) s = .next w ∧
       (p ≠ 0 → u.linen.tmapEvt + p * 2 ^ 24 ≤ u.felt.evt → exec (.timemapPeriod t) s = .next w) ∧
       (p = 0 ∨ u.felt.evt < u.linen.tmapEvt + p * 2 ^ 24 → exec (.timemapPeriod t) s = .next u))) ∧
    (u.fuse.life ≠ .blank → u.power.st ≠ .lastBreath → u.linen.anchor = none → u.linen.epochSeq = none → u.linen.epochHold = false →
      ∀ r, nextEpoch u = some r → exec (.epochSequenceStart t) s = .next (pkIssue .epochKeygen
        ((allocSlot (inactiveSlot u) epochAttr (zeroizeSlot (inactiveSlot u) u)).onLinen fun l => { l with epochSeq := some { req := r } }))) ∧
    (∀ v e, takeDelivered .epochKeygen u = (some true, v) → u.linen.epochSeq = some e →
      let key := fit 32 (Config.pkKeygen 1 v.freeCtr)
      exec (.epochKeygenDone t) s = .next (pkIssue .epochSign
        ((fillSlot (handleOf v (inactiveSlot v)) key none v.fresh).2.onLinen fun l =>
          { l with epochSeq := some { e with step := .sign, retried := false, newPub := fit 64 (Config.pkPublic 1 key) } }))) ∧
    (∀ v e, takeDelivered .epochKeygen u = (some false, v) → u.linen.epochSeq = some e → e.retried = false →
      exec (.epochKeygenDone t) s = .next (pkIssue .epochKeygen (v.onLinen fun l => { l with epochSeq := some { e with retried := true } }))) ∧
    (∀ v e, takeDelivered .epochSign u = (some true, v) → u.linen.epochSeq = some e → exec (.epochSigned t) s = .next (epochWrite e v)) ∧
    (∀ v e, takeDelivered .epochSign u = (some false, v) → u.linen.epochSeq = some e → e.retried = true →
      exec (.epochSigned t) s = .next (epochAbandon v)) ∧
    (∀ (c : Fin 64) (kind alg : BitVec 2) (src : BitVec 16), u.power.st ≠ .lastBreath →
      (kwBusy u = true → exec (.keywrap t c kind alg src) s = .next (u.setFld rLINEN_KWSTAT 3 0 kwBUSY)) ∧
      (kwBusy u = false → kwCheck u c.val kind.toNat alg.toNat src.toNat = 0 →
        exec (.keywrap t c kind alg src) s = .next (pkIssue .kwKeygen ((u.setFld rLINEN_KWSTAT 3 0 0).onLinen fun l =>
          { l with kw := some { cust := c.val, kind := kind.toNat, alg := alg.toNat, source := src.toNat } }))) ∧
      (kwBusy u = false → kwCheck u c.val kind.toNat alg.toNat src.toNat ≠ 0 →
        exec (.keywrap t c kind alg src) s = .next (kwEnd (kwCheck u c.val kind.toNat alg.toNat src.toNat) u))) ∧
    (∀ v k key, takeDelivered .kwEcdh u = (some true, v) → u.linen.kw = some k →
      useKey v k.source (kwNeed k.kind) (some k.cust) = .key key →
      let w := v.onLinen fun l => { l with kwPending := upd l.kwPending k.cust (· ++ [kwBody v k key]) }
      exec (.keywrapDone t) s = .next (wrapUp (kwEnd 0 (if k.kind = 1 then
        loadBank k.cust (kwGen v k.cust k.kind) key (aKtype (w.slot (hSlot k.source)).attr) w else w))))

/-! ## Damask: keys and random numbers -/

/-- The key store's commands (R230–R237, R265, R270, R271): each leaves its word in CMD and runs while none is in progress; a command in
progress turns the next one away with BUSY (R237). ALLOC of an EMPTY slot makes it RESERVED with a new generation; ZEROIZE empties it
with a new generation; NARROW clears usage bits; GENERATE and IMPORT fill a RESERVED slot; KEYMOVE and RESTORE load a context. A command
on slots 0–15 completes when their copy in Felt is written (R233, R238). -/
def Obligations.KeyStoreCommands : Prop :=
  ∀ (t : Nat) (s : State), Acts [(0, 7)] t s →
    let cmd := fun op slot arg : Nat => (s.at t).wr rKEYSTORE_CMD (field 26 24 op ||| field 23 16 slot ||| field 15 0 arg)
    (ksBusy (s.at t) = true → ∀ (n : Fin 256) (h : BitVec 16),
      exec (.alloc t n) s = .next ((cmd 1 n.val 0).setFld rKEYSTORE_RESULT 31 16 ksBUSY) ∧
      exec (.zeroize t h) s = .next ((cmd 2 0 h.toNat).setFld rKEYSTORE_RESULT 31 16 ksBUSY)) ∧
    (ksBusy (s.at t) = false →
      (∀ n : Fin 256, let u := cmd 1 n.val 0
        (u.slot n.val).st = .empty → aKtype (u.rd rKEYSTORE_ATTRIN) < 9 →
        (let v := allocSlot n.val (u.rd rKEYSTORE_ATTRIN) u
         exec (.alloc t n) s = .next (ksDoneSlot n.val (handleOf v n.val) v))) ∧
      (∀ h : BitVec 16, let u := cmd 2 0 h.toNat
        let n := hSlot h.toNat
        let v := zeroizeSlot n u
        (current u h.toNat = true → exec (.zeroize t h) s = .next (ksDoneSlot n (handleOf v n) v)) ∧
        (current u h.toNat = false → exec (.zeroize t h) s = .next (ksDone ksSTALE h.toNat u))) ∧
      (∀ h : BitVec 16, let u := cmd 3 0 h.toNat
        let n := hSlot h.toNat
        current u h.toNat = true → (u.slot n).st = .loaded →
        exec (.narrow t h) s = .next (ksDoneSlot n h.toNat (putSlot n { u.slot n with
          attr := (u.slot n).attr &&& ~~~(field 7 0 (bits (u.rd rKEYSTORE_ATTRIN) 7 0)) } u))) ∧
      (∀ (n : Fin 256) (h : BitVec 16) (b : Bytes) (v : State), let u := cmd 4 n.val h.toNat
        current u h.toNat = true → (u.slot (hSlot h.toNat)).st = .reserved →
        drbgRequest (aLen (u.slot (hSlot h.toNat)).attr) u = (.served b, v) →
        exec (.generate t n h) s = .next (ksGenFill h.toNat b v)) ∧
      (∀ h : BitVec 16, let u := cmd 5 0 h.toNat
        current u h.toNat = true → (u.slot (hSlot h.toNat)).st = .reserved →
        ((u.fuse.life ≠ .fieldLife ∨ aUsage (u.slot (hSlot h.toNat)).attr = uPUB) →
          exec (.importKey t h) s = .next (ksGenFill h.toNat ((u.keys.impwin.map (fun w => le 4 w.toNat)).flatten) u)) ∧
        (u.fuse.life = .fieldLife → aUsage (u.slot (hSlot h.toNat)).attr ≠ uPUB →
          exec (.importKey t h) s = .next (ksDone ksLIFE h.toNat u))) ∧
      (∀ (n : Fin 256) (c : BitVec 16) (ty : Nat), let u := cmd 6 n.val c.toNat
        64 ≤ c.toNat → c.toNat ≤ 78 → (u.slot n.val).st = .loaded → hasUsage (u.slot n.val).attr uMOVE = true →
        ctxType (aKtype (u.slot n.val).attr) = some ty →
        exec (.keymove t n c) s = .next (ksDone ksOK (handleOf u n.val) (setGctx c.toNat
          { u.gctx c.toNat with ktype := aKtype (u.slot n.val).attr, key := (u.slot n.val).key } u))) ∧
      (∀ (n : Fin 256) (c : BitVec 16) (v : Nat) (b : Bool) (rest : List (Nat × Bytes)), let u := cmd 7 n.val c.toNat
        c.toNat < 64 → (u.slot n.val).st = .loaded → hasUsage (u.slot n.val).attr uMOVE = true →
        (aKtype (u.slot n.val).attr = 3 ∨ aKtype (u.slot n.val).attr = 4) →
        nth u.linen.kcv c.toNat = (v, kcvOf (u.slot n.val).key) :: rest → restoreBank u c.toNat v = some b →
        (u.bank c.toNat b).ver ≠ some v →
        exec (.restore t n c) s = .next (ksDone ksOK (handleOf u n.val)
          (setBank c.toNat b { ver := some v, key := (u.slot n.val).key, ktype := aKtype (u.slot n.val).attr } u))) ∧
      (∀ n : Fin 16, (s.at t).keys.landing.contains n.val = true →
        exec (.feltWriteThroughDone t n) s = .next { s.at t with keys := { (s.at t).keys with
          cell := upd (s.at t).keys.cell n.val (fun _ => (s.at t).slot n.val)
          landing := (s.at t).keys.landing.filter (· ≠ n.val) } })) ∧
    (∀ (n : Fin 16) (code h : Nat), (s.at t).keys.landing.contains n.val = true → (s.at t).keys.doneAt = some (n.val, code, h) →
      exec (.feltWriteThroughDone t n) s = .next (ksDone code h { s.at t with keys := { (s.at t).keys with
        cell := upd (s.at t).keys.cell n.val (fun _ => (s.at t).slot n.val)
        landing := (s.at t).keys.landing.filter (· ≠ n.val) } }))

/-- The entropy source and the DRBG (R288–R294): a third failure within a second of EVT parks the source with its sticky bit, an earlier
one reruns the start-up test; a test that passes serves what waited; a request is served, waits, or is refused in ERROR, and OUT then
reads 0 with UNDERRUN; the oldest wait that expires fails. -/
def Obligations.RandomNumbers : Prop :=
  ∀ (t : Nat) (s : State), Acts [(0, 8)] t s →
    let u := s.at t
    let recent := u.rng.failSecs.filter (fun e => decide (u.felt.evt < e + 2 ^ 24)) ++ [u.felt.evt]
    let v := { u.addSat rRNG_HTFAIL 1 with rng := { u.rng with failSecs := recent } }
    (3 ≤ recent.length → exec (.healthTestFailure t) s = .next (setSticky 70 38 0 { v with rng := { v.rng with es := .parked } })) ∧
    (recent.length < 3 → u.rng.es ≠ .parked → exec (.healthTestFailure t) s = .next { v with rng := { v.rng with es := .retest } }) ∧
    ((u.rng.es = .startup ∨ u.rng.es = .retest) →
      exec (.startUpTestDone t) s = .next (serveWaits u.rng.waits { u with rng := { u.rng with es := .ok, waits := [] } })) ∧
    (u.rng.drbg ≠ .error → reseedDue u = false → ∀ n : Fin 4096,
      exec (.drbgRequest t n) s = .next { u with
        rng := { u.rng with sinceReseed := u.rng.sinceReseed + 1, served := some (drbgBytes u.freeCtr (n.val + 1)) }
        freeCtr := u.freeCtr + 1 } ∧
      exec (.outRead t) s = .next ({ u with
        rng := { u.rng with sinceReseed := u.rng.sinceReseed + 1 }, freeCtr := u.freeCtr + 1 }.wr rRNG_OUT
          (wordOf (drbgBytes u.freeCtr 4)))) ∧
    (u.rng.drbg = .error → ∀ n : Fin 4096,
      exec (.drbgRequest t n) s = .next { u with rng := { u.rng with served := none } } ∧
      exec (.outRead t) s = .next ((u.wr rRNG_OUT 0#32).raise rRNG_STAT 8)) ∧
    (∀ w ws, u.rng.waits = w :: ws → w.user = .out →
      exec (.drbgWaitExpiry t) s = .next (({ u with rng := { u.rng with waits := ws } }.wr rRNG_OUT 0#32).raise rRNG_STAT 8)) ∧
    (∀ w ws k, u.rng.waits = w :: ws → w.user = .generate → u.keys.waiting = some k →
      exec (.drbgWaitExpiry t) s = .next (ksDone ksENTROPY k.arg { u with rng := { u.rng with waits := ws } }))

/-! ## Damask: digest, cipher and public-key jobs -/

/-- Jobs of the digest and cipher units (R246, R250–R254, R263–R265, R296–R303): a submitted job queues behind the others or sets QERR at
16; one whose descriptor cannot be read ends BUS; a lane's job completes, or is aborted; a queued job that is aborted leaves the queue
with STATUS ABORTED; a lane that fails its check parks with its sticky bit; the self-test tests every lane. -/
def Obligations.DigestAndCipherJobs : Prop :=
  ∀ (t : Nat) (s : State) (a : Word) (tie : Bool),
    let u := s.at t
    (∀ q : UnitId, ∀ submit abort start : Instr, (q = .digest ∧ submit = .digestSubmit t a ∧ abort = .digestAbort t a tie ∧
          start = .digestJobStart t ∨ q = .cipher ∧ submit = .cipherSubmit t a ∧ abort = .cipherAbort t a tie ∧
          start = .cipherJobStart t) →
      Acts [(0, match q with | .digest => 4 | .cipher => 5)] t s →
      (u.power.st ≠ .lastBreath → (u.unit q).queue.length < 16 →
        exec submit s = .next (u.setUnit q { u.unit q with queue := (u.unit q).queue ++ [a.toNat] })) ∧
      (u.power.st ≠ .lastBreath → 16 ≤ (u.unit q).queue.length → exec submit s = .next (u.raise (rUIntstat q) 2)) ∧
      ((u.unit q).running.find? (fun j => j.addr == a.toNat) = none → (u.unit q).queue.contains a.toNat = true →
        exec abort s = .next (wrapUp
          (let v := (u.setUnit q { u.unit q with queue := (u.unit q).queue.erase a.toNat }).store (a.toNat + 3) [BitVec.ofNat 8 jABORTED]
           v.setUnit q { v.unit q with abortStat := 2 }))) ∧
      ((u.unit q).running.find? (fun j => j.addr == a.toNat) = none → (u.unit q).queue.contains a.toNat = false →
        exec abort s = .next (wrapUp (u.setUnit q { u.unit q with abortStat := 3 }))) ∧
      (∀ addr rest v, (u.unit q).queue = addr :: rest → jobAccess (uMaster q) none false addr 32 u = (false, v) →
        exec start s = .next (endJob q addr jBUS (v.setUnit q { v.unit q with queue := rest }))) ∧
      (∀ l : Fin 8, exec (.laneMismatch t q l) s = .next (moveJob q l.val (parkLane q l.val u)))) ∧
    (Acts [(0, 4)] t s → ∀ addr rest l v, u.digest.queue = addr :: rest → jobAccess 0x0D none false addr 32 u = (true, v) →
      let d := v.load addr 32
      addr % 32 = 0 → digestDescOk v d = true → dfld d 0 1 = 1 → dfld d 1 1 < 3 → pickLane .digest false v = some l →
      exec (.digestJobStart t) s = .next (v.setUnit .digest { v.digest with
        queue := rest, running := v.digest.running ++ [{ addr := addr, lane := l, desc := d }] })) ∧
    (Acts [(0, 5)] t s → ∀ addr rest l v k du, u.cipher.queue = addr :: rest → jobAccess 0x0E none false addr 32 u = (true, v) →
      let d := v.load addr 32
      addr % 32 = 0 → cipherDescOk d (ofLe (v.load (dfld d 0x1C 4 + 0x0C) 4)) = true → pickLane .cipher false v = some l →
      cipherKey v d = (.key k, du) →
      exec (.cipherJobStart t) s = .next (v.setUnit .cipher { v.cipher with
        queue := rest, running := v.cipher.running ++ [{ addr := addr, lane := l, desc := d, key := k, du := du }] })) ∧
    (Acts [(0, 4)] t s → ∀ (l : Fin 8) (j : Job), u.digest.running.find? (fun j => j.lane == l.val) = some j →
      exec (.digestJobDone t l false) s = .next (wrapUp (digestDone j u))) ∧
    (Acts [(0, 5)] t s → ∀ (l : Fin 8) (j : Job), u.cipher.running.find? (fun j => j.lane == l.val) = some j →
      exec (.cipherJobDone t l false) s = .next (wrapUp (cipherDone j u))) ∧
    (Acts [] t s → ∀ (princ : BitVec 4) (env : ProcEnv), exec (.selftest t princ env) s =
      .next (wrapUp (procRan (okey 0x5021 0) princ.toNat aOK (selfTest env.badDigest env.badCipher u))))

/-- Contexts and stripes in the cipher unit (R263–R265, R272–R279): COMMIT loads a general context from CTXWIN, sets CTXDENY for a
context that is not general, and clears CTXWIN either way; a stripe that waits is encrypted. -/
def Obligations.CipherContexts : Prop :=
  ∀ (t : Nat) (s : State), Acts [(0, 5)] t s →
    let u := s.at t
    (∀ (ctx : BitVec 7) (ty : BitVec 3) (du : Bool),
      let w := u.wr rCIPHER_CTXSEL (field 6 0 ctx.toNat ||| field 12 10 ty.toNat ||| field 13 13 du.toNat)
      ((ctx.toNat < 64 ∨ 78 < ctx.toNat) → exec (.ctxselCommit t ctx ty du) s =
        .next ((w.raise rCIPHER_INTSTAT 3).onCtx fun c => { c with ctxwin := List.replicate 16 0#32 })) ∧
      (64 ≤ ctx.toNat → ctx.toNat ≤ 78 → 1 ≤ ty.toNat → ty.toNat ≤ 4 → exec (.ctxselCommit t ctx ty du) s =
        .next ((setGctx ctx.toNat
          { ktype := if ty.toNat = 1 then 3 else if ty.toNat = 2 then 4 else if ty.toNat = 3 then 1 else 2
            key := ((u.ctx.ctxwin.map (fun w => le 4 w.toNat)).flatten).take (ctxKeyLen ty.toNat)
            du512 := du } w).onCtx fun c => { c with ctxwin := List.replicate 16 0#32 }))) ∧
    (Acts [(0, 5), (0, 9)] t s → ∀ (jsn : Nat) (a : Word),
      exec (.stripeEncrypt t jsn none) s = .next (stripeEncrypt jsn u) ∧
      exec (.stripeEncrypt t jsn (some a)) s = .next (stripeEncrypt jsn (setSticky 5 11 a.toNat (u.addSat rACC_STRUNC 1))))

/-- Public-key jobs (R313, R322–R344, R350–R353): a firmware job queues, or sets QERR at 8; Linen's job starts before it; a job that ends
is checked; a Linen job that waits preempts a firmware job where CTRL says so; a running job that is aborted is stopped, wiped and
ABORTED; an idle unit gates itself and wipes a RAM that has an owner; a wipe that ends leaves no owner. -/
def Obligations.PublicKeyJobs : Prop :=
  ∀ (t : Nat) (s : State), Acts [(0, 6)] t s →
    let u := s.at t
    (∀ a : Word, u.power.st ≠ .lastBreath →
      (u.pk.queue.length < 8 → exec (.pkSubmit t a) s = .next (u.onPk fun p => { p with queue := p.queue ++ [a.toNat] })) ∧
      (8 ≤ u.pk.queue.length → exec (.pkSubmit t a) s = .next (u.raise rPK_INTSTAT 2))) ∧
    (u.pk.running = none → u.pk.wiping = false →
      (∀ j rest, u.pk.linenQ = j :: rest →
        let v := u.onPk fun p => { p with linenQ := rest }
        (pkGated u = false → exec (.pkJobStart t) s = .next (pkRun (.linen j (linenOwner j v)) v))) ∧
      (∀ a rest, u.pk.linenQ = [] → u.pk.queue = a :: rest → u.power.st ≠ .lastBreath →
        exec (.pkJobStart t) s = .next (pkStartFirmware a rest u))) ∧
    (∀ c j o, (pkWipeDone u).pk.running = some (.linen j o) →
      exec (.pkJobDone t c) s = .next (wrapUp (kwKeygenDone (pkLinenDone j o c (pkWipeDone u))))) ∧
    (∀ c a d k, (pkWipeDone u).pk.running = some (.firmware a d k) →
      exec (.pkJobDone t c) s = .next (wrapUp (kwKeygenDone (pkFirmwareDone a d k c (pkWipeDone u))))) ∧
    (∀ a d k, u.pk.running = some (.firmware a d k) → u.flag rPK_CTRL 0 = true → u.pk.linenQ ≠ [] →
      exec (.preempt t) s = .next (pkStop (((u.addSat rPK_PREEMPTCNT 1).raise rPK_INTSTAT 3).onPk fun p => { p with queue := a :: p.queue }))) ∧
    (∀ (a : Word) (d k : Bytes), u.pk.running = some (.firmware a.toNat d k) →
      exec (.pkAbort t a false) s = .next (wrapUp (((pkStop u).store (a.toNat + 3) [BitVec.ofNat 8 jABORTED]).onPk fun p =>
        { p with abortStat := 2 })) ∧
      exec (.pkAbort t a true) s = .next (wrapUp ((pkFirmwareDone a.toNat d k .agree (pkWipeDone u)).onPk fun p =>
        { p with abortStat := 1 }))) ∧
    (u.flag rPK_CTRL 1 = true → u.pk.running = none → u.pk.linenQ = [] → u.pk.queue = [] → u.pk.awake = true →
      exec (.pkGate t) s = .next ((if u.pk.owner.isSome then pkWipe u else u).onPk fun p => { p with awake := false })) ∧
    (u.pk.wiping = true → exec (.pkWipeDone t) s = .next (u.onPk fun p => { p with wiping := false, owner := none }))

/-! ## Twill -/

/-- NAND operations of a channel (R373–R380, R390, R395–R409): the operation of a LUN that ends leaves the channel and has its effect:
a passed page is mapped, a failed one abandoned with its block bad, a passed erase counted, a read served; one is issued to a LUN that has
none outstanding; an overdue or timed-out operation sets its flag; RB_N stuck low parks the channel; OFFDATA sets a read offset; a probe
looks at the next read level. -/
def Obligations.NandChannelOperations : Prop :=
  ∀ (t : Nat) (n : Fin 8) (s : State), Acts [(0, 9), (1, n.val)] t s →
    let u := s.at t
    (∀ (j : Fin 16) (i : Nat), (u.chan n.val).ops.findIdx? (fun o => o.issued && decide (o.lun = j.val)) = some i →
      let o := nth (u.chan n.val).ops i
      let v := setChan n.val (fun c => { c with ops := c.ops.eraseIdx i }) u
      (∀ rb, o.kind = .program → exec (.nandOperationDone t n j (.pass rb) none) s = .next (wrapUp (pagePassed n.val o rb v))) ∧
      (o.kind = .program → exec (.nandOperationDone t n j .fail none) s =
        .next (wrapUp (abandonPage o.seg o.page (growBad n.val o (segBlock v o.seg n.val) 1 v)))) ∧
      (∀ rb, o.kind = .erase → exec (.nandOperationDone t n j (.pass rb) none) s = .next (wrapUp
        ((setLun n.val j.val (fun l => { l with blockReads := serase l.blockReads o.page }) v).add64
          (rTWILL_ERASES_LO n.val) (rTWILL_ERASES_HI n.val) 1))) ∧
      (o.kind = .erase → exec (.nandOperationDone t n j .fail none) s = .next (wrapUp (eraseFail n.val o v))) ∧
      (∀ hard retry soft rebuilt, o.kind = .read → exec (.nandOperationDone t n j (.read hard retry soft rebuilt) none) s =
        .next (wrapUp (readServes o (rungOf v o hard retry soft rebuilt)
          (readEffects n.val o hard retry soft (rungOf v o hard retry soft rebuilt) v))))) ∧
    (let v := setChan n.val (fun c => { c with rbLow := false }) u
     ∀ i, chanUp v n.val = true → v.power.st ≠ .lastBreath → (v.chan n.val).draining = false →
      (v.chan n.val).ops.findIdx? (fun o => !o.issued && !(v.chan n.val).ops.any (fun q => q.issued && decide (q.lun = o.lun))) = some i →
      exec (.nandOperationIssue t n true) s = .next (setChan n.val (fun c => { c with ops := upd c.ops i (fun o => { o with issued := true }) })
        (setLun n.val (nth (v.chan n.val).ops i).lun (fun l => { l with sent := l.offsets }) v))) ∧
    (∀ j : Fin 16, (u.chan n.val).ops.any (fun o => o.issued && decide (o.lun = j.val)) = true →
      let v := (setChan n.val (fun c => { c with ops := c.ops.map (fun o =>
        if o.issued && decide (o.lun = j.val) then { o with overdue := true } else o) }) u).raise (rTWILL_CHINTSTAT n.val) 4
      exec (.operationOverdue t n j) s =
        .next (stopSegments ((segsOn v n.val (fun x => decide (x = j.val))).filter (fun k => decide ((v.seg k).st = .openSeg))) v)) ∧
    (∀ (j : Fin 16) (o : NandOp), (u.chan n.val).ops.find? (fun o => o.issued && decide (o.lun = j.val)) = some o →
      exec (.operationTimeout t n j true) s = .next u ∧
      exec (.operationTimeout t n j false) s = .next (lastErr n.val 4 o.kind.op j.val
        (parkTarget n.val (j.val / 4) ((u.addSat (rTWILL_TIMEOUTS n.val) 1).raise (rTWILL_CHINTSTAT n.val) 1)))) ∧
    ((u.chan n.val).st ≠ .absent → (u.chan n.val).st ≠ .parked → (u.chan n.val).ops.any (fun o => o.issued) = false →
      exec (.rbstuckExpiry t n) s = .next (parkChannel n.val u)) ∧
    (∀ v : BitVec 8, 7 ≤ u.fld (rTWILL_OFFIDX n.val) 2 0 →
      exec (.offdataWrite t n v) s = .next (((u.setFld (rTWILL_OFFDATA n.val) 7 0 v.toNat).setFld (rTWILL_OFFIDX n.val) 7 4
        (offNext u n.val).1).setFld (rTWILL_OFFIDX n.val) 2 0 (offNext u n.val).2)) ∧
    (∀ v : BitVec 8, u.fld (rTWILL_OFFIDX n.val) 2 0 ≤ 6 →
      let w := setOffset n.val (u.fld (rTWILL_OFFIDX n.val) 7 4) (u.fld (rTWILL_OFFIDX n.val) 2 0) (signed 8 v.toNat) u
      exec (.offdataWrite t n v) s = .next (((w.setFld (rTWILL_OFFDATA n.val) 7 0 v.toNat).setFld (rTWILL_OFFIDX n.val) 7 4
        (offNext w n.val).1).setFld (rTWILL_OFFIDX n.val) 2 0 (offNext w n.val).2)) ∧
    (∀ (j : Fin 16) (mism : List Nat), chanUp u n.val = true → u.power.st ≠ .lastBreath → (u.lun n.val j.val).st = .active →
      calMay u 0 = true → 5 * (nth (u.chan n.val).targets (j.val / 4)).geom.tr + 20 ≤ calRem u →
      exec (.probe t n j false mism) s = .next (setLun n.val j.val (fun l =>
        { l with probeLevel := ((u.lun n.val j.val).probeLevel + 1) % 7 }) u))

/-- Superpages, reads and media tables (R367, R382, R383, R388, R389, R400, R410, R424, R460–R462): a full superpage is formed and
placed, one too old takes the ledger unit first; MEDIA_INIT, HOLD_RELEASE and NS_PURGE run to their end or leave with their code;
PAIRDATA is ignored while a channel is READY (R388), else it stores at PAIRIDX, which moves on; RRDATA stores and moves on; RDABORT
answers DONE, ABORTED or UNKNOWN; a failing encoder lane parks. -/
def Obligations.TwillPagesAndTables : Prop :=
  ∀ (t : Nat) (s : State), Acts [(0, 9)] t s →
    let u := s.at t
    (∀ (n : Fin 17) (f : Superpage), (u.nspace n.val).filling = some f → u.power.st ≠ .lastBreath →
      (slotsPer u f.seg ≤ f.slots.length → exec (.superpageProgram t n) s = .next (place n.val (formFilling n.val f u))) ∧
      (f.slots.length < slotsPer u f.seg → exec (.superpageProgram t n) s = .next u) ∧
      (f.firstFill + u.fld rTWILL_FILLCFG 15 0 * 1000000 ≤ u.now → exec (.fillmaxExpiry t n) s =
        .next (place n.val (formFilling n.val (addLedger n.val f u).1 (addLedger n.val f u).2)))) ∧
    (∀ k x, u.power.st ≠ .lastBreath → u.media.superpages.find? (fun x => decide (x.seg = k) && !x.mapped && !x.abandoned &&
        pagesPassed u x && !pageSafe u k (pagesPerBlock u) x.idx &&
        decide (x.formedAt + u.fld rTWILL_FILLCFG 31 16 * 1000000 ≤ u.now)) = some x →
      exec (.pairmaxExpiry t k) s = .next (padTo (segNs u k) k (pagesPerBlock u) (closerOf u x.idx) u)) ∧
    (∀ (princ : BitVec 4) (env : ProcEnv) (r : ProcRes) (v : State), mediaInit env.bad u = (r, v) →
      (r = .state → exec (.mediaInit t princ env) s = .next (wrapUp u)) ∧
      (r ≠ .state → exec (.mediaInit t princ env) s = .next (wrapUp (procRan (okey 0x4020 0) princ.toNat r.abort v)))) ∧
    (∀ (princ : BitVec 4) (n : BitVec 8) (lo hi : BitVec 64), n.toNat < 16 → nsClass u n.toNat ≠ 2 →
      (lo.toNat ≤ hi.toNat → exec (.holdRelease t princ n lo hi) s = .next (wrapUp (procRan (okey 0x4050 0) princ.toNat aOK
        (freeDead (logAppend (.release n.toNat lo.toNat hi.toNat)
          (setNs n.toNat (fun x => { x with released := x.released ++ [(lo.toNat, hi.toNat)] }) u)))))) ∧
      (hi.toNat < lo.toNat → exec (.holdRelease t princ n lo hi) s = .next (wrapUp u)) ∧
      (let v := setNs n.toNat (fun x => { x with low := x.wp }) u
       exec (.nsPurge t princ n) s = .next (wrapUp (procRan (okey 0x4051 0) princ.toNat aOK
         (freeDead (logAppend (.reclaim n.toNat (v.nspace n.toNat).low) v)))))) ∧
    (∀ v : BitVec 16,
      (anyReady u = true → exec (.pairdataWrite t v) s = .next u) ∧
      (anyReady u = false → exec (.pairdataWrite t v) s = .next
        (((u.onMedia fun m =>
            { m with pairTable := sinsert (serase m.pairTable (u.fld rTWILL_PAIRIDX 11 0)) (u.fld rTWILL_PAIRIDX 11 0) v.toNat }).setFld rTWILL_PAIRDATA 15 0 v.toNat).setFld rTWILL_PAIRIDX 11 0
          ((u.fld rTWILL_PAIRIDX 11 0 + 1) % 4096)))) ∧
    (∀ w : Word, let i := u.fld rTWILL_RRIDX 9 0 / 4 * 4
      exec (.rrdataWrite t w) s = .next (((u.onMedia fun m => { m with rrTable := rrStore i (le 4 w.toNat) m.rrTable }).wr
        rTWILL_RRDATA w).setFld rTWILL_RRIDX 9 0 ((i + 4) % 1024))) ∧
    (∀ id : BitVec 16,
      (u.media.jobs.find? (fun j => decide (j.id = id.toNat) && !j.aborted) = none → ∀ tie,
        exec (.rdabort t id tie) s = .next (u.onMedia fun m => { m with rdAbortStat := 3 })) ∧
      (∀ j, u.media.jobs.find? (fun j => decide (j.id = id.toNat) && !j.aborted) = some j →
        exec (.rdabort t id true) s = .next ((setJob id.toNat (fun j => { j with done := true }) u).onMedia fun m =>
          { m with rdAbortStat := 1 }))) ∧
    (∀ lane : Fin 4, u.media.ldpcParked.contains (16 + lane.val) = false →
      (u.media.ldpcParked.filter (fun l => decide (l < 16) == false)).length < 3 →
      exec (.encoderLaneFailure t lane) s = .next (setSticky 103 40 (16 + lane.val)
        ((u.onMedia fun m => { m with ldpcParked := m.ldpcParked ++ [16 + lane.val] }).raise rTWILL_INTSTAT 3)))

/-- Checkpoints, patrols, the field sensor and segments (R424, R434, R442–R450, R465–R494): a checkpoint asked for while one runs is
merged and counted, else one starts, and one that is due starts by itself; one whose pages are all written takes the other slot; TIMECK
once in a second of EVT; the scrubs at their periods; the field sensor's flag; erased segments become ALLOCATED; an ended read job leaves;
the tables of a first ready channel start placing. -/
def Obligations.TwillJournalAndSegments : Prop :=
  ∀ (t : Nat) (s : State), Acts [(0, 9)] t s →
    let u := s.at t
    (u.power.st ≠ .lastBreath →
      (∀ l, u.jrn.ckRunning = some l → exec (.checkpointNow t) s = .next (u.onJrn fun j => { j with ckMerge := satInc 16 j.ckMerge })) ∧
      (u.jrn.ckRunning = none → exec (.checkpointNow t) s = .next (ckStart u) ∧
        ((u.jrn.logFree < logLow u ∨ u.fld rTWILL_JCTRL 23 16 * logSize < u.jrn.logUsed * 100) →
          exec (.checkpointStart t) s = .next (ckStart u))) ∧
      (∀ l, u.jrn.ckRunning = some l → u.jrn.ckPages = 0 →
        let b := !u.jrn.ckSlot
        let v := logAppend (.ckpt b.toNat l)
          (u.store (if b then 0x307D4000 else 0x307C0000) (u.jrn.ckImage ++ le 4 (crc32c u.jrn.ckImage).toNat))
        let w := v.onJrn (fun j => { j with ckRunning := none, ckSlot := b, ckLsn := l, ckImage := [], log := dropLog l j.log })
        exec (.checkpointDone t) s = .next (wrapUp (logRetry (logLevels ((w.addSat rTWILL_CKCNT 1).raise rTWILL_JINTSTAT 0))))) ∧
      (u.jrn.timeckEvt / 2 ^ 24 < u.felt.evt / 2 ^ 24 → exec (.timeck t) s = .next (timeckNow u)) ∧
      (u.felt.evt / 2 ^ 24 ≤ u.jrn.timeckEvt / 2 ^ 24 → exec (.timeck t) s = .next u)) ∧
    (∀ n, u.jrn.scrubEvt + u.fld rTWILL_JCTRL 31 24 * 86400 * 2 ^ 24 ≤ u.felt.evt →
      exec (.mramScrub t n) s = .next (mramCorr n (u.onJrn fun j => { j with scrubEvt := u.felt.evt }))) ∧
    (u.power.st ≠ .lastBreath → gcWindow u = true → u.media.patrolEvt + u.fld rTWILL_SCRUBCFG 31 24 * 3600 * 2 ^ 24 ≤ u.felt.evt →
      let v := u.onMedia fun m => { m with patrolEvt := u.felt.evt }
      exec (.scrubPatrol t) s = .next (((v.jrn.segs.filter
        (fun e => decide (e.2.filled ≠ 0 ∧ (e.2.st = .closed ∨ e.2.st = .openSeg)))).map Prod.fst).foldl
          (fun s k => queueRead k 0 .scrub (if (s.seg k).openEvt + s.fld rTWILL_SCRUBCFG 15 0 * 86400 * 2 ^ 24 < s.felt.evt
            then markRefresh k s else s)) v)) ∧
    exec (.fieldSensorAssert t) s = .next ((u.onJrn fun j => { j with field := true }).raise rTWILL_JINTSTAT 5) ∧
    (u.jrn.field = true → ∀ n, exec (.fieldSensorDeassert t n false) s =
      .next (ckRequest (mramCorr n (u.onJrn fun j => { j with field := false })))) ∧
    (u.media.geo.isSome = true → u.jrn.tablesRead = true → u.power.st ≠ .lastBreath → widthOk u = true →
      ∀ (n : Fin 17) (k : Nat), (u.nspace n.val).ahead = none → nsQuota u n.val = 0 → nsClass u n.val ≠ 0 →
        u.fld rTWILL_GCCFG2 31 16 ≤ freeSegs u → poolOk u n.val = true → chooseSeg u = some k →
        exec (.segmentAllocation t n false) s = .next (allocate n.val k false u)) ∧
    (∀ k, (u.seg k).st = .allocating → u.media.ch.any (fun c => c.ops.any (fun o => decide (o.kind = .erase ∧ o.seg = k))) = false →
      minWidth u ≤ (u.seg k).members.length →
      exec (.segmentEraseDone t k) s = .next (logSeg k (setSeg k (fun g => { g with st := .allocated }) u))) ∧
    (u.power.st ≠ .lastBreath → u.jrn.tablesRead = true → (gcMay u = true ∨ gcUrgent u = true) → u.jrn.gc.reading = [] →
      u.jrn.gc.got = [] →
      ((markCold u).jrn.gc.src = none → gcSelect (markCold u) = none →
        exec (.gcCopy t) s = .next ((markCold u).onJrn fun j => { j with gc := { j.gc with st := .idle } })) ∧
      (∀ k, (markCold u).jrn.gc.src = some k → ((markCold u).seg k).gcsrc = true →
        let v := (markCold u).onJrn fun j => { j with gc := { j.gc with src := some k, st := if gcMay (markCold u) then .copy else .urgent } }
        (segValid v k = 0 → exec (.gcCopy t) s = .next (freeSeg k v)) ∧
        (∀ dst w, segValid v k ≠ 0 → gcDest (segNs v k) v = (some dst, w) →
          exec (.gcCopy t) s = .next (gcBatch (segNs w k) k dst w)))) ∧
    (∀ id, exec (.readJobEnd t id) s = .next (freeDead (u.onMedia fun m => { m with jobs := m.jobs.filter (fun j => decide (j.id ≠ id)) }))) ∧
    (u.jrn.replaying = false → anyReady u = true → exec (.tablePagesRead t) s =
      .next ((List.range 17).foldl (fun v n => place n v) (u.onJrn fun j => { j with tablesRead := true })))

/-! ## Power and reset -/

/-- Power states (R498–R507, R512–R518, R537–R543, R969, R1022–R1025, R1119–R1122): the fall of PFAIL_N, IGN_IN and PARK begin the last
breath, or park a device that never resumed; its steps follow; a wake source enabled in WAKECFG raises PMIC_EN 100 ms after parking; a
device held by WARMPOR wakes into a full reset; a supply monitor's fall asserts POR and with VDD_IO18 gone leads to VAULT; recording
resumes when it may. -/
def Obligations.PowerStates : Prop :=
  ∀ (t : Nat) (s : State),
    let u := s.at t
    let pf := u.onPower fun p => { p with pfailN := false }
    let ig := u.onPower fun p => { p with ignIn := false }
    let parked := fun v : State => enterParked (parkNand (v.onFelt fun f => { f with lbstage := 0 }))
    (u.power.st = .run → u.live = true →
      (u.power.resumed = true → exec (.pfailNFall t) s = .next (lastBreath pf) ∧
        (u.flag rTWEED_WAKECFG 8 = true → exec (.ignitionPark t) s = .next (lastBreath ig)) ∧
        (Acts [] t s → exec (.park t) s = .next (lastBreath u))) ∧
      (u.power.resumed = false → exec (.pfailNFall t) s = .next (parked pf) ∧
        (u.flag rTWEED_WAKECFG 8 = true → exec (.ignitionPark t) s = .next (parked ig)) ∧
        (Acts [] t s → exec (.park t) s = .next (parked u)))) ∧
    (u.flag rTWEED_WAKECFG 8 = false → exec (.ignitionPark t) s = .next ig) ∧
    (u.power.st = .lastBreath → u.power.lbDone.contains 3 = false →
      exec (.lastBreathFlush t) s = .next (lbAnchor (lbStep 3 (timeckNow (lbStep 2 (sealAll u)))))) ∧
    (u.power.st = .lastBreath → u.power.lbDone.contains 5 = false → exec (.nandPark t) s = .next (lbFinish (lbStep 5 (parkNand u)))) ∧
    (mayResume u = true → (Acts [] t s → exec (.openRecording t) s = .next (resume u)) ∧ exec (.recordingResume t) s = .next (resume u)) ∧
    (mayResume u = false → exec (.recordingResume t) s = .next u) ∧
    (u.power.st = .parked → u.power.pmicEn = false →
      (u.power.parkedAt + 100000000 ≤ u.now → ∀ src : Fin 4, u.flag rTWEED_WAKECFG src.val = true → src ≠ 0 →
        (src = 3 → u.flag rFELT_FINTSTAT 3 = true) →
        (u.power.warmHold = false → exec (.wake t src) s = .next (u.onPower fun p => { p with pmicEn := true })) ∧
        (u.power.warmHold = true → exec (.wake t src) s = .next ((u.wr rTWEED_RSTCAUSE 0#32).onPower fun p =>
          { p with pmicEn := true, warmHold := false, warmPor := true, rst := some 1 }))) ∧
      (u.power.parkedAt + 10000000 ≤ u.now → exec (.warmporHold t) s = .next (u.onPower fun p => { p with warmHold := true }))) ∧
    (let v := keysPowerLoss (discPowerLoss (flashTorn u))
     u.power.released = true →
      (v.felt.vbat = true → exec (.supplyMonitorFall t true) s = .next ((v.onPower fun p =>
        { p with st := .vault, rails := false, io18 := false, released := false, rst := some 1, ingest := false, warmHold := false
                 pmicEn := false }).onFelt fun f => { f with onVbat := true })) ∧
      (u.power.st ≠ .lastBreath → exec (.supplyMonitorFall t false) s = .next (v.onPower fun p =>
        { p with st := u.power.st, rails := false, released := false, rst := some 1, ingest := false, warmHold := false }))) ∧
    (u.power.st = .off ∨ u.power.st = .vault → exec (.powerUpPmicEn t) s = .next (u.onPower fun p => { p with io18 := true, pmicEn := true })) ∧
    (∀ b, let v := tripOff 8 (u.onFelt fun f => { f with vbat := true, cellOut := f.cellOut && !b })
      (u.power.st = .off → exec (.vbatApplied t b) s =
        .next ((v.onFelt fun f => { f with onVbat := !u.power.io18 }).onPower fun p => { p with st := .vault })) ∧
      (u.power.st ≠ .off → exec (.vbatApplied t b) s = .next v)) ∧
    (u.power.io18 = false → exec (.feltSupplyLoss t) s = .next (feltLose (u.onPower fun p => { p with st := .off }))) ∧
    (u.power.released = true → u.power.pfailN = false → u.power.releasedAt + 1000000000 ≤ u.now →
      exec (.pfailStuckCheck t) s = .next (setSticky 7 8 0 u)) ∧
    (u.power.st = .parked → u.live = true → u.power.configured = true → exec (.ingestOpenAfterPfail t) s =
      .next (recordingResume (u.onPower fun p => { p with pfailN := true, st := .run })))

/-- Resets (R525–R536, R1119): a POR and an asserted source run the reset sequence where the rails and RST_N let them; a source asserts a
full reset, and in the last breath is only recorded in DEFERRED (R525); RST_N asserts its cause, ends with SVCREQ after 3 s to RSTHOLD_MAX,
is stuck beyond that and armed again 100 ms after it rose. -/
def Obligations.Resets : Prop :=
  ∀ (t : Nat) (s : State) (o : BootOut),
    let u := s.at t
    (let v := (u.wr rTWEED_RSTCAUSE 0#32).onPower fun p => { p with rails := true, io18 := true, rst := some 1, rstIgnored := false }
     u.power.pmicEn = true → u.live = false →
      (u.power.rstN = true → exec (.por t o) s = .next (resetSequence 1 o v)) ∧
      (u.power.rstN = false → exec (.por t o) s = .next (v.onPower fun p => { p with rstEdge := u.now }))) ∧
    (∀ c, u.power.rst = some c → u.power.pmicEn = true → u.power.rails = true → (u.power.rstN = true ∨ u.power.rstIgnored = true) →
      exec (.fullReset t o) s = .next (resetSequence c o u)) ∧
    (u.power.rst = none → exec (.fullReset t o) s = .next u) ∧
    (Acts [] t s →
      (u.power.st = .lastBreath →
        exec (.rstreq t) s = .next (u.onFelt fun f => { f with deferred := f.deferred ||| 2 ^ 8 }) ∧
        exec (.reset t) s = .next (u.onFelt fun f => { f with deferred := f.deferred ||| 2 ^ 9 })) ∧
      (u.power.st ≠ .lastBreath →
        exec (.rstreq t) s = .next (assertReset 8 (preResetClose u)) ∧ exec (.reset t) s = .next (assertReset 9 (preResetClose u)))) ∧
    (let v := u.onPower fun p => { p with rstN := false, rstEdge := u.now }
     (u.power.rstIgnored = true ∨ u.power.released = false → exec (.rstNFall t) s = .next v) ∧
     (u.power.rstIgnored = false → u.power.released = true → exec (.rstNFall t) s = .next (assertReset 2 v))) ∧
    (let v := u.onPower fun p => { p with rstN := true, rstEdge := u.now }
     (u.now < u.power.rstEdge + 3000000000 → exec (.rstNRise t) s = .next v) ∧
     (u.power.rstN = false → u.power.rstIgnored = false → u.power.rstEdge + 3000000000 ≤ u.now →
       u.now ≤ u.power.rstEdge + u.fld rTWEED_RSTHOLD 4 0 * 1000000000 →
       exec (.rstNRise t) s = .next (v.setFlag rTWEED_RSTCAUSE 14 true))) ∧
    (u.power.rstN = false → u.power.rstIgnored = false → u.power.rstEdge + u.fld rTWEED_RSTHOLD 4 0 * 1000000000 < u.now →
      exec (.rstholdMaxExpiry t) s =
        .next (feltSticky 224 0 ((u.onPower fun p => { p with rstIgnored := true }).setFlag rTWEED_RSTCAUSE 13 true))) ∧
    (u.power.rstN = true → u.power.rstEdge + 100000000 ≤ u.now →
      exec (.rstNRearm t) s = .next (u.onPower fun p => { p with rstIgnored := false }))

/-! ## The dictionary engine -/

/-- Requests (R576–R602, R613, R645, R683, R778): a request of a row's kind that waits is taken up where its carrier runs, whichever
carrier it came by; one that waits and is of another kind waits on. Local and driver-card descriptors queue 4 deep. Transfers that fall
silent are acknowledged or end TIMEOUT; what firmware answers, or does not answer in FWTMO, goes to the asker; RESTORE_DEFAULTS and
CLEAR_STICKY run by their argument. -/
def Obligations.DictionaryRequests : Prop :=
  ∀ (t : Nat) (s : State),
    let u := s.at t
    (Acts [] t s → ∀ (r : ReqIn) (env : ProcEnv) (tie : Bool) (c : Instr) (m : Nat) (d : Bool), reqKind u r = some (m, d) →
      (c = .read t r env tie ∧ m = mREAD ∨ c = .write t r env tie ∧ m = mWRITE ∨ c = .readSeg t r env tie ∧ m = mREADSEG ∧ d = false ∨
        c = .writeSeg t r env tie ∧ m = mWRITESEG ∧ d = false ∨ c = .segment t r env tie ∧ (m = mREADSEG ∨ m = mWRITESEG) ∧ d = true ∨
        c = .blockAck t r env tie ∧ m = mBLOCKACK ∨ c = .abort t r env tie ∧ m = mABORT ∨ c = .sessionClose t r env tie ∧ m = mCLOSE ∨
        c = .heartbeat t r env tie ∧ m = mHEARTBEAT) →
      (∀ a q, r = .loc → u.dict.localQ = a :: q →
        exec c s = .next (wrapUp (serveDesc (.loc a) a 0 env (u.onDict fun x => { x with localQ := q })))) ∧
      (∀ a i q, r = .card → u.cards.preq = (a, i) :: q → u.flag (rPERC_SSTAT i) 6 = true →
        exec c s = .next (wrapUp (serveDesc (.card a i) a (u.fld (rPERC_SSTAT i) 11 8) env (u.onCards fun x => { x with preq := q })))) ∧
      (∀ k : Fin 4, r = .mbox k → u.gated 0 11 = false → exec c s = .next (wrapUp (mboxRing k.val env tie u))) ∧
      (∀ (n : Fin 3) (id : BitVec 29) (p : Bytes), r = .ydp n id p → u.gated 2 4 = false → u.gated 2 (5 + n.val) = false →
        exec c s = .next (wrapUp (frameIn n.val id.toNat p env tie u)))) ∧
    (Acts [] t s → ∀ (k : Fin 4) (env : ProcEnv) (tie : Bool), u.byte (reqBuf k.val) ≠ 1 →
      exec (.read t (.mbox k) env tie) s = .next (wrapUp u)) ∧
    (Acts [(0, 10)] t s →
      (∀ a : Word, u.dict.localQ.length < 4 →
        exec (.lsubmit t a) s = .next (u.onDict fun x => { x with localQ := x.localQ ++ [a.toNat / 32 * 32] })) ∧
      (∀ a : Word, 4 ≤ u.dict.localQ.length → exec (.lsubmit t a) s = .next (u.raise rDENG_INTSTAT 4)) ∧
      (∀ n x, u.dict.xfers[n]? = some x → x.write = true → x.gap = true → x.at_ + 100000000 ≤ u.now →
        exec (.blockGapExpiry t n) s = .next (blockAck x.carrier x.tag x.inBlk x.blk aOK false (putXfer { x with gap := false } u))) ∧
      (∀ n x, u.dict.xfers[n]? = some x → x.at_ + max 1 (u.fld rDENG_SEGTMO 15 0) * 1000000 ≤ u.now →
        exec (.segtmoExpiry t n) s = .next (answer x.carrier x.tag mABORT 0 (le 2 aTIMEOUT) true (dropXfer x.carrier x.tag u))) ∧
      (∀ (w : Word) (q : FwReq), u.dict.fw.getD (bits w 18 16) none = some q → bits w 15 0 ≠ aOK →
        exec (.fwrsp t w) s = .next (wrapUp (fwAnswer q (bits w 15 0) (setFw (bits w 18 16) none u)))) ∧
      (∀ w : Word, u.dict.fw.getD (bits w 18 16) none = none →
        exec (.fwrsp t w) s = .next (wrapUp (u.setFld rDENG_FWSTAT 31 16 (satAdd 16 (u.fld rDENG_FWSTAT 31 16) 1)))) ∧
      (∀ (i : Fin 8) (q : FwReq), u.dict.fw.getD i.val none = some q → q.at_ + max 1 (u.fld rDENG_FWTMO 15 0) * 1000000 ≤ u.now →
        exec (.fwtmoExpiry t i) s = .next (wrapUp (fwAnswer q aTIMEOUT ((setFw i.val none
          (u.setFld rDENG_FWSTAT 15 0 (satAdd 16 (u.fld rDENG_FWSTAT 15 0) 1))).raise rDENG_INTSTAT 3)))) ∧
      exec (.fwserve t false) s = .next (u.setFlag rDENG_CTRL 0 false) ∧
      (u.boot.warm = .idle → exec (.fwserve t true) s = .next ((u.setFlag rDENG_CTRL 0 true).onDict fun x => { x with restarting := false })) ∧
      (∀ (princ : BitVec 4) (arg : BitVec 16) (p : Nat → Bool), restoreGroup arg.toNat = some p →
        exec (.restoreDefaults t princ arg) s = .next (wrapUp (procRan (okey 0xF020 0) princ.toNat aOK (restoreAll p u))))) ∧
    (Acts [] t s → ∀ (princ : BitVec 4) (n : BitVec 8),
      (stickyListed n.toNat = true →
        exec (.clearSticky t princ n) s = .next (wrapUp (procRan (okey 0xA001 0) princ.toNat aOK (clearSticky n.toNat u)))) ∧
      (stickyListed n.toNat = false → exec (.clearSticky t princ n) s = .next (wrapUp u)))

/-- The engine's checks of a request for an object that hardware serves, in the order of R576: NO_SUB, SESSION, NO_RIGHT, TYPE, LENGTH; each
answers with its code, counts the request, and touches no object. -/
def Obligations.DictionaryChecks : Prop :=
  ∀ (r : Request) (s : State) (x : OIndex), s.gated 0 10 = false → indexOf r.index = some x →
    let u := s.add64 rDENG_REQCNT_LO rDENG_REQCNT_HI 1
    (x.entry r.sub = none → serve r s = reply r aNOSUB [] false u) ∧
    (∀ e, x.entry r.sub = some e →
      let o := if r.sub == 0 && x.isRecord then { e with cls := .ro } else e
      let key := okey r.index r.sub
      (princOk u r.princ = false → serve r s = reply r aSESSION [] false u) ∧
      (princOk u r.princ = true →
        (r.op = 2 → mayWrite u r.princ key o = false → serve r s = reply r aNORIGHT [] false u) ∧
        (r.op ≠ 2 → mayRead u r.princ key o = false → serve r s = reply r aNORIGHT [] false u) ∧
        (r.op = 2 → mayWrite u r.princ key o = true → r.type ≠ typeOf o true → serve r s = reply r aTYPE [] false u) ∧
        (r.op = 2 → mayWrite u r.princ key o = true → r.type = typeOf o true → formOk o r = true → r.form ≠ 2 →
          lengthFits o r.data.length = false → serve r s = reply r aLENGTH [] false u)))

/-! ## Gingham -/

/-- The CAN controllers (R605–R607, R612, R615, R663–R669): TXREQ takes a valid buffer and cancels one of a bad length; TXCANCEL removes
a waiting buffer before the arbitration sample point and marks a later one; the frame that wins leaves with TXDONE, TXLATE when its cancel
was too late, and with TXCANCD when it failed after that; bus-off, STUCK and mode changes suspend the sessions; recovery and integration
make the controller ACTIVE; a bus error counts; TSCNT's wrap latches EVT; POP drops the head entry. -/
def Obligations.CanControllers : Prop :=
  ∀ (t : Nat) (n : Fin 2) (s : State), Acts [(2, 4), (2, 5 + n.val)] t s →
    let u := s.at t
    let live := u.fld (rGING_CCTRL n.val) 1 0 ≠ 2
    (∀ b, b < 24 → let ctl := u.rd (rGING_TXBUF n.val b 1)
      (canLength (bits ctl 6 0) (bit ctl 8) = true →
        exec (.txreq t n (BitVec.ofNat 32 (2 ^ b))) s = .next (u.setFlag (rGING_TXREQ n.val) b true)) ∧
      (canLength (bits ctl 6 0) (bit ctl 8) = false →
        exec (.txreq t n (BitVec.ofNat 32 (2 ^ b))) s = .next (u.setFlag (rGING_TXCANCD n.val) b true))) ∧
    (∀ b, b < 24 → u.flag (rGING_TXREQ n.val) b = true → let m : Word := BitVec.ofNat 32 (2 ^ b)
      exec (.txcancel t n m 0#32) s = .next ((u.setFlag (rGING_TXREQ n.val) b false).setFlag (rGING_TXCANCD n.val) b true) ∧
      exec (.txcancel t n m m) s =
        .next (setCan n.val (fun c => { c with late := if b ∈ c.late then c.late else c.late ++ [b] }) u)) ∧
    (∀ b k err, (u.can n.val).onBus = true → live → txOffer (notifyFlush n.val u) n.val = some (b, k) → b < 24 →
      let v := notifyFlush n.val u
      let late := b ∈ (v.can n.val).late
      let w := setCan n.val (fun c => { c with late := c.late.filter (· ≠ b) }) (v.setFlag (rGING_TXREQ n.val) b false)
      (err = true → late → exec (.canTxDone t n err) s = .next (w.setFlag (rGING_TXCANCD n.val) b true)) ∧
      (err = true → ¬late → exec (.canTxDone t n err) s = .next v) ∧
      (err = false →
        let x := w.setFlag (rGING_TXDONE n.val) b true
        let y := if late then x.setFlag (rGING_TXLATE n.val) b true else x
        exec (.canTxDone t n err) s = .next (confine n.val (((setCan n.val (fun c =>
          { c with sent := some (txFrame v n.val b), tec := c.tec - 1 }) y).raise (rGING_CINTSTAT n.val) 1).addSat (rGING_TXCNT n.val) 1)))) ∧
    (∀ (fr : CanFrame) (ts : BitVec 16) (env : ProcEnv) (tie : Bool), (u.can n.val).onBus = true → fr.rtr = false →
      let v := rxGood n.val (nodeClash n.val fr u)
      (isYdp v fr = true →
        exec (.canFrameReceive t n fr ts env tie) s = .next (wrapUp (ydpFrame n.val (fr.id % 2 ^ 29) fr.data env tie v))) ∧
      (isYdp v fr = false → rxFilter v n.val fr = none → exec (.canFrameReceive t n fr ts env tie) s = .next (wrapUp v)) ∧
      (∀ f, isYdp v fr = false → rxFilter v n.val fr = some f →
        (32 ≤ (v.can n.val).fifo.length →
          exec (.canFrameReceive t n fr ts env tie) s = .next (wrapUp (v.raise (rGING_CINTSTAT n.val) 5))) ∧
        ((v.can n.val).fifo.length < 32 → exec (.canFrameReceive t n fr ts env tie) s = .next (wrapUp
          ((setCan n.val (fun c => { c with fifo := c.fifo ++ [⟨fr, f, ts.toNat,
            (v.can n.val).wrapEvt + bitEvt ((v.can n.val).cfg.getD 1 0) ts.toNat⟩] }) v).raise (rGING_CINTSTAT n.val) 0))))) ∧
    ((u.can n.val).onBus = true → exec (.busOff t n) s = .next (suspendAll n.val
      (((setCan n.val (fun c => { c with st := .busoff }) u).raise (rGING_CINTSTAT n.val) 2).addSat (rGING_BUSOFFCNT n.val) 1))) ∧
    ((u.can n.val).st = .busoff → u.flag (rGING_CCTRL n.val) 4 = true →
      exec (.busOffRecovery t n) s = .next (integrated n.val (setCan n.val (fun c => { c with tec := 0, rec_ := 0 }) u))) ∧
    ((u.can n.val).st = .busoff → u.flag (rGING_CCTRL n.val) 4 = false → exec (.busOffRecovery t n) s = .next u) ∧
    (∀ w : Word, ∀ r, regAt (rGING_CCTRL n.val) = some r →
      let v := u.wr (rGING_CCTRL n.val) (r.write (u.rd (rGING_CCTRL n.val)) w)
      (v.fld (rGING_CCTRL n.val) 1 0 = 0 → exec (.cctrlModeWrite t n w) s =
        .next (suspendAll n.val (setCan n.val (fun c => { c with st := .off, tec := 0, rec_ := 0 }) v))) ∧
      (v.fld (rGING_CCTRL n.val) 1 0 ≠ 0 → (v.can n.val).st = .busoff → exec (.cctrlModeWrite t n w) s =
        .next (setCan n.val (fun c => { c with st := .integrating, tec := 0, rec_ := 0 }) v))) ∧
    (((u.can n.val).onBus = true ∨ (u.can n.val).st = .integrating) → exec (.stuck t n) s = .next (suspendAll n.val
      (setSticky 128 (65 + n.val) n.val (((setCan n.val (fun c => { c with st := .stuck, rxLow := true }) u).raise
        (rGING_CINTSTAT n.val) 3).addSat (rGING_STUCKCNT n.val) 1)))) ∧
    ((u.can n.val).st = .stuck → exec (.stuckRecheck t n false) s = .next u ∧
      exec (.stuckRecheck t n true) s = .next (integrated n.val (setCan n.val (fun c => { c with tec := 0, rec_ := 0, rxLow := false }) u))) ∧
    exec (.tscntWrap t n) s = .next (setCan n.val (fun c => { c with wrapEvt := u.felt.evt }) u) ∧
    ((u.can n.val).st = .integrating → exec (.canIntegration t n) s = .next (integrated n.val u)) ∧
    (∀ tx eight, (u.can n.val).onBus = true →
      let v := setCan n.val (fun c => if tx then { c with tec := c.tec + 8 } else
        { c with rec_ := min 255 (c.rec_ + if eight then 8 else 1) }) (u.addSat (rGING_ERRCNT n.val) 1)
      ((v.can n.val).tec ≤ 255 → exec (.canBusError t n tx eight) s = .next (confine n.val v)) ∧
      (255 < (v.can n.val).tec → exec (.canBusError t n tx eight) s = .next (busOff n.val v))) ∧
    exec (.pop t (some n)) s = .next (setCan n.val (fun c => { c with fifo := c.fifo.drop 1 }) u)

/-- YDP sessions (R622, R629–R640, R656–R658): a SESSION_OPEN or RESPONSE frame reaches the session machinery over any carrier; a phase 1
whose tag fails is dropped, one of a principal that may not open is refused; a right response opens the session, a wrong one is refused and
frees the slot; sessions close on their timers and on CLOSE.GO, not before; NOTIFY goes to the sessions and the mailbox queue where its
event is enabled; HEARTBEAT goes out on every controller on its bus. -/
def Obligations.YdpSessions : Prop :=
  ∀ (t : Nat) (s : State),
    let u := s.at t
    (Acts [] t s → ∀ (c : Fin 3) (id : BitVec 29) (p : Bytes), u.gated 2 4 = false → (c.val < 2 → u.gated 2 (5 + c.val) = false) →
      dfld p 0 1 = mOPEN →
      (dfld p 4 1 = 1 → exec (.sessionOpen t c id p) s = .next (frameIn c.val id.toNat p {} false u)) ∧
      (dfld p 4 1 = 3 → exec (.response t c id p) s = .next (frameIn c.val id.toNat p {} false u)) ∧
      (c.val = 2 → u.flag rGING_GCTRL 24 = true → id.toNat / 2 ^ 16 % 256 = nodeId u → frameOk (id.toNat / 2 ^ 24 % 32) p = true →
        (dfld p 4 1 = 1 → exec (.sessionOpen t c id p) s = .next (phase1 2 id.toNat p u)) ∧
        (dfld p 4 1 = 3 → exec (.response t c id p) s = .next (phase3 2 id.toNat p u)))) ∧
    (∀ (carrier id : Nat) (p : Bytes), dfld p 2 1 = 20 →
      let pr := dfld (p.drop 4) 1 1
      let x := u.sess pr
      (∀ key, dfld (p.drop 4) 2 1 = 1 → pr < 16 → princK u pr = some key → tagOk key id 0 p = false →
        phase1 carrier id p u = authFail u) ∧
      (dfld (p.drop 4) 2 1 = 1 → pr < 16 → princK u pr = none →
        phase1 carrier id p u = refuse carrier (id / 2 ^ 8 % 256) (id % 256) aSESSION u) ∧
      (pr < 8 → x.st = .challenged → x.carrier = carrier → x.node = id / 2 ^ 8 % 256 → x.tag = id % 256 →
        u.now ≤ x.chalAt + 500000000 → ∀ key, useKey u x.handle uHMAC = .key key →
        (tagOk key id 0 p = false → phase3 carrier id p u = authFail u) ∧
        (tagOk key id 0 p = true → slice (p.drop 4) 4 16 = (hmac256 key ([0x52] ++ x.nonces)).take 16 →
          phase3 carrier id p u = confirmSess pr key u) ∧
        (tagOk key id 0 p = true → slice (p.drop 4) 4 16 ≠ (hmac256 key ([0x52] ++ x.nonces)).take 16 →
          phase3 carrier id p u = refuse carrier (id / 2 ^ 8 % 256) (id % 256) aSESSION (setSess pr (fun x => { x with st := .closed }) u)))) ∧
    (Acts [(2, 4)] t s →
      (∀ i : Fin 8, let x := u.sess i.val
        (x.st = .challenged → x.chalAt + 500000000 ≤ u.now →
          exec (.phase3Timeout t i) s = .next (setSess i.val (fun x => { x with st := .closed }) u)) ∧
        (x.st = .challenged → u.now < x.chalAt + 500000000 → exec (.phase3Timeout t i) s = .next u) ∧
        (x.st = .openSess → x.heardAt + 60000000000 ≤ u.now → exec (.idleExpiry t i) s = .next (wrapUp (sessClose i.val 2 u))) ∧
        (x.st = .openSess → u.now < x.heardAt + 60000000000 → exec (.idleExpiry t i) s = .next (wrapUp u)) ∧
        (x.st = .suspended → x.suspAt + 10000000000 ≤ u.now → exec (.suspendExpiry t i) s = .next (wrapUp (sessClose i.val 6 u))) ∧
        ((x.st = .openSess ∨ x.st = .suspended) → exec (.sessCloseGo t i) s = .next (wrapUp (sessClose i.val 0 u)))) ∧
      (u.fld rGING_GCTRL 15 0 = 0 → exec (.heartbeatPeriod t) s = .next u) ∧
      (∀ m : YMsg, u.fld rGING_GCTRL 15 0 ≠ 0 → m = {
          cls := 0x1E, dest := 0, msg := 0x0A, auth := .none, ctrlo := u.ging.beats
          body := le 1 (powerCode u.power.st) ++ le 1 (lifeCode u.fuse.life) ++
            le 1 (u.power.ingest.toNat + 2 * (u.ging.sess.any (fun x => decide (x.st = .closed))).toNat) ++
            le 1 (u.ging.sess.filter (fun x => decide (x.st = .openSess))).length ++ le 8 u.felt.evt } →
        (u.can 0).onBus = true → (u.can 1).onBus = false →
        exec (.heartbeatPeriod t) s = .next (ydpPut 0 m (u.onGing fun g => { g with beats := (g.beats + 1) % 256 }))) ∧
      (∀ w : Word, (bits w 31 16 < 0x8000 → exec (.fwnotify t w) s = .next u) ∧
        (0x8000 ≤ bits w 31 16 → exec (.fwnotify t w) s = .next (notify (bits w 31 16) (bits w 15 0) u)))) ∧
    (∀ (event arg : Nat),
      (u.flag rGING_NOTIFYEN (notifyBit event) = false → notify event arg u = u) ∧
      (u.flag rGING_NOTIFYEN (notifyBit event) = true → 16 ≤ u.pcie.notifyQ.length →
        notify event arg u = (({ u with ging := { u.ging with
          sess := u.ging.sess.map (Sess.pushNotify (notifyBody event arg u.felt.evt)) } }.addSat rGING_NOTIFYDROP
            (u.ging.sess.filter Sess.dropsNotify).length).incFld rBAR0_NQSTAT 31 16)))

/-! ## The PCIe endpoint -/

/-- Read doors (R695–R709): START of an idle door clears its pointers and ends at once without the right or with bad bounds, else opens the
job; a first pass that fails ends it, and reports OLDEST where a record is gone; RDPTR moves and is dated; a status block is written each
WMARK; a door that stalls ends STALL; ABORT answers DONE, ABORTED or NOTFOUND; the last byte completes the job. -/
def Obligations.ReadDoors : Prop :=
  ∀ (t : Nat) (r : Fin 8) (s : State), Acts [(0, 11)] t s →
    let u := s.at t
    let cfg := u.rd (rPCIE_RD_CFG r.val)
    let first := u.rd64 (rPCIE_RD_FIRSTSEQ_LO r.val) (rPCIE_RD_FIRSTSEQ_HI r.val)
    let last := u.rd64 (rPCIE_RD_LASTSEQ_LO r.val) (rPCIE_RD_LASTSEQ_HI r.val)
    let v := setRd r.val (fun _ => { cfg := cfg, movedAt := u.now }) (((u.wr64 (rPCIE_RD_RDPTR_LO r.val) (rPCIE_RD_RDPTR_HI r.val) 0).wr
      (rPCIE_RD_STATE r.val) 1#32).wr (rPCIE_RD_OMITTED r.val) 0#32)
    ((u.rdoor r.val).job.isSome = true → exec (.start t r) s = .next u) ∧
    ((u.rdoor r.val).job = none →
      (rdRight u = false → exec (.start t r) s = .next (rdEnd r.val xNORIGHT true v)) ∧
      (rdRight u = true → last < first → exec (.start t r) s = .next (rdEnd r.val xRANGE true v)) ∧
      (rdRight u = true → first ≤ last → 16 ≤ bits cfg 20 16 → bits cfg 20 16 ≤ 30 → ∀ j w,
        jobOpen (bits cfg 5 0) first last (bit cfg 8) v = (j, w) →
        exec (.start t r) s = .next (setRd r.val (fun d => { d with job := some j }) w))) ∧
    (∀ j, (u.rdoor r.val).job = some j → j.pkg = none → jobWaits u j = false → ∀ id : Fin 9, id.val = r.val →
      (∀ k w, firstPass r.val j u = (.ok k, w) → exec (.firstPassDone t id) s = .next (wrapUp
        ((setRd r.val (fun d => { d with job := some k, movedAt := w.now }) w).wr (rPCIE_RD_OMITTED r.val) (loWord k.omitted)))) ∧
      (∀ e w, firstPass r.val j u = (.error e, w) → (e = xRECLAIMED ∨ e = xLOST) → exec (.firstPassDone t id) s = .next (wrapUp
        (rdEnd r.val e true (w.wr64 (rPCIE_RD_OLDEST_LO r.val) (rPCIE_RD_OLDEST_HI r.val) (oldestSeq w j.cust)))))) ∧
    (∀ p : BitVec 64,
      let w := u.wr64 (rPCIE_RD_RDPTR_LO r.val) (rPCIE_RD_RDPTR_HI r.val) p.toNat
      (u.rd64 (rPCIE_RD_RDPTR_LO r.val) (rPCIE_RD_RDPTR_HI r.val) < p.toNat →
        exec (.rdptrWrite t r p) s = .next (setRd r.val (fun d => { d with movedAt := w.now }) w)) ∧
      (p.toNat ≤ u.rd64 (rPCIE_RD_RDPTR_LO r.val) (rPCIE_RD_RDPTR_HI r.val) → exec (.rdptrWrite t r p) s = .next w)) ∧
    (readLost u r.val = true → exec (.statusBlock t r) s = .next (rdEnd r.val xLOST true u)) ∧
    (readLost u r.val = false →
      let target := (u.rdoor r.val).marked + bits (u.rdoor r.val).cfg 31 24 * 4096
      let w := rdPush r.val target u
      ((w.rdoor r.val).wrptr = target → (w.rdoor r.val).marked < target →
        exec (.statusBlock t r) s = .next (rdStatus r.val (setRd r.val (fun d => { d with marked := target }) w))) ∧
      ((w.rdoor r.val).wrptr ≠ target → exec (.statusBlock t r) s = .next w)) ∧
    (∀ j p, (u.rdoor r.val).job = some j → j.pkg = some p →
      let d := u.rdoor r.val
      let stall := u.fld (rPCIE_RD_STALL r.val) 15 0
      (d.wrptr = u.rd64 (rPCIE_RD_RDPTR_LO r.val) (rPCIE_RD_RDPTR_HI r.val) + 2 ^ bits d.cfg 20 16 → d.wrptr < p.length → stall ≠ 0 →
        d.movedAt + stall * 1000000000 ≤ u.now → exec (.stallExpiry t r) s = .next (rdEnd r.val xSTALL true u)) ∧
      (stall = 0 → exec (.stallExpiry t r) s = .next u) ∧
      (readLost u r.val = false → readAll u r.val = true → ((rdPush r.val p.length u).rdoor r.val).wrptr = p.length →
        exec (.readDoorCompletion t r) s = .next (rdEnd r.val (if j.omitted = 0 then xOK else xPARTIAL) true (rdPush r.val p.length u))) ∧
      (readLost u r.val = true → exec (.readDoorCompletion t r) s = .next (rdEnd r.val xLOST true u))) ∧
    ((u.rdoor r.val).job = none → ∀ tie, exec (.readDoorAbort t r tie) s = .next
      (u.setFld (rPCIE_RD_STATE r.val) 3 2 (if u.fld (rPCIE_RD_STATE r.val) 1 0 = 2 then 1 else 3))) ∧
    ((u.rdoor r.val).job.isSome = true →
      exec (.readDoorAbort t r false) s = .next (rdEnd r.val xABORTED true (u.setFld (rPCIE_RD_STATE r.val) 3 2 2)) ∧
      exec (.readDoorAbort t r true) s = .next (rdComplete r.val (u.setFld (rPCIE_RD_STATE r.val) 3 2 1)))

/-- The link and the mailbox (R671, R679, R683, R690, R710–R713): a link comes up unless the vendor identifier is blank; each cause of link
loss has the shared effects with its own bit of INTSTAT and resets its own part of the function; an FLR that completes ends; VSEL takes
10–63 and ignores 0–9; freeing a mailbox slot lets a response that waits in; POP drops the head of the notify queue. -/
def Obligations.LinkAndMailbox : Prop :=
  ∀ (t : Nat) (s : State),
    let u := s.at t
    (Acts [(0, 11)] t s →
      (∀ k : Fin 4, let v := u.setFlag rBAR0_MBSTAT (8 + k.val) false
        (u.pcie.held.getD k.val none = none → exec (.rspvalidClear t k) s = .next v) ∧
        (∀ m, u.pcie.held.getD k.val none = some m → exec (.rspvalidClear t k) s = .next
          (mboxPut k.val m (v.onPcie fun p => { p with held := upd p.held k.val (fun _ => none) })))) ∧
      (∀ (n : Fin 64) (v : BitVec 6),
        (10 ≤ v.toNat → exec (.vselWrite t n v) s = .next (u.onPcie fun p => { p with vsel := upd p.vsel n.val (fun _ => v.toNat) })) ∧
        (v.toNat < 10 → exec (.vselWrite t n v) s = .next u)) ∧
      exec (.pop t none) s = .next (u.onPcie fun p => { p with notifyQ := p.notifyQ.drop 1 })) ∧
    (Acts [] t s →
      (∀ (speed : BitVec 2) (width : BitVec 3) (bme msixEn : Bool), let id := bits (dataRead u (dataPhys 256 36)).1 15 0
        ((id = 0 ∨ id = 0xFFFF) → u.pcie.up = false →
          exec (.linkUp t speed width bme msixEn) s = .next (u.onPcie fun p => { p with perst := false, msixEn := false })) ∧
        (id ≠ 0 → id ≠ 0xFFFF → u.pcie.flr = false → u.pcie.bme = false →
          exec (.linkUp t speed width bme msixEn) s = .next (u.onPcie fun p => { p with
            perst := false, up := true, dstate := 0, speed := speed.toNat, width := width.toNat, msixEn := msixEn, bme := bme }))) ∧
      exec (.linkLoss t .perst) s = .next (wrapUp (linkLoss 0 (u.onPcie fun p =>
        { msixReset p with perst := true, up := false, bme := false, dstate := 0, speed := 0, width := 0 }))) ∧
      (∀ c, (c = .down ∨ c = .hotReset) → exec (.linkLoss t c) s = .next (wrapUp (linkLoss 1 (u.onPcie fun p =>
        { msixReset p with up := false, bme := false, dstate := 0, speed := 0, width := 0 })))) ∧
      exec (.linkLoss t .flr) s = .next (wrapUp (linkLoss 2 (u.onPcie fun p =>
        { msixReset p with flr := true, bme := false, dstate := 0 }))) ∧
      exec (.linkLoss t .d3) s = .next (wrapUp (linkLoss 3 (u.onPcie fun p => { p with dstate := 3 }))) ∧
      (u.pcie.up = true → u.pcie.flr = false → u.pcie.bme = true →
        exec (.linkLoss t .bmeCleared) s = .next (wrapUp (linkLoss 4 (u.onPcie fun p => { p with bme := false })))) ∧
      exec (.flrComplete t) s = .next (u.onPcie fun p => { p with flr := false }))

/-! ## Removable cards -/

/-- Chambray's ports (R718, R719, R722–R726, R734–R742): an insertion powers the port where power is on; the card that comes ready makes it
READY, one that does not makes it FAILED; a removal empties it; a command is issued where the port may, else XSTAT reads LOCKED; a transfer
ends, is aborted, or finds nothing to abort; a busy time-out fails the port with its sticky bit; retunes trigger, sweep 8 taps at a step;
REINIT restarts a FAILED port; an idle cartridge sleeps. -/
def Obligations.CardPorts : Prop :=
  ∀ (t : Nat) (p : Fin 2) (s : State), Acts [(2, p.val)] t s →
    let u := s.at t
    let x := u.cport p.val
    (cState u p.val = cEMPTY → let v := u.setFlag (rCHAM_PSTAT p.val) 18 true
      (v.flag (rCHAM_PCTL p.val) 0 = true → exec (.insertion t p) s = .next (portPower p.val false v)) ∧
      (v.flag (rCHAM_PCTL p.val) 0 = false → exec (.insertion t p) s = .next v)) ∧
    (cState u p.val = cPOWERING → ∀ r : CardInit,
      (r.ready = false → exec (.cardReady t p r) s = .next (cardFail p.val 3 u)) ∧
      (r.ready = true → p.val = 1 → r.blocks < 2048 → exec (.cardReady t p r) s = .next (cardFail 1 3 u)) ∧
      (r.ready = true → p.val = 0 → r.uhs = true → x.only33 = false → 2 ≤ u.fld (rCHAM_PCTL 0) 7 4 → r.switchOk = false →
        exec (.cardReady t p r) s = .next (portPower 0 true (portOff 0 u)))) ∧
    (let v := portLost p.val xREMOVED aABORTED (if x.xfer.isSome || expHolds u p.val || decide (u.cards.courtRun = some p.val) then
        xferEnd p.val 5 u else u)
     let w := setCard p.val (fun x => { x with exported := none, only33 := false }) (portOff p.val v)
     (w.flag (rCHAM_PSTAT p.val) 18 = true →
        exec (.removal t p) s = .next (wrapUp ((w.wr (rCHAM_PSTAT p.val) 0#32).raise (rCHAM_INTSTAT p.val) 1))) ∧
     (w.flag (rCHAM_PSTAT p.val) 18 = false → exec (.removal t p) s = .next (wrapUp (w.wr (rCHAM_PSTAT p.val) 0#32)))) ∧
    (∀ w : Word, let c := setBit w 31 true
      let v := u.wr (rCHAM_CMD p.val) (c &&& 0x00000F3F#32)
      ((cUsable v p.val = false ∨ expHolds v p.val = true) →
        exec (.cmd t p w) s = .next (v.setFld (rCHAM_XSTAT p.val) 3 0 7)) ∧
      (cUsable v p.val = true → expHolds v p.val = false →
        let b := boundary p.val v
        let k : CardCmd := {
          index := bits c 5 0, arg := b.rd (rCHAM_ARG p.val), rsp := bits c 9 8, data := bit c 10, write := bit c 11
          dma := b.rd64 (rCHAM_DMALO p.val) (rCHAM_DMAHI p.val), blocks := b.fld (rCHAM_BLKCNT p.val) 15 0 }
        exec (.cmd t p w) s = .next (setCState p.val cBUSY (setCard p.val (fun x => { x with xfer := some k, retries := 0 })
          ((b.wr (rCHAM_XSTAT p.val) 0#32).wr (rCHAM_ABORTSTAT p.val) 0#32))))) ∧
    (x.xfer = none → expHolds u p.val = false → u.cards.courtRun ≠ some p.val → ∀ out,
      exec (.cardTransferDone t p out) s = .next (wrapUp u)) ∧
    (∀ k, x.xfer = some k → expHolds u p.val = false → u.cards.courtRun ≠ some p.val →
      exec (.cardTransferDone t p .silent) s = .next (wrapUp (boundary p.val (setCState p.val cREADY (xferEnd p.val 3 u)))) ∧
      (∀ resp data, exec (.cardTransferDone t p (.done resp data)) s = .next (wrapUp (rawDone p.val k resp data u))) ∧
      (∀ sweep, exec (.cardTransferDone t p (.crc sweep)) s = .next (wrapUp (crcFail p.val sweep u)))) ∧
    (∀ tie, x.xfer = none → exec (.pabort t p tie) s = .next (wrapUp (u.setFld (rCHAM_ABORTSTAT p.val) 1 0
      (if u.fld (rCHAM_XSTAT p.val) 3 0 = 0 ∨ u.fld (rCHAM_XSTAT p.val) 3 0 = 7 then 3 else 1)))) ∧
    (∀ k, x.xfer = some k →
      exec (.pabort t p none) s = .next (wrapUp (boundary p.val (setCState p.val cREADY (xferEnd p.val 6
        (u.setFld (rCHAM_ABORTSTAT p.val) 1 0 2))))) ∧
      (∀ out, exec (.pabort t p (some out)) s = .next (wrapUp (cardDone p.val out (u.setFld (rCHAM_ABORTSTAT p.val) 1 0 1))))) ∧
    ((x.xfer.isSome = true ∨ expHolds u p.val = true ∨ u.cards.courtRun = some p.val) →
      exec (.busyTimeout t p) s = .next (wrapUp (setSticky 129 (56 + p.val) p.val (portOff p.val
        (cardFail p.val 4 ((u.addSat (rCHAM_ERRCNT p.val) 1).raise (rCHAM_INTSTAT p.val) 4)))))) ∧
    (∀ temp : Int, cUsable u p.val = true → tunedMode (cSpeed u p.val) = true → x.retuneAt = none →
      (x.tunedAt + u.fld rCHAM_XRETUNE 15 0 * 1000000000 ≤ u.now → exec (.retuneTrigger t p temp) s =
        .next ((setCard p.val (fun x => { x with retuneAt := some u.now, sweep := [] }) u).setFlag (rCHAM_PSTAT p.val) 19 true)) ∧
      (u.now < x.tunedAt + u.fld rCHAM_XRETUNE 15 0 * 1000000000 → (temp - x.tunedTemp).natAbs < 10 * u.fld rCHAM_XRETUNE 23 16 →
        exec (.retuneTrigger t p temp) s = .next u)) ∧
    (∀ (mask : Nat) (temp : Int) (at_ : Nat), x.retuneAt = some at_ → x.xfer = none → cState u p.val = cREADY →
      (calMay u 1 = true ∨ at_ + 1000000000 ≤ u.now) → let taps := x.sweep ++ (List.range 8).map (fun i => mask.testBit i)
      (taps.length < 64 → exec (.retuneStep t p mask temp) s = .next (setCard p.val (fun x => { x with sweep := taps }) u)) ∧
      (64 ≤ taps.length → u.flag rTWEED_CLKSTAT 2 = true → exec (.retuneStep t p mask temp) s =
        .next (tuneWhole p.val (taps.zipIdx.map (fun b => if b.1 then 2 ^ b.2 else 0)).sum (some temp) u))) ∧
    (cState u p.val = cFAILED → u.flag (rCHAM_PSTAT p.val) 18 = true → u.flag (rCHAM_PCTL p.val) 0 = true →
      exec (.reinit t p) s = .next (portPower p.val false (portOff p.val u))) ∧
    (p.val = 1 → cState u 1 = cREADY → expHolds u 1 = false → x.xfer = none →
      (x.idleAt + u.fld rCHAM_XCFG 23 16 * 1000000000 ≤ u.now → exec (.sleep t) s = .next (setCState 1 cSLEEP u)) ∧
      (u.now < x.idleAt + u.fld rCHAM_XCFG 23 16 * 1000000000 → exec (.sleep t) s = .next u))

/-- Exports and the court copy (R744–R753, R758–R761): EXPORT_START runs its procedure, which opens the job, or ends it at once; the record
block latches the completion; EXPORT_ABORT answers DONE, LATE, ABORTED or NOTFOUND; a court copy needs two principals within 60 s, or ends
TIMEOUT. -/
def Obligations.CardExports : Prop :=
  ∀ (t : Nat) (s : State), Acts [] t s →
    let u := s.at t
    let exp (f : Export → Export) (s : State) : State := s.onCards fun c => { c with exp := f c.exp }
    let stat (n : Nat) (s : State) : State := s.setFld rCHAM_XSTATE 5 4 n
    (∀ princ : BitVec 4,
      (u.cards.exp.job.isSome = true → exec (.exportStart t princ) s = .next (wrapUp u)) ∧
      (∀ code v, u.cards.exp.job = none → exportStart princ.toNat u = (code, v) → exec (.exportStart t princ) s = .next (wrapUp v)) ∧
      (let v := procRan (okey 0x5803 0) princ.toNat aOK u
       ∀ tie, (u.cards.exp.job = none → exec (.exportAbort t princ tie) s =
          .next (wrapUp (stat (if v.fld rCHAM_XSTATE 2 0 = 4 then 1 else 3) v))) ∧
        (u.cards.exp.job.isSome = true → u.cards.exp.phase = 3 → exec (.exportAbort t princ tie) s = .next (wrapUp (stat 1 v))) ∧
        (u.cards.exp.job.isSome = true → u.cards.exp.phase ≠ 3 → tie = false →
          exec (.exportAbort t princ tie) s = .next (wrapUp (expEnd xABORTED (stat 2 v)))) ∧
        (u.cards.exp.job.isSome = true → u.cards.exp.phase = 2 → tie = true →
          exec (.exportAbort t princ tie) s = .next (wrapUp (exp (fun e => { e with phase := 3 }) ((stat 1 v).setFld rCHAM_XSTATE 2 0 3)))))) ∧
    (u.cards.exp.job.isSome = true → u.cards.exp.phase = 2 → exec (.exportCompletion t) s =
      .next (wrapUp (exp (fun e => { e with phase := 3 }) (u.setFld rCHAM_XSTATE 2 0 3)))) ∧
    (∀ princ : BitVec 4,
      (∀ target : BitVec 8, 2 ≤ target.toNat → exec (.courtCopy t princ target) s = .next (wrapUp u)) ∧
      (∀ target : BitVec 8, target.toNat < 2 → u.cards.courtRun = none → u.cards.court = none →
        exec (.courtCopy t princ target) s = .next (wrapUp (((procStart (okey 0x5804 0) princ.toNat u).wr rCHAM_XCOURT
          (field 3 0 princ.toNat ||| field 8 8 1 ||| field 9 9 target.toNat)).onCards fun c =>
            { c with court := some { princ := princ.toNat, target := target.toNat, at_ := u.now } }))) ∧
      (∀ (target : BitVec 8) c, target.toNat < 2 → u.cards.courtRun = none → u.cards.court = some c → u.now ≤ c.at_ + 60000000000 →
        c.princ = princ.toNat → exec (.courtCopy t princ target) s = .next (wrapUp (courtEnd aTIMEOUT u)))) ∧
    (∀ c, u.cards.court = some c → u.cards.courtRun = none →
      (c.at_ + 60000000000 ≤ u.now → exec (.courtCopyTimeout t) s = .next (wrapUp (courtEnd aTIMEOUT u))) ∧
      (u.now < c.at_ + 60000000000 → exec (.courtCopyTimeout t) s = .next (wrapUp u)))

/-- Percale's slots (R762–R779): a card that appears or goes; activation of a present card; an ATR that is rejected tries the next class;
PPS; deactivation; stuck I/O and overcurrent fail the slot with their sticky bits; the clock stops where it may; characters sent and
received under T=0; the authentication challenge and its answer; PREQ queues 4 requests. -/
def Obligations.SmartCards : Prop :=
  ∀ (t : Nat) (s : State),
    let u := s.at t
    (∀ i : Fin 2, Acts [(2, 2 + i.val)] t s →
      let x := u.cslot i.val
      (u.flag (rPERC_SCTL i.val) 5 = true → x.present = false →
        let v := (setPState i.val 1 (setCSlot i.val (fun x => { x with present := true, noPps := false }) u)).raise (rPERC_INTSTAT i.val) 0
        (v.flag (rPERC_SCTL i.val) 6 = false → exec (.presence t i true) s = .next v) ∧
        (v.flag (rPERC_SCTL i.val) 6 = true → exec (.presence t i true) s = .next (activate i.val v))) ∧
      (u.flag (rPERC_SCTL i.val) 5 = true → x.present = true → exec (.presence t i false) s = .next
        ((setPState i.val 0 (setCSlot i.val (fun x => { x with present := false, noPps := false }) (deactivate i.val u))).raise
          (rPERC_INTSTAT i.val) 1)) ∧
      (u.flag (rPERC_SCTL i.val) 0 = true → x.present = true → (pState u i.val = 1 ∨ pState u i.val = 6) →
        exec (.activate t i) s = .next (activateSlot i.val u)) ∧
      (∀ bs bad, pState u i.val = 2 → x.pps = false → atrAccept bs bad = none → exec (.atr t i bs bad) s = .next (nextClass i.val
        ((u.wrWords (rPERC_ATR i.val 0) (wordsOf 9 (fit 33 bs))).wr (rPERC_ATRLEN i.val) (field 5 0 (min 33 bs.length))))) ∧
      (pState u i.val = 2 → x.pps = false → exec (.atrTimeout t i) s = .next (nextClass i.val u)) ∧
      (x.pps = true →
        exec (.ppsResponse t i true) s = .next (setPState i.val 3 (setCSlot i.val (fun x => { x with
          pps := false, fi := bits (u.rd (rPERC_FIDI i.val)) 3 0, di := bits (u.rd (rPERC_FIDI i.val)) 7 4 }) u)) ∧
        exec (.ppsResponse t i false) s = .next (ppsFail i.val u) ∧
        exec (.waitingTimeExpiry t i) s = .next (ppsFail i.val u)) ∧
      (x.pps = false → pState u i.val = 3 → exec (.waitingTimeExpiry t i) s = .next
        (((setCSlot i.val (fun x => { x with blk := [], repeats := 0 }) u).setFld (rPERC_FIFOSTAT i.val) 19 16 2).raise
          (rPERC_INTSTAT i.val) 5)) ∧
      exec (.deact t i) s = .next (deactivate i.val u) ∧
      ((pState u i.val = 2 ∨ pState u i.val = 3 ∨ pState u i.val = 4) →
        exec (.ioStuck t i) s = .next (setSticky 130 (59 + i.val) i.val (slotFail i.val (deactivate i.val u))) ∧
        exec (.overcurrent t i) s = .next (setSticky 131 (59 + i.val) i.val (slotFail i.val
          ((deactivate i.val u).raise (rPERC_INTSTAT i.val) 7)))) ∧
      (pState u i.val = 3 → u.flag (rPERC_SCTL i.val) 4 = true → u.fld (rPERC_SSTAT i.val) 13 12 ≠ 0 → x.tx = [] →
        exec (.clockStop t i) s = .next (setPState i.val 4 u)) ∧
      (∀ b, (pState u i.val = 3 ∨ pState u i.val = 4) → let v := setPState i.val 3 u
        ((v.cslot i.val).tx.length < 64 → exec (.txfifoWrite t i b 0 false) s =
          .next (setCSlot i.val (fun x => { x with tx := x.tx ++ [b] }) v)) ∧
        (64 ≤ (v.cslot i.val).tx.length → exec (.txfifoWrite t i b 0 false) s = .next v)) ∧
      (∀ b, pState u i.val = 3 → u.flag (rPERC_SSTAT i.val) 5 = false → x.tx = [] →
        exec (.characterReceived t i b false) s = .next ((rxPush i.val b (setCSlot i.val (fun x => { x with repeats := 0 }) u)).raise
          (rPERC_INTSTAT i.val) 3) ∧
        (x.repeats < 3 → exec (.characterReceived t i b true) s =
          .next (setCSlot i.val (fun x => { x with repeats := x.repeats + 1 }) u)))) ∧
    (Acts [] t s →
      (∀ (w : Word) b v, let c := setBit w 31 true
        (drbgNow 16 (u.wr rPERC_AUTHCTL (c &&& 0x0000010F#32)) = (some b, v) → exec (.authctlStart t w) s =
          .next (((v.wrWords (rPERC_AUTHCHAL 0) (wordsOf 4 b)).wr rPERC_AUTHSTAT 1#32).onCards fun x =>
            { x with auth := some (bits c 8 8, bits c 3 0) })) ∧
        (drbgNow 16 (u.wr rPERC_AUTHCTL (c &&& 0x0000010F#32)) = (none, v) → exec (.authctlStart t w) s =
          .next ((v.wr rPERC_AUTHSTAT 3#32).onCards fun x => { x with auth := none }))) ∧
      (∀ (k : Fin 4) (w : Word), let v := u.onCards fun c => { c with authRsp := upd c.authRsp k.val (fun _ => w) }
        (k.val ≠ 3 → exec (.authrspWrite t k w) s = .next v) ∧
        (k.val = 3 → u.cards.auth = none → exec (.authrspWrite t k w) s =
          .next ((v.wr rPERC_AUTHSTAT 3#32).onCards fun c => { c with auth := none })) ∧
        (∀ i pr key, k.val = 3 → u.cards.auth = some (i, pr) → useKey v (princKey v pr) uHMAC = .key key →
          (v.cslot i).present = true → pState v i = 3 → enabledOf v pr = true → kindOf v pr = 5 → princNode v pr = i →
          v.cards.authRsp.flatMap (fun w => le 4 w.toNat) = authExpect v key i →
          exec (.authrspWrite t k w) s = .next ((((v.setFlag (rPERC_SSTAT i) 6 true).setFld (rPERC_SSTAT i) 11 8 pr).wr
            rPERC_AUTHSTAT 2#32).onCards fun c => { c with auth := none }))) ∧
      (∀ a : Word,
        (u.cards.preq.length < 4 → exec (.preq t a) s =
          .next (u.onCards fun c => { c with preq := c.preq ++ [(a.toNat / 32 * 32, u.fld rPERC_AUTHCTL 8 8)] })) ∧
        (4 ≤ u.cards.preq.length → exec (.preq t a) s = .next u)))

/-! ## Serge: interrupts, timers and monitors -/

/-- Asynchronous traps and the interrupt controller (R859, R864–R868, R881–R883, R837): NMI before STOREERR before the highest interrupt,
none while the core is stalled; a store that fails or drains leaves the buffer; EOI pops a level; SWISET and SWICLR reach the sources
128–255 alone. -/
def Obligations.AsynchronousTraps : Prop :=
  ∀ (t : Nat) (s : State), Acts [] t s →
    let u := s.at t
    (stalled u = false →
      (nmiDue u = true →
        exec (.nmi t) s = .next ((u.wr rIC_NMIPEND 0#32).onSerge (enterTrap tNMI (u.rd rIC_NMIPEND))) ∧
        exec (.storeerr t) s = .next u ∧ exec (.interrupt t) s = .next u) ∧
      (nmiDue u = false → storeErrDue u = true →
        exec (.storeerr t) s = .next (u.onSerge fun c => { enterTrap tSTOREERR (u.rd rCFAULT_SERRADDR) c with storeErrTaken := true }) ∧
        exec (.nmi t) s = .next u ∧ exec (.interrupt t) s = .next u) ∧
      (∀ n p, nmiDue u = false → storeErrDue u = false → irqDue u = some (n, p) →
        exec (.interrupt t) s = .next ((pushLevel n p u).onSerge (enterTrap tINTERRUPT (BitVec.ofNat 32 n)))) ∧
      (nmiDue u = false → storeErrDue u = false → irqDue u = none → exec (.interrupt t) s = .next u)) ∧
    (stalled u = true → exec (.interrupt t) s = .next u ∧ exec (.nmi t) s = .next u ∧ exec (.storeerr t) s = .next u) ∧
    (∀ e q, u.serge.buf = e :: q → let v := u.onSerge fun c => { c with buf := q }
      (inOutbound e.addr = true → exec (.storeFailure t) s = .next (storeErr 1 e.addr v)) ∧
      (inOutbound e.addr = false → e.size < 4 → exec (.storeFailure t) s = .next (storeErr 2 e.addr v)) ∧
      (inOutbound e.addr = false → 4 ≤ e.size → exec (.storeFailure t) s = .next u) ∧
      (inOutbound e.addr = false → exec (.storeBufferDrain t) s = .next (v.store e.addr (le e.size e.data.toNat))) ∧
      (inOutbound e.addr = true → outboundUp v = true →
        exec (.storeBufferDrain t) s = .next (v.hostStore (outboundAddr v e.addr) (le e.size e.data.toNat))) ∧
      (inOutbound e.addr = true → outboundUp v = false → exec (.storeBufferDrain t) s = .next (storeErr 1 e.addr v))) ∧
    (u.serge.buf = [] → exec (.storeFailure t) s = .next u ∧ exec (.storeBufferDrain t) s = .next u) ∧
    (∀ l ls, u.serge.levels = l :: ls → exec (.eoi t) s = .next
      ((u.onSerge fun c => { c with levels := ls, taken := c.taken.drop 1 }).wr rIC_CURLVL (curlvlWord l ls.length))) ∧
    (u.serge.levels = [] → exec (.eoi t) s = .next u) ∧
    (∀ n : BitVec 8,
      (128 ≤ n.toNat → exec (.swiset t n) s = .next (u.setFlag (rIC_SRC n.toNat) 16 true) ∧
        exec (.swiclr t n) s = .next (u.setFlag (rIC_SRC n.toNat) 16 false)) ∧
      (n.toNat < 128 → exec (.swiset t n) s = .next u ∧ exec (.swiclr t n) s = .next u))

/-- Timers, watchdog, lockstep and locks (R793, R847–R851, R887–R897, R1095): a timer that is enabled starts from LOAD, one that expires
sets EXPIRED and goes on or stops; LOWWSP takes WSP; a key outside its window, a wrong key and the time-out reset the core, a key in
time restarts the window; the warning is set at three quarters; a lockstep mismatch halts the core and resets it; scrubs count; LOCK sets a
region's lock once. -/
def Obligations.TimersAndMonitors : Prop :=
  ∀ (t : Nat) (s : State), Acts [] t s →
    let u := s.at t
    (∀ (n : Fin 4) (w : Word), let v := u.wr (rTIMER_CTRL n.val) (setBit w 0 true &&& 0x0000FF07#32)
      (u.flag (rTIMER_CTRL n.val) 0 = false →
        exec (.timerEnable t n w) s = .next (v.wr (rTIMER_COUNT n.val) (v.rd (rTIMER_LOAD n.val)))) ∧
      (u.flag (rTIMER_CTRL n.val) 0 = true → exec (.timerEnable t n w) s = .next v)) ∧
    (∀ n : Fin 4, let v := u.setFlag (rTIMER_STAT n.val) 0 true
      (u.flag (rTIMER_CTRL n.val) 0 = false → exec (.timerExpiry t n) s = .next u) ∧
      (u.flag (rTIMER_CTRL n.val) 0 = true → v.flag (rTIMER_CTRL n.val) 1 = true →
        exec (.timerExpiry t n) s = .next (v.wr (rTIMER_COUNT n.val) (v.rd (rTIMER_LOAD n.val)))) ∧
      (u.flag (rTIMER_CTRL n.val) 0 = true → v.flag (rTIMER_CTRL n.val) 1 = false →
        exec (.timerExpiry t n) s = .next ((v.setFlag (rTIMER_CTRL n.val) 0 false).wr (rTIMER_COUNT n.val) 0#32))) ∧
    exec (.lowwspWrite t) s = .next (u.wr rSPILL_LOWWSP (u.rd rSPILL_WSP)) ∧
    (u.flag rTWEED_WDCTRL 0 = false → ∀ v : BitVec 16, exec (.wdservice t v) s = .next u ∧
      exec (.watchdogTimeout t) s = .next u ∧ exec (.watchdogWarning t) s = .next u) ∧
    (u.flag rTWEED_WDCTRL 0 = true → let w := u.onSerge fun c => { c with wdKey := none }
      exec (.wdservice t 0xA5C3#16) s = .next (u.onSerge fun c => { c with wdKey := some u.now }) ∧
      (∀ v : BitVec 16, v ≠ 0xA5C3#16 → v ≠ 0x5A3C#16 → exec (.wdservice t v) s = .next (wdReset 2 w)) ∧
      (∀ k, u.serge.wdKey = some k → 3 * (u.now - k) ≤ 320 →
        (16 * (u.now - u.serge.wdAt) < u.serge.wdWin * u.serge.wdTimeout * 1000000 →
          exec (.wdservice t 0x5A3C#16) s = .next (wdReset 1 w)) ∧
        (u.serge.wdWin * u.serge.wdTimeout * 1000000 ≤ 16 * (u.now - u.serge.wdAt) → exec (.wdservice t 0x5A3C#16) s =
          .next (w.onSerge fun c => { c with
            wdAt := u.now, wdTimeout := u.fld rTWEED_WDCTRL 31 16, wdWin := u.fld rTWEED_WDCTRL 7 4 }))) ∧
      (98 * 4 * u.serge.wdTimeout * 1000000 ≤ 400 * (u.now - u.serge.wdAt) → exec (.watchdogTimeout t) s = .next (wdReset 0 u)) ∧
      (98 * 3 * u.serge.wdTimeout * 1000000 ≤ 400 * (u.now - u.serge.wdAt) →
        exec (.watchdogWarning t) s = .next (u.setFlag rTWEED_WDSTAT 0 true))) ∧
    (∀ parity : Bool, let v := setSticky 1 0xFF 0 u
      let w := if parity then setSticky 2 0xFF 0 v else v
      (w.dying = false → exec (.lockstepMismatch t parity) s =
        .next (assertReset 4 (w.onSerge fun c => { c with halted := true, buf := [] }))) ∧
      (w.dying = true → exec (.lockstepMismatch t parity) s = .next (assertReset 4 w))) ∧
    (∀ core stripe, exec (.scrub t core stripe) s = .next ((u.addSat rCFAULT_ECCCORR core).addSat rACC_STRCORR stripe)) ∧
    (∀ (k : Fin 12) (r : Fin 32) (w : Word),
      (u.flag (rCHK_CFG k.val r.val) 1 = true → exec (.lock t k r w) s = .next u) ∧
      (u.flag (rCHK_CFG k.val r.val) 1 = false →
        exec (.lock t k r w) s = .next (plainWrite (rCHK_CFG k.val r.val) (setBit w 1 true) u)))

/-! ## Tweed -/

/-- Clock roots, PLLs and gates (R921–R968): a root switch starts only where its source is legal and its block idle, completes on the new
source, or falls back; XIN and REFCLK windows; a PLL that loses lock moves its roots to IRC96, retries three times, then parks; the IRC96
trim; SSC, PLL_OUT and CLKOUT settings; a gate closes when its block is idle, or at the time-out with its sticky bit, and opens at once. -/
def Obligations.ClocksAndGates : Prop :=
  ∀ (t : Nat) (s : State), Acts [] t s →
    let u := s.at t
    (∀ (r : Fin 41) (src : BitVec 2) (idle : Bool), let a := rTWEED_ROOTSEL r.val
      (u.flag a 9 = true → exec (.rootselGo t r src idle) s = .next u) ∧
      (r.val = 6 → u.flag a 9 = false → u.locked = true → src ≠ 0#2 → exec (.rootselGo t r src idle) s = .next u) ∧
      (let w := field 8 8 1 ||| field 1 0 src.toNat
       let v := (u.wr a (u.rd a &&& ~~~(w &&& 0x1C00#32))).setFld a 1 0 (bits w 1 0)
       let go := (setRoot r.val (fun x => { x with target := some (v.fld a 1 0), old := rootCur v r.val }) v).setFlag a 9 true
       u.flag a 9 = false → srcLegal r.val (bits w 1 0) = true →
        (9 ≤ r.val → (idleNeeded r.val = false ∨ idle = true) → exec (.rootselGo t r src idle) s = .next go) ∧
        (idleNeeded r.val = true → idle = false → exec (.rootselGo t r src idle) s = .next (v.setFlag a 11 true)) ∧
        (r.val ≤ 5 → v.fld a 1 0 = 0 → v.flag rTWEED_CLKSTAT 1 = false → exec (.rootselGo t r src idle) s = .next (v.setFlag a 11 true)) ∧
        (r.val ≤ 5 → v.flag rTWEED_CLKSTAT 1 = true → exec (.rootselGo t r src idle) s = .next (pllHold r.val go)))) ∧
    (∀ (r : Fin 41) (src : Nat), (nth u.tweed.roots r.val).target = some src →
      let v := (setRoot r.val (fun x => { x with target := none }) u).setFlag (rTWEED_ROOTSEL r.val) 9 false
      exec (.rootSwitchDone t r) s = .next ((setCur r.val src (v.setFlag (rTWEED_ROOTSEL r.val) 10 true)).raise rTWEED_CLKINT 5) ∧
      (let w := (v.setFlag (rTWEED_ROOTSEL r.val) 12 true).raise rTWEED_CLKINT 6
       exec (.rootSwitchTimeout t r true) s = .next (setCur r.val (nth u.tweed.roots r.val).old w) ∧
       exec (.rootSwitchTimeout t r false) s = .next (setSticky 33 8 r.val (setCur r.val (ircSrc r.val) w)))) ∧
    (∀ (count : Nat) (ended : Bool), let v := u.setFld rTWEED_MONCNT 15 0 count
      windowFails 96 (xinMHz v) (xinTol v) count ended = false →
        exec (.xinWindowFail t count ended) s = .next (v.setFlag rTWEED_CLKSTAT 0 true)) ∧
    (∀ (count : Nat) (ended : Bool), let v := u.setFld rTWEED_MONCNT 15 0 count
      let w := (((v.onTweed fun x => { x with xinGood := u.now }).setFlag rTWEED_CLKSTAT 0 false).setFlag rTWEED_CLKSTAT 1 false).raise
        rTWEED_CLKINT 0
      let x := (List.range 6).foldl (fun s p => refFallback p s) w
      windowFails 96 (xinMHz v) (xinTol v) count ended = true →
        ((List.range 6).any (fun p => decide (rootCur w p = 0)) = true →
          exec (.xinWindowFail t count ended) s = .next (clkFail (setSticky 32 8 0 (x.setFlag rTWEED_CLKSTAT 3 true)))) ∧
        ((List.range 6).any (fun p => decide (rootCur w p = 0)) = false → exec (.xinWindowFail t count ended) s = .next x)) ∧
    (u.flag rTWEED_CLKSTAT 1 = false →
      (u.tweed.xinGood + 1000000000 ≤ u.now → exec (.xinok1s t) s =
        .next (((u.setFlag rTWEED_CLKSTAT 0 true).setFlag rTWEED_CLKSTAT 1 true).raise rTWEED_CLKINT 1)) ∧
      (u.now < u.tweed.xinGood + 1000000000 → exec (.xinok1s t) s = .next u)) ∧
    (∀ (count : Nat) (ended : Bool), let v := u.setFld rTWEED_MONCNT 31 16 count
      (windowFails (xinMHz v) 100 (v.fld rTWEED_MONTOL 12 8) count ended = true → exec (.refclkWindowFail t count ended) s =
        .next (setSticky 34 8 0 ((v.setFlag rTWEED_CLKSTAT 4 true).raise rTWEED_CLKINT 3))) ∧
      (windowFails (xinMHz v) 100 (v.fld rTWEED_MONTOL 12 8) count ended = false → exec (.refclkWindowFail t count ended) s =
        .next (v.setFlag rTWEED_CLKSTAT 4 false))) ∧
    (∀ p : Fin 6,
      (u.flag (rTWEED_PLLSTAT p.val) 3 = true → exec (.pllLockLoss t p) s = .next u ∧ exec (.pllRetryExpiry t p true) s = .next u ∧
        exec (.pllReferenceLoss t p true) s = .next u) ∧
      (u.flag (rTWEED_PLLSTAT p.val) 3 = false →
        (let v := setPll p.val (fun x => { x with retries := some (x.retries.getD 0), moved := x.moved ++ rootsOn u p.val })
          ((u.setFlag (rTWEED_PLLSTAT p.val) 0 false).raise rTWEED_CLKINT 4)
         exec (.pllLockLoss t p) s = .next ((rootsOn u p.val).foldl (fun s r => setCur r (ircSrc r) s) v)) ∧
        (∀ k, (nth u.tweed.plls p.val).retries = some k →
          (k < 2 → exec (.pllRetryExpiry t p false) s = .next (setPll p.val (fun x => { x with retries := some (k + 1) }) u)) ∧
          (2 ≤ k → exec (.pllRetryExpiry t p false) s = .next (clkFail (setSticky 35 8 p.val
            (((setPll p.val (fun x => { x with retries := none, moved := [] }) u).setFlag (rTWEED_PLLSTAT p.val) 3 true).onTweed fun x =>
              { x with parkFail := true }))))) ∧
        exec (.pllReferenceLoss t p false) s = .next (pllHold p.val u) ∧
        exec (.pllReferenceLoss t p true) s = .next (pllRetry p.val true (pllHold p.val u)))) ∧
    (u.felt.xrtcFail = true → ∀ count, exec (.irc96TrimWindow t count) s = .next (u.setFlag rTWEED_IRC96TRIM 16 true)) ∧
    (u.felt.xrtcFail = false → ∀ count, let v := u.setFlag rTWEED_IRC96TRIM 16 false
      let good (n : Nat) (s : State) : State :=
        (s.onTweed fun x => { x with trimGood := n }).setFlag rTWEED_IRC96TRIM 17 (decide (n = 4))
      (2992500 ≤ count → count ≤ 3007500 → exec (.irc96TrimWindow t count) s = .next (good (min 4 (v.tweed.trimGood + 1)) v)) ∧
      (3015000 < count → exec (.irc96TrimWindow t count) s = .next (good 0 (v.setFld rTWEED_IRC96TRIM 9 0
        (if Config.trimUp then v.fld rTWEED_IRC96TRIM 9 0 - 1 else min 1023 (v.fld rTWEED_IRC96TRIM 9 0 + 1)))))) ∧
    (∀ p : Fin 6, (p.val = 0 ∨ p.val = 1 ∨ p.val = 3 ∨ p.val = 5) → u.flag (rTWEED_PLLSTAT p.val) 0 = true →
      exec (.sscApply t p) s = .next (setPll p.val (fun x => { x with ssc := u.rd (rTWEED_SSC p.val) }) u)) ∧
    (∀ p : Fin 6, (p.val = 2 ∨ p.val = 4) → exec (.sscApply t p) s = .next u) ∧
    (∀ w : Word, exec (.plloutWrite t w) s =
      .next ((u.wr rTWEED_PLLOUT (w &&& 0x3FFFFFFF#32)).setFlag (rTWEED_PLLSTAT 5) 0 false)) ∧
    (∀ (n : Fin 2) (w : Word), exec (.clkoutcfgWrite t n w) s = .next ((u.wr (rTWEED_CLKOUTCFG n.val) (w &&& 0xFF01#32)).onTweed fun x =>
      { x with clkout := upd x.clkout n.val (fun _ => w &&& 0xFF01#32) })) ∧
    (∀ (r : Fin 3) (b : Fin 16), b.val < ckenBits r.val → u.dying = false →
      (u.locked = true → ckenLocked r.val b.val = true → ∀ idle, exec (.gateRequest t r b idle) s = .next u) ∧
      (u.locked = false → let v := u.setFlag (rTWEED_CKEN r.val) b.val false
        (v.gated r.val b.val = true → ∀ idle, exec (.gateRequest t r b idle) s = .next v) ∧
        (v.gated r.val b.val = false →
          exec (.gateRequest t r b true) s = .next (gateClose r.val b.val v) ∧
          exec (.gateRequest t r b false) s = .next (v.onTweed fun x => { x with
            gating := if (r.val, b.val) ∈ x.gating then x.gating else x.gating ++ [(r.val, b.val)] }))) ∧
      exec (.gateOpen t r b) s = .next (((u.setFlag (rTWEED_CKEN r.val) b.val true).setFlag (rTWEED_GATESTAT r.val) b.val false).onTweed
        fun x => { x with gating := x.gating.filter (· ≠ (r.val, b.val)) })) ∧
    (∀ (r : Fin 3) (b : Fin 16),
      ((r.val, b.val) ∉ u.tweed.gating → exec (.gateTimeout t r b) s = .next u) ∧
      ((r.val, b.val) ∈ u.tweed.gating →
        let v := ((gateClose r.val b.val u).wr rTWEED_GATELAST (field 7 0 b.val ||| field 15 8 r.val)).onTweed fun x =>
          { x with lost := x.lost ++ [(r.val, b.val)] }
        exec (.gateTimeout t r b) s = .next (setSticky 36 8 (v.rd rTWEED_GATELAST).toNat (v.raise rTWEED_CLKINT 7))))

/-! ## Felt -/

/-- Time (R969–R995): an XRTC cycle advances SUB, EVT and RTC by the adjusted rate; the alarm compares RTC; a PPS edge that lies in the window
disciplines the clock, an edge outside is an outlier; the loss of PPS is holdover; a leap second moves UTCOFF; SET_TIME runs or is refused
with its code; a posted write lands unless the supply is switching. -/
def Obligations.VaultTime : Prop :=
  ∀ (t : Nat) (s : State),
    let u := s.at t
    (u.power.st = .off → exec (.xrtcCycle t) s = .next u) ∧
    (let v := adjCycle u
     let sub := v.felt.sub + ((if v.felt.xrtcFail then 524 else 512) * 2 ^ 16 + adjOf v).toNat
     let w := v.onFelt fun f => { f with sub := sub, evt := max f.evt (sub / 2 ^ 16) }
     let x := if w.felt.xrtcFail then w else alarm (w.onFelt fun f => { f with rtc := (f.rtc + 1) % 2 ^ 48 })
     u.power.st ≠ .off → x.sfld rFELT_LEAP 16 = 0 → (∀ a ∈ rwsRegs, x.rd (a + 4) = ~~~ (x.rd a)) → exec (.xrtcCycle t) s = .next x) ∧
    (u.flag rFELT_ALARM_HI 31 = true →
      (u.felt.rtc = (u.rd rFELT_ALARM_LO).toNat + 2 ^ 32 * u.fld rFELT_ALARM_HI 15 0 → exec (.alarm t) s = .next (u.raise rFELT_FINTSTAT 3)) ∧
      (u.felt.rtc ≠ (u.rd rFELT_ALARM_LO).toNat + 2 ^ 32 * u.fld rFELT_ALARM_HI 15 0 → exec (.alarm t) s = .next u)) ∧
    (u.flag rFELT_ALARM_HI 31 = false → exec (.alarm t) s = .next u) ∧
    (∀ cap : BitVec 64, let e := ppsErr cap.toNat
      let v := (u.wr rFELT_PPSERR (loWord (unsigned 32 e))).raise rFELT_FINTSTAT 4
      (u.flag rFELT_PPSCFG 0 = false → exec (.ppsEdge t cap) s = .next u) ∧
      (u.flag rFELT_PPSCFG 0 = true → u.mainOn = true → u.felt.slewRem ≠ 0 → exec (.ppsEdge t cap) s = .next v) ∧
      (u.flag rFELT_PPSCFG 0 = true → u.mainOn = true → u.felt.slewRem = 0 → u.felt.ppsAt = none →
        (e.natAbs ≤ v.fld rFELT_PPSCFG 23 16 * 10000 → exec (.ppsEdge t cap) s = .next (ppsLock (ppsAdjust e (v.onFelt fun f => { f with
          ppsRun := f.ppsRun + 1, ppsAt := some cap.toNat, outliers := [], adjHeld := false, adjUntil := f.evt + 2 ^ 24 })))) ∧
        (v.fld rFELT_PPSCFG 23 16 * 10000 < e.natAbs → exec (.ppsEdge t cap) s = .next (ppsOutlier e v)))) ∧
    (u.fld rFELT_FSTAT 10 8 = 1 →
      (u.felt.ppsAt.getD 0 + u.fld rFELT_PPSCFG 31 24 * 1000000000 ≤ evtNs u.felt.evt →
        exec (.ppsLoss t) s = .next (setDisc 3 (u.onFelt fun f => { f with ppsRun := 0 }))) ∧
      (evtNs u.felt.evt < u.felt.ppsAt.getD 0 + u.fld rFELT_PPSCFG 31 24 * 1000000000 → exec (.ppsLoss t) s = .next u)) ∧
    (u.sfld rFELT_LEAP 16 = 0 → exec (.leapSecond t) s = .next u) ∧
    (u.sfld rFELT_LEAP 16 ≠ 0 →
      let off := signed 64 (u.rd64 rFELT_UTCOFF_LO rFELT_UTCOFF_HI) - u.sfld rFELT_LEAP 16 * 2 ^ 24
      let v := (u.wr64 rFELT_UTCOFF_LO rFELT_UTCOFF_HI (unsigned 64 off)).wr rFELT_LEAP 0#32
      exec (.leapSecond t) s = .next (if v.mainOn then timemap v else v)) ∧
    (Acts [] t s → ∀ (princ : BitVec 4) (d : Bytes),
      (setTimeCheck u d ≠ aOK → exec (.setTime t princ d) s = .next (wrapUp u)) ∧
      (setTimeCheck u d = aOK → exec (.setTime t princ d) s =
        .next (wrapUp (procRan (okey 0x8001 0) princ.toNat aOK (setTime d u).2)))) ∧
    (u.now < u.felt.switchEnd → exec (.feltWriteLands t) s = .next u) ∧
    (∀ a w q, u.felt.switchEnd ≤ u.now → u.felt.queue = (a, w) :: q →
      exec (.feltWriteLands t) s = .next (feltApply a w (u.onFelt fun f => { f with queue := q })))

/-- Tamper sources and shadows (R998–R1023): a sensor's sample reaches its filter, a source under test is not sampled; the cell's end,
a glitch and XRTC's failure trip their sources and set their sticky bits; a mismatch of a shadow is source 19 and a full reset; the two
halves of a shadowed write must agree and come in time; TBIST runs one source at a time and logs its result; the supply switches over. -/
def Obligations.TamperAndShadows : Prop :=
  ∀ (t : Nat) (s : State),
    let u := s.at t
    (∀ (src : Fin 20) (v : Bool), (u.power.st = .off ∨ u.felt.tbist = some src.val) → exec (.tamperSample t src v) s = .next u) ∧
    (∀ (src : Fin 20) (v : Bool), u.power.st ≠ .off → u.felt.tbist ≠ some src.val →
      (src.val < 8 → exec (.tamperSample t src v) s = .next (pinSample src.val v u)) ∧
      ((src.val = 9 ∨ src.val = 11 ∨ src.val = 12 ∨ (14 ≤ src.val ∧ src.val ≤ 17)) →
        exec (.tamperSample t src v) s = .next (filterSample src.val (u.fld rFELT_SENSCFG 10 8) v u))) ∧
    (let v := u.onFelt fun f => { f with vbat := false, cellOut := true }
     u.power.st ≠ .off → u.power.io18 = true →
      (u.felt.tbist ≠ some 8 → exec (.cellOut t) s = .next (tripOn 8 (feltSticky 226 0 (v.raise rFELT_FINTSTAT 1)))) ∧
      (u.felt.tbist = some 8 → exec (.cellOut t) s = .next v)) ∧
    (u.power.st = .run → u.felt.tbist ≠ some 10 → exec (.glitch t) s = .next (tripOff 10 (tripOn 10 u))) ∧
    (u.power.st ≠ .run → exec (.glitch t) s = .next u) ∧
    (u.power.st ≠ .off → u.felt.tbist ≠ some 13 → ∀ count,
      (230 ≤ count → count ≤ 294 →
        exec (.xrtcMonitorWindow t count) s = .next (tripOff 13 (u.onFelt fun f => { f with xrtcFail := false }))) ∧
      ((count < 230 ∨ 294 < count) → (nth u.felt.src 13).tripped = false →
        exec (.xrtcMonitorWindow t count) s = .next (tripOn 13 (feltSticky 228 0 (u.onFelt fun f => { f with xrtcFail := true }))))) ∧
    (∀ a : Word, a.toNat ∈ rwsRegs →
      let v := feltSticky 225 (a.toNat - 0x40010000) (tamperEvent 19 u)
      let w := v.wr (a.toNat + 4) (~~~ (v.rd a.toNat))
      exec (.shadowMismatch t a) s = .next (if w.running then assertReset 5 w else w)) ∧
    (Acts [] t s → ∀ (a w : Word) (inTime : Bool),
      (a.toNat ∈ rwsRegs → u.felt.half = none →
        exec (.shadowWrite t a w inTime) s = .next (u.onFelt fun f => { f with half := some (a.toNat, w) })) ∧
      (∀ h, a.toNat ∈ rwsRegs → u.felt.half = some h → exec (.shadowWrite t a w inTime) s = .next (shadowReject a.toNat u)) ∧
      (∀ x v, a.toNat ∉ rwsRegs → a.toNat = x + 4 → x ∈ rwsRegs → u.felt.half = some (x, v) →
        (w = ~~~ v → inTime = true → exec (.shadowWrite t a w inTime) s = .next (feltPost x v (u.onFelt fun f => { f with half := none }))) ∧
        ((w ≠ ~~~ v ∨ inTime = false) → exec (.shadowWrite t a w inTime) s = .next (shadowReject a.toNat u)))) ∧
    (Acts [] t s → ∀ (princ : BitVec 4) (src : BitVec 8),
      (18 < src.toNat → exec (.tbist t princ src) s = .next (wrapUp u)) ∧
      (src.toNat ≤ 18 → u.felt.tbist = none → exec (.tbist t princ src) s = .next (wrapUp (procSettle
        (procStart (okey 0x8032 0) princ.toNat (u.onFelt fun f => { f with tbist := some src.toNat })))))) ∧
    (Acts [] t s → ∀ src pass, u.felt.tbist = some src →
      let v := setSrc src (fun x => { x with abnormal := 0 })
        (((u.setFlag rFELT_TBISTRES src pass).setFlag rFELT_TBISTRUN src true).onFelt fun f => { f with tbist := none })
      let w := (feltLog 5 src pass.toNat 0 v).raise rFELT_FINTSTAT 6
      exec (.tbistDone t pass) s = .next (wrapUp (cellPersists src (if pass then w else feltSticky 229 src w)))) ∧
    (∀ b, (u.power.st = .off → exec (.supplySwitchover t b) s = .next u) ∧
      (u.power.st ≠ .off → exec (.supplySwitchover t b) s = .next
        (u.onFelt fun f => { f with onVbat := b, switchEnd := u.now + Config.freeNat u.freeCtr % 1001 }).fresh))

/-! ## Fuses, lifecycle and boot -/

/-- Fuse programming (R1046–R1056, R1061–R1063): each PROGCMD is refused with its code in PROGSTAT or starts its words, and none starts
while one runs or in the last breath; words that took all their bits end it with code 0, one that did not with READBACK and its sticky bit;
a re-sense needs 20 °C of drift; an advance to an allowed state programs its bit and asserts the full reset 9; CERTCMD refuses or programs
the chain's digest. -/
def Obligations.FuseCommands : Prop :=
  ∀ (t : Nat) (s : State), Acts [(0, 0)] t s →
    let u := s.at t
    (∀ (a : BitVec 10) (d : Word) (temp : Int), let v := u.wr rFUSE_PROGDATA d
      (u.fuse.op.isSome = true → exec (.fuseData t a d temp) s = .next v ∧ exec (.fuseCritical t a d temp) s = .next v ∧
        exec (.fuseThermo t a d temp) s = .next v) ∧
      (u.dying = false → u.fuse.op = none →
        (fuseCheck v 1 a.toNat d temp ≠ 0 → exec (.fuseData t a d temp) s = .next (fuseCode (fuseCheck v 1 a.toNat d temp) v)) ∧
        (fuseCheck v 1 a.toNat d temp = 0 → exec (.fuseData t a d temp) s = .next (fuseBegin 1 a.toNat (dataWords a.toNat d) v)) ∧
        (fuseCheck v 2 a.toNat d temp ≠ 0 → exec (.fuseCritical t a d temp) s = .next (fuseCode (fuseCheck v 2 a.toNat d temp) v)) ∧
        (fuseCheck v 2 a.toNat d temp = 0 → exec (.fuseCritical t a d temp) s = .next (fuseBegin 2 a.toNat (critWords a.toNat d) v)) ∧
        (fuseCheck v 3 a.toNat d temp ≠ 0 → exec (.fuseThermo t a d temp) s = .next (fuseCode (fuseCheck v 3 a.toNat d temp) v)) ∧
        (fuseCheck v 3 a.toNat d temp = 0 → exec (.fuseThermo t a d temp) s = .next (fuseBegin 3 a.toNat
          ((List.range (d.toNat - thermoOf v a.toNat)).flatMap (fun i => stepWords a.toNat (thermoOf v a.toNat + i + 1))) v)))) ∧
    (∀ temp : Int, let v := u.wr rFUSE_PROGDATA 0#32
      u.dying = false → u.fuse.op = none →
        (fuseCheck v 4 0 0#32 temp ≠ 0 → exec (.genroot t temp) s = .next (fuseCode (fuseCheck v 4 0 0#32 temp) v)) ∧
        (∀ b w, fuseCheck v 4 0 0#32 temp = 0 → drbgNow 32 v = (some b, w) →
          exec (.genroot t temp) s = .next (fuseBegin 4 0 (rootWords b) w)) ∧
        (∀ w, fuseCheck v 4 0 0#32 temp = 0 → drbgNow 32 v = (none, w) → exec (.genroot t temp) s = .next (fuseCode fcENTROPY w))) ∧
    (∀ (o : FuseOp) (good : Nat) (part : Word), u.fuse.op = some o →
      (let v := ((fuseProgramAll (o.words.take good) u).onFuse fun f => { f with op := none }).setFlag rFUSE_STAT 5 false
       o.words.length ≤ good → exec (.fuseProgrammingDone t good part) s = .next (wrapUp (fuseCode 0 v))) ∧
      (∀ p w, (o.words.drop good).head? = some (p, w) →
        let v := ((fuseProgram p (w &&& part) (fuseProgramAll (o.words.take good) u)).onFuse fun f => { f with op := none }).setFlag rFUSE_STAT 5 false
        (v.dying = false → exec (.fuseProgrammingDone t good part) s = .next (wrapUp (setSticky 16 10 o.addr (fuseCode fcREADBACK v)))) ∧
        (v.dying = true → exec (.fuseProgrammingDone t good part) s = .next (wrapUp (v.setFlag rFUSE_PROGSTAT 0 false))))) ∧
    (∀ (l : List Sense) (temp : Int), (temp - signed 16 (u.fld rFUSE_TEMPREF 15 0)).natAbs < 200 →
      exec (.fuseResense t l temp) s = .next u) ∧
    (∀ (l : List Sense) (temp : Int), u.fuse.op = none → 200 ≤ (temp - signed 16 (u.fld rFUSE_TEMPREF 15 0)).natAbs →
      let v := senseAll l (u.wr rFUSE_TEMPREF (loWord (unsigned 16 temp)))
      let was (k : Nat) : Nat × Bool := (if k < 21 then (critOf (u.wr rFUSE_TEMPREF (loWord (unsigned 16 temp))) k).toNat
        else thermoOf (u.wr rFUSE_TEMPREF (loWord (unsigned 16 temp))) (k - 21), u.fuse.marginal.contains k)
      (List.range 37).find? (fun k => decide (v.getD k (0, false) ≠ was k)) = none →
        exec (.fuseResense t l temp) s = .next (u.wr rFUSE_TEMPREF (loWord (unsigned 16 temp)))) ∧
    (∀ (princ : BitVec 4) (x : BitVec 8), 1 ≤ x.toNat → x.toNat ≤ 4 →
      (lifeAllowed u x.toNat = false → exec (.lifecycleAdvance t princ x) s = .next (wrapUp u)) ∧
      (lifeAllowed u x.toNat = true → u.dying = false → u.fuse.op = none → exec (.lifecycleAdvance t princ x) s =
        .next (wrapUp (resetRequest 9 (fuseProgramAll (critWords 0 (BitVec.ofNat 32 (2 ^ (x.toNat - 1)))) u))))) ∧
    (u.fuse.life ≠ .personalise → exec (.certcmdGo t) s = .next (u.wr rBOOT_CERTSTAT 2#32)) ∧
    (let a := (u.rd rBOOT_CERTADDR).toNat
     let n := u.fld rBOOT_CERTLEN 13 0
     let chain := u.load a n
     let d := fit 32 (Config.sha256 chain)
     u.fuse.life = .personalise → bit (critOf u 4) 2 = false → areaProgrammed u 256 28 1 = false → 0 < n → n ≤ 8192 → inCore a n = true →
      u.dying = false → u.fuse.op = none → fit 64 (Config.certPub chain) = slotPub u 17 → exec (.certcmdGo t) s =
        .next ((fuseProgramAll ((List.range 8).flatMap (fun i => dataWords (dataPhys 256 (28 + i)) (wordOf (slice d (4 * i) 4))) ++
          critWords 4 4#32) (u.onBoot fun b => { b with chain := chain, chainBad := false })).wr rBOOT_CERTSTAT 1#32))

/-- Firmware, recovery, debug and the diagnostic log (R1070–R1090, R1100, R1106): a recovery block is answered NAK or ACK and gathered;
FW_OFFSET and FW_CHUNK erase and program the inactive slot once; the flash operation ends; FW_COMMIT and CONFIRM move the preference record;
a warm restart starts when none runs; a debug challenge is answered once; DIAGPUSH writes at most 1,000 entries a second; a standing sticky
bit is set again. -/
def Obligations.FirmwareAndDebug : Prop :=
  ∀ (t : Nat) (s : State), Acts [] t s →
    let u := s.at t
    (∀ (d : Bytes) (ok : Bool),
      (u.boot.recovery = false → exec (.recoveryBlock t d ok) s = .next u) ∧
      (u.boot.recovery = true → ok = false → exec (.recoveryBlock t d ok) s = .next (u.onBoot fun b => { b with uartAns := some 0x15 })) ∧
      (u.boot.recovery = true → ok = true → (u.boot.uart ++ d).length < 512 → exec (.recoveryBlock t d ok) s =
        .next (u.onBoot fun b => { b with uart := u.boot.uart ++ d, uartAns := some 0x06 })) ∧
      (u.boot.recovery = true → ok = true → 512 ≤ (u.boot.uart ++ d).length → hdrValid ((u.boot.uart ++ d).take 512) = false →
        exec (.recoveryBlock t d ok) s = .next (u.onBoot fun b => { b with uart := [], uartAns := some 0x06 }))) ∧
    (∀ v : Word,
      (u.boot.flashOp.isSome = true → exec (.fwOffset t v) s = .next u) ∧
      (u.boot.flashOp = none → v.toNat ≤ 0x1FFFFF → exec (.fwOffset t v) s = .next (u.onBoot fun b => { b with offset := v.toNat })) ∧
      (u.boot.flashOp = none → 0x1FFFFF < v.toNat → v.toNat < 0x80000000 → exec (.fwOffset t v) s = .next u) ∧
      (u.boot.flashOp = none → 0x80000000 ≤ v.toNat → exec (.fwOffset t v) s =
        .next (ospiStat (u.onBoot fun b => { b with offset := 0, flashOp := some (.erase (inactiveB u)) })))) ∧
    (∀ d : Bytes, u.boot.flashOp = none → d ≠ [] → u.boot.offset + d.length ≤ 0x200000 →
      u.boot.written.any (fun r => decide (r.1 < u.boot.offset + d.length ∧ u.boot.offset < r.1 + r.2)) = false →
      exec (.fwChunk t d) s = .next (ospiStat (u.onBoot fun b => { b with
        offset := u.boot.offset + d.length, written := b.written ++ [(u.boot.offset, d.length)]
        flashOp := some (.program (slotBase (inactiveB u) + u.boot.offset) d) }))) ∧
    (∀ d : Bytes, u.boot.flashOp = none → 0x200000 < u.boot.offset + d.length → exec (.fwChunk t d) s = .next u) ∧
    (Acts [(0, 12)] t s →
      (u.boot.flashOp = none → exec (.ospiOperationDone t) s = .next (wrapUp u)) ∧
      (∀ b, u.boot.flashOp = some (.erase b) → exec (.ospiOperationDone t) s = .next (wrapUp (ospiStat
        (u.onBoot fun x => { x with flashOp := none, flash := flashErase b x.flash, written := [] })))) ∧
      (∀ off d, u.boot.flashOp = some (.program off d) → exec (.ospiOperationDone t) s = .next (wrapUp (ospiStat
        (u.onBoot fun x => { x with flashOp := none, flash := flashPut off d x.flash }))))) ∧
    (∀ princ : BitVec 4, u.boot.warm = .idle → u.boot.flashOp = none →
      imageCheck u (slotImage u (inactiveB u)).1 (slotImage u (inactiveB u)).2 = 0 → exec (.fwCommit t princ) s =
        .next (wrapUp (procRan (okey 0xF030 3) princ.toNat aOK
          (prefPut { prefOf u with slotB := inactiveB u, trial := true, tries := 3 } u)))) ∧
    (∀ princ : BitVec 4, u.boot.flashOp.isSome = true → exec (.fwCommit t princ) s = .next (wrapUp u)) ∧
    (∀ (key : BitVec 16) (temp : Int),
      (key ≠ 0xC0F1#16 → exec (.confirm t key temp) s = .next u) ∧
      (key = 0xC0F1#16 → u.boot.header ≠ [] →
        let rb := hfld u.boot.header 0x14 1
        let v := (prefPut { prefOf u with trial := false, rbmin := rb } u).setFlag rBOOT_BOOTSTAT 4 false
        (rb ≤ thermoOf v 0 → exec (.confirm t key temp) s = .next v) ∧
        (thermoOf v 0 < rb → exec (.confirm t key temp) s = .next (fuseStart 3 0 (loWord rb) temp v)))) ∧
    (u.boot.warm = .idle → exec (.warmRestart t) s = .next (wrapUp (warmStart u))) ∧
    (u.boot.warm ≠ .idle → exec (.warmRestart t) s = .next u) ∧
    (debugShut u = true → (∀ sig, exec (.debugResponse t sig) s = .next u) ∧ exec (.debugChallenge t) s = .next u) ∧
    (∀ b v, debugShut u = false → drbgNow 32 (u.onBoot fun b => { b with challenge := none }) = (some b, v) →
      exec (.debugChallenge t) s = .next (v.onBoot fun x => { x with challenge := some (b, v.now) })) ∧
    (∀ sig, debugShut u = false → debugAccepts u sig = true → exec (.debugResponse t sig) s = .next (setSticky 12 10 0
      (((epochRequest { reason := .request } (u.onBoot fun b => { b with challenge := none })).onBoot fun b =>
        { b with unlocked := true }).setFlag rBOOT_DBGSTAT 0 true))) ∧
    (∀ sig, debugShut u = false → debugAccepts u sig = false → exec (.debugResponse t sig) s =
      .next ((u.onBoot fun b => { b with challenge := none }).setFld rBOOT_DBGSTAT 3 1 (u.fld rBOOT_DBGSTAT 3 1 + 1))) ∧
    (∀ w : Word, let sec := u.felt.evt / 2 ^ 24
      let n := if u.diag.pushSec = sec then u.diag.pushes else 0
      (u.power.lb < 5 → n < 1000 → exec (.diagpush t w) s = .next (diagEntry
        { evt := u.felt.evt, type := 3, src := bits w 7 0, code := bits w 31 16, arg := (u.rd rTWEED_DIAGARG).toNat }
        (u.onDiag fun d => { d with pushSec := sec, pushes := n + 1 }))) ∧
      (u.power.lb < 5 → 1000 ≤ n → exec (.diagpush t w) s =
        .next (u.setFld rTWEED_DIAGSTAT 31 16 (satInc 16 (u.fld rTWEED_DIAGSTAT 31 16))))) ∧
    (∀ n : BitVec 8,
      (standing u n.toNat = none → exec (.standingReset t n) s = .next u) ∧
      (∀ src arg, standing u n.toNat = some (src, arg) → n.toNat / 32 ≠ 7 → exec (.standingReset t n) s = .next (setSticky n.toNat src arg u)) ∧
      (∀ src arg, standing u n.toNat = some (src, arg) → n.toNat / 32 = 7 → exec (.standingReset t n) s = .next (feltSticky n.toNat arg u)))

/-! ## Registers -/

/-- How a field takes a written value, by its type (R16, R19): RW takes a legal value and keeps its own over a reserved one, W1C clears the
bits written 1, the write-1-to-set types set them, every other type is not changed. -/
def Obligations.FieldWrites : Prop :=
  ∀ (x : Fld) (old v : Word), x.lo ≤ x.hi → x.hi < 32 →
    (x.ty = .rw → x.legalLo ≤ bits v x.hi x.lo → bits v x.hi x.lo ≤ x.legalHi →
      bits (x.write old v) x.hi x.lo = bits v x.hi x.lo ∧
      ∀ i, i < 32 → (i < x.lo ∨ x.hi < i) → bit (x.write old v) i = bit old i) ∧
    (x.ty = .rw → (bits v x.hi x.lo < x.legalLo ∨ x.legalHi < bits v x.hi x.lo) → x.write old v = old) ∧
    (x.ty = .w1c → ∀ i, i < 32 → bit (x.write old v) i = (bit old i && !(decide (x.lo ≤ i ∧ i ≤ x.hi) && bit v i))) ∧
    (x.ty = .w1sk → ∀ i, i < 32 → bit (x.write old v) i = (bit old i || (decide (x.lo ≤ i ∧ i ≤ x.hi) && bit v i))) ∧
    (x.ty ≠ .rw → x.ty ≠ .w1c → x.ty ≠ .w1sk → x.write old v = old)

/-- REGISTER_WRITE (R16, R21, R46, R677, R962, R965): a window whose unit the spec does not give refuses, an address without a register is a bus
error, a gated block ignores the write and one that lost its state is undefined; a core-private register and a block's register take
it; the host's writes reach the device while its link is up, and an unimplemented location ignores them. -/
def Obligations.RegisterWrites : Prop :=
  ∀ (t : Nat) (w : Word) (env : WriteEnv) (s : State),
    let u := s.at t
    (u.live = false → ∀ a, exec (.registerWrite t a w env) s = .next u) ∧
    (u.live = true →
      (∀ a : Word,
        (unitless a.toNat = true → exec (.registerWrite t (.dev a) w env) s = .refused .unitNotGiven) ∧
        (unitless a.toNat = false → (regAt a.toNat = none ∨ a.toNat % 4 ≠ 0) → exec (.registerWrite t (.dev a) w env) s = .fault .busError) ∧
        (∀ r, unitless a.toNat = false → regAt a.toNat = some r → a.toNat % 4 = 0 →
          (∀ n, a.toNat = rIC_SRC n → n < 256 → srcListed n = true → inPrivate a.toNat = true → exec (.registerWrite t (.dev a) w env) s =
            .next (u.wr a.toNat (r.write (u.rd a.toNat) w))) ∧
          (inPrivate a.toNat = false → regGated u a.toNat = true → exec (.registerWrite t (.dev a) w env) s = .next u) ∧
          (inPrivate a.toNat = false → regGated u a.toNat = false → regLost u a.toNat = true →
            exec (.registerWrite t (.dev a) w env) s = .fault .blockUndefined) ∧
          (inPrivate a.toNat = false → regGated u a.toNat = false → regLost u a.toNat = false → 0x40120000 ≤ a.toNat →
            exec (.registerWrite t (.dev a) w env) s = .next (wrapUp (u.wr a.toNat (r.write (u.rd a.toNat) w)))) ∧
          (inPrivate a.toNat = false → regGated u a.toNat = false → regLost u a.toNat = false → 0x40030000 ≤ a.toNat → a.toNat < 0x40040000 →
            exec (.registerWrite t (.dev a) w env) s = .next (wrapUp (wrChecker a.toNat w u))))) ∧
      (u.reached = false → ∀ k, exec (.registerWrite t (.bar0 k) w env) s = .next u) ∧
      (u.reached = false → ∀ k, exec (.registerWrite t (.bar2 k) w env) s = .next u) ∧
      (u.reached = true → ∀ k : BitVec 14, let off := 4 * k.toNat
        regGated u (bar0 + off) = false →
        (0x4000 ≤ off → off < 0x8000 → exec (.registerWrite t (.bar0 k) w env) s = .next (u.store (bar0 + off) (le 4 w.toNat))) ∧
        (0x1000 ≤ off → off < 0x1100 → exec (.registerWrite t (.bar0 k) w env) s =
          .next (doorbell ((off - 0x1000) / 4) (bits w 9 0) u)) ∧
        (0xE000 ≤ off → exec (.registerWrite t (.bar0 k) w env) s = .next u)) ∧
      (u.reached = true → ∀ k : BitVec 18, let off := 4 * k.toNat
        regGated u (bar0 + off) = false → u.gated 0 2 = false → off < 0x100000 →
        (off % 0x4000 = 0x18 → exec (.registerWrite t (.bar2 k) w env) s = .next (doorbell (off / 0x4000) (bits w 9 0) u)) ∧
        (off % 0x4000 = 0x20 → exec (.registerWrite t (.bar2 k) w env) s = .next (vselWrite (off / 0x4000) (bits w 5 0) u)) ∧
        (0x24 ≤ off % 0x4000 → exec (.registerWrite t (.bar2 k) w env) s = .next u)))
end

