-- ==== Sys2Proof/Laws/State.lean ====
section
/-!
SUPPORT. The fields of a state after each named update: what changed, and everything else as it was. Each holds by unfolding, so that
no later proof unfolds a record update.
-/

namespace Sys2Proof.Laws

open Sys2Proof.Machine

/-! ## onCanvas -/

section
variable (g : Canvas → Canvas) (s : State)
@[simp] theorem onCanvas_pending : (s.onCanvas g).pending = s.pending := rfl
@[simp] theorem onCanvas_regs : (s.onCanvas g).regs = s.regs := rfl
@[simp] theorem onCanvas_mem : (s.onCanvas g).mem = s.mem := rfl
@[simp] theorem onCanvas_latches : (s.onCanvas g).latches = s.latches := rfl
@[simp] theorem onCanvas_hostMem : (s.onCanvas g).hostMem = s.hostMem := rfl
@[simp] theorem onCanvas_now : (s.onCanvas g).now = s.now := rfl
@[simp] theorem onCanvas_freeCtr : (s.onCanvas g).freeCtr = s.freeCtr := rfl
@[simp] theorem onCanvas_canvas : (s.onCanvas g).canvas = g s.canvas := rfl
@[simp] theorem onCanvas_muslin : (s.onCanvas g).muslin = s.muslin := rfl
@[simp] theorem onCanvas_linen : (s.onCanvas g).linen = s.linen := rfl
@[simp] theorem onCanvas_keys : (s.onCanvas g).keys = s.keys := rfl
@[simp] theorem onCanvas_digest : (s.onCanvas g).digest = s.digest := rfl
@[simp] theorem onCanvas_cipher : (s.onCanvas g).cipher = s.cipher := rfl
@[simp] theorem onCanvas_ctx : (s.onCanvas g).ctx = s.ctx := rfl
@[simp] theorem onCanvas_rng : (s.onCanvas g).rng = s.rng := rfl
@[simp] theorem onCanvas_pk : (s.onCanvas g).pk = s.pk := rfl
@[simp] theorem onCanvas_media : (s.onCanvas g).media = s.media := rfl
@[simp] theorem onCanvas_jrn : (s.onCanvas g).jrn = s.jrn := rfl
@[simp] theorem onCanvas_power : (s.onCanvas g).power = s.power := rfl
@[simp] theorem onCanvas_tweed : (s.onCanvas g).tweed = s.tweed := rfl
@[simp] theorem onCanvas_serge : (s.onCanvas g).serge = s.serge := rfl
@[simp] theorem onCanvas_cards : (s.onCanvas g).cards = s.cards := rfl
@[simp] theorem onCanvas_diag : (s.onCanvas g).diag = s.diag := rfl
@[simp] theorem onCanvas_ging : (s.onCanvas g).ging = s.ging := rfl
@[simp] theorem onCanvas_pcie : (s.onCanvas g).pcie = s.pcie := rfl
@[simp] theorem onCanvas_felt : (s.onCanvas g).felt = s.felt := rfl
@[simp] theorem onCanvas_dict : (s.onCanvas g).dict = s.dict := rfl
@[simp] theorem onCanvas_fuse : (s.onCanvas g).fuse = s.fuse := rfl
@[simp] theorem onCanvas_boot : (s.onCanvas g).boot = s.boot := rfl
end

/-! ## onMuslin -/

section
variable (g : Muslin → Muslin) (s : State)
@[simp] theorem onMuslin_pending : (s.onMuslin g).pending = s.pending := rfl
@[simp] theorem onMuslin_regs : (s.onMuslin g).regs = s.regs := rfl
@[simp] theorem onMuslin_mem : (s.onMuslin g).mem = s.mem := rfl
@[simp] theorem onMuslin_latches : (s.onMuslin g).latches = s.latches := rfl
@[simp] theorem onMuslin_hostMem : (s.onMuslin g).hostMem = s.hostMem := rfl
@[simp] theorem onMuslin_now : (s.onMuslin g).now = s.now := rfl
@[simp] theorem onMuslin_freeCtr : (s.onMuslin g).freeCtr = s.freeCtr := rfl
@[simp] theorem onMuslin_canvas : (s.onMuslin g).canvas = s.canvas := rfl
@[simp] theorem onMuslin_muslin : (s.onMuslin g).muslin = g s.muslin := rfl
@[simp] theorem onMuslin_linen : (s.onMuslin g).linen = s.linen := rfl
@[simp] theorem onMuslin_keys : (s.onMuslin g).keys = s.keys := rfl
@[simp] theorem onMuslin_digest : (s.onMuslin g).digest = s.digest := rfl
@[simp] theorem onMuslin_cipher : (s.onMuslin g).cipher = s.cipher := rfl
@[simp] theorem onMuslin_ctx : (s.onMuslin g).ctx = s.ctx := rfl
@[simp] theorem onMuslin_rng : (s.onMuslin g).rng = s.rng := rfl
@[simp] theorem onMuslin_pk : (s.onMuslin g).pk = s.pk := rfl
@[simp] theorem onMuslin_media : (s.onMuslin g).media = s.media := rfl
@[simp] theorem onMuslin_jrn : (s.onMuslin g).jrn = s.jrn := rfl
@[simp] theorem onMuslin_power : (s.onMuslin g).power = s.power := rfl
@[simp] theorem onMuslin_tweed : (s.onMuslin g).tweed = s.tweed := rfl
@[simp] theorem onMuslin_serge : (s.onMuslin g).serge = s.serge := rfl
@[simp] theorem onMuslin_cards : (s.onMuslin g).cards = s.cards := rfl
@[simp] theorem onMuslin_diag : (s.onMuslin g).diag = s.diag := rfl
@[simp] theorem onMuslin_ging : (s.onMuslin g).ging = s.ging := rfl
@[simp] theorem onMuslin_pcie : (s.onMuslin g).pcie = s.pcie := rfl
@[simp] theorem onMuslin_felt : (s.onMuslin g).felt = s.felt := rfl
@[simp] theorem onMuslin_dict : (s.onMuslin g).dict = s.dict := rfl
@[simp] theorem onMuslin_fuse : (s.onMuslin g).fuse = s.fuse := rfl
@[simp] theorem onMuslin_boot : (s.onMuslin g).boot = s.boot := rfl
end

/-! ## onLinen -/

section
variable (g : Linen → Linen) (s : State)
@[simp] theorem onLinen_pending : (s.onLinen g).pending = s.pending := rfl
@[simp] theorem onLinen_regs : (s.onLinen g).regs = s.regs := rfl
@[simp] theorem onLinen_mem : (s.onLinen g).mem = s.mem := rfl
@[simp] theorem onLinen_latches : (s.onLinen g).latches = s.latches := rfl
@[simp] theorem onLinen_hostMem : (s.onLinen g).hostMem = s.hostMem := rfl
@[simp] theorem onLinen_now : (s.onLinen g).now = s.now := rfl
@[simp] theorem onLinen_freeCtr : (s.onLinen g).freeCtr = s.freeCtr := rfl
@[simp] theorem onLinen_canvas : (s.onLinen g).canvas = s.canvas := rfl
@[simp] theorem onLinen_muslin : (s.onLinen g).muslin = s.muslin := rfl
@[simp] theorem onLinen_linen : (s.onLinen g).linen = g s.linen := rfl
@[simp] theorem onLinen_keys : (s.onLinen g).keys = s.keys := rfl
@[simp] theorem onLinen_digest : (s.onLinen g).digest = s.digest := rfl
@[simp] theorem onLinen_cipher : (s.onLinen g).cipher = s.cipher := rfl
@[simp] theorem onLinen_ctx : (s.onLinen g).ctx = s.ctx := rfl
@[simp] theorem onLinen_rng : (s.onLinen g).rng = s.rng := rfl
@[simp] theorem onLinen_pk : (s.onLinen g).pk = s.pk := rfl
@[simp] theorem onLinen_media : (s.onLinen g).media = s.media := rfl
@[simp] theorem onLinen_jrn : (s.onLinen g).jrn = s.jrn := rfl
@[simp] theorem onLinen_power : (s.onLinen g).power = s.power := rfl
@[simp] theorem onLinen_tweed : (s.onLinen g).tweed = s.tweed := rfl
@[simp] theorem onLinen_serge : (s.onLinen g).serge = s.serge := rfl
@[simp] theorem onLinen_cards : (s.onLinen g).cards = s.cards := rfl
@[simp] theorem onLinen_diag : (s.onLinen g).diag = s.diag := rfl
@[simp] theorem onLinen_ging : (s.onLinen g).ging = s.ging := rfl
@[simp] theorem onLinen_pcie : (s.onLinen g).pcie = s.pcie := rfl
@[simp] theorem onLinen_felt : (s.onLinen g).felt = s.felt := rfl
@[simp] theorem onLinen_dict : (s.onLinen g).dict = s.dict := rfl
@[simp] theorem onLinen_fuse : (s.onLinen g).fuse = s.fuse := rfl
@[simp] theorem onLinen_boot : (s.onLinen g).boot = s.boot := rfl
end

/-! ## onKeys -/

section
variable (g : KeyStore → KeyStore) (s : State)
@[simp] theorem onKeys_pending : (s.onKeys g).pending = s.pending := rfl
@[simp] theorem onKeys_regs : (s.onKeys g).regs = s.regs := rfl
@[simp] theorem onKeys_mem : (s.onKeys g).mem = s.mem := rfl
@[simp] theorem onKeys_latches : (s.onKeys g).latches = s.latches := rfl
@[simp] theorem onKeys_hostMem : (s.onKeys g).hostMem = s.hostMem := rfl
@[simp] theorem onKeys_now : (s.onKeys g).now = s.now := rfl
@[simp] theorem onKeys_freeCtr : (s.onKeys g).freeCtr = s.freeCtr := rfl
@[simp] theorem onKeys_canvas : (s.onKeys g).canvas = s.canvas := rfl
@[simp] theorem onKeys_muslin : (s.onKeys g).muslin = s.muslin := rfl
@[simp] theorem onKeys_linen : (s.onKeys g).linen = s.linen := rfl
@[simp] theorem onKeys_keys : (s.onKeys g).keys = g s.keys := rfl
@[simp] theorem onKeys_digest : (s.onKeys g).digest = s.digest := rfl
@[simp] theorem onKeys_cipher : (s.onKeys g).cipher = s.cipher := rfl
@[simp] theorem onKeys_ctx : (s.onKeys g).ctx = s.ctx := rfl
@[simp] theorem onKeys_rng : (s.onKeys g).rng = s.rng := rfl
@[simp] theorem onKeys_pk : (s.onKeys g).pk = s.pk := rfl
@[simp] theorem onKeys_media : (s.onKeys g).media = s.media := rfl
@[simp] theorem onKeys_jrn : (s.onKeys g).jrn = s.jrn := rfl
@[simp] theorem onKeys_power : (s.onKeys g).power = s.power := rfl
@[simp] theorem onKeys_tweed : (s.onKeys g).tweed = s.tweed := rfl
@[simp] theorem onKeys_serge : (s.onKeys g).serge = s.serge := rfl
@[simp] theorem onKeys_cards : (s.onKeys g).cards = s.cards := rfl
@[simp] theorem onKeys_diag : (s.onKeys g).diag = s.diag := rfl
@[simp] theorem onKeys_ging : (s.onKeys g).ging = s.ging := rfl
@[simp] theorem onKeys_pcie : (s.onKeys g).pcie = s.pcie := rfl
@[simp] theorem onKeys_felt : (s.onKeys g).felt = s.felt := rfl
@[simp] theorem onKeys_dict : (s.onKeys g).dict = s.dict := rfl
@[simp] theorem onKeys_fuse : (s.onKeys g).fuse = s.fuse := rfl
@[simp] theorem onKeys_boot : (s.onKeys g).boot = s.boot := rfl
end

/-! ## onRng -/

section
variable (g : Rng → Rng) (s : State)
@[simp] theorem onRng_pending : (s.onRng g).pending = s.pending := rfl
@[simp] theorem onRng_regs : (s.onRng g).regs = s.regs := rfl
@[simp] theorem onRng_mem : (s.onRng g).mem = s.mem := rfl
@[simp] theorem onRng_latches : (s.onRng g).latches = s.latches := rfl
@[simp] theorem onRng_hostMem : (s.onRng g).hostMem = s.hostMem := rfl
@[simp] theorem onRng_now : (s.onRng g).now = s.now := rfl
@[simp] theorem onRng_freeCtr : (s.onRng g).freeCtr = s.freeCtr := rfl
@[simp] theorem onRng_canvas : (s.onRng g).canvas = s.canvas := rfl
@[simp] theorem onRng_muslin : (s.onRng g).muslin = s.muslin := rfl
@[simp] theorem onRng_linen : (s.onRng g).linen = s.linen := rfl
@[simp] theorem onRng_keys : (s.onRng g).keys = s.keys := rfl
@[simp] theorem onRng_digest : (s.onRng g).digest = s.digest := rfl
@[simp] theorem onRng_cipher : (s.onRng g).cipher = s.cipher := rfl
@[simp] theorem onRng_ctx : (s.onRng g).ctx = s.ctx := rfl
@[simp] theorem onRng_rng : (s.onRng g).rng = g s.rng := rfl
@[simp] theorem onRng_pk : (s.onRng g).pk = s.pk := rfl
@[simp] theorem onRng_media : (s.onRng g).media = s.media := rfl
@[simp] theorem onRng_jrn : (s.onRng g).jrn = s.jrn := rfl
@[simp] theorem onRng_power : (s.onRng g).power = s.power := rfl
@[simp] theorem onRng_tweed : (s.onRng g).tweed = s.tweed := rfl
@[simp] theorem onRng_serge : (s.onRng g).serge = s.serge := rfl
@[simp] theorem onRng_cards : (s.onRng g).cards = s.cards := rfl
@[simp] theorem onRng_diag : (s.onRng g).diag = s.diag := rfl
@[simp] theorem onRng_ging : (s.onRng g).ging = s.ging := rfl
@[simp] theorem onRng_pcie : (s.onRng g).pcie = s.pcie := rfl
@[simp] theorem onRng_felt : (s.onRng g).felt = s.felt := rfl
@[simp] theorem onRng_dict : (s.onRng g).dict = s.dict := rfl
@[simp] theorem onRng_fuse : (s.onRng g).fuse = s.fuse := rfl
@[simp] theorem onRng_boot : (s.onRng g).boot = s.boot := rfl
end

/-! ## onPk -/

section
variable (g : Pk → Pk) (s : State)
@[simp] theorem onPk_pending : (s.onPk g).pending = s.pending := rfl
@[simp] theorem onPk_regs : (s.onPk g).regs = s.regs := rfl
@[simp] theorem onPk_mem : (s.onPk g).mem = s.mem := rfl
@[simp] theorem onPk_latches : (s.onPk g).latches = s.latches := rfl
@[simp] theorem onPk_hostMem : (s.onPk g).hostMem = s.hostMem := rfl
@[simp] theorem onPk_now : (s.onPk g).now = s.now := rfl
@[simp] theorem onPk_freeCtr : (s.onPk g).freeCtr = s.freeCtr := rfl
@[simp] theorem onPk_canvas : (s.onPk g).canvas = s.canvas := rfl
@[simp] theorem onPk_muslin : (s.onPk g).muslin = s.muslin := rfl
@[simp] theorem onPk_linen : (s.onPk g).linen = s.linen := rfl
@[simp] theorem onPk_keys : (s.onPk g).keys = s.keys := rfl
@[simp] theorem onPk_digest : (s.onPk g).digest = s.digest := rfl
@[simp] theorem onPk_cipher : (s.onPk g).cipher = s.cipher := rfl
@[simp] theorem onPk_ctx : (s.onPk g).ctx = s.ctx := rfl
@[simp] theorem onPk_rng : (s.onPk g).rng = s.rng := rfl
@[simp] theorem onPk_pk : (s.onPk g).pk = g s.pk := rfl
@[simp] theorem onPk_media : (s.onPk g).media = s.media := rfl
@[simp] theorem onPk_jrn : (s.onPk g).jrn = s.jrn := rfl
@[simp] theorem onPk_power : (s.onPk g).power = s.power := rfl
@[simp] theorem onPk_tweed : (s.onPk g).tweed = s.tweed := rfl
@[simp] theorem onPk_serge : (s.onPk g).serge = s.serge := rfl
@[simp] theorem onPk_cards : (s.onPk g).cards = s.cards := rfl
@[simp] theorem onPk_diag : (s.onPk g).diag = s.diag := rfl
@[simp] theorem onPk_ging : (s.onPk g).ging = s.ging := rfl
@[simp] theorem onPk_pcie : (s.onPk g).pcie = s.pcie := rfl
@[simp] theorem onPk_felt : (s.onPk g).felt = s.felt := rfl
@[simp] theorem onPk_dict : (s.onPk g).dict = s.dict := rfl
@[simp] theorem onPk_fuse : (s.onPk g).fuse = s.fuse := rfl
@[simp] theorem onPk_boot : (s.onPk g).boot = s.boot := rfl
end

/-! ## onCtx -/

section
variable (g : Contexts → Contexts) (s : State)
@[simp] theorem onCtx_pending : (s.onCtx g).pending = s.pending := rfl
@[simp] theorem onCtx_regs : (s.onCtx g).regs = s.regs := rfl
@[simp] theorem onCtx_mem : (s.onCtx g).mem = s.mem := rfl
@[simp] theorem onCtx_latches : (s.onCtx g).latches = s.latches := rfl
@[simp] theorem onCtx_hostMem : (s.onCtx g).hostMem = s.hostMem := rfl
@[simp] theorem onCtx_now : (s.onCtx g).now = s.now := rfl
@[simp] theorem onCtx_freeCtr : (s.onCtx g).freeCtr = s.freeCtr := rfl
@[simp] theorem onCtx_canvas : (s.onCtx g).canvas = s.canvas := rfl
@[simp] theorem onCtx_muslin : (s.onCtx g).muslin = s.muslin := rfl
@[simp] theorem onCtx_linen : (s.onCtx g).linen = s.linen := rfl
@[simp] theorem onCtx_keys : (s.onCtx g).keys = s.keys := rfl
@[simp] theorem onCtx_digest : (s.onCtx g).digest = s.digest := rfl
@[simp] theorem onCtx_cipher : (s.onCtx g).cipher = s.cipher := rfl
@[simp] theorem onCtx_ctx : (s.onCtx g).ctx = g s.ctx := rfl
@[simp] theorem onCtx_rng : (s.onCtx g).rng = s.rng := rfl
@[simp] theorem onCtx_pk : (s.onCtx g).pk = s.pk := rfl
@[simp] theorem onCtx_media : (s.onCtx g).media = s.media := rfl
@[simp] theorem onCtx_jrn : (s.onCtx g).jrn = s.jrn := rfl
@[simp] theorem onCtx_power : (s.onCtx g).power = s.power := rfl
@[simp] theorem onCtx_tweed : (s.onCtx g).tweed = s.tweed := rfl
@[simp] theorem onCtx_serge : (s.onCtx g).serge = s.serge := rfl
@[simp] theorem onCtx_cards : (s.onCtx g).cards = s.cards := rfl
@[simp] theorem onCtx_diag : (s.onCtx g).diag = s.diag := rfl
@[simp] theorem onCtx_ging : (s.onCtx g).ging = s.ging := rfl
@[simp] theorem onCtx_pcie : (s.onCtx g).pcie = s.pcie := rfl
@[simp] theorem onCtx_felt : (s.onCtx g).felt = s.felt := rfl
@[simp] theorem onCtx_dict : (s.onCtx g).dict = s.dict := rfl
@[simp] theorem onCtx_fuse : (s.onCtx g).fuse = s.fuse := rfl
@[simp] theorem onCtx_boot : (s.onCtx g).boot = s.boot := rfl
end

/-! ## onMedia -/

section
variable (g : Media → Media) (s : State)
@[simp] theorem onMedia_pending : (s.onMedia g).pending = s.pending := rfl
@[simp] theorem onMedia_regs : (s.onMedia g).regs = s.regs := rfl
@[simp] theorem onMedia_mem : (s.onMedia g).mem = s.mem := rfl
@[simp] theorem onMedia_latches : (s.onMedia g).latches = s.latches := rfl
@[simp] theorem onMedia_hostMem : (s.onMedia g).hostMem = s.hostMem := rfl
@[simp] theorem onMedia_now : (s.onMedia g).now = s.now := rfl
@[simp] theorem onMedia_freeCtr : (s.onMedia g).freeCtr = s.freeCtr := rfl
@[simp] theorem onMedia_canvas : (s.onMedia g).canvas = s.canvas := rfl
@[simp] theorem onMedia_muslin : (s.onMedia g).muslin = s.muslin := rfl
@[simp] theorem onMedia_linen : (s.onMedia g).linen = s.linen := rfl
@[simp] theorem onMedia_keys : (s.onMedia g).keys = s.keys := rfl
@[simp] theorem onMedia_digest : (s.onMedia g).digest = s.digest := rfl
@[simp] theorem onMedia_cipher : (s.onMedia g).cipher = s.cipher := rfl
@[simp] theorem onMedia_ctx : (s.onMedia g).ctx = s.ctx := rfl
@[simp] theorem onMedia_rng : (s.onMedia g).rng = s.rng := rfl
@[simp] theorem onMedia_pk : (s.onMedia g).pk = s.pk := rfl
@[simp] theorem onMedia_media : (s.onMedia g).media = g s.media := rfl
@[simp] theorem onMedia_jrn : (s.onMedia g).jrn = s.jrn := rfl
@[simp] theorem onMedia_power : (s.onMedia g).power = s.power := rfl
@[simp] theorem onMedia_tweed : (s.onMedia g).tweed = s.tweed := rfl
@[simp] theorem onMedia_serge : (s.onMedia g).serge = s.serge := rfl
@[simp] theorem onMedia_cards : (s.onMedia g).cards = s.cards := rfl
@[simp] theorem onMedia_diag : (s.onMedia g).diag = s.diag := rfl
@[simp] theorem onMedia_ging : (s.onMedia g).ging = s.ging := rfl
@[simp] theorem onMedia_pcie : (s.onMedia g).pcie = s.pcie := rfl
@[simp] theorem onMedia_felt : (s.onMedia g).felt = s.felt := rfl
@[simp] theorem onMedia_dict : (s.onMedia g).dict = s.dict := rfl
@[simp] theorem onMedia_fuse : (s.onMedia g).fuse = s.fuse := rfl
@[simp] theorem onMedia_boot : (s.onMedia g).boot = s.boot := rfl
end

/-! ## onJrn -/

section
variable (g : Journal → Journal) (s : State)
@[simp] theorem onJrn_pending : (s.onJrn g).pending = s.pending := rfl
@[simp] theorem onJrn_regs : (s.onJrn g).regs = s.regs := rfl
@[simp] theorem onJrn_mem : (s.onJrn g).mem = s.mem := rfl
@[simp] theorem onJrn_latches : (s.onJrn g).latches = s.latches := rfl
@[simp] theorem onJrn_hostMem : (s.onJrn g).hostMem = s.hostMem := rfl
@[simp] theorem onJrn_now : (s.onJrn g).now = s.now := rfl
@[simp] theorem onJrn_freeCtr : (s.onJrn g).freeCtr = s.freeCtr := rfl
@[simp] theorem onJrn_canvas : (s.onJrn g).canvas = s.canvas := rfl
@[simp] theorem onJrn_muslin : (s.onJrn g).muslin = s.muslin := rfl
@[simp] theorem onJrn_linen : (s.onJrn g).linen = s.linen := rfl
@[simp] theorem onJrn_keys : (s.onJrn g).keys = s.keys := rfl
@[simp] theorem onJrn_digest : (s.onJrn g).digest = s.digest := rfl
@[simp] theorem onJrn_cipher : (s.onJrn g).cipher = s.cipher := rfl
@[simp] theorem onJrn_ctx : (s.onJrn g).ctx = s.ctx := rfl
@[simp] theorem onJrn_rng : (s.onJrn g).rng = s.rng := rfl
@[simp] theorem onJrn_pk : (s.onJrn g).pk = s.pk := rfl
@[simp] theorem onJrn_media : (s.onJrn g).media = s.media := rfl
@[simp] theorem onJrn_jrn : (s.onJrn g).jrn = g s.jrn := rfl
@[simp] theorem onJrn_power : (s.onJrn g).power = s.power := rfl
@[simp] theorem onJrn_tweed : (s.onJrn g).tweed = s.tweed := rfl
@[simp] theorem onJrn_serge : (s.onJrn g).serge = s.serge := rfl
@[simp] theorem onJrn_cards : (s.onJrn g).cards = s.cards := rfl
@[simp] theorem onJrn_diag : (s.onJrn g).diag = s.diag := rfl
@[simp] theorem onJrn_ging : (s.onJrn g).ging = s.ging := rfl
@[simp] theorem onJrn_pcie : (s.onJrn g).pcie = s.pcie := rfl
@[simp] theorem onJrn_felt : (s.onJrn g).felt = s.felt := rfl
@[simp] theorem onJrn_dict : (s.onJrn g).dict = s.dict := rfl
@[simp] theorem onJrn_fuse : (s.onJrn g).fuse = s.fuse := rfl
@[simp] theorem onJrn_boot : (s.onJrn g).boot = s.boot := rfl
end

/-! ## onPower -/

section
variable (g : Power → Power) (s : State)
@[simp] theorem onPower_pending : (s.onPower g).pending = s.pending := rfl
@[simp] theorem onPower_regs : (s.onPower g).regs = s.regs := rfl
@[simp] theorem onPower_mem : (s.onPower g).mem = s.mem := rfl
@[simp] theorem onPower_latches : (s.onPower g).latches = s.latches := rfl
@[simp] theorem onPower_hostMem : (s.onPower g).hostMem = s.hostMem := rfl
@[simp] theorem onPower_now : (s.onPower g).now = s.now := rfl
@[simp] theorem onPower_freeCtr : (s.onPower g).freeCtr = s.freeCtr := rfl
@[simp] theorem onPower_canvas : (s.onPower g).canvas = s.canvas := rfl
@[simp] theorem onPower_muslin : (s.onPower g).muslin = s.muslin := rfl
@[simp] theorem onPower_linen : (s.onPower g).linen = s.linen := rfl
@[simp] theorem onPower_keys : (s.onPower g).keys = s.keys := rfl
@[simp] theorem onPower_digest : (s.onPower g).digest = s.digest := rfl
@[simp] theorem onPower_cipher : (s.onPower g).cipher = s.cipher := rfl
@[simp] theorem onPower_ctx : (s.onPower g).ctx = s.ctx := rfl
@[simp] theorem onPower_rng : (s.onPower g).rng = s.rng := rfl
@[simp] theorem onPower_pk : (s.onPower g).pk = s.pk := rfl
@[simp] theorem onPower_media : (s.onPower g).media = s.media := rfl
@[simp] theorem onPower_jrn : (s.onPower g).jrn = s.jrn := rfl
@[simp] theorem onPower_power : (s.onPower g).power = g s.power := rfl
@[simp] theorem onPower_tweed : (s.onPower g).tweed = s.tweed := rfl
@[simp] theorem onPower_serge : (s.onPower g).serge = s.serge := rfl
@[simp] theorem onPower_cards : (s.onPower g).cards = s.cards := rfl
@[simp] theorem onPower_diag : (s.onPower g).diag = s.diag := rfl
@[simp] theorem onPower_ging : (s.onPower g).ging = s.ging := rfl
@[simp] theorem onPower_pcie : (s.onPower g).pcie = s.pcie := rfl
@[simp] theorem onPower_felt : (s.onPower g).felt = s.felt := rfl
@[simp] theorem onPower_dict : (s.onPower g).dict = s.dict := rfl
@[simp] theorem onPower_fuse : (s.onPower g).fuse = s.fuse := rfl
@[simp] theorem onPower_boot : (s.onPower g).boot = s.boot := rfl
end

/-! ## onDiag -/

section
variable (g : Diag → Diag) (s : State)
@[simp] theorem onDiag_pending : (s.onDiag g).pending = s.pending := rfl
@[simp] theorem onDiag_regs : (s.onDiag g).regs = s.regs := rfl
@[simp] theorem onDiag_mem : (s.onDiag g).mem = s.mem := rfl
@[simp] theorem onDiag_latches : (s.onDiag g).latches = s.latches := rfl
@[simp] theorem onDiag_hostMem : (s.onDiag g).hostMem = s.hostMem := rfl
@[simp] theorem onDiag_now : (s.onDiag g).now = s.now := rfl
@[simp] theorem onDiag_freeCtr : (s.onDiag g).freeCtr = s.freeCtr := rfl
@[simp] theorem onDiag_canvas : (s.onDiag g).canvas = s.canvas := rfl
@[simp] theorem onDiag_muslin : (s.onDiag g).muslin = s.muslin := rfl
@[simp] theorem onDiag_linen : (s.onDiag g).linen = s.linen := rfl
@[simp] theorem onDiag_keys : (s.onDiag g).keys = s.keys := rfl
@[simp] theorem onDiag_digest : (s.onDiag g).digest = s.digest := rfl
@[simp] theorem onDiag_cipher : (s.onDiag g).cipher = s.cipher := rfl
@[simp] theorem onDiag_ctx : (s.onDiag g).ctx = s.ctx := rfl
@[simp] theorem onDiag_rng : (s.onDiag g).rng = s.rng := rfl
@[simp] theorem onDiag_pk : (s.onDiag g).pk = s.pk := rfl
@[simp] theorem onDiag_media : (s.onDiag g).media = s.media := rfl
@[simp] theorem onDiag_jrn : (s.onDiag g).jrn = s.jrn := rfl
@[simp] theorem onDiag_power : (s.onDiag g).power = s.power := rfl
@[simp] theorem onDiag_tweed : (s.onDiag g).tweed = s.tweed := rfl
@[simp] theorem onDiag_serge : (s.onDiag g).serge = s.serge := rfl
@[simp] theorem onDiag_cards : (s.onDiag g).cards = s.cards := rfl
@[simp] theorem onDiag_diag : (s.onDiag g).diag = g s.diag := rfl
@[simp] theorem onDiag_ging : (s.onDiag g).ging = s.ging := rfl
@[simp] theorem onDiag_pcie : (s.onDiag g).pcie = s.pcie := rfl
@[simp] theorem onDiag_felt : (s.onDiag g).felt = s.felt := rfl
@[simp] theorem onDiag_dict : (s.onDiag g).dict = s.dict := rfl
@[simp] theorem onDiag_fuse : (s.onDiag g).fuse = s.fuse := rfl
@[simp] theorem onDiag_boot : (s.onDiag g).boot = s.boot := rfl
end

/-! ## onGing -/

section
variable (g : Ging → Ging) (s : State)
@[simp] theorem onGing_pending : (s.onGing g).pending = s.pending := rfl
@[simp] theorem onGing_regs : (s.onGing g).regs = s.regs := rfl
@[simp] theorem onGing_mem : (s.onGing g).mem = s.mem := rfl
@[simp] theorem onGing_latches : (s.onGing g).latches = s.latches := rfl
@[simp] theorem onGing_hostMem : (s.onGing g).hostMem = s.hostMem := rfl
@[simp] theorem onGing_now : (s.onGing g).now = s.now := rfl
@[simp] theorem onGing_freeCtr : (s.onGing g).freeCtr = s.freeCtr := rfl
@[simp] theorem onGing_canvas : (s.onGing g).canvas = s.canvas := rfl
@[simp] theorem onGing_muslin : (s.onGing g).muslin = s.muslin := rfl
@[simp] theorem onGing_linen : (s.onGing g).linen = s.linen := rfl
@[simp] theorem onGing_keys : (s.onGing g).keys = s.keys := rfl
@[simp] theorem onGing_digest : (s.onGing g).digest = s.digest := rfl
@[simp] theorem onGing_cipher : (s.onGing g).cipher = s.cipher := rfl
@[simp] theorem onGing_ctx : (s.onGing g).ctx = s.ctx := rfl
@[simp] theorem onGing_rng : (s.onGing g).rng = s.rng := rfl
@[simp] theorem onGing_pk : (s.onGing g).pk = s.pk := rfl
@[simp] theorem onGing_media : (s.onGing g).media = s.media := rfl
@[simp] theorem onGing_jrn : (s.onGing g).jrn = s.jrn := rfl
@[simp] theorem onGing_power : (s.onGing g).power = s.power := rfl
@[simp] theorem onGing_tweed : (s.onGing g).tweed = s.tweed := rfl
@[simp] theorem onGing_serge : (s.onGing g).serge = s.serge := rfl
@[simp] theorem onGing_cards : (s.onGing g).cards = s.cards := rfl
@[simp] theorem onGing_diag : (s.onGing g).diag = s.diag := rfl
@[simp] theorem onGing_ging : (s.onGing g).ging = g s.ging := rfl
@[simp] theorem onGing_pcie : (s.onGing g).pcie = s.pcie := rfl
@[simp] theorem onGing_felt : (s.onGing g).felt = s.felt := rfl
@[simp] theorem onGing_dict : (s.onGing g).dict = s.dict := rfl
@[simp] theorem onGing_fuse : (s.onGing g).fuse = s.fuse := rfl
@[simp] theorem onGing_boot : (s.onGing g).boot = s.boot := rfl
end

/-! ## onPcie -/

section
variable (g : Pcie → Pcie) (s : State)
@[simp] theorem onPcie_pending : (s.onPcie g).pending = s.pending := rfl
@[simp] theorem onPcie_regs : (s.onPcie g).regs = s.regs := rfl
@[simp] theorem onPcie_mem : (s.onPcie g).mem = s.mem := rfl
@[simp] theorem onPcie_latches : (s.onPcie g).latches = s.latches := rfl
@[simp] theorem onPcie_hostMem : (s.onPcie g).hostMem = s.hostMem := rfl
@[simp] theorem onPcie_now : (s.onPcie g).now = s.now := rfl
@[simp] theorem onPcie_freeCtr : (s.onPcie g).freeCtr = s.freeCtr := rfl
@[simp] theorem onPcie_canvas : (s.onPcie g).canvas = s.canvas := rfl
@[simp] theorem onPcie_muslin : (s.onPcie g).muslin = s.muslin := rfl
@[simp] theorem onPcie_linen : (s.onPcie g).linen = s.linen := rfl
@[simp] theorem onPcie_keys : (s.onPcie g).keys = s.keys := rfl
@[simp] theorem onPcie_digest : (s.onPcie g).digest = s.digest := rfl
@[simp] theorem onPcie_cipher : (s.onPcie g).cipher = s.cipher := rfl
@[simp] theorem onPcie_ctx : (s.onPcie g).ctx = s.ctx := rfl
@[simp] theorem onPcie_rng : (s.onPcie g).rng = s.rng := rfl
@[simp] theorem onPcie_pk : (s.onPcie g).pk = s.pk := rfl
@[simp] theorem onPcie_media : (s.onPcie g).media = s.media := rfl
@[simp] theorem onPcie_jrn : (s.onPcie g).jrn = s.jrn := rfl
@[simp] theorem onPcie_power : (s.onPcie g).power = s.power := rfl
@[simp] theorem onPcie_tweed : (s.onPcie g).tweed = s.tweed := rfl
@[simp] theorem onPcie_serge : (s.onPcie g).serge = s.serge := rfl
@[simp] theorem onPcie_cards : (s.onPcie g).cards = s.cards := rfl
@[simp] theorem onPcie_diag : (s.onPcie g).diag = s.diag := rfl
@[simp] theorem onPcie_ging : (s.onPcie g).ging = s.ging := rfl
@[simp] theorem onPcie_pcie : (s.onPcie g).pcie = g s.pcie := rfl
@[simp] theorem onPcie_felt : (s.onPcie g).felt = s.felt := rfl
@[simp] theorem onPcie_dict : (s.onPcie g).dict = s.dict := rfl
@[simp] theorem onPcie_fuse : (s.onPcie g).fuse = s.fuse := rfl
@[simp] theorem onPcie_boot : (s.onPcie g).boot = s.boot := rfl
end

/-! ## onFelt -/

section
variable (g : Felt → Felt) (s : State)
@[simp] theorem onFelt_pending : (s.onFelt g).pending = s.pending := rfl
@[simp] theorem onFelt_regs : (s.onFelt g).regs = s.regs := rfl
@[simp] theorem onFelt_mem : (s.onFelt g).mem = s.mem := rfl
@[simp] theorem onFelt_latches : (s.onFelt g).latches = s.latches := rfl
@[simp] theorem onFelt_hostMem : (s.onFelt g).hostMem = s.hostMem := rfl
@[simp] theorem onFelt_now : (s.onFelt g).now = s.now := rfl
@[simp] theorem onFelt_freeCtr : (s.onFelt g).freeCtr = s.freeCtr := rfl
@[simp] theorem onFelt_canvas : (s.onFelt g).canvas = s.canvas := rfl
@[simp] theorem onFelt_muslin : (s.onFelt g).muslin = s.muslin := rfl
@[simp] theorem onFelt_linen : (s.onFelt g).linen = s.linen := rfl
@[simp] theorem onFelt_keys : (s.onFelt g).keys = s.keys := rfl
@[simp] theorem onFelt_digest : (s.onFelt g).digest = s.digest := rfl
@[simp] theorem onFelt_cipher : (s.onFelt g).cipher = s.cipher := rfl
@[simp] theorem onFelt_ctx : (s.onFelt g).ctx = s.ctx := rfl
@[simp] theorem onFelt_rng : (s.onFelt g).rng = s.rng := rfl
@[simp] theorem onFelt_pk : (s.onFelt g).pk = s.pk := rfl
@[simp] theorem onFelt_media : (s.onFelt g).media = s.media := rfl
@[simp] theorem onFelt_jrn : (s.onFelt g).jrn = s.jrn := rfl
@[simp] theorem onFelt_power : (s.onFelt g).power = s.power := rfl
@[simp] theorem onFelt_tweed : (s.onFelt g).tweed = s.tweed := rfl
@[simp] theorem onFelt_serge : (s.onFelt g).serge = s.serge := rfl
@[simp] theorem onFelt_cards : (s.onFelt g).cards = s.cards := rfl
@[simp] theorem onFelt_diag : (s.onFelt g).diag = s.diag := rfl
@[simp] theorem onFelt_ging : (s.onFelt g).ging = s.ging := rfl
@[simp] theorem onFelt_pcie : (s.onFelt g).pcie = s.pcie := rfl
@[simp] theorem onFelt_felt : (s.onFelt g).felt = g s.felt := rfl
@[simp] theorem onFelt_dict : (s.onFelt g).dict = s.dict := rfl
@[simp] theorem onFelt_fuse : (s.onFelt g).fuse = s.fuse := rfl
@[simp] theorem onFelt_boot : (s.onFelt g).boot = s.boot := rfl
end

/-! ## onDict -/

section
variable (g : Dict → Dict) (s : State)
@[simp] theorem onDict_pending : (s.onDict g).pending = s.pending := rfl
@[simp] theorem onDict_regs : (s.onDict g).regs = s.regs := rfl
@[simp] theorem onDict_mem : (s.onDict g).mem = s.mem := rfl
@[simp] theorem onDict_latches : (s.onDict g).latches = s.latches := rfl
@[simp] theorem onDict_hostMem : (s.onDict g).hostMem = s.hostMem := rfl
@[simp] theorem onDict_now : (s.onDict g).now = s.now := rfl
@[simp] theorem onDict_freeCtr : (s.onDict g).freeCtr = s.freeCtr := rfl
@[simp] theorem onDict_canvas : (s.onDict g).canvas = s.canvas := rfl
@[simp] theorem onDict_muslin : (s.onDict g).muslin = s.muslin := rfl
@[simp] theorem onDict_linen : (s.onDict g).linen = s.linen := rfl
@[simp] theorem onDict_keys : (s.onDict g).keys = s.keys := rfl
@[simp] theorem onDict_digest : (s.onDict g).digest = s.digest := rfl
@[simp] theorem onDict_cipher : (s.onDict g).cipher = s.cipher := rfl
@[simp] theorem onDict_ctx : (s.onDict g).ctx = s.ctx := rfl
@[simp] theorem onDict_rng : (s.onDict g).rng = s.rng := rfl
@[simp] theorem onDict_pk : (s.onDict g).pk = s.pk := rfl
@[simp] theorem onDict_media : (s.onDict g).media = s.media := rfl
@[simp] theorem onDict_jrn : (s.onDict g).jrn = s.jrn := rfl
@[simp] theorem onDict_power : (s.onDict g).power = s.power := rfl
@[simp] theorem onDict_tweed : (s.onDict g).tweed = s.tweed := rfl
@[simp] theorem onDict_serge : (s.onDict g).serge = s.serge := rfl
@[simp] theorem onDict_cards : (s.onDict g).cards = s.cards := rfl
@[simp] theorem onDict_diag : (s.onDict g).diag = s.diag := rfl
@[simp] theorem onDict_ging : (s.onDict g).ging = s.ging := rfl
@[simp] theorem onDict_pcie : (s.onDict g).pcie = s.pcie := rfl
@[simp] theorem onDict_felt : (s.onDict g).felt = s.felt := rfl
@[simp] theorem onDict_dict : (s.onDict g).dict = g s.dict := rfl
@[simp] theorem onDict_fuse : (s.onDict g).fuse = s.fuse := rfl
@[simp] theorem onDict_boot : (s.onDict g).boot = s.boot := rfl
end

/-! ## onFuse -/

section
variable (g : Fuse → Fuse) (s : State)
@[simp] theorem onFuse_pending : (s.onFuse g).pending = s.pending := rfl
@[simp] theorem onFuse_regs : (s.onFuse g).regs = s.regs := rfl
@[simp] theorem onFuse_mem : (s.onFuse g).mem = s.mem := rfl
@[simp] theorem onFuse_latches : (s.onFuse g).latches = s.latches := rfl
@[simp] theorem onFuse_hostMem : (s.onFuse g).hostMem = s.hostMem := rfl
@[simp] theorem onFuse_now : (s.onFuse g).now = s.now := rfl
@[simp] theorem onFuse_freeCtr : (s.onFuse g).freeCtr = s.freeCtr := rfl
@[simp] theorem onFuse_canvas : (s.onFuse g).canvas = s.canvas := rfl
@[simp] theorem onFuse_muslin : (s.onFuse g).muslin = s.muslin := rfl
@[simp] theorem onFuse_linen : (s.onFuse g).linen = s.linen := rfl
@[simp] theorem onFuse_keys : (s.onFuse g).keys = s.keys := rfl
@[simp] theorem onFuse_digest : (s.onFuse g).digest = s.digest := rfl
@[simp] theorem onFuse_cipher : (s.onFuse g).cipher = s.cipher := rfl
@[simp] theorem onFuse_ctx : (s.onFuse g).ctx = s.ctx := rfl
@[simp] theorem onFuse_rng : (s.onFuse g).rng = s.rng := rfl
@[simp] theorem onFuse_pk : (s.onFuse g).pk = s.pk := rfl
@[simp] theorem onFuse_media : (s.onFuse g).media = s.media := rfl
@[simp] theorem onFuse_jrn : (s.onFuse g).jrn = s.jrn := rfl
@[simp] theorem onFuse_power : (s.onFuse g).power = s.power := rfl
@[simp] theorem onFuse_tweed : (s.onFuse g).tweed = s.tweed := rfl
@[simp] theorem onFuse_serge : (s.onFuse g).serge = s.serge := rfl
@[simp] theorem onFuse_cards : (s.onFuse g).cards = s.cards := rfl
@[simp] theorem onFuse_diag : (s.onFuse g).diag = s.diag := rfl
@[simp] theorem onFuse_ging : (s.onFuse g).ging = s.ging := rfl
@[simp] theorem onFuse_pcie : (s.onFuse g).pcie = s.pcie := rfl
@[simp] theorem onFuse_felt : (s.onFuse g).felt = s.felt := rfl
@[simp] theorem onFuse_dict : (s.onFuse g).dict = s.dict := rfl
@[simp] theorem onFuse_fuse : (s.onFuse g).fuse = g s.fuse := rfl
@[simp] theorem onFuse_boot : (s.onFuse g).boot = s.boot := rfl
end

/-! ## onBoot -/

section
variable (g : Boot → Boot) (s : State)
@[simp] theorem onBoot_pending : (s.onBoot g).pending = s.pending := rfl
@[simp] theorem onBoot_regs : (s.onBoot g).regs = s.regs := rfl
@[simp] theorem onBoot_mem : (s.onBoot g).mem = s.mem := rfl
@[simp] theorem onBoot_latches : (s.onBoot g).latches = s.latches := rfl
@[simp] theorem onBoot_hostMem : (s.onBoot g).hostMem = s.hostMem := rfl
@[simp] theorem onBoot_now : (s.onBoot g).now = s.now := rfl
@[simp] theorem onBoot_freeCtr : (s.onBoot g).freeCtr = s.freeCtr := rfl
@[simp] theorem onBoot_canvas : (s.onBoot g).canvas = s.canvas := rfl
@[simp] theorem onBoot_muslin : (s.onBoot g).muslin = s.muslin := rfl
@[simp] theorem onBoot_linen : (s.onBoot g).linen = s.linen := rfl
@[simp] theorem onBoot_keys : (s.onBoot g).keys = s.keys := rfl
@[simp] theorem onBoot_digest : (s.onBoot g).digest = s.digest := rfl
@[simp] theorem onBoot_cipher : (s.onBoot g).cipher = s.cipher := rfl
@[simp] theorem onBoot_ctx : (s.onBoot g).ctx = s.ctx := rfl
@[simp] theorem onBoot_rng : (s.onBoot g).rng = s.rng := rfl
@[simp] theorem onBoot_pk : (s.onBoot g).pk = s.pk := rfl
@[simp] theorem onBoot_media : (s.onBoot g).media = s.media := rfl
@[simp] theorem onBoot_jrn : (s.onBoot g).jrn = s.jrn := rfl
@[simp] theorem onBoot_power : (s.onBoot g).power = s.power := rfl
@[simp] theorem onBoot_tweed : (s.onBoot g).tweed = s.tweed := rfl
@[simp] theorem onBoot_serge : (s.onBoot g).serge = s.serge := rfl
@[simp] theorem onBoot_cards : (s.onBoot g).cards = s.cards := rfl
@[simp] theorem onBoot_diag : (s.onBoot g).diag = s.diag := rfl
@[simp] theorem onBoot_ging : (s.onBoot g).ging = s.ging := rfl
@[simp] theorem onBoot_pcie : (s.onBoot g).pcie = s.pcie := rfl
@[simp] theorem onBoot_felt : (s.onBoot g).felt = s.felt := rfl
@[simp] theorem onBoot_dict : (s.onBoot g).dict = s.dict := rfl
@[simp] theorem onBoot_fuse : (s.onBoot g).fuse = s.fuse := rfl
@[simp] theorem onBoot_boot : (s.onBoot g).boot = g s.boot := rfl
end

/-! ## onTweed -/

section
variable (g : Tweed → Tweed) (s : State)
@[simp] theorem onTweed_pending : (s.onTweed g).pending = s.pending := rfl
@[simp] theorem onTweed_regs : (s.onTweed g).regs = s.regs := rfl
@[simp] theorem onTweed_mem : (s.onTweed g).mem = s.mem := rfl
@[simp] theorem onTweed_latches : (s.onTweed g).latches = s.latches := rfl
@[simp] theorem onTweed_hostMem : (s.onTweed g).hostMem = s.hostMem := rfl
@[simp] theorem onTweed_now : (s.onTweed g).now = s.now := rfl
@[simp] theorem onTweed_freeCtr : (s.onTweed g).freeCtr = s.freeCtr := rfl
@[simp] theorem onTweed_canvas : (s.onTweed g).canvas = s.canvas := rfl
@[simp] theorem onTweed_muslin : (s.onTweed g).muslin = s.muslin := rfl
@[simp] theorem onTweed_linen : (s.onTweed g).linen = s.linen := rfl
@[simp] theorem onTweed_keys : (s.onTweed g).keys = s.keys := rfl
@[simp] theorem onTweed_digest : (s.onTweed g).digest = s.digest := rfl
@[simp] theorem onTweed_cipher : (s.onTweed g).cipher = s.cipher := rfl
@[simp] theorem onTweed_ctx : (s.onTweed g).ctx = s.ctx := rfl
@[simp] theorem onTweed_rng : (s.onTweed g).rng = s.rng := rfl
@[simp] theorem onTweed_pk : (s.onTweed g).pk = s.pk := rfl
@[simp] theorem onTweed_media : (s.onTweed g).media = s.media := rfl
@[simp] theorem onTweed_jrn : (s.onTweed g).jrn = s.jrn := rfl
@[simp] theorem onTweed_power : (s.onTweed g).power = s.power := rfl
@[simp] theorem onTweed_tweed : (s.onTweed g).tweed = g s.tweed := rfl
@[simp] theorem onTweed_serge : (s.onTweed g).serge = s.serge := rfl
@[simp] theorem onTweed_cards : (s.onTweed g).cards = s.cards := rfl
@[simp] theorem onTweed_diag : (s.onTweed g).diag = s.diag := rfl
@[simp] theorem onTweed_ging : (s.onTweed g).ging = s.ging := rfl
@[simp] theorem onTweed_pcie : (s.onTweed g).pcie = s.pcie := rfl
@[simp] theorem onTweed_felt : (s.onTweed g).felt = s.felt := rfl
@[simp] theorem onTweed_dict : (s.onTweed g).dict = s.dict := rfl
@[simp] theorem onTweed_fuse : (s.onTweed g).fuse = s.fuse := rfl
@[simp] theorem onTweed_boot : (s.onTweed g).boot = s.boot := rfl
end

/-! ## onSerge -/

section
variable (g : Serge → Serge) (s : State)
@[simp] theorem onSerge_pending : (s.onSerge g).pending = s.pending := rfl
@[simp] theorem onSerge_regs : (s.onSerge g).regs = s.regs := rfl
@[simp] theorem onSerge_mem : (s.onSerge g).mem = s.mem := rfl
@[simp] theorem onSerge_latches : (s.onSerge g).latches = s.latches := rfl
@[simp] theorem onSerge_hostMem : (s.onSerge g).hostMem = s.hostMem := rfl
@[simp] theorem onSerge_now : (s.onSerge g).now = s.now := rfl
@[simp] theorem onSerge_freeCtr : (s.onSerge g).freeCtr = s.freeCtr := rfl
@[simp] theorem onSerge_canvas : (s.onSerge g).canvas = s.canvas := rfl
@[simp] theorem onSerge_muslin : (s.onSerge g).muslin = s.muslin := rfl
@[simp] theorem onSerge_linen : (s.onSerge g).linen = s.linen := rfl
@[simp] theorem onSerge_keys : (s.onSerge g).keys = s.keys := rfl
@[simp] theorem onSerge_digest : (s.onSerge g).digest = s.digest := rfl
@[simp] theorem onSerge_cipher : (s.onSerge g).cipher = s.cipher := rfl
@[simp] theorem onSerge_ctx : (s.onSerge g).ctx = s.ctx := rfl
@[simp] theorem onSerge_rng : (s.onSerge g).rng = s.rng := rfl
@[simp] theorem onSerge_pk : (s.onSerge g).pk = s.pk := rfl
@[simp] theorem onSerge_media : (s.onSerge g).media = s.media := rfl
@[simp] theorem onSerge_jrn : (s.onSerge g).jrn = s.jrn := rfl
@[simp] theorem onSerge_power : (s.onSerge g).power = s.power := rfl
@[simp] theorem onSerge_tweed : (s.onSerge g).tweed = s.tweed := rfl
@[simp] theorem onSerge_serge : (s.onSerge g).serge = g s.serge := rfl
@[simp] theorem onSerge_cards : (s.onSerge g).cards = s.cards := rfl
@[simp] theorem onSerge_diag : (s.onSerge g).diag = s.diag := rfl
@[simp] theorem onSerge_ging : (s.onSerge g).ging = s.ging := rfl
@[simp] theorem onSerge_pcie : (s.onSerge g).pcie = s.pcie := rfl
@[simp] theorem onSerge_felt : (s.onSerge g).felt = s.felt := rfl
@[simp] theorem onSerge_dict : (s.onSerge g).dict = s.dict := rfl
@[simp] theorem onSerge_fuse : (s.onSerge g).fuse = s.fuse := rfl
@[simp] theorem onSerge_boot : (s.onSerge g).boot = s.boot := rfl
end

/-! ## onCards -/

section
variable (g : Cards → Cards) (s : State)
@[simp] theorem onCards_pending : (s.onCards g).pending = s.pending := rfl
@[simp] theorem onCards_regs : (s.onCards g).regs = s.regs := rfl
@[simp] theorem onCards_mem : (s.onCards g).mem = s.mem := rfl
@[simp] theorem onCards_latches : (s.onCards g).latches = s.latches := rfl
@[simp] theorem onCards_hostMem : (s.onCards g).hostMem = s.hostMem := rfl
@[simp] theorem onCards_now : (s.onCards g).now = s.now := rfl
@[simp] theorem onCards_freeCtr : (s.onCards g).freeCtr = s.freeCtr := rfl
@[simp] theorem onCards_canvas : (s.onCards g).canvas = s.canvas := rfl
@[simp] theorem onCards_muslin : (s.onCards g).muslin = s.muslin := rfl
@[simp] theorem onCards_linen : (s.onCards g).linen = s.linen := rfl
@[simp] theorem onCards_keys : (s.onCards g).keys = s.keys := rfl
@[simp] theorem onCards_digest : (s.onCards g).digest = s.digest := rfl
@[simp] theorem onCards_cipher : (s.onCards g).cipher = s.cipher := rfl
@[simp] theorem onCards_ctx : (s.onCards g).ctx = s.ctx := rfl
@[simp] theorem onCards_rng : (s.onCards g).rng = s.rng := rfl
@[simp] theorem onCards_pk : (s.onCards g).pk = s.pk := rfl
@[simp] theorem onCards_media : (s.onCards g).media = s.media := rfl
@[simp] theorem onCards_jrn : (s.onCards g).jrn = s.jrn := rfl
@[simp] theorem onCards_power : (s.onCards g).power = s.power := rfl
@[simp] theorem onCards_tweed : (s.onCards g).tweed = s.tweed := rfl
@[simp] theorem onCards_serge : (s.onCards g).serge = s.serge := rfl
@[simp] theorem onCards_cards : (s.onCards g).cards = g s.cards := rfl
@[simp] theorem onCards_diag : (s.onCards g).diag = s.diag := rfl
@[simp] theorem onCards_ging : (s.onCards g).ging = s.ging := rfl
@[simp] theorem onCards_pcie : (s.onCards g).pcie = s.pcie := rfl
@[simp] theorem onCards_felt : (s.onCards g).felt = s.felt := rfl
@[simp] theorem onCards_dict : (s.onCards g).dict = s.dict := rfl
@[simp] theorem onCards_fuse : (s.onCards g).fuse = s.fuse := rfl
@[simp] theorem onCards_boot : (s.onCards g).boot = s.boot := rfl
end

/-! ## Registers, memory, time, free values -/

section
variable (s : State) (a n : Nat) (w : Word) (b : Byte)
@[simp] theorem wr_pending : (s.wr a w).pending = s.pending := rfl
@[simp] theorem wr_mem : (s.wr a w).mem = s.mem := rfl
@[simp] theorem wr_latches : (s.wr a w).latches = s.latches := rfl
@[simp] theorem wr_hostMem : (s.wr a w).hostMem = s.hostMem := rfl
@[simp] theorem wr_now : (s.wr a w).now = s.now := rfl
@[simp] theorem wr_freeCtr : (s.wr a w).freeCtr = s.freeCtr := rfl
@[simp] theorem wr_canvas : (s.wr a w).canvas = s.canvas := rfl
@[simp] theorem wr_muslin : (s.wr a w).muslin = s.muslin := rfl
@[simp] theorem wr_linen : (s.wr a w).linen = s.linen := rfl
@[simp] theorem wr_keys : (s.wr a w).keys = s.keys := rfl
@[simp] theorem wr_digest : (s.wr a w).digest = s.digest := rfl
@[simp] theorem wr_cipher : (s.wr a w).cipher = s.cipher := rfl
@[simp] theorem wr_ctx : (s.wr a w).ctx = s.ctx := rfl
@[simp] theorem wr_rng : (s.wr a w).rng = s.rng := rfl
@[simp] theorem wr_pk : (s.wr a w).pk = s.pk := rfl
@[simp] theorem wr_media : (s.wr a w).media = s.media := rfl
@[simp] theorem wr_jrn : (s.wr a w).jrn = s.jrn := rfl
@[simp] theorem wr_power : (s.wr a w).power = s.power := rfl
@[simp] theorem wr_tweed : (s.wr a w).tweed = s.tweed := rfl
@[simp] theorem wr_serge : (s.wr a w).serge = s.serge := rfl
@[simp] theorem wr_cards : (s.wr a w).cards = s.cards := rfl
@[simp] theorem wr_diag : (s.wr a w).diag = s.diag := rfl
@[simp] theorem wr_ging : (s.wr a w).ging = s.ging := rfl
@[simp] theorem wr_pcie : (s.wr a w).pcie = s.pcie := rfl
@[simp] theorem wr_felt : (s.wr a w).felt = s.felt := rfl
@[simp] theorem wr_dict : (s.wr a w).dict = s.dict := rfl
@[simp] theorem wr_fuse : (s.wr a w).fuse = s.fuse := rfl
@[simp] theorem wr_boot : (s.wr a w).boot = s.boot := rfl
@[simp] theorem setByte_pending : (s.setByte a b).pending = s.pending := rfl
@[simp] theorem setByte_regs : (s.setByte a b).regs = s.regs := rfl
@[simp] theorem setByte_latches : (s.setByte a b).latches = s.latches := rfl
@[simp] theorem setByte_hostMem : (s.setByte a b).hostMem = s.hostMem := rfl
@[simp] theorem setByte_now : (s.setByte a b).now = s.now := rfl
@[simp] theorem setByte_freeCtr : (s.setByte a b).freeCtr = s.freeCtr := rfl
@[simp] theorem setByte_canvas : (s.setByte a b).canvas = s.canvas := rfl
@[simp] theorem setByte_muslin : (s.setByte a b).muslin = s.muslin := rfl
@[simp] theorem setByte_linen : (s.setByte a b).linen = s.linen := rfl
@[simp] theorem setByte_keys : (s.setByte a b).keys = s.keys := rfl
@[simp] theorem setByte_digest : (s.setByte a b).digest = s.digest := rfl
@[simp] theorem setByte_cipher : (s.setByte a b).cipher = s.cipher := rfl
@[simp] theorem setByte_ctx : (s.setByte a b).ctx = s.ctx := rfl
@[simp] theorem setByte_rng : (s.setByte a b).rng = s.rng := rfl
@[simp] theorem setByte_pk : (s.setByte a b).pk = s.pk := rfl
@[simp] theorem setByte_media : (s.setByte a b).media = s.media := rfl
@[simp] theorem setByte_jrn : (s.setByte a b).jrn = s.jrn := rfl
@[simp] theorem setByte_power : (s.setByte a b).power = s.power := rfl
@[simp] theorem setByte_tweed : (s.setByte a b).tweed = s.tweed := rfl
@[simp] theorem setByte_serge : (s.setByte a b).serge = s.serge := rfl
@[simp] theorem setByte_cards : (s.setByte a b).cards = s.cards := rfl
@[simp] theorem setByte_diag : (s.setByte a b).diag = s.diag := rfl
@[simp] theorem setByte_ging : (s.setByte a b).ging = s.ging := rfl
@[simp] theorem setByte_pcie : (s.setByte a b).pcie = s.pcie := rfl
@[simp] theorem setByte_felt : (s.setByte a b).felt = s.felt := rfl
@[simp] theorem setByte_dict : (s.setByte a b).dict = s.dict := rfl
@[simp] theorem setByte_fuse : (s.setByte a b).fuse = s.fuse := rfl
@[simp] theorem setByte_boot : (s.setByte a b).boot = s.boot := rfl
@[simp] theorem at_pending : (s.at n).pending = s.pending := rfl
@[simp] theorem at_regs : (s.at n).regs = s.regs := rfl
@[simp] theorem at_mem : (s.at n).mem = s.mem := rfl
@[simp] theorem at_latches : (s.at n).latches = s.latches := rfl
@[simp] theorem at_hostMem : (s.at n).hostMem = s.hostMem := rfl
@[simp] theorem at_now : (s.at n).now = max s.now n := rfl
@[simp] theorem at_freeCtr : (s.at n).freeCtr = s.freeCtr := rfl
@[simp] theorem at_canvas : (s.at n).canvas = s.canvas := rfl
@[simp] theorem at_muslin : (s.at n).muslin = s.muslin := rfl
@[simp] theorem at_linen : (s.at n).linen = s.linen := rfl
@[simp] theorem at_keys : (s.at n).keys = s.keys := rfl
@[simp] theorem at_digest : (s.at n).digest = s.digest := rfl
@[simp] theorem at_cipher : (s.at n).cipher = s.cipher := rfl
@[simp] theorem at_ctx : (s.at n).ctx = s.ctx := rfl
@[simp] theorem at_rng : (s.at n).rng = s.rng := rfl
@[simp] theorem at_pk : (s.at n).pk = s.pk := rfl
@[simp] theorem at_media : (s.at n).media = s.media := rfl
@[simp] theorem at_jrn : (s.at n).jrn = s.jrn := rfl
@[simp] theorem at_power : (s.at n).power = s.power := rfl
@[simp] theorem at_tweed : (s.at n).tweed = s.tweed := rfl
@[simp] theorem at_serge : (s.at n).serge = s.serge := rfl
@[simp] theorem at_cards : (s.at n).cards = s.cards := rfl
@[simp] theorem at_diag : (s.at n).diag = s.diag := rfl
@[simp] theorem at_ging : (s.at n).ging = s.ging := rfl
@[simp] theorem at_pcie : (s.at n).pcie = s.pcie := rfl
@[simp] theorem at_felt : (s.at n).felt = s.felt := rfl
@[simp] theorem at_dict : (s.at n).dict = s.dict := rfl
@[simp] theorem at_fuse : (s.at n).fuse = s.fuse := rfl
@[simp] theorem at_boot : (s.at n).boot = s.boot := rfl
@[simp] theorem fresh_pending : s.fresh.pending = s.pending := rfl
@[simp] theorem fresh_regs : s.fresh.regs = s.regs := rfl
@[simp] theorem fresh_mem : s.fresh.mem = s.mem := rfl
@[simp] theorem fresh_latches : s.fresh.latches = s.latches := rfl
@[simp] theorem fresh_hostMem : s.fresh.hostMem = s.hostMem := rfl
@[simp] theorem fresh_now : s.fresh.now = s.now := rfl
@[simp] theorem fresh_freeCtr : s.fresh.freeCtr = s.freeCtr + 1 := rfl
@[simp] theorem fresh_canvas : s.fresh.canvas = s.canvas := rfl
@[simp] theorem fresh_muslin : s.fresh.muslin = s.muslin := rfl
@[simp] theorem fresh_linen : s.fresh.linen = s.linen := rfl
@[simp] theorem fresh_keys : s.fresh.keys = s.keys := rfl
@[simp] theorem fresh_digest : s.fresh.digest = s.digest := rfl
@[simp] theorem fresh_cipher : s.fresh.cipher = s.cipher := rfl
@[simp] theorem fresh_ctx : s.fresh.ctx = s.ctx := rfl
@[simp] theorem fresh_rng : s.fresh.rng = s.rng := rfl
@[simp] theorem fresh_pk : s.fresh.pk = s.pk := rfl
@[simp] theorem fresh_media : s.fresh.media = s.media := rfl
@[simp] theorem fresh_jrn : s.fresh.jrn = s.jrn := rfl
@[simp] theorem fresh_power : s.fresh.power = s.power := rfl
@[simp] theorem fresh_tweed : s.fresh.tweed = s.tweed := rfl
@[simp] theorem fresh_serge : s.fresh.serge = s.serge := rfl
@[simp] theorem fresh_cards : s.fresh.cards = s.cards := rfl
@[simp] theorem fresh_diag : s.fresh.diag = s.diag := rfl
@[simp] theorem fresh_ging : s.fresh.ging = s.ging := rfl
@[simp] theorem fresh_pcie : s.fresh.pcie = s.pcie := rfl
@[simp] theorem fresh_felt : s.fresh.felt = s.felt := rfl
@[simp] theorem fresh_dict : s.fresh.dict = s.dict := rfl
@[simp] theorem fresh_fuse : s.fresh.fuse = s.fuse := rfl
@[simp] theorem fresh_boot : s.fresh.boot = s.boot := rfl
end

end Sys2Proof.Laws
end

