-- ==== Sys2Proof/Laws/Commands.lean ====
section
/-!
SUPPORT. The outcome of a command, said once: a command of blocks that act, one that always acts, an instruction that issues and
ends well or in a trap.
-/

namespace Sys2Proof.Laws

open Sys2Proof Sys2Proof.Machine

/-- Time does not go back, so an instant given twice is the instant. -/
@[simp] theorem at_at (s : State) (t : Nat) : (s.at t).at (s.at t).now = s.at t := by
  simp [State.at]

/-- Blocks that act carry out a command of theirs. -/
theorem onUnits_acts {l : List (Nat × Nat)} {t : Nat} {s : State} (h : Acts l t s) (g : State → State) :
    onUnits t l g s = .next (g (s.at t)) := by
  obtain ⟨h1, h2, h3⟩ := h
  have e1 : l.any (fun u => (s.at t).gated u.1 u.2) = false := by
    rw [List.any_eq_false]; intro u hu; simp [h2 u hu]
  have e2 : l.any (fun u => (s.at t).tweed.lost.contains u) = false := by
    rw [List.any_eq_false]; intro u hu; simpa [State.at] using h3 u hu
  unfold onUnits
  simp only [h1, e1, e2]
  rfl

/-- A command that always acts. -/
theorem always_eq (t : Nat) (g : State → State) (s : State) : always t g s = .next (g (s.at t)) := rfl

/-- An instruction that issues ends in the state its effect gives. -/
theorem issue_ok {env : CoreEnv} {s s' t : State} {g : State → Act Unit} (h : Issues env s s') (hg : g s' = .ok () t) :
    issue env g s = .next t := by
  obtain ⟨h1, h2, h3⟩ := h
  unfold issue
  simp only [h1, h2, h3]
  simp [Act.bind, hg, Act.outcome]

/-- An instruction that issues and traps. -/
theorem issue_trap {env : CoreEnv} {s s' t : State} {g : State → Act Unit} {c : Nat} {e : Word} (h : Issues env s s')
    (hg : g s' = .trap c e t) : issue env g s = .next (takeTrap c e t) := by
  obtain ⟨h1, h2, h3⟩ := h
  unfold issue
  simp only [h1, h2, h3]
  simp [Act.bind, hg, Act.outcome]

end Sys2Proof.Laws
end

