-- ==== Sys2Proof/Laws/Maps.lean ====
section
/-!
SUPPORT. The laws of the sparse maps that hold registers, memory, host memory and Serge's registers: reading after a write, and the
canonical form that every write keeps.
-/

namespace Sys2Proof.Laws

open Sys2Proof.Machine

variable {α : Type}

/-- No key of the map is below `k`. -/
def AllGt (k : Nat) (m : List (Nat × α)) : Prop := ∀ e ∈ m, k < e.1

/-- The canonical form, as a property of lists. -/
theorem swf_cons [DecidableEq α] (d : Nat → α) (k : Nat) (v : α) (t : List (Nat × α)) :
    swf d ((k, v) :: t) = true ↔ v ≠ d k ∧ AllGt k t ∧ swf d t = true := by
  induction t generalizing k v with
  | nil => simp [swf, AllGt]
  | cons p u ih =>
    obtain ⟨j, w⟩ := p
    simp only [swf, Bool.and_eq_true, decide_eq_true_eq]
    constructor
    · rintro ⟨⟨hv, hk⟩, ⟨hw, hj⟩, hu⟩
      have hc : swf d ((j, w) :: u) = true := by simp [swf, hw, hj, hu]
      refine ⟨hv, ?_, ⟨hw, hj⟩, hu⟩
      intro e he
      rcases List.mem_cons.mp he with rfl | he
      · exact hk
      · exact Nat.lt_trans hk (((ih j w).mp hc).2.1 e he)
    · rintro ⟨hv, hk, ⟨hw, hj⟩, hu⟩
      exact ⟨⟨hv, hk (j, w) (by simp)⟩, ⟨hw, hj⟩, hu⟩

/-- A map whose keys are all above `k` holds nothing at `k`. -/
theorem sget_of_allGt (d : Nat → α) (m : List (Nat × α)) (k : Nat) (h : AllGt k m) : sget d m k = d k := by
  induction m with
  | nil => rfl
  | cons p t ih =>
    obtain ⟨j, v⟩ := p
    have hj : k < j := h (j, v) (by simp)
    simp only [sget, if_neg (Nat.ne_of_lt hj)]
    exact ih fun e he => h e (by simp [he])

theorem serase_mem (m : List (Nat × α)) (k : Nat) (e : Nat × α) : e ∈ serase m k → e ∈ m := by
  induction m with
  | nil => simp [serase]
  | cons p t ih =>
    obtain ⟨j, v⟩ := p
    simp only [serase]
    split
    · intro h; exact List.mem_cons_of_mem _ (ih h)
    · intro h
      rcases List.mem_cons.mp h with rfl | h
      · simp
      · exact List.mem_cons_of_mem _ (ih h)

theorem sinsert_mem (m : List (Nat × α)) (k : Nat) (v : α) (e : Nat × α) : e ∈ sinsert m k v → e = (k, v) ∨ e ∈ m := by
  induction m with
  | nil => simp [sinsert]
  | cons p t ih =>
    obtain ⟨j, w⟩ := p
    simp only [sinsert]
    split
    · intro h; simpa using h
    · intro h
      rcases List.mem_cons.mp h with rfl | h
      · simp
      · rcases ih h with rfl | h
        · simp
        · simp [h]

theorem serase_ne (m : List (Nat × α)) (k : Nat) (e : Nat × α) : e ∈ serase m k → e.1 ≠ k := by
  induction m with
  | nil => simp [serase]
  | cons p t ih =>
    obtain ⟨j, v⟩ := p
    simp only [serase]
    split
    · exact ih
    · intro h
      rcases List.mem_cons.mp h with rfl | h
      · rename_i hk; exact fun e => hk e.symm
      · exact ih h

theorem swf_serase [DecidableEq α] (d : Nat → α) (m : List (Nat × α)) (k : Nat) (h : swf d m = true) : swf d (serase m k) = true := by
  induction m with
  | nil => exact h
  | cons p t ih =>
    obtain ⟨j, v⟩ := p
    obtain ⟨hv, hg, ht⟩ := (swf_cons d j v t).mp h
    simp only [serase]
    split
    · exact ih ht
    · exact (swf_cons ..).mpr ⟨hv, fun e he => hg e (serase_mem t k e he), ih ht⟩

theorem swf_sinsert [DecidableEq α] (d : Nat → α) (m : List (Nat × α)) (k : Nat) (v : α) (hv : v ≠ d k) (hk : ∀ e ∈ m, e.1 ≠ k)
    (h : swf d m = true) : swf d (sinsert m k v) = true := by
  induction m with
  | nil => simp [sinsert, swf, hv]
  | cons p t ih =>
    obtain ⟨j, w⟩ := p
    obtain ⟨hw, hg, ht⟩ := (swf_cons d j w t).mp h
    simp only [sinsert]
    split
    · rename_i hkj
      refine (swf_cons ..).mpr ⟨hv, ?_, h⟩
      intro e he
      rcases List.mem_cons.mp he with rfl | he
      · exact hkj
      · exact Nat.lt_trans hkj (hg e he)
    · rename_i hkj
      have hjk : j ≠ k := hk (j, w) (by simp)
      refine (swf_cons ..).mpr ⟨hw, ?_, ih (fun e he => hk e (by simp [he])) ht⟩
      intro e he
      rcases sinsert_mem t k v e he with rfl | he
      · show j < k; omega
      · exact hg e he

/-- A write keeps the canonical form. -/
theorem swf_sset [DecidableEq α] (d : Nat → α) (m : List (Nat × α)) (k : Nat) (v : α) (h : swf d m = true) :
    swf d (sset d m k v) = true := by
  unfold sset
  split
  · exact swf_serase d m k h
  · exact swf_sinsert d _ k v ‹_› (fun e => serase_ne m k e) (swf_serase d m k h)

theorem sget_serase_self (d : Nat → α) (m : List (Nat × α)) (k : Nat) : sget d (serase m k) k = d k := by
  induction m with
  | nil => rfl
  | cons p t ih =>
    obtain ⟨j, v⟩ := p
    simp only [serase]
    split
    · exact ih
    · rename_i hk; simp only [sget, if_neg hk]; exact ih

theorem sget_serase_other (d : Nat → α) (m : List (Nat × α)) (k j : Nat) (h : j ≠ k) : sget d (serase m k) j = sget d m j := by
  induction m with
  | nil => rfl
  | cons p t ih =>
    obtain ⟨i, v⟩ := p
    simp only [serase]
    split
    · rename_i hk; subst hk; simp only [sget, if_neg h]; exact ih
    · simp only [sget]; split
      · rfl
      · exact ih

theorem sget_sinsert_self (d : Nat → α) (m : List (Nat × α)) (k : Nat) (v : α) (hk : ∀ e ∈ m, e.1 ≠ k) :
    sget d (sinsert m k v) k = v := by
  induction m with
  | nil => simp [sinsert, sget]
  | cons p t ih =>
    obtain ⟨j, w⟩ := p
    have hjk : k ≠ j := fun e => hk (j, w) (by simp) e.symm
    simp only [sinsert]
    split
    · simp [sget]
    · simp only [sget, if_neg hjk]; exact ih fun e he => hk e (by simp [he])

theorem sget_sinsert_other (d : Nat → α) (m : List (Nat × α)) (k j : Nat) (v : α) (h : j ≠ k) :
    sget d (sinsert m k v) j = sget d m j := by
  induction m with
  | nil => simp [sinsert, sget, h]
  | cons p t ih =>
    obtain ⟨i, w⟩ := p
    simp only [sinsert]
    split
    · simp [sget, h]
    · simp only [sget]; split
      · rfl
      · exact ih

/-- Reading what was written. -/
theorem sget_sset_self [DecidableEq α] (d : Nat → α) (m : List (Nat × α)) (k : Nat) (v : α) : sget d (sset d m k v) k = v := by
  unfold sset
  split
  · rename_i hv; rw [sget_serase_self, hv]
  · exact sget_sinsert_self d _ k v fun e => serase_ne m k e

/-- A write leaves every other key alone. -/
theorem sget_sset_other [DecidableEq α] (d : Nat → α) (m : List (Nat × α)) (k j : Nat) (v : α) (h : j ≠ k) :
    sget d (sset d m k v) j = sget d m j := by
  unfold sset
  split
  · exact sget_serase_other d m k j h
  · rw [sget_sinsert_other d _ k j v h, sget_serase_other d m k j h]

/-- Entries taken out keep the canonical form. -/
theorem swf_filter [DecidableEq α] (d : Nat → α) (m : List (Nat × α)) (p : Nat × α → Bool) (h : swf d m = true) :
    swf d (m.filter p) = true := by
  induction m with
  | nil => exact h
  | cons e t ih =>
    obtain ⟨j, v⟩ := e
    obtain ⟨hv, hg, ht⟩ := (swf_cons d j v t).mp h
    rw [List.filter_cons]
    split
    · exact (swf_cons ..).mpr ⟨hv, fun e he => hg e ((List.mem_filter.mp he).1), ih ht⟩
    · exact ih ht

/-- Entries changed in place, or taken out where they would hold what is read unlisted, keep the canonical form. -/
theorem swf_filterMap [DecidableEq α] (d : Nat → α) (m : List (Nat × α)) (g : Nat × α → Option (Nat × α))
    (hg : ∀ e f, g e = some f → f.1 = e.1 ∧ f.2 ≠ d f.1) (h : swf d m = true) : swf d (m.filterMap g) = true := by
  induction m with
  | nil => exact h
  | cons e t ih =>
    obtain ⟨j, v⟩ := e
    obtain ⟨-, hgt, ht⟩ := (swf_cons d j v t).mp h
    rw [List.filterMap_cons]
    split
    · exact ih ht
    · rename_i f hf
      obtain ⟨i, w⟩ := f
      obtain ⟨hi, hw⟩ := hg _ _ hf
      simp only at hi hw
      subst hi
      refine (swf_cons ..).mpr ⟨hw, ?_, ih ht⟩
      intro e he
      obtain ⟨e', he', hee⟩ := List.mem_filterMap.mp he
      rw [(hg _ _ hee).1]
      exact hgt e' he'

end Sys2Proof.Laws
end

