-- ==== Sys2Proof/Laws/Keeps.lean ====
section
/-!
SUPPORT. What every part of a command keeps, as one relation between the state before and the state after: the queue of commands
is the same, time does not go back, the canonical form of registers and memories stays, Serge's windows and store buffer stay
consistent, and no programmed fuse bit is lost. The files beside this one prove it of one operation after another.
-/

namespace Sys2Proof.Laws

open Sys2Proof.Machine

/-- What the step from `s` to `t` keeps. -/
structure Keeps (s t : State) : Prop where
  pending : t.pending = s.pending
  now : s.now ≤ t.now
  mem : Memory.wf s = true → Memory.wf t = true
  core : Core.wf s.serge = true → Core.wf t.serge = true
  fuse : Fuse.grows s.fuse t.fuse

theorem Fuse_grows_refl (f : Fuse) : Fuse.grows f f := fun _ => by simp

theorem Fuse_grows_trans {f g h : Fuse} (a : Fuse.grows f g) (b : Fuse.grows g h) : Fuse.grows f h := by
  intro p
  have a := a p
  have b := b p
  generalize sget (fun _ => 0#32) f.words p = x at *
  generalize sget (fun _ => 0#32) g.words p = y at *
  generalize sget (fun _ => 0#32) h.words p = z at *
  rw [← a, BitVec.and_assoc, b]

theorem Keeps.refl (s : State) : Keeps s s := ⟨rfl, Nat.le_refl _, id, id, Fuse_grows_refl _⟩

theorem Keeps.trans {s t u : State} (a : Keeps s t) (b : Keeps t u) : Keeps s u :=
  ⟨b.pending.trans a.pending, Nat.le_trans a.now b.now, b.mem ∘ a.mem, b.core ∘ a.core, Fuse_grows_trans a.fuse b.fuse⟩

/-- A change of anything else. -/
theorem Keeps.same {s t u : State} (h : Keeps s t) (hp : u.pending = t.pending) (hn : u.now = t.now) (hr : u.regs = t.regs)
    (hm : u.mem = t.mem) (hh : u.hostMem = t.hostMem) (hs : u.serge = t.serge) (hf : u.fuse.words = t.fuse.words) : Keeps s u :=
  h.trans ⟨hp, Nat.le_of_eq hn.symm, by simp only [Memory.wf, hr, hm, hh]; exact id, by rw [hs]; exact id,
    by intro p; rw [hf]; simp⟩

/-- A change of anything but the queue, time, registers, memories, Serge and the fuses. -/
theorem Keeps.mkSame {s t : State} (h : Keeps s t) {la : List (Nat × Word)} {fr : Nat} {canvas_ : Canvas} {muslin_ : Muslin} {linen_ : Linen} {keys_ : KeyStore} {digest_ :
    JobUnit} {cipher_ : JobUnit} {ctx_ : Contexts} {rng_ : Rng} {pk_ : Pk} {media_ : Media} {jrn_ : Journal} {power_ :
    Power} {tweed_ : Tweed} {cards_ : Cards} {diag_ : Diag} {ging_ : Ging} {pcie_ : Pcie} {felt_ : Felt} {dict_ : Dict}
    {boot_ : Boot} :
    Keeps s (State.mk t.pending t.regs t.mem la t.hostMem t.now fr canvas_ muslin_ linen_ keys_ digest_ cipher_ ctx_ rng_ pk_ media_ jrn_
      power_ tweed_ t.serge cards_ diag_ ging_ pcie_ felt_ dict_ t.fuse boot_) :=
  h.same rfl rfl rfl rfl rfl rfl rfl

theorem Keeps.ite {s : State} {c : Prop} [Decidable c] {t u : State} (ht : Keeps s t) (hu : Keeps s u) :
    Keeps s (if c then t else u) := by split <;> assumption

theorem Keeps.iteSnd {α : Type} {s : State} {c : Prop} [Decidable c] {t u : α × State} (ht : Keeps s t.2) (hu : Keeps s u.2) :
    Keeps s (if c then t else u).2 := by split <;> assumption

theorem Keeps.foldl {α : Type} {s t : State} {g : State → α → State} {l : List α} (h : Keeps s t)
    (hg : ∀ t x, Keeps s t → Keeps s (g t x)) : Keeps s (l.foldl g t) := by
  induction l generalizing t with
  | nil => exact h
  | cons x l ih => exact ih (hg t x h)

theorem Keeps.foldlSnd {α β : Type} {s : State} {t : β × State} {g : β × State → α → β × State} {l : List α} (h : Keeps s t.2)
    (hg : ∀ (t : β × State) x, Keeps s t.2 → Keeps s (g t x).2) : Keeps s (l.foldl g t).2 := by
  induction l generalizing t with
  | nil => exact h
  | cons x l ih => exact ih (hg t x h)

theorem Keeps.snd {α : Type} {s t : State} {r : α × State} {a : α} (e : r = (a, t)) (h : Keeps s r.2) : Keeps s t := by
  subst e; exact h

theorem Keeps.pair {α : Type} {s t : State} {a : α} (h : Keeps s t) : Keeps s (a, t).2 := h

theorem Keeps.pair2 {α β : Type} {s t : State} {a : α} {b : β} (h : Keeps s t) : Keeps s (a, b, t).2.2 := h

theorem Keeps.snd2 {α β : Type} {s t : State} {r : α × β × State} {a : α} {b : β} (e : r = (a, b, t)) (h : Keeps s r.2.2) : Keeps s t := by
  subst e; exact h

/-- One fact after another. -/
theorem cut {P Q : Prop} (p : P) (q : P → Q) : Q := q p

/-! ## Parts of an instruction -/

/-- What an instruction's part keeps, whatever it leads to. -/
def ActKeeps {α : Type} (s : State) : Act α → Prop
  | .ok _ t => Keeps s t
  | .trap _ _ t => Keeps s t
  | .noUnit t => Keeps s t

theorem ActKeeps.ite {α : Type} {s : State} {c : Prop} [Decidable c] {t u : Act α} (ht : ActKeeps s t) (hu : ActKeeps s u) :
    ActKeeps s (if c then t else u) := by split <;> assumption

theorem ActKeeps.bind {α β : Type} {s : State} {r : Act α} {g : α → State → Act β} (h : ActKeeps s r)
    (hg : ∀ a t, Keeps s t → ActKeeps s (g a t)) : ActKeeps s (r.bind g) := by
  cases r with
  | ok a t => exact hg a t h
  | trap c e t => exact h
  | noUnit t => exact h

theorem ActKeeps.ok {α : Type} {s t : State} {a : α} (h : Keeps s t) : ActKeeps s (Act.ok a t) := h
theorem ActKeeps.trap {α : Type} {s t : State} {c : Nat} {e : Word} (h : Keeps s t) : ActKeeps s (Act.trap c e t : Act α) := h
theorem ActKeeps.noUnit {α : Type} {s t : State} (h : Keeps s t) : ActKeeps s (Act.noUnit t : Act α) := h

theorem Keeps.ofOk {α : Type} {s t : State} {r : Act α} {a : α} (e : r = .ok a t) (h : ActKeeps s r) : Keeps s t := by
  subst e; exact h
theorem Keeps.ofTrap {α : Type} {s t : State} {r : Act α} {c : Nat} {v : Word} (e : r = .trap c v t) (h : ActKeeps s r) :
    Keeps s t := by
  subst e; exact h
theorem Keeps.ofNoUnit {α : Type} {s t : State} {r : Act α} (e : r = .noUnit t) (h : ActKeeps s r) : Keeps s t := by
  subst e; exact h

/-! ## Primitive changes -/

theorem keeps_State_wr {s t : State} (h : Keeps s t) {a : Nat} {w : Word} : Keeps s (t.wr a w) :=
  h.trans ⟨rfl, Nat.le_refl _, by
    simp only [Memory.wf, State.wr, Bool.and_eq_true]
    exact fun ⟨⟨hr, hm⟩, hh⟩ => ⟨⟨swf_sset _ _ _ _ hr, hm⟩, hh⟩, id, Fuse_grows_refl _⟩

theorem keeps_State_setByte {s t : State} (h : Keeps s t) {a : Nat} {b : Byte} : Keeps s (t.setByte a b) :=
  h.trans ⟨rfl, Nat.le_refl _, by
    simp only [Memory.wf, State.setByte, Bool.and_eq_true]
    exact fun ⟨⟨hr, hm⟩, hh⟩ => ⟨⟨hr, swf_sset _ _ _ _ hm⟩, hh⟩, id, Fuse_grows_refl _⟩

theorem keeps_State_store {s t : State} (h : Keeps s t) {a : Nat} {bs : Bytes} : Keeps s (t.store a bs) := by
  induction bs generalizing a t with
  | nil => exact h
  | cons b bs ih => exact ih (keeps_State_setByte h)

theorem keeps_State_wrWords {s t : State} (h : Keeps s t) {a : Nat} {ws : List Word} : Keeps s (t.wrWords a ws) := by
  induction ws generalizing a t with
  | nil => exact h
  | cons w ws ih => exact ih (keeps_State_wr h)

theorem keeps_State_hostStore {s t : State} (h : Keeps s t) {a : Nat} {bs : Bytes} : Keeps s (t.hostStore a bs) := by
  induction bs generalizing a t with
  | nil => exact h
  | cons b bs ih =>
    refine ih (t := { t with hostMem := sset hostDefault t.hostMem a b })
      (h.trans ⟨rfl, Nat.le_refl _, ?_, id, Fuse_grows_refl _⟩)
    simp only [Memory.wf, Bool.and_eq_true]
    exact fun ⟨⟨hr, hm⟩, hh⟩ => ⟨⟨hr, hm⟩, swf_sset _ _ _ _ hh⟩

theorem keeps_State_at {s t : State} (h : Keeps s t) {n : Nat} : Keeps s (t.at n) :=
  h.trans ⟨rfl, Nat.le_max_left _ _, id, id, Fuse_grows_refl _⟩

theorem keeps_State_fresh {s t : State} (h : Keeps s t) : Keeps s t.fresh := h.same rfl rfl rfl rfl rfl rfl rfl

/-- A change of Serge that keeps its windows and its store buffer. -/
theorem Keeps.onSerge {s t : State} (h : Keeps s t) {g : Serge → Serge} (hg : Core.wf t.serge = true → Core.wf (g t.serge) = true) :
    Keeps s (t.onSerge g) :=
  h.trans ⟨rfl, Nat.le_refl _, id, hg, Fuse_grows_refl _⟩

theorem Keeps.onSergeSame {s t : State} (h : Keeps s t) {g : Serge → Serge} (h1 : ∀ c, (g c).cwp = c.cwp)
    (h2 : ∀ c, (g c).oldest = c.oldest) (h3 : ∀ c, (g c).count = c.count) (h4 : ∀ c, (g c).buf = c.buf) :
    Keeps s (t.onSerge g) :=
  h.onSerge (by simp only [Core.wf, h1, h2, h3, h4]; exact id)

/-- A change of Serge that empties its store buffer. -/
theorem Keeps.onSergeEmpty {s t : State} (h : Keeps s t) {g : Serge → Serge} (h1 : ∀ c, (g c).cwp = c.cwp)
    (h2 : ∀ c, (g c).oldest = c.oldest) (h3 : ∀ c, (g c).count = c.count) (h4 : ∀ c, (g c).buf = []) : Keeps s (t.onSerge g) :=
  h.onSerge (by
    simp only [Core.wf, h1, h2, h3, h4, decide_eq_true_eq, List.length_nil]
    exact fun ⟨a, b, c, d, e, _⟩ => ⟨a, b, c, d, e, Nat.zero_le _⟩)

theorem keeps_State_onCanvas {s t : State} (h : Keeps s t) {g : Canvas → Canvas} : Keeps s (t.onCanvas g) :=
  h.same rfl rfl rfl rfl rfl rfl rfl
theorem keeps_State_onMuslin {s t : State} (h : Keeps s t) {g : Muslin → Muslin} : Keeps s (t.onMuslin g) :=
  h.same rfl rfl rfl rfl rfl rfl rfl
theorem keeps_State_onLinen {s t : State} (h : Keeps s t) {g : Linen → Linen} : Keeps s (t.onLinen g) :=
  h.same rfl rfl rfl rfl rfl rfl rfl
theorem keeps_State_onKeys {s t : State} (h : Keeps s t) {g : KeyStore → KeyStore} : Keeps s (t.onKeys g) :=
  h.same rfl rfl rfl rfl rfl rfl rfl
theorem keeps_State_onRng {s t : State} (h : Keeps s t) {g : Rng → Rng} : Keeps s (t.onRng g) :=
  h.same rfl rfl rfl rfl rfl rfl rfl
theorem keeps_State_onPk {s t : State} (h : Keeps s t) {g : Pk → Pk} : Keeps s (t.onPk g) :=
  h.same rfl rfl rfl rfl rfl rfl rfl
theorem keeps_State_onCtx {s t : State} (h : Keeps s t) {g : Contexts → Contexts} : Keeps s (t.onCtx g) :=
  h.same rfl rfl rfl rfl rfl rfl rfl
theorem keeps_State_onMedia {s t : State} (h : Keeps s t) {g : Media → Media} : Keeps s (t.onMedia g) :=
  h.same rfl rfl rfl rfl rfl rfl rfl
theorem keeps_State_onJrn {s t : State} (h : Keeps s t) {g : Journal → Journal} : Keeps s (t.onJrn g) :=
  h.same rfl rfl rfl rfl rfl rfl rfl
theorem keeps_State_onPower {s t : State} (h : Keeps s t) {g : Power → Power} : Keeps s (t.onPower g) :=
  h.same rfl rfl rfl rfl rfl rfl rfl
theorem keeps_State_onDiag {s t : State} (h : Keeps s t) {g : Diag → Diag} : Keeps s (t.onDiag g) :=
  h.same rfl rfl rfl rfl rfl rfl rfl
theorem keeps_State_onGing {s t : State} (h : Keeps s t) {g : Ging → Ging} : Keeps s (t.onGing g) :=
  h.same rfl rfl rfl rfl rfl rfl rfl
theorem keeps_State_onPcie {s t : State} (h : Keeps s t) {g : Pcie → Pcie} : Keeps s (t.onPcie g) :=
  h.same rfl rfl rfl rfl rfl rfl rfl
theorem keeps_State_onFelt {s t : State} (h : Keeps s t) {g : Felt → Felt} : Keeps s (t.onFelt g) :=
  h.same rfl rfl rfl rfl rfl rfl rfl
theorem keeps_State_onDict {s t : State} (h : Keeps s t) {g : Dict → Dict} : Keeps s (t.onDict g) :=
  h.same rfl rfl rfl rfl rfl rfl rfl
theorem keeps_State_onBoot {s t : State} (h : Keeps s t) {g : Boot → Boot} : Keeps s (t.onBoot g) :=
  h.same rfl rfl rfl rfl rfl rfl rfl
theorem keeps_State_onTweed {s t : State} (h : Keeps s t) {g : Tweed → Tweed} : Keeps s (t.onTweed g) :=
  h.same rfl rfl rfl rfl rfl rfl rfl
theorem keeps_State_onCards {s t : State} (h : Keeps s t) {g : Cards → Cards} : Keeps s (t.onCards g) :=
  h.same rfl rfl rfl rfl rfl rfl rfl

/-- Fuse bits programmed: none is lost (R1034). -/
theorem keeps_fuseProgram {s0 s : State} (k : Keeps s0 s) {p : Nat} {w : Word} : Keeps s0 (fuseProgram p w s) := by
  refine k.trans ⟨rfl, Nat.le_refl _, id, id, ?_⟩
  intro q
  show _ &&& sget (fun _ => 0#32) (sset (fun _ => 0#32) s.fuse.words p (sget (fun _ => 0#32) s.fuse.words p ||| w)) q = _
  by_cases h : q = p
  · subst h
    rw [sget_sset_self]
    generalize sget (fun _ => 0#32) s.fuse.words q = x
    ext i hi
    simp only [BitVec.getElem_and, BitVec.getElem_or]
    cases x[i] <;> simp
  · rw [sget_sset_other _ _ _ _ _ h]; simp

/-- A change of the fuse array's other state. -/
theorem Keeps.onFuse {s t : State} (h : Keeps s t) {g : Fuse → Fuse} (hg : ∀ f, (g f).words = f.words) :
    Keeps s (t.onFuse g) := h.same rfl rfl rfl rfl rfl rfl (hg _)

end Sys2Proof.Laws
end

