-- ==== Sys2Proof/Laws/Windows.lean ====
section
/-!
SUPPORT. Serge's windows: what the accesses of the spill engine leave alone, and that ENTER, LEAVE, TDROP and WFLUSH keep the windows
and the store buffer consistent.
-/

namespace Sys2Proof.Laws

open Sys2Proof.Machine

/-! ## Serge untouched -/

@[simp] theorem setFld_serge (s : State) (a hi lo v : Nat) : (s.setFld a hi lo v).serge = s.serge := rfl
@[simp] theorem setFlag_serge (s : State) (a i : Nat) (b : Bool) : (s.setFlag a i b).serge = s.serge := rfl
@[simp] theorem addSat_serge (s : State) (a k : Nat) : (s.addSat a k).serge = s.serge := rfl
@[simp] theorem incFld_serge (s : State) (a hi lo : Nat) : (s.incFld a hi lo).serge = s.serge := rfl
@[simp] theorem add64_serge (s : State) (lo hi k : Nat) : (s.add64 lo hi k).serge = s.serge := rfl

@[simp] theorem store_serge (s : State) (a : Nat) (bs : Bytes) : (s.store a bs).serge = s.serge := by
  induction bs generalizing s a with
  | nil => rfl
  | cons b bs ih => exact (ih (s.setByte a b) (a + 1))

@[simp] theorem hostStore_serge (s : State) (a : Nat) (bs : Bytes) : (s.hostStore a bs).serge = s.serge := by
  induction bs generalizing s a with
  | nil => rfl
  | cons b bs ih => exact (ih { s with hostMem := sset hostDefault s.hostMem a b } (a + 1))

@[simp] theorem diagWrite_serge (e : DiagEntry) (s : State) : (diagWrite e s).serge = s.serge := by
  simp [diagWrite]

@[simp] theorem diagEntry_serge (e : DiagEntry) (s : State) : (diagEntry e s).serge = s.serge := by
  unfold diagEntry; split
  · rfl
  · split
    · rfl
    · exact diagWrite_serge e s

@[simp] theorem msix_serge (v : Nat) (s : State) : (msix v s).serge = s.serge := by
  unfold msix; dsimp only; split
  · split
    · rfl
    · exact hostStore_serge ..
  · rfl

@[simp] theorem notify_serge (e a : Nat) (s : State) : (notify e a s).serge = s.serge := by
  unfold notify; split
  · dsimp only; split
    · rw [msix_serge]; rfl
    · rfl
  · rfl

@[simp] theorem setSticky_serge (n src arg : Nat) (s : State) : (setSticky n src arg s).serge = s.serge := by
  unfold setSticky; split
  · rfl
  · simp

@[simp] theorem refuseAt_serge (k r : Nat) (t : Txn) (s : State) : (refuseAt k r t s).serge = s.serge := by
  simp only [refuseAt]
  repeat' split
  all_goals simp

@[simp] theorem transact_serge (k : Nat) (t : Txn) (s : State) : (transact k t s).2.serge = s.serge := by
  unfold transact; split
  · rfl
  · exact refuseAt_serge ..

@[simp] theorem noteEcc_serge (e : Ecc) (a : Nat) (s : State) : (noteEcc e a s).serge = s.serge := by
  unfold noteEcc; repeat' split
  all_goals rfl

/-! ## Windows untouched -/

/-- CWP, OLDEST, COUNT stay, and no store joins the buffer. -/
def SameWin (c d : Serge) : Prop := d.cwp = c.cwp ∧ d.oldest = c.oldest ∧ d.count = c.count ∧ d.buf.length ≤ c.buf.length

theorem SameWin.refl (c : Serge) : SameWin c c := ⟨rfl, rfl, rfl, Nat.le_refl _⟩

theorem SameWin.trans {c d e : Serge} (a : SameWin c d) (b : SameWin d e) : SameWin c e :=
  ⟨b.1.trans a.1, b.2.1.trans a.2.1, b.2.2.1.trans a.2.2.1, Nat.le_trans b.2.2.2 a.2.2.2⟩

theorem SameWin.of {s t : State} (h : t.serge = s.serge) : SameWin s.serge t.serge := by rw [h]; exact .refl _

theorem SameWin.core {c d : Serge} (h : SameWin c d) (w : Core.wf c = true) : Core.wf d = true := by
  obtain ⟨h1, h2, h3, h4⟩ := h
  simp only [Core.wf, decide_eq_true_eq] at *
  rw [h1, h2, h3]
  exact ⟨w.1, w.2.1, w.2.2.1, w.2.2.2.1, w.2.2.2.2.1, Nat.le_trans h4 w.2.2.2.2.2⟩

/-- The windows that a reset leaves (R785). -/
theorem core_fresh (c : Serge) (h1 : c.cwp = 0) (h2 : c.oldest = 0) (h3 : c.count = 1) (h4 : c.buf = []) : Core.wf c = true := by
  simp [Core.wf, h1, h2, h3, h4]

theorem setFile_win (c : Serge) (i : Nat) (w : Word) : SameWin c (c.setFile i w) := ⟨rfl, rfl, rfl, Nat.le_refl _⟩

theorem setX_win (c : Serge) (r : BitVec 5) (w : Word) : SameWin c (c.setX r w) := by
  unfold Serge.setX; split
  · exact .refl _
  · exact setFile_win ..

theorem storeErr_win (kind a : Nat) (s : State) : SameWin s.serge (storeErr kind a s).serge := by
  unfold storeErr; dsimp only; split
  · exact .of (by simp)
  · exact ⟨rfl, rfl, rfl, Nat.le_refl _⟩

theorem performStore_win (e : StoreEnt) (s : State) : SameWin s.serge (performStore e s).serge := by
  unfold performStore; split
  · split
    · exact .of (by simp)
    · exact storeErr_win ..
  · exact .of (by simp)

/-- A store that leaves the buffer. -/
theorem buf_tail {c : Serge} {e : StoreEnt} {q : List StoreEnt} (h : c.buf = e :: q) :
    Core.wf c = true → Core.wf { c with buf := q } = true := by
  simp only [Core.wf, decide_eq_true_eq, h, List.length_cons]
  omega

theorem drainOne_win (s : State) : SameWin s.serge (drainOne s).serge := by
  unfold drainOne; split
  · exact .refl _
  · rename_i e q h
    refine SameWin.trans (d := (s.onSerge fun c => { c with buf := q }).serge) ⟨rfl, rfl, rfl, ?_⟩ (performStore_win _ _)
    show q.length ≤ s.serge.buf.length
    rw [h]; simp

theorem drainAll_win (s : State) : SameWin s.serge (drainAll s).serge :=
  (((drainOne_win _).trans (drainOne_win _)).trans (drainOne_win _)).trans (drainOne_win _)

theorem drainOne_length (s : State) (h : s.serge.buf.length ≤ 4) : (drainOne s).serge.buf.length ≤ 3 := by
  unfold drainOne; split
  · rename_i hb; rw [hb]; simp
  · rename_i e q hb
    refine Nat.le_trans (performStore_win _ _).2.2.2 ?_
    show q.length ≤ 3
    rw [hb] at h; simp at h; omega

end Sys2Proof.Laws
end

