-- ==== Sys2Proof/Laws/KeepsOps.lean ====
section
/-!
SUPPORT. What every operation of Machine/Ops.lean keeps (`Keeps`, Laws/Keeps.lean).
-/

namespace Sys2Proof.Laws

open Sys2Proof.Machine

theorem keeps_State_setFld {s0 s : State} (hk : Keeps s0 s) {a : Nat} {hi : Nat} {lo : Nat} {v : Nat} :
    Keeps s0 (State.setFld s a hi lo v) := by
  unfold State.setFld
  exact keeps_State_wr ‹_›

theorem keeps_State_setFlag {s0 s : State} (hk : Keeps s0 s) {a : Nat} {i : Nat} {b : Bool} :
    Keeps s0 (State.setFlag s a i b) := by
  unfold State.setFlag
  exact keeps_State_setFld ‹_›

theorem keeps_State_raise {s0 s : State} (hk : Keeps s0 s) {a : Nat} {i : Nat} :
    Keeps s0 (State.raise s a i) := by
  unfold State.raise
  exact keeps_State_setFlag ‹_›

theorem keeps_State_addSat {s0 s : State} (hk : Keeps s0 s) {a : Nat} {k : Nat} :
    Keeps s0 (State.addSat s a k) := by
  unfold State.addSat
  exact keeps_State_wr ‹_›

theorem keeps_State_wr64 {s0 s : State} (hk : Keeps s0 s) {lo : Nat} {hi : Nat} {v : Nat} :
    Keeps s0 (State.wr64 s lo hi v) := by
  unfold State.wr64
  exact keeps_State_wr (keeps_State_wr ‹_›)

theorem keeps_State_add64 {s0 s : State} (hk : Keeps s0 s) {lo : Nat} {hi : Nat} {k : Nat} :
    Keeps s0 (State.add64 s lo hi k) := by
  unfold State.add64
  exact keeps_State_wr64 ‹_›

theorem keeps_diagWrite {s0 s : State} (hk : Keeps s0 s) {e : DiagEntry} :
    Keeps s0 (diagWrite e s) := by
  unfold diagWrite
  extract_lets +onlyGivenNames v0
  clear_value v0
  extract_lets +onlyGivenNames v1
  refine cut (P := Keeps s0 v1) ?_ fun k2 => ?_
  · unfold v1
    exact keeps_State_store ‹_›
  clear_value v1
  extract_lets +onlyGivenNames v3
  refine cut (P := Keeps s0 v3) ?_ fun k4 => ?_
  · unfold v3
    exact keeps_State_setFld ‹_›
  clear_value v3
  exact keeps_State_add64 ‹_›

theorem keeps_diagEntry {s0 s : State} (hk : Keeps s0 s) {e : DiagEntry} :
    Keeps s0 (diagEntry e s) := by
  unfold diagEntry
  refine Keeps.ite ?_ ?_
  · assumption
  refine Keeps.ite ?_ ?_
  · exact Keeps.mkSame ‹_›
  exact keeps_diagWrite ‹_›

theorem keeps_msix {s0 s : State} (hk : Keeps s0 s) {vec : Nat} :
    Keeps s0 (msix vec s) := by
  unfold msix
  extract_lets +onlyGivenNames v0
  clear_value v0
  refine Keeps.ite ?_ ?_
  · refine Keeps.ite ?_ ?_
    · exact Keeps.mkSame ‹_›
    exact keeps_State_hostStore ‹_›
  assumption

theorem keeps_State_incFld {s0 s : State} (hk : Keeps s0 s) {a : Nat} {hi : Nat} {lo : Nat} :
    Keeps s0 (State.incFld s a hi lo) := by
  unfold State.incFld
  exact keeps_State_setFld ‹_›

theorem keeps_notify {s0 s : State} (hk : Keeps s0 s) {event : Nat} {arg : Nat} :
    Keeps s0 (notify event arg s) := by
  unfold notify
  refine Keeps.ite ?_ ?_
  · extract_lets +onlyGivenNames v0
    clear_value v0
    extract_lets +onlyGivenNames v1
    clear_value v1
    extract_lets +onlyGivenNames v2
    clear_value v2
    extract_lets +onlyGivenNames v3
    refine cut (P := Keeps s0 v3) ?_ fun k4 => ?_
    · unfold v3
      exact Keeps.mkSame ‹_›
    extract_lets +onlyGivenNames v5
    refine cut (P := Keeps s0 v5) ?_ fun k6 => ?_
    · unfold v5
      exact keeps_State_addSat ‹_›
    refine Keeps.ite ?_ ?_
    · extract_lets +onlyGivenNames v7
      clear_value v7
      extract_lets +onlyGivenNames v8
      clear_value v8
      extract_lets +onlyGivenNames v9
      refine cut (P := Keeps s0 v9) ?_ fun k10 => ?_
      · unfold v9
        exact Keeps.mkSame ‹_›
      clear_value v9
      exact keeps_msix ‹_›
    exact keeps_State_incFld ‹_›
  assumption

theorem keeps_setSticky {s0 s : State} (hk : Keeps s0 s) {n : Nat} {src : Nat} {arg : Nat} :
    Keeps s0 (setSticky n src arg s) := by
  unfold setSticky
  refine Keeps.ite ?_ ?_
  · assumption
  extract_lets +onlyGivenNames v0
  refine cut (P := Keeps s0 v0) ?_ fun k1 => ?_
  · unfold v0
    exact keeps_State_setFlag ‹_›
  clear_value v0
  extract_lets +onlyGivenNames v2
  refine cut (P := Keeps s0 v2) ?_ fun k3 => ?_
  · unfold v2
    exact keeps_State_setFlag ‹_›
  clear_value v2
  extract_lets +onlyGivenNames v4
  refine cut (P := Keeps s0 v4) ?_ fun k5 => ?_
  · unfold v4
    exact keeps_diagEntry ‹_›
  clear_value v4
  exact keeps_notify ‹_›

end Sys2Proof.Laws
end

