-- ==== Sys2Proof/Laws/KeepsAccess.lean ====
section
/-!
SUPPORT. What every operation of Machine/Access.lean keeps (`Keeps`, Laws/Keeps.lean).
-/

namespace Sys2Proof.Laws

open Sys2Proof.Machine

theorem keeps_refuseAt {s0 s : State} (hk : Keeps s0 s) {k : Nat} {region : Nat} {t : Txn} :
    Keeps s0 (refuseAt k region t s) := by
  unfold refuseAt
  extract_lets +onlyGivenNames v0
  refine cut (P := Keeps s0 v0) ?_ fun k1 => ?_
  · unfold v0
    exact keeps_State_addSat ‹_›
  clear_value v0
  extract_lets +onlyGivenNames v2
  refine cut (P := Keeps s0 v2) ?_ fun k3 => ?_
  · unfold v2
    exact keeps_State_wr ‹_›
  clear_value v2
  extract_lets +onlyGivenNames v4
  refine cut (P := Keeps s0 v4) ?_ fun k5 => ?_
  · unfold v4
    refine Keeps.ite ?_ ?_
    · exact keeps_State_wr ‹_›
    assumption
  clear_value v4
  extract_lets +onlyGivenNames v6
  refine cut (P := Keeps s0 v6) ?_ fun k7 => ?_
  · unfold v6
    exact keeps_State_wr ‹_›
  clear_value v6
  extract_lets +onlyGivenNames v8
  refine cut (P := Keeps s0 v8) ?_ fun k9 => ?_
  · unfold v8
    refine Keeps.ite ?_ ?_
    · assumption
    exact keeps_State_setFlag ‹_›
  clear_value v8
  refine Keeps.ite ?_ ?_
  · assumption
  exact keeps_setSticky ‹_›

theorem keeps_transact {s0 s : State} (hk : Keeps s0 s) {k : Nat} {t : Txn} :
    Keeps s0 (transact k t s).2 := by
  unfold transact
  split
  · rename_i x0 x1 e2
    exact Keeps.pair ‹_›
  rename_i x3 x4 e5
  exact Keeps.pair (keeps_refuseAt ‹_›)

theorem keeps_jobAccess {s0 s : State} (hk : Keeps s0 s) {master : Nat} {tag : Option Nat} {w : Bool} {a : Nat} {n : Nat} :
    Keeps s0 (jobAccess master tag w a n s).2 := by
  unfold jobAccess
  extract_lets +onlyGivenNames v0
  clear_value v0
  split
  · rename_i x1 e2
    exact Keeps.pair ‹_›
  rename_i x3 x4 e5
  split
  · rename_i x6 x7 e8
    refine cut (P := Keeps s0 x7) ?_ fun k9 => ?_
    · exact Keeps.snd e8 (keeps_transact ‹_›)
    exact Keeps.pair ‹_›
  rename_i x10 x11 x12 e13
  refine cut (P := Keeps s0 x12) ?_ fun k14 => ?_
  · exact Keeps.snd e13 (keeps_transact ‹_›)
  refine Keeps.iteSnd ?_ ?_
  · exact Keeps.pair ‹_›
  refine Keeps.iteSnd ?_ ?_
  · split
    · rename_i x15 x16 e17
      refine cut (P := Keeps s0 x16) ?_ fun k18 => ?_
      · exact Keeps.snd e17 (keeps_transact ‹_›)
      exact Keeps.pair ‹_›
    rename_i x19 x20 x21 e22
    refine cut (P := Keeps s0 x21) ?_ fun k23 => ?_
    · exact Keeps.snd e22 (keeps_transact ‹_›)
    exact Keeps.pair ‹_›
  exact Keeps.pair ‹_›

end Sys2Proof.Laws
end

