-- ==== Sys2Proof/Laws/KeepsAssert.lean ====
section
/-!
SUPPORT. What every operation of Machine/Assert.lean keeps (`Keeps`, Laws/Keeps.lean).
-/

namespace Sys2Proof.Laws

open Sys2Proof.Machine

theorem keeps_nmi {s0 s : State} (hk : Keeps s0 s) {k : Nat} :
    Keeps s0 (nmi k s) := by
  unfold nmi
  exact keeps_State_raise ‹_›

theorem keeps_assertReset {s0 s : State} (hk : Keeps s0 s) {cause : Nat} :
    Keeps s0 (assertReset cause s) := by
  unfold assertReset
  refine Keeps.ite ?_ ?_
  · exact keeps_State_onFelt ‹_›
  refine Keeps.ite ?_ ?_
  · assumption
  extract_lets +onlyGivenNames v0
  refine cut (P := Keeps s0 v0) ?_ fun k1 => ?_
  · unfold v0
    exact keeps_State_onPower (keeps_State_setFlag ‹_›)
  clear_value v0
  refine Keeps.onSergeEmpty ?_ (fun _ => rfl) (fun _ => rfl) (fun _ => rfl) (fun _ => rfl)
  assumption

theorem keeps_whenLive {s0 s : State} (hk : Keeps s0 s) {g : State → State} (hg_g : ∀ {u : State}, Keeps s0 u → Keeps s0 (g u)) :
    Keeps s0 (whenLive g s) := by
  unfold whenLive
  refine Keeps.ite ?_ ?_
  · exact hg_g ‹_›
  assumption

end Sys2Proof.Laws
end

