-- ==== Sys2Proof/Laws/KeepsRng.lean ====
section
/-!
SUPPORT. What every operation of Machine/Rng.lean keeps (`Keeps`, Laws/Keeps.lean).
-/

namespace Sys2Proof.Laws

open Sys2Proof.Machine

theorem keeps_drbgServe {s0 s : State} (hk : Keeps s0 s) {n : Nat} :
    Keeps s0 (drbgServe n s).2 := by
  unfold drbgServe
  refine Keeps.pair ?_
  extract_lets +onlyGivenNames v0
  refine cut (P := Keeps s0 v0) ?_ fun k1 => ?_
  · unfold v0
    exact keeps_State_fresh ‹_›
  clear_value v0
  exact Keeps.mkSame ‹_›

theorem keeps_drbgRequest {s0 s : State} (hk : Keeps s0 s) {n : Nat} :
    Keeps s0 (drbgRequest n s).2 := by
  unfold drbgRequest
  refine Keeps.iteSnd ?_ ?_
  · exact Keeps.pair ‹_›
  refine Keeps.iteSnd ?_ ?_
  · split
    · rename_i x0 e1
      extract_lets +onlyGivenNames v2
      refine cut (P := Keeps s0 v2) ?_ fun k3 => ?_
      · unfold v2
        exact keeps_State_add64 ‹_›
      clear_value v2
      exact keeps_drbgServe (Keeps.mkSame ‹_›)
    · rename_i x4 e5
      exact Keeps.pair (Keeps.mkSame ‹_›)
    rename_i x6 e7 e8
    exact Keeps.pair ‹_›
  exact keeps_drbgServe ‹_›

theorem keeps_drbgNow {s0 s : State} (hk : Keeps s0 s) {n : Nat} :
    Keeps s0 (drbgNow n s).2 := by
  unfold drbgNow
  split
  rename_i x0 x1 x2 e3
  refine cut (P := Keeps s0 x2) ?_ fun k4 => ?_
  · exact Keeps.snd e3 (keeps_drbgRequest ‹_›)
  split
  · rename_i x5 x6
    exact Keeps.pair ‹_›
  · rename_i x7
    exact Keeps.pair (keeps_State_fresh ‹_›)
  rename_i x8
  exact Keeps.pair ‹_›

theorem keeps_otherDeliver {s0 a3 : State} (hk : Keeps s0 a3) {n : Nat} {a2 : DrbgAns} :
    Keeps s0 (otherDeliver n a2 a3) := by
  unfold otherDeliver
  split
  · rename_i x0 x1 x2
    exact Keeps.mkSame ‹_›
  · rename_i x3 x4
    exact Keeps.mkSame ‹_›
  rename_i x5 x6
  exact Keeps.mkSame ‹_›

theorem keeps_drbgAsk {s0 s : State} (hk : Keeps s0 s) {n : Nat} :
    Keeps s0 (drbgAsk n s) := by
  unfold drbgAsk
  split
  rename_i x0 x1 x2 e3
  refine cut (P := Keeps s0 x2) ?_ fun k4 => ?_
  · exact Keeps.snd e3 (keeps_drbgRequest ‹_›)
  exact keeps_otherDeliver ‹_›

theorem keeps_outDeliver {s0 a2 : State} (hk : Keeps s0 a2) {a1 : DrbgAns} :
    Keeps s0 (outDeliver a1 a2) := by
  unfold outDeliver
  split
  · rename_i x0 x1 x2
    exact keeps_State_wr ‹_›
  · rename_i x3 x4
    exact Keeps.mkSame ‹_›
  rename_i x5 x6
  exact keeps_State_raise (keeps_State_wr ‹_›)

theorem keeps_outRead {s0 s : State} (hk : Keeps s0 s) :
    Keeps s0 (outRead s) := by
  unfold outRead
  split
  rename_i x0 x1 x2 e3
  refine cut (P := Keeps s0 x2) ?_ fun k4 => ?_
  · exact Keeps.snd e3 (keeps_drbgRequest ‹_›)
  exact keeps_outDeliver ‹_›

theorem keeps_healthFail {s0 s : State} (hk : Keeps s0 s) :
    Keeps s0 (healthFail s) := by
  unfold healthFail
  extract_lets +onlyGivenNames v0
  refine cut (P := Keeps s0 v0) ?_ fun k1 => ?_
  · unfold v0
    exact keeps_State_addSat ‹_›
  extract_lets +onlyGivenNames v2
  clear_value v2
  extract_lets +onlyGivenNames v3
  extract_lets +onlyGivenNames v4
  refine cut (P := Keeps s0 v4) ?_ fun k5 => ?_
  · unfold v4
    exact Keeps.mkSame ‹_›
  refine Keeps.ite ?_ ?_
  · exact keeps_setSticky (Keeps.mkSame ‹_›)
  refine Keeps.ite ?_ ?_
  · assumption
  exact Keeps.mkSame ‹_›

end Sys2Proof.Laws
end

