-- ==== Sys2Proof/Laws/KeepsKeyStore.lean ====
section
/-!
SUPPORT. What every operation of Machine/KeyStore.lean keeps (`Keeps`, Laws/Keeps.lean).
-/

namespace Sys2Proof.Laws

open Sys2Proof.Machine

theorem keeps_ksResult {s0 s : State} (hk : Keeps s0 s) {code : Nat} {h : Nat} :
    Keeps s0 (ksResult code h s) := by
  unfold ksResult
  exact keeps_State_wr ‹_›

theorem keeps_ksDone {s0 s : State} (hk : Keeps s0 s) {code : Nat} {h : Nat} :
    Keeps s0 (ksDone code h s) := by
  unfold ksDone
  extract_lets +onlyGivenNames v0
  refine cut (P := Keeps s0 v0) ?_ fun k1 => ?_
  · unfold v0
    exact keeps_State_raise (keeps_ksResult ‹_›)
  clear_value v0
  exact Keeps.mkSame ‹_›

theorem keeps_putSlot {s0 s : State} (hk : Keeps s0 s) {n : Nat} {k : KeySlot} :
    Keeps s0 (putSlot n k s) := by
  unfold putSlot
  extract_lets +onlyGivenNames v0
  clear_value v0
  extract_lets +onlyGivenNames v1
  clear_value v1
  exact Keeps.mkSame ‹_›

theorem keeps_zeroizeSlot {s0 s : State} (hk : Keeps s0 s) {n : Nat} :
    Keeps s0 (zeroizeSlot n s) := by
  unfold zeroizeSlot
  exact keeps_putSlot ‹_›

theorem keeps_ksDoneSlot {s0 s : State} (hk : Keeps s0 s) {n : Nat} {h : Nat} :
    Keeps s0 (ksDoneSlot n h s) := by
  unfold ksDoneSlot
  refine Keeps.ite ?_ ?_
  · exact Keeps.mkSame ‹_›
  exact keeps_ksDone ‹_›

theorem keeps_ksZeroize {s0 s : State} (hk : Keeps s0 s) {h : Nat} :
    Keeps s0 (ksZeroize h s) := by
  unfold ksZeroize
  refine Keeps.ite ?_ ?_
  · exact keeps_ksDone ‹_›
  extract_lets +onlyGivenNames v0
  refine cut (P := Keeps s0 v0) ?_ fun k1 => ?_
  · unfold v0
    exact keeps_zeroizeSlot ‹_›
  clear_value v0
  exact keeps_ksDoneSlot ‹_›

theorem keeps_keysPowerLoss {s0 s : State} (hk : Keeps s0 s) :
    Keeps s0 (keysPowerLoss s) := by
  unfold keysPowerLoss
  extract_lets +onlyGivenNames v0
  clear_value v0
  extract_lets +onlyGivenNames v1
  clear_value v1
  exact Keeps.mkSame ‹_›

theorem keeps_fillSlot {s0 s : State} (hk : Keeps s0 s) {h : Nat} {bs : Bytes} {tag : Option Nat} :
    Keeps s0 (fillSlot h bs tag s).2 := by
  unfold fillSlot
  extract_lets +onlyGivenNames v0
  clear_value v0
  refine Keeps.iteSnd ?_ ?_
  · exact Keeps.pair ‹_›
  refine Keeps.iteSnd ?_ ?_
  · exact Keeps.pair ‹_›
  refine Keeps.iteSnd ?_ ?_
  · exact Keeps.pair ‹_›
  refine Keeps.iteSnd ?_ ?_
  · exact Keeps.pair ‹_›
  exact Keeps.pair (keeps_putSlot ‹_›)

theorem keeps_zeroAllSlots {s0 a2 : State} (hk : Keeps s0 a2) {a1 : List Nat} :
    Keeps s0 (zeroAllSlots a1 a2) := by
  induction a1 generalizing a2
  · unfold zeroAllSlots
    assumption
  · rename_i hd tl ih
    unfold zeroAllSlots
    extract_lets +onlyGivenNames v0
    refine cut (P := Keeps s0 v0) ?_ fun k1 => ?_
    · unfold v0
      refine Keeps.ite ?_ ?_
      · exact keeps_zeroizeSlot ‹_›
      assumption
    clear_value v0
    exact ih ‹_›

theorem keeps_zeroAllKeys {s0 s : State} (hk : Keeps s0 s) :
    Keeps s0 (zeroAllKeys s) := by
  unfold zeroAllKeys
  extract_lets +onlyGivenNames v0
  refine cut (P := Keeps s0 v0) ?_ fun k1 => ?_
  · unfold v0
    exact keeps_zeroAllSlots ‹_›
  clear_value v0
  extract_lets +onlyGivenNames v2
  clear_value v2
  extract_lets +onlyGivenNames v3
  refine cut (P := Keeps s0 v3) ?_ fun k4 => ?_
  · unfold v3
    exact Keeps.mkSame ‹_›
  clear_value v3
  exact keeps_State_raise ‹_›

theorem keeps_ksGenFill {s0 s : State} (hk : Keeps s0 s) {h : Nat} {bs : Bytes} :
    Keeps s0 (ksGenFill h bs s) := by
  unfold ksGenFill
  split
  · rename_i x0 x1 e2
    refine cut (P := Keeps s0 x1) ?_ fun k3 => ?_
    · exact Keeps.snd e2 (keeps_fillSlot ‹_›)
    exact keeps_ksDoneSlot (Keeps.mkSame ‹_›)
  · rename_i x4 x5 e6
    refine cut (P := Keeps s0 x5) ?_ fun k7 => ?_
    · exact Keeps.snd e6 (keeps_fillSlot ‹_›)
    exact keeps_ksDone ‹_›
  rename_i x8 x9 x10 e11 e12 e13
  refine cut (P := Keeps s0 x10) ?_ fun k14 => ?_
  · exact Keeps.snd e13 (keeps_fillSlot ‹_›)
  exact keeps_ksDone ‹_›

theorem keeps_ksImport {s0 s : State} (hk : Keeps s0 s) {h : Nat} :
    Keeps s0 (ksImport h s) := by
  unfold ksImport
  extract_lets +onlyGivenNames v0
  clear_value v0
  refine Keeps.ite ?_ ?_
  · exact keeps_ksDone ‹_›
  refine Keeps.ite ?_ ?_
  · exact keeps_ksDone ‹_›
  refine Keeps.ite ?_ ?_
  · exact keeps_ksDone ‹_›
  exact keeps_ksGenFill ‹_›

theorem keeps_setGctx {s0 s : State} (hk : Keeps s0 s) {n : Nat} {g : GenCtx} :
    Keeps s0 (setGctx n g s) := by
  unfold setGctx
  exact Keeps.mkSame ‹_›

theorem keeps_ksCommand {s0 s : State} (hk : Keeps s0 s) {g : State → State} (hg_g : ∀ {u : State}, Keeps s0 u → Keeps s0 (g u)) :
    Keeps s0 (ksCommand g s) := by
  unfold ksCommand
  refine Keeps.ite ?_ ?_
  · exact keeps_State_setFld ‹_›
  exact hg_g ‹_›

theorem keeps_allocSlot {s0 s : State} (hk : Keeps s0 s) {n : Nat} {attr : Word} :
    Keeps s0 (allocSlot n attr s) := by
  unfold allocSlot
  exact keeps_putSlot ‹_›

theorem keeps_ksAlloc {s0 s : State} (hk : Keeps s0 s) {n : Nat} :
    Keeps s0 (ksAlloc n s) := by
  unfold ksAlloc
  extract_lets +onlyGivenNames v0
  clear_value v0
  refine Keeps.ite ?_ ?_
  · exact keeps_ksDone ‹_›
  refine Keeps.ite ?_ ?_
  · exact keeps_ksDone ‹_›
  extract_lets +onlyGivenNames v1
  refine cut (P := Keeps s0 v1) ?_ fun k2 => ?_
  · unfold v1
    exact keeps_allocSlot ‹_›
  clear_value v1
  exact keeps_ksDoneSlot ‹_›

theorem keeps_ksNarrow {s0 s : State} (hk : Keeps s0 s) {h : Nat} :
    Keeps s0 (ksNarrow h s) := by
  unfold ksNarrow
  extract_lets +onlyGivenNames v0
  clear_value v0
  refine Keeps.ite ?_ ?_
  · exact keeps_ksDone ‹_›
  refine Keeps.ite ?_ ?_
  · exact keeps_ksDone ‹_›
  extract_lets +onlyGivenNames v1
  clear_value v1
  extract_lets +onlyGivenNames v2
  refine cut (P := Keeps s0 v2) ?_ fun k3 => ?_
  · unfold v2
    exact keeps_putSlot ‹_›
  clear_value v2
  exact keeps_ksDoneSlot ‹_›

theorem keeps_ksGenerate {s0 s : State} (hk : Keeps s0 s) {n : Nat} {h : Nat} :
    Keeps s0 (ksGenerate n h s) := by
  unfold ksGenerate
  extract_lets +onlyGivenNames v0
  clear_value v0
  refine Keeps.ite ?_ ?_
  · exact keeps_ksDone ‹_›
  refine Keeps.ite ?_ ?_
  · exact keeps_ksDone ‹_›
  split
  · rename_i x1 x2 x3 e4
    refine cut (P := Keeps s0 x3) ?_ fun k5 => ?_
    · exact Keeps.snd e4 (keeps_drbgRequest ‹_›)
    exact keeps_ksGenFill ‹_›
  · rename_i x6 x7 e8
    refine cut (P := Keeps s0 x7) ?_ fun k9 => ?_
    · exact Keeps.snd e8 (keeps_drbgRequest ‹_›)
    exact Keeps.mkSame ‹_›
  rename_i x10 x11 e12
  refine cut (P := Keeps s0 x11) ?_ fun k13 => ?_
  · exact Keeps.snd e12 (keeps_drbgRequest ‹_›)
  exact keeps_ksDone ‹_›

theorem keeps_ksKeymove {s0 s : State} (hk : Keeps s0 s) {n : Nat} {ctx : Nat} :
    Keeps s0 (ksKeymove n ctx s) := by
  unfold ksKeymove
  extract_lets +onlyGivenNames v0
  clear_value v0
  refine Keeps.ite ?_ ?_
  · exact keeps_ksDone (keeps_State_raise ‹_›)
  refine Keeps.ite ?_ ?_
  · exact keeps_ksDone ‹_›
  split
  · rename_i x1 e2
    exact keeps_ksDone ‹_›
  rename_i x3 x4 e5
  exact keeps_ksDone (keeps_setGctx ‹_›)

theorem keeps_setBank {s0 s : State} (hk : Keeps s0 s) {n : Nat} {b : Bool} {k : Bank} :
    Keeps s0 (setBank n b k s) := by
  unfold setBank
  exact Keeps.mkSame ‹_›

theorem keeps_ksRestore {s0 s : State} (hk : Keeps s0 s) {n : Nat} {ctx : Nat} :
    Keeps s0 (ksRestore n ctx s) := by
  unfold ksRestore
  extract_lets +onlyGivenNames v0
  clear_value v0
  refine Keeps.ite ?_ ?_
  · exact keeps_ksDone ‹_›
  refine Keeps.ite ?_ ?_
  · exact keeps_ksDone ‹_›
  refine Keeps.ite ?_ ?_
  · exact keeps_ksDone ‹_›
  extract_lets +onlyGivenNames v1
  clear_value v1
  split
  · rename_i x2 e3
    exact keeps_ksDone ‹_›
  rename_i x4 x5 x6 e7
  split
  · rename_i x8 e9
    exact keeps_ksDone ‹_›
  rename_i x10 x11 e12
  extract_lets +onlyGivenNames v13
  refine cut (P := Keeps s0 v13) ?_ fun k14 => ?_
  · unfold v13
    refine Keeps.ite ?_ ?_
    · assumption
    exact keeps_setBank ‹_›
  clear_value v13
  exact keeps_ksDone ‹_›

theorem keeps_serveWaits {s0 a2 : State} (hk : Keeps s0 a2) {a1 : List DrbgWait} :
    Keeps s0 (serveWaits a1 a2) := by
  induction a1 generalizing a2
  · unfold serveWaits
    assumption
  · rename_i hd tl ih
    unfold serveWaits
    split
    · rename_i x0 x1 x2 e3
      refine cut (P := Keeps s0 x2) ?_ fun k4 => ?_
      · exact Keeps.snd e3 (keeps_drbgRequest ‹_›)
      extract_lets +onlyGivenNames v5
      refine cut (P := Keeps s0 v5) ?_ fun k6 => ?_
      · unfold v5
        split
        · rename_i x7 e8
          split
          · rename_i x9 x10 e11
            exact keeps_ksGenFill ‹_›
          rename_i x12 e13
          assumption
        · rename_i x14 e15
          exact keeps_outDeliver ‹_›
        rename_i x16 e17
        exact keeps_otherDeliver ‹_›
      clear_value v5
      exact ih ‹_›
    rename_i x18 x19 x20 e21 e22
    refine cut (P := Keeps s0 x20) ?_ fun k23 => ?_
    · exact Keeps.snd e22 (keeps_drbgRequest ‹_›)
    exact Keeps.mkSame ‹_›

theorem keeps_startUpDone {s0 s : State} (hk : Keeps s0 s) :
    Keeps s0 (startUpDone s) := by
  unfold startUpDone
  refine Keeps.ite ?_ ?_
  · extract_lets +onlyGivenNames v0
    clear_value v0
    exact keeps_serveWaits (Keeps.mkSame ‹_›)
  assumption

theorem keeps_keysReset {s0 s : State} (hk : Keeps s0 s) :
    Keeps s0 (keysReset s) := by
  unfold keysReset
  extract_lets +onlyGivenNames v0
  clear_value v0
  exact Keeps.mkSame ‹_›

theorem keeps_deriveBoot {s0 s : State} (hk : Keeps s0 s) {root : Option Bytes} :
    Keeps s0 (deriveBoot root s) := by
  unfold deriveBoot
  extract_lets +onlyGivenNames v0
  refine cut (P := Keeps s0 v0) ?_ fun k1 => ?_
  · unfold v0
    exact keeps_State_setFlag ‹_›
  clear_value v0
  split
  · rename_i x2
    assumption
  rename_i x3 x4
  refine Keeps.ite ?_ ?_
  · assumption
  extract_lets +onlyGivenNames v5
  clear_value v5
  extract_lets +onlyGivenNames v6
  refine cut (P := Keeps s0 v6) ?_ fun k7 => ?_
  · unfold v6
    exact keeps_putSlot ‹_›
  clear_value v6
  extract_lets +onlyGivenNames v8
  refine cut (P := Keeps s0 v8) ?_ fun k9 => ?_
  · unfold v8
    exact keeps_putSlot ‹_›
  clear_value v8
  extract_lets +onlyGivenNames v10
  refine cut (P := Keeps s0 v10) ?_ fun k11 => ?_
  · unfold v10
    exact keeps_putSlot ‹_›
  clear_value v10
  extract_lets +onlyGivenNames v12
  refine cut (P := Keeps s0 v12) ?_ fun k13 => ?_
  · unfold v12
    exact keeps_putSlot ‹_›
  clear_value v12
  exact keeps_setGctx ‹_›

theorem keeps_waitExpiry {s0 s : State} (hk : Keeps s0 s) :
    Keeps s0 (waitExpiry s) := by
  unfold waitExpiry
  split
  · rename_i x0 e1
    assumption
  rename_i x2 x3 x4 e5
  extract_lets +onlyGivenNames v6
  clear_value v6
  extract_lets +onlyGivenNames v7
  refine cut (P := Keeps s0 v7) ?_ fun k8 => ?_
  · unfold v7
    exact Keeps.mkSame ‹_›
  clear_value v7
  split
  · rename_i x9 e10
    split
    · rename_i x11 x12 e13
      exact keeps_ksDone ‹_›
    rename_i x14 e15
    assumption
  · rename_i x16 e17
    exact keeps_outDeliver ‹_›
  rename_i x18 e19
  exact keeps_otherDeliver ‹_›

theorem keeps_feltWriteThrough {s0 s : State} (hk : Keeps s0 s) {n : Nat} :
    Keeps s0 (feltWriteThrough n s) := by
  unfold feltWriteThrough
  refine Keeps.ite ?_ ?_
  · extract_lets +onlyGivenNames v0
    clear_value v0
    extract_lets +onlyGivenNames v1
    refine cut (P := Keeps s0 v1) ?_ fun k2 => ?_
    · unfold v1
      exact Keeps.mkSame ‹_›
    clear_value v1
    split
    · rename_i x3 x4 x5 x6 e7
      refine Keeps.ite ?_ ?_
      · exact keeps_ksDone ‹_›
      assumption
    rename_i x8 e9
    assumption
  assumption

end Sys2Proof.Laws
end

