-- ==== Sys2Proof/Laws/KeepsLog.lean ====
section
/-!
SUPPORT. What every operation of Machine/Log.lean keeps (`Keeps`, Laws/Keeps.lean).
-/

namespace Sys2Proof.Laws

open Sys2Proof.Machine

theorem keeps_logLevels {s0 s : State} (hk : Keeps s0 s) :
    Keeps s0 (logLevels s) := by
  unfold logLevels
  extract_lets +onlyGivenNames v0
  clear_value v0
  extract_lets +onlyGivenNames v1
  refine cut (P := Keeps s0 v1) ?_ fun k2 => ?_
  · unfold v1
    refine Keeps.ite ?_ ?_
    · exact keeps_State_raise ‹_›
    assumption
  clear_value v1
  refine Keeps.ite ?_ ?_
  · exact Keeps.mkSame ‹_›
  refine Keeps.ite ?_ ?_
  · exact Keeps.mkSame ‹_›
  assumption

theorem keeps_logPut {s0 s : State} (hk : Keeps s0 s) {b : LogBody} :
    Keeps s0 (logPut b s) := by
  unfold logPut
  extract_lets +onlyGivenNames v0
  clear_value v0
  extract_lets +onlyGivenNames v1
  clear_value v1
  extract_lets +onlyGivenNames v2
  refine cut (P := Keeps s0 v2) ?_ fun k3 => ?_
  · unfold v2
    exact keeps_State_store ‹_›
  clear_value v2
  exact Keeps.mkSame ‹_›

theorem keeps_logPad {s0 s : State} (hk : Keeps s0 s) {n : Nat} :
    Keeps s0 (logPad n s) := by
  unfold logPad
  extract_lets +onlyGivenNames v0
  clear_value v0
  refine Keeps.ite ?_ ?_
  · assumption
  refine Keeps.ite ?_ ?_
  · exact keeps_logPut ‹_›
  exact Keeps.mkSame ‹_›

theorem keeps_logAppend {s0 s : State} (hk : Keeps s0 s) {b : LogBody} :
    Keeps s0 (logAppend b s) := by
  unfold logAppend
  extract_lets +onlyGivenNames v0
  clear_value v0
  refine Keeps.ite ?_ ?_
  · exact Keeps.mkSame ‹_›
  exact keeps_logLevels (keeps_logPut (keeps_logPad ‹_›))

theorem keeps_logFlush {s0 a2 : State} (hk : Keeps s0 a2) {a1 : List LogBody} :
    Keeps s0 (logFlush a1 a2) := by
  induction a1 generalizing a2
  · unfold logFlush
    assumption
  · rename_i hd tl ih
    unfold logFlush
    exact ih (keeps_logAppend ‹_›)

theorem keeps_logRetry {s0 s : State} (hk : Keeps s0 s) :
    Keeps s0 (logRetry s) := by
  unfold logRetry
  extract_lets +onlyGivenNames v0
  clear_value v0
  exact keeps_logFlush (Keeps.mkSame ‹_›)

end Sys2Proof.Laws
end

