-- ==== Sys2Proof/Laws/KeepsLedger.lean ====
section
/-!
SUPPORT. What every operation of Machine/Ledger.lean keeps (`Keeps`, Laws/Keeps.lean).
-/

namespace Sys2Proof.Laws

open Sys2Proof.Machine

theorem keeps_sealTag {s0 s : State} (hk : Keeps s0 s) {c : Nat} {h : Nat} {bs : Bytes} :
    Keeps s0 (sealTag c h bs s).2 := by
  unfold sealTag
  split
  · rename_i x0 x1 e2
    exact Keeps.pair ‹_›
  rename_i x3 e4
  exact Keeps.pair (keeps_setSticky (keeps_State_raise ‹_›))

theorem keeps_formRec {s0 s : State} (hk : Keeps s0 s) {c : Nat} {h : Nat} {evt : Nat} {b : Body} :
    Keeps s0 (formRec c h evt b s).2 := by
  unfold formRec
  extract_lets +onlyGivenNames v0
  clear_value v0
  extract_lets +onlyGivenNames v1
  clear_value v1
  split
  rename_i x2 x3 x4 e5
  refine cut (P := Keeps s0 x4) ?_ fun k6 => ?_
  · exact Keeps.snd e5 (keeps_sealTag ‹_›)
  exact Keeps.pair ‹_›

theorem keeps_putRec {s0 s : State} (hk : Keeps s0 s) {jsn : Nat} {r : Rec} :
    Keeps s0 (putRec jsn r s) := by
  unfold putRec
  extract_lets +onlyGivenNames v0
  clear_value v0
  extract_lets +onlyGivenNames v1
  clear_value v1
  extract_lets +onlyGivenNames v2
  refine cut (P := Keeps s0 v2) ?_ fun k3 => ?_
  · unfold v2
    exact keeps_State_onLinen ‹_›
  clear_value v2
  extract_lets +onlyGivenNames v4
  clear_value v4
  extract_lets +onlyGivenNames v5
  clear_value v5
  extract_lets +onlyGivenNames v6
  refine cut (P := Keeps s0 v6) ?_ fun k7 => ?_
  · unfold v6
    exact keeps_State_onJrn ‹_›
  clear_value v6
  exact keeps_logAppend ‹_›

theorem keeps_appendAt {s0 s : State} (hk : Keeps s0 s) {c : Nat} {h : Nat} {jsn : Nat} {evt : Nat} {b : Body} :
    Keeps s0 (appendAt c h jsn evt b s) := by
  unfold appendAt
  split
  rename_i x0 x1 x2 e3
  refine cut (P := Keeps s0 x2) ?_ fun k4 => ?_
  · exact Keeps.snd e3 (keeps_formRec ‹_›)
  exact keeps_putRec ‹_›

theorem keeps_append {s0 s : State} (hk : Keeps s0 s) {c : Nat} {h : Nat} {jsn : Nat} {b : Body} :
    Keeps s0 (append c h jsn b s) := by
  unfold append
  exact keeps_appendAt ‹_›

theorem keeps_ensureCreate {s0 s : State} (hk : Keeps s0 s) {c : Nat} {d : Desc} :
    Keeps s0 (ensureCreate c d s) := by
  unfold ensureCreate
  refine Keeps.ite ?_ ?_
  · exact keeps_append ‹_›
  assumption

theorem keeps_write {s0 s : State} (hk : Keeps s0 s) {c : Nat} {b : Body} :
    Keeps s0 (write c b s) := by
  unfold write
  exact keeps_append ‹_›

theorem keeps_writeGap {s0 s : State} (hk : Keeps s0 s) {c : Nat} {reason : Nat} {sub : Nat} {fromPos : Pos} {toPos : Pos} {arg0 : Nat} {arg1 : Nat} :
    Keeps s0 (writeGap c reason sub fromPos toPos arg0 arg1 s) := by
  unfold writeGap
  exact keeps_write ‹_›

theorem keeps_setCust {s0 s : State} (hk : Keeps s0 s) {c : Nat} {f : Custody → Custody} :
    Keeps s0 (setCust c f s) := by
  unfold setCust
  exact keeps_State_onMuslin ‹_›

theorem keeps_writeGaps {s0 a6 : State} (hk : Keeps s0 a6) {reason : Nat} {sub : Nat} {fromPos : Nat → Pos} {toPos : Nat → Pos} {a5 : List Nat} :
    Keeps s0 (writeGaps reason sub fromPos toPos a5 a6) := by
  induction a5 generalizing a6
  · unfold writeGaps
    assumption
  · rename_i hd tl ih
    unfold writeGaps
    exact ih (keeps_writeGap ‹_›)

end Sys2Proof.Laws
end

