-- ==== Sys2Proof/Laws/KeepsMuslin.lean ====
section
/-!
SUPPORT. What every operation of Machine/Muslin.lean keeps (`Keeps`, Laws/Keeps.lean).
-/

namespace Sys2Proof.Laws

open Sys2Proof.Machine

theorem keeps_setNs {s0 s : State} (hk : Keeps s0 s) {n : Nat} {f : Namespace → Namespace} :
    Keeps s0 (setNs n f s) := by
  unfold setNs
  exact keeps_State_onJrn ‹_›

theorem keeps_fetchDesc {s0 s : State} (hk : Keeps s0 s) {n : Nat} :
    Keeps s0 (fetchDesc n s).2 := by
  unfold fetchDesc
  extract_lets +onlyGivenNames v0
  clear_value v0
  refine Keeps.iteSnd ?_ ?_
  · exact Keeps.pair ‹_›
  exact Keeps.pair (keeps_setSticky (keeps_State_raise (keeps_setCust ‹_›)))

theorem keeps_writeDesc {s0 s : State} (hk : Keeps s0 s) {c : Nat} {cause : Nat} {old : Desc} {d : Desc} :
    Keeps s0 (writeDesc c cause old d s) := by
  unfold writeDesc
  extract_lets +onlyGivenNames v0
  clear_value v0
  refine Keeps.ite ?_ ?_
  · refine Keeps.ite ?_ ?_
    · exact keeps_append ‹_›
    assumption
  exact keeps_append ‹_›

theorem keeps_gensAfter {s0 s : State} (hk : Keeps s0 s) {c : Nat} {was : Bool} {old : Desc} :
    Keeps s0 (gensAfter c was old s) := by
  unfold gensAfter
  extract_lets +onlyGivenNames v0
  clear_value v0
  refine Keeps.ite ?_ ?_
  · refine Keeps.ite ?_ ?_
    · assumption
    exact keeps_State_raise ‹_›
  refine Keeps.ite ?_ ?_
  · exact keeps_writeDesc ‹_›
  assumption

theorem keeps_refetchTwill {s0 s : State} (hk : Keeps s0 s) {c : Nat} :
    Keeps s0 (refetchTwill c s) := by
  unfold refetchTwill
  extract_lets +onlyGivenNames v0
  clear_value v0
  split
  · rename_i x1 x2 x3 e4
    refine cut (P := Keeps s0 x3) ?_ fun k5 => ?_
    · exact Keeps.snd e4 (keeps_fetchDesc ‹_›)
    exact keeps_gensAfter (keeps_setCust ‹_›)
  rename_i x6 x7 e8
  refine cut (P := Keeps s0 x7) ?_ fun k9 => ?_
  · exact Keeps.snd e8 (keeps_fetchDesc ‹_›)
  assumption

theorem keeps_hostWrite {s0 s : State} (hk : Keeps s0 s) {master : Nat} {tag : Option Nat} {a : Nat} {bs : Bytes} :
    Keeps s0 (hostWrite master tag a bs s) := by
  unfold hostWrite
  refine Keeps.ite ?_ ?_
  · split
    · rename_i x0 x1 x2 e3
      refine cut (P := Keeps s0 x2) ?_ fun k4 => ?_
      · exact Keeps.snd e3 (keeps_transact ‹_›)
      exact keeps_State_hostStore ‹_›
    rename_i x5 x6 e7
    refine cut (P := Keeps s0 x6) ?_ fun k8 => ?_
    · exact Keeps.snd e7 (keeps_transact ‹_›)
    assumption
  assumption

theorem keeps_setDoor {s0 s : State} (hk : Keeps s0 s) {d : Nat} {f : Door → Door} :
    Keeps s0 (setDoor d f s) := by
  unfold setDoor
  exact keeps_State_onMuslin ‹_›

theorem keeps_setDoorDesc {s0 s : State} (hk : Keeps s0 s) {d : Nat} {i : Nat} {f : DoorDesc → DoorDesc} :
    Keeps s0 (setDoorDesc d i f s) := by
  unfold setDoorDesc
  exact keeps_setDoor ‹_›

theorem keeps_tagPart {s0 s : State} (hk : Keeps s0 s) {c : Nat} {r : Option DescRef} :
    Keeps s0 (tagPart c r s) := by
  unfold tagPart
  split
  rename_i x0 x1 x2 x3 e4
  extract_lets +onlyGivenNames v5
  refine cut (P := Keeps s0 v5) ?_ fun k6 => ?_
  · unfold v5
    split
    · rename_i x7 x8
      refine Keeps.ite ?_ ?_
      · exact keeps_setDoorDesc ‹_›
      assumption
    rename_i x9
    assumption
  clear_value v5
  split
  · rename_i x10 x11 e12
    refine Keeps.ite ?_ ?_
    · extract_lets +onlyGivenNames v13
      clear_value v13
      extract_lets +onlyGivenNames v14
      refine cut (P := Keeps s0 v14) ?_ fun k15 => ?_
      · unfold v14
        exact keeps_setCust ‹_›
      clear_value v14
      exact keeps_State_wr ‹_›
    assumption
  rename_i x16 e17
  split
  · rename_i x18 x19 e20
    refine Keeps.ite ?_ ?_
    · exact keeps_setCust ‹_›
    assumption
  rename_i x21 e22
  assumption

theorem keeps_takeKeywraps {s0 s : State} (hk : Keeps s0 s) {c : Nat} :
    Keeps s0 (takeKeywraps c s).2 := by
  unfold takeKeywraps
  extract_lets +onlyGivenNames v0
  clear_value v0
  extract_lets +onlyGivenNames v1
  clear_value v1
  exact Keeps.pair (keeps_State_onLinen ‹_›)

theorem keeps_rebindFrom {s0 a2 : State} (hk : Keeps s0 a2) {a1 : List Nat} :
    Keeps s0 (rebindFrom a1 a2) := by
  induction a1 generalizing a2
  · unfold rebindFrom
    assumption
  · rename_i hd tl ih
    unfold rebindFrom
    extract_lets +onlyGivenNames v0
    clear_value v0
    extract_lets +onlyGivenNames v1
    refine cut (P := Keeps s0 v1) ?_ fun k2 => ?_
    · unfold v1
      refine Keeps.ite ?_ ?_
      · exact keeps_setSticky (keeps_State_raise ‹_›)
      assumption
    clear_value v1
    exact ih (keeps_setCust ‹_›)

theorem keeps_rebind {s0 s : State} (hk : Keeps s0 s) :
    Keeps s0 (rebind s) := by
  unfold rebind
  exact keeps_rebindFrom ‹_›

theorem keeps_adopt {s0 s : State} (hk : Keeps s0 s) {c : Nat} {d : Desc} :
    Keeps s0 (adopt c d s) := by
  unfold adopt
  exact keeps_rebind (keeps_setCust ‹_›)

theorem keeps_closeSwitch {s0 s : State} (hk : Keeps s0 s) {c : Nat} :
    Keeps s0 (closeSwitch c s).2 := by
  unfold closeSwitch
  extract_lets +onlyGivenNames v0
  clear_value v0
  refine Keeps.iteSnd ?_ ?_
  · exact Keeps.pair ‹_›
  split
  · rename_i x1 x2 e3
    refine Keeps.iteSnd ?_ ?_
    · exact Keeps.pair (keeps_adopt ‹_›)
    split
    · rename_i x4 x5 x6 e7
      refine cut (P := Keeps s0 x6) ?_ fun k8 => ?_
      · exact Keeps.snd e7 (keeps_fetchDesc ‹_›)
      exact Keeps.pair (keeps_setCust ‹_›)
    rename_i x9 x10 e11
    refine cut (P := Keeps s0 x10) ?_ fun k12 => ?_
    · exact Keeps.snd e11 (keeps_fetchDesc ‹_›)
    exact Keeps.pair ‹_›
  rename_i x13 e14
  split
  · rename_i x15 x16 x17 e18
    refine cut (P := Keeps s0 x17) ?_ fun k19 => ?_
    · exact Keeps.snd e18 (keeps_fetchDesc ‹_›)
    extract_lets +onlyGivenNames v20
    refine cut (P := Keeps s0 v20) ?_ fun k21 => ?_
    · unfold v20
      exact keeps_setCust ‹_›
    clear_value v20
    refine Keeps.iteSnd ?_ ?_
    · exact Keeps.pair ‹_›
    refine Keeps.pair ?_
    refine Keeps.ite ?_ ?_
    · exact keeps_State_raise ‹_›
    assumption
  rename_i x22 x23 e24
  refine cut (P := Keeps s0 x23) ?_ fun k25 => ?_
  · exact Keeps.snd e24 (keeps_fetchDesc ‹_›)
  exact Keeps.pair ‹_›

theorem keeps_relaxOne {s0 s : State} (hk : Keeps s0 s) {c : Nat} :
    Keeps s0 (relaxOne c s) := by
  unfold relaxOne
  refine Keeps.ite ?_ ?_
  · exact keeps_State_onMuslin ‹_›
  assumption

theorem keeps_relax {s0 s : State} (hk : Keeps s0 s) :
    Keeps s0 (relax s) := by
  unfold relax
  exact keeps_relaxOne (keeps_relaxOne (keeps_relaxOne (keeps_relaxOne ‹_›)))

theorem keeps_completeDoor {s0 a3 : State} (hk : Keeps s0 a3) {d : Nat} {a2 : Nat} :
    Keeps s0 (completeDoor d a2 a3) := by
  induction a2 generalizing a3
  · unfold completeDoor
    assumption
  · rename_i n ih
    unfold completeDoor
    extract_lets +onlyGivenNames v0
    clear_value v0
    split
    · rename_i x1 e2
      assumption
    rename_i x3 x4 x5 e6
    refine Keeps.ite ?_ ?_
    · extract_lets +onlyGivenNames v7
      clear_value v7
      extract_lets +onlyGivenNames v8
      clear_value v8
      extract_lets +onlyGivenNames v9
      refine cut (P := Keeps s0 v9) ?_ fun k10 => ?_
      · unfold v9
        exact keeps_hostWrite ‹_›
      clear_value v9
      extract_lets +onlyGivenNames v11
      clear_value v11
      extract_lets +onlyGivenNames v12
      refine cut (P := Keeps s0 v12) ?_ fun k13 => ?_
      · unfold v12
        exact keeps_setDoor ‹_›
      clear_value v12
      exact ih (keeps_msix ‹_›)
    assumption

theorem keeps_completions {s0 s : State} (hk : Keeps s0 s) {d : Nat} :
    Keeps s0 (completions d s) := by
  unfold completions
  exact keeps_completeDoor ‹_›

theorem keeps_completionsOf {s0 a2 : State} (hk : Keeps s0 a2) {a1 : List Nat} :
    Keeps s0 (completionsOf a1 a2) := by
  induction a1 generalizing a2
  · unfold completionsOf
    assumption
  · rename_i hd tl ih
    unfold completionsOf
    exact ih (keeps_completions ‹_›)

theorem keeps_markDropped {s0 a3 : State} (hk : Keeps s0 a3) {seq : Nat} {a2 : List DescRef} :
    Keeps s0 (markDropped seq a2 a3) := by
  induction a2 generalizing a3
  · unfold markDropped
    assumption
  · rename_i hd tl ih
    unfold markDropped
    exact ih (keeps_setDoorDesc ‹_›)

theorem keeps_closeDropped {s0 s : State} (hk : Keeps s0 s) {c : Nat} {o : DroppedStripe} :
    Keeps s0 (closeDropped c o s) := by
  unfold closeDropped
  extract_lets +onlyGivenNames v0
  clear_value v0
  extract_lets +onlyGivenNames v1
  refine cut (P := Keeps s0 v1) ?_ fun k2 => ?_
  · unfold v1
    exact keeps_write ‹_›
  clear_value v1
  extract_lets +onlyGivenNames v3
  refine cut (P := Keeps s0 v3) ?_ fun k4 => ?_
  · unfold v3
    exact keeps_setCust ‹_›
  clear_value v3
  exact keeps_completionsOf (keeps_markDropped ‹_›)

theorem keeps_closeStripe {s0 s : State} (hk : Keeps s0 s) {c : Nat} {cause : Cause} {r : Option DescRef} :
    Keeps s0 (closeStripe c cause r s) := by
  unfold closeStripe
  extract_lets +onlyGivenNames v0
  refine cut (P := Keeps s0 v0) ?_ fun k1 => ?_
  · unfold v0
    exact keeps_tagPart ‹_›
  clear_value v0
  split
  · rename_i x2 x3 e4
    extract_lets +onlyGivenNames v5
    clear_value v5
    extract_lets +onlyGivenNames v6
    clear_value v6
    extract_lets +onlyGivenNames v7
    refine cut (P := Keeps s0 v7) ?_ fun k8 => ?_
    · unfold v7
      exact keeps_setCust ‹_›
    clear_value v7
    split
    rename_i x9 x10 x11 e12
    refine cut (P := Keeps s0 x11) ?_ fun k13 => ?_
    · exact Keeps.snd e12 (keeps_takeKeywraps ‹_›)
    split
    rename_i x14 x15 x16 e17
    refine cut (P := Keeps s0 x16) ?_ fun k18 => ?_
    · exact Keeps.snd e17 (keeps_closeSwitch ‹_›)
    extract_lets +onlyGivenNames v19
    clear_value v19
    exact keeps_relax (keeps_setCust ‹_›)
  rename_i x20 e21
  split
  · rename_i x22 x23 e24
    exact keeps_closeDropped ‹_›
  rename_i x25 e26
  assumption

theorem keeps_closeAll {s0 a3 : State} (hk : Keeps s0 a3) {cause : Cause} {a2 : List Nat} :
    Keeps s0 (closeAll cause a2 a3) := by
  induction a2 generalizing a3
  · unfold closeAll
    assumption
  · rename_i hd tl ih
    unfold closeAll
    exact ih (keeps_closeStripe ‹_›)

theorem keeps_writeAll {s0 a4 : State} (hk : Keeps s0 a4) {c : Nat} {h : Nat} {a3 : List Body} :
    Keeps s0 (writeAll c h a3 a4) := by
  induction a3 generalizing a4
  · unfold writeAll
    assumption
  · rename_i hd tl ih
    unfold writeAll
    exact ih (keeps_append ‹_›)

theorem keeps_writeFetch {s0 a5 : State} (hk : Keeps s0 a5) {c : Nat} {h : Nat} {prio : Nat} {a4 : List DropFetch} :
    Keeps s0 (writeFetch c h prio a4 a5) := by
  induction a4 generalizing a5
  · unfold writeFetch
    assumption
  · rename_i hd tl ih
    unfold writeFetch
    extract_lets +onlyGivenNames v0
    clear_value v0
    extract_lets +onlyGivenNames v1
    refine cut (P := Keeps s0 v1) ?_ fun k2 => ?_
    · unfold v1
      exact keeps_append ‹_›
    clear_value v1
    exact ih (keeps_setDoorDesc ‹_›)

theorem keeps_writeTiles {s0 a9 : State} (hk : Keeps s0 a9) {cust : Nat} {ns : Nat} {keyver : Nat} {jsn : Nat} {offset : Nat} {data : Bytes} {a7 : Nat} {a8 : List Nat} :
    Keeps s0 (writeTiles cust ns keyver jsn offset data a7 a8 a9) := by
  induction a8 generalizing a7 a9
  · unfold writeTiles
    assumption
  · rename_i hd tl ih
    unfold writeTiles
    extract_lets +onlyGivenNames v0
    refine cut (P := Keeps s0 v0) ?_ fun k1 => ?_
    · unfold v0
      exact keeps_State_store ‹_›
    clear_value v0
    extract_lets +onlyGivenNames v2
    refine cut (P := Keeps s0 v2) ?_ fun k3 => ?_
    · unfold v2
      exact keeps_State_onJrn ‹_›
    clear_value v2
    exact ih ‹_›

theorem keeps_noteKeywrap {s0 s : State} (hk : Keeps s0 s) {c : Nat} {b : Body} :
    Keeps s0 (noteKeywrap c b s) := by
  unfold noteKeywrap
  split
  · rename_i x0 x1 x2 x3 x4 x5 x6 x7 x8
    refine Keeps.ite ?_ ?_
    · exact keeps_State_onLinen ‹_›
    exact keeps_State_onLinen ‹_›
  rename_i x9 e10
  assumption

theorem keeps_writeKeywraps {s0 a4 : State} (hk : Keeps s0 a4) {c : Nat} {h : Nat} {a3 : List Body} :
    Keeps s0 (writeKeywraps c h a3 a4) := by
  induction a3 generalizing a4
  · unfold writeKeywraps
    assumption
  · rename_i hd tl ih
    unfold writeKeywraps
    exact ih (keeps_noteKeywrap (keeps_append ‹_›))

theorem keeps_sealParts {s0 a4 : State} (hk : Keeps s0 a4) {seq : Nat} {ends : List DescRef} {a3 : List DescRef} :
    Keeps s0 (sealParts seq ends a3 a4) := by
  induction a3 generalizing a4
  · unfold sealParts
    assumption
  · rename_i hd tl ih
    unfold sealParts
    extract_lets +onlyGivenNames v0
    clear_value v0
    exact ih (keeps_setDoorDesc ‹_›)

theorem keeps_sealStripe {s0 s : State} (hk : Keeps s0 s) {c : Nat} {z : ClosedStripe} :
    Keeps s0 (sealStripe c z s) := by
  unfold sealStripe
  extract_lets +onlyGivenNames v0
  clear_value v0
  extract_lets +onlyGivenNames v1
  clear_value v1
  extract_lets +onlyGivenNames v2
  refine cut (P := Keeps s0 v2) ?_ fun k3 => ?_
  · unfold v2
    exact keeps_writeAll ‹_›
  clear_value v2
  extract_lets +onlyGivenNames v4
  refine cut (P := Keeps s0 v4) ?_ fun k5 => ?_
  · unfold v4
    exact keeps_writeFetch ‹_›
  clear_value v4
  extract_lets +onlyGivenNames v6
  refine cut (P := Keeps s0 v6) ?_ fun k7 => ?_
  · unfold v6
    split
    · rename_i x8 x9 x10 x11 e12
      exact keeps_append ‹_›
    rename_i x13 e14
    assumption
  clear_value v6
  extract_lets +onlyGivenNames v15
  clear_value v15
  extract_lets +onlyGivenNames v16
  clear_value v16
  extract_lets +onlyGivenNames v17
  clear_value v17
  extract_lets +onlyGivenNames v18
  clear_value v18
  extract_lets +onlyGivenNames v19
  refine cut (P := Keeps s0 v19) ?_ fun k20 => ?_
  · unfold v19
    exact keeps_writeTiles ‹_›
  clear_value v19
  extract_lets +onlyGivenNames v21
  clear_value v21
  extract_lets +onlyGivenNames v22
  clear_value v22
  extract_lets +onlyGivenNames v23
  refine cut (P := Keeps s0 v23) ?_ fun k24 => ?_
  · unfold v23
    exact keeps_append ‹_›
  clear_value v23
  extract_lets +onlyGivenNames v25
  clear_value v25
  extract_lets +onlyGivenNames v26
  refine cut (P := Keeps s0 v26) ?_ fun k27 => ?_
  · unfold v26
    exact keeps_State_onJrn ‹_›
  clear_value v26
  extract_lets +onlyGivenNames v28
  refine cut (P := Keeps s0 v28) ?_ fun k29 => ?_
  · unfold v28
    exact keeps_setNs ‹_›
  clear_value v28
  extract_lets +onlyGivenNames v30
  refine cut (P := Keeps s0 v30) ?_ fun k31 => ?_
  · unfold v30
    split
    · rename_i x32 x33 x34 e35
      exact keeps_writeDesc ‹_›
    rename_i x36 e37
    assumption
  clear_value v30
  extract_lets +onlyGivenNames v38
  clear_value v38
  extract_lets +onlyGivenNames v39
  refine cut (P := Keeps s0 v39) ?_ fun k40 => ?_
  · unfold v39
    exact keeps_writeKeywraps ‹_›
  clear_value v39
  extract_lets +onlyGivenNames v41
  refine cut (P := Keeps s0 v41) ?_ fun k42 => ?_
  · unfold v41
    exact keeps_sealParts ‹_›
  clear_value v41
  exact keeps_completionsOf ‹_›

theorem keeps_refetchMuslin {s0 s : State} (hk : Keeps s0 s) {c : Nat} :
    Keeps s0 (refetchMuslin c s) := by
  unfold refetchMuslin
  extract_lets +onlyGivenNames v0
  clear_value v0
  split
  · rename_i x1 x2 x3 e4
    refine cut (P := Keeps s0 x3) ?_ fun k5 => ?_
    · exact Keeps.snd e4 (keeps_fetchDesc ‹_›)
    exact keeps_gensAfter (keeps_rebind (keeps_setCust ‹_›))
  rename_i x6 x7 e8
  refine cut (P := Keeps s0 x7) ?_ fun k9 => ?_
  · exact Keeps.snd e8 (keeps_fetchDesc ‹_›)
  assumption

theorem keeps_frameEnd {s0 s : State} (hk : Keeps s0 s) {c : Nat} {r : Option DescRef} :
    Keeps s0 (frameEnd c r s) := by
  unfold frameEnd
  extract_lets +onlyGivenNames v0
  refine cut (P := Keeps s0 v0) ?_ fun k1 => ?_
  · unfold v0
    exact keeps_setCust ‹_›
  clear_value v0
  refine Keeps.ite ?_ ?_
  · exact keeps_closeStripe ‹_›
  assumption

theorem keeps_doorRead {s0 s : State} (hk : Keeps s0 s) {d : Nat} {a : Nat} :
    Keeps s0 (doorRead d a s).2 := by
  unfold doorRead
  refine Keeps.iteSnd ?_ ?_
  · split
    · rename_i x0 x1 x2 e3
      refine cut (P := Keeps s0 x2) ?_ fun k4 => ?_
      · exact Keeps.snd e3 (keeps_transact ‹_›)
      exact Keeps.pair ‹_›
    rename_i x5 x6 e7
    refine cut (P := Keeps s0 x6) ?_ fun k8 => ?_
    · exact Keeps.snd e7 (keeps_transact ‹_›)
    exact Keeps.pair ‹_›
  exact Keeps.pair ‹_›

theorem keeps_abandonDoor {s0 s : State} (hk : Keeps s0 s) {d : Nat} :
    Keeps s0 (abandonDoor d s) := by
  unfold abandonDoor
  extract_lets +onlyGivenNames v0
  refine cut (P := Keeps s0 v0) ?_ fun k1 => ?_
  · unfold v0
    exact keeps_State_onMuslin ‹_›
  clear_value v0
  exact keeps_setDoor ‹_›

theorem keeps_doorFetchError {s0 s : State} (hk : Keeps s0 s) {d : Nat} :
    Keeps s0 (doorFetchError d s) := by
  unfold doorFetchError
  exact keeps_abandonDoor (keeps_State_raise (keeps_State_raise (keeps_State_raise ‹_›)))

theorem keeps_descriptorFetched {s0 s : State} (hk : Keeps s0 s) {d : Nat} {ok : Bool} {b : Bytes} :
    Keeps s0 (descriptorFetched d ok b s) := by
  unfold descriptorFetched
  refine Keeps.ite ?_ ?_
  · assumption
  split
  rename_i x0 x1 x2 e3
  refine cut (P := Keeps s0 x2) ?_ fun k4 => ?_
  · exact Keeps.snd e3 (keeps_doorRead ‹_›)
  refine Keeps.ite ?_ ?_
  · exact keeps_doorFetchError ‹_›
  extract_lets +onlyGivenNames v5
  clear_value v5
  extract_lets +onlyGivenNames v6
  clear_value v6
  extract_lets +onlyGivenNames v7
  refine cut (P := Keeps s0 v7) ?_ fun k8 => ?_
  · unfold v7
    exact keeps_setDoor ‹_›
  clear_value v7
  exact keeps_completions ‹_›

theorem keeps_switchNow {s0 s : State} (hk : Keeps s0 s) {c : Nat} :
    Keeps s0 (switchNow c s) := by
  unfold switchNow
  split
  · rename_i x0 e1
    assumption
  rename_i x2 x3 e4
  extract_lets +onlyGivenNames v5
  clear_value v5
  exact keeps_writeDesc (keeps_adopt ‹_›)

theorem keeps_inval {s0 s : State} (hk : Keeps s0 s) {n : Nat} {applyAt : Bool} :
    Keeps s0 (inval n applyAt s) := by
  unfold inval
  refine Keeps.ite ?_ ?_
  · assumption
  split
  · rename_i x0 x1 e2
    refine cut (P := Keeps s0 x1) ?_ fun k3 => ?_
    · exact Keeps.snd e2 (keeps_fetchDesc ‹_›)
    assumption
  rename_i x4 x5 x6 e7
  refine cut (P := Keeps s0 x6) ?_ fun k8 => ?_
  · exact Keeps.snd e7 (keeps_fetchDesc ‹_›)
  extract_lets +onlyGivenNames v9
  refine cut (P := Keeps s0 v9) ?_ fun k10 => ?_
  · unfold v9
    exact keeps_setCust ‹_›
  clear_value v9
  refine Keeps.ite ?_ ?_
  · exact keeps_switchNow ‹_›
  assumption

theorem keeps_setPort {s0 s : State} (hk : Keeps s0 s) {p : Nat} {f : Port → Port} :
    Keeps s0 (setPort p f s) := by
  unfold setPort
  exact keeps_State_onMuslin ‹_›

theorem keeps_enableDoor {s0 s : State} (hk : Keeps s0 s) {d : Nat} :
    Keeps s0 (enableDoor d s) := by
  unfold enableDoor
  refine Keeps.ite ?_ ?_
  · assumption
  exact keeps_setDoor ‹_›

theorem keeps_writeDoorCfg {s0 s : State} (hk : Keeps s0 s) {d : Nat} {v : Word} :
    Keeps s0 (writeDoorCfg d v s) := by
  unfold writeDoorCfg
  refine Keeps.ite ?_ ?_
  · assumption
  extract_lets +onlyGivenNames v0
  clear_value v0
  extract_lets +onlyGivenNames v1
  refine cut (P := Keeps s0 v1) ?_ fun k2 => ?_
  · unfold v1
    refine Keeps.ite ?_ ?_
    · exact keeps_State_setFlag ‹_›
    assumption
  clear_value v1
  extract_lets +onlyGivenNames v3
  refine cut (P := Keeps s0 v3) ?_ fun k4 => ?_
  · unfold v3
    refine Keeps.ite ?_ ?_
    · assumption
    exact keeps_State_setFld ‹_›
  clear_value v3
  refine Keeps.ite ?_ ?_
  · exact keeps_enableDoor ‹_›
  refine Keeps.ite ?_ ?_
  · exact keeps_abandonDoor ‹_›
  assumption

theorem keeps_abandonDoors {s0 a2 : State} (hk : Keeps s0 a2) {a1 : List Nat} :
    Keeps s0 (abandonDoors a1 a2) := by
  induction a1 generalizing a2
  · unfold abandonDoors
    assumption
  · rename_i hd tl ih
    unfold abandonDoors
    exact ih (keeps_abandonDoor ‹_›)

theorem keeps_portMiss {s0 s : State} (hk : Keeps s0 s) {p : Nat} {fe : Bool} :
    Keeps s0 (portMiss p fe s) := by
  unfold portMiss
  extract_lets +onlyGivenNames v0
  refine cut (P := Keeps s0 v0) ?_ fun k1 => ?_
  · unfold v0
    refine Keeps.ite ?_ ?_
    · exact keeps_State_incFld ‹_›
    exact keeps_State_incFld ‹_›
  clear_value v0
  exact keeps_State_raise (keeps_State_raise ‹_›)

theorem keeps_feNow {s0 s : State} (hk : Keeps s0 s) {p : Nat} {vc : Nat} :
    Keeps s0 (feNow p vc s) := by
  unfold feNow
  split
  · rename_i x0 e1
    assumption
  rename_i x2 x3 e4
  refine Keeps.ite ?_ ?_
  · exact keeps_frameEnd ‹_›
  exact keeps_portMiss ‹_›

theorem keeps_onLosses {s0 s : State} (hk : Keeps s0 s) {c : Nat} {f : Losses → Losses} :
    Keeps s0 (onLosses c f s) := by
  unfold onLosses
  exact keeps_setCust ‹_›

theorem keeps_chargeHeader {s0 a4 : State} (hk : Keeps s0 a4) {packets : Nat} {bytes : Nat} {a3 : List Nat} :
    Keeps s0 (chargeHeader packets bytes a3 a4) := by
  induction a3 generalizing a4
  · unfold chargeHeader
    assumption
  · rename_i hd tl ih
    unfold chargeHeader
    extract_lets +onlyGivenNames v0
    clear_value v0
    exact ih (keeps_onLosses ‹_›)

theorem keeps_portError {s0 s : State} (hk : Keeps s0 s) {p : Nat} {cnt : Nat} {bitNo : Nat} :
    Keeps s0 (portError p cnt bitNo s) := by
  unfold portError
  exact keeps_State_raise (keeps_State_raise (keeps_State_addSat ‹_›))

theorem keeps_chargeOverrun {s0 s : State} (hk : Keeps s0 s) {c : Nat} {bytes : Nat} :
    Keeps s0 (chargeOverrun c bytes s) := by
  unfold chargeOverrun
  extract_lets +onlyGivenNames v0
  clear_value v0
  exact keeps_onLosses ‹_›

theorem keeps_longPacket {s0 s : State} (hk : Keeps s0 s) {p : Nat} {vc : Nat} {dt : Nat} {wc : Nat} {payload : Bytes} {h : Header} {crcOk : Bool} :
    Keeps s0 (longPacket p vc dt wc payload h crcOk s) := by
  unfold longPacket
  refine Keeps.ite ?_ ?_
  · assumption
  extract_lets +onlyGivenNames v0
  refine cut (P := Keeps s0 v0) ?_ fun k1 => ?_
  · unfold v0
    exact keeps_setPort ‹_›
  clear_value v0
  refine Keeps.ite ?_ ?_
  · exact keeps_chargeHeader ‹_›
  refine Keeps.ite ?_ ?_
  · extract_lets +onlyGivenNames v2
    refine cut (P := Keeps s0 v2) ?_ fun k3 => ?_
    · unfold v2
      exact keeps_portError ‹_›
    clear_value v2
    exact keeps_chargeHeader (keeps_setPort ‹_›)
  extract_lets +onlyGivenNames v4
  refine cut (P := Keeps s0 v4) ?_ fun k5 => ?_
  · unfold v4
    refine Keeps.ite ?_ ?_
    · exact keeps_State_addSat ‹_›
    assumption
  clear_value v4
  extract_lets +onlyGivenNames v6
  refine cut (P := Keeps s0 v6) ?_ fun k7 => ?_
  · unfold v6
    exact keeps_State_add64 ‹_›
  clear_value v6
  split
  · rename_i x8 e9
    exact keeps_State_addSat ‹_›
  rename_i x10 x11 e12
  extract_lets +onlyGivenNames v13
  clear_value v13
  refine Keeps.ite ?_ ?_
  · exact keeps_State_addSat ‹_›
  refine Keeps.ite ?_ ?_
  · exact keeps_chargeOverrun (keeps_portError ‹_›)
  refine Keeps.ite ?_ ?_
  · exact keeps_setPort ‹_›
  extract_lets +onlyGivenNames v14
  refine cut (P := Keeps s0 v14) ?_ fun k15 => ?_
  · unfold v14
    refine Keeps.ite ?_ ?_
    · assumption
    exact keeps_portError ‹_›
  clear_value v14
  refine Keeps.ite ?_ ?_
  · assumption
  exact keeps_setPort ‹_›

theorem keeps_burstEnd {s0 s : State} (hk : Keeps s0 s) {p : Nat} :
    Keeps s0 (burstEnd p s) := by
  unfold burstEnd
  extract_lets +onlyGivenNames v0
  refine cut (P := Keeps s0 v0) ?_ fun k1 => ?_
  · unfold v0
    exact keeps_portError ‹_›
  clear_value v0
  extract_lets +onlyGivenNames v2
  refine cut (P := Keeps s0 v2) ?_ fun k3 => ?_
  · unfold v2
    split
    · rename_i x4 x5 x6 x7 e8
      exact keeps_setPort ‹_›
    rename_i x9 e10
    assumption
  clear_value v2
  extract_lets +onlyGivenNames v11
  clear_value v11
  exact keeps_setPort ‹_›

theorem keeps_notePeak {s0 s : State} (hk : Keeps s0 s) :
    Keeps s0 (notePeak s) := by
  unfold notePeak
  extract_lets +onlyGivenNames v0
  clear_value v0
  exact keeps_State_onMuslin ‹_›

theorem keeps_openStripe {s0 s : State} (hk : Keeps s0 s) {c : Nat} {prio : Bool} :
    Keeps s0 (openStripe c prio s) := by
  unfold openStripe
  extract_lets +onlyGivenNames v0
  refine cut (P := Keeps s0 v0) ?_ fun k1 => ?_
  · unfold v0
    exact keeps_relax ‹_›
  clear_value v0
  extract_lets +onlyGivenNames v2
  clear_value v2
  extract_lets +onlyGivenNames v3
  clear_value v3
  extract_lets +onlyGivenNames v4
  clear_value v4
  refine Keeps.ite ?_ ?_
  · extract_lets +onlyGivenNames v5
    clear_value v5
    extract_lets +onlyGivenNames v6
    refine cut (P := Keeps s0 v6) ?_ fun k7 => ?_
    · unfold v6
      exact keeps_State_onJrn ‹_›
    clear_value v6
    exact keeps_notePeak (keeps_setCust ‹_›)
  extract_lets +onlyGivenNames v8
  refine cut (P := Keeps s0 v8) ?_ fun k9 => ?_
  · unfold v8
    refine Keeps.ite ?_ ?_
    · assumption
    exact keeps_State_onMuslin ‹_›
  clear_value v8
  extract_lets +onlyGivenNames v10
  refine cut (P := Keeps s0 v10) ?_ fun k11 => ?_
  · unfold v10
    exact keeps_State_raise ‹_›
  clear_value v10
  exact keeps_setCust ‹_›

theorem keeps_takeTile {s0 s : State} (hk : Keeps s0 s) :
    Keeps s0 (takeTile s).2 := by
  unfold takeTile
  split
  · rename_i x0 e1
    exact Keeps.pair ‹_›
  rename_i x2 x3 e4
  exact Keeps.pair (keeps_State_onJrn ‹_›)

theorem keeps_intoStripe {s0 s : State} (hk : Keeps s0 s) {c : Nat} {o : OpenStripe} {b : Byte} {err : Bool} {r : Option DescRef} :
    Keeps s0 (intoStripe c o b err r s) := by
  unfold intoStripe
  extract_lets +onlyGivenNames v0
  clear_value v0
  split
  rename_i x1 x2 x3 e4
  refine cut (P := Keeps s0 x3) ?_ fun k5 => ?_
  · refine Keeps.snd e4 ?_
    refine Keeps.iteSnd ?_ ?_
    · split
      · rename_i x6 x7 x8 e9
        refine cut (P := Keeps s0 x8) ?_ fun k10 => ?_
        · exact Keeps.snd e9 (keeps_takeTile ‹_›)
        exact Keeps.pair ‹_›
      rename_i x11 x12 e13
      refine cut (P := Keeps s0 x12) ?_ fun k14 => ?_
      · exact Keeps.snd e13 (keeps_takeTile ‹_›)
      exact Keeps.pair ‹_›
    exact Keeps.pair ‹_›
  extract_lets +onlyGivenNames v15
  refine cut (P := Keeps s0 v15) ?_ fun k16 => ?_
  · unfold v15
    exact keeps_State_setByte ‹_›
  clear_value v15
  extract_lets +onlyGivenNames v17
  refine cut (P := Keeps s0 v17) ?_ fun k18 => ?_
  · unfold v17
    split
    · rename_i x19 x20
      refine Keeps.ite ?_ ?_
      · assumption
      exact keeps_setDoorDesc ‹_›
    rename_i x21
    assumption
  clear_value v17
  extract_lets +onlyGivenNames v22
  clear_value v22
  exact keeps_setCust ‹_›

theorem keeps_acceptByte {s0 s : State} (hk : Keeps s0 s) {c : Nat} {b : Byte} {err : Bool} {prio : Bool} {r : Option DescRef} :
    Keeps s0 (acceptByte c b err prio r s) := by
  unfold acceptByte
  extract_lets +onlyGivenNames v0
  refine cut (P := Keeps s0 v0) ?_ fun k1 => ?_
  · unfold v0
    refine Keeps.ite ?_ ?_
    · exact keeps_openStripe ‹_›
    assumption
  clear_value v0
  split
  · rename_i x2 x3 e4
    exact keeps_intoStripe ‹_›
  rename_i x5 e6
  split
  · rename_i x7 x8 e9
    exact keeps_setCust ‹_›
  rename_i x10 e11
  assumption

theorem keeps_frameStart {s0 s : State} (hk : Keeps s0 s) {c : Nat} :
    Keeps s0 (frameStart c s) := by
  unfold frameStart
  extract_lets +onlyGivenNames v0
  refine cut (P := Keeps s0 v0) ?_ fun k1 => ?_
  · unfold v0
    exact keeps_setCust ‹_›
  clear_value v0
  extract_lets +onlyGivenNames v2
  refine cut (P := Keeps s0 v2) ?_ fun k3 => ?_
  · unfold v2
    exact keeps_refetchMuslin ‹_›
  clear_value v2
  refine Keeps.ite ?_ ?_
  · extract_lets +onlyGivenNames v4
    refine cut (P := Keeps s0 v4) ?_ fun k5 => ?_
    · unfold v4
      exact keeps_setCust ‹_›
    clear_value v4
    refine Keeps.ite ?_ ?_
    · exact keeps_switchNow ‹_›
    assumption
  assumption

theorem keeps_fsNow {s0 s : State} (hk : Keeps s0 s) {p : Nat} {vc : Nat} :
    Keeps s0 (fsNow p vc s) := by
  unfold fsNow
  split
  · rename_i x0 e1
    assumption
  rename_i x2 x3 e4
  extract_lets +onlyGivenNames v5
  refine cut (P := Keeps s0 v5) ?_ fun k6 => ?_
  · unfold v5
    refine Keeps.ite ?_ ?_
    · exact keeps_frameEnd (keeps_portMiss ‹_›)
    assumption
  clear_value v5
  exact keeps_frameStart ‹_›

theorem keeps_doorbell {s0 s : State} (hk : Keeps s0 s) {d : Nat} {tail : Nat} :
    Keeps s0 (doorbell d tail s) := by
  unfold doorbell
  refine Keeps.ite ?_ ?_
  · assumption
  refine Keeps.ite ?_ ?_
  · exact keeps_State_raise (keeps_State_raise ‹_›)
  refine Keeps.ite ?_ ?_
  · assumption
  exact keeps_setDoor ‹_›

theorem keeps_segmentCheck {s0 s : State} (hk : Keeps s0 s) {d : Nat} {c : Nat} {e : DoorDesc} :
    Keeps s0 (segmentCheck d c e s) := by
  unfold segmentCheck
  refine Keeps.ite ?_ ?_
  · extract_lets +onlyGivenNames v0
    clear_value v0
    extract_lets +onlyGivenNames v1
    refine cut (P := Keeps s0 v1) ?_ fun k2 => ?_
    · unfold v1
      split
      · rename_i x3 x4 e5
        refine Keeps.ite ?_ ?_
        · assumption
        exact keeps_writeGap ‹_›
      rename_i x6 e7
      assumption
    clear_value v1
    exact keeps_setDoor ‹_›
  assumption

theorem keeps_startDesc {s0 s : State} (hk : Keeps s0 s) {d : Nat} {c : Nat} {e : DoorDesc} :
    Keeps s0 (startDesc d c e s) := by
  unfold startDesc
  refine Keeps.ite ?_ ?_
  · assumption
  extract_lets +onlyGivenNames v0
  refine cut (P := Keeps s0 v0) ?_ fun k1 => ?_
  · unfold v0
    refine Keeps.ite ?_ ?_
    · exact keeps_frameEnd ‹_›
    assumption
  clear_value v0
  extract_lets +onlyGivenNames v2
  refine cut (P := Keeps s0 v2) ?_ fun k3 => ?_
  · unfold v2
    refine Keeps.ite ?_ ?_
    · exact keeps_frameStart ‹_›
    assumption
  clear_value v2
  extract_lets +onlyGivenNames v4
  refine cut (P := Keeps s0 v4) ?_ fun k5 => ?_
  · unfold v4
    exact keeps_segmentCheck ‹_›
  clear_value v4
  exact keeps_setDoorDesc ‹_›

theorem keeps_noteEnd {s0 s : State} (hk : Keeps s0 s) {c : Nat} {r : DescRef} :
    Keeps s0 (noteEnd c r s) := by
  unfold noteEnd
  exact keeps_setCust ‹_›

theorem keeps_endDesc {s0 s : State} (hk : Keeps s0 s) {d : Nat} {c : Nat} {e : DoorDesc} :
    Keeps s0 (endDesc d c e s) := by
  unfold endDesc
  extract_lets +onlyGivenNames v0
  clear_value v0
  extract_lets +onlyGivenNames v1
  refine cut (P := Keeps s0 v1) ?_ fun k2 => ?_
  · unfold v1
    exact keeps_tagPart ‹_›
  clear_value v1
  extract_lets +onlyGivenNames v3
  refine cut (P := Keeps s0 v3) ?_ fun k4 => ?_
  · unfold v3
    exact keeps_setDoorDesc (keeps_noteEnd ‹_›)
  clear_value v3
  extract_lets +onlyGivenNames v5
  refine cut (P := Keeps s0 v5) ?_ fun k6 => ?_
  · unfold v5
    refine Keeps.ite ?_ ?_
    · exact keeps_closeStripe ‹_›
    refine Keeps.ite ?_ ?_
    · exact keeps_closeStripe ‹_›
    assumption
  clear_value v5
  extract_lets +onlyGivenNames v7
  refine cut (P := Keeps s0 v7) ?_ fun k8 => ?_
  · unfold v7
    refine Keeps.ite ?_ ?_
    · exact keeps_frameEnd ‹_›
    assumption
  clear_value v7
  exact keeps_completions ‹_›

theorem keeps_acceptDoor {s0 s : State} (hk : Keeps s0 s) {d : Nat} {c : Nat} :
    Keeps s0 (acceptDoor d c s) := by
  unfold acceptDoor
  split
  · rename_i x0 x1 x2 x3 x4 e5 e6
    extract_lets +onlyGivenNames v7
    refine cut (P := Keeps s0 v7) ?_ fun k8 => ?_
    · unfold v7
      exact keeps_startDesc ‹_›
    clear_value v7
    extract_lets +onlyGivenNames v9
    clear_value v9
    extract_lets +onlyGivenNames v10
    refine cut (P := Keeps s0 v10) ?_ fun k11 => ?_
    · unfold v10
      exact keeps_acceptByte ‹_›
    clear_value v10
    extract_lets +onlyGivenNames v12
    refine cut (P := Keeps s0 v12) ?_ fun k13 => ?_
    · unfold v12
      exact keeps_setDoor ‹_›
    clear_value v12
    extract_lets +onlyGivenNames v14
    refine cut (P := Keeps s0 v14) ?_ fun k15 => ?_
    · unfold v14
      exact keeps_setDoorDesc ‹_›
    clear_value v14
    refine Keeps.ite ?_ ?_
    · exact keeps_endDesc ‹_›
    refine Keeps.ite ?_ ?_
    · exact keeps_closeStripe ‹_›
    assumption
  rename_i x16 x17 e18
  assumption

theorem keeps_drainFrames {s0 a3 : State} (hk : Keeps s0 a3) {p : Nat} {a2 : Nat} :
    Keeps s0 (drainFrames p a2 a3) := by
  induction a2 generalizing a3
  · unfold drainFrames
    assumption
  · rename_i n ih
    unfold drainFrames
    split
    · rename_i x0 x1 x2 e3
      exact ih (keeps_fsNow (keeps_setPort ‹_›))
    · rename_i x4 x5 x6 e7
      exact ih (keeps_feNow (keeps_setPort ‹_›))
    rename_i x8 e9 e10
    assumption

theorem keeps_acceptCamera {s0 s : State} (hk : Keeps s0 s) {p : Nat} :
    Keeps s0 (acceptCamera p s) := by
  unfold acceptCamera
  split
  · rename_i x0 x1 x2 x3 x4 e5
    extract_lets +onlyGivenNames v6
    clear_value v6
    extract_lets +onlyGivenNames v7
    refine cut (P := Keeps s0 v7) ?_ fun k8 => ?_
    · unfold v7
      exact keeps_acceptByte ‹_›
    clear_value v7
    extract_lets +onlyGivenNames v9
    clear_value v9
    extract_lets +onlyGivenNames v10
    refine cut (P := Keeps s0 v10) ?_ fun k11 => ?_
    · unfold v10
      refine Keeps.ite ?_ ?_
      · exact keeps_setPort ‹_›
      exact keeps_setPort ‹_›
    clear_value v10
    extract_lets +onlyGivenNames v12
    refine cut (P := Keeps s0 v12) ?_ fun k13 => ?_
    · unfold v12
      refine Keeps.ite ?_ ?_
      · exact keeps_tagPart ‹_›
      assumption
    clear_value v12
    extract_lets +onlyGivenNames v14
    refine cut (P := Keeps s0 v14) ?_ fun k15 => ?_
    · unfold v14
      refine Keeps.ite ?_ ?_
      · exact keeps_closeStripe ‹_›
      assumption
    clear_value v14
    refine Keeps.ite ?_ ?_
    · exact keeps_drainFrames ‹_›
    assumption
  rename_i x16 e17
  assumption

theorem keeps_byteAccepted {s0 s : State} (hk : Keeps s0 s) {cam : Nat} :
    Keeps s0 (byteAccepted cam s) := by
  unfold byteAccepted
  extract_lets +onlyGivenNames v0
  clear_value v0
  refine Keeps.ite ?_ ?_
  · assumption
  split
  · rename_i x1 x2 e3
    exact keeps_acceptCamera ‹_›
  rename_i x4 e5
  split
  · rename_i x6 e7
    assumption
  rename_i x8 x9 e10
  extract_lets +onlyGivenNames v11
  clear_value v11
  exact keeps_acceptDoor (keeps_State_onMuslin ‹_›)

theorem keeps_deskew {s0 s : State} (hk : Keeps s0 s) {p : Nat} {aligned : Bool} :
    Keeps s0 (deskew p aligned s) := by
  unfold deskew
  refine Keeps.ite ?_ ?_
  · assumption
  refine Keeps.ite ?_ ?_
  · exact keeps_setPort ‹_›
  exact keeps_State_raise (keeps_State_raise (keeps_setPort ‹_›))

theorem keeps_framePacket {s0 s : State} (hk : Keeps s0 s) {p : Nat} {m : Line} :
    Keeps s0 (framePacket p m s) := by
  unfold framePacket
  extract_lets +onlyGivenNames v0
  refine cut (P := Keeps s0 v0) ?_ fun k1 => ?_
  · unfold v0
    exact keeps_setPort ‹_›
  clear_value v0
  exact keeps_drainFrames ‹_›

theorem keeps_doorDataRead {s0 s : State} (hk : Keeps s0 s) {d : Nat} {ok : Bool} {b : Bytes} :
    Keeps s0 (doorDataRead d ok b s) := by
  unfold doorDataRead
  split
  · rename_i x0 x1 x2 x3 e4 e5
    split
    rename_i x6 x7 x8 e9
    refine cut (P := Keeps s0 x8) ?_ fun k10 => ?_
    · exact Keeps.snd e9 (keeps_doorRead ‹_›)
    refine Keeps.ite ?_ ?_
    · extract_lets +onlyGivenNames v11
      clear_value v11
      extract_lets +onlyGivenNames v12
      refine cut (P := Keeps s0 v12) ?_ fun k13 => ?_
      · unfold v12
        exact keeps_setDoor ‹_›
      clear_value v12
      exact keeps_setDoorDesc ‹_›
    extract_lets +onlyGivenNames v14
    clear_value v14
    extract_lets +onlyGivenNames v15
    clear_value v15
    extract_lets +onlyGivenNames v16
    refine cut (P := Keeps s0 v16) ?_ fun k17 => ?_
    · unfold v16
      exact keeps_onLosses ‹_›
    clear_value v16
    extract_lets +onlyGivenNames v18
    refine cut (P := Keeps s0 v18) ?_ fun k19 => ?_
    · unfold v18
      exact keeps_setDoorDesc ‹_›
    clear_value v18
    refine Keeps.ite ?_ ?_
    · exact keeps_endDesc ‹_›
    assumption
  rename_i x20 x21 e22
  assumption

end Sys2Proof.Laws
end

