-- ==== Sys2Proof/Laws/KeepsUnits.lean ====
section
/-!
SUPPORT. What every operation of Machine/Units.lean keeps (`Keeps`, Laws/Keeps.lean).
-/

namespace Sys2Proof.Laws

open Sys2Proof.Machine

theorem keeps_State_setUnit {s0 s : State} (hk : Keeps s0 s) {u : UnitId} {x : JobUnit} :
    Keeps s0 (State.setUnit s u x) := by
  unfold State.setUnit
  split
  · rename_i x0
    exact Keeps.mkSame ‹_›
  rename_i x1
  exact Keeps.mkSame ‹_›

theorem keeps_moveJob {s0 s : State} (hk : Keeps s0 s) {u : UnitId} {l : Nat} :
    Keeps s0 (moveJob u l s) := by
  unfold moveJob
  extract_lets +onlyGivenNames v0
  clear_value v0
  refine Keeps.ite ?_ ?_
  · split
    · rename_i x1 x2 e3
      exact keeps_State_setUnit ‹_›
    rename_i x4 e5
    assumption
  assumption

theorem keeps_parkLane {s0 s : State} (hk : Keeps s0 s) {u : UnitId} {l : Nat} :
    Keeps s0 (parkLane u l s) := by
  unfold parkLane
  extract_lets +onlyGivenNames v0
  clear_value v0
  refine Keeps.ite ?_ ?_
  · assumption
  refine Keeps.ite ?_ ?_
  · exact keeps_setSticky ‹_›
  extract_lets +onlyGivenNames v1
  refine cut (P := Keeps s0 v1) ?_ fun k2 => ?_
  · unfold v1
    exact keeps_State_setUnit ‹_›
  clear_value v1
  exact keeps_setSticky (keeps_State_raise ‹_›)

theorem keeps_laneMismatch {s0 s : State} (hk : Keeps s0 s) {u : UnitId} {l : Nat} :
    Keeps s0 (laneMismatch u l s) := by
  unfold laneMismatch
  exact keeps_moveJob (keeps_parkLane ‹_›)

theorem keeps_testLane {s0 s : State} (hk : Keeps s0 s) {u : UnitId} {l : Nat} {pass : Bool} :
    Keeps s0 (testLane u l pass s) := by
  unfold testLane
  refine Keeps.ite ?_ ?_
  · assumption
  extract_lets +onlyGivenNames v0
  clear_value v0
  extract_lets +onlyGivenNames v1
  refine cut (P := Keeps s0 v1) ?_ fun k2 => ?_
  · unfold v1
    exact keeps_State_setUnit ‹_›
  clear_value v1
  exact keeps_laneMismatch ‹_›

theorem keeps_testLanes {s0 a4 : State} (hk : Keeps s0 a4) {u : UnitId} {failing : List Nat} {a3 : List Nat} :
    Keeps s0 (testLanes u failing a3 a4) := by
  induction a3 generalizing a4
  · unfold testLanes
    assumption
  · rename_i hd tl ih
    unfold testLanes
    exact ih (keeps_testLane ‹_›)

theorem keeps_selfTest {s0 s : State} (hk : Keeps s0 s) {badDigest : List Nat} {badCipher : List Nat} :
    Keeps s0 (selfTest badDigest badCipher s) := by
  unfold selfTest
  exact keeps_testLanes (keeps_testLanes ‹_›)

theorem keeps_endJob {s0 s : State} (hk : Keeps s0 s) {u : UnitId} {addr : Nat} {status : Nat} :
    Keeps s0 (endJob u addr status s) := by
  unfold endJob
  extract_lets +onlyGivenNames v0
  refine cut (P := Keeps s0 v0) ?_ fun k1 => ?_
  · unfold v0
    exact keeps_State_store ‹_›
  clear_value v0
  extract_lets +onlyGivenNames v2
  clear_value v2
  extract_lets +onlyGivenNames v3
  refine cut (P := Keeps s0 v3) ?_ fun k4 => ?_
  · unfold v3
    exact keeps_State_setUnit ‹_›
  clear_value v3
  exact keeps_State_raise ‹_›

theorem keeps_dropJob {s0 s : State} (hk : Keeps s0 s) {u : UnitId} {addr : Nat} :
    Keeps s0 (dropJob u addr s) := by
  unfold dropJob
  exact keeps_State_setUnit ‹_›

theorem keeps_calLaneTest {s0 s : State} (hk : Keeps s0 s) {u : UnitId} {failing : List Nat} :
    Keeps s0 (calLaneTest u failing s) := by
  unfold calLaneTest
  extract_lets +onlyGivenNames v0
  clear_value v0
  extract_lets +onlyGivenNames v1
  clear_value v1
  split
  · rename_i x2 e3
    assumption
  rename_i x4 x5 e6
  exact keeps_testLane (keeps_State_setUnit ‹_›)

theorem keeps_submitJob {s0 s : State} (hk : Keeps s0 s) {u : UnitId} {addr : Nat} :
    Keeps s0 (submitJob u addr s) := by
  unfold submitJob
  extract_lets +onlyGivenNames v0
  clear_value v0
  refine Keeps.ite ?_ ?_
  · assumption
  refine Keeps.ite ?_ ?_
  · exact keeps_State_raise ‹_›
  exact keeps_State_setUnit ‹_›

theorem keeps_digestDone {s0 s : State} (hk : Keeps s0 s) {j : Job} :
    Keeps s0 (digestDone j s) := by
  unfold digestDone
  extract_lets +onlyGivenNames v0
  clear_value v0
  extract_lets +onlyGivenNames v1
  clear_value v1
  extract_lets +onlyGivenNames v2
  refine cut (P := Keeps s0 v2) ?_ fun k3 => ?_
  · unfold v2
    exact keeps_dropJob ‹_›
  clear_value v2
  split
  rename_i x4 x5 x6 e7
  refine cut (P := Keeps s0 x6) ?_ fun k8 => ?_
  · refine Keeps.snd e7 ?_
    refine Keeps.iteSnd ?_ ?_
    · exact Keeps.pair ‹_›
    exact keeps_jobAccess ‹_›
  refine Keeps.ite ?_ ?_
  · exact keeps_endJob ‹_›
  extract_lets +onlyGivenNames v9
  clear_value v9
  split
  · rename_i x10 e11
    exact keeps_endJob (keeps_State_wrWords ‹_›)
  · rename_i x12 e13
    split
    rename_i x14 x15 x16 e17
    refine cut (P := Keeps s0 x16) ?_ fun k18 => ?_
    · exact Keeps.snd e17 (keeps_jobAccess ‹_›)
    refine Keeps.ite ?_ ?_
    · exact keeps_endJob (keeps_State_store ‹_›)
    exact keeps_endJob ‹_›
  rename_i x19 e20 e21
  split
  rename_i x22 x23 x24 e25
  refine cut (P := Keeps s0 x24) ?_ fun k26 => ?_
  · exact Keeps.snd e25 (keeps_fillSlot ‹_›)
  exact keeps_endJob ‹_›

theorem keeps_cipherWrite {s0 s : State} (hk : Keeps s0 s) {j : Job} {bs : Bytes} {status : Nat} :
    Keeps s0 (cipherWrite j bs status s) := by
  unfold cipherWrite
  split
  rename_i x0 x1 x2 e3
  refine cut (P := Keeps s0 x2) ?_ fun k4 => ?_
  · exact Keeps.snd e3 (keeps_jobAccess ‹_›)
  refine Keeps.ite ?_ ?_
  · exact keeps_endJob (keeps_State_store ‹_›)
  exact keeps_endJob ‹_›

theorem keeps_cipherDone {s0 s : State} (hk : Keeps s0 s) {j : Job} :
    Keeps s0 (cipherDone j s) := by
  unfold cipherDone
  extract_lets +onlyGivenNames v0
  clear_value v0
  extract_lets +onlyGivenNames v1
  refine cut (P := Keeps s0 v1) ?_ fun k2 => ?_
  · unfold v1
    exact keeps_dropJob ‹_›
  clear_value v1
  extract_lets +onlyGivenNames v3
  clear_value v3
  split
  rename_i x4 x5 x6 e7
  refine cut (P := Keeps s0 x6) ?_ fun k8 => ?_
  · refine Keeps.snd e7 ?_
    refine Keeps.iteSnd ?_ ?_
    · exact Keeps.pair ‹_›
    exact keeps_jobAccess ‹_›
  refine Keeps.ite ?_ ?_
  · exact keeps_endJob ‹_›
  split
  · rename_i x9 x10 e11
    exact keeps_cipherWrite ‹_›
  · rename_i x12 x13 x14 e15
    exact keeps_cipherWrite (keeps_State_store ‹_›)
  · rename_i x16 x17 e18
    exact keeps_cipherWrite ‹_›
  · rename_i x19 x20 e21
    split
    rename_i x22 x23 x24 e25
    refine cut (P := Keeps s0 x24) ?_ fun k26 => ?_
    · exact Keeps.snd e25 (keeps_fillSlot ‹_›)
    exact keeps_endJob ‹_›
  rename_i x27 x28 e29
  exact keeps_endJob ‹_›

theorem keeps_abortJob {s0 s : State} (hk : Keeps s0 s) {u : UnitId} {addr : Nat} {tie : Bool} :
    Keeps s0 (abortJob u addr tie s) := by
  unfold abortJob
  extract_lets +onlyGivenNames v0
  clear_value v0
  extract_lets +onlyGivenNames v1
  split
  · rename_i x2 x3 e4
    refine Keeps.ite ?_ ?_
    · unfold v1
      refine keeps_State_setUnit ?_
      split
      · rename_i x5
        exact keeps_digestDone ‹_›
      rename_i x6
      exact keeps_cipherDone ‹_›
    extract_lets +onlyGivenNames v7
    refine cut (P := Keeps s0 v7) ?_ fun k8 => ?_
    · unfold v7
      exact keeps_dropJob ‹_›
    clear_value v7
    extract_lets +onlyGivenNames v9
    clear_value v9
    extract_lets +onlyGivenNames v10
    clear_value v10
    extract_lets +onlyGivenNames v11
    refine cut (P := Keeps s0 v11) ?_ fun k12 => ?_
    · unfold v11
      exact keeps_State_store ‹_›
    clear_value v11
    extract_lets +onlyGivenNames v13
    refine cut (P := Keeps s0 v13) ?_ fun k14 => ?_
    · unfold v13
      refine Keeps.ite ?_ ?_
      · exact Keeps.mkSame ‹_›
      assumption
    clear_value v13
    unfold v1
    exact keeps_State_setUnit (keeps_State_store ‹_›)
  rename_i x15 e16
  refine Keeps.ite ?_ ?_
  · extract_lets +onlyGivenNames v17
    refine cut (P := Keeps s0 v17) ?_ fun k18 => ?_
    · unfold v17
      exact keeps_State_setUnit ‹_›
    clear_value v17
    unfold v1
    exact keeps_State_setUnit (keeps_State_store ‹_›)
  unfold v1
  exact keeps_State_setUnit ‹_›

theorem keeps_ctxCommit {s0 s : State} (hk : Keeps s0 s) {ctx : Nat} {ty : Nat} {du : Bool} :
    Keeps s0 (ctxCommit ctx ty du s) := by
  unfold ctxCommit
  extract_lets +onlyGivenNames v0
  clear_value v0
  extract_lets +onlyGivenNames v1
  clear_value v1
  extract_lets +onlyGivenNames v2
  refine cut (P := Keeps s0 v2) ?_ fun k3 => ?_
  · unfold v2
    exact keeps_State_wr ‹_›
  clear_value v2
  extract_lets +onlyGivenNames v4
  refine cut (P := Keeps s0 v4) ?_ fun k5 => ?_
  · unfold v4
    refine Keeps.ite ?_ ?_
    · exact keeps_State_raise ‹_›
    refine Keeps.ite ?_ ?_
    · exact keeps_setGctx ‹_›
    assumption
  clear_value v4
  exact Keeps.mkSame ‹_›

theorem keeps_jobDone {s0 s : State} (hk : Keeps s0 s) {u : UnitId} {l : Nat} :
    Keeps s0 (jobDone u l s) := by
  unfold jobDone
  split
  · rename_i x0 e1
    assumption
  rename_i x2 x3 e4
  split
  · rename_i x5
    exact keeps_digestDone ‹_›
  rename_i x6
  exact keeps_cipherDone ‹_›

theorem keeps_startJob {s0 s : State} (hk : Keeps s0 s) {u : UnitId} :
    Keeps s0 (startJob u s) := by
  unfold startJob
  split
  · rename_i x0 e1
    assumption
  rename_i x2 x3 x4 e5
  split
  rename_i x6 x7 x8 e9
  refine cut (P := Keeps s0 x8) ?_ fun k10 => ?_
  · exact Keeps.snd e9 (keeps_jobAccess ‹_›)
  extract_lets +onlyGivenNames v11
  clear_value v11
  extract_lets +onlyGivenNames v12
  clear_value v12
  extract_lets +onlyGivenNames v13
  refine Keeps.ite ?_ ?_
  · refine keeps_endJob ?_
    unfold v13
    exact keeps_State_setUnit ‹_›
  refine Keeps.ite ?_ ?_
  · refine keeps_endJob ?_
    unfold v13
    exact keeps_State_setUnit ‹_›
  split
  · rename_i x14
    refine Keeps.ite ?_ ?_
    · refine keeps_endJob ?_
      unfold v13
      exact keeps_State_setUnit ‹_›
    refine Keeps.ite ?_ ?_
    · refine keeps_endJob ?_
      unfold v13
      exact keeps_State_setUnit ‹_›
    split
    · rename_i x15 e16
      assumption
    rename_i x17 x18 e19
    refine Keeps.ite ?_ ?_
    · extract_lets +onlyGivenNames v20
      refine cut (P := Keeps s0 v20) ?_ fun k21 => ?_
      · unfold v20
        unfold v13
        exact keeps_State_setUnit ‹_›
      clear_value v20
      exact keeps_State_setUnit ‹_›
    split
    · rename_i x22 x23 e24
      extract_lets +onlyGivenNames v25
      refine cut (P := Keeps s0 v25) ?_ fun k26 => ?_
      · unfold v25
        unfold v13
        exact keeps_State_setUnit ‹_›
      clear_value v25
      exact keeps_State_setUnit ‹_›
    rename_i x27 e28
    refine keeps_endJob ?_
    unfold v13
    exact keeps_State_setUnit ‹_›
  rename_i x29
  extract_lets +onlyGivenNames v30
  clear_value v30
  refine Keeps.ite ?_ ?_
  · refine keeps_endJob ?_
    unfold v13
    exact keeps_State_setUnit ‹_›
  split
  · rename_i x31 e32
    assumption
  rename_i x33 x34 e35
  split
  · rename_i x36 x37 x38 e39
    extract_lets +onlyGivenNames v40
    refine cut (P := Keeps s0 v40) ?_ fun k41 => ?_
    · unfold v40
      unfold v13
      exact keeps_State_setUnit ‹_›
    clear_value v40
    exact keeps_State_setUnit ‹_›
  rename_i x42 x43 x44 e45 e46
  refine keeps_endJob ?_
  unfold v13
  exact keeps_State_setUnit ‹_›

end Sys2Proof.Laws
end

