-- ==== Sys2Proof/Laws/KeepsPkUnit.lean ====
section
/-!
SUPPORT. What every operation of Machine/PkUnit.lean keeps (`Keeps`, Laws/Keeps.lean).
-/

namespace Sys2Proof.Laws

open Sys2Proof.Machine

theorem keeps_pkIssue {s0 s : State} (hk : Keeps s0 s) {j : LinenJob} :
    Keeps s0 (pkIssue j s) := by
  unfold pkIssue
  exact Keeps.mkSame ‹_›

theorem keeps_pkWipe {s0 s : State} (hk : Keeps s0 s) :
    Keeps s0 (pkWipe s) := by
  unfold pkWipe
  extract_lets +onlyGivenNames v0
  refine cut (P := Keeps s0 v0) ?_ fun k1 => ?_
  · unfold v0
    exact keeps_State_addSat ‹_›
  clear_value v0
  exact Keeps.mkSame ‹_›

theorem keeps_pkStop {s0 s : State} (hk : Keeps s0 s) :
    Keeps s0 (pkStop s) := by
  unfold pkStop
  exact keeps_pkWipe (Keeps.mkSame ‹_›)

theorem keeps_pkPfail {s0 s : State} (hk : Keeps s0 s) :
    Keeps s0 (pkPfail s) := by
  unfold pkPfail
  split
  · rename_i x0 x1 x2 x3 e4
    exact keeps_pkStop ‹_›
  rename_i x5 e6
  assumption

theorem keeps_pkSubmit {s0 s : State} (hk : Keeps s0 s) {addr : Nat} :
    Keeps s0 (pkSubmit addr s) := by
  unfold pkSubmit
  refine Keeps.ite ?_ ?_
  · assumption
  refine Keeps.ite ?_ ?_
  · exact keeps_State_raise ‹_›
  exact Keeps.mkSame ‹_›

theorem keeps_pkEnd {s0 s : State} (hk : Keeps s0 s) {addr : Nat} {status : Nat} :
    Keeps s0 (pkEnd addr status s) := by
  unfold pkEnd
  extract_lets +onlyGivenNames v0
  refine cut (P := Keeps s0 v0) ?_ fun k1 => ?_
  · unfold v0
    exact keeps_State_raise (keeps_State_store ‹_›)
  clear_value v0
  exact Keeps.mkSame ‹_›

theorem keeps_pkAfter {s0 s : State} (hk : Keeps s0 s) {owner : Nat} {wipe : Bool} :
    Keeps s0 (pkAfter owner wipe s) := by
  unfold pkAfter
  extract_lets +onlyGivenNames v0
  clear_value v0
  extract_lets +onlyGivenNames v1
  refine cut (P := Keeps s0 v1) ?_ fun k2 => ?_
  · unfold v1
    exact Keeps.mkSame ‹_›
  clear_value v1
  refine Keeps.ite ?_ ?_
  · exact keeps_pkWipe (Keeps.mkSame ‹_›)
  assumption

theorem keeps_pkFault {s0 s : State} (hk : Keeps s0 s) {c : PkCheck} {owner : Nat} {op : Nat} :
    Keeps s0 (pkFault c owner op s) := by
  unfold pkFault
  extract_lets +onlyGivenNames v0
  refine cut (P := Keeps s0 v0) ?_ fun k1 => ?_
  · unfold v0
    exact keeps_State_addSat ‹_›
  clear_value v0
  extract_lets +onlyGivenNames v2
  refine cut (P := Keeps s0 v2) ?_ fun k3 => ?_
  · unfold v2
    exact keeps_State_wr ‹_›
  clear_value v2
  exact keeps_setSticky (keeps_State_raise ‹_›)

theorem keeps_pkDeliver {s0 s : State} (hk : Keeps s0 s) {addr : Nat} {d : Bytes} {o : PkOut} :
    Keeps s0 (pkDeliver addr d o s) := by
  unfold pkDeliver
  refine Keeps.ite ?_ ?_
  · exact keeps_pkEnd ‹_›
  split
  rename_i x0 x1 x2 e3
  refine cut (P := Keeps s0 x2) ?_ fun k4 => ?_
  · refine Keeps.snd e3 ?_
    refine Keeps.iteSnd ?_ ?_
    · exact Keeps.pair ‹_›
    exact keeps_jobAccess ‹_›
  refine Keeps.ite ?_ ?_
  · exact keeps_pkEnd ‹_›
  split
  · rename_i x5 e6
    exact keeps_pkEnd (keeps_State_store ‹_›)
  rename_i x7 x8 e9
  refine Keeps.ite ?_ ?_
  · exact keeps_pkEnd ‹_›
  split
  · rename_i x10 x11 e12
    refine cut (P := Keeps s0 x11) ?_ fun k13 => ?_
    · exact Keeps.snd e12 (keeps_fillSlot ‹_›)
    exact keeps_pkEnd (keeps_State_store ‹_›)
  rename_i x14 x15 x16 e17 e18
  refine cut (P := Keeps s0 x16) ?_ fun k19 => ?_
  · exact Keeps.snd e18 (keeps_fillSlot ‹_›)
  exact keeps_pkEnd ‹_›

theorem keeps_pkFirmwareDone {s0 s : State} (hk : Keeps s0 s) {addr : Nat} {d : Bytes} {key : Bytes} {c : PkCheck} :
    Keeps s0 (pkFirmwareDone addr d key c s) := by
  unfold pkFirmwareDone
  extract_lets +onlyGivenNames v0
  clear_value v0
  extract_lets +onlyGivenNames v1
  clear_value v1
  refine Keeps.ite ?_ ?_
  · exact keeps_pkEnd (keeps_pkAfter ‹_›)
  refine Keeps.ite ?_ ?_
  · exact keeps_pkEnd (keeps_pkFault (keeps_pkAfter ‹_›))
  extract_lets +onlyGivenNames v2
  clear_value v2
  split
  rename_i x3 x4 x5 e6
  refine cut (P := Keeps s0 x5) ?_ fun k7 => ?_
  · refine Keeps.snd e6 ?_
    refine Keeps.iteSnd ?_ ?_
    · exact Keeps.pair ‹_›
    exact keeps_jobAccess ‹_›
  extract_lets +onlyGivenNames v8
  clear_value v8
  refine Keeps.ite ?_ ?_
  · exact keeps_pkEnd (keeps_pkAfter ‹_›)
  extract_lets +onlyGivenNames v9
  clear_value v9
  extract_lets +onlyGivenNames v10
  clear_value v10
  exact keeps_pkDeliver (keeps_pkAfter (keeps_State_fresh ‹_›))

theorem keeps_pkWipeDone {s0 s : State} (hk : Keeps s0 s) :
    Keeps s0 (pkWipeDone s) := by
  unfold pkWipeDone
  refine Keeps.ite ?_ ?_
  · exact Keeps.mkSame ‹_›
  assumption

theorem keeps_pkAbort {s0 s : State} (hk : Keeps s0 s) {addr : Nat} {tie : Bool} :
    Keeps s0 (pkAbort addr tie s) := by
  unfold pkAbort
  extract_lets +onlyGivenNames v0
  extract_lets +onlyGivenNames v1
  split
  · rename_i x2 x3 x4 x5 e6
    refine Keeps.ite ?_ ?_
    · refine Keeps.ite ?_ ?_
      · unfold v0
        exact Keeps.mkSame (keeps_pkFirmwareDone (keeps_pkWipeDone ‹_›))
      unfold v0
      refine Keeps.mkSame ?_
      unfold v1
      exact keeps_State_store (keeps_pkStop ‹_›)
    refine Keeps.ite ?_ ?_
    · unfold v0
      refine Keeps.mkSame ?_
      unfold v1
      exact keeps_State_store (Keeps.mkSame ‹_›)
    unfold v0
    exact Keeps.mkSame ‹_›
  rename_i x7 e8
  refine Keeps.ite ?_ ?_
  · unfold v0
    refine Keeps.mkSame ?_
    unfold v1
    exact keeps_State_store (Keeps.mkSame ‹_›)
  unfold v0
  exact Keeps.mkSame ‹_›

theorem keeps_pkZeroAll {s0 s : State} (hk : Keeps s0 s) :
    Keeps s0 (pkZeroAll s) := by
  unfold pkZeroAll
  refine Keeps.ite ?_ ?_
  · exact Keeps.mkSame ‹_›
  exact keeps_pkWipe ‹_›

theorem keeps_pkGate {s0 s : State} (hk : Keeps s0 s) :
    Keeps s0 (pkGate s) := by
  unfold pkGate
  refine Keeps.ite ?_ ?_
  · extract_lets +onlyGivenNames v0
    refine cut (P := Keeps s0 v0) ?_ fun k1 => ?_
    · unfold v0
      refine Keeps.ite ?_ ?_
      · exact keeps_pkWipe ‹_›
      assumption
    clear_value v0
    exact Keeps.mkSame ‹_›
  assumption

theorem keeps_pkRun {s0 s : State} (hk : Keeps s0 s) {j : PkJob} :
    Keeps s0 (pkRun j s) := by
  unfold pkRun
  extract_lets +onlyGivenNames v0
  clear_value v0
  extract_lets +onlyGivenNames v1
  refine cut (P := Keeps s0 v1) ?_ fun k2 => ?_
  · unfold v1
    exact Keeps.mkSame ‹_›
  clear_value v1
  split
  · rename_i x3 x4 e5
    refine Keeps.ite ?_ ?_
    · exact keeps_pkWipe ‹_›
    assumption
  rename_i x6 e7
  assumption

theorem keeps_pkStartFirmware {s0 s : State} (hk : Keeps s0 s) {addr : Nat} {rest : List Nat} :
    Keeps s0 (pkStartFirmware addr rest s) := by
  unfold pkStartFirmware
  split
  rename_i x0 x1 x2 e3
  refine cut (P := Keeps s0 x2) ?_ fun k4 => ?_
  · exact Keeps.snd e3 (keeps_jobAccess ‹_›)
  extract_lets +onlyGivenNames v5
  clear_value v5
  extract_lets +onlyGivenNames v6
  clear_value v6
  extract_lets +onlyGivenNames v7
  refine cut (P := Keeps s0 v7) ?_ fun k8 => ?_
  · unfold v7
    exact Keeps.mkSame ‹_›
  clear_value v7
  refine Keeps.ite ?_ ?_
  · exact keeps_pkEnd ‹_›
  refine Keeps.ite ?_ ?_
  · exact keeps_pkEnd ‹_›
  refine Keeps.ite ?_ ?_
  · split
    · rename_i x9 x10 e11
      refine Keeps.ite ?_ ?_
      · exact keeps_pkRun ‹_›
      exact keeps_pkEnd ‹_›
    rename_i x12 e13
    exact keeps_pkEnd ‹_›
  exact keeps_pkRun ‹_›

theorem keeps_pkStart {s0 s : State} (hk : Keeps s0 s) :
    Keeps s0 (pkStart s) := by
  unfold pkStart
  refine Keeps.ite ?_ ?_
  · assumption
  split
  · rename_i x0 x1 x2 e3
    extract_lets +onlyGivenNames v4
    clear_value v4
    extract_lets +onlyGivenNames v5
    refine cut (P := Keeps s0 v5) ?_ fun k6 => ?_
    · unfold v5
      exact Keeps.mkSame ‹_›
    clear_value v5
    refine Keeps.ite ?_ ?_
    · exact Keeps.mkSame ‹_›
    exact keeps_pkRun ‹_›
  rename_i x7 e8
  split
  · rename_i x9 x10 x11 e12
    refine Keeps.ite ?_ ?_
    · assumption
    exact keeps_pkStartFirmware ‹_›
  rename_i x13 e14
  assumption

theorem keeps_pkPreempt {s0 s : State} (hk : Keeps s0 s) :
    Keeps s0 (pkPreempt s) := by
  unfold pkPreempt
  split
  · rename_i x0 x1 x2 x3 e4
    refine Keeps.ite ?_ ?_
    · extract_lets +onlyGivenNames v5
      refine cut (P := Keeps s0 v5) ?_ fun k6 => ?_
      · unfold v5
        exact keeps_State_raise (keeps_State_addSat ‹_›)
      clear_value v5
      exact keeps_pkStop (Keeps.mkSame ‹_›)
    assumption
  rename_i x7 e8
  assumption

theorem keeps_pkLinenDone {s0 s : State} (hk : Keeps s0 s) {j : LinenJob} {owner : Nat} {c : PkCheck} :
    Keeps s0 (pkLinenDone j owner c s) := by
  unfold pkLinenDone
  extract_lets +onlyGivenNames v0
  clear_value v0
  extract_lets +onlyGivenNames v1
  clear_value v1
  extract_lets +onlyGivenNames v2
  clear_value v2
  extract_lets +onlyGivenNames v3
  refine cut (P := Keeps s0 v3) ?_ fun k4 => ?_
  · unfold v3
    exact keeps_pkAfter ‹_›
  clear_value v3
  extract_lets +onlyGivenNames v5
  refine cut (P := Keeps s0 v5) ?_ fun k6 => ?_
  · unfold v5
    refine Keeps.ite ?_ ?_
    · exact keeps_pkFault ‹_›
    assumption
  clear_value v5
  exact Keeps.mkSame ‹_›

theorem keeps_pkDone {s0 s : State} (hk : Keeps s0 s) {c : PkCheck} :
    Keeps s0 (pkDone c s) := by
  unfold pkDone
  extract_lets +onlyGivenNames v0
  refine cut (P := Keeps s0 v0) ?_ fun k1 => ?_
  · unfold v0
    exact keeps_pkWipeDone ‹_›
  clear_value v0
  split
  · rename_i x2 e3
    assumption
  · rename_i x4 x5 x6 e7
    exact keeps_pkLinenDone ‹_›
  rename_i x8 x9 x10 x11 e12
  exact keeps_pkFirmwareDone ‹_›

end Sys2Proof.Laws
end

