-- ==== Sys2Proof/Laws/KeepsLinen.lean ====
section
/-!
SUPPORT. What every operation of Machine/Linen.lean keeps (`Keeps`, Laws/Keeps.lean).
-/

namespace Sys2Proof.Laws

open Sys2Proof.Machine

theorem keeps_timemap {s0 s : State} (hk : Keeps s0 s) :
    Keeps s0 (timemap s) := by
  unfold timemap
  refine Keeps.ite ?_ ?_
  · assumption
  extract_lets +onlyGivenNames v0
  clear_value v0
  extract_lets +onlyGivenNames v1
  clear_value v1
  extract_lets +onlyGivenNames v2
  refine cut (P := Keeps s0 v2) ?_ fun k3 => ?_
  · unfold v2
    exact keeps_write ‹_›
  clear_value v2
  exact keeps_State_onLinen ‹_›

theorem keeps_anchorSnapshot {s0 s : State} (hk : Keeps s0 s) {a : AnchorJob} :
    Keeps s0 (anchorSnapshot a s) := by
  unfold anchorSnapshot
  extract_lets +onlyGivenNames v0
  clear_value v0
  exact keeps_pkIssue (keeps_State_onLinen ‹_›)

theorem keeps_anchorStart {s0 s : State} (hk : Keeps s0 s) {a : AnchorJob} :
    Keeps s0 (anchorStart a s) := by
  unfold anchorStart
  refine Keeps.ite ?_ ?_
  · exact keeps_State_onLinen ‹_›
  refine Keeps.ite ?_ ?_
  · exact keeps_State_onLinen ‹_›
  split
  · rename_i x0 e1
    exact keeps_anchorSnapshot ‹_›
  rename_i x2 e3
  exact keeps_State_onLinen ‹_›

theorem keeps_anchorRequest {s0 s : State} (hk : Keeps s0 s) {requested : Bool} :
    Keeps s0 (anchorRequest requested s) := by
  unfold anchorRequest
  extract_lets +onlyGivenNames v0
  clear_value v0
  refine Keeps.ite ?_ ?_
  · assumption
  refine Keeps.ite ?_ ?_
  · exact keeps_State_addSat ‹_›
  refine Keeps.ite ?_ ?_
  · exact keeps_State_onLinen ‹_›
  exact keeps_anchorStart ‹_›

theorem keeps_epochRequest {s0 s : State} (hk : Keeps s0 s) {r : EpochReq} :
    Keeps s0 (epochRequest r s) := by
  unfold epochRequest
  refine Keeps.ite ?_ ?_
  · exact keeps_setSticky (keeps_State_onLinen ‹_›)
  exact keeps_State_onLinen ‹_›

theorem keeps_kwEnd {s0 s : State} (hk : Keeps s0 s) {code : Nat} :
    Keeps s0 (kwEnd code s) := by
  unfold kwEnd
  extract_lets +onlyGivenNames v0
  refine cut (P := Keeps s0 v0) ?_ fun k1 => ?_
  · unfold v0
    exact keeps_State_setFlag (keeps_State_setFld ‹_›)
  clear_value v0
  exact keeps_State_raise (keeps_State_onLinen ‹_›)

theorem keeps_keywrap {s0 s : State} (hk : Keeps s0 s) {c : Nat} {kind : Nat} {alg : Nat} {src : Nat} :
    Keeps s0 (keywrap c kind alg src s) := by
  unfold keywrap
  refine Keeps.ite ?_ ?_
  · assumption
  refine Keeps.ite ?_ ?_
  · exact keeps_State_setFld ‹_›
  extract_lets +onlyGivenNames v0
  clear_value v0
  refine Keeps.ite ?_ ?_
  · exact keeps_kwEnd ‹_›
  extract_lets +onlyGivenNames v1
  refine cut (P := Keeps s0 v1) ?_ fun k2 => ?_
  · unfold v1
    exact keeps_State_setFld ‹_›
  clear_value v1
  exact keeps_pkIssue (keeps_State_onLinen ‹_›)

theorem keeps_linenPfail {s0 s : State} (hk : Keeps s0 s) :
    Keeps s0 (linenPfail s) := by
  unfold linenPfail
  extract_lets +onlyGivenNames v0
  refine cut (P := Keeps s0 v0) ?_ fun k1 => ?_
  · unfold v0
    exact keeps_State_onLinen ‹_›
  clear_value v0
  exact keeps_State_onPk ‹_›

theorem keeps_anchorAfter {s0 s : State} (hk : Keeps s0 s) {c : Nat} {jsn : Nat} :
    Keeps s0 (anchorAfter c jsn s) := by
  unfold anchorAfter
  split
  · rename_i x0 x1 e2
    refine Keeps.ite ?_ ?_
    · assumption
    extract_lets +onlyGivenNames v3
    clear_value v3
    refine Keeps.ite ?_ ?_
    · exact keeps_anchorSnapshot ‹_›
    exact keeps_State_onLinen ‹_›
  rename_i x4 e5
  assumption

theorem keeps_stripeRecordWritten {s0 s : State} (hk : Keeps s0 s) {c : Nat} :
    Keeps s0 (stripeRecordWritten c s) := by
  unfold stripeRecordWritten
  split
  · rename_i x0 e1
    assumption
  rename_i x2 x3 x4 e5
  exact keeps_anchorAfter (keeps_sealStripe (keeps_setCust ‹_›))

theorem keeps_commitKeywraps {s0 a2 : State} (hk : Keeps s0 a2) {a1 : List Nat} :
    Keeps s0 (commitKeywraps a1 a2) := by
  induction a1 generalizing a2
  · unfold commitKeywraps
    assumption
  · rename_i hd tl ih
    unfold commitKeywraps
    extract_lets +onlyGivenNames v0
    clear_value v0
    refine Keeps.ite ?_ ?_
    · split
      rename_i x1 x2 x3 e4
      refine cut (P := Keeps s0 x3) ?_ fun k5 => ?_
      · exact Keeps.snd e4 (keeps_takeKeywraps ‹_›)
      exact ih (keeps_writeKeywraps (keeps_ensureCreate ‹_›))
    exact ih ‹_›

theorem keeps_linenCommit {s0 s : State} (hk : Keeps s0 s) :
    Keeps s0 (linenCommit s) := by
  unfold linenCommit
  exact keeps_State_onLinen (keeps_commitKeywraps ‹_›)

theorem keeps_takeDelivered {s0 s : State} (hk : Keeps s0 s) {j : LinenJob} :
    Keeps s0 (takeDelivered j s).2 := by
  unfold takeDelivered
  split
  · rename_i x0 x1 e2
    exact Keeps.pair (keeps_State_onPk ‹_›)
  rename_i x3 e4
  exact Keeps.pair ‹_›

theorem keeps_anchorWrite {s0 s : State} (hk : Keeps s0 s) {a : AnchorJob} :
    Keeps s0 (anchorWrite a s) := by
  unfold anchorWrite
  extract_lets +onlyGivenNames v0
  clear_value v0
  extract_lets +onlyGivenNames v1
  clear_value v1
  extract_lets +onlyGivenNames v2
  refine cut (P := Keeps s0 v2) ?_ fun k3 => ?_
  · unfold v2
    exact keeps_State_fresh ‹_›
  clear_value v2
  extract_lets +onlyGivenNames v4
  clear_value v4
  extract_lets +onlyGivenNames v5
  refine cut (P := Keeps s0 v5) ?_ fun k6 => ?_
  · unfold v5
    exact keeps_appendAt ‹_›
  clear_value v5
  exact keeps_State_raise (keeps_State_onLinen ‹_›)

theorem keeps_anchorSigned {s0 s : State} (hk : Keeps s0 s) :
    Keeps s0 (anchorSigned s) := by
  unfold anchorSigned
  split
  · rename_i x0 x1 x2 x3 x4 e5 e6
    refine cut (P := Keeps s0 x3) ?_ fun k7 => ?_
    · exact Keeps.snd e5 (keeps_takeDelivered ‹_›)
    refine Keeps.ite ?_ ?_
    · exact keeps_anchorWrite ‹_›
    extract_lets +onlyGivenNames v8
    refine cut (P := Keeps s0 v8) ?_ fun k9 => ?_
    · unfold v8
      exact keeps_State_raise ‹_›
    clear_value v8
    refine Keeps.ite ?_ ?_
    · exact keeps_State_onLinen ‹_›
    exact keeps_anchorSnapshot ‹_›
  rename_i x10 x11 x12 x13 e14 e15
  refine cut (P := Keeps s0 x13) ?_ fun k16 => ?_
  · exact Keeps.snd e14 (keeps_takeDelivered ‹_›)
  assumption

theorem keeps_loadBank {s0 s : State} (hk : Keeps s0 s) {c : Nat} {ver : Nat} {key : Bytes} {kt : Nat} :
    Keeps s0 (loadBank c ver key kt s) := by
  unfold loadBank
  extract_lets +onlyGivenNames v0
  clear_value v0
  extract_lets +onlyGivenNames v1
  clear_value v1
  refine Keeps.ite ?_ ?_
  · extract_lets +onlyGivenNames v2
    refine cut (P := Keeps s0 v2) ?_ fun k3 => ?_
    · unfold v2
      exact keeps_setBank ‹_›
    clear_value v2
    exact keeps_State_onCtx ‹_›
  exact keeps_State_onCtx ‹_›

theorem keeps_retryLoad {s0 s : State} (hk : Keeps s0 s) :
    Keeps s0 (retryLoad s) := by
  unfold retryLoad
  split
  · rename_i x0 x1 x2 x3 x4 e5
    exact keeps_loadBank ‹_›
  rename_i x6 e7
  assumption

theorem keeps_keywrapDone {s0 s : State} (hk : Keeps s0 s) :
    Keeps s0 (keywrapDone s) := by
  unfold keywrapDone
  split
  · rename_i x0 x1 x2 x3 x4 e5 e6
    refine cut (P := Keeps s0 x3) ?_ fun k7 => ?_
    · exact Keeps.snd e5 (keeps_takeDelivered ‹_›)
    refine Keeps.ite ?_ ?_
    · exact keeps_kwEnd ‹_›
    split
    · rename_i x8 x9 e10
      extract_lets +onlyGivenNames v11
      clear_value v11
      extract_lets +onlyGivenNames v12
      clear_value v12
      extract_lets +onlyGivenNames v13
      refine cut (P := Keeps s0 v13) ?_ fun k14 => ?_
      · unfold v13
        exact keeps_State_onLinen ‹_›
      clear_value v13
      extract_lets +onlyGivenNames v15
      refine cut (P := Keeps s0 v15) ?_ fun k16 => ?_
      · unfold v15
        refine Keeps.ite ?_ ?_
        · exact keeps_loadBank ‹_›
        assumption
      clear_value v15
      exact keeps_kwEnd ‹_›
    · rename_i x17 e18
      exact keeps_kwEnd ‹_›
    rename_i x19 e20 e21
    exact keeps_kwEnd ‹_›
  rename_i x22 x23 x24 x25 e26 e27
  refine cut (P := Keeps s0 x25) ?_ fun k28 => ?_
  · exact Keeps.snd e26 (keeps_takeDelivered ‹_›)
  assumption

theorem keeps_timemapPeriod {s0 s : State} (hk : Keeps s0 s) :
    Keeps s0 (timemapPeriod s) := by
  unfold timemapPeriod
  extract_lets +onlyGivenNames v0
  clear_value v0
  refine Keeps.ite ?_ ?_
  · assumption
  exact keeps_timemap ‹_›

theorem keeps_requestDone {s0 s : State} (hk : Keeps s0 s) {e : EpochReq} :
    Keeps s0 (requestDone e s) := by
  unfold requestDone
  extract_lets +onlyGivenNames v0
  refine cut (P := Keeps s0 v0) ?_ fun k1 => ?_
  · unfold v0
    exact keeps_State_onLinen ‹_›
  clear_value v0
  refine Keeps.ite ?_ ?_
  · assumption
  refine Keeps.ite ?_ ?_
  · exact keeps_State_onFelt ‹_›
  exact keeps_State_onFelt ‹_›

theorem keeps_epochWrite {s0 s : State} (hk : Keeps s0 s) {e : EpochSeq} :
    Keeps s0 (epochWrite e s) := by
  unfold epochWrite
  extract_lets +onlyGivenNames v0
  clear_value v0
  extract_lets +onlyGivenNames v1
  clear_value v1
  extract_lets +onlyGivenNames v2
  clear_value v2
  extract_lets +onlyGivenNames v3
  refine cut (P := Keeps s0 v3) ?_ fun k4 => ?_
  · unfold v3
    exact keeps_append (keeps_State_fresh ‹_›)
  clear_value v3
  extract_lets +onlyGivenNames v5
  refine cut (P := Keeps s0 v5) ?_ fun k6 => ?_
  · unfold v5
    exact keeps_zeroizeSlot ‹_›
  clear_value v5
  extract_lets +onlyGivenNames v7
  clear_value v7
  extract_lets +onlyGivenNames v8
  refine cut (P := Keeps s0 v8) ?_ fun k9 => ?_
  · unfold v8
    exact keeps_State_onLinen ‹_›
  clear_value v8
  extract_lets +onlyGivenNames v10
  refine cut (P := Keeps s0 v10) ?_ fun k11 => ?_
  · unfold v10
    refine Keeps.ite ?_ ?_
    · exact keeps_requestDone ‹_›
    assumption
  clear_value v10
  extract_lets +onlyGivenNames v12
  refine cut (P := Keeps s0 v12) ?_ fun k13 => ?_
  · unfold v12
    exact keeps_State_raise ‹_›
  clear_value v12
  split
  · rename_i x14 x15 e16
    exact keeps_anchorStart (keeps_State_onLinen ‹_›)
  rename_i x17 e18
  assumption

theorem keeps_epochAbandon {s0 s : State} (hk : Keeps s0 s) :
    Keeps s0 (epochAbandon s) := by
  unfold epochAbandon
  split
  · exact keeps_anchorStart (keeps_State_onLinen ‹_›)
  exact keeps_State_onLinen ‹_›

theorem keeps_epochFail {s0 s : State} (hk : Keeps s0 s) {e : EpochSeq} {j : LinenJob} :
    Keeps s0 (epochFail e j s) := by
  unfold epochFail
  refine Keeps.ite ?_ ?_
  · exact keeps_epochAbandon ‹_›
  exact keeps_pkIssue (keeps_State_onLinen ‹_›)

theorem keeps_epochSigned {s0 s : State} (hk : Keeps s0 s) :
    Keeps s0 (epochSigned s) := by
  unfold epochSigned
  split
  · rename_i x0 x1 x2 x3 x4 e5 e6
    refine cut (P := Keeps s0 x3) ?_ fun k7 => ?_
    · exact Keeps.snd e5 (keeps_takeDelivered ‹_›)
    refine Keeps.ite ?_ ?_
    · exact keeps_epochWrite ‹_›
    exact keeps_epochFail ‹_›
  rename_i x8 x9 x10 x11 e12 e13
  refine cut (P := Keeps s0 x11) ?_ fun k14 => ?_
  · exact Keeps.snd e12 (keeps_takeDelivered ‹_›)
  assumption

theorem keeps_epochStart {s0 s : State} (hk : Keeps s0 s) :
    Keeps s0 (epochStart s) := by
  unfold epochStart
  refine Keeps.ite ?_ ?_
  · assumption
  split
  · rename_i x0 e1
    assumption
  rename_i x2 x3 e4
  extract_lets +onlyGivenNames v5
  clear_value v5
  extract_lets +onlyGivenNames v6
  refine cut (P := Keeps s0 v6) ?_ fun k7 => ?_
  · unfold v6
    exact keeps_allocSlot (keeps_zeroizeSlot ‹_›)
  clear_value v6
  exact keeps_pkIssue (keeps_State_onLinen ‹_›)

theorem keeps_epochKeygenDone {s0 s : State} (hk : Keeps s0 s) :
    Keeps s0 (epochKeygenDone s) := by
  unfold epochKeygenDone
  split
  · rename_i x0 x1 x2 x3 x4 e5 e6
    refine cut (P := Keeps s0 x3) ?_ fun k7 => ?_
    · exact Keeps.snd e5 (keeps_takeDelivered ‹_›)
    refine Keeps.ite ?_ ?_
    · exact keeps_epochFail ‹_›
    extract_lets +onlyGivenNames v8
    clear_value v8
    split
    rename_i x9 x10 x11 e12
    refine cut (P := Keeps s0 x11) ?_ fun k13 => ?_
    · exact Keeps.snd e12 (keeps_fillSlot (keeps_State_fresh ‹_›))
    extract_lets +onlyGivenNames v14
    clear_value v14
    exact keeps_pkIssue (keeps_State_onLinen ‹_›)
  rename_i x15 x16 x17 x18 e19 e20
  refine cut (P := Keeps s0 x18) ?_ fun k21 => ?_
  · exact Keeps.snd e19 (keeps_takeDelivered ‹_›)
  assumption

theorem keeps_kwKeygenDone {s0 s : State} (hk : Keeps s0 s) :
    Keeps s0 (kwKeygenDone s) := by
  unfold kwKeygenDone
  split
  · rename_i x0 x1 x2 x3 x4 e5 e6
    refine cut (P := Keeps s0 x3) ?_ fun k7 => ?_
    · exact Keeps.snd e5 (keeps_takeDelivered ‹_›)
    refine Keeps.ite ?_ ?_
    · exact keeps_kwEnd ‹_›
    extract_lets +onlyGivenNames v8
    clear_value v8
    exact keeps_pkIssue (keeps_State_onLinen (keeps_State_fresh ‹_›))
  rename_i x9 x10 x11 x12 e13 e14
  refine cut (P := Keeps s0 x12) ?_ fun k15 => ?_
  · exact Keeps.snd e13 (keeps_takeDelivered ‹_›)
  assumption

end Sys2Proof.Laws
end

