-- ==== Sys2Proof/Laws/KeepsMedia.lean ====
section
/-!
SUPPORT. What every operation of Machine/Media.lean keeps (`Keeps`, Laws/Keeps.lean).
-/

namespace Sys2Proof.Laws

open Sys2Proof.Machine

theorem keeps_setChan {s0 s : State} (hk : Keeps s0 s) {n : Nat} {f : Channel → Channel} :
    Keeps s0 (setChan n f s) := by
  unfold setChan
  exact keeps_State_onMedia ‹_›

theorem keeps_initLuns {s0 s : State} (hk : Keeps s0 s) {blocks : Nat} {pct : Nat} {n : Nat} {bad : List (Nat × Nat × Nat)} :
    Keeps s0 (initLuns blocks pct n bad s) := by
  unfold initLuns
  exact keeps_setChan ‹_›

theorem keeps_logBad {s0 a2 : State} (hk : Keeps s0 a2) {a1 : List (Nat × Nat × Nat)} :
    Keeps s0 (logBad a1 a2) := by
  induction a1 generalizing a2
  · unfold logBad
    assumption
  · rename_i hd tl ih
    unfold logBad
    exact ih (keeps_logAppend ‹_›)

theorem keeps_emptyMaps {s0 s : State} (hk : Keeps s0 s) :
    Keeps s0 (emptyMaps s) := by
  unfold emptyMaps
  extract_lets +onlyGivenNames v0
  clear_value v0
  extract_lets +onlyGivenNames v1
  refine cut (P := Keeps s0 v1) ?_ fun k2 => ?_
  · unfold v1
    exact keeps_State_onJrn ‹_›
  clear_value v1
  exact keeps_State_onMedia ‹_›

theorem keeps_mediaInit {s0 s : State} (hk : Keeps s0 s) {bad : List (Nat × Nat × Nat)} :
    Keeps s0 (mediaInit bad s).2 := by
  unfold mediaInit
  refine Keeps.iteSnd ?_ ?_
  · exact Keeps.pair ‹_›
  split
  · rename_i x0 e1
    exact Keeps.pair ‹_›
  rename_i x2 x3 x4 e5
  refine Keeps.iteSnd ?_ ?_
  · exact Keeps.pair ‹_›
  refine Keeps.iteSnd ?_ ?_
  · exact Keeps.pair ‹_›
  extract_lets +onlyGivenNames v6
  clear_value v6
  extract_lets +onlyGivenNames v7
  clear_value v7
  extract_lets +onlyGivenNames v8
  clear_value v8
  extract_lets +onlyGivenNames v9
  clear_value v9
  extract_lets +onlyGivenNames v10
  clear_value v10
  extract_lets +onlyGivenNames v11
  clear_value v11
  extract_lets +onlyGivenNames v12
  clear_value v12
  extract_lets +onlyGivenNames v13
  refine cut (P := Keeps s0 v13) ?_ fun k14 => ?_
  · unfold v13
    refine Keeps.foldl ?_ fun t15 x16 k17 => ?_
    · assumption
    exact keeps_initLuns ‹_›
  clear_value v13
  extract_lets +onlyGivenNames v18
  refine cut (P := Keeps s0 v18) ?_ fun k19 => ?_
  · unfold v18
    exact keeps_State_onMedia ‹_›
  clear_value v18
  extract_lets +onlyGivenNames v23
  refine cut (P := Keeps s0 v23) ?_ fun k24 => ?_
  · unfold v23
    exact keeps_logBad (keeps_emptyMaps ‹_›)
  clear_value v23
  extract_lets +onlyGivenNames v25
  refine cut (P := Keeps s0 v25) ?_ fun k26 => ?_
  · unfold v25
    refine Keeps.foldl ?_ fun t27 x28 k29 => ?_
    · assumption
    refine Keeps.ite ?_ ?_
    · exact keeps_setChan ‹_›
    assumption
  clear_value v25
  exact Keeps.pair ‹_›

theorem keeps_setSeg {s0 s : State} (hk : Keeps s0 s) {k : Nat} {f : Seg → Seg} :
    Keeps s0 (setSeg k f s) := by
  unfold setSeg
  extract_lets +onlyGivenNames v0
  clear_value v0
  exact keeps_State_onJrn ‹_›

theorem keeps_logSeg {s0 s : State} (hk : Keeps s0 s) {k : Nat} :
    Keeps s0 (logSeg k s) := by
  unfold logSeg
  extract_lets +onlyGivenNames v0
  clear_value v0
  exact keeps_logAppend ‹_›

theorem keeps_parkLdpc {s0 s : State} (hk : Keeps s0 s) {lane : Nat} :
    Keeps s0 (parkLdpc lane s) := by
  unfold parkLdpc
  extract_lets +onlyGivenNames v0
  clear_value v0
  extract_lets +onlyGivenNames v1
  clear_value v1
  refine Keeps.ite ?_ ?_
  · assumption
  refine Keeps.ite ?_ ?_
  · exact keeps_setSticky ‹_›
  extract_lets +onlyGivenNames v2
  refine cut (P := Keeps s0 v2) ?_ fun k3 => ?_
  · unfold v2
    exact keeps_State_onMedia ‹_›
  clear_value v2
  exact keeps_setSticky (keeps_State_raise ‹_›)

theorem keeps_ldpcTest {s0 s : State} (hk : Keeps s0 s) {fails : List Nat} :
    Keeps s0 (ldpcTest fails s) := by
  unfold ldpcTest
  extract_lets +onlyGivenNames v0
  clear_value v0
  extract_lets +onlyGivenNames v1
  clear_value v1
  extract_lets +onlyGivenNames v2
  refine cut (P := Keeps s0 v2) ?_ fun k3 => ?_
  · unfold v2
    exact keeps_State_onMedia ‹_›
  clear_value v2
  extract_lets +onlyGivenNames v4
  refine cut (P := Keeps s0 v4) ?_ fun k5 => ?_
  · unfold v4
    refine Keeps.ite ?_ ?_
    · exact keeps_parkLdpc ‹_›
    assumption
  clear_value v4
  refine Keeps.ite ?_ ?_
  · exact keeps_parkLdpc ‹_›
  assumption

theorem keeps_rrWrite {s0 s : State} (hk : Keeps s0 s) {v : Word} :
    Keeps s0 (rrWrite v s) := by
  unfold rrWrite
  extract_lets +onlyGivenNames v0
  clear_value v0
  extract_lets +onlyGivenNames v1
  refine cut (P := Keeps s0 v1) ?_ fun k2 => ?_
  · unfold v1
    exact keeps_State_onMedia ‹_›
  clear_value v1
  exact keeps_State_setFld (keeps_State_wr ‹_›)

theorem keeps_pairWrite {s0 s : State} (hk : Keeps s0 s) {v : Nat} :
    Keeps s0 (pairWrite v s) := by
  unfold pairWrite
  refine Keeps.ite ?_ ?_
  · assumption
  extract_lets +onlyGivenNames v0
  clear_value v0
  extract_lets +onlyGivenNames v1
  refine cut (P := Keeps s0 v1) ?_ fun k2 => ?_
  · unfold v1
    exact keeps_State_onMedia ‹_›
  clear_value v1
  exact keeps_State_setFld (keeps_State_setFld ‹_›)

theorem keeps_setLun {s0 s : State} (hk : Keeps s0 s) {n : Nat} {j : Nat} {f : Lun → Lun} :
    Keeps s0 (setLun n j f s) := by
  unfold setLun
  exact keeps_setChan ‹_›

theorem keeps_setOffset {s0 s : State} (hk : Keeps s0 s) {n : Nat} {j : Nat} {k : Nat} {v : Int} :
    Keeps s0 (setOffset n j k v s) := by
  unfold setOffset
  extract_lets +onlyGivenNames v0
  clear_value v0
  exact keeps_setLun ‹_›

theorem keeps_offWrite {s0 s : State} (hk : Keeps s0 s) {n : Nat} {v : Nat} :
    Keeps s0 (offWrite n v s) := by
  unfold offWrite
  extract_lets +onlyGivenNames v0
  clear_value v0
  extract_lets +onlyGivenNames v1
  clear_value v1
  extract_lets +onlyGivenNames v2
  refine cut (P := Keeps s0 v2) ?_ fun k3 => ?_
  · unfold v2
    refine Keeps.ite ?_ ?_
    · exact keeps_setOffset ‹_›
    assumption
  clear_value v2
  split
  rename_i x4 x5 x6 e7
  extract_lets +onlyGivenNames v8
  refine cut (P := Keeps s0 v8) ?_ fun k9 => ?_
  · unfold v8
    exact keeps_State_setFld ‹_›
  clear_value v8
  exact keeps_State_setFld (keeps_State_setFld ‹_›)

theorem keeps_requeueReads {s0 s : State} (hk : Keeps s0 s) {l : List NandOp} :
    Keeps s0 (requeueReads l s) := by
  unfold requeueReads
  split
  · rename_i x0 x1 e2
    exact keeps_setChan ‹_›
  rename_i x3 e4
  assumption

theorem keeps_degrade {s0 s : State} (hk : Keeps s0 s) {n : Nat} :
    Keeps s0 (degrade n s) := by
  unfold degrade
  exact keeps_setChan ‹_›

theorem keeps_markRebuild {s0 a2 : State} (hk : Keeps s0 a2) {a1 : List Nat} :
    Keeps s0 (markRebuild a1 a2) := by
  induction a1 generalizing a2
  · unfold markRebuild
    assumption
  · rename_i hd tl ih
    unfold markRebuild
    refine ih ?_
    refine Keeps.ite ?_ ?_
    · assumption
    exact keeps_logSeg (keeps_setSeg ‹_›)

theorem keeps_abandonPage {s0 s : State} (hk : Keeps s0 s) {k : Nat} {p : Nat} :
    Keeps s0 (abandonPage k p s) := by
  unfold abandonPage
  extract_lets +onlyGivenNames v0
  clear_value v0
  extract_lets +onlyGivenNames v1
  clear_value v1
  extract_lets +onlyGivenNames v2
  refine cut (P := Keeps s0 v2) ?_ fun k3 => ?_
  · unfold v2
    exact keeps_State_onMedia ‹_›
  clear_value v2
  exact keeps_setNs ‹_›

theorem keeps_stopSegment {s0 s : State} (hk : Keeps s0 s) {k : Nat} :
    Keeps s0 (stopSegment k s) := by
  unfold stopSegment
  refine Keeps.ite ?_ ?_
  · assumption
  extract_lets +onlyGivenNames v0
  clear_value v0
  extract_lets +onlyGivenNames v1
  clear_value v1
  extract_lets +onlyGivenNames v2
  refine cut (P := Keeps s0 v2) ?_ fun k3 => ?_
  · unfold v2
    exact keeps_setNs ‹_›
  clear_value v2
  extract_lets +onlyGivenNames v4
  refine cut (P := Keeps s0 v4) ?_ fun k5 => ?_
  · unfold v4
    exact keeps_State_onJrn ‹_›
  clear_value v4
  exact keeps_logSeg (keeps_setSeg ‹_›)

theorem keeps_loseOp {s0 s : State} (hk : Keeps s0 s) {o : NandOp} :
    Keeps s0 (loseOp o s) := by
  unfold loseOp
  split
  · rename_i x0 e1
    exact keeps_abandonPage ‹_›
  rename_i x2 e3
  assumption

theorem keeps_initTargets {s0 s : State} (hk : Keeps s0 s) {n : Nat} {ts : List Target} :
    Keeps s0 (initTargets n ts s) := by
  unfold initTargets
  extract_lets +onlyGivenNames v0
  clear_value v0
  extract_lets +onlyGivenNames v1
  clear_value v1
  extract_lets +onlyGivenNames v2
  refine cut (P := Keeps s0 v2) ?_ fun k3 => ?_
  · unfold v2
    exact keeps_setChan ‹_›
  clear_value v2
  split
  · rename_i x4 e5
    assumption
  rename_i x6 x7 e8
  extract_lets +onlyGivenNames v9
  clear_value v9
  extract_lets +onlyGivenNames v10
  refine cut (P := Keeps s0 v10) ?_ fun k11 => ?_
  · unfold v10
    refine Keeps.foldl ?_ fun t12 x13 k14 => ?_
    · assumption
    refine Keeps.ite ?_ ?_
    · extract_lets +onlyGivenNames v15
      refine cut (P := Keeps s0 v15) ?_ fun k16 => ?_
      · unfold v15
        exact keeps_setChan ‹_›
      clear_value v15
      exact keeps_setSticky (keeps_State_raise (keeps_State_raise ‹_›))
    assumption
  clear_value v10
  exact keeps_setChan ‹_›

theorem keeps_initChannel {s0 s : State} (hk : Keeps s0 s) {n : Nat} {p : Probe} :
    Keeps s0 (initChannel n p s) := by
  unfold initChannel
  extract_lets +onlyGivenNames v0
  clear_value v0
  extract_lets +onlyGivenNames v1
  refine cut (P := Keeps s0 v1) ?_ fun k2 => ?_
  · unfold v1
    exact keeps_setChan ‹_›
  clear_value v1
  refine Keeps.ite ?_ ?_
  · exact keeps_setChan ‹_›
  refine Keeps.ite ?_ ?_
  · extract_lets +onlyGivenNames v9
    refine cut (P := Keeps s0 v9) ?_ fun k10 => ?_
    · unfold v9
      exact keeps_setChan ‹_›
    clear_value v9
    exact keeps_setSticky (keeps_setSticky (keeps_State_raise (keeps_State_raise ‹_›)))
  extract_lets +onlyGivenNames v3
  clear_value v3
  refine Keeps.ite ?_ ?_
  · exact keeps_setChan ‹_›
  refine Keeps.ite ?_ ?_
  · extract_lets +onlyGivenNames v11
    refine cut (P := Keeps s0 v11) ?_ fun k12 => ?_
    · unfold v11
      exact keeps_setChan ‹_›
    clear_value v11
    exact keeps_setSticky (keeps_State_raise ‹_›)
  exact keeps_initTargets (keeps_setChan ‹_›)

theorem keeps_initChannels {s0 s : State} (hk : Keeps s0 s) {l : List Probe} :
    Keeps s0 (initChannels l s) := by
  unfold initChannels
  refine keeps_State_raise ?_
  refine Keeps.foldl ?_ fun t0 x1 k2 => ?_
  · assumption
  exact keeps_initChannel ‹_›

theorem keeps_loseOps {s0 a2 : State} (hk : Keeps s0 a2) {a1 : List NandOp} :
    Keeps s0 (loseOps a1 a2) := by
  induction a1 generalizing a2
  · unfold loseOps
    assumption
  · rename_i hd tl ih
    unfold loseOps
    exact ih (keeps_loseOp ‹_›)

theorem keeps_track {s0 s : State} (hk : Keeps s0 s) {n : Nat} {j : Nat} {ty : Nat} {n01 : Nat} {n10 : Nat} :
    Keeps s0 (track n j ty n01 n10 s) := by
  unfold track
  refine Keeps.ite ?_ ?_
  · assumption
  extract_lets +onlyGivenNames v0
  clear_value v0
  extract_lets +onlyGivenNames v1
  clear_value v1
  refine Keeps.ite ?_ ?_
  · exact keeps_setLun ‹_›
  extract_lets +onlyGivenNames v2
  refine cut (P := Keeps s0 v2) ?_ fun k3 => ?_
  · unfold v2
    exact keeps_setLun ‹_›
  clear_value v2
  extract_lets +onlyGivenNames v4
  clear_value v4
  refine Keeps.ite ?_ ?_
  · assumption
  extract_lets +onlyGivenNames v5
  clear_value v5
  extract_lets +onlyGivenNames v6
  clear_value v6
  extract_lets +onlyGivenNames v7
  clear_value v7
  refine Keeps.foldl ?_ fun t8 x9 k10 => ?_
  · assumption
  refine Keeps.ite ?_ ?_
  · exact keeps_setOffset ‹_›
  assumption

theorem keeps_markRefresh {s0 s : State} (hk : Keeps s0 s) {k : Nat} :
    Keeps s0 (markRefresh k s) := by
  unfold markRefresh
  refine Keeps.ite ?_ ?_
  · assumption
  exact keeps_logSeg (keeps_setSeg ‹_›)

theorem keeps_lastErr {s0 s : State} (hk : Keeps s0 s) {n : Nat} {code : Nat} {op : Nat} {lun : Nat} :
    Keeps s0 (lastErr n code op lun s) := by
  unfold lastErr
  exact keeps_State_wr ‹_›

theorem keeps_stopSegments {s0 a2 : State} (hk : Keeps s0 a2) {a1 : List Nat} :
    Keeps s0 (stopSegments a1 a2) := by
  induction a1 generalizing a2
  · unfold stopSegments
    assumption
  · rename_i hd tl ih
    unfold stopSegments
    exact ih (keeps_stopSegment ‹_›)

theorem keeps_parkTarget {s0 s : State} (hk : Keeps s0 s) {n : Nat} {t : Nat} :
    Keeps s0 (parkTarget n t s) := by
  unfold parkTarget
  extract_lets +onlyGivenNames v0
  clear_value v0
  extract_lets +onlyGivenNames v1
  refine cut (P := Keeps s0 v1) ?_ fun k2 => ?_
  · unfold v1
    exact keeps_setChan ‹_›
  clear_value v1
  extract_lets +onlyGivenNames v3
  refine cut (P := Keeps s0 v3) ?_ fun k4 => ?_
  · unfold v3
    exact keeps_degrade ‹_›
  clear_value v3
  extract_lets +onlyGivenNames v5
  refine cut (P := Keeps s0 v5) ?_ fun k6 => ?_
  · unfold v5
    exact keeps_setSticky (keeps_State_raise (keeps_State_raise ‹_›))
  clear_value v5
  extract_lets +onlyGivenNames v7
  clear_value v7
  exact keeps_requeueReads (keeps_markRebuild (keeps_stopSegments (keeps_loseOps ‹_›)))

theorem keeps_opTimeout {s0 s : State} (hk : Keeps s0 s) {n : Nat} {j : Nat} {completed : Bool} :
    Keeps s0 (opTimeout n j completed s) := by
  unfold opTimeout
  split
  · rename_i x0 e1
    assumption
  rename_i x2 x3 e4
  refine Keeps.ite ?_ ?_
  · assumption
  extract_lets +onlyGivenNames v5
  refine cut (P := Keeps s0 v5) ?_ fun k6 => ?_
  · unfold v5
    exact keeps_State_raise (keeps_State_addSat ‹_›)
  clear_value v5
  exact keeps_lastErr (keeps_parkTarget ‹_›)

theorem keeps_probe {s0 s : State} (hk : Keeps s0 s) {n : Nat} {j : Nat} {decoded : Bool} {mism : List Nat} :
    Keeps s0 (probe n j decoded mism s) := by
  unfold probe
  extract_lets +onlyGivenNames v0
  clear_value v0
  refine Keeps.ite ?_ ?_
  · assumption
  extract_lets +onlyGivenNames v1
  clear_value v1
  extract_lets +onlyGivenNames v2
  clear_value v2
  extract_lets +onlyGivenNames v3
  refine cut (P := Keeps s0 v3) ?_ fun k4 => ?_
  · unfold v3
    exact keeps_setLun ‹_›
  clear_value v3
  refine Keeps.ite ?_ ?_
  · assumption
  exact keeps_setOffset ‹_›

theorem keeps_parkChannel {s0 s : State} (hk : Keeps s0 s) {n : Nat} :
    Keeps s0 (parkChannel n s) := by
  unfold parkChannel
  extract_lets +onlyGivenNames v0
  clear_value v0
  extract_lets +onlyGivenNames v1
  refine cut (P := Keeps s0 v1) ?_ fun k2 => ?_
  · unfold v1
    exact keeps_setChan ‹_›
  clear_value v1
  extract_lets +onlyGivenNames v3
  refine cut (P := Keeps s0 v3) ?_ fun k4 => ?_
  · unfold v3
    exact keeps_setSticky (keeps_setSticky ‹_›)
  clear_value v3
  extract_lets +onlyGivenNames v5
  refine cut (P := Keeps s0 v5) ?_ fun k6 => ?_
  · unfold v5
    exact keeps_State_raise (keeps_State_raise ‹_›)
  clear_value v5
  extract_lets +onlyGivenNames v7
  refine cut (P := Keeps s0 v7) ?_ fun k8 => ?_
  · unfold v7
    split
    · rename_i x9 x10 x11
      exact keeps_lastErr ‹_›
    rename_i x12
    assumption
  clear_value v7
  extract_lets +onlyGivenNames v13
  clear_value v13
  exact keeps_requeueReads (keeps_markRebuild (keeps_stopSegments (keeps_loseOps ‹_›)))

theorem keeps_rbStuck {s0 s : State} (hk : Keeps s0 s) {n : Nat} :
    Keeps s0 (rbStuck n s) := by
  unfold rbStuck
  refine Keeps.ite ?_ ?_
  · assumption
  exact keeps_parkChannel ‹_›

theorem keeps_opOverdue {s0 s : State} (hk : Keeps s0 s) {n : Nat} {j : Nat} :
    Keeps s0 (opOverdue n j s) := by
  unfold opOverdue
  refine Keeps.ite ?_ ?_
  · extract_lets +onlyGivenNames v0
    refine cut (P := Keeps s0 v0) ?_ fun k1 => ?_
    · unfold v0
      exact keeps_setChan ‹_›
    clear_value v0
    extract_lets +onlyGivenNames v2
    refine cut (P := Keeps s0 v2) ?_ fun k3 => ?_
    · unfold v2
      exact keeps_State_raise ‹_›
    clear_value v2
    exact keeps_stopSegments ‹_›
  assumption

end Sys2Proof.Laws
end

