-- ==== Sys2Proof/Laws/KeepsPlace.lean ====
section
/-!
SUPPORT. What every operation of Machine/Place.lean keeps (`Keeps`, Laws/Keeps.lean).
-/

namespace Sys2Proof.Laws

open Sys2Proof.Machine

theorem keeps_closeLedger {s0 s : State} (hk : Keeps s0 s) {n : Nat} :
    Keeps s0 (closeLedger n s).2 := by
  unfold closeLedger
  extract_lets +onlyGivenNames v0
  clear_value v0
  split
  rename_i x1 x2 x3 e4
  exact Keeps.pair (keeps_setNs ‹_›)

theorem keeps_setStripe {s0 s : State} (hk : Keeps s0 s) {jsn : Nat} {f : JStripe → JStripe} :
    Keeps s0 (setStripe jsn f s) := by
  unfold setStripe
  exact keeps_State_onJrn ‹_›

theorem keeps_nextSlot {s0 s : State} (hk : Keeps s0 s) {n : Nat} :
    Keeps s0 (nextSlot n s).2 := by
  unfold nextSlot
  split
  · rename_i x0 x1 x2 e3
    exact Keeps.pair (keeps_setNs ‹_›)
  rename_i x4 e5
  refine Keeps.iteSnd ?_ ?_
  · split
    rename_i x6 x7 x8 e9
    refine cut (P := Keeps s0 x8) ?_ fun k10 => ?_
    · exact Keeps.snd e9 (keeps_closeLedger ‹_›)
    exact Keeps.pair ‹_›
  split
  · rename_i x11 e12
    exact Keeps.pair ‹_›
  rename_i x13 x14 e15
  split
  · rename_i x16 x17 x18 x19 e20 e21
    extract_lets +onlyGivenNames v22
    refine cut (P := Keeps s0 v22) ?_ fun k23 => ?_
    · unfold v22
      exact keeps_setStripe ‹_›
    clear_value v22
    extract_lets +onlyGivenNames v24
    refine cut (P := Keeps s0 v24) ?_ fun k25 => ?_
    · unfold v24
      refine Keeps.ite ?_ ?_
      · exact keeps_setNs ‹_›
      assumption
    clear_value v24
    exact Keeps.pair ‹_›
  rename_i x26 x27 e28
  exact Keeps.pair ‹_›

theorem keeps_updateFull {s0 s : State} (hk : Keeps s0 s) :
    Keeps s0 (updateFull s) := by
  unfold updateFull
  refine Keeps.foldl ?_ fun t0 x1 k2 => ?_
  · assumption
  refine Keeps.ite ?_ ?_
  · exact keeps_setNs ‹_›
  assumption

theorem keeps_freeSeg {s0 s : State} (hk : Keeps s0 s) {k : Nat} :
    Keeps s0 (freeSeg k s) := by
  unfold freeSeg
  refine Keeps.ite ?_ ?_
  · extract_lets +onlyGivenNames v0
    clear_value v0
    extract_lets +onlyGivenNames v1
    refine cut (P := Keeps s0 v1) ?_ fun k2 => ?_
    · unfold v1
      exact keeps_setSeg ‹_›
    clear_value v1
    extract_lets +onlyGivenNames v3
    refine cut (P := Keeps s0 v3) ?_ fun k4 => ?_
    · unfold v3
      exact keeps_setNs ‹_›
    clear_value v3
    extract_lets +onlyGivenNames v5
    refine cut (P := Keeps s0 v5) ?_ fun k6 => ?_
    · unfold v5
      exact keeps_State_onMedia ‹_›
    clear_value v5
    extract_lets +onlyGivenNames v7
    refine cut (P := Keeps s0 v7) ?_ fun k8 => ?_
    · unfold v7
      exact keeps_State_onJrn ‹_›
    clear_value v7
    exact keeps_updateFull (keeps_logSeg ‹_›)
  assumption

theorem keeps_freeList {s0 a2 : State} (hk : Keeps s0 a2) {a1 : List Nat} :
    Keeps s0 (freeList a1 a2) := by
  induction a1 generalizing a2
  · unfold freeList
    assumption
  · rename_i hd tl ih
    unfold freeList
    exact ih (keeps_freeSeg ‹_›)

theorem keeps_freeDead {s0 s : State} (hk : Keeps s0 s) :
    Keeps s0 (freeDead s) := by
  unfold freeDead
  exact keeps_freeList ‹_›

theorem keeps_holdRelease {s0 s : State} (hk : Keeps s0 s) {n : Nat} {fromU : Nat} {toU : Nat} :
    Keeps s0 (holdRelease n fromU toU s).2 := by
  unfold holdRelease
  refine Keeps.iteSnd ?_ ?_
  · exact Keeps.pair ‹_›
  refine Keeps.iteSnd ?_ ?_
  · exact Keeps.pair ‹_›
  extract_lets +onlyGivenNames v0
  refine cut (P := Keeps s0 v0) ?_ fun k1 => ?_
  · unfold v0
    exact keeps_setNs ‹_›
  clear_value v0
  exact Keeps.pair (keeps_freeDead (keeps_logAppend ‹_›))

theorem keeps_nsPurge {s0 s : State} (hk : Keeps s0 s) {n : Nat} :
    Keeps s0 (nsPurge n s).2 := by
  unfold nsPurge
  refine Keeps.iteSnd ?_ ?_
  · exact Keeps.pair ‹_›
  refine Keeps.iteSnd ?_ ?_
  · exact Keeps.pair ‹_›
  extract_lets +onlyGivenNames v0
  refine cut (P := Keeps s0 v0) ?_ fun k1 => ?_
  · unfold v0
    exact keeps_setNs ‹_›
  clear_value v0
  exact Keeps.pair (keeps_freeDead (keeps_logAppend ‹_›))

theorem keeps_openSegment {s0 s : State} (hk : Keeps s0 s) {k : Nat} :
    Keeps s0 (startSegment k s) := by
  unfold startSegment
  extract_lets +onlyGivenNames v0
  refine cut (P := Keeps s0 v0) ?_ fun k1 => ?_
  · unfold v0
    exact keeps_logSeg (keeps_setSeg ‹_›)
  clear_value v0
  extract_lets +onlyGivenNames v2
  clear_value v2
  refine Keeps.foldl ?_ fun t3 x4 k5 => ?_
  · assumption
  exact keeps_refetchTwill ‹_›

theorem keeps_currentSeg {s0 s : State} (hk : Keeps s0 s) {n : Nat} :
    Keeps s0 (currentSeg n s).2 := by
  unfold currentSeg
  split
  · rename_i x0 x1 e2
    exact Keeps.pair ‹_›
  rename_i x3 e4
  split
  · rename_i x5 x6 e7
    refine Keeps.iteSnd ?_ ?_
    · exact Keeps.pair (keeps_openSegment (keeps_setNs ‹_›))
    exact Keeps.pair ‹_›
  rename_i x8 e9
  exact Keeps.pair ‹_›

theorem keeps_fill {s0 a3 : State} (hk : Keeps s0 a3) {n : Nat} {a2 : Nat} :
    Keeps s0 (fill n a2 a3) := by
  induction a2 generalizing a3
  · unfold fill
    assumption
  · rename_i n ih
    unfold fill
    split
    · rename_i x0 x1 e2
      refine cut (P := Keeps s0 x1) ?_ fun k3 => ?_
      · exact Keeps.snd e2 (keeps_currentSeg ‹_›)
      assumption
    rename_i x4 x5 x6 e7
    refine cut (P := Keeps s0 x6) ?_ fun k8 => ?_
    · exact Keeps.snd e7 (keeps_currentSeg ‹_›)
    extract_lets +onlyGivenNames v9
    clear_value v9
    refine Keeps.ite ?_ ?_
    · assumption
    split
    · rename_i x10 x11 e12
      refine cut (P := Keeps s0 x11) ?_ fun k13 => ?_
      · exact Keeps.snd e12 (keeps_nextSlot ‹_›)
      assumption
    rename_i x14 x15 x16 e17
    refine cut (P := Keeps s0 x16) ?_ fun k18 => ?_
    · exact Keeps.snd e17 (keeps_nextSlot ‹_›)
    exact ih (keeps_setNs ‹_›)

theorem keeps_place {s0 s : State} (hk : Keeps s0 s) {n : Nat} :
    Keeps s0 (place n s) := by
  unfold place
  refine Keeps.ite ?_ ?_
  · assumption
  exact keeps_fill ‹_›

theorem keeps_readJobEnd {s0 s : State} (hk : Keeps s0 s) {id : Nat} :
    Keeps s0 (readJobEnd id s) := by
  unfold readJobEnd
  exact keeps_freeDead (keeps_State_onMedia ‹_›)

theorem keeps_addLedger {s0 s : State} (hk : Keeps s0 s) {n : Nat} {f : Superpage} :
    Keeps s0 (addLedger n f s).2 := by
  unfold addLedger
  refine Keeps.iteSnd ?_ ?_
  · split
    rename_i x0 x1 x2 e3
    refine cut (P := Keeps s0 x2) ?_ fun k4 => ?_
    · exact Keeps.snd e3 (keeps_closeLedger ‹_›)
    exact Keeps.pair ‹_›
  exact Keeps.pair ‹_›

theorem keeps_queuePrograms {s0 a4 : State} (hk : Keeps s0 a4) {k : Nat} {p : Nat} {a3 : List Nat} :
    Keeps s0 (queuePrograms k p a3 a4) := by
  induction a3 generalizing a4
  · unfold queuePrograms
    assumption
  · rename_i hd tl ih
    unfold queuePrograms
    extract_lets +onlyGivenNames v0
    clear_value v0
    exact ih (keeps_setChan ‹_›)

theorem keeps_formPage {s0 s : State} (hk : Keeps s0 s) {f : Superpage} :
    Keeps s0 (formPage f s) := by
  unfold formPage
  extract_lets +onlyGivenNames v0
  clear_value v0
  extract_lets +onlyGivenNames v1
  clear_value v1
  extract_lets +onlyGivenNames v2
  clear_value v2
  extract_lets +onlyGivenNames v3
  refine cut (P := Keeps s0 v3) ?_ fun k4 => ?_
  · unfold v3
    exact keeps_State_onMedia ‹_›
  clear_value v3
  extract_lets +onlyGivenNames v5
  refine cut (P := Keeps s0 v5) ?_ fun k6 => ?_
  · unfold v5
    exact keeps_queuePrograms ‹_›
  clear_value v5
  extract_lets +onlyGivenNames v7
  refine cut (P := Keeps s0 v7) ?_ fun k8 => ?_
  · unfold v7
    exact keeps_setSeg ‹_›
  clear_value v7
  refine Keeps.ite ?_ ?_
  · extract_lets +onlyGivenNames v9
    clear_value v9
    extract_lets +onlyGivenNames v10
    refine cut (P := Keeps s0 v10) ?_ fun k11 => ?_
    · unfold v10
      exact keeps_setNs ‹_›
    clear_value v10
    extract_lets +onlyGivenNames v12
    refine cut (P := Keeps s0 v12) ?_ fun k13 => ?_
    · unfold v12
      exact keeps_State_onJrn ‹_›
    clear_value v12
    exact keeps_logSeg (keeps_setSeg ‹_›)
  assumption

theorem keeps_padTo {s0 a5 : State} (hk : Keeps s0 a5) {n : Nat} {k : Nat} {a3 : Nat} {a4 : Nat} :
    Keeps s0 (padTo n k a3 a4 a5) := by
  induction a3 generalizing a4 a5
  · unfold padTo
    assumption
  · rename_i n ih
    unfold padTo
    extract_lets +onlyGivenNames v0
    clear_value v0
    refine Keeps.ite ?_ ?_
    · extract_lets +onlyGivenNames v1
      clear_value v1
      split
      rename_i x2 x3 x4 e5
      refine cut (P := Keeps s0 x4) ?_ fun k6 => ?_
      · exact Keeps.snd e5 (keeps_addLedger ‹_›)
      extract_lets +onlyGivenNames v7
      refine cut (P := Keeps s0 v7) ?_ fun k8 => ?_
      · unfold v7
        exact keeps_setNs ‹_›
      clear_value v7
      exact ih (keeps_formPage ‹_›)
    assumption

theorem keeps_pairmax {s0 s : State} (hk : Keeps s0 s) {k : Nat} :
    Keeps s0 (pairmax k s) := by
  unfold pairmax
  extract_lets +onlyGivenNames v0
  clear_value v0
  split
  · rename_i x1 x2 e3
    refine Keeps.ite ?_ ?_
    · assumption
    exact keeps_padTo ‹_›
  rename_i x4 e5
  assumption

theorem keeps_mapRun {s0 s : State} (hk : Keeps s0 s) {n : Nat} {k : Nat} {base : Nat} {r : Nat × Nat × Nat × Option (Nat × Nat)} :
    Keeps s0 (mapRun n k base r s) := by
  unfold mapRun
  split
  rename_i x0 x1 x2 x3 x4
  extract_lets +onlyGivenNames v5
  clear_value v5
  split
  rename_i x6 x7 x8 e9
  extract_lets +onlyGivenNames v10
  refine cut (P := Keeps s0 v10) ?_ fun k11 => ?_
  · unfold v10
    exact keeps_logAppend ‹_›
  clear_value v10
  exact keeps_setNs ‹_›

theorem keeps_setJob {s0 s : State} (hk : Keeps s0 s) {id : Nat} {f : ReadJob → ReadJob} :
    Keeps s0 (setJob id f s) := by
  unfold setJob
  exact keeps_State_onMedia ‹_›

theorem keeps_rdAbort {s0 s : State} (hk : Keeps s0 s) {id : Nat} {tie : Bool} :
    Keeps s0 (rdAbort id tie s) := by
  unfold rdAbort
  extract_lets +onlyGivenNames v0
  split
  · rename_i x1 e2
    unfold v0
    exact keeps_State_onMedia ‹_›
  rename_i x3 x4 e5
  refine Keeps.ite ?_ ?_
  · unfold v0
    exact keeps_State_onMedia (keeps_setJob ‹_›)
  extract_lets +onlyGivenNames v6
  clear_value v6
  extract_lets +onlyGivenNames v7
  refine cut (P := Keeps s0 v7) ?_ fun k8 => ?_
  · unfold v7
    exact keeps_State_onMedia ‹_›
  clear_value v7
  unfold v0
  exact keeps_State_onMedia (keeps_setJob ‹_›)

theorem keeps_queueRead {s0 s : State} (hk : Keeps s0 s) {k : Nat} {sl : Nat} {what : ReadFor} :
    Keeps s0 (queueRead k sl what s) := by
  unfold queueRead
  extract_lets +onlyGivenNames v0
  clear_value v0
  extract_lets +onlyGivenNames v1
  clear_value v1
  extract_lets +onlyGivenNames v2
  clear_value v2
  extract_lets +onlyGivenNames v3
  clear_value v3
  refine Keeps.ite ?_ ?_
  · exact keeps_setChan ‹_›
  exact keeps_requeueReads ‹_›

theorem keeps_startReadJob {s0 s : State} (hk : Keeps s0 s) {id : Nat} {units : List (Nat × Nat)} :
    Keeps s0 (startReadJob id units s) := by
  unfold startReadJob
  extract_lets +onlyGivenNames v0
  clear_value v0
  extract_lets +onlyGivenNames v1
  clear_value v1
  extract_lets +onlyGivenNames v2
  refine cut (P := Keeps s0 v2) ?_ fun k3 => ?_
  · unfold v2
    exact keeps_State_onMedia ‹_›
  clear_value v2
  refine Keeps.foldl ?_ fun t4 x5 k6 => ?_
  · assumption
  exact keeps_queueRead ‹_›

theorem keeps_retireLun {s0 s : State} (hk : Keeps s0 s) {n : Nat} {j : Nat} :
    Keeps s0 (retireLun n j s) := by
  unfold retireLun
  refine Keeps.ite ?_ ?_
  · assumption
  extract_lets +onlyGivenNames v0
  refine cut (P := Keeps s0 v0) ?_ fun k1 => ?_
  · unfold v0
    exact keeps_degrade (keeps_setLun ‹_›)
  clear_value v0
  extract_lets +onlyGivenNames v2
  refine cut (P := Keeps s0 v2) ?_ fun k3 => ?_
  · unfold v2
    exact keeps_setSticky (keeps_State_raise ‹_›)
  clear_value v2
  exact keeps_markRebuild ‹_›

theorem keeps_storeUnit {s0 s : State} (hk : Keeps s0 s) {u : SlotUse} :
    Keeps s0 (storeUnit u s) := by
  unfold storeUnit
  split
  · rename_i x0 x1 x2 x3 x4
    split
    · rename_i x5 x6 e7
      extract_lets +onlyGivenNames v8
      refine cut (P := Keeps s0 v8) ?_ fun k9 => ?_
      · unfold v8
        exact keeps_setNs ‹_›
      clear_value v8
      exact keeps_setStripe ‹_›
    rename_i x10 e11
    assumption
  · rename_i x12 x13 x14 x15
    extract_lets +onlyGivenNames v16
    refine cut (P := Keeps s0 v16) ?_ fun k17 => ?_
    · unfold v16
      exact keeps_setNs ‹_›
    clear_value v16
    exact keeps_State_onJrn ‹_›
  · rename_i x18
    exact keeps_State_onJrn ‹_›
  rename_i x19 e20 e21 e22
  assumption

theorem keeps_freeTiles {s0 s : State} (hk : Keeps s0 s) {l : List Nat} :
    Keeps s0 (freeTiles l s) := by
  unfold freeTiles
  extract_lets +onlyGivenNames v0
  refine cut (P := Keeps s0 v0) ?_ fun k1 => ?_
  · unfold v0
    refine Keeps.foldl ?_ fun t2 x3 k4 => ?_
    · assumption
    exact keeps_logAppend ‹_›
  clear_value v0
  exact keeps_State_onJrn ‹_›

theorem keeps_dropStripes {s0 s : State} (hk : Keeps s0 s) :
    Keeps s0 (dropStripes s) := by
  unfold dropStripes
  exact keeps_State_onJrn ‹_›

theorem keeps_mapPage {s0 s : State} (hk : Keeps s0 s) {x : Superpage} :
    Keeps s0 (mapPage x s) := by
  unfold mapPage
  extract_lets +onlyGivenNames v0
  clear_value v0
  extract_lets +onlyGivenNames v1
  clear_value v1
  extract_lets +onlyGivenNames v2
  clear_value v2
  extract_lets +onlyGivenNames v3
  refine cut (P := Keeps s0 v3) ?_ fun k4 => ?_
  · unfold v3
    refine Keeps.foldl ?_ fun t5 x6 k7 => ?_
    · assumption
    exact keeps_mapRun ‹_›
  clear_value v3
  extract_lets +onlyGivenNames v8
  clear_value v8
  extract_lets +onlyGivenNames v9
  refine cut (P := Keeps s0 v9) ?_ fun k10 => ?_
  · unfold v9
    refine Keeps.foldl ?_ fun t11 x12 k13 => ?_
    · assumption
    exact keeps_storeUnit ‹_›
  clear_value v9
  extract_lets +onlyGivenNames v14
  refine cut (P := Keeps s0 v14) ?_ fun k15 => ?_
  · unfold v14
    exact keeps_State_onMedia ‹_›
  clear_value v14
  extract_lets +onlyGivenNames v16
  refine cut (P := Keeps s0 v16) ?_ fun k17 => ?_
  · unfold v16
    refine Keeps.ite ?_ ?_
    · assumption
    exact keeps_freeTiles ‹_›
  clear_value v16
  extract_lets +onlyGivenNames v18
  refine cut (P := Keeps s0 v18) ?_ fun k19 => ?_
  · unfold v18
    exact keeps_retryLoad (keeps_relax (keeps_dropStripes ‹_›))
  clear_value v18
  split
  · rename_i x20 x21 e22
    refine Keeps.ite ?_ ?_
    · exact keeps_State_raise (keeps_freeSeg ‹_›)
    assumption
  rename_i x23 e24
  assumption

theorem keeps_formFilling {s0 s : State} (hk : Keeps s0 s) {n : Nat} {f : Superpage} :
    Keeps s0 (formFilling n f s) := by
  unfold formFilling
  exact keeps_formPage (keeps_setNs ‹_›)

theorem keeps_superpageProgram {s0 s : State} (hk : Keeps s0 s) {n : Nat} :
    Keeps s0 (superpageProgram n s) := by
  unfold superpageProgram
  split
  · rename_i x0 x1 e2
    refine Keeps.ite ?_ ?_
    · exact keeps_place (keeps_formFilling ‹_›)
    assumption
  rename_i x3 e4
  assumption

theorem keeps_markCold {s0 s : State} (hk : Keeps s0 s) :
    Keeps s0 (markCold s) := by
  unfold markCold
  extract_lets +onlyGivenNames v0
  clear_value v0
  extract_lets +onlyGivenNames v1
  clear_value v1
  extract_lets +onlyGivenNames v2
  clear_value v2
  extract_lets +onlyGivenNames v3
  clear_value v3
  refine Keeps.ite ?_ ?_
  · assumption
  split
  · rename_i x4 x5 x6 e7
    exact keeps_logSeg (keeps_setSeg ‹_›)
  rename_i x8 e9
  assumption

theorem keeps_gcDest {s0 s : State} (hk : Keeps s0 s) {n : Nat} :
    Keeps s0 (gcDest n s).2 := by
  unfold gcDest
  split
  · rename_i x0 x1 e2
    refine Keeps.iteSnd ?_ ?_
    · exact Keeps.pair ‹_›
    exact Keeps.pair ‹_›
  rename_i x3 e4
  split
  · rename_i x5 x6 e7
    extract_lets +onlyGivenNames v8
    refine cut (P := Keeps s0 v8) ?_ fun k9 => ?_
    · unfold v8
      exact keeps_logSeg (keeps_setSeg ‹_›)
    clear_value v8
    exact Keeps.pair (keeps_State_onJrn ‹_›)
  rename_i x10 e11
  exact Keeps.pair ‹_›

theorem keeps_gcBatch {s0 s : State} (hk : Keeps s0 s) {n : Nat} {src : Nat} {dst : Nat} :
    Keeps s0 (gcBatch n src dst s) := by
  unfold gcBatch
  extract_lets +onlyGivenNames v0
  clear_value v0
  extract_lets +onlyGivenNames v1
  clear_value v1
  extract_lets +onlyGivenNames v2
  refine cut (P := Keeps s0 v2) ?_ fun k3 => ?_
  · unfold v2
    exact keeps_State_onJrn ‹_›
  clear_value v2
  refine Keeps.foldl ?_ fun t4 x5 k6 => ?_
  · assumption
  exact keeps_queueRead ‹_›

theorem keeps_gcCopy {s0 s : State} (hk : Keeps s0 s) :
    Keeps s0 (gcCopy s) := by
  unfold gcCopy
  refine Keeps.ite ?_ ?_
  · assumption
  extract_lets +onlyGivenNames v0
  refine cut (P := Keeps s0 v0) ?_ fun k1 => ?_
  · unfold v0
    exact keeps_markCold ‹_›
  clear_value v0
  split
  · rename_i x2 e3
    exact keeps_State_onJrn ‹_›
  rename_i x4 x5 e6
  extract_lets +onlyGivenNames v7
  refine cut (P := Keeps s0 v7) ?_ fun k8 => ?_
  · unfold v7
    refine Keeps.ite ?_ ?_
    · assumption
    exact keeps_logSeg (keeps_setSeg ‹_›)
  clear_value v7
  extract_lets +onlyGivenNames v9
  clear_value v9
  extract_lets +onlyGivenNames v10
  refine cut (P := Keeps s0 v10) ?_ fun k11 => ?_
  · unfold v10
    exact keeps_State_onJrn ‹_›
  clear_value v10
  refine Keeps.ite ?_ ?_
  · exact keeps_freeSeg ‹_›
  split
  · rename_i x12 x13 e14
    refine cut (P := Keeps s0 x13) ?_ fun k15 => ?_
    · exact Keeps.snd e14 (keeps_gcDest ‹_›)
    assumption
  rename_i x16 x17 x18 e19
  refine cut (P := Keeps s0 x18) ?_ fun k20 => ?_
  · exact Keeps.snd e19 (keeps_gcDest ‹_›)
  exact keeps_gcBatch ‹_›

theorem keeps_settle {s0 s : State} (hk : Keeps s0 s) {k : Nat} :
    Keeps s0 (settle k s) := by
  unfold settle
  refine Keeps.ite ?_ ?_
  · assumption
  refine Keeps.foldl ?_ fun t0 x1 k2 => ?_
  · assumption
  refine Keeps.ite ?_ ?_
  · refine Keeps.ite ?_ ?_
    · exact keeps_mapPage ‹_›
    exact keeps_abandonPage ‹_›
  assumption

theorem keeps_pagePassed {s0 s : State} (hk : Keeps s0 s) {n : Nat} {o : NandOp} {rb : Option Nat} :
    Keeps s0 (pagePassed n o rb s) := by
  unfold pagePassed
  extract_lets +onlyGivenNames v0
  clear_value v0
  extract_lets +onlyGivenNames v1
  refine cut (P := Keeps s0 v1) ?_ fun k2 => ?_
  · unfold v1
    exact keeps_State_onMedia ‹_›
  clear_value v1
  extract_lets +onlyGivenNames v3
  refine cut (P := Keeps s0 v3) ?_ fun k4 => ?_
  · unfold v3
    exact keeps_State_add64 ‹_›
  clear_value v3
  refine keeps_settle ?_
  refine Keeps.ite ?_ ?_
  · exact keeps_abandonPage ‹_›
  assumption

theorem keeps_memberBlock {s0 s : State} (hk : Keeps s0 s) {k : Nat} {n : Nat} :
    Keeps s0 (memberBlock k n s).2 := by
  unfold memberBlock
  extract_lets +onlyGivenNames v0
  clear_value v0
  extract_lets +onlyGivenNames v1
  clear_value v1
  refine Keeps.iteSnd ?_ ?_
  · exact Keeps.pair ‹_›
  split
  · rename_i x2 x3 x4 e5
    exact Keeps.pair (keeps_setLun ‹_›)
  rename_i x6 e7
  exact Keeps.pair (keeps_retireLun ‹_›)

theorem keeps_reclaim {s0 s : State} (hk : Keeps s0 s) {n : Nat} :
    Keeps s0 (reclaim n s) := by
  unfold reclaim
  split
  · rename_i x0 e1
    assumption
  rename_i x2 x3 e4
  extract_lets +onlyGivenNames v5
  clear_value v5
  extract_lets +onlyGivenNames v6
  refine cut (P := Keeps s0 v6) ?_ fun k7 => ?_
  · unfold v6
    exact keeps_setNs ‹_›
  clear_value v6
  exact keeps_freeDead (keeps_logAppend ‹_›)

theorem keeps_readEffects {s0 s : State} (hk : Keeps s0 s) {n : Nat} {o : NandOp} {hard : Option (Nat × Nat)} {retry : Option (Nat × Nat)} {soft : Option Nat} {rung : Nat} :
    Keeps s0 (readEffects n o hard retry soft rung s) := by
  unfold readEffects
  extract_lets +onlyGivenNames v0
  refine cut (P := Keeps s0 v0) ?_ fun k1 => ?_
  · unfold v0
    exact keeps_State_add64 ‹_›
  clear_value v0
  extract_lets +onlyGivenNames v2
  clear_value v2
  extract_lets +onlyGivenNames v3
  refine cut (P := Keeps s0 v3) ?_ fun k4 => ?_
  · unfold v3
    exact keeps_State_add64 ‹_›
  clear_value v3
  extract_lets +onlyGivenNames v5
  refine cut (P := Keeps s0 v5) ?_ fun k6 => ?_
  · unfold v5
    refine Keeps.ite ?_ ?_
    · exact keeps_State_addSat ‹_›
    refine Keeps.ite ?_ ?_
    · exact keeps_State_addSat ‹_›
    refine Keeps.ite ?_ ?_
    · exact keeps_State_addSat ‹_›
    refine Keeps.ite ?_ ?_
    · exact keeps_State_addSat ‹_›
    assumption
  clear_value v5
  extract_lets +onlyGivenNames v7
  refine cut (P := Keeps s0 v7) ?_ fun k8 => ?_
  · unfold v7
    split
    · rename_i x9 x10 x11 x12
      exact keeps_track ‹_›
    rename_i x13 x14 e15
    assumption
  clear_value v7
  extract_lets +onlyGivenNames v16
  refine cut (P := Keeps s0 v16) ?_ fun k17 => ?_
  · unfold v16
    split
    · rename_i x18 x19 x20 x21
      exact keeps_setLun ‹_›
    rename_i x22 x23 e24
    assumption
  clear_value v16
  extract_lets +onlyGivenNames v25
  clear_value v25
  extract_lets +onlyGivenNames v26
  clear_value v26
  extract_lets +onlyGivenNames v27
  refine cut (P := Keeps s0 v27) ?_ fun k28 => ?_
  · unfold v27
    exact keeps_setLun ‹_›
  clear_value v27
  refine Keeps.ite ?_ ?_
  · exact keeps_markRefresh ‹_›
  assumption

theorem keeps_growBad {s0 s : State} (hk : Keeps s0 s) {n : Nat} {o : NandOp} {b : Nat} {code : Nat} :
    Keeps s0 (growBad n o b code s) := by
  unfold growBad
  extract_lets +onlyGivenNames v0
  refine cut (P := Keeps s0 v0) ?_ fun k1 => ?_
  · unfold v0
    exact keeps_setLun ‹_›
  clear_value v0
  extract_lets +onlyGivenNames v2
  refine cut (P := Keeps s0 v2) ?_ fun k3 => ?_
  · unfold v2
    exact keeps_logAppend ‹_›
  clear_value v2
  extract_lets +onlyGivenNames v4
  refine cut (P := Keeps s0 v4) ?_ fun k5 => ?_
  · unfold v4
    exact keeps_State_raise (keeps_State_addSat ‹_›)
  clear_value v4
  exact keeps_lastErr ‹_›

theorem keeps_eraseFail {s0 s : State} (hk : Keeps s0 s) {n : Nat} {o : NandOp} :
    Keeps s0 (eraseFail n o s) := by
  unfold eraseFail
  extract_lets +onlyGivenNames v0
  refine cut (P := Keeps s0 v0) ?_ fun k1 => ?_
  · unfold v0
    exact keeps_growBad ‹_›
  clear_value v0
  split
  · rename_i x2 x3 x4 e5
    extract_lets +onlyGivenNames v6
    refine cut (P := Keeps s0 v6) ?_ fun k7 => ?_
    · unfold v6
      exact keeps_setLun ‹_›
    clear_value v6
    extract_lets +onlyGivenNames v8
    refine cut (P := Keeps s0 v8) ?_ fun k9 => ?_
    · unfold v8
      exact keeps_setSeg ‹_›
    clear_value v8
    exact keeps_setChan ‹_›
  rename_i x10 e11
  extract_lets +onlyGivenNames v12
  refine cut (P := Keeps s0 v12) ?_ fun k13 => ?_
  · unfold v12
    exact keeps_setSeg ‹_›
  clear_value v12
  exact keeps_retireLun ‹_›

theorem keeps_nandIssue {s0 s : State} (hk : Keeps s0 s) {n : Nat} {rbHigh : Bool} :
    Keeps s0 (nandIssue n rbHigh s) := by
  unfold nandIssue
  extract_lets +onlyGivenNames v0
  refine cut (P := Keeps s0 v0) ?_ fun k1 => ?_
  · unfold v0
    exact keeps_setChan ‹_›
  clear_value v0
  extract_lets +onlyGivenNames v2
  clear_value v2
  refine Keeps.ite ?_ ?_
  · assumption
  refine Keeps.ite ?_ ?_
  · refine Keeps.ite ?_ ?_
    · exact keeps_setChan ‹_›
    assumption
  extract_lets +onlyGivenNames v3
  clear_value v3
  split
  · rename_i x4 e5
    assumption
  rename_i x6 x7 e8
  extract_lets +onlyGivenNames v9
  clear_value v9
  extract_lets +onlyGivenNames v10
  refine cut (P := Keeps s0 v10) ?_ fun k11 => ?_
  · unfold v10
    exact keeps_setLun ‹_›
  clear_value v10
  exact keeps_setChan ‹_›

theorem keeps_queueErases {s0 a4 : State} (hk : Keeps s0 a4) {k : Nat} {a2 : List Nat} {a3 : List (Nat × Nat)} :
    Keeps s0 (queueErases k a2 a3 a4).2 := by
  induction a2 generalizing a3 a4
  · unfold queueErases
    exact Keeps.pair ‹_›
  · rename_i hd tl ih
    unfold queueErases
    split
    · rename_i x0 x1 e2
      refine cut (P := Keeps s0 x1) ?_ fun k3 => ?_
      · exact Keeps.snd e2 (keeps_memberBlock ‹_›)
      exact ih ‹_›
    rename_i x4 x5 x6 e7
    refine cut (P := Keeps s0 x6) ?_ fun k8 => ?_
    · exact Keeps.snd e7 (keeps_memberBlock ‹_›)
    extract_lets +onlyGivenNames v9
    clear_value v9
    exact ih (keeps_setChan ‹_›)

theorem keeps_stripeEncrypt {s0 s : State} (hk : Keeps s0 s) {jsn : Nat} :
    Keeps s0 (stripeEncrypt jsn s) := by
  unfold stripeEncrypt
  split
  · rename_i x0 e1
    assumption
  rename_i x2 x3 e4
  extract_lets +onlyGivenNames v5
  split
  · rename_i x6 e7
    unfold v5
    exact keeps_State_onCtx ‹_›
  rename_i x8 x9 e10
  extract_lets +onlyGivenNames v11
  refine cut (P := Keeps s0 v11) ?_ fun k12 => ?_
  · unfold v11
    refine Keeps.ite ?_ ?_
    · exact keeps_setSticky (keeps_State_onCtx ‹_›)
    assumption
  clear_value v11
  extract_lets +onlyGivenNames v13
  refine cut (P := Keeps s0 v13) ?_ fun k14 => ?_
  · unfold v13
    exact keeps_setStripe ‹_›
  clear_value v13
  refine keeps_place ?_
  unfold v5
  exact keeps_State_onCtx ‹_›

theorem keeps_segEraseDone {s0 s : State} (hk : Keeps s0 s) {k : Nat} :
    Keeps s0 (segEraseDone k s) := by
  unfold segEraseDone
  extract_lets +onlyGivenNames v0
  clear_value v0
  refine Keeps.ite ?_ ?_
  · assumption
  refine Keeps.ite ?_ ?_
  · extract_lets +onlyGivenNames v1
    clear_value v1
    extract_lets +onlyGivenNames v2
    refine cut (P := Keeps s0 v2) ?_ fun k3 => ?_
    · unfold v2
      exact keeps_setNs ‹_›
    clear_value v2
    exact keeps_logSeg (keeps_setSeg ‹_›)
  exact keeps_logSeg (keeps_setSeg ‹_›)

theorem keeps_gcRead {s0 s : State} (hk : Keeps s0 s) {n : Nat} {u : Nat} {sl : Nat} {lost : Bool} :
    Keeps s0 (gcRead n u sl lost s) := by
  unfold gcRead
  extract_lets +onlyGivenNames v0
  clear_value v0
  extract_lets +onlyGivenNames v1
  clear_value v1
  extract_lets +onlyGivenNames v2
  clear_value v2
  extract_lets +onlyGivenNames v3
  refine cut (P := Keeps s0 v3) ?_ fun k4 => ?_
  · unfold v3
    exact keeps_State_onJrn ‹_›
  clear_value v3
  refine Keeps.ite ?_ ?_
  · assumption
  extract_lets +onlyGivenNames v5
  refine cut (P := Keeps s0 v5) ?_ fun k6 => ?_
  · unfold v5
    exact keeps_State_onJrn ‹_›
  clear_value v5
  split
  · rename_i x7 x8 e9
    refine Keeps.ite ?_ ?_
    · exact keeps_freeSeg ‹_›
    exact keeps_formPage ‹_›
  rename_i x10 e11
  assumption

theorem keeps_gapChannel {s0 s : State} (hk : Keeps s0 s) {ns : Nat} {u : Nat} :
    Keeps s0 (gapChannel ns u s) := by
  unfold gapChannel
  refine Keeps.foldl ?_ fun t0 x1 k2 => ?_
  · assumption
  refine Keeps.foldl ?_ fun t3 x4 k5 => ?_
  · assumption
  exact keeps_writeGap ‹_›

theorem keeps_loseUnit {s0 s : State} (hk : Keeps s0 s) {ns : Nat} {u : Nat} :
    Keeps s0 (loseUnit ns u s) := by
  unfold loseUnit
  refine Keeps.ite ?_ ?_
  · assumption
  extract_lets +onlyGivenNames v0
  refine cut (P := Keeps s0 v0) ?_ fun k1 => ?_
  · unfold v0
    exact keeps_logAppend (keeps_setNs ‹_›)
  clear_value v0
  extract_lets +onlyGivenNames v2
  refine cut (P := Keeps s0 v2) ?_ fun k3 => ?_
  · unfold v2
    exact keeps_State_onMedia ‹_›
  clear_value v2
  exact keeps_gapChannel (keeps_setSticky (keeps_State_raise ‹_›))

theorem keeps_jobUnit {s0 s : State} (hk : Keeps s0 s) {id : Nat} {rebuilt : Bool} {lost : Bool} :
    Keeps s0 (jobUnit id rebuilt lost s) := by
  unfold jobUnit
  extract_lets +onlyGivenNames v0
  refine cut (P := Keeps s0 v0) ?_ fun k1 => ?_
  · unfold v0
    exact keeps_setJob ‹_›
  clear_value v0
  refine Keeps.ite ?_ ?_
  · exact keeps_State_raise ‹_›
  assumption

theorem keeps_readServes {s0 s : State} (hk : Keeps s0 s) {o : NandOp} {rung : Nat} :
    Keeps s0 (readServes o rung s) := by
  unfold readServes
  split
  · rename_i x0 e1
    assumption
  · rename_i x2 x3 x4 x5 e6
    refine keeps_gcRead ?_
    refine Keeps.ite ?_ ?_
    · exact keeps_loseUnit ‹_›
    assumption
  rename_i x7 x8 x9 x10 e11
  refine keeps_jobUnit ?_
  refine Keeps.ite ?_ ?_
  · exact keeps_loseUnit ‹_›
  assumption

theorem keeps_setFull {s0 s : State} (hk : Keeps s0 s) {n : Nat} :
    Keeps s0 (setFull n s) := by
  unfold setFull
  refine Keeps.ite ?_ ?_
  · assumption
  exact keeps_setSticky (keeps_State_raise (keeps_setNs ‹_›))

theorem keeps_allocate {s0 s : State} (hk : Keeps s0 s) {n : Nat} {k : Nat} {gc : Bool} :
    Keeps s0 (allocate n k gc s) := by
  unfold allocate
  extract_lets +onlyGivenNames v0
  clear_value v0
  split
  rename_i x1 x2 x3 e4
  refine cut (P := Keeps s0 x3) ?_ fun k5 => ?_
  · exact Keeps.snd e4 (keeps_queueErases ‹_›)
  extract_lets +onlyGivenNames v6
  refine cut (P := Keeps s0 v6) ?_ fun k7 => ?_
  · unfold v6
    exact keeps_setSeg ‹_›
  clear_value v6
  extract_lets +onlyGivenNames v8
  refine cut (P := Keeps s0 v8) ?_ fun k9 => ?_
  · unfold v8
    refine Keeps.ite ?_ ?_
    · assumption
    exact keeps_setNs ‹_›
  clear_value v8
  exact keeps_logSeg ‹_›

theorem keeps_segAllocate {s0 s : State} (hk : Keeps s0 s) {n : Nat} {gc : Bool} :
    Keeps s0 (segAllocate n gc s) := by
  unfold segAllocate
  refine Keeps.ite ?_ ?_
  · assumption
  extract_lets +onlyGivenNames v0
  clear_value v0
  extract_lets +onlyGivenNames v1
  extract_lets +onlyGivenNames v2
  refine cut (P := Keeps s0 v2) ?_ fun k3 => ?_
  · unfold v2
    refine Keeps.ite ?_ ?_
    · exact keeps_reclaim ‹_›
    assumption
  clear_value v2
  extract_lets +onlyGivenNames v4
  refine cut (P := Keeps s0 v4) ?_ fun k5 => ?_
  · unfold v4
    refine Keeps.ite ?_ ?_
    · split
      · rename_i x6 x7 e8
        exact keeps_reclaim ‹_›
      rename_i x9 e10
      assumption
    assumption
  clear_value v4
  refine Keeps.ite ?_ ?_
  · exact keeps_setFull ‹_›
  extract_lets +onlyGivenNames v11
  refine cut (P := Keeps s0 v11) ?_ fun k12 => ?_
  · unfold v11
    refine Keeps.ite ?_ ?_
    · exact keeps_reclaim ‹_›
    assumption
  clear_value v11
  split
  · rename_i x13 x14 e15
    exact keeps_allocate ‹_›
  rename_i x16 e17
  refine Keeps.ite ?_ ?_
  · assumption
  exact keeps_setFull ‹_›

theorem keeps_nandDone {s0 s : State} (hk : Keeps s0 s) {n : Nat} {j : Nat} {res : NandRes} {badLane : Option Nat} :
    Keeps s0 (nandDone n j res badLane s) := by
  unfold nandDone
  split
  · rename_i x0 e1
    assumption
  rename_i x2 x3 e4
  extract_lets +onlyGivenNames v5
  clear_value v5
  extract_lets +onlyGivenNames v6
  refine cut (P := Keeps s0 v6) ?_ fun k7 => ?_
  · unfold v6
    exact keeps_setChan ‹_›
  clear_value v6
  extract_lets +onlyGivenNames v8
  refine cut (P := Keeps s0 v8) ?_ fun k9 => ?_
  · unfold v8
    split
    · rename_i x10 x11
      exact keeps_parkLdpc ‹_›
    rename_i x12
    assumption
  clear_value v8
  split
  · rename_i x13 x14 x15 e16
    exact keeps_pagePassed ‹_›
  · rename_i x17 x18 e19
    exact keeps_abandonPage (keeps_growBad ‹_›)
  · rename_i x20 x21 x22 e23
    extract_lets +onlyGivenNames v24
    refine cut (P := Keeps s0 v24) ?_ fun k25 => ?_
    · unfold v24
      exact keeps_setLun ‹_›
    clear_value v24
    exact keeps_State_add64 ‹_›
  · rename_i x26 x27 e28
    exact keeps_eraseFail ‹_›
  · rename_i x29 x30 x31 x32 x33 x34 e35
    extract_lets +onlyGivenNames v36
    clear_value v36
    exact keeps_readServes (keeps_readEffects ‹_›)
  · rename_i x37 x38 x39 e40 e41
    exact keeps_readServes (keeps_readEffects ‹_›)
  rename_i x42 x43 x44 e45 e46 e47 e48 e49 e50
  assumption

theorem keeps_scrubPatrol {s0 s : State} (hk : Keeps s0 s) :
    Keeps s0 (scrubPatrol s) := by
  unfold scrubPatrol
  extract_lets +onlyGivenNames v0
  clear_value v0
  refine Keeps.ite ?_ ?_
  · assumption
  extract_lets +onlyGivenNames v1
  refine cut (P := Keeps s0 v1) ?_ fun k2 => ?_
  · unfold v1
    exact keeps_State_onMedia ‹_›
  clear_value v1
  extract_lets +onlyGivenNames v3
  clear_value v3
  refine Keeps.foldl ?_ fun t4 x5 k6 => ?_
  · assumption
  extract_lets +onlyGivenNames v7
  clear_value v7
  extract_lets +onlyGivenNames v8
  refine cut (P := Keeps s0 v8) ?_ fun k9 => ?_
  · unfold v8
    refine Keeps.ite ?_ ?_
    · exact keeps_markRefresh ‹_›
    assumption
  clear_value v8
  exact keeps_queueRead ‹_›

theorem keeps_fillmax {s0 s : State} (hk : Keeps s0 s) {n : Nat} :
    Keeps s0 (fillmax n s) := by
  unfold fillmax
  split
  · rename_i x0 x1 e2
    refine Keeps.ite ?_ ?_
    · split
      rename_i x3 x4 x5 e6
      refine cut (P := Keeps s0 x5) ?_ fun k7 => ?_
      · exact Keeps.snd e6 (keeps_addLedger ‹_›)
      exact keeps_place (keeps_formFilling ‹_›)
    assumption
  rename_i x8 e9
  assumption

end Sys2Proof.Laws
end

