-- ==== Sys2Proof/Laws/KeepsJournal.lean ====
section
/-!
SUPPORT. What every operation of Machine/Journal.lean keeps (`Keeps`, Laws/Keeps.lean).
-/

namespace Sys2Proof.Laws

open Sys2Proof.Machine

theorem keeps_closeUnits {s0 s : State} (hk : Keeps s0 s) :
    Keeps s0 (closeUnits s) := by
  unfold closeUnits
  refine Keeps.foldl ?_ fun t0 x1 k2 => ?_
  · assumption
  refine Keeps.ite ?_ ?_
  · assumption
  split
  rename_i x3 x4 x5 e6
  refine cut (P := Keeps s0 x5) ?_ fun k7 => ?_
  · exact Keeps.snd e6 (keeps_closeLedger ‹_›)
  exact keeps_place (keeps_setNs ‹_›)

theorem keeps_ckStart {s0 s : State} (hk : Keeps s0 s) :
    Keeps s0 (ckStart s) := by
  unfold ckStart
  extract_lets +onlyGivenNames v0
  refine cut (P := Keeps s0 v0) ?_ fun k1 => ?_
  · unfold v0
    refine Keeps.ite ?_ ?_
    · exact keeps_closeUnits ‹_›
    assumption
  clear_value v0
  extract_lets +onlyGivenNames v2
  clear_value v2
  extract_lets +onlyGivenNames v3
  clear_value v3
  extract_lets +onlyGivenNames v4
  refine cut (P := Keeps s0 v4) ?_ fun k5 => ?_
  · unfold v4
    exact Keeps.mkSame ‹_›
  clear_value v4
  extract_lets +onlyGivenNames v6
  refine cut (P := Keeps s0 v6) ?_ fun k7 => ?_
  · unfold v6
    exact keeps_State_onJrn ‹_›
  clear_value v6
  exact keeps_place (keeps_setNs ‹_›)

theorem keeps_ckRequest {s0 s : State} (hk : Keeps s0 s) :
    Keeps s0 (ckRequest s) := by
  unfold ckRequest
  refine Keeps.ite ?_ ?_
  · assumption
  refine Keeps.ite ?_ ?_
  · exact keeps_State_onJrn ‹_›
  exact keeps_ckStart ‹_›

theorem keeps_timeckNow {s0 s : State} (hk : Keeps s0 s) :
    Keeps s0 (timeckNow s) := by
  unfold timeckNow
  extract_lets +onlyGivenNames v0
  refine cut (P := Keeps s0 v0) ?_ fun k1 => ?_
  · unfold v0
    exact keeps_logAppend ‹_›
  clear_value v0
  exact keeps_State_onJrn ‹_›

theorem keeps_logNs {s0 s : State} (hk : Keeps s0 s) {n : Nat} :
    Keeps s0 (logNs n s) := by
  unfold logNs
  extract_lets +onlyGivenNames v0
  clear_value v0
  exact keeps_logAppend ‹_›

theorem keeps_nsCfgWrite {s0 s : State} (hk : Keeps s0 s) {n : Nat} {v : Word} :
    Keeps s0 (nsCfgWrite n v s) := by
  unfold nsCfgWrite
  refine Keeps.ite ?_ ?_
  · extract_lets +onlyGivenNames v0
    clear_value v0
    exact keeps_updateFull (keeps_logNs (keeps_State_wr ‹_›))
  assumption

theorem keeps_nsResWrite {s0 s : State} (hk : Keeps s0 s) {n : Nat} {v : Word} :
    Keeps s0 (nsResWrite n v s) := by
  unfold nsResWrite
  exact keeps_updateFull (keeps_logNs (keeps_State_setFld ‹_›))

theorem keeps_ckDone {s0 s : State} (hk : Keeps s0 s) :
    Keeps s0 (ckDone s) := by
  unfold ckDone
  split
  · rename_i x0 e1
    assumption
  rename_i x2 x3 e4
  refine Keeps.ite ?_ ?_
  · assumption
  extract_lets +onlyGivenNames v5
  clear_value v5
  extract_lets +onlyGivenNames v6
  clear_value v6
  extract_lets +onlyGivenNames v7
  clear_value v7
  extract_lets +onlyGivenNames v8
  refine cut (P := Keeps s0 v8) ?_ fun k9 => ?_
  · unfold v8
    exact keeps_State_store ‹_›
  clear_value v8
  extract_lets +onlyGivenNames v10
  refine cut (P := Keeps s0 v10) ?_ fun k11 => ?_
  · unfold v10
    exact keeps_logAppend ‹_›
  clear_value v10
  extract_lets +onlyGivenNames v12
  refine cut (P := Keeps s0 v12) ?_ fun k13 => ?_
  · unfold v12
    exact keeps_State_onJrn ‹_›
  clear_value v12
  extract_lets +onlyGivenNames v14
  refine cut (P := Keeps s0 v14) ?_ fun k15 => ?_
  · unfold v14
    exact keeps_State_raise (keeps_State_addSat ‹_›)
  clear_value v14
  exact keeps_logRetry (keeps_logLevels ‹_›)

theorem keeps_fieldOn {s0 s : State} (hk : Keeps s0 s) :
    Keeps s0 (fieldOn s) := by
  unfold fieldOn
  exact keeps_State_raise (keeps_State_onJrn ‹_›)

theorem keeps_timeck {s0 s : State} (hk : Keeps s0 s) :
    Keeps s0 (timeck s) := by
  unfold timeck
  refine Keeps.ite ?_ ?_
  · exact keeps_timeckNow ‹_›
  assumption

theorem keeps_jcorrupt {s0 s : State} (hk : Keeps s0 s) :
    Keeps s0 (jcorrupt s) := by
  unfold jcorrupt
  exact keeps_setSticky (keeps_State_raise ‹_›)

theorem keeps_replay {s0 s : State} (hk : Keeps s0 s) {torn : Nat} {us : Nat} :
    Keeps s0 (replay torn us s) := by
  unfold replay
  extract_lets +onlyGivenNames v0
  clear_value v0
  extract_lets +onlyGivenNames v1
  clear_value v1
  extract_lets +onlyGivenNames v2
  clear_value v2
  extract_lets +onlyGivenNames v3
  clear_value v3
  extract_lets +onlyGivenNames v4
  clear_value v4
  extract_lets +onlyGivenNames v5
  clear_value v5
  extract_lets +onlyGivenNames v6
  clear_value v6
  extract_lets +onlyGivenNames v7
  refine cut (P := Keeps s0 v7) ?_ fun k8 => ?_
  · unfold v7
    exact Keeps.mkSame ‹_›
  clear_value v7
  extract_lets +onlyGivenNames v9
  refine cut (P := Keeps s0 v9) ?_ fun k10 => ?_
  · unfold v9
    exact keeps_State_onMedia ‹_›
  clear_value v9
  extract_lets +onlyGivenNames v11
  refine cut (P := Keeps s0 v11) ?_ fun k12 => ?_
  · unfold v11
    refine Keeps.ite ?_ ?_
    · assumption
    exact keeps_jcorrupt (keeps_State_setFld ‹_›)
  clear_value v11
  exact keeps_freeDead (keeps_logRetry (keeps_logLevels ‹_›))

theorem keeps_tablesRead {s0 s : State} (hk : Keeps s0 s) :
    Keeps s0 (tablesRead s) := by
  unfold tablesRead
  refine Keeps.ite ?_ ?_
  · assumption
  extract_lets +onlyGivenNames v0
  refine cut (P := Keeps s0 v0) ?_ fun k1 => ?_
  · unfold v0
    exact keeps_State_onJrn ‹_›
  clear_value v0
  refine Keeps.foldl ?_ fun t2 x3 k4 => ?_
  · assumption
  exact keeps_place ‹_›

theorem keeps_mramCorr {s0 s : State} (hk : Keeps s0 s) {n : Nat} :
    Keeps s0 (mramCorr n s) := by
  unfold mramCorr
  exact keeps_State_setFld ‹_›

theorem keeps_fieldOff {s0 s : State} (hk : Keeps s0 s) {corrected : Nat} {badTile : Bool} :
    Keeps s0 (fieldOff corrected badTile s) := by
  unfold fieldOff
  refine Keeps.ite ?_ ?_
  · assumption
  extract_lets +onlyGivenNames v0
  refine cut (P := Keeps s0 v0) ?_ fun k1 => ?_
  · unfold v0
    exact keeps_mramCorr (keeps_State_onJrn ‹_›)
  clear_value v0
  refine keeps_ckRequest ?_
  refine Keeps.ite ?_ ?_
  · exact keeps_jcorrupt ‹_›
  assumption

theorem keeps_ckAuto {s0 s : State} (hk : Keeps s0 s) :
    Keeps s0 (ckAuto s) := by
  unfold ckAuto
  refine Keeps.ite ?_ ?_
  · exact keeps_ckRequest ‹_›
  assumption

theorem keeps_mramScrub {s0 s : State} (hk : Keeps s0 s) {corrected : Nat} :
    Keeps s0 (mramScrub corrected s) := by
  unfold mramScrub
  refine Keeps.ite ?_ ?_
  · assumption
  exact keeps_mramCorr (keeps_State_onJrn ‹_›)

end Sys2Proof.Laws
end

