-- ==== Sys2Proof/Laws/KeepsCommit.lean ====
section
/-!
SUPPORT. What every operation of Machine/Commit.lean keeps (`Keeps`, Laws/Keeps.lean).
-/

namespace Sys2Proof.Laws

open Sys2Proof.Machine

theorem keeps_utcWrite {s0 s : State} (hk : Keeps s0 s) {a : Nat} {w : Word} :
    Keeps s0 (utcWrite a w s) := by
  unfold utcWrite
  refine Keeps.ite ?_ ?_
  · assumption
  exact keeps_timemap (keeps_State_wr ‹_›)

theorem keeps_stageSlots {s0 s : State} (hk : Keeps s0 s) {set : List (Nat × Bytes)} :
    Keeps s0 (stageSlots set s) := by
  unfold stageSlots
  refine Keeps.ite ?_ ?_
  · exact keeps_State_onCanvas ‹_›
  assumption

theorem keeps_descChange {s0 s : State} (hk : Keeps s0 s) {n : Nat} {changes : List (Nat × Nat)} :
    Keeps s0 (descChange n changes s) := by
  unfold descChange
  extract_lets +onlyGivenNames v0
  clear_value v0
  extract_lets +onlyGivenNames v1
  clear_value v1
  extract_lets +onlyGivenNames v2
  clear_value v2
  exact keeps_inval (keeps_State_store ‹_›)

theorem keeps_utcOffset {s0 s : State} (hk : Keeps s0 s) {v : Nat} :
    Keeps s0 (utcOffset v s) := by
  unfold utcOffset
  refine Keeps.ite ?_ ?_
  · assumption
  exact keeps_timemap (keeps_State_wr64 ‹_›)

theorem keeps_portCfgWrite {s0 s : State} (hk : Keeps s0 s) {p : Nat} {w : Word} :
    Keeps s0 (portCfgWrite p w s) := by
  unfold portCfgWrite
  extract_lets +onlyGivenNames v0
  refine cut (P := Keeps s0 v0) ?_ fun k1 => ?_
  · unfold v0
    exact keeps_State_wr ‹_›
  clear_value v0
  refine Keeps.ite ?_ ?_
  · assumption
  exact keeps_setPort ‹_›

theorem keeps_cptWr {s0 s : State} (hk : Keeps s0 s) {a : Nat} {w : Word} :
    Keeps s0 (cptWr a w s) := by
  unfold cptWr
  split
  · rename_i x0 x1 e2
    refine Keeps.ite ?_ ?_
    · exact keeps_nsCfgWrite ‹_›
    exact keeps_nsResWrite ‹_›
  rename_i x3 e4
  split
  · rename_i x5 x6 e7
    exact keeps_portCfgWrite ‹_›
  rename_i x8 e9
  exact keeps_State_wr ‹_›

theorem keeps_piecesSet {s0 a3 : State} (hk : Keeps s0 a3) {v : Nat} {a2 : List Piece} :
    Keeps s0 (piecesSet v a2 a3) := by
  induction a2 generalizing a3
  · unfold piecesSet
    assumption
  · rename_i hd tl ih
    unfold piecesSet
    exact ih (keeps_cptWr ‹_›)

theorem keeps_applyOne {s0 s : State} (hk : Keeps s0 s) {key : Nat} {v : Bytes} :
    Keeps s0 (applyOne key v s) := by
  unfold applyOne
  split
  · rename_i x0 x1 e2
    split
    · rename_i x3 x4 e5
      refine Keeps.ite ?_ ?_
      · exact keeps_utcOffset ‹_›
      refine Keeps.ite ?_ ?_
      · exact keeps_utcWrite ‹_›
      exact keeps_piecesSet ‹_›
    · rename_i x6 e7
      exact keeps_State_onDict ‹_›
    rename_i x8 e9 e10
    assumption
  rename_i x11 e12
  assumption

theorem keeps_applyList {s0 a3 : State} (hk : Keeps s0 a3) {set : List (Nat × Bytes)} {a2 : List (Nat × Bytes)} :
    Keeps s0 (applyList set a2 a3) := by
  induction a2 generalizing a3
  · unfold applyList
    assumption
  · rename_i hd tl ih
    unfold applyList
    extract_lets +onlyGivenNames v0
    clear_value v0
    refine Keeps.ite ?_ ?_
    · refine Keeps.ite ?_ ?_
      · exact ih ‹_›
      exact ih (keeps_descChange ‹_›)
    exact ih (keeps_applyOne ‹_›)

theorem keeps_applySet {s0 s : State} (hk : Keeps s0 s) {set : List (Nat × Bytes)} :
    Keeps s0 (applySet set s) := by
  unfold applySet
  exact keeps_stageSlots (keeps_applyList ‹_›)

theorem keeps_dictCommit {s0 s : State} (hk : Keeps s0 s) :
    Keeps s0 (dictCommit s) := by
  unfold dictCommit
  extract_lets +onlyGivenNames v0
  clear_value v0
  extract_lets +onlyGivenNames v1
  clear_value v1
  refine Keeps.ite ?_ ?_
  · assumption
  extract_lets +onlyGivenNames v2
  refine cut (P := Keeps s0 v2) ?_ fun k3 => ?_
  · unfold v2
    exact keeps_State_onDict ‹_›
  clear_value v2
  extract_lets +onlyGivenNames v4
  refine cut (P := Keeps s0 v4) ?_ fun k5 => ?_
  · unfold v4
    exact keeps_State_setFld ‹_›
  clear_value v4
  extract_lets +onlyGivenNames v6
  refine cut (P := Keeps s0 v6) ?_ fun k7 => ?_
  · unfold v6
    exact keeps_applySet ‹_›
  clear_value v6
  extract_lets +onlyGivenNames v8
  refine cut (P := Keeps s0 v8) ?_ fun k9 => ?_
  · unfold v8
    exact keeps_State_onDict ‹_›
  clear_value v8
  refine Keeps.ite ?_ ?_
  · assumption
  exact keeps_State_raise ‹_›

end Sys2Proof.Laws
end

