-- ==== Sys2Proof/Laws/KeepsYdp.lean ====
section
/-!
SUPPORT. What every operation of Machine/Ydp.lean keeps (`Keeps`, Laws/Keeps.lean).
-/

namespace Sys2Proof.Laws

open Sys2Proof.Machine

theorem keeps_ydpPut {s0 s : State} (hk : Keeps s0 s) {carrier : Nat} {m : YMsg} :
    Keeps s0 (ydpPut carrier m s) := by
  unfold ydpPut
  refine Keeps.ite ?_ ?_
  · exact keeps_State_onGing ‹_›
  exact keeps_State_onGing ‹_›

theorem keeps_setSess {s0 s : State} (hk : Keeps s0 s) {i : Nat} {f : Sess → Sess} :
    Keeps s0 (setSess i f s) := by
  unfold setSess
  exact keeps_State_onGing ‹_›

theorem keeps_endTrans {s0 s : State} (hk : Keeps s0 s) {c : Carrier} :
    Keeps s0 (endTrans c s) := by
  unfold endTrans
  exact keeps_State_onDict ‹_›

theorem keeps_dropMsgs {s0 s : State} (hk : Keeps s0 s) {i : Nat} :
    Keeps s0 (dropMsgs i s) := by
  unfold dropMsgs
  exact keeps_State_onGing ‹_›

theorem keeps_sessShut {s0 s : State} (hk : Keeps s0 s) {i : Nat} :
    Keeps s0 (sessShut i s) := by
  unfold sessShut
  extract_lets +onlyGivenNames v0
  refine cut (P := Keeps s0 v0) ?_ fun k1 => ?_
  · unfold v0
    exact keeps_endTrans (keeps_dropMsgs ‹_›)
  clear_value v0
  extract_lets +onlyGivenNames v2
  refine cut (P := Keeps s0 v2) ?_ fun k3 => ?_
  · unfold v2
    exact keeps_setSess ‹_›
  clear_value v2
  exact keeps_State_raise ‹_›

theorem keeps_rekeyReq {s0 s : State} (hk : Keeps s0 s) {i : Nat} :
    Keeps s0 (rekeyReq i s) := by
  unfold rekeyReq
  extract_lets +onlyGivenNames v0
  clear_value v0
  exact keeps_ydpPut (keeps_State_raise ‹_›)

theorem keeps_msgSent {s0 s : State} (hk : Keeps s0 s) {m : YMsg} :
    Keeps s0 (msgSent m s) := by
  unfold msgSent
  split
  · rename_i x0 x1 x2 e3 e4
    extract_lets +onlyGivenNames v5
    clear_value v5
    extract_lets +onlyGivenNames v6
    refine cut (P := Keeps s0 v6) ?_ fun k7 => ?_
    · unfold v6
      exact keeps_setSess ‹_›
    clear_value v6
    refine Keeps.ite ?_ ?_
    · exact keeps_sessShut ‹_›
    refine Keeps.ite ?_ ?_
    · exact keeps_rekeyReq ‹_›
    assumption
  rename_i x8 x9 e10
  assumption

theorem keeps_ydpSend {s0 s : State} (hk : Keeps s0 s) {carrier : Nat} {m : YMsg} :
    Keeps s0 (ydpSend carrier m s) := by
  unfold ydpSend
  refine Keeps.ite ?_ ?_
  · exact keeps_ydpPut ‹_›
  extract_lets +onlyGivenNames v0
  clear_value v0
  exact keeps_msgSent (keeps_ydpPut ‹_›)

theorem keeps_sessClose {s0 s : State} (hk : Keeps s0 s) {i : Nat} {reason : Nat} :
    Keeps s0 (sessClose i reason s) := by
  unfold sessClose
  extract_lets +onlyGivenNames v0
  clear_value v0
  exact keeps_ydpPut (keeps_sessShut ‹_›)

theorem keeps_staleSessions {s0 a2 : State} (hk : Keeps s0 a2) {a1 : List Nat} :
    Keeps s0 (staleSessions a1 a2) := by
  induction a1 generalizing a2
  · unfold staleSessions
    assumption
  · rename_i hd tl ih
    unfold staleSessions
    extract_lets +onlyGivenNames v0
    clear_value v0
    refine Keeps.ite ?_ ?_
    · exact ih (keeps_sessClose ‹_›)
    exact ih ‹_›

theorem keeps_commitPoint {s0 s : State} (hk : Keeps s0 s) :
    Keeps s0 (commitPoint s) := by
  unfold commitPoint
  extract_lets +onlyGivenNames v0
  refine cut (P := Keeps s0 v0) ?_ fun k1 => ?_
  · unfold v0
    exact keeps_State_onCanvas ‹_›
  clear_value v0
  exact keeps_staleSessions (keeps_linenCommit (keeps_dictCommit ‹_›))

end Sys2Proof.Laws
end

