-- ==== Sys2Proof/Laws/KeepsCan.lean ====
section
/-!
SUPPORT. What every operation of Machine/Can.lean keeps (`Keeps`, Laws/Keeps.lean).
-/

namespace Sys2Proof.Laws

open Sys2Proof.Machine

theorem keeps_setCan {s0 s : State} (hk : Keeps s0 s) {n : Nat} {f : Can → Can} :
    Keeps s0 (setCan n f s) := by
  unfold setCan
  exact keeps_State_onGing ‹_›

theorem keeps_confine {s0 s : State} (hk : Keeps s0 s) {n : Nat} :
    Keeps s0 (confine n s) := by
  unfold confine
  extract_lets +onlyGivenNames v0
  clear_value v0
  refine Keeps.ite ?_ ?_
  · refine Keeps.ite ?_ ?_
    · refine Keeps.ite ?_ ?_
      · exact keeps_State_raise (keeps_setCan ‹_›)
      assumption
    exact keeps_setCan ‹_›
  assumption

theorem keeps_rxGood {s0 s : State} (hk : Keeps s0 s) {n : Nat} :
    Keeps s0 (rxGood n s) := by
  unfold rxGood
  extract_lets +onlyGivenNames v0
  refine cut (P := Keeps s0 v0) ?_ fun k1 => ?_
  · unfold v0
    exact keeps_State_addSat (keeps_setCan ‹_›)
  clear_value v0
  exact keeps_confine ‹_›

theorem keeps_nodeClash {s0 s : State} (hk : Keeps s0 s) {n : Nat} {fr : CanFrame} :
    Keeps s0 (nodeClash n fr s) := by
  unfold nodeClash
  refine Keeps.ite ?_ ?_
  · exact keeps_State_addSat (keeps_State_raise ‹_›)
  assumption

theorem keeps_fwReceive {s0 s : State} (hk : Keeps s0 s) {n : Nat} {fr : CanFrame} {ts : Nat} :
    Keeps s0 (fwReceive n fr ts s) := by
  unfold fwReceive
  split
  · rename_i x0 e1
    assumption
  rename_i x2 x3 e4
  refine Keeps.ite ?_ ?_
  · exact keeps_State_raise ‹_›
  extract_lets +onlyGivenNames v5
  clear_value v5
  extract_lets +onlyGivenNames v6
  clear_value v6
  exact keeps_State_raise (keeps_setCan ‹_›)

theorem keeps_suspendOne {s0 s : State} (hk : Keeps s0 s) {i : Nat} :
    Keeps s0 (suspendOne i s) := by
  unfold suspendOne
  refine Keeps.ite ?_ ?_
  · exact keeps_setSess ‹_›
  assumption

theorem keeps_suspendAll {s0 s : State} (hk : Keeps s0 s) {n : Nat} :
    Keeps s0 (suspendAll n s) := by
  unfold suspendAll
  refine Keeps.foldl ?_ fun t0 x1 k2 => ?_
  · assumption
  exact keeps_suspendOne ‹_›

theorem keeps_cctrlWrite {s0 s : State} (hk : Keeps s0 s) {n : Nat} {w : Word} :
    Keeps s0 (cctrlWrite n w s) := by
  unfold cctrlWrite
  extract_lets +onlyGivenNames v0
  clear_value v0
  extract_lets +onlyGivenNames v1
  refine cut (P := Keeps s0 v1) ?_ fun k2 => ?_
  · unfold v1
    split
    · rename_i x3 x4 e5
      exact keeps_State_wr ‹_›
    rename_i x6 e7
    assumption
  extract_lets +onlyGivenNames v8
  clear_value v8
  extract_lets +onlyGivenNames v9
  refine Keeps.ite ?_ ?_
  · exact keeps_suspendAll (keeps_setCan ‹_›)
  refine Keeps.ite ?_ ?_
  · exact keeps_setCan ‹_›
  refine Keeps.ite ?_ ?_
  · refine Keeps.ite ?_ ?_
    · exact keeps_setCan ‹_›
    exact keeps_setCan ‹_›
  refine Keeps.ite ?_ ?_
  · exact keeps_suspendAll (keeps_setCan ‹_›)
  assumption

theorem keeps_txReq {s0 s : State} (hk : Keeps s0 s) {n : Nat} {mask : Word} :
    Keeps s0 (txReq n mask s) := by
  unfold txReq
  refine Keeps.foldl ?_ fun t0 x1 k2 => ?_
  · assumption
  refine Keeps.ite ?_ ?_
  · extract_lets +onlyGivenNames v3
    clear_value v3
    refine Keeps.ite ?_ ?_
    · exact keeps_State_setFlag ‹_›
    exact keeps_State_setFlag ‹_›
  assumption

theorem keeps_txCancel {s0 s : State} (hk : Keeps s0 s) {n : Nat} {mask : Word} {late : Word} :
    Keeps s0 (txCancel n mask late s) := by
  unfold txCancel
  refine Keeps.foldl ?_ fun t0 x1 k2 => ?_
  · assumption
  refine Keeps.ite ?_ ?_
  · refine Keeps.ite ?_ ?_
    · exact keeps_setCan ‹_›
    exact keeps_State_setFlag (keeps_State_setFlag ‹_›)
  assumption

theorem keeps_rxPop {s0 s : State} (hk : Keeps s0 s) {n : Nat} :
    Keeps s0 (rxPop n s) := by
  unfold rxPop
  exact keeps_setCan ‹_›

theorem keeps_canResume {s0 s : State} (hk : Keeps s0 s) :
    Keeps s0 (canResume s) := by
  unfold canResume
  refine Keeps.foldl ?_ fun t0 x1 k2 => ?_
  · assumption
  refine Keeps.ite ?_ ?_
  · exact keeps_setCan ‹_›
  assumption

theorem keeps_canPause {s0 s : State} (hk : Keeps s0 s) :
    Keeps s0 (canPause s) := by
  unfold canPause
  refine Keeps.foldl ?_ fun t0 x1 k2 => ?_
  · assumption
  extract_lets +onlyGivenNames v3
  clear_value v3
  refine Keeps.ite ?_ ?_
  · assumption
  exact keeps_suspendAll (keeps_setCan ‹_›)

theorem keeps_tscntWrap {s0 s : State} (hk : Keeps s0 s) {n : Nat} :
    Keeps s0 (tscntWrap n s) := by
  unfold tscntWrap
  exact keeps_setCan ‹_›

theorem keeps_busOff {s0 s : State} (hk : Keeps s0 s) {n : Nat} :
    Keeps s0 (busOff n s) := by
  unfold busOff
  refine Keeps.ite ?_ ?_
  · extract_lets +onlyGivenNames v0
    refine cut (P := Keeps s0 v0) ?_ fun k1 => ?_
    · unfold v0
      exact keeps_setCan ‹_›
    clear_value v0
    extract_lets +onlyGivenNames v2
    refine cut (P := Keeps s0 v2) ?_ fun k3 => ?_
    · unfold v2
      exact keeps_State_addSat (keeps_State_raise ‹_›)
    clear_value v2
    exact keeps_suspendAll ‹_›
  assumption

theorem keeps_resumeOne {s0 s : State} (hk : Keeps s0 s) {i : Nat} :
    Keeps s0 (resumeOne i s) := by
  unfold resumeOne
  extract_lets +onlyGivenNames v0
  clear_value v0
  refine Keeps.ite ?_ ?_
  · refine Keeps.ite ?_ ?_
    · exact keeps_setSess ‹_›
    exact keeps_sessClose ‹_›
  assumption

theorem keeps_resumeAll {s0 s : State} (hk : Keeps s0 s) {n : Nat} :
    Keeps s0 (resumeAll n s) := by
  unfold resumeAll
  refine Keeps.foldl ?_ fun t0 x1 k2 => ?_
  · assumption
  exact keeps_resumeOne ‹_›

theorem keeps_integrated {s0 s : State} (hk : Keeps s0 s) {n : Nat} :
    Keeps s0 (integrated n s) := by
  unfold integrated
  extract_lets +onlyGivenNames v0
  clear_value v0
  extract_lets +onlyGivenNames v1
  refine cut (P := Keeps s0 v1) ?_ fun k2 => ?_
  · unfold v1
    exact keeps_setCan ‹_›
  clear_value v1
  exact keeps_resumeAll ‹_›

theorem keeps_canIntegration {s0 s : State} (hk : Keeps s0 s) {n : Nat} :
    Keeps s0 (canIntegration n s) := by
  unfold canIntegration
  refine Keeps.ite ?_ ?_
  · exact keeps_integrated ‹_›
  assumption

theorem keeps_canBusError {s0 s : State} (hk : Keeps s0 s) {n : Nat} {tx : Bool} {eight : Bool} :
    Keeps s0 (canBusError n tx eight s) := by
  unfold canBusError
  refine Keeps.ite ?_ ?_
  · extract_lets +onlyGivenNames v0
    refine cut (P := Keeps s0 v0) ?_ fun k1 => ?_
    · unfold v0
      exact keeps_State_addSat ‹_›
    clear_value v0
    extract_lets +onlyGivenNames v2
    refine cut (P := Keeps s0 v2) ?_ fun k3 => ?_
    · unfold v2
      exact keeps_setCan ‹_›
    clear_value v2
    refine Keeps.ite ?_ ?_
    · exact keeps_busOff ‹_›
    exact keeps_confine ‹_›
  assumption

theorem keeps_canStuck {s0 s : State} (hk : Keeps s0 s) {n : Nat} :
    Keeps s0 (canStuck n s) := by
  unfold canStuck
  refine Keeps.ite ?_ ?_
  · extract_lets +onlyGivenNames v0
    refine cut (P := Keeps s0 v0) ?_ fun k1 => ?_
    · unfold v0
      exact keeps_setCan ‹_›
    clear_value v0
    extract_lets +onlyGivenNames v2
    refine cut (P := Keeps s0 v2) ?_ fun k3 => ?_
    · unfold v2
      exact keeps_State_addSat (keeps_State_raise ‹_›)
    clear_value v2
    exact keeps_suspendAll (keeps_setSticky ‹_›)
  assumption

theorem keeps_busOffRecovery {s0 s : State} (hk : Keeps s0 s) {n : Nat} :
    Keeps s0 (busOffRecovery n s) := by
  unfold busOffRecovery
  refine Keeps.ite ?_ ?_
  · exact keeps_integrated (keeps_setCan ‹_›)
  assumption

theorem keeps_heartbeat {s0 s : State} (hk : Keeps s0 s) :
    Keeps s0 (heartbeat s) := by
  unfold heartbeat
  refine Keeps.ite ?_ ?_
  · assumption
  extract_lets +onlyGivenNames v0
  clear_value v0
  extract_lets +onlyGivenNames v1
  clear_value v1
  extract_lets +onlyGivenNames v2
  clear_value v2
  extract_lets +onlyGivenNames v3
  clear_value v3
  extract_lets +onlyGivenNames v4
  refine cut (P := Keeps s0 v4) ?_ fun k5 => ?_
  · unfold v4
    exact keeps_State_onGing ‹_›
  clear_value v4
  refine Keeps.foldl ?_ fun t6 x7 k8 => ?_
  · assumption
  refine Keeps.ite ?_ ?_
  · exact keeps_ydpPut ‹_›
  assumption

theorem keeps_notifyFlush {s0 s : State} (hk : Keeps s0 s) {n : Nat} :
    Keeps s0 (notifyFlush n s) := by
  unfold notifyFlush
  refine Keeps.foldl ?_ fun t0 x1 k2 => ?_
  · assumption
  extract_lets +onlyGivenNames v3
  clear_value v3
  refine Keeps.ite ?_ ?_
  · refine Keeps.foldl ?_ fun t4 x5 k6 => ?_
    · exact keeps_setSess ‹_›
    exact keeps_ydpSend ‹_›
  assumption

theorem keeps_txDone {s0 s : State} (hk : Keeps s0 s) {n : Nat} {err : Bool} :
    Keeps s0 (txDone n err s) := by
  unfold txDone
  refine Keeps.ite ?_ ?_
  · assumption
  refine Keeps.ite ?_ ?_
  · assumption
  extract_lets +onlyGivenNames v0
  refine cut (P := Keeps s0 v0) ?_ fun k1 => ?_
  · unfold v0
    exact keeps_notifyFlush ‹_›
  clear_value v0
  split
  · rename_i x2 e3
    assumption
  rename_i x4 x5 x6 e7
  refine Keeps.ite ?_ ?_
  · extract_lets +onlyGivenNames v8
    clear_value v8
    extract_lets +onlyGivenNames v9
    refine Keeps.ite ?_ ?_
    · refine Keeps.ite ?_ ?_
      · refine keeps_State_setFlag ?_
        unfold v9
        exact keeps_setCan (keeps_State_setFlag ‹_›)
      assumption
    extract_lets +onlyGivenNames v10
    clear_value v10
    extract_lets +onlyGivenNames v11
    refine cut (P := Keeps s0 v11) ?_ fun k12 => ?_
    · unfold v11
      refine keeps_State_setFlag ?_
      unfold v9
      exact keeps_setCan (keeps_State_setFlag ‹_›)
    clear_value v11
    extract_lets +onlyGivenNames v13
    refine cut (P := Keeps s0 v13) ?_ fun k14 => ?_
    · unfold v13
      refine Keeps.ite ?_ ?_
      · exact keeps_State_setFlag ‹_›
      assumption
    clear_value v13
    extract_lets +onlyGivenNames v15
    refine cut (P := Keeps s0 v15) ?_ fun k16 => ?_
    · unfold v15
      exact keeps_setCan ‹_›
    clear_value v15
    extract_lets +onlyGivenNames v17
    refine cut (P := Keeps s0 v17) ?_ fun k18 => ?_
    · unfold v17
      exact keeps_State_addSat (keeps_State_raise ‹_›)
    clear_value v17
    exact keeps_confine ‹_›
  refine Keeps.ite ?_ ?_
  · assumption
  split
  · rename_i x19 e20
    assumption
  rename_i x21 x22 e23
  extract_lets +onlyGivenNames v24
  clear_value v24
  extract_lets +onlyGivenNames v25
  clear_value v25
  extract_lets +onlyGivenNames v26
  refine cut (P := Keeps s0 v26) ?_ fun k27 => ?_
  · unfold v26
    exact keeps_setCan ‹_›
  clear_value v26
  extract_lets +onlyGivenNames v28
  refine cut (P := Keeps s0 v28) ?_ fun k29 => ?_
  · unfold v28
    exact keeps_State_addSat ‹_›
  clear_value v28
  exact keeps_confine (keeps_msgSent ‹_›)

theorem keeps_stuckRecheck {s0 s : State} (hk : Keeps s0 s) {n : Nat} {recessive : Bool} :
    Keeps s0 (stuckRecheck n recessive s) := by
  unfold stuckRecheck
  refine Keeps.ite ?_ ?_
  · exact keeps_integrated (keeps_setCan ‹_›)
  assumption

end Sys2Proof.Laws
end

