-- ==== Sys2Proof/Laws/KeepsClocks.lean ====
section
/-!
SUPPORT. What every operation of Machine/Clocks.lean keeps (`Keeps`, Laws/Keeps.lean).
-/

namespace Sys2Proof.Laws

open Sys2Proof.Machine

theorem keeps_setRoot {s0 s : State} (hk : Keeps s0 s) {r : Nat} {f : Root → Root} :
    Keeps s0 (setRoot r f s) := by
  unfold setRoot
  exact keeps_State_onTweed ‹_›

theorem keeps_pllHold {s0 s : State} (hk : Keeps s0 s) {p : Nat} :
    Keeps s0 (pllHold p s) := by
  unfold pllHold
  exact keeps_State_setFlag (keeps_State_setFlag ‹_›)

theorem keeps_rootSelWrite {s0 s : State} (hk : Keeps s0 s) {r : Nat} {w : Word} {idle : Bool} :
    Keeps s0 (rootSelWrite r w idle s) := by
  unfold rootSelWrite
  extract_lets +onlyGivenNames v0
  clear_value v0
  refine Keeps.ite ?_ ?_
  · assumption
  refine Keeps.ite ?_ ?_
  · assumption
  extract_lets +onlyGivenNames v1
  refine cut (P := Keeps s0 v1) ?_ fun k2 => ?_
  · unfold v1
    exact keeps_State_wr ‹_›
  clear_value v1
  extract_lets +onlyGivenNames v3
  refine cut (P := Keeps s0 v3) ?_ fun k4 => ?_
  · unfold v3
    refine Keeps.ite ?_ ?_
    · exact keeps_State_setFld ‹_›
    assumption
  clear_value v3
  refine Keeps.ite ?_ ?_
  · assumption
  extract_lets +onlyGivenNames v5
  clear_value v5
  refine Keeps.ite ?_ ?_
  · exact keeps_State_setFlag ‹_›
  refine Keeps.ite ?_ ?_
  · exact keeps_State_setFlag ‹_›
  extract_lets +onlyGivenNames v6
  clear_value v6
  extract_lets +onlyGivenNames v7
  refine cut (P := Keeps s0 v7) ?_ fun k8 => ?_
  · unfold v7
    exact keeps_State_setFlag (keeps_setRoot ‹_›)
  clear_value v7
  refine Keeps.ite ?_ ?_
  · exact keeps_pllHold ‹_›
  assumption

theorem keeps_pllOutWrite {s0 s : State} (hk : Keeps s0 s) {w : Word} :
    Keeps s0 (pllOutWrite w s) := by
  unfold pllOutWrite
  exact keeps_State_setFlag (keeps_State_wr ‹_›)

theorem keeps_gateOpen_ {s0 s : State} (hk : Keeps s0 s) {r : Nat} {b : Nat} :
    Keeps s0 (gateOpen_ r b s) := by
  unfold gateOpen_
  refine Keeps.ite ?_ ?_
  · assumption
  extract_lets +onlyGivenNames v0
  refine cut (P := Keeps s0 v0) ?_ fun k1 => ?_
  · unfold v0
    exact keeps_State_setFlag ‹_›
  clear_value v0
  extract_lets +onlyGivenNames v2
  refine cut (P := Keeps s0 v2) ?_ fun k3 => ?_
  · unfold v2
    exact keeps_State_setFlag ‹_›
  clear_value v2
  exact keeps_State_onTweed ‹_›

theorem keeps_gateClose {s0 s : State} (hk : Keeps s0 s) {r : Nat} {b : Nat} :
    Keeps s0 (gateClose r b s) := by
  unfold gateClose
  exact keeps_State_onTweed (keeps_State_setFlag ‹_›)

theorem keeps_gateRequest {s0 s : State} (hk : Keeps s0 s) {r : Nat} {b : Nat} {idle : Bool} :
    Keeps s0 (gateRequest r b idle s) := by
  unfold gateRequest
  refine Keeps.ite ?_ ?_
  · assumption
  extract_lets +onlyGivenNames v0
  refine cut (P := Keeps s0 v0) ?_ fun k1 => ?_
  · unfold v0
    exact keeps_State_setFlag ‹_›
  clear_value v0
  refine Keeps.ite ?_ ?_
  · assumption
  refine Keeps.ite ?_ ?_
  · exact keeps_gateClose ‹_›
  exact keeps_State_onTweed ‹_›

theorem keeps_ckenWrite {s0 s : State} (hk : Keeps s0 s) {r : Nat} {w : Word} :
    Keeps s0 (ckenWrite r w s) := by
  unfold ckenWrite
  refine Keeps.foldl ?_ fun t0 x1 k2 => ?_
  · assumption
  refine Keeps.ite ?_ ?_
  · exact keeps_gateOpen_ ‹_›
  refine Keeps.ite ?_ ?_
  · exact keeps_gateRequest (keeps_State_fresh ‹_›)
  assumption

theorem keeps_clkoutWrite {s0 s : State} (hk : Keeps s0 s) {n : Nat} {w : Word} :
    Keeps s0 (clkoutWrite n w s) := by
  unfold clkoutWrite
  extract_lets +onlyGivenNames v0
  clear_value v0
  exact keeps_State_onTweed (keeps_State_wr ‹_›)

theorem keeps_onBlock {s0 s : State} (hk : Keeps s0 s) {r : Nat} {b : Nat} {g : State → State} (hg_g : ∀ {u : State}, Keeps s0 u → Keeps s0 (g u)) :
    Keeps s0 (onBlock r b g s) := by
  unfold onBlock
  refine Keeps.ite ?_ ?_
  · exact hg_g ‹_›
  assumption

theorem keeps_setCur {s0 s : State} (hk : Keeps s0 s) {r : Nat} {src : Nat} :
    Keeps s0 (setCur r src s) := by
  unfold setCur
  extract_lets +onlyGivenNames v0
  refine cut (P := Keeps s0 v0) ?_ fun k1 => ?_
  · unfold v0
    exact keeps_State_setFld ‹_›
  clear_value v0
  refine Keeps.ite ?_ ?_
  · exact keeps_State_setFlag ‹_›
  assumption

theorem keeps_rootDone {s0 s : State} (hk : Keeps s0 s) {r : Nat} :
    Keeps s0 (rootDone r s) := by
  unfold rootDone
  split
  · rename_i x0 e1
    assumption
  rename_i x2 x3 e4
  extract_lets +onlyGivenNames v5
  refine cut (P := Keeps s0 v5) ?_ fun k6 => ?_
  · unfold v5
    exact keeps_setRoot ‹_›
  clear_value v5
  extract_lets +onlyGivenNames v7
  refine cut (P := Keeps s0 v7) ?_ fun k8 => ?_
  · unfold v7
    exact keeps_State_setFlag (keeps_State_setFlag ‹_›)
  clear_value v7
  exact keeps_State_raise (keeps_setCur ‹_›)

theorem keeps_refFallback {s0 s : State} (hk : Keeps s0 s) {p : Nat} :
    Keeps s0 (refFallback p s) := by
  unfold refFallback
  extract_lets +onlyGivenNames v0
  refine cut (P := Keeps s0 v0) ?_ fun k1 => ?_
  · unfold v0
    refine Keeps.ite ?_ ?_
    · exact keeps_rootDone ‹_›
    assumption
  clear_value v0
  refine Keeps.ite ?_ ?_
  · exact keeps_pllHold (keeps_setCur ‹_›)
  assumption

theorem keeps_clkRecover {s0 s : State} (hk : Keeps s0 s) :
    Keeps s0 (clkRecover s) := by
  unfold clkRecover
  refine Keeps.ite ?_ ?_
  · extract_lets +onlyGivenNames v0
    refine cut (P := Keeps s0 v0) ?_ fun k1 => ?_
    · unfold v0
      exact keeps_State_raise (keeps_State_setFlag ‹_›)
    clear_value v0
    refine Keeps.ite ?_ ?_
    · assumption
    exact keeps_canResume (keeps_State_setFlag ‹_›)
  assumption

theorem keeps_setPll {s0 s : State} (hk : Keeps s0 s) {p : Nat} {f : Pll → Pll} :
    Keeps s0 (setPll p f s) := by
  unfold setPll
  exact keeps_State_onTweed ‹_›

theorem keeps_pllLoss {s0 s : State} (hk : Keeps s0 s) {p : Nat} :
    Keeps s0 (pllLoss p s) := by
  unfold pllLoss
  refine Keeps.ite ?_ ?_
  · assumption
  extract_lets +onlyGivenNames v0
  clear_value v0
  extract_lets +onlyGivenNames v1
  refine cut (P := Keeps s0 v1) ?_ fun k2 => ?_
  · unfold v1
    exact keeps_State_raise (keeps_State_setFlag ‹_›)
  clear_value v1
  extract_lets +onlyGivenNames v3
  refine cut (P := Keeps s0 v3) ?_ fun k4 => ?_
  · unfold v3
    exact keeps_setPll ‹_›
  clear_value v3
  refine Keeps.foldl ?_ fun t5 x6 k7 => ?_
  · assumption
  exact keeps_setCur ‹_›

theorem keeps_clkFail {s0 s : State} (hk : Keeps s0 s) :
    Keeps s0 (clkFail s) := by
  unfold clkFail
  exact keeps_canPause (keeps_nmi (keeps_State_setFlag ‹_›))

theorem keeps_pllRetry {s0 s : State} (hk : Keeps s0 s) {p : Nat} {locked : Bool} :
    Keeps s0 (pllRetry p locked s) := by
  unfold pllRetry
  refine Keeps.ite ?_ ?_
  · assumption
  refine Keeps.ite ?_ ?_
  · extract_lets +onlyGivenNames v0
    clear_value v0
    extract_lets +onlyGivenNames v1
    refine cut (P := Keeps s0 v1) ?_ fun k2 => ?_
    · unfold v1
      exact keeps_State_setFlag (keeps_State_setFlag ‹_›)
    clear_value v1
    extract_lets +onlyGivenNames v3
    refine cut (P := Keeps s0 v3) ?_ fun k4 => ?_
    · unfold v3
      refine Keeps.ite ?_ ?_
      · refine Keeps.foldl ?_ fun t5 x6 k7 => ?_
        · exact keeps_State_incFld ‹_›
        exact keeps_setCur ‹_›
      assumption
    clear_value v3
    exact keeps_clkRecover (keeps_setPll ‹_›)
  split
  · rename_i x8 e9
    exact keeps_setPll (keeps_pllLoss ‹_›)
  rename_i x10 x11 e12
  refine Keeps.ite ?_ ?_
  · exact keeps_setPll ‹_›
  extract_lets +onlyGivenNames v13
  refine cut (P := Keeps s0 v13) ?_ fun k14 => ?_
  · unfold v13
    exact keeps_setPll ‹_›
  clear_value v13
  extract_lets +onlyGivenNames v15
  refine cut (P := Keeps s0 v15) ?_ fun k16 => ?_
  · unfold v15
    exact keeps_State_setFlag ‹_›
  clear_value v15
  extract_lets +onlyGivenNames v17
  refine cut (P := Keeps s0 v17) ?_ fun k18 => ?_
  · unfold v17
    exact keeps_State_onTweed ‹_›
  clear_value v17
  exact keeps_clkFail (keeps_setSticky ‹_›)

theorem keeps_trimWindow {s0 s : State} (hk : Keeps s0 s) {count : Nat} :
    Keeps s0 (trimWindow count s) := by
  unfold trimWindow
  refine Keeps.ite ?_ ?_
  · exact keeps_State_setFlag ‹_›
  extract_lets +onlyGivenNames v0
  refine cut (P := Keeps s0 v0) ?_ fun k1 => ?_
  · unfold v0
    exact keeps_State_setFlag ‹_›
  clear_value v0
  extract_lets +onlyGivenNames v2
  clear_value v2
  extract_lets +onlyGivenNames v3
  clear_value v3
  extract_lets +onlyGivenNames v4
  clear_value v4
  extract_lets +onlyGivenNames v5
  refine cut (P := Keeps s0 v5) ?_ fun k6 => ?_
  · unfold v5
    refine Keeps.ite ?_ ?_
    · exact keeps_State_setFld ‹_›
    assumption
  clear_value v5
  extract_lets +onlyGivenNames v7
  clear_value v7
  extract_lets +onlyGivenNames v8
  refine cut (P := Keeps s0 v8) ?_ fun k9 => ?_
  · unfold v8
    exact keeps_State_onTweed ‹_›
  clear_value v8
  exact keeps_State_setFlag ‹_›

theorem keeps_pllRefLoss {s0 s : State} (hk : Keeps s0 s) {p : Nat} {returned : Bool} :
    Keeps s0 (pllRefLoss p returned s) := by
  unfold pllRefLoss
  refine Keeps.ite ?_ ?_
  · assumption
  extract_lets +onlyGivenNames v0
  refine cut (P := Keeps s0 v0) ?_ fun k1 => ?_
  · unfold v0
    exact keeps_pllHold ‹_›
  clear_value v0
  refine Keeps.ite ?_ ?_
  · exact keeps_pllRetry ‹_›
  assumption

theorem keeps_gateTimeout {s0 s : State} (hk : Keeps s0 s) {r : Nat} {b : Nat} :
    Keeps s0 (gateTimeout r b s) := by
  unfold gateTimeout
  refine Keeps.ite ?_ ?_
  · extract_lets +onlyGivenNames v0
    refine cut (P := Keeps s0 v0) ?_ fun k1 => ?_
    · unfold v0
      exact keeps_gateClose ‹_›
    clear_value v0
    extract_lets +onlyGivenNames v2
    refine cut (P := Keeps s0 v2) ?_ fun k3 => ?_
    · unfold v2
      exact keeps_State_wr ‹_›
    clear_value v2
    extract_lets +onlyGivenNames v4
    refine cut (P := Keeps s0 v4) ?_ fun k5 => ?_
    · unfold v4
      exact keeps_State_onTweed ‹_›
    clear_value v4
    exact keeps_setSticky (keeps_State_raise ‹_›)
  assumption

theorem keeps_rootTimeout {s0 s : State} (hk : Keeps s0 s) {r : Nat} {oldAlive : Bool} :
    Keeps s0 (rootTimeout r oldAlive s) := by
  unfold rootTimeout
  split
  · rename_i x0 e1
    assumption
  rename_i x2 x3 e4
  extract_lets +onlyGivenNames v5
  clear_value v5
  extract_lets +onlyGivenNames v6
  refine cut (P := Keeps s0 v6) ?_ fun k7 => ?_
  · unfold v6
    exact keeps_setRoot ‹_›
  clear_value v6
  extract_lets +onlyGivenNames v8
  refine cut (P := Keeps s0 v8) ?_ fun k9 => ?_
  · unfold v8
    exact keeps_State_setFlag (keeps_State_setFlag ‹_›)
  clear_value v8
  extract_lets +onlyGivenNames v10
  refine cut (P := Keeps s0 v10) ?_ fun k11 => ?_
  · unfold v10
    exact keeps_State_raise ‹_›
  clear_value v10
  refine Keeps.ite ?_ ?_
  · exact keeps_setCur ‹_›
  exact keeps_setSticky (keeps_setCur ‹_›)

theorem keeps_sscApply {s0 s : State} (hk : Keeps s0 s) {p : Nat} :
    Keeps s0 (sscApply p s) := by
  unfold sscApply
  refine Keeps.ite ?_ ?_
  · exact keeps_setPll ‹_›
  assumption

theorem keeps_refclkWindow {s0 s : State} (hk : Keeps s0 s) {count : Nat} {ended : Bool} :
    Keeps s0 (refclkWindow count ended s) := by
  unfold refclkWindow
  extract_lets +onlyGivenNames v0
  refine cut (P := Keeps s0 v0) ?_ fun k1 => ?_
  · unfold v0
    exact keeps_State_setFld ‹_›
  clear_value v0
  refine Keeps.ite ?_ ?_
  · exact keeps_setSticky (keeps_State_raise (keeps_State_setFlag ‹_›))
  exact keeps_State_setFlag ‹_›

theorem keeps_xinOk1s {s0 s : State} (hk : Keeps s0 s) :
    Keeps s0 (xinOk1s s) := by
  unfold xinOk1s
  refine Keeps.ite ?_ ?_
  · exact keeps_State_raise (keeps_State_setFlag (keeps_State_setFlag ‹_›))
  assumption

theorem keeps_xinWindow {s0 s : State} (hk : Keeps s0 s) {count : Nat} {ended : Bool} :
    Keeps s0 (xinWindow count ended s) := by
  unfold xinWindow
  extract_lets +onlyGivenNames v0
  refine cut (P := Keeps s0 v0) ?_ fun k1 => ?_
  · unfold v0
    exact keeps_State_setFld ‹_›
  clear_value v0
  refine Keeps.ite ?_ ?_
  · extract_lets +onlyGivenNames v2
    refine cut (P := Keeps s0 v2) ?_ fun k3 => ?_
    · unfold v2
      exact keeps_State_onTweed ‹_›
    clear_value v2
    extract_lets +onlyGivenNames v4
    refine cut (P := Keeps s0 v4) ?_ fun k5 => ?_
    · unfold v4
      exact keeps_State_setFlag (keeps_State_setFlag ‹_›)
    clear_value v4
    extract_lets +onlyGivenNames v6
    refine cut (P := Keeps s0 v6) ?_ fun k7 => ?_
    · unfold v6
      exact keeps_State_raise ‹_›
    clear_value v6
    extract_lets +onlyGivenNames v8
    clear_value v8
    extract_lets +onlyGivenNames v9
    refine cut (P := Keeps s0 v9) ?_ fun k10 => ?_
    · unfold v9
      refine Keeps.foldl ?_ fun t11 x12 k13 => ?_
      · assumption
      exact keeps_refFallback ‹_›
    clear_value v9
    refine Keeps.ite ?_ ?_
    · exact keeps_clkFail (keeps_setSticky (keeps_State_setFlag ‹_›))
    assumption
  exact keeps_State_setFlag ‹_›

end Sys2Proof.Laws
end

