-- ==== Sys2Proof/Laws/KeepsFelt.lean ====
section
/-!
SUPPORT. What every operation of Machine/Felt.lean keeps (`Keeps`, Laws/Keeps.lean).
-/

namespace Sys2Proof.Laws

open Sys2Proof.Machine

theorem keeps_feltLog {s0 s : State} (hk : Keeps s0 s) {type : Nat} {source : Nat} {resp : Nat} {detail : Nat} :
    Keeps s0 (feltLog type source resp detail s) := by
  unfold feltLog
  extract_lets +onlyGivenNames v0
  clear_value v0
  extract_lets +onlyGivenNames v1
  clear_value v1
  extract_lets +onlyGivenNames v2
  clear_value v2
  extract_lets +onlyGivenNames v3
  refine cut (P := Keeps s0 v3) ?_ fun k4 => ?_
  · unfold v3
    exact keeps_State_onFelt ‹_›
  clear_value v3
  refine Keeps.ite ?_ ?_
  · exact keeps_State_raise (keeps_State_addSat ‹_›)
  assumption

theorem keeps_setDisc {s0 s : State} (hk : Keeps s0 s) {d : Nat} :
    Keeps s0 (setDisc d s) := by
  unfold setDisc
  refine Keeps.ite ?_ ?_
  · assumption
  extract_lets +onlyGivenNames v0
  refine cut (P := Keeps s0 v0) ?_ fun k1 => ?_
  · unfold v0
    exact keeps_State_raise (keeps_State_setFld ‹_›)
  clear_value v0
  refine Keeps.ite ?_ ?_
  · exact keeps_timemap ‹_›
  assumption

theorem keeps_setTime {s0 s : State} (hk : Keeps s0 s) {q : Bytes} :
    Keeps s0 (setTime q s).2 := by
  unfold setTime
  extract_lets +onlyGivenNames v0
  clear_value v0
  refine Keeps.iteSnd ?_ ?_
  · exact Keeps.pair ‹_›
  extract_lets +onlyGivenNames v1
  clear_value v1
  extract_lets +onlyGivenNames v2
  clear_value v2
  extract_lets +onlyGivenNames v3
  clear_value v3
  extract_lets +onlyGivenNames v4
  clear_value v4
  extract_lets +onlyGivenNames v5
  clear_value v5
  extract_lets +onlyGivenNames v6
  clear_value v6
  extract_lets +onlyGivenNames v7
  refine cut (P := Keeps s0 v7) ?_ fun k8 => ?_
  · unfold v7
    exact keeps_State_wr ‹_›
  clear_value v7
  extract_lets +onlyGivenNames v9
  refine cut (P := Keeps s0 v9) ?_ fun k10 => ?_
  · unfold v9
    refine Keeps.ite ?_ ?_
    · exact keeps_State_onFelt ‹_›
    assumption
  clear_value v9
  extract_lets +onlyGivenNames v11
  refine cut (P := Keeps s0 v11) ?_ fun k12 => ?_
  · unfold v11
    refine Keeps.ite ?_ ?_
    · exact keeps_State_onFelt ‹_›
    assumption
  clear_value v11
  extract_lets +onlyGivenNames v13
  refine cut (P := Keeps s0 v13) ?_ fun k14 => ?_
  · unfold v13
    refine Keeps.ite ?_ ?_
    · exact keeps_State_wr (keeps_State_wr64 ‹_›)
    assumption
  clear_value v13
  extract_lets +onlyGivenNames v15
  refine cut (P := Keeps s0 v15) ?_ fun k16 => ?_
  · unfold v15
    exact keeps_State_raise (keeps_State_setFld ‹_›)
  clear_value v15
  extract_lets +onlyGivenNames v17
  refine cut (P := Keeps s0 v17) ?_ fun k18 => ?_
  · unfold v17
    exact keeps_timemap (keeps_State_onFelt ‹_›)
  clear_value v17
  exact Keeps.pair (keeps_feltLog ‹_›)

theorem keeps_tbist {s0 s : State} (hk : Keeps s0 s) {src : Nat} :
    Keeps s0 (tbist src s).2 := by
  unfold tbist
  refine Keeps.iteSnd ?_ ?_
  · exact Keeps.pair ‹_›
  refine Keeps.iteSnd ?_ ?_
  · exact Keeps.pair ‹_›
  exact Keeps.pair (keeps_State_onFelt ‹_›)

theorem keeps_discPowerLoss {s0 s : State} (hk : Keeps s0 s) :
    Keeps s0 (discPowerLoss s) := by
  unfold discPowerLoss
  extract_lets +onlyGivenNames v0
  refine cut (P := Keeps s0 v0) ?_ fun k1 => ?_
  · unfold v0
    exact keeps_State_onFelt ‹_›
  clear_value v0
  refine Keeps.ite ?_ ?_
  · exact keeps_State_raise (keeps_State_setFld ‹_›)
  assumption

theorem keeps_setSrc {s0 s : State} (hk : Keeps s0 s) {i : Nat} {f : TSrc → TSrc} :
    Keeps s0 (setSrc i f s) := by
  unfold setSrc
  exact keeps_State_onFelt ‹_›

theorem keeps_loopSeed {s0 s : State} (hk : Keeps s0 s) {k : Nat} :
    Keeps s0 (loopSeed k s) := by
  unfold loopSeed
  split
  · rename_i x0 x1 x2 e3
    refine cut (P := Keeps s0 x2) ?_ fun k4 => ?_
    · exact Keeps.snd e3 (keeps_drbgRequest ‹_›)
    extract_lets +onlyGivenNames v5
    clear_value v5
    exact keeps_setSrc ‹_›
  rename_i x6 x7 x8 e9 e10
  refine cut (P := Keeps s0 x8) ?_ fun k11 => ?_
  · exact Keeps.snd e10 (keeps_drbgRequest ‹_›)
  exact keeps_setSrc ‹_›

theorem keeps_feltApply {s0 s : State} (hk : Keeps s0 s) {a : Nat} {w : Word} :
    Keeps s0 (feltApply a w s) := by
  unfold feltApply
  split
  · rename_i x0 x1 e2
    extract_lets +onlyGivenNames v3
    clear_value v3
    extract_lets +onlyGivenNames v4
    refine cut (P := Keeps s0 v4) ?_ fun k5 => ?_
    · unfold v4
      exact keeps_State_wr (keeps_State_wr ‹_›)
    clear_value v4
    extract_lets +onlyGivenNames v6
    clear_value v6
    extract_lets +onlyGivenNames v7
    refine cut (P := Keeps s0 v7) ?_ fun k8 => ?_
    · unfold v7
      exact keeps_setSrc ‹_›
    clear_value v7
    exact keeps_loopSeed ‹_›
  rename_i x9 e10
  split
  · rename_i x11 x12 e13
    extract_lets +onlyGivenNames v14
    clear_value v14
    exact keeps_State_wr (keeps_State_wr ‹_›)
  rename_i x15 e16
  refine Keeps.ite ?_ ?_
  · extract_lets +onlyGivenNames v17
    clear_value v17
    exact keeps_State_wr (keeps_State_wr ‹_›)
  refine Keeps.ite ?_ ?_
  · exact keeps_utcWrite ‹_›
  refine Keeps.ite ?_ ?_
  · exact keeps_utcWrite ‹_›
  split
  · rename_i x18 x19 e20
    exact keeps_State_wr ‹_›
  rename_i x21 e22
  assumption

theorem keeps_feltPop {s0 s : State} (hk : Keeps s0 s) :
    Keeps s0 (feltPop s) := by
  unfold feltPop
  split
  · rename_i x0 e1
    assumption
  rename_i x2 x3 x4 x5 e6
  exact keeps_feltApply (keeps_State_onFelt ‹_›)

theorem keeps_feltLand {s0 s : State} (hk : Keeps s0 s) :
    Keeps s0 (feltLand s) := by
  unfold feltLand
  exact Keeps.ite hk (keeps_feltPop hk)

theorem keeps_feltPost {s0 s : State} (hk : Keeps s0 s) {a : Nat} {w : Word} :
    Keeps s0 (feltPost a w s) := by
  unfold feltPost
  extract_lets +onlyGivenNames v0
  refine cut (P := Keeps s0 v0) ?_ fun k1 => ?_
  · unfold v0
    refine Keeps.ite ?_ ?_
    · exact keeps_feltPop ‹_›
    assumption
  clear_value v0
  exact keeps_State_onFelt ‹_›

theorem keeps_shadowReject {s0 s : State} (hk : Keeps s0 s) {a : Nat} :
    Keeps s0 (shadowReject a s) := by
  unfold shadowReject
  extract_lets +onlyGivenNames v0
  refine cut (P := Keeps s0 v0) ?_ fun k1 => ?_
  · unfold v0
    exact keeps_setSticky (keeps_State_onFelt ‹_›)
  clear_value v0
  extract_lets +onlyGivenNames v2
  refine cut (P := Keeps s0 v2) ?_ fun k3 => ?_
  · unfold v2
    exact keeps_State_raise ‹_›
  clear_value v2
  extract_lets +onlyGivenNames v4
  clear_value v4
  refine Keeps.ite ?_ ?_
  · assumption
  exact keeps_feltLog (keeps_State_onFelt ‹_›)

theorem keeps_feltSticky {s0 s : State} (hk : Keeps s0 s) {n : Nat} {arg : Nat} :
    Keeps s0 (feltSticky n arg s) := by
  unfold feltSticky
  refine Keeps.ite ?_ ?_
  · exact keeps_setSticky ‹_›
  exact keeps_State_setFlag ‹_›

theorem keeps_tamperZero {s0 s : State} (hk : Keeps s0 s) :
    Keeps s0 (tamperZero s) := by
  unfold tamperZero
  refine Keeps.ite ?_ ?_
  · exact keeps_pkZeroAll (keeps_zeroAllKeys ‹_›)
  refine Keeps.foldl ?_ fun t0 x1 k2 => ?_
  · assumption
  exact keeps_zeroizeSlot ‹_›

theorem keeps_tamperEpoch {s0 s : State} (hk : Keeps s0 s) {src : Nat} :
    Keeps s0 (tamperEpoch src s) := by
  unfold tamperEpoch
  extract_lets +onlyGivenNames v0
  refine cut (P := Keeps s0 v0) ?_ fun k1 => ?_
  · unfold v0
    exact keeps_epochRequest ‹_›
  clear_value v0
  extract_lets +onlyGivenNames v2
  refine cut (P := Keeps s0 v2) ?_ fun k3 => ?_
  · unfold v2
    refine Keeps.ite ?_ ?_
    · exact keeps_State_onFelt ‹_›
    exact keeps_feltSticky (keeps_State_onFelt ‹_›)
  clear_value v2
  refine Keeps.ite ?_ ?_
  · exact keeps_writeGaps ‹_›
  assumption

theorem keeps_tamperEvent {s0 s : State} (hk : Keeps s0 s) {src : Nat} :
    Keeps s0 (tamperEvent src s) := by
  unfold tamperEvent
  extract_lets +onlyGivenNames v0
  clear_value v0
  extract_lets +onlyGivenNames v1
  clear_value v1
  extract_lets +onlyGivenNames v2
  clear_value v2
  extract_lets +onlyGivenNames v3
  clear_value v3
  extract_lets +onlyGivenNames v4
  clear_value v4
  extract_lets +onlyGivenNames v5
  refine cut (P := Keeps s0 v5) ?_ fun k6 => ?_
  · unfold v5
    exact keeps_State_onFelt ‹_›
  clear_value v5
  extract_lets +onlyGivenNames v7
  refine cut (P := Keeps s0 v7) ?_ fun k8 => ?_
  · unfold v7
    exact keeps_feltLog ‹_›
  clear_value v7
  extract_lets +onlyGivenNames v9
  refine cut (P := Keeps s0 v9) ?_ fun k10 => ?_
  · unfold v9
    exact keeps_State_raise ‹_›
  clear_value v9
  extract_lets +onlyGivenNames v11
  refine cut (P := Keeps s0 v11) ?_ fun k12 => ?_
  · unfold v11
    exact keeps_feltSticky ‹_›
  clear_value v11
  extract_lets +onlyGivenNames v13
  refine cut (P := Keeps s0 v13) ?_ fun k14 => ?_
  · unfold v13
    refine Keeps.ite ?_ ?_
    · exact keeps_notify ‹_›
    assumption
  clear_value v13
  extract_lets +onlyGivenNames v15
  refine cut (P := Keeps s0 v15) ?_ fun k16 => ?_
  · unfold v15
    refine Keeps.ite ?_ ?_
    · exact keeps_tamperZero ‹_›
    assumption
  clear_value v15
  extract_lets +onlyGivenNames v17
  refine cut (P := Keeps s0 v17) ?_ fun k18 => ?_
  · unfold v17
    refine Keeps.ite ?_ ?_
    · exact keeps_tamperEpoch ‹_›
    assumption
  clear_value v17
  extract_lets +onlyGivenNames v19
  refine cut (P := Keeps s0 v19) ?_ fun k20 => ?_
  · unfold v19
    refine Keeps.ite ?_ ?_
    · exact keeps_nmi ‹_›
    assumption
  clear_value v19
  refine Keeps.ite ?_ ?_
  · exact keeps_assertReset ‹_›
  assumption

theorem keeps_shadowMismatch {s0 s : State} (hk : Keeps s0 s) {a : Nat} :
    Keeps s0 (shadowMismatch a s) := by
  unfold shadowMismatch
  refine Keeps.ite ?_ ?_
  · extract_lets +onlyGivenNames v0
    refine cut (P := Keeps s0 v0) ?_ fun k1 => ?_
    · unfold v0
      exact keeps_tamperEvent ‹_›
    clear_value v0
    extract_lets +onlyGivenNames v2
    refine cut (P := Keeps s0 v2) ?_ fun k3 => ?_
    · unfold v2
      exact keeps_feltSticky ‹_›
    clear_value v2
    extract_lets +onlyGivenNames v4
    refine cut (P := Keeps s0 v4) ?_ fun k5 => ?_
    · unfold v4
      exact keeps_State_wr ‹_›
    clear_value v4
    refine Keeps.ite ?_ ?_
    · exact keeps_assertReset ‹_›
    assumption
  assumption

theorem keeps_shadowCheck {s0 s : State} (hk : Keeps s0 s) :
    Keeps s0 (shadowCheck s) := by
  unfold shadowCheck
  refine Keeps.foldl ?_ fun t0 x1 k2 => ?_
  · assumption
  refine Keeps.ite ?_ ?_
  · assumption
  exact keeps_shadowMismatch ‹_›

theorem keeps_setAdj {s0 s : State} (hk : Keeps s0 s) {v : Int} :
    Keeps s0 (setAdj v s) := by
  unfold setAdj
  exact keeps_State_wr ‹_›

theorem keeps_ppsOutlier {s0 s : State} (hk : Keeps s0 s) {e : Int} :
    Keeps s0 (ppsOutlier e s) := by
  unfold ppsOutlier
  extract_lets +onlyGivenNames v0
  clear_value v0
  extract_lets +onlyGivenNames v1
  refine cut (P := Keeps s0 v1) ?_ fun k2 => ?_
  · unfold v1
    exact keeps_State_onFelt ‹_›
  clear_value v1
  extract_lets +onlyGivenNames v3
  clear_value v3
  extract_lets +onlyGivenNames v4
  clear_value v4
  refine Keeps.ite ?_ ?_
  · exact keeps_setAdj (keeps_State_onFelt ‹_›)
  assumption

theorem keeps_feltWrite {s0 s : State} (hk : Keeps s0 s) {a : Nat} {w : Word} {inTime : Bool} :
    Keeps s0 (feltWrite a w inTime s) := by
  unfold feltWrite
  refine Keeps.ite ?_ ?_
  · split
    · rename_i x0 e1
      exact keeps_State_onFelt ‹_›
    rename_i x2 x3 e4
    exact keeps_shadowReject ‹_›
  refine Keeps.ite ?_ ?_
  · split
    · rename_i x5 x6 x7 e8
      refine Keeps.ite ?_ ?_
      · exact keeps_feltPost (keeps_State_onFelt ‹_›)
      exact keeps_shadowReject ‹_›
    rename_i x9 e10
    exact keeps_shadowReject ‹_›
  exact keeps_feltPost (keeps_State_onFelt ‹_›)

theorem keeps_feltFreshRegs {s0 s : State} (hk : Keeps s0 s) : Keeps s0 (feltFreshRegs s) := by
  refine hk.trans ⟨rfl, Nat.le_refl _, ?_, id, Fuse_grows_refl _⟩
  simp only [Memory.wf, feltFreshRegs, Bool.and_eq_true]
  exact fun ⟨⟨hr, hm⟩, hh⟩ => ⟨⟨swf_filter _ _ _ hr, hm⟩, hh⟩

theorem keeps_supplySwitch {s0 s : State} (hk : Keeps s0 s) {toVbat : Bool} :
    Keeps s0 (supplySwitch toVbat s) := by
  unfold supplySwitch
  refine Keeps.ite ?_ ?_
  · assumption
  exact keeps_State_fresh (keeps_State_onFelt ‹_›)

theorem keeps_tripOn {s0 s : State} (hk : Keeps s0 s) {src : Nat} :
    Keeps s0 (tripOn src s) := by
  unfold tripOn
  refine Keeps.ite ?_ ?_
  · assumption
  exact keeps_tamperEvent (keeps_setSrc ‹_›)

theorem keeps_cellEvent {s0 s : State} (hk : Keeps s0 s) : Keeps s0 (cellEvent s) := by
  unfold cellEvent
  exact keeps_tripOn (keeps_feltSticky (keeps_State_raise ‹_›))

theorem keeps_cellPersists {s0 s : State} (hk : Keeps s0 s) {src : Nat} : Keeps s0 (cellPersists src s) := by
  unfold cellPersists
  exact Keeps.ite (keeps_cellEvent hk) hk

theorem keeps_cellOut {s0 s : State} (hk : Keeps s0 s) :
    Keeps s0 (cellOut s) := by
  unfold cellOut
  refine Keeps.ite ?_ ?_
  · assumption
  extract_lets +onlyGivenNames v0
  refine cut (P := Keeps s0 v0) ?_ fun k1 => ?_
  · unfold v0
    exact keeps_State_onFelt ‹_›
  clear_value v0
  exact Keeps.ite ‹_› (keeps_cellEvent ‹_›)

theorem keeps_tripOff {s0 s : State} (hk : Keeps s0 s) {src : Nat} :
    Keeps s0 (tripOff src s) := by
  unfold tripOff
  exact keeps_setSrc ‹_›

theorem keeps_xrtcWindow {s0 s : State} (hk : Keeps s0 s) {count : Nat} :
    Keeps s0 (xrtcWindow count s) := by
  unfold xrtcWindow
  refine Keeps.ite ?_ ?_
  · assumption
  refine Keeps.ite ?_ ?_
  · refine Keeps.ite ?_ ?_
    · assumption
    exact keeps_tripOn (keeps_feltSticky (keeps_State_onFelt ‹_›))
  exact keeps_tripOff (keeps_State_onFelt ‹_›)

theorem keeps_filterSample {s0 s : State} (hk : Keeps s0 s) {src : Nat} {filter : Nat} {abnormal : Bool} :
    Keeps s0 (filterSample src filter abnormal s) := by
  unfold filterSample
  extract_lets +onlyGivenNames v0
  clear_value v0
  extract_lets +onlyGivenNames v1
  clear_value v1
  refine Keeps.ite ?_ ?_
  · extract_lets +onlyGivenNames v2
    clear_value v2
    extract_lets +onlyGivenNames v3
    refine cut (P := Keeps s0 v3) ?_ fun k4 => ?_
    · unfold v3
      exact keeps_setSrc ‹_›
    clear_value v3
    refine Keeps.ite ?_ ?_
    · exact keeps_tripOn ‹_›
    assumption
  extract_lets +onlyGivenNames v5
  clear_value v5
  exact keeps_setSrc ‹_›

theorem keeps_pinSample {s0 s : State} (hk : Keeps s0 s) {k : Nat} {level : Bool} :
    Keeps s0 (pinSample k level s) := by
  unfold pinSample
  refine Keeps.ite ?_ ?_
  · assumption
  extract_lets +onlyGivenNames v0
  clear_value v0
  extract_lets +onlyGivenNames v1
  clear_value v1
  split
  · rename_i x2 e3
    exact keeps_filterSample ‹_›
  · rename_i x4 e5
    exact keeps_filterSample ‹_›
  · rename_i x6 e7
    extract_lets +onlyGivenNames v8
    clear_value v8
    exact keeps_filterSample (keeps_setSrc ‹_›)
  · rename_i x9 e10
    refine Keeps.ite ?_ ?_
    · extract_lets +onlyGivenNames v11
      clear_value v11
      exact keeps_filterSample (keeps_setSrc ‹_›)
    assumption
  rename_i x12 e13 e14 e15 e16
  assumption

theorem keeps_tamperSample {s0 s : State} (hk : Keeps s0 s) {src : Nat} {v : Bool} :
    Keeps s0 (tamperSample src v s) := by
  unfold tamperSample
  refine Keeps.ite ?_ ?_
  · assumption
  refine Keeps.ite ?_ ?_
  · exact keeps_pinSample ‹_›
  refine Keeps.ite ?_ ?_
  · extract_lets +onlyGivenNames v0
    refine cut (P := Keeps s0 v0) ?_ fun k1 => ?_
    · unfold v0
      exact keeps_State_onFelt ‹_›
    clear_value v0
    extract_lets +onlyGivenNames v2
    refine cut (P := Keeps s0 v2) ?_ fun k3 => ?_
    · unfold v2
      refine Keeps.ite ?_ ?_
      · refine Keeps.ite ?_ ?_
        · exact keeps_fieldOn ‹_›
        assumption
      assumption
    clear_value v2
    exact keeps_filterSample ‹_›
  assumption

theorem keeps_setFreq {s0 s : State} (hk : Keeps s0 s) {v : Int} :
    Keeps s0 (setFreq v s) := by
  unfold setFreq
  exact keeps_State_wr ‹_›

theorem keeps_alarm {s0 s : State} (hk : Keeps s0 s) :
    Keeps s0 (alarm s) := by
  unfold alarm
  refine Keeps.ite ?_ ?_
  · exact keeps_State_raise ‹_›
  assumption

theorem keeps_ppsAdjust {s0 s : State} (hk : Keeps s0 s) {e : Int} :
    Keeps s0 (ppsAdjust e s) := by
  unfold ppsAdjust
  extract_lets +onlyGivenNames v0
  clear_value v0
  extract_lets +onlyGivenNames v1
  clear_value v1
  exact keeps_setAdj (keeps_setFreq ‹_›)

theorem keeps_leapSecond {s0 s : State} (hk : Keeps s0 s) :
    Keeps s0 (leapSecond s) := by
  unfold leapSecond
  extract_lets +onlyGivenNames v0
  clear_value v0
  refine Keeps.ite ?_ ?_
  · assumption
  extract_lets +onlyGivenNames v1
  clear_value v1
  extract_lets +onlyGivenNames v2
  refine cut (P := Keeps s0 v2) ?_ fun k3 => ?_
  · unfold v2
    exact keeps_State_wr (keeps_State_wr64 ‹_›)
  clear_value v2
  refine Keeps.ite ?_ ?_
  · exact keeps_timemap ‹_›
  assumption

theorem keeps_adjCycle {s0 s : State} (hk : Keeps s0 s) :
    Keeps s0 (adjCycle s) := by
  unfold adjCycle
  extract_lets +onlyGivenNames v0
  clear_value v0
  refine Keeps.ite ?_ ?_
  · extract_lets +onlyGivenNames v1
    clear_value v1
    refine Keeps.ite ?_ ?_
    · exact keeps_setAdj (keeps_State_onFelt ‹_›)
    exact keeps_setAdj (keeps_State_onFelt ‹_›)
  refine Keeps.ite ?_ ?_
  · assumption
  exact keeps_setAdj ‹_›

theorem keeps_xrtcCycle {s0 s : State} (hk : Keeps s0 s) :
    Keeps s0 (xrtcCycle s) := by
  unfold xrtcCycle
  refine Keeps.ite ?_ ?_
  · assumption
  extract_lets +onlyGivenNames v0
  refine cut (P := Keeps s0 v0) ?_ fun k1 => ?_
  · unfold v0
    exact keeps_adjCycle ‹_›
  clear_value v0
  extract_lets +onlyGivenNames v2
  clear_value v2
  extract_lets +onlyGivenNames v3
  clear_value v3
  extract_lets +onlyGivenNames v4
  clear_value v4
  extract_lets +onlyGivenNames v5
  refine cut (P := Keeps s0 v5) ?_ fun k6 => ?_
  · unfold v5
    exact keeps_State_onFelt ‹_›
  clear_value v5
  extract_lets +onlyGivenNames v7
  refine cut (P := Keeps s0 v7) ?_ fun k8 => ?_
  · unfold v7
    refine Keeps.ite ?_ ?_
    · assumption
    exact keeps_alarm (keeps_State_onFelt ‹_›)
  clear_value v7
  extract_lets +onlyGivenNames v9
  refine cut (P := Keeps s0 v9) ?_ fun k10 => ?_
  · unfold v9
    refine Keeps.ite ?_ ?_
    · exact keeps_leapSecond ‹_›
    assumption
  clear_value v9
  exact keeps_shadowCheck ‹_›

theorem keeps_glitch {s0 s : State} (hk : Keeps s0 s) :
    Keeps s0 (glitch s) := by
  unfold glitch
  refine Keeps.ite ?_ ?_
  · assumption
  exact keeps_tripOff (keeps_tripOn ‹_›)

theorem keeps_tbistDone {s0 s : State} (hk : Keeps s0 s) {pass : Bool} :
    Keeps s0 (tbistDone pass s) := by
  unfold tbistDone
  split
  · rename_i x0 e1
    assumption
  rename_i x2 x3 e4
  extract_lets +onlyGivenNames v5
  refine cut (P := Keeps s0 v5) ?_ fun k6 => ?_
  · unfold v5
    exact keeps_State_setFlag (keeps_State_setFlag ‹_›)
  clear_value v5
  extract_lets +onlyGivenNames v7
  refine cut (P := Keeps s0 v7) ?_ fun k8 => ?_
  · unfold v7
    exact keeps_setSrc (keeps_State_onFelt ‹_›)
  clear_value v7
  extract_lets +onlyGivenNames v9
  refine cut (P := Keeps s0 v9) ?_ fun k10 => ?_
  · unfold v9
    exact keeps_State_raise (keeps_feltLog ‹_›)
  clear_value v9
  refine keeps_cellPersists (Keeps.ite ?_ ?_)
  · assumption
  exact keeps_feltSticky ‹_›

theorem keeps_ppsLock {s0 s : State} (hk : Keeps s0 s) :
    Keeps s0 (ppsLock s) := by
  unfold ppsLock
  extract_lets +onlyGivenNames v0
  clear_value v0
  refine Keeps.ite ?_ ?_
  · exact keeps_setDisc ‹_›
  assumption

theorem keeps_ppsEdge {s0 s : State} (hk : Keeps s0 s) {cap : Nat} :
    Keeps s0 (ppsEdge cap s) := by
  unfold ppsEdge
  refine Keeps.ite ?_ ?_
  · assumption
  extract_lets +onlyGivenNames v0
  clear_value v0
  extract_lets +onlyGivenNames v1
  refine cut (P := Keeps s0 v1) ?_ fun k2 => ?_
  · unfold v1
    exact keeps_State_raise (keeps_State_wr ‹_›)
  clear_value v1
  refine Keeps.ite ?_ ?_
  · assumption
  refine Keeps.ite ?_ ?_
  · extract_lets +onlyGivenNames v4
    refine cut (P := Keeps s0 v4) ?_ fun k5 => ?_
    · unfold v4
      exact keeps_State_onFelt ‹_›
    clear_value v4
    exact keeps_ppsLock (keeps_ppsAdjust ‹_›)
  exact keeps_ppsOutlier ‹_›

theorem keeps_ppsLoss {s0 s : State} (hk : Keeps s0 s) :
    Keeps s0 (ppsLoss s) := by
  unfold ppsLoss
  extract_lets +onlyGivenNames v0
  clear_value v0
  refine Keeps.ite ?_ ?_
  · exact keeps_setDisc (keeps_State_onFelt ‹_›)
  assumption

end Sys2Proof.Laws
end

