-- ==== Sys2Proof/Laws/KeepsBoot.lean ====
section
/-!
SUPPORT. What every operation of Machine/Boot.lean keeps (`Keeps`, Laws/Keeps.lean).
-/

namespace Sys2Proof.Laws

open Sys2Proof.Machine

theorem keeps_fuseProgramAll {s0 a2 : State} (hk : Keeps s0 a2) {a1 : List (Nat × Word)} :
    Keeps s0 (fuseProgramAll a1 a2) := by
  induction a1 generalizing a2
  · unfold fuseProgramAll
    assumption
  · rename_i hd tl ih
    unfold fuseProgramAll
    exact ih (keeps_fuseProgram ‹_›)

theorem keeps_sealOne {s0 a3 : State} (hk : Keeps s0 a3) {c : Nat} {a2 : Nat} :
    Keeps s0 (sealOne c a2 a3) := by
  induction a2 generalizing a3
  · unfold sealOne
    assumption
  · rename_i n ih
    unfold sealOne
    exact ih (keeps_stripeRecordWritten ‹_›)

theorem keeps_sealAll {s0 s : State} (hk : Keeps s0 s) :
    Keeps s0 (sealAll s) := by
  unfold sealAll
  refine Keeps.foldl ?_ fun t0 x1 k2 => ?_
  · assumption
  exact keeps_sealOne ‹_›

theorem keeps_preResetClose {s0 s : State} (hk : Keeps s0 s) :
    Keeps s0 (preResetClose s) := by
  unfold preResetClose
  extract_lets +onlyGivenNames v0
  refine cut (P := Keeps s0 v0) ?_ fun k1 => ?_
  · unfold v0
    exact keeps_State_onPower ‹_›
  clear_value v0
  exact keeps_timeckNow (keeps_sealAll (keeps_closeAll ‹_›))

theorem keeps_resetRequest {s0 s : State} (hk : Keeps s0 s) {cause : Nat} :
    Keeps s0 (resetRequest cause s) := by
  unfold resetRequest
  refine Keeps.ite ?_ ?_
  · exact keeps_assertReset ‹_›
  exact keeps_assertReset (keeps_preResetClose ‹_›)

theorem keeps_lifecycleAdvance {s0 s : State} (hk : Keeps s0 s) {target : Nat} :
    Keeps s0 (lifecycleAdvance target s).2 := by
  unfold lifecycleAdvance
  refine Keeps.iteSnd ?_ ?_
  · exact Keeps.pair ‹_›
  refine Keeps.iteSnd ?_ ?_
  · exact Keeps.pair ‹_›
  exact Keeps.pair (keeps_resetRequest (keeps_fuseProgramAll ‹_›))

theorem keeps_prefPut {s0 s : State} (hk : Keeps s0 s) {p : Pref} :
    Keeps s0 (prefPut p s) := by
  unfold prefPut
  extract_lets +onlyGivenNames v0
  clear_value v0
  extract_lets +onlyGivenNames v1
  clear_value v1
  extract_lets +onlyGivenNames v2
  refine cut (P := Keeps s0 v2) ?_ fun k3 => ?_
  · unfold v2
    refine Keeps.ite ?_ ?_
    · exact keeps_State_onBoot ‹_›
    exact keeps_State_onBoot ‹_›
  clear_value v2
  exact keeps_State_wr ‹_›

theorem keeps_fwCommit {s0 s : State} (hk : Keeps s0 s) :
    Keeps s0 (fwCommit s).2 := by
  unfold fwCommit
  refine Keeps.iteSnd ?_ ?_
  · exact Keeps.pair ‹_›
  extract_lets +onlyGivenNames v0
  clear_value v0
  split
  · rename_i x1 e2
    exact Keeps.pair (keeps_prefPut ‹_›)
  · rename_i x3 e4
    exact Keeps.pair ‹_›
  · rename_i x5 e6
    exact Keeps.pair ‹_›
  · rename_i x7 e8
    exact Keeps.pair ‹_›
  rename_i x9 e10 e11 e12 e13
  exact Keeps.pair ‹_›

theorem keeps_trialStep {s0 s : State} (hk : Keeps s0 s) :
    Keeps s0 (trialStep s) := by
  unfold trialStep
  extract_lets +onlyGivenNames v0
  clear_value v0
  refine Keeps.ite ?_ ?_
  · assumption
  refine Keeps.ite ?_ ?_
  · exact keeps_State_setFlag (keeps_prefPut ‹_›)
  exact keeps_prefPut ‹_›

theorem keeps_enterRecovery {s0 s : State} (hk : Keeps s0 s) :
    Keeps s0 (enterRecovery s) := by
  unfold enterRecovery
  extract_lets +onlyGivenNames v0
  refine cut (P := Keeps s0 v0) ?_ fun k1 => ?_
  · unfold v0
    exact keeps_State_setFlag ‹_›
  clear_value v0
  extract_lets +onlyGivenNames v2
  refine cut (P := Keeps s0 v2) ?_ fun k3 => ?_
  · unfold v2
    exact keeps_State_onBoot ‹_›
  clear_value v2
  refine Keeps.onSergeSame ?_ (fun _ => rfl) (fun _ => rfl) (fun _ => rfl) (fun _ => rfl)
  assumption

theorem keeps_runImage {s0 s : State} (hk : Keeps s0 s) {h : Bytes} {img : Bytes} :
    Keeps s0 (runImage h img s) := by
  unfold runImage
  extract_lets +onlyGivenNames v0
  refine cut (P := Keeps s0 v0) ?_ fun k1 => ?_
  · unfold v0
    exact keeps_State_store ‹_›
  clear_value v0
  extract_lets +onlyGivenNames v2
  refine cut (P := Keeps s0 v2) ?_ fun k3 => ?_
  · unfold v2
    exact keeps_State_onBoot ‹_›
  clear_value v2
  refine Keeps.onSergeSame ?_ (fun _ => rfl) (fun _ => rfl) (fun _ => rfl) (fun _ => rfl)
  assumption

theorem keeps_romBoot {s0 s : State} (hk : Keeps s0 s) {straps : Nat} :
    Keeps s0 (romBoot straps s) := by
  unfold romBoot
  extract_lets +onlyGivenNames v0
  refine cut (P := Keeps s0 v0) ?_ fun k1 => ?_
  · unfold v0
    exact keeps_State_setFld ‹_›
  clear_value v0
  extract_lets +onlyGivenNames v2
  refine cut (P := Keeps s0 v2) ?_ fun k3 => ?_
  · unfold v2
    exact keeps_State_setFlag (keeps_State_setFlag ‹_›)
  clear_value v2
  extract_lets +onlyGivenNames v4
  clear_value v4
  extract_lets +onlyGivenNames v5
  refine cut (P := Keeps s0 v5) ?_ fun k6 => ?_
  · unfold v5
    exact keeps_trialStep ‹_›
  clear_value v5
  extract_lets +onlyGivenNames v7
  clear_value v7
  extract_lets +onlyGivenNames v8
  refine cut (P := Keeps s0 v8) ?_ fun k9 => ?_
  · unfold v8
    exact keeps_State_setFld (keeps_State_setFlag ‹_›)
  clear_value v8
  extract_lets +onlyGivenNames v10
  refine cut (P := Keeps s0 v10) ?_ fun k11 => ?_
  · unfold v10
    exact keeps_State_wr ‹_›
  clear_value v10
  refine Keeps.ite ?_ ?_
  · exact keeps_enterRecovery ‹_›
  split
  · rename_i x12 x13 e14
    exact keeps_runImage (keeps_State_setFlag ‹_›)
  rename_i x15 e16
  exact keeps_enterRecovery ‹_›

theorem keeps_ospiStat {s0 s : State} (hk : Keeps s0 s) :
    Keeps s0 (ospiStat s) := by
  unfold ospiStat
  exact keeps_State_wr ‹_›

theorem keeps_fwOffset {s0 s : State} (hk : Keeps s0 s) {v : Nat} :
    Keeps s0 (fwOffset v s).2 := by
  unfold fwOffset
  refine Keeps.iteSnd ?_ ?_
  · exact Keeps.pair ‹_›
  refine Keeps.iteSnd ?_ ?_
  · exact Keeps.pair (keeps_ospiStat (keeps_State_onBoot ‹_›))
  refine Keeps.iteSnd ?_ ?_
  · exact Keeps.pair ‹_›
  exact Keeps.pair (keeps_State_onBoot ‹_›)

theorem keeps_fwChunk {s0 s : State} (hk : Keeps s0 s) {data : Bytes} :
    Keeps s0 (fwChunk data s).2 := by
  unfold fwChunk
  extract_lets +onlyGivenNames v0
  clear_value v0
  extract_lets +onlyGivenNames v1
  clear_value v1
  refine Keeps.iteSnd ?_ ?_
  · exact Keeps.pair ‹_›
  refine Keeps.iteSnd ?_ ?_
  · exact Keeps.pair ‹_›
  refine Keeps.iteSnd ?_ ?_
  · exact Keeps.pair ‹_›
  exact Keeps.pair (keeps_ospiStat (keeps_State_onBoot ‹_›))

theorem keeps_debugResponse {s0 s : State} (hk : Keeps s0 s) {sig : Bytes} :
    Keeps s0 (debugResponse sig s).2 := by
  unfold debugResponse
  refine Keeps.iteSnd ?_ ?_
  · exact Keeps.pair ‹_›
  refine Keeps.iteSnd ?_ ?_
  · extract_lets +onlyGivenNames v0
    refine cut (P := Keeps s0 v0) ?_ fun k1 => ?_
    · unfold v0
      exact keeps_epochRequest (keeps_State_onBoot ‹_›)
    clear_value v0
    extract_lets +onlyGivenNames v2
    refine cut (P := Keeps s0 v2) ?_ fun k3 => ?_
    · unfold v2
      exact keeps_State_setFlag (keeps_State_onBoot ‹_›)
    clear_value v2
    exact Keeps.pair (keeps_setSticky ‹_›)
  exact Keeps.pair (keeps_State_setFld (keeps_State_onBoot ‹_›))

theorem keeps_debugChallenge {s0 s : State} (hk : Keeps s0 s) :
    Keeps s0 (debugChallenge s).2.2 := by
  unfold debugChallenge
  split
  · exact Keeps.pair2 ‹_›
  split
  · rename_i e0 x1 x2 x3 e4
    refine cut (P := Keeps s0 x3) ?_ fun k5 => ?_
    · exact Keeps.snd e4 (keeps_drbgNow (keeps_State_onBoot ‹_›))
    exact Keeps.pair2 (keeps_State_onBoot ‹_›)
  rename_i e6 x7 x8 e9
  refine cut (P := Keeps s0 x8) ?_ fun k10 => ?_
  · exact Keeps.snd e9 (keeps_drbgNow (keeps_State_onBoot ‹_›))
  exact Keeps.pair2 ‹_›

theorem keeps_fuseCode {s0 s : State} (hk : Keeps s0 s) {code : Nat} :
    Keeps s0 (fuseCode code s) := by
  unfold fuseCode
  exact keeps_State_wr ‹_›

theorem keeps_fuseBegin {s0 s : State} (hk : Keeps s0 s) {op : Nat} {addr : Nat} {words : List (Nat × Word)} :
    Keeps s0 (fuseBegin op addr words s) := by
  unfold fuseBegin
  extract_lets +onlyGivenNames v0
  refine cut (P := Keeps s0 v0) ?_ fun k1 => ?_
  · unfold v0
    refine Keeps.onFuse ?_ (fun _ => rfl)
    assumption
  clear_value v0
  exact keeps_State_setFlag (keeps_State_wr ‹_›)

theorem keeps_fuseStart {s0 s : State} (hk : Keeps s0 s) {op : Nat} {addr : Nat} {data : Word} {temp : Int} :
    Keeps s0 (fuseStart op addr data temp s) := by
  unfold fuseStart
  refine Keeps.ite ?_ ?_
  · assumption
  extract_lets +onlyGivenNames v0
  clear_value v0
  refine Keeps.ite ?_ ?_
  · exact keeps_fuseCode ‹_›
  refine Keeps.ite ?_ ?_
  · exact keeps_fuseBegin ‹_›
  refine Keeps.ite ?_ ?_
  · exact keeps_fuseBegin ‹_›
  refine Keeps.ite ?_ ?_
  · exact keeps_fuseBegin ‹_›
  split
  · rename_i x1 x2 x3 e4
    refine cut (P := Keeps s0 x3) ?_ fun k5 => ?_
    · exact Keeps.snd e4 (keeps_drbgNow ‹_›)
    exact keeps_fuseBegin ‹_›
  rename_i x6 x7 e8
  refine cut (P := Keeps s0 x7) ?_ fun k9 => ?_
  · exact Keeps.snd e8 (keeps_drbgNow ‹_›)
  exact keeps_fuseCode ‹_›

theorem keeps_progCmd {s0 s : State} (hk : Keeps s0 s) {w : Word} {temp : Int} :
    Keeps s0 (progCmd w temp s) := by
  unfold progCmd
  refine Keeps.ite ?_ ?_
  · exact keeps_State_setFld ‹_›
  exact keeps_fuseStart ‹_›

theorem keeps_confirm {s0 s : State} (hk : Keeps s0 s) {key : Nat} {temp : Int} :
    Keeps s0 (confirm key temp s) := by
  unfold confirm
  refine Keeps.ite ?_ ?_
  · assumption
  extract_lets +onlyGivenNames v0
  clear_value v0
  extract_lets +onlyGivenNames v1
  clear_value v1
  extract_lets +onlyGivenNames v2
  refine cut (P := Keeps s0 v2) ?_ fun k3 => ?_
  · unfold v2
    exact keeps_prefPut ‹_›
  clear_value v2
  extract_lets +onlyGivenNames v4
  refine cut (P := Keeps s0 v4) ?_ fun k5 => ?_
  · unfold v4
    exact keeps_State_setFlag ‹_›
  clear_value v4
  refine Keeps.ite ?_ ?_
  · exact keeps_fuseStart ‹_›
  assumption

theorem keeps_certGo {s0 s : State} (hk : Keeps s0 s) :
    Keeps s0 (certGo s) := by
  unfold certGo
  extract_lets +onlyGivenNames v0
  clear_value v0
  extract_lets +onlyGivenNames v1
  clear_value v1
  extract_lets +onlyGivenNames v2
  clear_value v2
  refine Keeps.ite ?_ ?_
  · exact keeps_State_wr ‹_›
  extract_lets +onlyGivenNames v3
  clear_value v3
  extract_lets +onlyGivenNames v4
  clear_value v4
  extract_lets +onlyGivenNames v5
  refine cut (P := Keeps s0 v5) ?_ fun k6 => ?_
  · unfold v5
    exact keeps_fuseProgramAll (keeps_State_onBoot ‹_›)
  clear_value v5
  exact keeps_State_wr ‹_›

theorem keeps_flashTorn {s0 s : State} (hk : Keeps s0 s) :
    Keeps s0 (flashTorn s) := by
  unfold flashTorn
  split
  · rename_i x0 e1
    assumption
  · rename_i x2 x3 e4
    exact keeps_State_fresh (keeps_State_onBoot ‹_›)
  rename_i x5 x6 x7 e8
  exact keeps_State_fresh (keeps_State_onBoot ‹_›)

theorem keeps_noteMarginal {s0 s : State} (hk : Keeps s0 s) {k : Nat} :
    Keeps s0 (noteMarginal k s) := by
  unfold noteMarginal
  extract_lets +onlyGivenNames v0
  refine cut (P := Keeps s0 v0) ?_ fun k1 => ?_
  · unfold v0
    refine Keeps.ite ?_ ?_
    · exact keeps_State_setFld ‹_›
    assumption
  clear_value v0
  extract_lets +onlyGivenNames v2
  refine cut (P := Keeps s0 v2) ?_ fun k3 => ?_
  · unfold v2
    exact keeps_State_incFld ‹_›
  clear_value v2
  exact keeps_setSticky ‹_›

theorem keeps_noteData {s0 s : State} (hk : Keeps s0 s) {p : Nat} :
    Keeps s0 (noteData p s) := by
  unfold noteData
  extract_lets +onlyGivenNames v0
  clear_value v0
  extract_lets +onlyGivenNames v1
  refine cut (P := Keeps s0 v1) ?_ fun k2 => ?_
  · unfold v1
    refine Keeps.ite ?_ ?_
    · exact keeps_State_setFlag ‹_›
    assumption
  clear_value v1
  refine Keeps.ite ?_ ?_
  · exact keeps_setSticky (keeps_State_setFlag ‹_›)
  assumption

theorem keeps_fuseSense {s0 s : State} (hk : Keeps s0 s) {l : List Sense} {temp : Int} :
    Keeps s0 (fuseSense l temp s) := by
  unfold fuseSense
  extract_lets +onlyGivenNames v0
  clear_value v0
  extract_lets +onlyGivenNames v1
  clear_value v1
  extract_lets +onlyGivenNames v2
  clear_value v2
  extract_lets +onlyGivenNames v3
  clear_value v3
  extract_lets +onlyGivenNames v4
  refine cut (P := Keeps s0 v4) ?_ fun k5 => ?_
  · unfold v4
    refine Keeps.onFuse ?_ (fun _ => rfl)
    assumption
  clear_value v4
  extract_lets +onlyGivenNames v6
  refine cut (P := Keeps s0 v6) ?_ fun k7 => ?_
  · unfold v6
    refine Keeps.foldl ?_ fun t8 x9 k10 => ?_
    · assumption
    exact keeps_State_wr ‹_›
  clear_value v6
  extract_lets +onlyGivenNames v11
  refine cut (P := Keeps s0 v11) ?_ fun k12 => ?_
  · unfold v11
    refine Keeps.foldl ?_ fun t13 x14 k15 => ?_
    · assumption
    exact keeps_State_wr ‹_›
  clear_value v11
  extract_lets +onlyGivenNames v16
  refine cut (P := Keeps s0 v16) ?_ fun k17 => ?_
  · unfold v16
    exact keeps_State_wr ‹_›
  clear_value v16
  extract_lets +onlyGivenNames v18
  refine cut (P := Keeps s0 v18) ?_ fun k19 => ?_
  · unfold v18
    exact keeps_State_wr ‹_›
  clear_value v18
  extract_lets +onlyGivenNames v20
  refine cut (P := Keeps s0 v20) ?_ fun k21 => ?_
  · unfold v20
    refine Keeps.foldl ?_ fun t22 x23 k24 => ?_
    · assumption
    exact keeps_noteMarginal ‹_›
  clear_value v20
  refine Keeps.foldl ?_ fun t25 x26 k27 => ?_
  · assumption
  exact keeps_noteData ‹_›

theorem keeps_certCheck {s0 s : State} (hk : Keeps s0 s) :
    Keeps s0 (certCheck s) := by
  unfold certCheck
  refine Keeps.ite ?_ ?_
  · exact keeps_State_onBoot ‹_›
  exact keeps_setSticky (keeps_State_onBoot ‹_›)

theorem keeps_recoveryBlock {s0 s : State} (hk : Keeps s0 s) {data : Bytes} {crcOk : Bool} :
    Keeps s0 (recoveryBlock data crcOk s) := by
  unfold recoveryBlock
  refine Keeps.ite ?_ ?_
  · assumption
  refine Keeps.ite ?_ ?_
  · exact keeps_State_onBoot ‹_›
  extract_lets +onlyGivenNames v0
  clear_value v0
  extract_lets +onlyGivenNames v1
  refine cut (P := Keeps s0 v1) ?_ fun k2 => ?_
  · unfold v1
    exact keeps_State_onBoot ‹_›
  clear_value v1
  extract_lets +onlyGivenNames v3
  clear_value v3
  refine Keeps.ite ?_ ?_
  · assumption
  refine Keeps.ite ?_ ?_
  · exact keeps_State_onBoot ‹_›
  refine Keeps.ite ?_ ?_
  · assumption
  extract_lets +onlyGivenNames v4
  clear_value v4
  refine Keeps.ite ?_ ?_
  · exact keeps_runImage (keeps_State_setFlag ‹_›)
  exact keeps_State_onBoot ‹_›

theorem keeps_fuseResense {s0 s : State} (hk : Keeps s0 s) {l : List Sense} {temp : Int} :
    Keeps s0 (fuseResense l temp s) := by
  unfold fuseResense
  extract_lets +onlyGivenNames v0
  clear_value v0
  refine Keeps.ite ?_ ?_
  · assumption
  extract_lets +onlyGivenNames v1
  refine cut (P := Keeps s0 v1) ?_ fun k2 => ?_
  · unfold v1
    exact keeps_State_wr ‹_›
  clear_value v1
  extract_lets +onlyGivenNames v3
  clear_value v3
  extract_lets +onlyGivenNames v4
  clear_value v4
  split
  · rename_i x5 e6
    assumption
  rename_i x7 x8 e9
  extract_lets +onlyGivenNames v10
  refine cut (P := Keeps s0 v10) ?_ fun k11 => ?_
  · unfold v10
    exact keeps_State_setFlag ‹_›
  clear_value v10
  extract_lets +onlyGivenNames v12
  refine cut (P := Keeps s0 v12) ?_ fun k13 => ?_
  · unfold v12
    refine Keeps.ite ?_ ?_
    · assumption
    exact keeps_State_wr ‹_›
  clear_value v12
  exact keeps_setSticky ‹_›

theorem keeps_ospiDone {s0 s : State} (hk : Keeps s0 s) :
    Keeps s0 (ospiDone s) := by
  unfold ospiDone
  split
  · rename_i x0 e1
    assumption
  · rename_i x2 x3 e4
    exact keeps_ospiStat (keeps_State_onBoot ‹_›)
  rename_i x5 x6 x7 e8
  exact keeps_ospiStat (keeps_State_onBoot ‹_›)

theorem keeps_fuseDone {s0 s : State} (hk : Keeps s0 s) {good : Nat} {part : Word} :
    Keeps s0 (fuseDone good part s) := by
  unfold fuseDone
  split
  · rename_i x0 e1
    assumption
  rename_i x2 x3 e4
  extract_lets +onlyGivenNames v5
  refine cut (P := Keeps s0 v5) ?_ fun k6 => ?_
  · unfold v5
    exact keeps_fuseProgramAll ‹_›
  clear_value v5
  extract_lets +onlyGivenNames v7
  clear_value v7
  extract_lets +onlyGivenNames v8
  refine cut (P := Keeps s0 v8) ?_ fun k9 => ?_
  · unfold v8
    split
    · rename_i x10 x11 x12
      exact keeps_fuseProgram ‹_›
    rename_i x13
    assumption
  clear_value v8
  extract_lets +onlyGivenNames v14
  refine cut (P := Keeps s0 v14) ?_ fun k15 => ?_
  · unfold v14
    refine keeps_State_setFlag ?_
    refine Keeps.onFuse ?_ (fun _ => rfl)
    assumption
  clear_value v14
  refine Keeps.ite ?_ ?_
  · exact keeps_fuseCode ‹_›
  refine Keeps.ite ?_ ?_
  · exact keeps_State_setFlag ‹_›
  exact keeps_setSticky (keeps_fuseCode ‹_›)

end Sys2Proof.Laws
end

