-- ==== Sys2Proof/Laws/KeepsCanvas.lean ====
section
/-!
SUPPORT. What every operation of Machine/Canvas.lean keeps (`Keeps`, Laws/Keeps.lean).
-/

namespace Sys2Proof.Laws

open Sys2Proof.Machine

theorem keeps_calOpenAction {s0 s : State} (hk : Keeps s0 s) {cls : Nat} {lf : LaneFails} :
    Keeps s0 (calOpenAction cls lf s) := by
  unfold calOpenAction
  extract_lets +onlyGivenNames v0
  clear_value v0
  extract_lets +onlyGivenNames v1
  refine cut (P := Keeps s0 v1) ?_ fun k2 => ?_
  · unfold v1
    exact keeps_State_onCanvas ‹_›
  clear_value v1
  refine Keeps.ite ?_ ?_
  · exact keeps_ldpcTest (keeps_calLaneTest (keeps_calLaneTest ‹_›))
  assumption

theorem keeps_irqAction {s0 s : State} (hk : Keeps s0 s) {n : Nat} :
    Keeps s0 (irqAction n s) := by
  unfold irqAction
  refine Keeps.ite ?_ ?_
  · assumption
  refine Keeps.ite ?_ ?_
  · refine Keeps.ite ?_ ?_
    · exact keeps_State_onCanvas ‹_›
    exact keeps_State_incFld ‹_›
  exact keeps_State_raise ‹_›

theorem keeps_pulse {s0 s : State} (hk : Keeps s0 s) {n : Nat} :
    Keeps s0 (pulse n s) := by
  unfold pulse
  exact keeps_State_onCanvas ‹_›

theorem keeps_pulseAction {s0 s : State} (hk : Keeps s0 s) {n : Nat} :
    Keeps s0 (pulseAction n s) := by
  unfold pulseAction
  refine Keeps.ite ?_ ?_
  · refine Keeps.ite ?_ ?_
    · exact keeps_pulse ‹_›
    assumption
  refine Keeps.ite ?_ ?_
  · exact keeps_pulse ‹_›
  assumption

theorem keeps_slotAction {s0 s : State} (hk : Keeps s0 s) {x : Slot} {lf : LaneFails} :
    Keeps s0 (slotAction x lf s) := by
  unfold slotAction
  split
  · rename_i x0 e1
    exact keeps_closeAll ‹_›
  · rename_i x2 e3
    exact keeps_anchorRequest ‹_›
  · rename_i x4 e5
    exact keeps_ckRequest ‹_›
  · rename_i x6 e7
    exact keeps_State_onCanvas ‹_›
  · rename_i x8 e9
    exact keeps_State_onCanvas ‹_›
  · rename_i x10 e11
    exact keeps_calOpenAction ‹_›
  · rename_i x12 e13
    exact keeps_State_onCanvas ‹_›
  · rename_i x14 e15
    exact keeps_commitPoint ‹_›
  · rename_i x16 e17
    exact keeps_epochRequest ‹_›
  · rename_i x18 e19
    exact keeps_irqAction ‹_›
  · rename_i x20 e21
    exact keeps_pulseAction ‹_›
  rename_i x22 e23 e24 e25 e26 e27 e28 e29 e30 e31 e32 e33
  assumption

theorem keeps_runActions {s0 a3 : State} (hk : Keeps s0 a3) {lf : LaneFails} {a2 : List Slot} :
    Keeps s0 (runActions lf a2 a3) := by
  induction a2 generalizing a3
  · unfold runActions
    assumption
  · rename_i hd tl ih
    unfold runActions
    exact ih (keeps_slotAction ‹_›)

theorem keeps_fireSlots {s0 s : State} (hk : Keeps s0 s) {p : SlotState → Bool} {lf : LaneFails} :
    Keeps s0 (fireSlots p lf s) := by
  unfold fireSlots
  refine Keeps.ite ?_ ?_
  · assumption
  extract_lets +onlyGivenNames v0
  clear_value v0
  extract_lets +onlyGivenNames v1
  clear_value v1
  exact keeps_runActions (keeps_State_onCanvas ‹_›)

theorem keeps_catchUp {s0 s : State} (hk : Keeps s0 s) {lf : LaneFails} :
    Keeps s0 (catchUp lf s) := by
  unfold catchUp
  extract_lets +onlyGivenNames v0
  clear_value v0
  extract_lets +onlyGivenNames v1
  clear_value v1
  extract_lets +onlyGivenNames v2
  refine cut (P := Keeps s0 v2) ?_ fun k3 => ?_
  · unfold v2
    exact keeps_fireSlots ‹_›
  clear_value v2
  extract_lets +onlyGivenNames v4
  refine cut (P := Keeps s0 v4) ?_ fun k5 => ?_
  · unfold v4
    exact keeps_State_onCanvas ‹_›
  clear_value v4
  refine Keeps.ite ?_ ?_
  · exact keeps_State_raise ‹_›
  assumption

theorem keeps_applySlots {s0 s : State} (hk : Keeps s0 s) :
    Keeps s0 (applySlots s) := by
  unfold applySlots
  refine Keeps.ite ?_ ?_
  · assumption
  extract_lets +onlyGivenNames v0
  refine cut (P := Keeps s0 v0) ?_ fun k1 => ?_
  · unfold v0
    exact keeps_State_onCanvas ‹_›
  clear_value v0
  refine Keeps.ite ?_ ?_
  · assumption
  exact keeps_State_onCanvas ‹_›

theorem keeps_adoptCtl {s0 s : State} (hk : Keeps s0 s) :
    Keeps s0 (adoptCtl s) := by
  unfold adoptCtl
  extract_lets +onlyGivenNames v0
  clear_value v0
  exact keeps_State_onCanvas ‹_›

theorem keeps_fsyncFrame {s0 s : State} (hk : Keeps s0 s) {n : Nat} :
    Keeps s0 (fsyncFrame n s) := by
  unfold fsyncFrame
  refine Keeps.ite ?_ ?_
  · exact keeps_State_onCanvas ‹_›
  refine Keeps.ite ?_ ?_
  · extract_lets +onlyGivenNames v0
    clear_value v0
    exact keeps_State_onCanvas ‹_›
  exact keeps_State_onCanvas ‹_›

theorem keeps_canvasFrameStart {s0 s : State} (hk : Keeps s0 s) {t : Nat} {lf : LaneFails} :
    Keeps s0 (canvasFrameStart t lf s) := by
  unfold canvasFrameStart
  extract_lets +onlyGivenNames v0
  refine cut (P := Keeps s0 v0) ?_ fun k1 => ?_
  · unfold v0
    exact keeps_catchUp (keeps_State_at ‹_›)
  clear_value v0
  extract_lets +onlyGivenNames v2
  refine cut (P := Keeps s0 v2) ?_ fun k3 => ?_
  · unfold v2
    exact keeps_State_onCanvas ‹_›
  clear_value v2
  extract_lets +onlyGivenNames v4
  refine cut (P := Keeps s0 v4) ?_ fun k5 => ?_
  · unfold v4
    exact keeps_applySlots (keeps_adoptCtl ‹_›)
  clear_value v4
  extract_lets +onlyGivenNames v6
  refine cut (P := Keeps s0 v6) ?_ fun k7 => ?_
  · unfold v6
    exact keeps_State_onCanvas ‹_›
  clear_value v6
  extract_lets +onlyGivenNames v8
  refine cut (P := Keeps s0 v8) ?_ fun k9 => ?_
  · unfold v8
    exact keeps_fireSlots ‹_›
  clear_value v8
  exact keeps_fsyncFrame (keeps_fsyncFrame ‹_›)

theorem keeps_canvasEnable {s0 s : State} (hk : Keeps s0 s) {t : Nat} {lf : LaneFails} :
    Keeps s0 (canvasEnable t lf s) := by
  unfold canvasEnable
  extract_lets +onlyGivenNames v0
  refine cut (P := Keeps s0 v0) ?_ fun k1 => ?_
  · unfold v0
    exact keeps_State_setFlag (keeps_State_at ‹_›)
  clear_value v0
  refine Keeps.ite ?_ ?_
  · assumption
  exact keeps_canvasFrameStart (keeps_State_onCanvas ‹_›)

theorem keeps_canvasDisable {s0 s : State} (hk : Keeps s0 s) {t : Nat} {lf : LaneFails} :
    Keeps s0 (canvasDisable t lf s) := by
  unfold canvasDisable
  extract_lets +onlyGivenNames v0
  refine cut (P := Keeps s0 v0) ?_ fun k1 => ?_
  · unfold v0
    exact keeps_State_setFlag (keeps_State_at ‹_›)
  clear_value v0
  refine Keeps.ite ?_ ?_
  · assumption
  exact keeps_State_onCanvas (keeps_catchUp ‹_›)

theorem keeps_slotApply {s0 s : State} (hk : Keeps s0 s) :
    Keeps s0 (slotApply s) := by
  unfold slotApply
  exact keeps_State_onCanvas ‹_›

theorem keeps_pulseEnd {s0 s : State} (hk : Keeps s0 s) {n : Nat} :
    Keeps s0 (pulseEnd n s) := by
  unfold pulseEnd
  exact keeps_State_onCanvas ‹_›

theorem keeps_markRef {s0 s : State} (hk : Keeps s0 s) :
    Keeps s0 (markRef s) := by
  unfold markRef
  exact keeps_State_onCanvas ‹_›

theorem keeps_lock {s0 s : State} (hk : Keeps s0 s) :
    Keeps s0 (lock s) := by
  unfold lock
  extract_lets +onlyGivenNames v0
  clear_value v0
  extract_lets +onlyGivenNames v1
  refine cut (P := Keeps s0 v1) ?_ fun k2 => ?_
  · unfold v1
    exact keeps_State_onCanvas ‹_›
  clear_value v1
  refine Keeps.ite ?_ ?_
  · assumption
  exact keeps_State_raise ‹_›

theorem keeps_pullIn {s0 s : State} (hk : Keeps s0 s) {t : Nat} {lf : LaneFails} :
    Keeps s0 (pullIn t lf s) := by
  unfold pullIn
  extract_lets +onlyGivenNames v0
  clear_value v0
  extract_lets +onlyGivenNames v1
  clear_value v1
  extract_lets +onlyGivenNames v2
  clear_value v2
  extract_lets +onlyGivenNames v3
  clear_value v3
  refine Keeps.ite ?_ ?_
  · extract_lets +onlyGivenNames v4
    refine cut (P := Keeps s0 v4) ?_ fun k5 => ?_
    · unfold v4
      exact keeps_State_wr ‹_›
    clear_value v4
    refine Keeps.ite ?_ ?_
    · exact keeps_markRef (keeps_canvasFrameStart (keeps_lock ‹_›))
    exact keeps_State_onCanvas ‹_›
  extract_lets +onlyGivenNames v6
  refine cut (P := Keeps s0 v6) ?_ fun k7 => ?_
  · unfold v6
    exact keeps_State_wr ‹_›
  clear_value v6
  refine Keeps.ite ?_ ?_
  · exact keeps_markRef (keeps_lock ‹_›)
  exact keeps_State_onCanvas ‹_›

theorem keeps_reflostTakeover {s0 s : State} (hk : Keeps s0 s) {t : Nat} {lf : LaneFails} :
    Keeps s0 (reflostTakeover t lf s) := by
  unfold reflostTakeover
  extract_lets +onlyGivenNames v0
  refine cut (P := Keeps s0 v0) ?_ fun k1 => ?_
  · unfold v0
    exact keeps_State_at ‹_›
  clear_value v0
  extract_lets +onlyGivenNames v2
  clear_value v2
  split
  · rename_i x3 e4
    assumption
  rename_i x5 x6 e7
  refine Keeps.ite ?_ ?_
  · assumption
  extract_lets +onlyGivenNames v8
  clear_value v8
  extract_lets +onlyGivenNames v9
  refine cut (P := Keeps s0 v9) ?_ fun k10 => ?_
  · unfold v9
    exact keeps_canvasFrameStart (keeps_State_onCanvas ‹_›)
  clear_value v9
  extract_lets +onlyGivenNames v11
  refine cut (P := Keeps s0 v11) ?_ fun k12 => ?_
  · unfold v11
    exact keeps_setSticky ‹_›
  clear_value v11
  extract_lets +onlyGivenNames v13
  refine cut (P := Keeps s0 v13) ?_ fun k14 => ?_
  · unfold v13
    exact keeps_State_addSat (keeps_State_raise ‹_›)
  clear_value v13
  extract_lets +onlyGivenNames v15
  refine cut (P := Keeps s0 v15) ?_ fun k16 => ?_
  · unfold v15
    exact keeps_State_wr ‹_›
  clear_value v15
  exact keeps_writeGaps ‹_›

theorem keeps_commitTimer {s0 s : State} (hk : Keeps s0 s) {t : Nat} :
    Keeps s0 (commitTimer t s) := by
  unfold commitTimer
  extract_lets +onlyGivenNames v0
  refine cut (P := Keeps s0 v0) ?_ fun k1 => ?_
  · unfold v0
    exact keeps_State_at ‹_›
  clear_value v0
  refine Keeps.ite ?_ ?_
  · assumption
  exact keeps_commitPoint ‹_›

theorem keeps_flywheelFrameStart {s0 s : State} (hk : Keeps s0 s) {t : Nat} {lf : LaneFails} :
    Keeps s0 (flywheelFrameStart t lf s) := by
  unfold flywheelFrameStart
  extract_lets +onlyGivenNames v0
  refine cut (P := Keeps s0 v0) ?_ fun k1 => ?_
  · unfold v0
    exact keeps_State_at ‹_›
  clear_value v0
  extract_lets +onlyGivenNames v2
  clear_value v2
  refine Keeps.ite ?_ ?_
  · assumption
  extract_lets +onlyGivenNames v3
  refine cut (P := Keeps s0 v3) ?_ fun k4 => ?_
  · unfold v3
    exact keeps_canvasFrameStart ‹_›
  clear_value v3
  refine Keeps.ite ?_ ?_
  · exact keeps_State_addSat ‹_›
  assumption

theorem keeps_fsyncPulse {s0 s : State} (hk : Keeps s0 s) {n : Nat} :
    Keeps s0 (fsyncPulse n s) := by
  unfold fsyncPulse
  refine Keeps.ite ?_ ?_
  · exact keeps_pulse (keeps_State_onCanvas ‹_›)
  assumption

theorem keeps_refFrameStart {s0 s : State} (hk : Keeps s0 s) {t : Nat} {lf : LaneFails} :
    Keeps s0 (refFrameStart t lf s) := by
  unfold refFrameStart
  extract_lets +onlyGivenNames v0
  refine cut (P := Keeps s0 v0) ?_ fun k1 => ?_
  · unfold v0
    exact keeps_State_at ‹_›
  clear_value v0
  extract_lets +onlyGivenNames v2
  clear_value v2
  refine Keeps.ite ?_ ?_
  · assumption
  extract_lets +onlyGivenNames v3
  clear_value v3
  extract_lets +onlyGivenNames v4
  refine cut (P := Keeps s0 v4) ?_ fun k5 => ?_
  · unfold v4
    refine Keeps.ite ?_ ?_
    · exact keeps_State_onCanvas ‹_›
    assumption
  clear_value v4
  extract_lets +onlyGivenNames v6
  refine cut (P := Keeps s0 v6) ?_ fun k7 => ?_
  · unfold v6
    exact keeps_State_onCanvas ‹_›
  clear_value v6
  split
  · rename_i x8 e9
    exact keeps_markRef (keeps_canvasFrameStart ‹_›)
  · rename_i x10 e11
    exact keeps_pullIn ‹_›
  rename_i x12 e13 e14
  refine Keeps.ite ?_ ?_
  · assumption
  refine Keeps.ite ?_ ?_
  · exact keeps_markRef (keeps_canvasFrameStart (keeps_lock ‹_›))
  exact keeps_pullIn (keeps_State_onCanvas ‹_›)

theorem keeps_canvasFrameEnd {s0 s : State} (hk : Keeps s0 s) {t : Nat} {lf : LaneFails} :
    Keeps s0 (canvasFrameEnd t lf s) := by
  unfold canvasFrameEnd
  extract_lets +onlyGivenNames v0
  refine cut (P := Keeps s0 v0) ?_ fun k1 => ?_
  · unfold v0
    exact keeps_State_at ‹_›
  clear_value v0
  refine Keeps.ite ?_ ?_
  · assumption
  extract_lets +onlyGivenNames v2
  refine cut (P := Keeps s0 v2) ?_ fun k3 => ?_
  · unfold v2
    exact keeps_State_onCanvas ‹_›
  clear_value v2
  exact keeps_fireSlots ‹_›

theorem keeps_lineTick {s0 s : State} (hk : Keeps s0 s) {t : Nat} {lf : LaneFails} :
    Keeps s0 (lineTick t lf s) := by
  unfold lineTick
  extract_lets +onlyGivenNames v0
  refine cut (P := Keeps s0 v0) ?_ fun k1 => ?_
  · unfold v0
    exact keeps_State_at ‹_›
  clear_value v0
  refine Keeps.ite ?_ ?_
  · assumption
  extract_lets +onlyGivenNames v2
  refine cut (P := Keeps s0 v2) ?_ fun k3 => ?_
  · unfold v2
    exact keeps_State_onCanvas ‹_›
  clear_value v2
  extract_lets +onlyGivenNames v4
  clear_value v4
  exact keeps_fireSlots ‹_›

end Sys2Proof.Laws
end

