-- ==== Sys2Proof/Laws/KeepsExport.lean ====
section
/-!
SUPPORT. What every operation of Machine/Export.lean keeps (`Keeps`, Laws/Keeps.lean).
-/

namespace Sys2Proof.Laws

open Sys2Proof.Machine

theorem keeps_jobOpen {s0 s : State} (hk : Keeps s0 s) {c : Nat} {first : Nat} {last : Nat} {form : Bool} :
    Keeps s0 (jobOpen c first last form s).2 := by
  unfold jobOpen
  extract_lets +onlyGivenNames v0
  clear_value v0
  extract_lets +onlyGivenNames v1
  clear_value v1
  refine Keeps.pair ?_
  refine Keeps.ite ?_ ?_
  · exact keeps_anchorRequest ‹_›
  assumption

theorem keeps_rdStatus {s0 s : State} (hk : Keeps s0 s) {r : Nat} :
    Keeps s0 (rdStatus r s) := by
  unfold rdStatus
  extract_lets +onlyGivenNames v0
  clear_value v0
  extract_lets +onlyGivenNames v1
  clear_value v1
  extract_lets +onlyGivenNames v2
  clear_value v2
  extract_lets +onlyGivenNames v3
  clear_value v3
  extract_lets +onlyGivenNames v4
  clear_value v4
  exact keeps_msix (keeps_hostWrite ‹_›)

theorem keeps_setRd {s0 s : State} (hk : Keeps s0 s) {r : Nat} {f : ReadDoor → ReadDoor} :
    Keeps s0 (setRd r f s) := by
  unfold setRd
  exact keeps_State_onPcie ‹_›

theorem keeps_rdEnd {s0 s : State} (hk : Keeps s0 s) {r : Nat} {result : Nat} {status : Bool} :
    Keeps s0 (rdEnd r result status s) := by
  unfold rdEnd
  extract_lets +onlyGivenNames v0
  refine cut (P := Keeps s0 v0) ?_ fun k1 => ?_
  · unfold v0
    exact keeps_State_wr ‹_›
  clear_value v0
  extract_lets +onlyGivenNames v2
  refine cut (P := Keeps s0 v2) ?_ fun k3 => ?_
  · unfold v2
    refine Keeps.ite ?_ ?_
    · exact keeps_rdStatus ‹_›
    assumption
  clear_value v2
  exact keeps_readJobEnd (keeps_setRd ‹_›)

theorem keeps_ringPut {s0 a6 : State} (hk : Keeps s0 a6) {base : Nat} {size : Nat} {cust : Nat} {a4 : Nat} {a5 : Bytes} :
    Keeps s0 (ringPut base size cust a4 a5 a6) := by
  induction a5 generalizing a4 a6
  · unfold ringPut
    assumption
  · rename_i hd tl ih
    unfold ringPut
    exact ih (keeps_hostWrite ‹_›)

theorem keeps_rdPush {s0 s : State} (hk : Keeps s0 s) {r : Nat} {upto : Nat} :
    Keeps s0 (rdPush r upto s) := by
  unfold rdPush
  extract_lets +onlyGivenNames v0
  clear_value v0
  split
  · rename_i x1 x2 x3 x4 x5 x6 x7 x8 e9
    extract_lets +onlyGivenNames v10
    clear_value v10
    extract_lets +onlyGivenNames v11
    clear_value v11
    refine Keeps.ite ?_ ?_
    · assumption
    extract_lets +onlyGivenNames v12
    refine cut (P := Keeps s0 v12) ?_ fun k13 => ?_
    · unfold v12
      exact keeps_ringPut ‹_›
    clear_value v12
    exact keeps_setRd ‹_›
  rename_i x14 e15
  assumption

theorem keeps_rdStart {s0 s : State} (hk : Keeps s0 s) {r : Nat} {right : Bool} :
    Keeps s0 (rdStart r right s) := by
  unfold rdStart
  refine Keeps.ite ?_ ?_
  · assumption
  extract_lets +onlyGivenNames v0
  clear_value v0
  extract_lets +onlyGivenNames v1
  clear_value v1
  extract_lets +onlyGivenNames v2
  clear_value v2
  extract_lets +onlyGivenNames v3
  refine cut (P := Keeps s0 v3) ?_ fun k4 => ?_
  · unfold v3
    exact keeps_State_wr (keeps_State_wr64 ‹_›)
  clear_value v3
  extract_lets +onlyGivenNames v5
  refine cut (P := Keeps s0 v5) ?_ fun k6 => ?_
  · unfold v5
    exact keeps_State_wr ‹_›
  clear_value v5
  extract_lets +onlyGivenNames v7
  refine cut (P := Keeps s0 v7) ?_ fun k8 => ?_
  · unfold v7
    exact keeps_setRd ‹_›
  clear_value v7
  refine Keeps.ite ?_ ?_
  · exact keeps_rdEnd ‹_›
  refine Keeps.ite ?_ ?_
  · exact keeps_rdEnd ‹_›
  split
  rename_i x9 x10 x11 e12
  refine cut (P := Keeps s0 x11) ?_ fun k13 => ?_
  · exact Keeps.snd e12 (keeps_jobOpen ‹_›)
  exact keeps_setRd ‹_›

theorem keeps_rdComplete {s0 s : State} (hk : Keeps s0 s) {r : Nat} :
    Keeps s0 (rdComplete r s) := by
  unfold rdComplete
  split
  · rename_i x0 x1 x2 x3 x4 x5 x6 x7 e8
    refine Keeps.ite ?_ ?_
    · exact keeps_rdEnd ‹_›
    refine Keeps.ite ?_ ?_
    · assumption
    extract_lets +onlyGivenNames v9
    refine cut (P := Keeps s0 v9) ?_ fun k10 => ?_
    · unfold v9
      exact keeps_rdPush ‹_›
    clear_value v9
    refine Keeps.ite ?_ ?_
    · exact keeps_rdEnd ‹_›
    assumption
  rename_i x11 e12
  assumption

theorem keeps_rdoorAbort {s0 s : State} (hk : Keeps s0 s) {r : Nat} {tie : Bool} :
    Keeps s0 (rdoorAbort r tie s) := by
  unfold rdoorAbort
  extract_lets +onlyGivenNames v0
  refine Keeps.ite ?_ ?_
  · assumption
  refine Keeps.ite ?_ ?_
  · refine Keeps.ite ?_ ?_
    · unfold v0
      exact keeps_State_setFld ‹_›
    unfold v0
    exact keeps_State_setFld ‹_›
  refine Keeps.ite ?_ ?_
  · refine keeps_rdComplete ?_
    unfold v0
    exact keeps_State_setFld ‹_›
  refine keeps_rdEnd ?_
  unfold v0
  exact keeps_State_setFld ‹_›

theorem keeps_rdPtrWrite {s0 s : State} (hk : Keeps s0 s) {r : Nat} {v : Nat} :
    Keeps s0 (rdPtrWrite r v s) := by
  unfold rdPtrWrite
  refine Keeps.ite ?_ ?_
  · assumption
  extract_lets +onlyGivenNames v0
  clear_value v0
  extract_lets +onlyGivenNames v1
  refine cut (P := Keeps s0 v1) ?_ fun k2 => ?_
  · unfold v1
    exact keeps_State_wr64 ‹_›
  clear_value v1
  refine Keeps.ite ?_ ?_
  · exact keeps_setRd ‹_›
  assumption

theorem keeps_firstPass {s0 s : State} (hk : Keeps s0 s) {id : Nat} {j : ExpJob} :
    Keeps s0 (firstPass id j s).2 := by
  unfold firstPass
  split
  · rename_i x0 e1
    exact Keeps.pair ‹_›
  rename_i x2 x3 e4
  extract_lets +onlyGivenNames v5
  clear_value v5
  extract_lets +onlyGivenNames v6
  clear_value v6
  refine Keeps.iteSnd ?_ ?_
  · exact Keeps.pair ‹_›
  extract_lets +onlyGivenNames v7
  clear_value v7
  extract_lets +onlyGivenNames v8
  clear_value v8
  refine Keeps.iteSnd ?_ ?_
  · exact Keeps.pair ‹_›
  refine Keeps.iteSnd ?_ ?_
  · exact Keeps.pair ‹_›
  split
  rename_i x9 x10 x11 e12
  extract_lets +onlyGivenNames v13
  clear_value v13
  exact Keeps.pair (keeps_startReadJob (keeps_State_fresh ‹_›))

theorem keeps_rdFirstPass {s0 s : State} (hk : Keeps s0 s) {r : Nat} :
    Keeps s0 (rdFirstPass r s) := by
  unfold rdFirstPass
  split
  · rename_i x0 e1
    assumption
  rename_i x2 x3 e4
  refine Keeps.ite ?_ ?_
  · assumption
  split
  · rename_i x5 x6 x7 e8
    refine cut (P := Keeps s0 x7) ?_ fun k9 => ?_
    · exact Keeps.snd e8 (keeps_firstPass ‹_›)
    exact keeps_State_wr (keeps_setRd ‹_›)
  rename_i x10 x11 x12 e13
  refine cut (P := Keeps s0 x12) ?_ fun k14 => ?_
  · exact Keeps.snd e13 (keeps_firstPass ‹_›)
  extract_lets +onlyGivenNames v15
  refine cut (P := Keeps s0 v15) ?_ fun k16 => ?_
  · unfold v15
    refine Keeps.ite ?_ ?_
    · exact keeps_State_wr64 ‹_›
    assumption
  clear_value v15
  exact keeps_rdEnd ‹_›

theorem keeps_clearDoorRegs {s0 s : State} (hk : Keeps s0 s) {d : Nat} :
    Keeps s0 (clearDoorRegs d s) := by
  unfold clearDoorRegs
  extract_lets +onlyGivenNames v0
  unfold v0
  exact keeps_State_wr (keeps_State_wr (keeps_State_wr (keeps_State_wr (keeps_State_wr ‹_›))))

theorem keeps_mailboxClear {s0 s : State} (hk : Keeps s0 s) :
    Keeps s0 (mailboxClear s) := by
  unfold mailboxClear
  extract_lets +onlyGivenNames v0
  clear_value v0
  extract_lets +onlyGivenNames v1
  refine cut (P := Keeps s0 v1) ?_ fun k2 => ?_
  · unfold v1
    exact keeps_State_onDict ‹_›
  clear_value v1
  extract_lets +onlyGivenNames v3
  refine cut (P := Keeps s0 v3) ?_ fun k4 => ?_
  · unfold v3
    exact keeps_State_setFld ‹_›
  clear_value v3
  exact keeps_State_onPcie ‹_›

theorem keeps_linkLoss {s0 s : State} (hk : Keeps s0 s) {bit_ : Nat} :
    Keeps s0 (linkLoss bit_ s) := by
  unfold linkLoss
  extract_lets +onlyGivenNames v0
  refine cut (P := Keeps s0 v0) ?_ fun k1 => ?_
  · unfold v0
    exact keeps_abandonDoors ‹_›
  clear_value v0
  extract_lets +onlyGivenNames v2
  refine cut (P := Keeps s0 v2) ?_ fun k3 => ?_
  · unfold v2
    refine Keeps.foldl ?_ fun t4 x5 k6 => ?_
    · assumption
    exact keeps_clearDoorRegs ‹_›
  clear_value v2
  extract_lets +onlyGivenNames v7
  refine cut (P := Keeps s0 v7) ?_ fun k8 => ?_
  · unfold v7
    refine Keeps.foldl ?_ fun t9 x10 k11 => ?_
    · assumption
    refine Keeps.ite ?_ ?_
    · exact keeps_rdEnd ‹_›
    assumption
  clear_value v7
  extract_lets +onlyGivenNames v12
  refine cut (P := Keeps s0 v12) ?_ fun k13 => ?_
  · unfold v12
    exact keeps_mailboxClear ‹_›
  clear_value v12
  extract_lets +onlyGivenNames v14
  refine cut (P := Keeps s0 v14) ?_ fun k15 => ?_
  · unfold v14
    exact keeps_State_onPcie ‹_›
  clear_value v14
  extract_lets +onlyGivenNames v16
  refine cut (P := Keeps s0 v16) ?_ fun k17 => ?_
  · unfold v16
    exact keeps_State_raise (keeps_State_addSat ‹_›)
  clear_value v16
  exact keeps_State_raise ‹_›

theorem keeps_linkDown {s0 s : State} (hk : Keeps s0 s) :
    Keeps s0 (linkDown s) := by
  unfold linkDown
  exact keeps_linkLoss (keeps_State_onPcie ‹_›)

theorem keeps_vselWrite {s0 s : State} (hk : Keeps s0 s) {n : Nat} {v : Nat} :
    Keeps s0 (vselWrite n v s) := by
  unfold vselWrite
  refine Keeps.ite ?_ ?_
  · exact keeps_State_onPcie ‹_›
  assumption

theorem keeps_perstLow {s0 s : State} (hk : Keeps s0 s) :
    Keeps s0 (perstLow s) := by
  unfold perstLow
  exact keeps_linkLoss (keeps_State_onPcie ‹_›)

theorem keeps_flrStart {s0 s : State} (hk : Keeps s0 s) :
    Keeps s0 (flrStart s) := by
  unfold flrStart
  exact keeps_linkLoss (keeps_State_onPcie ‹_›)

theorem keeps_d3Enter {s0 s : State} (hk : Keeps s0 s) :
    Keeps s0 (d3Enter s) := by
  unfold d3Enter
  exact keeps_linkLoss (keeps_State_onPcie ‹_›)

theorem keeps_bmeWrite {s0 s : State} (hk : Keeps s0 s) {v : Bool} :
    Keeps s0 (bmeWrite v s) := by
  unfold bmeWrite
  refine Keeps.ite ?_ ?_
  · assumption
  refine Keeps.ite ?_ ?_
  · exact keeps_State_onPcie ‹_›
  exact keeps_linkLoss (keeps_State_onPcie ‹_›)

theorem keeps_linkUp {s0 s : State} (hk : Keeps s0 s) {speed : Nat} {width : Nat} :
    Keeps s0 (linkUp speed width s) := by
  unfold linkUp
  refine Keeps.ite ?_ ?_
  · exact keeps_State_onPcie ‹_›
  exact keeps_State_onPcie ‹_›

theorem keeps_flrComplete {s0 s : State} (hk : Keeps s0 s) :
    Keeps s0 (flrComplete s) := by
  unfold flrComplete
  exact keeps_State_onPcie ‹_›

theorem keeps_rdStall {s0 s : State} (hk : Keeps s0 s) {r : Nat} :
    Keeps s0 (rdStall r s) := by
  unfold rdStall
  extract_lets +onlyGivenNames v0
  clear_value v0
  extract_lets +onlyGivenNames v1
  clear_value v1
  split
  · rename_i x2 x3 x4 x5 x6 x7 x8 x9 e10
    extract_lets +onlyGivenNames v11
    clear_value v11
    refine Keeps.ite ?_ ?_
    · exact keeps_rdEnd ‹_›
    assumption
  rename_i x12 e13
  assumption

theorem keeps_rdStatusBlock {s0 s : State} (hk : Keeps s0 s) {r : Nat} :
    Keeps s0 (rdStatusBlock r s) := by
  unfold rdStatusBlock
  refine Keeps.ite ?_ ?_
  · exact keeps_rdEnd ‹_›
  extract_lets +onlyGivenNames v0
  clear_value v0
  extract_lets +onlyGivenNames v1
  refine cut (P := Keeps s0 v1) ?_ fun k2 => ?_
  · unfold v1
    exact keeps_rdPush ‹_›
  clear_value v1
  refine Keeps.ite ?_ ?_
  · exact keeps_rdStatus (keeps_setRd ‹_›)
  assumption

end Sys2Proof.Laws
end

