-- ==== Sys2Proof/Laws/KeepsProc.lean ====
section
/-!
SUPPORT. What every operation of Machine/Proc.lean keeps (`Keeps`, Laws/Keeps.lean).
-/

namespace Sys2Proof.Laws

open Sys2Proof.Machine

theorem keeps_setProc {s0 s : State} (hk : Keeps s0 s) {key : Nat} {p : PStat} :
    Keeps s0 (setProc key p s) := by
  unfold setProc
  exact keeps_State_onDict ‹_›

theorem keeps_procRan {s0 s : State} (hk : Keeps s0 s) {key : Nat} {princ : Nat} {code : Nat} :
    Keeps s0 (procRan key princ code s) := by
  unfold procRan
  exact keeps_setProc ‹_›

theorem keeps_procEnd {s0 s : State} (hk : Keeps s0 s) {key : Nat} {code : Nat} :
    Keeps s0 (procEnd key code s) := by
  unfold procEnd
  extract_lets +onlyGivenNames v0
  clear_value v0
  refine Keeps.ite ?_ ?_
  · exact keeps_setProc ‹_›
  assumption

theorem keeps_procStart {s0 s : State} (hk : Keeps s0 s) {key : Nat} {princ : Nat} :
    Keeps s0 (procStart key princ s) := by
  unfold procStart
  exact keeps_setProc ‹_›

end Sys2Proof.Laws
end

