-- ==== Sys2Proof/Laws/KeepsChambray.lean ====
section
/-!
SUPPORT. What every operation of Machine/Chambray.lean keeps (`Keeps`, Laws/Keeps.lean).
-/

namespace Sys2Proof.Laws

open Sys2Proof.Machine

theorem keeps_setCState {s0 s : State} (hk : Keeps s0 s) {p : Nat} {v : Nat} :
    Keeps s0 (setCState p v s) := by
  unfold setCState
  exact keeps_State_setFld ‹_›

theorem keeps_setCard {s0 s : State} (hk : Keeps s0 s) {p : Nat} {f : CardPort → CardPort} :
    Keeps s0 (setCard p f s) := by
  unfold setCard
  exact keeps_State_onCards ‹_›

theorem keeps_expEnd {s0 s : State} (hk : Keeps s0 s) {result : Nat} :
    Keeps s0 (expEnd result s) := by
  unfold expEnd
  extract_lets +onlyGivenNames v0
  clear_value v0
  refine Keeps.ite ?_ ?_
  · assumption
  extract_lets +onlyGivenNames v1
  clear_value v1
  extract_lets +onlyGivenNames v2
  refine cut (P := Keeps s0 v2) ?_ fun k3 => ?_
  · unfold v2
    exact keeps_procEnd (keeps_State_fresh ‹_›)
  clear_value v2
  extract_lets +onlyGivenNames v4
  refine cut (P := Keeps s0 v4) ?_ fun k5 => ?_
  · unfold v4
    exact keeps_State_setFld (keeps_State_setFld ‹_›)
  clear_value v4
  extract_lets +onlyGivenNames v6
  refine cut (P := Keeps s0 v6) ?_ fun k7 => ?_
  · unfold v6
    refine Keeps.ite ?_ ?_
    · exact keeps_setCState ‹_›
    assumption
  clear_value v6
  extract_lets +onlyGivenNames v8
  clear_value v8
  extract_lets +onlyGivenNames v9
  clear_value v9
  extract_lets +onlyGivenNames v10
  refine cut (P := Keeps s0 v10) ?_ fun k11 => ?_
  · unfold v10
    exact keeps_setCard ‹_›
  clear_value v10
  extract_lets +onlyGivenNames v12
  refine cut (P := Keeps s0 v12) ?_ fun k13 => ?_
  · unfold v12
    exact keeps_State_onCards ‹_›
  clear_value v12
  exact keeps_notify (keeps_readJobEnd ‹_›)

theorem keeps_exportStart {s0 s : State} (hk : Keeps s0 s) {princ : Nat} :
    Keeps s0 (exportStart princ s).2 := by
  unfold exportStart
  refine Keeps.iteSnd ?_ ?_
  · exact Keeps.pair ‹_›
  extract_lets +onlyGivenNames v0
  clear_value v0
  extract_lets +onlyGivenNames v1
  clear_value v1
  extract_lets +onlyGivenNames v2
  clear_value v2
  extract_lets +onlyGivenNames v3
  refine cut (P := Keeps s0 v3) ?_ fun k4 => ?_
  · unfold v3
    exact keeps_procStart ‹_›
  clear_value v3
  extract_lets +onlyGivenNames v5
  refine cut (P := Keeps s0 v5) ?_ fun k6 => ?_
  · unfold v5
    exact keeps_State_wr (keeps_State_wr64 (keeps_State_wr ‹_›))
  clear_value v5
  extract_lets +onlyGivenNames v7
  refine cut (P := Keeps s0 v7) ?_ fun k8 => ?_
  · unfold v7
    exact keeps_State_wrWords ‹_›
  clear_value v7
  split
  rename_i x9 x10 x11 e12
  refine cut (P := Keeps s0 x11) ?_ fun k13 => ?_
  · exact Keeps.snd e12 (keeps_jobOpen ‹_›)
  extract_lets +onlyGivenNames v14
  clear_value v14
  extract_lets +onlyGivenNames v15
  refine cut (P := Keeps s0 v15) ?_ fun k16 => ?_
  · unfold v15
    exact keeps_State_onCards ‹_›
  clear_value v15
  refine Keeps.pair ?_
  refine Keeps.ite ?_ ?_
  · exact keeps_expEnd ‹_›
  refine Keeps.ite ?_ ?_
  · exact keeps_expEnd ‹_›
  refine Keeps.ite ?_ ?_
  · exact keeps_expEnd ‹_›
  assumption

theorem keeps_expLatch {s0 s : State} (hk : Keeps s0 s) :
    Keeps s0 (expLatch s) := by
  unfold expLatch
  refine Keeps.ite ?_ ?_
  · exact keeps_State_onCards (keeps_State_setFld ‹_›)
  assumption

theorem keeps_exportAbort {s0 s : State} (hk : Keeps s0 s) {princ : Nat} {tie : Bool} :
    Keeps s0 (exportAbort princ tie s).2 := by
  unfold exportAbort
  extract_lets +onlyGivenNames v0
  extract_lets +onlyGivenNames v1
  refine cut (P := Keeps s0 v1) ?_ fun k2 => ?_
  · unfold v1
    exact keeps_procRan ‹_›
  clear_value v1
  refine Keeps.pair ?_
  refine Keeps.ite ?_ ?_
  · refine Keeps.ite ?_ ?_
    · unfold v0
      exact keeps_State_setFld ‹_›
    unfold v0
    exact keeps_State_setFld ‹_›
  refine Keeps.ite ?_ ?_
  · unfold v0
    exact keeps_State_setFld ‹_›
  refine Keeps.ite ?_ ?_
  · refine keeps_expLatch ?_
    unfold v0
    exact keeps_State_setFld ‹_›
  refine keeps_expEnd ?_
  unfold v0
  exact keeps_State_setFld ‹_›

theorem keeps_courtEnd {s0 s : State} (hk : Keeps s0 s) {code : Nat} :
    Keeps s0 (courtEnd code s) := by
  unfold courtEnd
  extract_lets +onlyGivenNames v0
  refine cut (P := Keeps s0 v0) ?_ fun k1 => ?_
  · unfold v0
    exact keeps_procEnd ‹_›
  clear_value v0
  extract_lets +onlyGivenNames v2
  refine cut (P := Keeps s0 v2) ?_ fun k3 => ?_
  · unfold v2
    exact keeps_State_setFlag ‹_›
  clear_value v2
  extract_lets +onlyGivenNames v4
  refine cut (P := Keeps s0 v4) ?_ fun k5 => ?_
  · unfold v4
    split
    · rename_i x6 x7 e8
      refine Keeps.ite ?_ ?_
      · exact keeps_setCState ‹_›
      assumption
    rename_i x9 e10
    assumption
  clear_value v4
  exact keeps_State_onCards ‹_›

theorem keeps_setCSpeed {s0 s : State} (hk : Keeps s0 s) {p : Nat} {v : Nat} :
    Keeps s0 (setCSpeed p v s) := by
  unfold setCSpeed
  exact keeps_State_setFld ‹_›

theorem keeps_boundary {s0 s : State} (hk : Keeps s0 s) {p : Nat} :
    Keeps s0 (boundary p s) := by
  unfold boundary
  extract_lets +onlyGivenNames v0
  clear_value v0
  extract_lets +onlyGivenNames v1
  clear_value v1
  refine Keeps.ite ?_ ?_
  · refine Keeps.ite ?_ ?_
    · assumption
    exact keeps_setCSpeed (keeps_setCard (keeps_State_setFlag ‹_›))
  refine Keeps.ite ?_ ?_
  · exact keeps_State_setFlag (keeps_setCard ‹_›)
  assumption

theorem keeps_courtCopy {s0 s : State} (hk : Keeps s0 s) {princ : Nat} {target : Nat} :
    Keeps s0 (courtCopy princ target s).2 := by
  unfold courtCopy
  extract_lets +onlyGivenNames v0
  refine Keeps.iteSnd ?_ ?_
  · exact Keeps.pair ‹_›
  refine Keeps.iteSnd ?_ ?_
  · exact Keeps.pair ‹_›
  split
  · rename_i x1 e2
    refine Keeps.pair ?_
    unfold v0
    extract_lets +onlyGivenNames v3
    refine cut (P := Keeps s0 v3) ?_ fun k4 => ?_
    · unfold v3
      exact keeps_procStart ‹_›
    clear_value v3
    extract_lets +onlyGivenNames v5
    refine cut (P := Keeps s0 v5) ?_ fun k6 => ?_
    · unfold v5
      exact keeps_State_wr ‹_›
    clear_value v5
    exact keeps_State_onCards ‹_›
  rename_i x7 x8 e9
  refine Keeps.iteSnd ?_ ?_
  · refine Keeps.pair ?_
    unfold v0
    extract_lets +onlyGivenNames v10
    refine cut (P := Keeps s0 v10) ?_ fun k11 => ?_
    · unfold v10
      exact keeps_procStart (keeps_courtEnd ‹_›)
    clear_value v10
    extract_lets +onlyGivenNames v12
    refine cut (P := Keeps s0 v12) ?_ fun k13 => ?_
    · unfold v12
      exact keeps_State_wr ‹_›
    clear_value v12
    exact keeps_State_onCards ‹_›
  refine Keeps.iteSnd ?_ ?_
  · exact Keeps.pair (keeps_courtEnd ‹_›)
  extract_lets +onlyGivenNames v14
  clear_value v14
  refine Keeps.iteSnd ?_ ?_
  · extract_lets +onlyGivenNames v15
    refine cut (P := Keeps s0 v15) ?_ fun k16 => ?_
    · unfold v15
      exact keeps_procStart ‹_›
    clear_value v15
    exact Keeps.pair (keeps_setCState (keeps_boundary (keeps_State_onCards ‹_›)))
  exact Keeps.pair (keeps_courtEnd ‹_›)

theorem keeps_portOff {s0 s : State} (hk : Keeps s0 s) {p : Nat} :
    Keeps s0 (portOff p s) := by
  unfold portOff
  extract_lets +onlyGivenNames v0
  refine cut (P := Keeps s0 v0) ?_ fun k1 => ?_
  · unfold v0
    exact keeps_setCard ‹_›
  clear_value v0
  exact keeps_State_setFlag ‹_›

theorem keeps_xstatEnd {s0 s : State} (hk : Keeps s0 s) {p : Nat} {code : Nat} :
    Keeps s0 (xstatEnd p code s) := by
  unfold xstatEnd
  exact keeps_State_raise (keeps_State_wr ‹_›)

theorem keeps_xferEnd {s0 s : State} (hk : Keeps s0 s) {p : Nat} {code : Nat} :
    Keeps s0 (xferEnd p code s) := by
  unfold xferEnd
  exact keeps_xstatEnd (keeps_setCard ‹_›)

theorem keeps_portPower {s0 s : State} (hk : Keeps s0 s) {p : Nat} {only33 : Bool} :
    Keeps s0 (portPower p only33 s) := by
  unfold portPower
  exact keeps_setCState (keeps_setCard ‹_›)

theorem keeps_reinit {s0 s : State} (hk : Keeps s0 s) {p : Nat} :
    Keeps s0 (reinit p s) := by
  unfold reinit
  refine Keeps.ite ?_ ?_
  · exact keeps_portPower (keeps_portOff ‹_›)
  assumption

theorem keeps_cardCmd {s0 s : State} (hk : Keeps s0 s) {p : Nat} {w : Word} :
    Keeps s0 (cardCmd p w s) := by
  unfold cardCmd
  refine Keeps.ite ?_ ?_
  · assumption
  extract_lets +onlyGivenNames v0
  refine cut (P := Keeps s0 v0) ?_ fun k1 => ?_
  · unfold v0
    exact keeps_State_wr ‹_›
  clear_value v0
  refine Keeps.ite ?_ ?_
  · assumption
  refine Keeps.ite ?_ ?_
  · exact keeps_State_setFld ‹_›
  extract_lets +onlyGivenNames v2
  refine cut (P := Keeps s0 v2) ?_ fun k3 => ?_
  · unfold v2
    exact keeps_boundary ‹_›
  clear_value v2
  extract_lets +onlyGivenNames v4
  clear_value v4
  extract_lets +onlyGivenNames v5
  refine cut (P := Keeps s0 v5) ?_ fun k6 => ?_
  · unfold v5
    exact keeps_State_wr (keeps_State_wr ‹_›)
  clear_value v5
  exact keeps_setCState (keeps_setCard ‹_›)

theorem keeps_portLost {s0 s : State} (hk : Keeps s0 s) {p : Nat} {result : Nat} {code : Nat} :
    Keeps s0 (portLost p result code s) := by
  unfold portLost
  extract_lets +onlyGivenNames v0
  refine cut (P := Keeps s0 v0) ?_ fun k1 => ?_
  · unfold v0
    refine Keeps.ite ?_ ?_
    · exact keeps_expEnd ‹_›
    assumption
  clear_value v0
  refine Keeps.ite ?_ ?_
  · exact keeps_courtEnd ‹_›
  assumption

theorem keeps_cardFail {s0 s : State} (hk : Keeps s0 s) {p : Nat} {code : Nat} :
    Keeps s0 (cardFail p code s) := by
  unfold cardFail
  extract_lets +onlyGivenNames v0
  clear_value v0
  extract_lets +onlyGivenNames v1
  refine cut (P := Keeps s0 v1) ?_ fun k2 => ?_
  · unfold v1
    exact keeps_State_raise (keeps_setCState ‹_›)
  clear_value v1
  extract_lets +onlyGivenNames v3
  refine cut (P := Keeps s0 v3) ?_ fun k4 => ?_
  · unfold v3
    exact keeps_setCard (keeps_State_setFlag ‹_›)
  clear_value v3
  extract_lets +onlyGivenNames v5
  refine cut (P := Keeps s0 v5) ?_ fun k6 => ?_
  · unfold v5
    refine Keeps.ite ?_ ?_
    · exact keeps_xferEnd ‹_›
    assumption
  clear_value v5
  exact keeps_portLost ‹_›

theorem keeps_stepDown {s0 s : State} (hk : Keeps s0 s) {p : Nat} :
    Keeps s0 (stepDown p s) := by
  unfold stepDown
  split
  · rename_i x0 x1 e2
    exact keeps_State_raise (keeps_setCSpeed ‹_›)
  rename_i x3 e4
  exact keeps_cardFail ‹_›

theorem keeps_tuneWhole {s0 s : State} (hk : Keeps s0 s) {p : Nat} {mask : Nat} {temp : Option Int} :
    Keeps s0 (tuneWhole p mask temp s) := by
  unfold tuneWhole
  refine Keeps.ite ?_ ?_
  · assumption
  extract_lets +onlyGivenNames v0
  refine cut (P := Keeps s0 v0) ?_ fun k1 => ?_
  · unfold v0
    exact keeps_State_raise (keeps_State_addSat ‹_›)
  clear_value v0
  extract_lets +onlyGivenNames v2
  refine cut (P := Keeps s0 v2) ?_ fun k3 => ?_
  · unfold v2
    exact keeps_setCard ‹_›
  clear_value v2
  extract_lets +onlyGivenNames v4
  refine cut (P := Keeps s0 v4) ?_ fun k5 => ?_
  · unfold v4
    exact keeps_State_setFlag ‹_›
  clear_value v4
  split
  · rename_i x6 x7 e8
    exact keeps_State_setFld ‹_›
  rename_i x9 e10
  exact keeps_stepDown ‹_›

theorem keeps_crcFail {s0 s : State} (hk : Keeps s0 s) {p : Nat} {sweep : Nat} :
    Keeps s0 (crcFail p sweep s) := by
  unfold crcFail
  extract_lets +onlyGivenNames v0
  refine cut (P := Keeps s0 v0) ?_ fun k1 => ?_
  · unfold v0
    exact keeps_State_raise (keeps_State_addSat ‹_›)
  clear_value v0
  refine Keeps.ite ?_ ?_
  · exact keeps_tuneWhole (keeps_setCard ‹_›)
  extract_lets +onlyGivenNames v2
  refine cut (P := Keeps s0 v2) ?_ fun k3 => ?_
  · unfold v2
    exact keeps_stepDown (keeps_setCard ‹_›)
  clear_value v2
  refine Keeps.ite ?_ ?_
  · assumption
  exact keeps_tuneWhole ‹_›

theorem keeps_expStep {s0 s : State} (hk : Keeps s0 s) :
    Keeps s0 (expStep s) := by
  unfold expStep
  extract_lets +onlyGivenNames v0
  clear_value v0
  split
  · rename_i x1 e2
    assumption
  rename_i x3 x4 e5
  extract_lets +onlyGivenNames v6
  refine Keeps.ite ?_ ?_
  · unfold v6
    exact keeps_State_onCards ‹_›
  refine Keeps.ite ?_ ?_
  · refine Keeps.ite ?_ ?_
    · exact keeps_expEnd ‹_›
    refine Keeps.ite ?_ ?_
    · assumption
    extract_lets +onlyGivenNames v7
    clear_value v7
    extract_lets +onlyGivenNames v8
    refine cut (P := Keeps s0 v8) ?_ fun k9 => ?_
    · unfold v8
      exact keeps_State_wrWords ‹_›
    clear_value v8
    unfold v6
    exact keeps_State_onCards (keeps_State_onCards ‹_›)
  refine Keeps.ite ?_ ?_
  · extract_lets +onlyGivenNames v10
    refine cut (P := Keeps s0 v10) ?_ fun k11 => ?_
    · unfold v10
      exact keeps_State_setFlag ‹_›
    clear_value v10
    extract_lets +onlyGivenNames v12
    refine cut (P := Keeps s0 v12) ?_ fun k13 => ?_
    · unfold v12
      refine Keeps.ite ?_ ?_
      · exact keeps_setCard ‹_›
      assumption
    clear_value v12
    exact keeps_expEnd ‹_›
  assumption

theorem keeps_courtDone {s0 s : State} (hk : Keeps s0 s) {p : Nat} :
    Keeps s0 (courtDone p s) := by
  unfold courtDone
  exact keeps_courtEnd (keeps_State_setFlag ‹_›)

theorem keeps_cardDma {s0 s : State} (hk : Keeps s0 s) {c : CardCmd} {data : Bytes} :
    Keeps s0 (cardDma c data s).2 := by
  unfold cardDma
  extract_lets +onlyGivenNames v0
  clear_value v0
  refine Keeps.iteSnd ?_ ?_
  · exact Keeps.pair ‹_›
  refine Keeps.iteSnd ?_ ?_
  · exact Keeps.pair ‹_›
  split
  rename_i x1 x2 x3 e4
  refine cut (P := Keeps s0 x3) ?_ fun k5 => ?_
  · exact Keeps.snd e4 (keeps_jobAccess ‹_›)
  refine Keeps.iteSnd ?_ ?_
  · exact Keeps.pair ‹_›
  refine Keeps.pair ?_
  refine Keeps.ite ?_ ?_
  · assumption
  exact keeps_State_store ‹_›

theorem keeps_csdProgrammed {s0 s : State} (hk : Keeps s0 s) {p : Nat} {c : CardCmd} :
    Keeps s0 (csdProgrammed p c s) := by
  unfold csdProgrammed
  refine Keeps.ite ?_ ?_
  · extract_lets +onlyGivenNames v0
    clear_value v0
    exact keeps_State_setFlag (keeps_State_setFlag ‹_›)
  assumption

theorem keeps_cardResp {s0 s : State} (hk : Keeps s0 s) {p : Nat} {c : CardCmd} {resp : List Word} :
    Keeps s0 (cardResp p c resp s) := by
  unfold cardResp
  extract_lets +onlyGivenNames v0
  clear_value v0
  refine Keeps.ite ?_ ?_
  · assumption
  refine Keeps.ite ?_ ?_
  · exact keeps_State_wrWords ‹_›
  exact keeps_State_wr ‹_›

theorem keeps_rawDone {s0 s : State} (hk : Keeps s0 s) {p : Nat} {c : CardCmd} {resp : List Word} {data : Bytes} :
    Keeps s0 (rawDone p c resp data s) := by
  unfold rawDone
  split
  rename_i x0 x1 x2 e3
  refine cut (P := Keeps s0 x2) ?_ fun k4 => ?_
  · exact Keeps.snd e3 (keeps_cardDma ‹_›)
  refine Keeps.ite ?_ ?_
  · exact keeps_boundary (keeps_setCState (keeps_xferEnd ‹_›))
  exact keeps_boundary (keeps_setCState (keeps_xferEnd (keeps_csdProgrammed (keeps_cardResp ‹_›))))

theorem keeps_cardDone {s0 s : State} (hk : Keeps s0 s) {p : Nat} {out : CardOut} :
    Keeps s0 (cardDone p out s) := by
  unfold cardDone
  extract_lets +onlyGivenNames v0
  clear_value v0
  extract_lets +onlyGivenNames v1
  clear_value v1
  split
  · rename_i x2 x3
    refine Keeps.ite ?_ ?_
    · exact keeps_crcFail ‹_›
    assumption
  · rename_i x4
    refine Keeps.ite ?_ ?_
    · exact keeps_expEnd (keeps_xstatEnd ‹_›)
    refine Keeps.ite ?_ ?_
    · exact keeps_courtEnd (keeps_xstatEnd ‹_›)
    refine Keeps.ite ?_ ?_
    · exact keeps_boundary (keeps_setCState (keeps_xferEnd ‹_›))
    assumption
  rename_i x5 x6 x7
  refine Keeps.ite ?_ ?_
  · exact keeps_boundary (keeps_expStep (keeps_setCard ‹_›))
  refine Keeps.ite ?_ ?_
  · exact keeps_boundary (keeps_courtDone ‹_›)
  split
  · rename_i x8 x9 e10
    exact keeps_rawDone ‹_›
  rename_i x11 e12
  assumption

theorem keeps_pabort {s0 s : State} (hk : Keeps s0 s) {p : Nat} {tie : Option CardOut} :
    Keeps s0 (pabort p tie s) := by
  unfold pabort
  extract_lets +onlyGivenNames v0
  refine Keeps.ite ?_ ?_
  · assumption
  split
  · rename_i x1 x2 x3 e4
    refine Keeps.ite ?_ ?_
    · unfold v0
      exact keeps_State_setFld ‹_›
    unfold v0
    exact keeps_State_setFld ‹_›
  · rename_i x5 x6 x7 x8 e9
    refine keeps_cardDone ?_
    unfold v0
    exact keeps_State_setFld ‹_›
  rename_i x10 x11 x12 e13
  refine keeps_boundary (keeps_setCState (keeps_xferEnd ?_))
  unfold v0
  exact keeps_State_setFld ‹_›

theorem keeps_retuneStep {s0 s : State} (hk : Keeps s0 s) {p : Nat} {mask : Nat} {temp : Int} :
    Keeps s0 (retuneStep p mask temp s) := by
  unfold retuneStep
  extract_lets +onlyGivenNames v0
  clear_value v0
  split
  · rename_i x1 e2
    assumption
  rename_i x3 x4 e5
  extract_lets +onlyGivenNames v6
  clear_value v6
  refine Keeps.ite ?_ ?_
  · assumption
  extract_lets +onlyGivenNames v7
  clear_value v7
  refine Keeps.ite ?_ ?_
  · exact keeps_setCard ‹_›
  extract_lets +onlyGivenNames v8
  refine cut (P := Keeps s0 v8) ?_ fun k9 => ?_
  · unfold v8
    refine Keeps.ite ?_ ?_
    · assumption
    exact keeps_setCard (keeps_setCSpeed ‹_›)
  clear_value v8
  extract_lets +onlyGivenNames v10
  clear_value v10
  exact keeps_tuneWhole ‹_›

theorem keeps_courtTimeout {s0 s : State} (hk : Keeps s0 s) :
    Keeps s0 (courtTimeout s) := by
  unfold courtTimeout
  split
  · rename_i x0 x1 e2
    refine Keeps.ite ?_ ?_
    · exact keeps_courtEnd ‹_›
    assumption
  rename_i x3 e4
  assumption

theorem keeps_expFirstPass {s0 s : State} (hk : Keeps s0 s) :
    Keeps s0 (expFirstPass s) := by
  unfold expFirstPass
  extract_lets +onlyGivenNames v0
  clear_value v0
  split
  · rename_i x1 e2
    assumption
  rename_i x3 x4 e5
  refine Keeps.ite ?_ ?_
  · assumption
  split
  · rename_i x6 x7 x8 e9
    refine cut (P := Keeps s0 x8) ?_ fun k10 => ?_
    · exact Keeps.snd e9 (keeps_firstPass ‹_›)
    refine keeps_expEnd ?_
    refine Keeps.ite ?_ ?_
    · exact keeps_State_wr64 ‹_›
    assumption
  rename_i x11 x12 x13 e14
  refine cut (P := Keeps s0 x13) ?_ fun k15 => ?_
  · exact Keeps.snd e14 (keeps_firstPass ‹_›)
  extract_lets +onlyGivenNames v16
  clear_value v16
  extract_lets +onlyGivenNames v17
  refine cut (P := Keeps s0 v17) ?_ fun k18 => ?_
  · unfold v17
    exact keeps_State_wr64 (keeps_State_wr ‹_›)
  clear_value v17
  extract_lets +onlyGivenNames v19
  refine cut (P := Keeps s0 v19) ?_ fun k20 => ?_
  · unfold v19
    exact keeps_State_onCards ‹_›
  clear_value v19
  refine Keeps.ite ?_ ?_
  · exact keeps_expEnd ‹_›
  refine Keeps.ite ?_ ?_
  · exact keeps_expEnd ‹_›
  exact keeps_setCState (keeps_boundary (keeps_State_setFld ‹_›))

theorem keeps_removal {s0 s : State} (hk : Keeps s0 s) {p : Nat} :
    Keeps s0 (removal p s) := by
  unfold removal
  refine Keeps.ite ?_ ?_
  · assumption
  extract_lets +onlyGivenNames v0
  clear_value v0
  extract_lets +onlyGivenNames v1
  refine cut (P := Keeps s0 v1) ?_ fun k2 => ?_
  · unfold v1
    refine Keeps.ite ?_ ?_
    · exact keeps_xferEnd ‹_›
    assumption
  clear_value v1
  extract_lets +onlyGivenNames v3
  refine cut (P := Keeps s0 v3) ?_ fun k4 => ?_
  · unfold v3
    exact keeps_portLost ‹_›
  clear_value v3
  extract_lets +onlyGivenNames v5
  refine cut (P := Keeps s0 v5) ?_ fun k6 => ?_
  · unfold v5
    exact keeps_setCard (keeps_portOff ‹_›)
  clear_value v5
  extract_lets +onlyGivenNames v7
  clear_value v7
  extract_lets +onlyGivenNames v8
  refine cut (P := Keeps s0 v8) ?_ fun k9 => ?_
  · unfold v8
    exact keeps_State_wr ‹_›
  clear_value v8
  refine Keeps.ite ?_ ?_
  · exact keeps_State_raise ‹_›
  assumption

theorem keeps_cardReady {s0 s : State} (hk : Keeps s0 s) {p : Nat} {r : CardInit} :
    Keeps s0 (cardReady p r s) := by
  unfold cardReady
  refine Keeps.ite ?_ ?_
  · assumption
  extract_lets +onlyGivenNames v0
  clear_value v0
  extract_lets +onlyGivenNames v1
  clear_value v1
  refine Keeps.ite ?_ ?_
  · exact keeps_cardFail ‹_›
  refine Keeps.ite ?_ ?_
  · exact keeps_portPower (keeps_portOff ‹_›)
  refine Keeps.ite ?_ ?_
  · exact keeps_cardFail ‹_›
  extract_lets +onlyGivenNames v2
  refine cut (P := Keeps s0 v2) ?_ fun k3 => ?_
  · unfold v2
    exact keeps_setCard ‹_›
  clear_value v2
  extract_lets +onlyGivenNames v4
  refine cut (P := Keeps s0 v4) ?_ fun k5 => ?_
  · unfold v4
    exact keeps_State_wr (keeps_State_wrWords ‹_›)
  clear_value v4
  extract_lets +onlyGivenNames v6
  clear_value v6
  split
  rename_i x7 x8 x9 x10 e11
  extract_lets +onlyGivenNames v12
  refine cut (P := Keeps s0 v12) ?_ fun k13 => ?_
  · unfold v12
    exact keeps_setCSpeed ‹_›
  clear_value v12
  extract_lets +onlyGivenNames v14
  refine cut (P := Keeps s0 v14) ?_ fun k15 => ?_
  · unfold v14
    split
    · rename_i x16 x17
      exact keeps_State_setFld ‹_›
    rename_i x18
    assumption
  clear_value v14
  extract_lets +onlyGivenNames v19
  refine cut (P := Keeps s0 v19) ?_ fun k20 => ?_
  · unfold v19
    refine Keeps.ite ?_ ?_
    · assumption
    exact keeps_State_raise ‹_›
  clear_value v19
  extract_lets +onlyGivenNames v21
  refine cut (P := Keeps s0 v21) ?_ fun k22 => ?_
  · unfold v21
    exact keeps_State_setFlag (keeps_State_setFlag ‹_›)
  clear_value v21
  exact keeps_boundary (keeps_State_raise (keeps_setCState ‹_›))

theorem keeps_retuneTrigger {s0 s : State} (hk : Keeps s0 s) {p : Nat} {temp : Int} :
    Keeps s0 (retuneTrigger p temp s) := by
  unfold retuneTrigger
  extract_lets +onlyGivenNames v0
  clear_value v0
  extract_lets +onlyGivenNames v1
  clear_value v1
  extract_lets +onlyGivenNames v2
  clear_value v2
  refine Keeps.ite ?_ ?_
  · exact keeps_State_setFlag (keeps_setCard ‹_›)
  assumption

theorem keeps_insertion {s0 s : State} (hk : Keeps s0 s) {p : Nat} :
    Keeps s0 (insertion p s) := by
  unfold insertion
  refine Keeps.ite ?_ ?_
  · assumption
  extract_lets +onlyGivenNames v0
  refine cut (P := Keeps s0 v0) ?_ fun k1 => ?_
  · unfold v0
    exact keeps_State_setFlag ‹_›
  clear_value v0
  refine Keeps.ite ?_ ?_
  · exact keeps_portPower ‹_›
  assumption

theorem keeps_cardSleep {s0 s : State} (hk : Keeps s0 s) :
    Keeps s0 (cardSleep s) := by
  unfold cardSleep
  refine Keeps.ite ?_ ?_
  · exact keeps_setCState ‹_›
  assumption

theorem keeps_busyTimeout {s0 s : State} (hk : Keeps s0 s) {p : Nat} :
    Keeps s0 (busyTimeout p s) := by
  unfold busyTimeout
  refine Keeps.ite ?_ ?_
  · extract_lets +onlyGivenNames v0
    refine cut (P := Keeps s0 v0) ?_ fun k1 => ?_
    · unfold v0
      exact keeps_State_raise (keeps_State_addSat ‹_›)
    clear_value v0
    exact keeps_setSticky (keeps_portOff (keeps_cardFail ‹_›))
  assumption

end Sys2Proof.Laws
end

