-- ==== Sys2Proof/Laws/KeepsPercale.lean ====
section
/-!
SUPPORT. What every operation of Machine/Percale.lean keeps (`Keeps`, Laws/Keeps.lean).
-/

namespace Sys2Proof.Laws

open Sys2Proof.Machine

theorem keeps_slotErr {s0 s : State} (hk : Keeps s0 s) {i : Nat} {code : Nat} :
    Keeps s0 (slotErr i code s) := by
  unfold slotErr
  exact keeps_State_raise (keeps_State_setFld ‹_›)

theorem keeps_setCSlot {s0 s : State} (hk : Keeps s0 s) {i : Nat} {f : CardSlot → CardSlot} :
    Keeps s0 (setCSlot i f s) := by
  unfold setCSlot
  exact keeps_State_onCards ‹_›

theorem keeps_setPState {s0 s : State} (hk : Keeps s0 s) {i : Nat} {v : Nat} :
    Keeps s0 (setPState i v s) := by
  unfold setPState
  exact keeps_State_setFld ‹_›

theorem keeps_deactivate {s0 s : State} (hk : Keeps s0 s) {i : Nat} :
    Keeps s0 (deactivate i s) := by
  unfold deactivate
  extract_lets +onlyGivenNames v0
  clear_value v0
  extract_lets +onlyGivenNames v1
  clear_value v1
  refine Keeps.ite ?_ ?_
  · assumption
  extract_lets +onlyGivenNames v2
  clear_value v2
  extract_lets +onlyGivenNames v3
  refine cut (P := Keeps s0 v3) ?_ fun k4 => ?_
  · unfold v3
    refine Keeps.ite ?_ ?_
    · exact keeps_slotErr ‹_›
    assumption
  clear_value v3
  extract_lets +onlyGivenNames v5
  refine cut (P := Keeps s0 v5) ?_ fun k6 => ?_
  · unfold v5
    exact keeps_setCSlot ‹_›
  clear_value v5
  extract_lets +onlyGivenNames v7
  refine cut (P := Keeps s0 v7) ?_ fun k8 => ?_
  · unfold v7
    exact keeps_State_setFld (keeps_State_setFlag ‹_›)
  clear_value v7
  exact keeps_State_raise (keeps_setPState ‹_›)

theorem keeps_cardsPfail {s0 s : State} (hk : Keeps s0 s) :
    Keeps s0 (cardsPfail s) := by
  unfold cardsPfail
  extract_lets +onlyGivenNames v0
  refine cut (P := Keeps s0 v0) ?_ fun k1 => ?_
  · unfold v0
    refine Keeps.foldl ?_ fun t2 x3 k4 => ?_
    · assumption
    extract_lets +onlyGivenNames v5
    clear_value v5
    refine keeps_portOff ?_
    refine Keeps.ite ?_ ?_
    · exact keeps_xferEnd ‹_›
    assumption
  clear_value v0
  extract_lets +onlyGivenNames v6
  refine cut (P := Keeps s0 v6) ?_ fun k7 => ?_
  · unfold v6
    exact keeps_expEnd ‹_›
  clear_value v6
  refine Keeps.foldl ?_ fun t8 x9 k10 => ?_
  · assumption
  exact keeps_deactivate ‹_›

theorem keeps_ppsFail {s0 s : State} (hk : Keeps s0 s) {i : Nat} :
    Keeps s0 (ppsFail i s) := by
  unfold ppsFail
  exact keeps_setCSlot (keeps_deactivate (keeps_setCSlot ‹_›))

theorem keeps_authStart {s0 s : State} (hk : Keeps s0 s) {w : Word} :
    Keeps s0 (authStart w s) := by
  unfold authStart
  extract_lets +onlyGivenNames v0
  refine cut (P := Keeps s0 v0) ?_ fun k1 => ?_
  · unfold v0
    exact keeps_State_wr ‹_›
  clear_value v0
  refine Keeps.ite ?_ ?_
  · assumption
  split
  rename_i x2 x3 x4 e5
  refine cut (P := Keeps s0 x4) ?_ fun k6 => ?_
  · exact Keeps.snd e5 (keeps_drbgNow ‹_›)
  split
  · rename_i x7 x8
    extract_lets +onlyGivenNames v9
    refine cut (P := Keeps s0 v9) ?_ fun k10 => ?_
    · unfold v9
      exact keeps_State_wr (keeps_State_wrWords ‹_›)
    clear_value v9
    exact keeps_State_onCards ‹_›
  rename_i x11
  exact keeps_State_onCards (keeps_State_wr ‹_›)

theorem keeps_authRsp {s0 s : State} (hk : Keeps s0 s) {k : Nat} {w : Word} :
    Keeps s0 (authRsp k w s) := by
  unfold authRsp
  extract_lets +onlyGivenNames v0
  refine cut (P := Keeps s0 v0) ?_ fun k1 => ?_
  · unfold v0
    exact keeps_State_onCards ‹_›
  clear_value v0
  refine Keeps.ite ?_ ?_
  · assumption
  extract_lets +onlyGivenNames v2
  split
  · rename_i x3 e4
    unfold v2
    exact keeps_State_onCards (keeps_State_wr ‹_›)
  rename_i x5 x6 x7 e8
  extract_lets +onlyGivenNames v9
  clear_value v9
  extract_lets +onlyGivenNames v10
  clear_value v10
  extract_lets +onlyGivenNames v11
  clear_value v11
  split
  · rename_i x12 x13 e14
    refine Keeps.ite ?_ ?_
    · extract_lets +onlyGivenNames v15
      refine cut (P := Keeps s0 v15) ?_ fun k16 => ?_
      · unfold v15
        exact keeps_State_setFld (keeps_State_setFlag ‹_›)
      clear_value v15
      exact keeps_State_onCards (keeps_State_wr ‹_›)
    unfold v2
    exact keeps_State_onCards (keeps_State_wr ‹_›)
  rename_i x17 e18
  unfold v2
  exact keeps_State_onCards (keeps_State_wr ‹_›)

theorem keeps_txDrain {s0 s : State} (hk : Keeps s0 s) {i : Nat} {n : Nat} :
    Keeps s0 (txDrain i n s) := by
  unfold txDrain
  extract_lets +onlyGivenNames v0
  clear_value v0
  refine Keeps.ite ?_ ?_
  · assumption
  extract_lets +onlyGivenNames v1
  refine cut (P := Keeps s0 v1) ?_ fun k2 => ?_
  · unfold v1
    exact keeps_setCSlot ‹_›
  clear_value v1
  refine Keeps.ite ?_ ?_
  · exact keeps_State_raise ‹_›
  assumption

theorem keeps_txWrite {s0 s : State} (hk : Keeps s0 s) {i : Nat} {b : Byte} {sent : Nat} {refused : Bool} :
    Keeps s0 (txWrite i b sent refused s) := by
  unfold txWrite
  refine Keeps.ite ?_ ?_
  · assumption
  extract_lets +onlyGivenNames v0
  refine cut (P := Keeps s0 v0) ?_ fun k1 => ?_
  · unfold v0
    exact keeps_txDrain (keeps_setPState ‹_›)
  clear_value v0
  extract_lets +onlyGivenNames v2
  refine cut (P := Keeps s0 v2) ?_ fun k3 => ?_
  · unfold v2
    refine Keeps.ite ?_ ?_
    · exact keeps_slotErr (keeps_setCSlot ‹_›)
    assumption
  clear_value v2
  refine Keeps.ite ?_ ?_
  · exact keeps_setCSlot ‹_›
  assumption

theorem keeps_deact {s0 s : State} (hk : Keeps s0 s) {i : Nat} :
    Keeps s0 (deact i s) := by
  unfold deact
  refine Keeps.ite ?_ ?_
  · exact keeps_deactivate ‹_›
  assumption

theorem keeps_activateAt {s0 s : State} (hk : Keeps s0 s) {i : Nat} {classB : Bool} :
    Keeps s0 (activateAt i classB s) := by
  unfold activateAt
  extract_lets +onlyGivenNames v0
  refine cut (P := Keeps s0 v0) ?_ fun k1 => ?_
  · unfold v0
    exact keeps_State_wr ‹_›
  clear_value v0
  extract_lets +onlyGivenNames v2
  refine cut (P := Keeps s0 v2) ?_ fun k3 => ?_
  · unfold v2
    exact keeps_setCSlot ‹_›
  clear_value v2
  exact keeps_State_wr (keeps_State_wr ‹_›)

theorem keeps_slotFail {s0 s : State} (hk : Keeps s0 s) {i : Nat} :
    Keeps s0 (slotFail i s) := by
  unfold slotFail
  exact keeps_State_raise (keeps_setPState ‹_›)

theorem keeps_activateSlot {s0 s : State} (hk : Keeps s0 s) {i : Nat} :
    Keeps s0 (activateSlot i s) := by
  unfold activateSlot
  refine Keeps.ite ?_ ?_
  · exact keeps_activateAt ‹_›
  refine Keeps.ite ?_ ?_
  · exact keeps_activateAt ‹_›
  exact keeps_slotFail ‹_›

theorem keeps_activate {s0 s : State} (hk : Keeps s0 s) {i : Nat} :
    Keeps s0 (activate i s) := by
  unfold activate
  refine Keeps.ite ?_ ?_
  · exact keeps_activateSlot ‹_›
  assumption

theorem keeps_rxPush {s0 s : State} (hk : Keeps s0 s) {i : Nat} {b : Byte} :
    Keeps s0 (rxPush i b s) := by
  unfold rxPush
  exact keeps_setCSlot ‹_›

theorem keeps_charReceived {s0 s : State} (hk : Keeps s0 s) {i : Nat} {b : Byte} {parityErr : Bool} :
    Keeps s0 (charReceived i b parityErr s) := by
  unfold charReceived
  refine Keeps.ite ?_ ?_
  · assumption
  extract_lets +onlyGivenNames v0
  refine cut (P := Keeps s0 v0) ?_ fun k1 => ?_
  · unfold v0
    exact keeps_txDrain ‹_›
  clear_value v0
  extract_lets +onlyGivenNames v2
  clear_value v2
  refine Keeps.ite ?_ ?_
  · refine Keeps.ite ?_ ?_
    · refine Keeps.ite ?_ ?_
      · exact keeps_setCSlot ‹_›
      exact keeps_slotErr (keeps_setCSlot ‹_›)
    exact keeps_State_raise (keeps_rxPush (keeps_setCSlot ‹_›))
  extract_lets +onlyGivenNames v3
  clear_value v3
  extract_lets +onlyGivenNames v4
  clear_value v4
  extract_lets +onlyGivenNames v5
  refine cut (P := Keeps s0 v5) ?_ fun k6 => ?_
  · unfold v5
    exact keeps_setCSlot ‹_›
  clear_value v5
  extract_lets +onlyGivenNames v7
  refine cut (P := Keeps s0 v7) ?_ fun k8 => ?_
  · unfold v7
    refine Keeps.ite ?_ ?_
    · exact keeps_rxPush ‹_›
    assumption
  clear_value v7
  refine Keeps.ite ?_ ?_
  · extract_lets +onlyGivenNames v9
    extract_lets +onlyGivenNames v10
    refine cut (P := Keeps s0 v10) ?_ fun k11 => ?_
    · unfold v10
      exact keeps_setCSlot ‹_›
    clear_value v10
    extract_lets +onlyGivenNames v12
    refine cut (P := Keeps s0 v12) ?_ fun k13 => ?_
    · unfold v12
      refine Keeps.ite ?_ ?_
      · exact keeps_slotErr ‹_›
      refine Keeps.ite ?_ ?_
      · assumption
      exact keeps_slotErr ‹_›
    clear_value v12
    exact keeps_State_raise ‹_›
  assumption

theorem keeps_waitingExpiry {s0 s : State} (hk : Keeps s0 s) {i : Nat} :
    Keeps s0 (waitingExpiry i s) := by
  unfold waitingExpiry
  refine Keeps.ite ?_ ?_
  · assumption
  refine Keeps.ite ?_ ?_
  · exact keeps_ppsFail ‹_›
  refine Keeps.ite ?_ ?_
  · exact keeps_slotErr (keeps_setCSlot ‹_›)
  assumption

theorem keeps_nextClass {s0 s : State} (hk : Keeps s0 s) {i : Nat} :
    Keeps s0 (nextClass i s) := by
  unfold nextClass
  extract_lets +onlyGivenNames v0
  clear_value v0
  extract_lets +onlyGivenNames v1
  refine cut (P := Keeps s0 v1) ?_ fun k2 => ?_
  · unfold v1
    exact keeps_deactivate ‹_›
  clear_value v1
  refine Keeps.ite ?_ ?_
  · exact keeps_activateAt ‹_›
  exact keeps_slotFail ‹_›

theorem keeps_atr {s0 s : State} (hk : Keeps s0 s) {i : Nat} {bs : Bytes} {parityBad : Bool} :
    Keeps s0 (atr i bs parityBad s) := by
  unfold atr
  refine Keeps.ite ?_ ?_
  · assumption
  extract_lets +onlyGivenNames v0
  refine cut (P := Keeps s0 v0) ?_ fun k1 => ?_
  · unfold v0
    exact keeps_State_wrWords ‹_›
  clear_value v0
  extract_lets +onlyGivenNames v2
  refine cut (P := Keeps s0 v2) ?_ fun k3 => ?_
  · unfold v2
    exact keeps_State_wr ‹_›
  clear_value v2
  split
  · rename_i x4 e5
    exact keeps_nextClass ‹_›
  rename_i x6 x7 e8
  extract_lets +onlyGivenNames v9
  clear_value v9
  extract_lets +onlyGivenNames v10
  clear_value v10
  extract_lets +onlyGivenNames v11
  clear_value v11
  extract_lets +onlyGivenNames v12
  clear_value v12
  extract_lets +onlyGivenNames v13
  refine cut (P := Keeps s0 v13) ?_ fun k14 => ?_
  · unfold v13
    exact keeps_State_wr ‹_›
  clear_value v13
  extract_lets +onlyGivenNames v15
  clear_value v15
  extract_lets +onlyGivenNames v16
  clear_value v16
  extract_lets +onlyGivenNames v17
  clear_value v17
  extract_lets +onlyGivenNames v18
  refine cut (P := Keeps s0 v18) ?_ fun k19 => ?_
  · unfold v18
    exact keeps_State_wr ‹_›
  clear_value v18
  extract_lets +onlyGivenNames v20
  refine cut (P := Keeps s0 v20) ?_ fun k21 => ?_
  · unfold v20
    exact keeps_State_setFld ‹_›
  clear_value v20
  extract_lets +onlyGivenNames v22
  clear_value v22
  extract_lets +onlyGivenNames v23
  clear_value v23
  extract_lets +onlyGivenNames v24
  clear_value v24
  extract_lets +onlyGivenNames v25
  refine cut (P := Keeps s0 v25) ?_ fun k26 => ?_
  · unfold v25
    exact keeps_State_setFlag ‹_›
  clear_value v25
  extract_lets +onlyGivenNames v27
  refine cut (P := Keeps s0 v27) ?_ fun k28 => ?_
  · unfold v27
    exact keeps_State_raise ‹_›
  clear_value v27
  extract_lets +onlyGivenNames v29
  clear_value v29
  extract_lets +onlyGivenNames v30
  extract_lets +onlyGivenNames v31
  refine cut (P := Keeps s0 v31) ?_ fun k32 => ?_
  · unfold v31
    exact keeps_setCSlot ‹_›
  clear_value v31
  split
  · rename_i x33 x34
    refine keeps_setPState ?_
    refine Keeps.ite ?_ ?_
    · assumption
    unfold v30
    exact keeps_setCSlot ‹_›
  rename_i x35
  refine Keeps.ite ?_ ?_
  · exact keeps_setCSlot ‹_›
  exact keeps_setPState ‹_›

theorem keeps_ioStuck {s0 s : State} (hk : Keeps s0 s) {i : Nat} :
    Keeps s0 (ioStuck i s) := by
  unfold ioStuck
  refine Keeps.ite ?_ ?_
  · exact keeps_setSticky (keeps_slotFail (keeps_deactivate ‹_›))
  assumption

theorem keeps_clockStop {s0 s : State} (hk : Keeps s0 s) {i : Nat} :
    Keeps s0 (clockStop i s) := by
  unfold clockStop
  refine Keeps.ite ?_ ?_
  · exact keeps_setPState ‹_›
  assumption

theorem keeps_overcurrent {s0 s : State} (hk : Keeps s0 s) {i : Nat} :
    Keeps s0 (overcurrent i s) := by
  unfold overcurrent
  refine Keeps.ite ?_ ?_
  · exact keeps_setSticky (keeps_slotFail (keeps_State_raise (keeps_deactivate ‹_›)))
  assumption

theorem keeps_presence {s0 s : State} (hk : Keeps s0 s) {i : Nat} {level : Bool} :
    Keeps s0 (presence i level s) := by
  unfold presence
  refine Keeps.ite ?_ ?_
  · assumption
  refine Keeps.ite ?_ ?_
  · refine Keeps.ite ?_ ?_
    · assumption
    extract_lets +onlyGivenNames v0
    refine cut (P := Keeps s0 v0) ?_ fun k1 => ?_
    · unfold v0
      exact keeps_setCSlot ‹_›
    clear_value v0
    extract_lets +onlyGivenNames v2
    refine cut (P := Keeps s0 v2) ?_ fun k3 => ?_
    · unfold v2
      exact keeps_State_raise (keeps_setPState ‹_›)
    clear_value v2
    refine Keeps.ite ?_ ?_
    · exact keeps_activate ‹_›
    assumption
  refine Keeps.ite ?_ ?_
  · extract_lets +onlyGivenNames v4
    refine cut (P := Keeps s0 v4) ?_ fun k5 => ?_
    · unfold v4
      exact keeps_deactivate ‹_›
    clear_value v4
    extract_lets +onlyGivenNames v6
    refine cut (P := Keeps s0 v6) ?_ fun k7 => ?_
    · unfold v6
      exact keeps_setCSlot ‹_›
    clear_value v6
    exact keeps_State_raise (keeps_setPState ‹_›)
  assumption

theorem keeps_ppsResponse {s0 s : State} (hk : Keeps s0 s) {i : Nat} {confirms : Bool} :
    Keeps s0 (ppsResponse i confirms s) := by
  unfold ppsResponse
  refine Keeps.ite ?_ ?_
  · assumption
  refine Keeps.ite ?_ ?_
  · extract_lets +onlyGivenNames v0
    clear_value v0
    exact keeps_setPState (keeps_setCSlot ‹_›)
  exact keeps_ppsFail ‹_›

theorem keeps_atrTimeout {s0 s : State} (hk : Keeps s0 s) {i : Nat} :
    Keeps s0 (atrTimeout i s) := by
  unfold atrTimeout
  refine Keeps.ite ?_ ?_
  · exact keeps_nextClass ‹_›
  assumption

end Sys2Proof.Laws
end

