-- ==== Sys2Proof/Laws/KeepsPower.lean ====
section
/-!
SUPPORT. What every operation of Machine/Power.lean keeps (`Keeps`, Laws/Keeps.lean).
-/

namespace Sys2Proof.Laws

open Sys2Proof.Machine

theorem keeps_resumeGap {s0 s : State} (hk : Keeps s0 s) {reason : Nat} {sub : Nat} {c : Nat} :
    Keeps s0 (resumeGap reason sub c s) := by
  unfold resumeGap
  extract_lets +onlyGivenNames v0
  refine cut (P := Keeps s0 v0) ?_ fun k1 => ?_
  · unfold v0
    exact keeps_ensureCreate ‹_›
  clear_value v0
  extract_lets +onlyGivenNames v2
  clear_value v2
  extract_lets +onlyGivenNames v3
  refine cut (P := Keeps s0 v3) ?_ fun k4 => ?_
  · unfold v3
    exact keeps_writeGap ‹_›
  clear_value v3
  refine Keeps.ite ?_ ?_
  · exact keeps_writeGap ‹_›
  assumption

theorem keeps_resume {s0 s : State} (hk : Keeps s0 s) :
    Keeps s0 (resume s) := by
  unfold resume
  extract_lets +onlyGivenNames v0
  clear_value v0
  extract_lets +onlyGivenNames v1
  clear_value v1
  split
  rename_i x2 x3 x4 e5
  extract_lets +onlyGivenNames v6
  refine cut (P := Keeps s0 v6) ?_ fun k7 => ?_
  · unfold v6
    refine Keeps.foldl ?_ fun t8 x9 k10 => ?_
    · assumption
    exact keeps_resumeGap ‹_›
  clear_value v6
  extract_lets +onlyGivenNames v11
  refine cut (P := Keeps s0 v11) ?_ fun k12 => ?_
  · unfold v11
    exact keeps_State_onPower ‹_›
  clear_value v11
  extract_lets +onlyGivenNames v13
  refine cut (P := Keeps s0 v13) ?_ fun k14 => ?_
  · unfold v13
    exact keeps_State_wr ‹_›
  clear_value v13
  extract_lets +onlyGivenNames v15
  refine cut (P := Keeps s0 v15) ?_ fun k16 => ?_
  · unfold v15
    refine Keeps.ite ?_ ?_
    · exact keeps_State_onFelt ‹_›
    assumption
  clear_value v15
  refine Keeps.ite ?_ ?_
  · exact keeps_setDisc ‹_›
  assumption

theorem keeps_recordingResume {s0 s : State} (hk : Keeps s0 s) :
    Keeps s0 (recordingResume s) := by
  unfold recordingResume
  refine Keeps.ite ?_ ?_
  · exact keeps_resume ‹_›
  assumption

theorem keeps_lbStep {s0 s : State} (hk : Keeps s0 s) {k : Nat} :
    Keeps s0 (lbStep k s) := by
  unfold lbStep
  extract_lets +onlyGivenNames v0
  clear_value v0
  extract_lets +onlyGivenNames v1
  clear_value v1
  exact keeps_State_onFelt (keeps_State_onPower ‹_›)

theorem keeps_dropUntaken {s0 s : State} (hk : Keeps s0 s) :
    Keeps s0 (dropUntaken s) := by
  unfold dropUntaken
  exact keeps_State_onMuslin ‹_›

theorem keeps_lastBreath {s0 s : State} (hk : Keeps s0 s) :
    Keeps s0 (lastBreath s) := by
  unfold lastBreath
  extract_lets +onlyGivenNames v0
  refine cut (P := Keeps s0 v0) ?_ fun k1 => ?_
  · unfold v0
    exact keeps_State_onPower ‹_›
  clear_value v0
  extract_lets +onlyGivenNames v2
  refine cut (P := Keeps s0 v2) ?_ fun k3 => ?_
  · unfold v2
    exact keeps_cardsPfail (keeps_pkPfail (keeps_linenPfail (keeps_nmi ‹_›)))
  clear_value v2
  extract_lets +onlyGivenNames v4
  refine cut (P := Keeps s0 v4) ?_ fun k5 => ?_
  · unfold v4
    refine Keeps.foldl ?_ fun t6 x7 k8 => ?_
    · assumption
    refine Keeps.ite ?_ ?_
    · exact keeps_rdEnd ‹_›
    assumption
  clear_value v4
  exact keeps_lbStep (keeps_closeAll (keeps_dropUntaken ‹_›))

theorem keeps_enterParked {s0 s : State} (hk : Keeps s0 s) :
    Keeps s0 (enterParked s) := by
  unfold enterParked
  exact keeps_keysPowerLoss (keeps_discPowerLoss (keeps_State_onPower ‹_›))

theorem keeps_parkNand {s0 s : State} (hk : Keeps s0 s) :
    Keeps s0 (parkNand s) := by
  unfold parkNand
  refine Keeps.foldl ?_ fun t0 x1 k2 => ?_
  · assumption
  exact keeps_setChan ‹_›

theorem keeps_startLastBreath {s0 s : State} (hk : Keeps s0 s) :
    Keeps s0 (startLastBreath s) := by
  unfold startLastBreath
  refine Keeps.ite ?_ ?_
  · assumption
  refine Keeps.ite ?_ ?_
  · exact keeps_lastBreath ‹_›
  exact keeps_enterParked (keeps_parkNand (keeps_State_onFelt ‹_›))

theorem keeps_rstStuck {s0 s : State} (hk : Keeps s0 s) :
    Keeps s0 (rstStuck s) := by
  unfold rstStuck
  refine Keeps.ite ?_ ?_
  · exact keeps_feltSticky (keeps_State_setFlag (keeps_State_onPower ‹_›))
  assumption

theorem keeps_pfailFall {s0 s : State} (hk : Keeps s0 s) :
    Keeps s0 (pfailFall s) := by
  unfold pfailFall
  exact keeps_startLastBreath (keeps_State_onPower ‹_›)

theorem keeps_canvasStart {s0 s : State} (hk : Keeps s0 s) :
    Keeps s0 (canvasStart s) := by
  unfold canvasStart
  extract_lets +onlyGivenNames v0
  clear_value v0
  extract_lets +onlyGivenNames v1
  clear_value v1
  exact keeps_State_onCanvas ‹_›

theorem keeps_pwrCmd {s0 s : State} (hk : Keeps s0 s) {w : Word} :
    Keeps s0 (pwrCmd w s) := by
  unfold pwrCmd
  refine Keeps.ite ?_ ?_
  · assumption
  refine Keeps.ite ?_ ?_
  · exact keeps_startLastBreath ‹_›
  refine Keeps.ite ?_ ?_
  · exact keeps_recordingResume ‹_›
  assumption

theorem keeps_pfailStuck {s0 s : State} (hk : Keeps s0 s) :
    Keeps s0 (pfailStuck s) := by
  unfold pfailStuck
  refine Keeps.ite ?_ ?_
  · exact keeps_setSticky ‹_›
  assumption

theorem keeps_feltLose {s0 s : State} (hk : Keeps s0 s) :
    Keeps s0 (feltLose s) := by
  unfold feltLose
  extract_lets +onlyGivenNames v0
  refine cut (P := Keeps s0 v0) ?_ fun k1 => ?_
  · unfold v0
    exact keeps_feltFreshRegs ‹_›
  clear_value v0
  extract_lets +onlyGivenNames v2
  clear_value v2
  extract_lets +onlyGivenNames v3
  refine cut (P := Keeps s0 v3) ?_ fun k4 => ?_
  · unfold v3
    exact Keeps.mkSame ‹_›
  clear_value v3
  exact keeps_State_onLinen ‹_›

theorem keeps_feltSupplyLoss {s0 s : State} (hk : Keeps s0 s) :
    Keeps s0 (feltSupplyLoss s) := by
  unfold feltSupplyLoss
  refine Keeps.ite ?_ ?_
  · assumption
  exact keeps_feltLose (keeps_State_onPower ‹_›)

theorem keeps_rebuildDesc {s0 s : State} (hk : Keeps s0 s) {n : Nat} :
    Keeps s0 (rebuildDesc n s) := by
  unfold rebuildDesc
  extract_lets +onlyGivenNames v0
  clear_value v0
  refine Keeps.ite ?_ ?_
  · extract_lets +onlyGivenNames v1
    clear_value v1
    extract_lets +onlyGivenNames v2
    clear_value v2
    extract_lets +onlyGivenNames v3
    clear_value v3
    extract_lets +onlyGivenNames v4
    clear_value v4
    exact keeps_setCust (keeps_State_store ‹_›)
  assumption

theorem keeps_rstRearm {s0 s : State} (hk : Keeps s0 s) :
    Keeps s0 (rstRearm s) := by
  unfold rstRearm
  refine Keeps.ite ?_ ?_
  · exact keeps_State_onPower ‹_›
  assumption

theorem keeps_lbFinish {s0 s : State} (hk : Keeps s0 s) :
    Keeps s0 (lbFinish s) := by
  unfold lbFinish
  refine Keeps.ite ?_ ?_
  · exact keeps_enterParked (keeps_lbStep ‹_›)
  assumption

theorem keeps_lbAnchorDone {s0 s : State} (hk : Keeps s0 s) :
    Keeps s0 (lbAnchorDone s) := by
  unfold lbAnchorDone
  refine Keeps.ite ?_ ?_
  · exact keeps_lbFinish (keeps_lbStep ‹_›)
  assumption

theorem keeps_clearMain {s0 s : State} (hk : Keeps s0 s) {por : Bool} : Keeps s0 (clearMain por s) := by
  unfold clearMain
  dsimp only
  refine keeps_keysReset (keeps_State_onJrn ?_)
  refine hk.trans ⟨rfl, Nat.le_refl _, ?_, fun _ => core_fresh _ rfl rfl rfl rfl, Fuse_grows_refl _⟩
  simp only [Memory.wf, Bool.and_eq_true]
  refine fun ⟨⟨hr, hm⟩, hh⟩ => ⟨⟨swf_filterMap _ _ _ ?_ hr, swf_filter _ _ _ hm⟩, hh⟩
  intro e f h
  split at h
  · simp at h
  · split at h
    · simp at h
    · rename_i hn
      simp only [Option.some.injEq] at h
      subst h
      exact ⟨rfl, fun hw => hn (Or.inr hw)⟩

theorem keeps_resetCause {s0 s : State} (hk : Keeps s0 s) {cause : Nat} :
    Keeps s0 (resetCause cause s) := by
  unfold resetCause
  extract_lets +onlyGivenNames v0
  clear_value v0
  extract_lets +onlyGivenNames v1
  refine cut (P := Keeps s0 v1) ?_ fun k2 => ?_
  · unfold v1
    exact keeps_State_setFld ‹_›
  clear_value v1
  extract_lets +onlyGivenNames v3
  refine cut (P := Keeps s0 v3) ?_ fun k4 => ?_
  · unfold v3
    exact keeps_State_setFld ‹_›
  clear_value v3
  extract_lets +onlyGivenNames v5
  refine cut (P := Keeps s0 v5) ?_ fun k6 => ?_
  · unfold v5
    exact keeps_State_setFlag ‹_›
  clear_value v5
  extract_lets +onlyGivenNames v7
  refine cut (P := Keeps s0 v7) ?_ fun k8 => ?_
  · unfold v7
    exact keeps_State_setFld ‹_›
  clear_value v7
  extract_lets +onlyGivenNames v9
  refine cut (P := Keeps s0 v9) ?_ fun k10 => ?_
  · unfold v9
    exact keeps_State_onFelt ‹_›
  clear_value v9
  exact keeps_diagEntry ‹_›

theorem keeps_cellCheck {s0 s : State} (hk : Keeps s0 s) :
    Keeps s0 (cellCheck s) := by
  unfold cellCheck
  refine Keeps.ite ?_ ?_
  · exact keeps_State_onFelt ‹_›
  extract_lets +onlyGivenNames c0
  clear_value c0
  extract_lets +onlyGivenNames v0
  refine cut (P := Keeps s0 v0) ?_ fun k1 => ?_
  · unfold v0
    exact keeps_feltLose ‹_›
  clear_value v0
  extract_lets +onlyGivenNames v2
  clear_value v2
  extract_lets +onlyGivenNames v3
  clear_value v3
  extract_lets +onlyGivenNames v4
  clear_value v4
  extract_lets +onlyGivenNames v5
  clear_value v5
  extract_lets +onlyGivenNames v6
  refine cut (P := Keeps s0 v6) ?_ fun k7 => ?_
  · unfold v6
    exact keeps_State_onFelt ‹_›
  clear_value v6
  exact keeps_setSticky (keeps_feltLog ‹_›)

theorem keeps_watchdogReset {s0 s : State} (hk : Keeps s0 s) {cause : Nat} {was : Word} :
    Keeps s0 (watchdogReset cause was s) := by
  unfold watchdogReset
  extract_lets +onlyGivenNames v0
  refine cut (P := Keeps s0 v0) ?_ fun k1 => ?_
  · unfold v0
    refine Keeps.ite ?_ ?_
    · exact keeps_State_wr ‹_›
    assumption
  clear_value v0
  exact keeps_State_setFlag ‹_›

theorem keeps_loadFuses {s0 s : State} (hk : Keeps s0 s) :
    Keeps s0 (loadFuses s) := by
  unfold loadFuses
  extract_lets +onlyGivenNames v0
  clear_value v0
  extract_lets +onlyGivenNames v1
  refine cut (P := Keeps s0 v1) ?_ fun k2 => ?_
  · unfold v1
    exact keeps_State_setFld ‹_›
  clear_value v1
  extract_lets +onlyGivenNames v3
  clear_value v3
  extract_lets +onlyGivenNames v4
  refine cut (P := Keeps s0 v4) ?_ fun k5 => ?_
  · unfold v4
    exact keeps_State_wr ‹_›
  clear_value v4
  extract_lets +onlyGivenNames v6
  refine cut (P := Keeps s0 v6) ?_ fun k7 => ?_
  · unfold v6
    exact keeps_State_setFld ‹_›
  clear_value v6
  extract_lets +onlyGivenNames v8
  refine cut (P := Keeps s0 v8) ?_ fun k9 => ?_
  · unfold v8
    exact keeps_State_wr ‹_›
  clear_value v8
  extract_lets +onlyGivenNames v10
  refine cut (P := Keeps s0 v10) ?_ fun k11 => ?_
  · unfold v10
    refine Keeps.ite ?_ ?_
    · exact keeps_State_setFld ‹_›
    assumption
  clear_value v10
  extract_lets +onlyGivenNames v12
  clear_value v12
  extract_lets +onlyGivenNames v13
  clear_value v13
  refine Keeps.foldl ?_ fun t14 x15 k16 => ?_
  · assumption
  exact keeps_setPll (keeps_State_wr ‹_›)

theorem keeps_loadHeld {s0 s : State} (hk : Keeps s0 s) :
    Keeps s0 (loadHeld s) := by
  unfold loadHeld
  extract_lets +onlyGivenNames v0
  refine cut (P := Keeps s0 v0) ?_ fun k1 => ?_
  · unfold v0
    refine Keeps.ite ?_ ?_
    · exact keeps_State_raise (keeps_setSticky (keeps_State_onDict ‹_›))
    assumption
  clear_value v0
  extract_lets +onlyGivenNames v2
  clear_value v2
  exact keeps_State_onDict ‹_›

theorem keeps_startClocks {s0 s : State} (hk : Keeps s0 s) {xinOk : Bool} {bad : List Nat} :
    Keeps s0 (startClocks xinOk bad s) := by
  unfold startClocks
  extract_lets +onlyGivenNames v0
  refine cut (P := Keeps s0 v0) ?_ fun k1 => ?_
  · unfold v0
    exact keeps_State_onTweed ‹_›
  clear_value v0
  extract_lets +onlyGivenNames v2
  extract_lets +onlyGivenNames v3
  refine cut (P := Keeps s0 v3) ?_ fun k4 => ?_
  · unfold v3
    refine Keeps.foldl ?_ fun t5 x6 k7 => ?_
    · assumption
    exact keeps_setCur ‹_›
  clear_value v3
  extract_lets +onlyGivenNames v8
  refine cut (P := Keeps s0 v8) ?_ fun k9 => ?_
  · unfold v8
    refine Keeps.ite ?_ ?_
    · unfold v2
      refine Keeps.foldl ?_ fun t10 x11 k12 => ?_
      · exact keeps_State_setFlag ‹_›
      exact keeps_State_setFlag ‹_›
    unfold v2
    refine Keeps.foldl ?_ fun t13 x14 k15 => ?_
    · exact keeps_clkFail (keeps_setSticky (keeps_State_setFlag ‹_›))
    exact keeps_State_setFlag ‹_›
  clear_value v8
  refine Keeps.foldl ?_ fun t16 x17 k18 => ?_
  · assumption
  exact keeps_pllLoss ‹_›

theorem keeps_lockstepTest {s0 s : State} (hk : Keeps s0 s) {groups : Nat} :
    Keeps s0 (lockstepTest groups s) := by
  unfold lockstepTest
  extract_lets +onlyGivenNames v0
  refine cut (P := Keeps s0 v0) ?_ fun k1 => ?_
  · unfold v0
    exact keeps_State_wr ‹_›
  clear_value v0
  refine Keeps.ite ?_ ?_
  · assumption
  exact keeps_setSticky ‹_›

theorem keeps_releasePower {s0 s : State} (hk : Keeps s0 s) {pfailN : Bool} :
    Keeps s0 (releasePower pfailN s) := by
  unfold releasePower
  extract_lets +onlyGivenNames v0
  clear_value v0
  exact Keeps.mkSame ‹_›

theorem keeps_diagDrain {s0 s : State} (hk : Keeps s0 s) :
    Keeps s0 (diagDrain s) := by
  unfold diagDrain
  extract_lets +onlyGivenNames v0
  clear_value v0
  refine Keeps.foldl ?_ fun t1 x2 k3 => ?_
  · exact keeps_State_onDiag ‹_›
  exact keeps_diagWrite ‹_›

theorem keeps_laneTests {s0 s : State} (hk : Keeps s0 s) {f : LaneFails} :
    Keeps s0 (laneTests f s) := by
  unfold laneTests
  extract_lets +onlyGivenNames v0
  refine cut (P := Keeps s0 v0) ?_ fun k1 => ?_
  · unfold v0
    refine Keeps.foldl ?_ fun t2 x3 k4 => ?_
    · assumption
    exact keeps_parkLane ‹_›
  clear_value v0
  refine Keeps.foldl ?_ fun t5 x6 k7 => ?_
  · assumption
  exact keeps_parkLane ‹_›

theorem keeps_loadTables {s0 s : State} (hk : Keeps s0 s) :
    Keeps s0 (loadTables s) := by
  unfold loadTables
  extract_lets +onlyGivenNames v0
  clear_value v0
  extract_lets +onlyGivenNames v1
  clear_value v1
  exact keeps_State_onMedia ‹_›

theorem keeps_loadCan {s0 s : State} (hk : Keeps s0 s) :
    Keeps s0 (loadCan s) := by
  unfold loadCan
  extract_lets +onlyGivenNames v0
  clear_value v0
  extract_lets +onlyGivenNames v1
  clear_value v1
  extract_lets +onlyGivenNames v2
  clear_value v2
  extract_lets +onlyGivenNames v3
  refine cut (P := Keeps s0 v3) ?_ fun k4 => ?_
  · unfold v3
    exact keeps_State_setFld ‹_›
  clear_value v3
  refine Keeps.foldl ?_ fun t5 x6 k7 => ?_
  · assumption
  extract_lets +onlyGivenNames v8
  refine cut (P := Keeps s0 v8) ?_ fun k9 => ?_
  · unfold v8
    exact keeps_State_wr ‹_›
  clear_value v8
  extract_lets +onlyGivenNames v10
  refine cut (P := Keeps s0 v10) ?_ fun k11 => ?_
  · unfold v10
    exact keeps_State_wr ‹_›
  clear_value v10
  extract_lets +onlyGivenNames v12
  refine cut (P := Keeps s0 v12) ?_ fun k13 => ?_
  · unfold v12
    exact keeps_State_wr ‹_›
  clear_value v12
  exact keeps_cctrlWrite ‹_›

theorem keeps_applyStored {s0 s : State} (hk : Keeps s0 s) :
    Keeps s0 (applyStored s) := by
  unfold applyStored
  extract_lets +onlyGivenNames v0
  clear_value v0
  extract_lets +onlyGivenNames v1
  refine cut (P := Keeps s0 v1) ?_ fun k2 => ?_
  · unfold v1
    refine Keeps.foldl ?_ fun t3 x4 k5 => ?_
    · assumption
    exact keeps_applyOne ‹_›
  clear_value v1
  extract_lets +onlyGivenNames v6
  refine cut (P := Keeps s0 v6) ?_ fun k7 => ?_
  · unfold v6
    exact keeps_State_onLinen ‹_›
  clear_value v6
  extract_lets +onlyGivenNames v8
  refine cut (P := Keeps s0 v8) ?_ fun k9 => ?_
  · unfold v8
    refine keeps_rebind ?_
    refine Keeps.foldl ?_ fun t10 x11 k12 => ?_
    · assumption
    exact keeps_rebuildDesc ‹_›
  clear_value v8
  extract_lets +onlyGivenNames v13
  refine cut (P := Keeps s0 v13) ?_ fun k14 => ?_
  · unfold v13
    refine Keeps.ite ?_ ?_
    · exact keeps_applySlots ‹_›
    assumption
  clear_value v13
  extract_lets +onlyGivenNames v15
  refine cut (P := Keeps s0 v15) ?_ fun k16 => ?_
  · unfold v15
    exact keeps_State_onCanvas ‹_›
  clear_value v15
  exact keeps_loadTables (keeps_loadCan ‹_›)

theorem keeps_resetSequence {s0 s : State} (hk : Keeps s0 s) {cause : Nat} {o : BootOut} :
    Keeps s0 (resetSequence cause o s) := by
  unfold resetSequence
  extract_lets +onlyGivenNames v0
  clear_value v0
  extract_lets +onlyGivenNames v1
  refine cut (P := Keeps s0 v1) ?_ fun k2 => ?_
  · unfold v1
    exact keeps_clearMain (keeps_flashTorn ‹_›)
  clear_value v1
  extract_lets +onlyGivenNames v3
  refine cut (P := Keeps s0 v3) ?_ fun k4 => ?_
  · unfold v3
    exact keeps_resetCause ‹_›
  clear_value v3
  extract_lets +onlyGivenNames v5
  refine cut (P := Keeps s0 v5) ?_ fun k6 => ?_
  · unfold v5
    exact keeps_cellCheck ‹_›
  clear_value v5
  extract_lets +onlyGivenNames v7
  refine cut (P := Keeps s0 v7) ?_ fun k8 => ?_
  · unfold v7
    exact keeps_watchdogReset (keeps_loadFuses (keeps_loadHeld (keeps_fuseSense ‹_›)))
  clear_value v7
  refine Keeps.ite ?_ ?_
  · exact keeps_State_onPower ‹_›
  extract_lets +onlyGivenNames v9
  refine cut (P := Keeps s0 v9) ?_ fun k10 => ?_
  · unfold v9
    exact keeps_startClocks ‹_›
  clear_value v9
  extract_lets +onlyGivenNames v11
  refine cut (P := Keeps s0 v11) ?_ fun k12 => ?_
  · unfold v11
    exact keeps_lockstepTest (keeps_deriveBoot ‹_›)
  clear_value v11
  extract_lets +onlyGivenNames v13
  refine cut (P := Keeps s0 v13) ?_ fun k14 => ?_
  · unfold v13
    exact keeps_releasePower ‹_›
  clear_value v13
  extract_lets +onlyGivenNames v15
  refine cut (P := Keeps s0 v15) ?_ fun k16 => ?_
  · unfold v15
    exact keeps_replay (keeps_initChannels ‹_›)
  clear_value v15
  extract_lets +onlyGivenNames v17
  refine cut (P := Keeps s0 v17) ?_ fun k18 => ?_
  · unfold v17
    exact keeps_diagDrain (keeps_canvasStart ‹_›)
  clear_value v17
  extract_lets +onlyGivenNames v19
  refine cut (P := Keeps s0 v19) ?_ fun k20 => ?_
  · unfold v19
    exact keeps_laneTests ‹_›
  clear_value v19
  extract_lets +onlyGivenNames v21
  refine cut (P := Keeps s0 v21) ?_ fun k22 => ?_
  · unfold v21
    refine Keeps.ite ?_ ?_
    · exact keeps_startUpDone ‹_›
    assumption
  clear_value v21
  extract_lets +onlyGivenNames v23
  refine cut (P := Keeps s0 v23) ?_ fun k24 => ?_
  · unfold v23
    exact keeps_applyStored ‹_›
  clear_value v23
  exact keeps_romBoot (keeps_certCheck ‹_›)

theorem keeps_fullReset {s0 s : State} (hk : Keeps s0 s) {o : BootOut} :
    Keeps s0 (fullReset o s) := by
  unfold fullReset
  split
  · rename_i x0 e1
    assumption
  rename_i x2 x3 e4
  refine Keeps.ite ?_ ?_
  · assumption
  exact keeps_resetSequence ‹_›

theorem keeps_porStart {s0 s : State} (hk : Keeps s0 s) :
    Keeps s0 (porStart s) := by
  unfold porStart
  exact keeps_State_onPower (keeps_State_wr ‹_›)

theorem keeps_por {s0 s : State} (hk : Keeps s0 s) {o : BootOut} :
    Keeps s0 (por o s) := by
  unfold por
  refine Keeps.ite ?_ ?_
  · assumption
  exact keeps_fullReset (keeps_porStart ‹_›)

theorem keeps_powerUp {s0 s : State} (hk : Keeps s0 s) :
    Keeps s0 (powerUp s) := by
  unfold powerUp
  refine Keeps.ite ?_ ?_
  · exact keeps_State_onPower ‹_›
  assumption

theorem keeps_lbAnchor {s0 s : State} (hk : Keeps s0 s) :
    Keeps s0 (lbAnchor s) := by
  unfold lbAnchor
  refine Keeps.ite ?_ ?_
  · exact keeps_lbStep (keeps_anchorStart ‹_›)
  exact keeps_lbFinish (keeps_lbStep (keeps_lbStep ‹_›))

theorem keeps_warmporHold {s0 s : State} (hk : Keeps s0 s) :
    Keeps s0 (warmporHold s) := by
  unfold warmporHold
  refine Keeps.ite ?_ ?_
  · exact keeps_State_onPower ‹_›
  assumption

theorem keeps_nandPark {s0 s : State} (hk : Keeps s0 s) :
    Keeps s0 (nandPark s) := by
  unfold nandPark
  refine Keeps.ite ?_ ?_
  · assumption
  exact keeps_lbFinish (keeps_lbStep (keeps_parkNand ‹_›))

theorem keeps_ignitionPark {s0 s : State} (hk : Keeps s0 s) :
    Keeps s0 (ignitionPark s) := by
  unfold ignitionPark
  extract_lets +onlyGivenNames v0
  refine cut (P := Keeps s0 v0) ?_ fun k1 => ?_
  · unfold v0
    exact keeps_State_onPower ‹_›
  clear_value v0
  refine Keeps.ite ?_ ?_
  · exact keeps_startLastBreath ‹_›
  assumption

theorem keeps_ingestOpen {s0 s : State} (hk : Keeps s0 s) :
    Keeps s0 (ingestOpen s) := by
  unfold ingestOpen
  extract_lets +onlyGivenNames v0
  refine cut (P := Keeps s0 v0) ?_ fun k1 => ?_
  · unfold v0
    exact keeps_State_onPower ‹_›
  clear_value v0
  refine Keeps.ite ?_ ?_
  · exact keeps_recordingResume (keeps_State_onPower ‹_›)
  assumption

theorem keeps_lbFlush {s0 s : State} (hk : Keeps s0 s) :
    Keeps s0 (lbFlush s) := by
  unfold lbFlush
  refine Keeps.ite ?_ ?_
  · assumption
  exact keeps_lbAnchor (keeps_lbStep (keeps_timeckNow (keeps_lbStep (keeps_sealAll ‹_›))))

theorem keeps_rstRise {s0 s : State} (hk : Keeps s0 s) :
    Keeps s0 (rstRise s) := by
  unfold rstRise
  extract_lets +onlyGivenNames v0
  clear_value v0
  extract_lets +onlyGivenNames v1
  clear_value v1
  extract_lets +onlyGivenNames v2
  refine cut (P := Keeps s0 v2) ?_ fun k3 => ?_
  · unfold v2
    exact keeps_State_onPower ‹_›
  clear_value v2
  refine Keeps.ite ?_ ?_
  · exact keeps_State_setFlag ‹_›
  assumption

theorem keeps_monitorFall {s0 s : State} (hk : Keeps s0 s) {io18Lost : Bool} :
    Keeps s0 (monitorFall io18Lost s) := by
  unfold monitorFall
  extract_lets +onlyGivenNames v0
  clear_value v0
  extract_lets +onlyGivenNames v1
  refine cut (P := Keeps s0 v1) ?_ fun k2 => ?_
  · unfold v1
    refine Keeps.ite ?_ ?_
    · exact keeps_keysPowerLoss (keeps_discPowerLoss (keeps_flashTorn ‹_›))
    assumption
  clear_value v1
  extract_lets +onlyGivenNames v3
  clear_value v3
  extract_lets +onlyGivenNames v4
  refine cut (P := Keeps s0 v4) ?_ fun k5 => ?_
  · unfold v4
    exact keeps_State_onPower ‹_›
  clear_value v4
  extract_lets +onlyGivenNames v6
  refine cut (P := Keeps s0 v6) ?_ fun k7 => ?_
  · unfold v6
    refine Keeps.ite ?_ ?_
    · exact keeps_State_onFelt ‹_›
    assumption
  clear_value v6
  refine Keeps.ite ?_ ?_
  · exact keeps_feltLose ‹_›
  assumption

theorem keeps_wake {s0 s : State} (hk : Keeps s0 s) {src : Nat} :
    Keeps s0 (wake src s) := by
  unfold wake
  extract_lets +onlyGivenNames v0
  refine cut (P := Keeps s0 v0) ?_ fun k1 => ?_
  · unfold v0
    refine Keeps.ite ?_ ?_
    · exact keeps_State_onPower ‹_›
    assumption
  clear_value v0
  extract_lets +onlyGivenNames v2
  clear_value v2
  refine Keeps.ite ?_ ?_
  · refine Keeps.ite ?_ ?_
    · exact keeps_State_onPower (keeps_State_wr ‹_›)
    exact keeps_State_onPower ‹_›
  assumption

theorem keeps_vbatApplied {s0 s : State} (hk : Keeps s0 s) {above2V : Bool} :
    Keeps s0 (vbatApplied above2V s) := by
  unfold vbatApplied
  extract_lets +onlyGivenNames v0
  refine cut (P := Keeps s0 v0) ?_ fun k1 => ?_
  · unfold v0
    exact keeps_tripOff (keeps_State_onFelt ‹_›)
  clear_value v0
  refine Keeps.ite ?_ ?_
  · exact keeps_State_onPower (keeps_State_onFelt ‹_›)
  assumption

theorem keeps_rstFall {s0 s : State} (hk : Keeps s0 s) :
    Keeps s0 (rstFall s) := by
  unfold rstFall
  extract_lets +onlyGivenNames v0
  refine cut (P := Keeps s0 v0) ?_ fun k1 => ?_
  · unfold v0
    exact keeps_State_onPower ‹_›
  clear_value v0
  refine Keeps.ite ?_ ?_
  · assumption
  exact keeps_assertReset ‹_›

end Sys2Proof.Laws
end

