-- ==== Sys2Proof/Laws/KeepsObjects.lean ====
section
/-!
SUPPORT. What every operation of Machine/Objects.lean keeps (`Keeps`, Laws/Keeps.lean).
-/

namespace Sys2Proof.Laws

open Sys2Proof.Machine

theorem keeps_procSettle {s0 s : State} (hk : Keeps s0 s) :
    Keeps s0 (procSettle s) := by
  unfold procSettle
  refine Keeps.foldl ?_ fun t0 x1 k2 => ?_
  · assumption
  refine Keeps.ite ?_ ?_
  · exact keeps_procEnd ‹_›
  assumption

end Sys2Proof.Laws
end

