-- ==== Sys2Proof/Laws/KeepsReply.lean ====
section
/-!
SUPPORT. What every operation of Machine/Reply.lean keeps (`Keeps`, Laws/Keeps.lean).
-/

namespace Sys2Proof.Laws

open Sys2Proof.Machine

theorem keeps_dengLoad {s0 s : State} (hk : Keeps s0 s) {a : Nat} {n : Nat} :
    Keeps s0 (dengLoad a n s).2 := by
  unfold dengLoad
  refine Keeps.iteSnd ?_ ?_
  · exact Keeps.pair ‹_›
  split
  rename_i x0 x1 x2 e3
  refine cut (P := Keeps s0 x2) ?_ fun k4 => ?_
  · exact Keeps.snd e3 (keeps_jobAccess ‹_›)
  exact Keeps.pair ‹_›

theorem keeps_dengStore {s0 s : State} (hk : Keeps s0 s) {a : Nat} {bs : Bytes} :
    Keeps s0 (dengStore a bs s) := by
  unfold dengStore
  refine Keeps.ite ?_ ?_
  · assumption
  split
  rename_i x0 x1 x2 e3
  refine cut (P := Keeps s0 x2) ?_ fun k4 => ?_
  · exact Keeps.snd e3 (keeps_jobAccess ‹_›)
  refine Keeps.ite ?_ ?_
  · exact keeps_State_store ‹_›
  assumption

theorem keeps_localEnd {s0 s : State} (hk : Keeps s0 s) {addr : Nat} {code : Nat} {read : Bool} {val : Bytes} {pend : Bool} :
    Keeps s0 (localEnd addr code read val pend s) := by
  unfold localEnd
  extract_lets +onlyGivenNames v0
  refine cut (P := Keeps s0 v0) ?_ fun k1 => ?_
  · unfold v0
    refine Keeps.ite ?_ ?_
    · split
      rename_i x2 x3 x4 e5
      refine cut (P := Keeps s0 x4) ?_ fun k6 => ?_
      · exact Keeps.snd e5 (keeps_dengLoad ‹_›)
      exact keeps_dengStore ‹_›
    assumption
  clear_value v0
  extract_lets +onlyGivenNames v7
  refine cut (P := Keeps s0 v7) ?_ fun k8 => ?_
  · unfold v7
    exact keeps_dengStore ‹_›
  clear_value v7
  extract_lets +onlyGivenNames v9
  refine cut (P := Keeps s0 v9) ?_ fun k10 => ?_
  · unfold v9
    refine Keeps.ite ?_ ?_
    · exact keeps_dengStore ‹_›
    assumption
  clear_value v9
  extract_lets +onlyGivenNames v11
  refine cut (P := Keeps s0 v11) ?_ fun k12 => ?_
  · unfold v11
    exact keeps_dengStore ‹_›
  clear_value v11
  exact keeps_State_raise (keeps_dengStore ‹_›)

theorem keeps_mboxPut {s0 s : State} (hk : Keeps s0 s) {k : Nat} {m : Bytes} :
    Keeps s0 (mboxPut k m s) := by
  unfold mboxPut
  exact keeps_msix (keeps_State_setFlag (keeps_State_store ‹_›))

theorem keeps_mboxSend {s0 s : State} (hk : Keeps s0 s) {k : Nat} {m : Bytes} :
    Keeps s0 (mboxSend k m s) := by
  unfold mboxSend
  refine Keeps.ite ?_ ?_
  · exact keeps_State_onPcie ‹_›
  exact keeps_mboxPut ‹_›

theorem keeps_mboxFree {s0 s : State} (hk : Keeps s0 s) {k : Nat} :
    Keeps s0 (mboxFree k s) := by
  unfold mboxFree
  exact keeps_State_onPcie ‹_›

theorem keeps_answer {s0 s : State} (hk : Keeps s0 s) {c : Carrier} {tag : Nat} {msg : Nat} {flags : Nat} {body : Bytes} {closes : Bool} :
    Keeps s0 (answer c tag msg flags body closes s) := by
  unfold answer
  split
  · rename_i x0 x1
    extract_lets +onlyGivenNames v2
    refine cut (P := Keeps s0 v2) ?_ fun k3 => ?_
    · unfold v2
      exact keeps_mboxSend ‹_›
    clear_value v2
    refine Keeps.ite ?_ ?_
    · exact keeps_mboxFree ‹_›
    assumption
  · rename_i x4 x5
    extract_lets +onlyGivenNames v6
    clear_value v6
    exact keeps_ydpSend ‹_›
  rename_i x7 e8 e9
  assumption

theorem keeps_sendBlock {s0 s : State} (hk : Keeps s0 s) {x : Xfer} {sno : Nat} :
    Keeps s0 (sendBlock x sno s) := by
  unfold sendBlock
  refine Keeps.foldl ?_ fun t0 x1 k2 => ?_
  · assumption
  exact keeps_answer ‹_›

theorem keeps_answerReadSeg {s0 s : State} (hk : Keeps s0 s) {c : Carrier} {tag : Nat} {princ : Nat} {key : Nat} {type : Nat} {code : Nat} {blk : Nat} {val : Bytes} {pend : Bool} :
    Keeps s0 (answerReadSeg c tag princ key type code blk val pend s) := by
  unfold answerReadSeg
  extract_lets +onlyGivenNames v0
  clear_value v0
  extract_lets +onlyGivenNames v1
  clear_value v1
  extract_lets +onlyGivenNames v2
  refine cut (P := Keeps s0 v2) ?_ fun k3 => ?_
  · unfold v2
    exact keeps_answer ‹_›
  clear_value v2
  refine Keeps.ite ?_ ?_
  · assumption
  extract_lets +onlyGivenNames v4
  clear_value v4
  exact keeps_sendBlock (keeps_State_onDict ‹_›)

theorem keeps_blockAck {s0 s : State} (hk : Keeps s0 s) {c : Carrier} {tag : Nat} {sno : Nat} {blk : Nat} {code : Nat} {closes : Bool} :
    Keeps s0 (blockAck c tag sno blk code closes s) := by
  unfold blockAck
  exact keeps_answer ‹_›

theorem keeps_answerWrite {s0 s : State} (hk : Keeps s0 s) {c : Carrier} {tag : Nat} {code : Nat} :
    Keeps s0 (answerWrite c tag code s) := by
  unfold answerWrite
  split
  · rename_i x0 x1
    exact keeps_localEnd ‹_›
  · rename_i x2 x3 x4
    exact keeps_localEnd ‹_›
  rename_i x5 e6 e7
  exact keeps_answer ‹_›

theorem keeps_answerRead {s0 s : State} (hk : Keeps s0 s) {c : Carrier} {tag : Nat} {type : Nat} {code : Nat} {val : Bytes} {pend : Bool} :
    Keeps s0 (answerRead c tag type code val pend s) := by
  unfold answerRead
  split
  · rename_i x0 x1
    exact keeps_localEnd ‹_›
  · rename_i x2 x3 x4
    exact keeps_localEnd ‹_›
  rename_i x5 e6 e7
  extract_lets +onlyGivenNames v8
  clear_value v8
  exact keeps_answer ‹_›

theorem keeps_setFw {s0 s : State} (hk : Keeps s0 s) {i : Nat} {q : Option FwReq} :
    Keeps s0 (setFw i q s) := by
  unfold setFw
  exact keeps_State_onDict ‹_›

theorem keeps_fwPass {s0 s : State} (hk : Keeps s0 s) {i : Nat} {q : FwReq} :
    Keeps s0 (fwPass i q s) := by
  unfold fwPass
  extract_lets +onlyGivenNames v0
  clear_value v0
  extract_lets +onlyGivenNames v1
  clear_value v1
  extract_lets +onlyGivenNames v2
  clear_value v2
  extract_lets +onlyGivenNames v3
  clear_value v3
  extract_lets +onlyGivenNames v4
  clear_value v4
  extract_lets +onlyGivenNames v5
  refine cut (P := Keeps s0 v5) ?_ fun k6 => ?_
  · unfold v5
    exact keeps_dengStore (keeps_dengStore ‹_›)
  clear_value v5
  exact keeps_State_raise (keeps_setFw ‹_›)

theorem keeps_fwAnswer {s0 s : State} (hk : Keeps s0 s) {q : FwReq} {code : Nat} :
    Keeps s0 (fwAnswer q code s) := by
  unfold fwAnswer
  extract_lets +onlyGivenNames v0
  clear_value v0
  extract_lets +onlyGivenNames v1
  clear_value v1
  refine Keeps.ite ?_ ?_
  · assumption
  refine Keeps.ite ?_ ?_
  · exact keeps_answerReadSeg ‹_›
  refine Keeps.ite ?_ ?_
  · exact keeps_blockAck ‹_›
  refine Keeps.ite ?_ ?_
  · exact keeps_answerRead ‹_›
  exact keeps_answerWrite ‹_›

theorem keeps_fwFlush {s0 s : State} (hk : Keeps s0 s) :
    Keeps s0 (fwFlush s) := by
  unfold fwFlush
  refine Keeps.foldl ?_ fun t0 x1 k2 => ?_
  · assumption
  split
  · rename_i x3 e4
    assumption
  rename_i x5 x6 e7
  exact keeps_fwAnswer (keeps_setFw ‹_›)

theorem keeps_putXfer {s0 s : State} (hk : Keeps s0 s) {x : Xfer} :
    Keeps s0 (putXfer x s) := by
  unfold putXfer
  exact keeps_State_onDict ‹_›

theorem keeps_dropXfer {s0 s : State} (hk : Keeps s0 s) {c : Carrier} {tag : Nat} :
    Keeps s0 (dropXfer c tag s) := by
  unfold dropXfer
  exact keeps_State_onDict ‹_›

theorem keeps_fwRsp {s0 s : State} (hk : Keeps s0 s) {w : Word} :
    Keeps s0 (fwRsp w s) := by
  unfold fwRsp
  extract_lets +onlyGivenNames v0
  clear_value v0
  extract_lets +onlyGivenNames v1
  clear_value v1
  split
  · rename_i x2 e3
    exact keeps_State_setFld ‹_›
  rename_i x4 x5 e6
  refine Keeps.ite ?_ ?_
  · exact keeps_fwAnswer (keeps_setFw ‹_›)
  refine Keeps.ite ?_ ?_
  · refine Keeps.ite ?_ ?_
    · exact keeps_fwAnswer (keeps_setFw ‹_›)
    exact keeps_fwPass ‹_›
  refine Keeps.ite ?_ ?_
  · exact keeps_setFw ‹_›
  extract_lets +onlyGivenNames v7
  clear_value v7
  split
  rename_i x8 x9 x10 e11
  refine cut (P := Keeps s0 x10) ?_ fun k12 => ?_
  · exact Keeps.snd e11 (keeps_dengLoad ‹_›)
  extract_lets +onlyGivenNames v13
  refine Keeps.ite ?_ ?_
  · exact keeps_fwPass ‹_›
  exact keeps_fwAnswer (keeps_setFw ‹_›)

theorem keeps_fwTimeout {s0 s : State} (hk : Keeps s0 s) {i : Nat} :
    Keeps s0 (fwTimeout i s) := by
  unfold fwTimeout
  split
  · rename_i x0 e1
    assumption
  rename_i x2 x3 e4
  refine Keeps.ite ?_ ?_
  · assumption
  extract_lets +onlyGivenNames v5
  refine cut (P := Keeps s0 v5) ?_ fun k6 => ?_
  · unfold v5
    exact keeps_State_setFld ‹_›
  clear_value v5
  exact keeps_fwAnswer (keeps_State_raise (keeps_setFw ‹_›))

end Sys2Proof.Laws
end

