-- ==== Sys2Proof/Laws/KeepsRestart.lean ====
section
/-!
SUPPORT. What every operation of Machine/Restart.lean keeps (`Keeps`, Laws/Keeps.lean).
-/

namespace Sys2Proof.Laws

open Sys2Proof.Machine

theorem keeps_warmCore {s0 s : State} (hk : Keeps s0 s) : Keeps s0 (warmCore s) := by
  refine hk.trans ⟨rfl, Nat.le_refl _, ?_, fun _ => core_fresh _ rfl rfl rfl rfl, Fuse_grows_refl _⟩
  simp only [Memory.wf, warmCore, Bool.and_eq_true]
  exact fun ⟨⟨hr, hm⟩, hh⟩ => ⟨⟨swf_filter _ _ _ hr, swf_filter _ _ _ hm⟩, hh⟩

theorem keeps_warmRegions {s0 s : State} (hk : Keeps s0 s) :
    Keeps s0 (warmRegions s) := by
  unfold warmRegions
  refine Keeps.foldl ?_ fun t0 x1 k2 => ?_
  · assumption
  refine Keeps.foldl ?_ fun t3 x4 k5 => ?_
  · assumption
  extract_lets +onlyGivenNames v6
  clear_value v6
  refine Keeps.ite ?_ ?_
  · exact keeps_State_wr ‹_›
  assumption

theorem keeps_warmLoad {s0 s : State} (hk : Keeps s0 s) :
    Keeps s0 (warmLoad s).2 := by
  unfold warmLoad
  split
  rename_i x0 x1 x2 e3
  refine cut (P := Keeps s0 x2) ?_ fun k4 => ?_
  · exact Keeps.snd e3 (keeps_transact ‹_›)
  refine Keeps.iteSnd ?_ ?_
  · exact Keeps.pair ‹_›
  refine Keeps.iteSnd ?_ ?_
  · exact Keeps.pair ‹_›
  split
  rename_i x5 x6 x7 e8
  refine cut (P := Keeps s0 x7) ?_ fun k9 => ?_
  · exact Keeps.snd e8 (keeps_transact ‹_›)
  exact Keeps.pair ‹_›

theorem keeps_warmAdvance {s0 s : State} (hk : Keeps s0 s) :
    Keeps s0 (warmAdvance s) := by
  unfold warmAdvance
  refine Keeps.ite ?_ ?_
  · assumption
  extract_lets +onlyGivenNames v0
  refine cut (P := Keeps s0 v0) ?_ fun k1 => ?_
  · unfold v0
    exact keeps_warmCore (keeps_warmRegions ‹_›)
  clear_value v0
  split
  rename_i x2 x3 x4 e5
  refine cut (P := Keeps s0 x4) ?_ fun k6 => ?_
  · exact Keeps.snd e5 (keeps_warmLoad ‹_›)
  extract_lets +onlyGivenNames v7
  refine cut (P := Keeps s0 v7) ?_ fun k8 => ?_
  · unfold v7
    exact keeps_State_onBoot ‹_›
  clear_value v7
  refine Keeps.ite ?_ ?_
  · extract_lets +onlyGivenNames v9
    refine cut (P := Keeps s0 v9) ?_ fun k10 => ?_
    · unfold v9
      exact keeps_State_setFld ‹_›
    clear_value v9
    exact keeps_romBoot ‹_›
  exact keeps_resetRequest (keeps_State_setFlag ‹_›)

theorem keeps_warmStart {s0 s : State} (hk : Keeps s0 s) :
    Keeps s0 (warmStart s) := by
  unfold warmStart
  extract_lets +onlyGivenNames v0
  refine cut (P := Keeps s0 v0) ?_ fun k1 => ?_
  · unfold v0
    refine Keeps.onSergeEmpty ?_ (fun _ => rfl) (fun _ => rfl) (fun _ => rfl) (fun _ => rfl)
    assumption
  clear_value v0
  extract_lets +onlyGivenNames v2
  refine cut (P := Keeps s0 v2) ?_ fun k3 => ?_
  · unfold v2
    exact keeps_State_setFlag (keeps_State_onDict ‹_›)
  clear_value v2
  extract_lets +onlyGivenNames v4
  refine cut (P := Keeps s0 v4) ?_ fun k5 => ?_
  · unfold v4
    exact keeps_writeGaps ‹_›
  clear_value v4
  extract_lets +onlyGivenNames v6
  refine cut (P := Keeps s0 v6) ?_ fun k7 => ?_
  · unfold v6
    exact keeps_fwFlush ‹_›
  clear_value v6
  extract_lets +onlyGivenNames v8
  clear_value v8
  extract_lets +onlyGivenNames v9
  clear_value v9
  extract_lets +onlyGivenNames v10
  refine cut (P := Keeps s0 v10) ?_ fun k11 => ?_
  · unfold v10
    exact Keeps.mkSame ‹_›
  clear_value v10
  extract_lets +onlyGivenNames v12
  refine cut (P := Keeps s0 v12) ?_ fun k13 => ?_
  · unfold v12
    exact keeps_State_onPk ‹_›
  clear_value v12
  exact keeps_warmAdvance (keeps_State_onBoot ‹_›)

theorem keeps_warmWrite {s0 s : State} (hk : Keeps s0 s) {w : Word} :
    Keeps s0 (warmWrite w s) := by
  unfold warmWrite
  refine Keeps.ite ?_ ?_
  · assumption
  exact keeps_warmStart ‹_›

theorem keeps_fwServe {s0 s : State} (hk : Keeps s0 s) {v : Bool} :
    Keeps s0 (fwServe v s) := by
  unfold fwServe
  extract_lets +onlyGivenNames v0
  refine cut (P := Keeps s0 v0) ?_ fun k1 => ?_
  · unfold v0
    exact keeps_State_setFlag ‹_›
  clear_value v0
  refine Keeps.ite ?_ ?_
  · exact keeps_State_onDict ‹_›
  assumption

end Sys2Proof.Laws
end

