-- ==== Sys2Proof/Laws/KeepsServe.lean ====
section
/-!
SUPPORT. What every operation of Machine/Serve.lean keeps (`Keeps`, Laws/Keeps.lean).
-/

namespace Sys2Proof.Laws

open Sys2Proof.Machine

theorem keeps_reply {s0 s : State} (hk : Keeps s0 s) {r : Request} {code : Nat} {val : Bytes} {pend : Bool} :
    Keeps s0 (reply r code val pend s) := by
  unfold reply
  extract_lets +onlyGivenNames v0
  clear_value v0
  refine Keeps.ite ?_ ?_
  · exact keeps_answerReadSeg ‹_›
  refine Keeps.ite ?_ ?_
  · extract_lets +onlyGivenNames v1
    clear_value v1
    exact keeps_answer ‹_›
  refine Keeps.ite ?_ ?_
  · exact keeps_blockAck ‹_›
  refine Keeps.ite ?_ ?_
  · exact keeps_answerWrite ‹_›
  exact keeps_answerRead ‹_›

theorem keeps_openWrite {s0 s : State} (hk : Keeps s0 s) {r : Request} :
    Keeps s0 (openWrite r s) := by
  unfold openWrite
  extract_lets +onlyGivenNames v0
  clear_value v0
  extract_lets +onlyGivenNames v1
  clear_value v1
  exact keeps_State_onDict ‹_›

theorem keeps_fallThrough {s0 s : State} (hk : Keeps s0 s) {r : Request} :
    Keeps s0 (fallThrough r s) := by
  unfold fallThrough
  refine Keeps.ite ?_ ?_
  · exact keeps_reply ‹_›
  refine Keeps.ite ?_ ?_
  · exact keeps_reply ‹_›
  refine Keeps.ite ?_ ?_
  · exact keeps_reply ‹_›
  refine Keeps.ite ?_ ?_
  · exact keeps_reply (keeps_openWrite ‹_›)
  split
  · rename_i x0 e1
    exact keeps_reply ‹_›
  rename_i x2 x3 e4
  exact keeps_fwPass ‹_›

theorem keeps_writeFuse {s0 s : State} (hk : Keeps s0 s) {key : Nat} {v : Bytes} :
    Keeps s0 (writeFuse key v s).2 := by
  unfold writeFuse
  extract_lets +onlyGivenNames v0
  clear_value v0
  refine Keeps.iteSnd ?_ ?_
  · exact Keeps.pair ‹_›
  refine Keeps.iteSnd ?_ ?_
  · exact Keeps.pair ‹_›
  refine Keeps.pair ?_
  refine Keeps.foldl ?_ fun t1 x2 k3 => ?_
  · assumption
  exact keeps_fuseProgramAll ‹_›

theorem keeps_procAtOnce {s0 : State} {key : Nat} {princ : Nat} {r : Nat × State} (hk : Keeps s0 r.2) :
    Keeps s0 (procAtOnce key princ r).2 := by
  unfold procAtOnce
  refine Keeps.iteSnd ?_ ?_
  · exact Keeps.pair (keeps_procRan ‹_›)
  assumption

theorem keeps_procGoes {s0 : State} {key : Nat} {princ : Nat} {r : Nat × State} (hk : Keeps s0 r.2) :
    Keeps s0 (procGoes key princ r).2 := by
  unfold procGoes
  refine Keeps.iteSnd ?_ ?_
  · exact Keeps.pair (keeps_procSettle (keeps_procStart ‹_›))
  assumption

theorem keeps_keywrapRun {s0 s : State} (hk : Keeps s0 s) {d : Bytes} :
    Keeps s0 (keywrapRun d s).2 := by
  unfold keywrapRun
  extract_lets +onlyGivenNames v0
  clear_value v0
  extract_lets +onlyGivenNames v1
  clear_value v1
  extract_lets +onlyGivenNames v2
  clear_value v2
  refine Keeps.iteSnd ?_ ?_
  · exact Keeps.pair ‹_›
  refine Keeps.iteSnd ?_ ?_
  · exact Keeps.pair ‹_›
  extract_lets +onlyGivenNames v3
  clear_value v3
  extract_lets +onlyGivenNames v4
  refine cut (P := Keeps s0 v4) ?_ fun k5 => ?_
  · unfold v4
    exact keeps_State_wr (keeps_State_setFld ‹_›)
  clear_value v4
  exact Keeps.pair (keeps_keywrap ‹_›)

theorem keeps_mediaRun {s0 s : State} (hk : Keeps s0 s) {princ : Nat} {bad : List (Nat × Nat × Nat)} :
    Keeps s0 (mediaRun princ bad s).2 := by
  unfold mediaRun
  split
  rename_i x0 x1 x2 e3
  refine cut (P := Keeps s0 x2) ?_ fun k4 => ?_
  · exact Keeps.snd e3 (keeps_mediaInit ‹_›)
  refine Keeps.iteSnd ?_ ?_
  · exact Keeps.pair ‹_›
  exact Keeps.pair (keeps_procRan ‹_›)

theorem keeps_nsRun {s0 : State} {key : Nat} {princ : Nat} {r : ProcRes × State} (hk : Keeps s0 r.2) :
    Keeps s0 (nsRun key princ r).2 := by
  unfold nsRun
  refine Keeps.iteSnd ?_ ?_
  · exact Keeps.pair ‹_›
  exact Keeps.pair (keeps_procRan ‹_›)

theorem keeps_zeroizeRun {s0 s : State} (hk : Keeps s0 s) {h : Nat} :
    Keeps s0 (zeroizeRun h s).2 := by
  unfold zeroizeRun
  refine Keeps.iteSnd ?_ ?_
  · exact Keeps.pair ‹_›
  refine Keeps.iteSnd ?_ ?_
  · exact Keeps.pair ‹_›
  exact Keeps.pair (keeps_ksZeroize ‹_›)

theorem keeps_clearSticky {s0 s : State} (hk : Keeps s0 s) {n : Nat} :
    Keeps s0 (clearSticky n s) := by
  unfold clearSticky
  refine Keeps.ite ?_ ?_
  · exact keeps_feltPost ‹_›
  exact keeps_State_setFlag ‹_›

theorem keeps_clearStickyRun {s0 s : State} (hk : Keeps s0 s) {n : Nat} :
    Keeps s0 (clearStickyRun n s).2 := by
  unfold clearStickyRun
  refine Keeps.iteSnd ?_ ?_
  · exact Keeps.pair (keeps_clearSticky ‹_›)
  exact Keeps.pair ‹_›

theorem keeps_feltNow {s0 s : State} (hk : Keeps s0 s) {a : Nat} {w : Word} :
    Keeps s0 (feltNow a w s) := by
  unfold feltNow
  refine Keeps.foldl ?_ fun t0 x1 k2 => ?_
  · exact keeps_feltPost ‹_›
  exact keeps_feltLand ‹_›

theorem keeps_immRegs {s0 s : State} (hk : Keeps s0 s) {l : List Piece} {v : Nat} :
    Keeps s0 (immRegs l v s).2 := by
  unfold immRegs
  split
  · rename_i x0
    exact Keeps.pair ‹_›
  rename_i x1 x2 x3
  refine Keeps.iteSnd ?_ ?_
  · exact Keeps.pair (keeps_shadowReject ‹_›)
  exact Keeps.pair (keeps_feltNow ‹_›)

theorem keeps_restoreOne {s0 s : State} (hk : Keeps s0 s) {key : Nat} {o : Obj} :
    Keeps s0 (restoreOne key o s) := by
  unfold restoreOne
  split
  · rename_i x0 e1
    exact keeps_State_onDict ‹_›
  · rename_i x2 e3
    refine Keeps.ite ?_ ?_
    · exact keeps_State_onDict ‹_›
    exact keeps_State_onDict ‹_›
  · rename_i x4 e5
    split
    · rename_i x6 x7 e8
      exact keeps_immRegs ‹_›
    · rename_i x9 e10
      exact keeps_State_onDict ‹_›
    rename_i x11 e12 e13
    assumption
  rename_i x14 e15 e16 e17
  assumption

theorem keeps_restoreAll {s0 s : State} (hk : Keeps s0 s) {p : Nat → Bool} :
    Keeps s0 (restoreAll p s) := by
  unfold restoreAll
  refine Keeps.foldl ?_ fun t0 x1 k2 => ?_
  · assumption
  split
  · rename_i x3 x4 e5
    refine Keeps.foldl ?_ fun t6 x7 k8 => ?_
    · assumption
    exact keeps_restoreOne ‹_›
  rename_i x9 e10
  assumption

theorem keeps_restoreDefaults {s0 s : State} (hk : Keeps s0 s) {arg : Nat} :
    Keeps s0 (restoreDefaults arg s).2 := by
  unfold restoreDefaults
  split
  · rename_i x0 e1
    exact Keeps.pair ‹_›
  rename_i x2 x3 e4
  exact Keeps.pair (keeps_restoreAll ‹_›)

theorem keeps_runProc {s0 s : State} (hk : Keeps s0 s) {key : Nat} {princ : Nat} {d : Bytes} {env : ProcEnv} :
    Keeps s0 (runProc key princ d env s).2 := by
  unfold runProc
  extract_lets +onlyGivenNames v0
  clear_value v0
  refine Keeps.iteSnd ?_ ?_
  · exact keeps_procAtOnce (Keeps.pair (keeps_anchorRequest ‹_›))
  refine Keeps.iteSnd ?_ ?_
  · exact keeps_procAtOnce (Keeps.pair (keeps_epochRequest ‹_›))
  refine Keeps.iteSnd ?_ ?_
  · exact keeps_procGoes (keeps_keywrapRun ‹_›)
  refine Keeps.iteSnd ?_ ?_
  · exact keeps_mediaRun ‹_›
  refine Keeps.iteSnd ?_ ?_
  · exact keeps_nsRun (keeps_holdRelease ‹_›)
  refine Keeps.iteSnd ?_ ?_
  · exact keeps_nsRun (keeps_nsPurge ‹_›)
  refine Keeps.iteSnd ?_ ?_
  · refine Keeps.iteSnd ?_ ?_
    · exact Keeps.pair ‹_›
    exact keeps_procGoes (Keeps.pair (keeps_ckRequest ‹_›))
  refine Keeps.iteSnd ?_ ?_
  · exact keeps_procAtOnce (keeps_zeroizeRun ‹_›)
  refine Keeps.iteSnd ?_ ?_
  · exact keeps_procAtOnce (Keeps.pair (keeps_selfTest ‹_›))
  refine Keeps.iteSnd ?_ ?_
  · exact keeps_exportStart ‹_›
  refine Keeps.iteSnd ?_ ?_
  · exact keeps_exportAbort ‹_›
  refine Keeps.iteSnd ?_ ?_
  · exact keeps_courtCopy ‹_›
  refine Keeps.iteSnd ?_ ?_
  · exact keeps_procAtOnce (keeps_setTime ‹_›)
  refine Keeps.iteSnd ?_ ?_
  · exact keeps_procGoes (keeps_tbist ‹_›)
  refine Keeps.iteSnd ?_ ?_
  · exact keeps_procAtOnce (Keeps.pair (keeps_startLastBreath ‹_›))
  refine Keeps.iteSnd ?_ ?_
  · exact keeps_procAtOnce (keeps_clearStickyRun ‹_›)
  refine Keeps.iteSnd ?_ ?_
  · refine Keeps.iteSnd ?_ ?_
    · exact Keeps.pair ‹_›
    exact keeps_lifecycleAdvance ‹_›
  refine Keeps.iteSnd ?_ ?_
  · exact Keeps.pair (keeps_resetRequest ‹_›)
  refine Keeps.iteSnd ?_ ?_
  · exact keeps_procAtOnce (keeps_restoreDefaults ‹_›)
  refine Keeps.iteSnd ?_ ?_
  · exact keeps_procAtOnce (keeps_fwCommit ‹_›)
  refine Keeps.iteSnd ?_ ?_
  · exact Keeps.pair ‹_›
  extract_lets +onlyGivenNames v1
  refine cut (P := Keeps s0 v1) ?_ fun k2 => ?_
  · unfold v1
    exact keeps_warmStart (keeps_procStart ‹_›)
  clear_value v1
  exact Keeps.pair (keeps_procSettle ‹_›)

theorem keeps_writeImm {s0 s : State} (hk : Keeps s0 s) {key : Nat} {o : Obj} {v : Bytes} :
    Keeps s0 (writeImm key o v s).2 := by
  unfold writeImm
  extract_lets +onlyGivenNames v0
  clear_value v0
  refine Keeps.iteSnd ?_ ?_
  · exact keeps_fwOffset ‹_›
  refine Keeps.iteSnd ?_ ?_
  · exact keeps_fwChunk ‹_›
  refine Keeps.iteSnd ?_ ?_
  · exact keeps_debugResponse ‹_›
  refine Keeps.iteSnd ?_ ?_
  · refine Keeps.iteSnd ?_ ?_
    · exact Keeps.pair ‹_›
    exact Keeps.pair (keeps_State_onDict ‹_›)
  split
  · rename_i x1 x2 e3
    exact keeps_immRegs ‹_›
  rename_i x4 e5
  exact Keeps.pair (keeps_State_onDict ‹_›)

theorem keeps_writeObj {s0 s : State} (hk : Keeps s0 s) {key : Nat} {princ : Nat} {o : Obj} {v : Bytes} {env : ProcEnv} :
    Keeps s0 (writeObj key princ o v env s).2 := by
  unfold writeObj
  split
  · rename_i x0 e1
    exact Keeps.pair ‹_›
  · rename_i x2 e3
    exact Keeps.pair (keeps_State_onDict ‹_›)
  · rename_i x4 e5
    exact Keeps.pair (keeps_State_onDict ‹_›)
  · rename_i x6 e7
    exact keeps_writeFuse ‹_›
  rename_i x8 e9
  refine Keeps.iteSnd ?_ ?_
  · exact keeps_runProc ‹_›
  exact keeps_writeImm ‹_›

theorem keeps_writeOrdered {s0 s : State} (hk : Keeps s0 s) {key : Nat} {princ : Nat} {o : Obj} {v : Bytes} {env : ProcEnv} {busy : Bool} :
    Keeps s0 (writeOrdered key princ o v env busy s).2 := by
  unfold writeOrdered
  extract_lets +onlyGivenNames v0
  refine cut (P := Keeps s0 v0.2) ?_ fun k1 => ?_
  · unfold v0
    exact keeps_writeObj ‹_›
  clear_value v0
  refine Keeps.iteSnd ?_ ?_
  · refine Keeps.iteSnd ?_ ?_
    · exact Keeps.pair ‹_›
    exact Keeps.pair ‹_›
  assumption

theorem keeps_flushReply {s0 s : State} (hk : Keeps s0 s) {c : Carrier} :
    Keeps s0 (flushReply c s) := by
  unfold flushReply
  split
  · rename_i x0 x1
    extract_lets +onlyGivenNames v2
    clear_value v2
    split
    · rename_i x3 x4 e5
      refine Keeps.ite ?_ ?_
      · assumption
      extract_lets +onlyGivenNames v6
      clear_value v6
      extract_lets +onlyGivenNames v7
      clear_value v7
      exact keeps_msgSent (keeps_setCan ‹_›)
    rename_i x8 e9
    assumption
  rename_i x10 e11
  assumption

theorem keeps_serveWrite {s0 s : State} (hk : Keeps s0 s) {r : Request} {o : Obj} :
    Keeps s0 (serveWrite r o s) := by
  unfold serveWrite
  extract_lets +onlyGivenNames v0
  clear_value v0
  extract_lets +onlyGivenNames v1
  clear_value v1
  refine Keeps.ite ?_ ?_
  · extract_lets +onlyGivenNames v2
    clear_value v2
    refine keeps_reply ?_
    refine Keeps.ite ?_ ?_
    · exact keeps_openWrite ‹_›
    assumption
  extract_lets +onlyGivenNames v3
  refine cut (P := Keeps s0 v3.2) ?_ fun k4 => ?_
  · unfold v3
    exact keeps_writeOrdered ‹_›
  clear_value v3
  refine Keeps.ite ?_ ?_
  · exact keeps_writeOrdered (keeps_flushReply (keeps_reply ‹_›))
  exact keeps_reply ‹_›

theorem keeps_serveRead {s0 s : State} (hk : Keeps s0 s) {r : Request} {o : Obj} :
    Keeps s0 (serveRead r o s) := by
  unfold serveRead
  extract_lets +onlyGivenNames v0
  clear_value v0
  refine Keeps.ite ?_ ?_
  · exact keeps_reply ‹_›
  refine Keeps.ite ?_ ?_
  · split
    rename_i x1 x2 x3 x4 e5
    refine cut (P := Keeps s0 x4) ?_ fun k6 => ?_
    · exact Keeps.snd2 e5 (keeps_debugChallenge ‹_›)
    exact keeps_reply ‹_›
  extract_lets +onlyGivenNames v7
  clear_value v7
  extract_lets +onlyGivenNames v8
  clear_value v8
  refine Keeps.ite ?_ ?_
  · exact keeps_reply ‹_›
  refine keeps_reply ?_
  refine Keeps.ite ?_ ?_
  · exact keeps_State_fresh ‹_›
  assumption

theorem keeps_serve {s0 s : State} (hk : Keeps s0 s) {r : Request} :
    Keeps s0 (serve r s) := by
  unfold serve
  refine Keeps.ite ?_ ?_
  · exact keeps_reply ‹_›
  extract_lets +onlyGivenNames v0
  refine cut (P := Keeps s0 v0) ?_ fun k1 => ?_
  · unfold v0
    exact keeps_State_add64 ‹_›
  clear_value v0
  split
  · rename_i x2 e3
    exact keeps_fallThrough ‹_›
  rename_i x4 x5 e6
  split
  · rename_i x7 x8 e9
    exact keeps_reply ‹_›
  rename_i x10 x11 e12
  refine Keeps.ite ?_ ?_
  · exact keeps_serveWrite ‹_›
  exact keeps_serveRead ‹_›

theorem keeps_serveDesc {s0 s : State} (hk : Keeps s0 s) {c : Carrier} {addr : Nat} {princ : Nat} {env : ProcEnv} :
    Keeps s0 (serveDesc c addr princ env s) := by
  unfold serveDesc
  split
  rename_i x0 x1 x2 e3
  refine cut (P := Keeps s0 x2) ?_ fun k4 => ?_
  · exact Keeps.snd e3 (keeps_dengLoad ‹_›)
  split
  · rename_i x5
    assumption
  rename_i x6 x7
  extract_lets +onlyGivenNames v8
  clear_value v8
  extract_lets +onlyGivenNames v9
  clear_value v9
  extract_lets +onlyGivenNames v10
  clear_value v10
  refine Keeps.ite ?_ ?_
  · exact keeps_localEnd ‹_›
  refine Keeps.ite ?_ ?_
  · refine Keeps.ite ?_ ?_
    · exact keeps_localEnd ‹_›
    split
    rename_i x11 x12 x13 e14
    refine cut (P := Keeps s0 x13) ?_ fun k15 => ?_
    · exact Keeps.snd e14 (keeps_dengLoad ‹_›)
    split
    · rename_i x16
      exact keeps_localEnd ‹_›
    rename_i x17 x18
    exact keeps_serve ‹_›
  exact keeps_serve ‹_›

theorem keeps_serveLocal {s0 s : State} (hk : Keeps s0 s) {env : ProcEnv} :
    Keeps s0 (serveLocal env s) := by
  unfold serveLocal
  split
  · rename_i x0 e1
    assumption
  rename_i x2 x3 x4 e5
  exact keeps_serveDesc (keeps_State_onDict ‹_›)

theorem keeps_serveCard {s0 s : State} (hk : Keeps s0 s) {env : ProcEnv} :
    Keeps s0 (serveCard env s) := by
  unfold serveCard
  split
  · rename_i x0 e1
    assumption
  rename_i x2 x3 x4 x5 e6
  extract_lets +onlyGivenNames v7
  refine cut (P := Keeps s0 v7) ?_ fun k8 => ?_
  · unfold v7
    exact keeps_State_onCards ‹_›
  clear_value v7
  refine Keeps.ite ?_ ?_
  · exact keeps_serveDesc ‹_›
  exact keeps_localEnd ‹_›

theorem keeps_lsubmit {s0 s : State} (hk : Keeps s0 s) {addr : Nat} :
    Keeps s0 (lsubmit addr s) := by
  unfold lsubmit
  refine Keeps.ite ?_ ?_
  · exact keeps_State_raise ‹_›
  exact keeps_State_onDict ‹_›

theorem keeps_diagPush {s0 s : State} (hk : Keeps s0 s) {w : Word} :
    Keeps s0 (diagPush w s) := by
  unfold diagPush
  refine Keeps.ite ?_ ?_
  · assumption
  extract_lets +onlyGivenNames v0
  clear_value v0
  extract_lets +onlyGivenNames v1
  clear_value v1
  refine Keeps.ite ?_ ?_
  · exact keeps_State_setFld ‹_›
  exact keeps_diagEntry (keeps_State_onDiag ‹_›)

theorem keeps_preqSubmit {s0 s : State} (hk : Keeps s0 s) {addr : Nat} :
    Keeps s0 (preqSubmit addr s) := by
  unfold preqSubmit
  refine Keeps.ite ?_ ?_
  · assumption
  exact keeps_State_onCards ‹_›

theorem keeps_standingReset {s0 s : State} (hk : Keeps s0 s) {n : Nat} :
    Keeps s0 (standingReset n s) := by
  unfold standingReset
  split
  · rename_i x0 x1 x2 e3
    refine Keeps.ite ?_ ?_
    · exact keeps_feltSticky ‹_›
    exact keeps_setSticky ‹_›
  rename_i x4 e5
  assumption

end Sys2Proof.Laws
end

