-- ==== Sys2Proof/Laws/KeepsSession.lean ====
section
/-!
SUPPORT. What every operation of Machine/Session.lean keeps (`Keeps`, Laws/Keeps.lean).
-/

namespace Sys2Proof.Laws

open Sys2Proof.Machine

theorem keeps_mboxCode {s0 s : State} (hk : Keeps s0 s) {k : Nat} {tag : Nat} {msg : Nat} {code : Nat} :
    Keeps s0 (mboxCode k tag msg code s) := by
  unfold mboxCode
  exact keeps_mboxSend ‹_›

theorem keeps_writeSegEnd {s0 s : State} (hk : Keeps s0 s) {x : Xfer} {sno : Nat} {env : ProcEnv} :
    Keeps s0 (writeSegEnd x sno env s) := by
  unfold writeSegEnd
  extract_lets +onlyGivenNames v0
  refine cut (P := Keeps s0 v0) ?_ fun k1 => ?_
  · unfold v0
    exact keeps_dropXfer ‹_›
  clear_value v0
  refine Keeps.ite ?_ ?_
  · exact keeps_blockAck ‹_›
  exact keeps_serve ‹_›

theorem keeps_takeSegment {s0 s : State} (hk : Keeps s0 s) {m : Msg} :
    Keeps s0 (takeSegment m s) := by
  unfold takeSegment
  split
  · rename_i x0 e1
    assumption
  rename_i x2 x3 e4
  extract_lets +onlyGivenNames v5
  clear_value v5
  extract_lets +onlyGivenNames v6
  clear_value v6
  extract_lets +onlyGivenNames v7
  clear_value v7
  extract_lets +onlyGivenNames v8
  clear_value v8
  refine Keeps.ite ?_ ?_
  · assumption
  refine Keeps.ite ?_ ?_
  · extract_lets +onlyGivenNames v9
    refine cut (P := Keeps s0 v9) ?_ fun k10 => ?_
    · unfold v9
      exact keeps_putXfer ‹_›
    clear_value v9
    split
    · rename_i x11 x12 e13
      exact keeps_blockAck ‹_›
    rename_i x14 e15
    assumption
  extract_lets +onlyGivenNames v16
  clear_value v16
  refine Keeps.ite ?_ ?_
  · exact keeps_writeSegEnd ‹_›
  refine Keeps.ite ?_ ?_
  · exact keeps_blockAck (keeps_putXfer ‹_›)
  exact keeps_putXfer ‹_›

theorem keeps_blockAcked {s0 s : State} (hk : Keeps s0 s) {m : Msg} :
    Keeps s0 (blockAcked m s) := by
  unfold blockAcked
  split
  · rename_i x0 e1
    assumption
  rename_i x2 x3 e4
  refine Keeps.ite ?_ ?_
  · assumption
  extract_lets +onlyGivenNames v5
  clear_value v5
  extract_lets +onlyGivenNames v6
  clear_value v6
  extract_lets +onlyGivenNames v7
  clear_value v7
  extract_lets +onlyGivenNames v8
  clear_value v8
  refine Keeps.ite ?_ ?_
  · extract_lets +onlyGivenNames v9
    refine cut (P := Keeps s0 v9) ?_ fun k10 => ?_
    · unfold v9
      exact keeps_dropXfer ‹_›
    clear_value v9
    split
    · rename_i x11 x12 e13
      exact keeps_mboxFree ‹_›
    rename_i x14 e15
    assumption
  extract_lets +onlyGivenNames v16
  clear_value v16
  exact keeps_sendBlock (keeps_putXfer ‹_›)

theorem keeps_abortTrans {s0 s : State} (hk : Keeps s0 s) {c : Carrier} {tag : Nat} {tie : Bool} :
    Keeps s0 (abortTrans c tag tie s).2 := by
  unfold abortTrans
  split
  · rename_i x0 x1 e2
    exact Keeps.pair (keeps_dropXfer ‹_›)
  rename_i x3 e4
  split
  · rename_i x5 x6 e7
    split
    · rename_i x8 x9 e10
      exact Keeps.pair (keeps_fwPass ‹_›)
    rename_i x11 e12
    exact Keeps.pair ‹_›
  rename_i x13 e14
  extract_lets +onlyGivenNames v15
  clear_value v15
  exact Keeps.pair ‹_›

theorem keeps_msgRequest {s0 s : State} (hk : Keeps s0 s) {m : Msg} :
    Keeps s0 (msgRequest m s) := by
  unfold msgRequest
  refine Keeps.ite ?_ ?_
  · exact keeps_serve ‹_›
  exact keeps_reply ‹_›

theorem keeps_mboxRing {s0 s : State} (hk : Keeps s0 s) {k : Nat} {env : ProcEnv} {tie : Bool} :
    Keeps s0 (mboxRing k env tie s) := by
  unfold mboxRing
  extract_lets +onlyGivenNames v0
  clear_value v0
  extract_lets +onlyGivenNames v1
  clear_value v1
  extract_lets +onlyGivenNames v2
  clear_value v2
  extract_lets +onlyGivenNames v3
  clear_value v3
  extract_lets +onlyGivenNames v4
  clear_value v4
  extract_lets +onlyGivenNames v5
  clear_value v5
  extract_lets +onlyGivenNames v6
  clear_value v6
  refine Keeps.ite ?_ ?_
  · assumption
  refine Keeps.ite ?_ ?_
  · refine Keeps.ite ?_ ?_
    · assumption
    exact keeps_mboxCode ‹_›
  refine Keeps.ite ?_ ?_
  · refine Keeps.ite ?_ ?_
    · assumption
    refine Keeps.ite ?_ ?_
    · exact keeps_takeSegment ‹_›
    refine Keeps.ite ?_ ?_
    · exact keeps_blockAcked ‹_›
    assumption
  refine Keeps.ite ?_ ?_
  · extract_lets +onlyGivenNames v7
    clear_value v7
    split
    rename_i x8 x9 x10 e11
    refine cut (P := Keeps s0 x10) ?_ fun k12 => ?_
    · refine Keeps.snd e11 ?_
      split
      · rename_i x13 x14
        extract_lets +onlyGivenNames v15
        refine cut (P := Keeps s0 v15.2) ?_ fun k16 => ?_
        · unfold v15
          exact keeps_abortTrans ‹_›
        clear_value v15
        refine Keeps.pair ?_
        refine Keeps.ite ?_ ?_
        · exact keeps_mboxFree ‹_›
        assumption
      rename_i x17
      exact Keeps.pair ‹_›
    extract_lets +onlyGivenNames v18
    refine cut (P := Keeps s0 v18) ?_ fun k19 => ?_
    · unfold v18
      exact keeps_State_onDict ‹_›
    clear_value v18
    exact keeps_mboxSend ‹_›
  refine Keeps.ite ?_ ?_
  · refine Keeps.ite ?_ ?_
    · exact keeps_mboxCode ‹_›
    exact keeps_msgRequest (keeps_State_onPcie ‹_›)
  assumption

theorem keeps_protErr {s0 s : State} (hk : Keeps s0 s) :
    Keeps s0 (protErr s) := by
  unfold protErr
  exact keeps_State_addSat (keeps_State_raise ‹_›)

theorem keeps_authFail {s0 s : State} (hk : Keeps s0 s) :
    Keeps s0 (authFail s) := by
  unfold authFail
  exact keeps_State_addSat (keeps_State_raise ‹_›)

theorem keeps_refuse {s0 s : State} (hk : Keeps s0 s) {carrier : Nat} {src : Nat} {tag : Nat} {code : Nat} :
    Keeps s0 (refuse carrier src tag code s) := by
  unfold refuse
  exact keeps_ydpSend ‹_›

theorem keeps_challenge {s0 s : State} (hk : Keeps s0 s) {carrier : Nat} {src : Nat} {tag : Nat} {p : Nat} {i : Nat} {np : Bytes} {nd : Bytes} :
    Keeps s0 (challenge carrier src tag p i np nd s) := by
  unfold challenge
  extract_lets +onlyGivenNames v0
  refine cut (P := Keeps s0 v0) ?_ fun k1 => ?_
  · unfold v0
    refine Keeps.ite ?_ ?_
    · exact keeps_sessClose ‹_›
    assumption
  clear_value v0
  extract_lets +onlyGivenNames v2
  clear_value v2
  extract_lets +onlyGivenNames v3
  clear_value v3
  extract_lets +onlyGivenNames v4
  refine cut (P := Keeps s0 v4) ?_ fun k5 => ?_
  · unfold v4
    exact keeps_setSess ‹_›
  clear_value v4
  exact keeps_ydpSend ‹_›

theorem keeps_phase1 {s0 s : State} (hk : Keeps s0 s) {carrier : Nat} {id : Nat} {p : Bytes} :
    Keeps s0 (phase1 carrier id p s) := by
  unfold phase1
  extract_lets +onlyGivenNames v0
  clear_value v0
  extract_lets +onlyGivenNames v1
  clear_value v1
  extract_lets +onlyGivenNames v2
  clear_value v2
  extract_lets +onlyGivenNames v3
  clear_value v3
  refine Keeps.ite ?_ ?_
  · exact keeps_protErr ‹_›
  extract_lets +onlyGivenNames v4
  clear_value v4
  extract_lets +onlyGivenNames v5
  clear_value v5
  refine Keeps.ite ?_ ?_
  · exact keeps_authFail ‹_›
  extract_lets +onlyGivenNames v6
  clear_value v6
  refine Keeps.ite ?_ ?_
  · exact keeps_refuse ‹_›
  split
  · rename_i x7 e8
    exact keeps_refuse ‹_›
  rename_i x9 x10 e11
  split
  · rename_i x12 x13 x14 e15
    refine cut (P := Keeps s0 x14) ?_ fun k16 => ?_
    · exact Keeps.snd e15 (keeps_drbgNow ‹_›)
    exact keeps_challenge ‹_›
  rename_i x17 x18 e19
  refine cut (P := Keeps s0 x18) ?_ fun k20 => ?_
  · exact Keeps.snd e19 (keeps_drbgNow ‹_›)
  exact keeps_refuse ‹_›

theorem keeps_confirmSess {s0 s : State} (hk : Keeps s0 s) {i : Nat} {key : Bytes} :
    Keeps s0 (confirmSess i key s) := by
  unfold confirmSess
  extract_lets +onlyGivenNames v0
  extract_lets +onlyGivenNames v1
  refine cut (P := Keeps s0 v1) ?_ fun k2 => ?_
  · unfold v1
    refine Keeps.foldl ?_ fun t3 x4 k5 => ?_
    · assumption
    extract_lets +onlyGivenNames v6
    refine Keeps.ite ?_ ?_
    · exact keeps_sessClose ‹_›
    assumption
  clear_value v1
  extract_lets +onlyGivenNames v7
  refine cut (P := Keeps s0 v7) ?_ fun k8 => ?_
  · unfold v7
    exact keeps_setSess ‹_›
  clear_value v7
  extract_lets +onlyGivenNames v9
  refine cut (P := Keeps s0 v9) ?_ fun k10 => ?_
  · unfold v9
    exact keeps_State_onGing ‹_›
  clear_value v9
  exact keeps_ydpSend (keeps_State_raise ‹_›)

theorem keeps_phase3 {s0 s : State} (hk : Keeps s0 s) {carrier : Nat} {id : Nat} {p : Bytes} :
    Keeps s0 (phase3 carrier id p s) := by
  unfold phase3
  extract_lets +onlyGivenNames v0
  clear_value v0
  extract_lets +onlyGivenNames v1
  clear_value v1
  extract_lets +onlyGivenNames v2
  clear_value v2
  extract_lets +onlyGivenNames v3
  clear_value v3
  extract_lets +onlyGivenNames v4
  clear_value v4
  refine Keeps.ite ?_ ?_
  · exact keeps_protErr ‹_›
  refine Keeps.ite ?_ ?_
  · assumption
  split
  · rename_i x5 x6 e7
    refine Keeps.ite ?_ ?_
    · exact keeps_authFail ‹_›
    refine Keeps.ite ?_ ?_
    · exact keeps_confirmSess ‹_›
    exact keeps_refuse (keeps_setSess ‹_›)
  rename_i x8 e9
  exact keeps_refuse (keeps_setSess ‹_›)

theorem keeps_abortMsg {s0 s : State} (hk : Keeps s0 s) {m : Msg} {target : Carrier} {tie : Bool} :
    Keeps s0 (abortMsg m target tie s) := by
  unfold abortMsg
  split
  rename_i x0 x1 x2 e3
  refine cut (P := Keeps s0 x2) ?_ fun k4 => ?_
  · exact Keeps.snd e3 (keeps_abortTrans ‹_›)
  extract_lets +onlyGivenNames v5
  refine cut (P := Keeps s0 v5) ?_ fun k6 => ?_
  · unfold v5
    exact keeps_State_onDict ‹_›
  clear_value v5
  exact keeps_answer ‹_›

theorem keeps_sessMsg {s0 s : State} (hk : Keeps s0 s) {i : Nat} {m : Msg} {tie : Bool} :
    Keeps s0 (sessMsg i m tie s) := by
  unfold sessMsg
  refine Keeps.ite ?_ ?_
  · refine Keeps.ite ?_ ?_
    · exact keeps_protErr ‹_›
    refine Keeps.ite ?_ ?_
    · exact keeps_reply ‹_›
    exact keeps_msgRequest ‹_›
  refine Keeps.ite ?_ ?_
  · exact keeps_takeSegment ‹_›
  refine Keeps.ite ?_ ?_
  · exact keeps_blockAcked ‹_›
  refine Keeps.ite ?_ ?_
  · exact keeps_abortMsg ‹_›
  refine Keeps.ite ?_ ?_
  · extract_lets +onlyGivenNames v0
    clear_value v0
    exact keeps_ydpSend (keeps_sessShut ‹_›)
  assumption

theorem keeps_sessFrame {s0 s : State} (hk : Keeps s0 s) {i : Nat} {verified : Bool} {id : Nat} {p : Bytes} {env : ProcEnv} {tie : Bool} :
    Keeps s0 (sessFrame i verified id p env tie s) := by
  unfold sessFrame
  extract_lets +onlyGivenNames v0
  clear_value v0
  extract_lets +onlyGivenNames v1
  clear_value v1
  refine Keeps.ite ?_ ?_
  · extract_lets +onlyGivenNames v2
    refine cut (P := Keeps s0 v2) ?_ fun k3 => ?_
    · unfold v2
      exact keeps_setSess (keeps_authFail ‹_›)
    clear_value v2
    refine Keeps.ite ?_ ?_
    · exact keeps_sessClose ‹_›
    assumption
  refine Keeps.ite ?_ ?_
  · assumption
  extract_lets +onlyGivenNames v4
  clear_value v4
  extract_lets +onlyGivenNames v5
  refine cut (P := Keeps s0 v5) ?_ fun k6 => ?_
  · unfold v5
    exact keeps_setSess ‹_›
  clear_value v5
  extract_lets +onlyGivenNames v7
  refine cut (P := Keeps s0 v7) ?_ fun k8 => ?_
  · unfold v7
    refine Keeps.ite ?_ ?_
    · exact keeps_rekeyReq ‹_›
    assumption
  clear_value v7
  extract_lets +onlyGivenNames v9
  clear_value v9
  extract_lets +onlyGivenNames v10
  refine cut (P := Keeps s0 v10) ?_ fun k11 => ?_
  · unfold v10
    exact keeps_sessMsg ‹_›
  clear_value v10
  refine Keeps.ite ?_ ?_
  · exact keeps_sessClose ‹_›
  assumption

theorem keeps_sessionless {s0 s : State} (hk : Keeps s0 s) {carrier : Nat} {src : Nat} {tag : Nat} {msg : Nat} {flags : Nat} :
    Keeps s0 (sessionless carrier src tag msg flags s) := by
  unfold sessionless
  refine Keeps.ite ?_ ?_
  · extract_lets +onlyGivenNames v0
    clear_value v0
    exact keeps_ydpSend ‹_›
  assumption

theorem keeps_ydpFrame {s0 s : State} (hk : Keeps s0 s) {carrier : Nat} {id : Nat} {p : Bytes} {env : ProcEnv} {tie : Bool} :
    Keeps s0 (ydpFrame carrier id p env tie s) := by
  unfold ydpFrame
  extract_lets +onlyGivenNames v0
  clear_value v0
  extract_lets +onlyGivenNames v1
  clear_value v1
  extract_lets +onlyGivenNames v2
  clear_value v2
  extract_lets +onlyGivenNames v3
  clear_value v3
  refine Keeps.ite ?_ ?_
  · exact keeps_protErr ‹_›
  refine Keeps.ite ?_ ?_
  · extract_lets +onlyGivenNames v4
    clear_value v4
    refine Keeps.ite ?_ ?_
    · exact keeps_phase1 ‹_›
    refine Keeps.ite ?_ ?_
    · exact keeps_phase3 ‹_›
    assumption
  split
  · rename_i x5 x6 x7 e8
    exact keeps_sessFrame ‹_›
  rename_i x9 e10
  exact keeps_sessionless ‹_›

theorem keeps_canReceive {s0 s : State} (hk : Keeps s0 s) {n : Nat} {fr : CanFrame} {ts : Nat} {env : ProcEnv} {tie : Bool} :
    Keeps s0 (canReceive n fr ts env tie s) := by
  unfold canReceive
  refine Keeps.ite ?_ ?_
  · assumption
  extract_lets +onlyGivenNames v0
  refine cut (P := Keeps s0 v0) ?_ fun k1 => ?_
  · unfold v0
    exact keeps_rxGood (keeps_nodeClash ‹_›)
  clear_value v0
  refine Keeps.ite ?_ ?_
  · assumption
  refine Keeps.ite ?_ ?_
  · exact keeps_ydpFrame ‹_›
  exact keeps_fwReceive ‹_›

theorem keeps_uartReceive {s0 s : State} (hk : Keeps s0 s) {id : Nat} {p : Bytes} {env : ProcEnv} {tie : Bool} :
    Keeps s0 (uartReceive id p env tie s) := by
  unfold uartReceive
  refine Keeps.ite ?_ ?_
  · exact keeps_ydpFrame ‹_›
  assumption

theorem keeps_frameIn {s0 s : State} (hk : Keeps s0 s) {carrier : Nat} {id : Nat} {p : Bytes} {env : ProcEnv} {tie : Bool} :
    Keeps s0 (frameIn carrier id p env tie s) := by
  unfold frameIn
  refine Keeps.ite ?_ ?_
  · exact keeps_canReceive (keeps_State_fresh ‹_›)
  exact keeps_uartReceive ‹_›

theorem keeps_fwNotify {s0 s : State} (hk : Keeps s0 s) {w : Word} :
    Keeps s0 (fwNotify w s) := by
  unfold fwNotify
  refine Keeps.ite ?_ ?_
  · assumption
  exact keeps_notify ‹_›

theorem keeps_sessCloseGo {s0 s : State} (hk : Keeps s0 s) {i : Nat} :
    Keeps s0 (sessCloseGo i s) := by
  unfold sessCloseGo
  extract_lets +onlyGivenNames v0
  clear_value v0
  refine Keeps.ite ?_ ?_
  · exact keeps_sessClose ‹_›
  assumption

theorem keeps_notifyPop {s0 s : State} (hk : Keeps s0 s) :
    Keeps s0 (notifyPop s) := by
  unfold notifyPop
  exact keeps_State_onPcie ‹_›

theorem keeps_gapExpiry {s0 s : State} (hk : Keeps s0 s) {n : Nat} :
    Keeps s0 (gapExpiry n s) := by
  unfold gapExpiry
  split
  · rename_i x0 e1
    assumption
  rename_i x2 x3 e4
  refine Keeps.ite ?_ ?_
  · exact keeps_blockAck (keeps_putXfer ‹_›)
  assumption

theorem keeps_segTimeout {s0 s : State} (hk : Keeps s0 s) {n : Nat} :
    Keeps s0 (segTimeout n s) := by
  unfold segTimeout
  split
  · rename_i x0 e1
    assumption
  rename_i x2 x3 e4
  refine Keeps.ite ?_ ?_
  · assumption
  exact keeps_answer (keeps_dropXfer ‹_›)

theorem keeps_rspClear {s0 s : State} (hk : Keeps s0 s) {k : Nat} :
    Keeps s0 (rspClear k s) := by
  unfold rspClear
  extract_lets +onlyGivenNames v0
  refine cut (P := Keeps s0 v0) ?_ fun k1 => ?_
  · unfold v0
    exact keeps_State_setFlag ‹_›
  clear_value v0
  split
  · rename_i x2 x3 e4
    exact keeps_mboxPut (keeps_State_onPcie ‹_›)
  rename_i x5 e6
  assumption

theorem keeps_suspendExpiry {s0 s : State} (hk : Keeps s0 s) {i : Nat} :
    Keeps s0 (suspendExpiry i s) := by
  unfold suspendExpiry
  extract_lets +onlyGivenNames v0
  clear_value v0
  refine Keeps.ite ?_ ?_
  · exact keeps_sessClose ‹_›
  assumption

theorem keeps_phase3Timeout {s0 s : State} (hk : Keeps s0 s) {i : Nat} :
    Keeps s0 (phase3Timeout i s) := by
  unfold phase3Timeout
  extract_lets +onlyGivenNames v0
  clear_value v0
  refine Keeps.ite ?_ ?_
  · exact keeps_setSess ‹_›
  assumption

theorem keeps_idleExpiry {s0 s : State} (hk : Keeps s0 s) {i : Nat} :
    Keeps s0 (idleExpiry i s) := by
  unfold idleExpiry
  extract_lets +onlyGivenNames v0
  clear_value v0
  refine Keeps.ite ?_ ?_
  · exact keeps_sessClose ‹_›
  assumption

end Sys2Proof.Laws
end

