-- ==== Sys2Proof/Laws/KeepsRequests.lean ====
section
/-!
SUPPORT. What every operation of Machine/Requests.lean keeps (`Keeps`, Laws/Keeps.lean).
-/

namespace Sys2Proof.Laws

open Sys2Proof.Machine

theorem keeps_dispatchReq {s0 s : State} (hk : Keeps s0 s) {r : ReqIn} {env : ProcEnv} {tie : Bool} :
    Keeps s0 (dispatchReq r env tie s) := by
  unfold dispatchReq
  split
  · rename_i x0
    exact keeps_serveLocal ‹_›
  · rename_i x1
    exact keeps_serveCard ‹_›
  · rename_i x2 x3
    refine Keeps.ite ?_ ?_
    · assumption
    exact keeps_mboxRing ‹_›
  rename_i x4 x5 x6 x7
  refine Keeps.ite ?_ ?_
  · assumption
  exact keeps_frameIn ‹_›

theorem keeps_wrapUp {s0 s : State} (hk : Keeps s0 s) :
    Keeps s0 (wrapUp s) := by
  unfold wrapUp
  exact keeps_procSettle (keeps_warmAdvance ‹_›)

theorem keeps_takeReq {s0 s : State} (hk : Keeps s0 s) {msgs : List Nat} {seg : Bool} {r : ReqIn} {env : ProcEnv} {tie : Bool} :
    Keeps s0 (takeReq msgs seg r env tie s) := by
  unfold takeReq
  split
  · rename_i x0 x1 x2 e3
    refine Keeps.ite ?_ ?_
    · exact keeps_dispatchReq ‹_›
    assumption
  rename_i x4 e5
  assumption

theorem keeps_takeOpen {s0 s : State} (hk : Keeps s0 s) {phase : Nat} {c : Fin 3} {id : BitVec 29} {p : Bytes} :
    Keeps s0 (takeOpen phase c id p s) := by
  unfold takeOpen
  refine Keeps.ite ?_ ?_
  · exact keeps_dispatchReq ‹_›
  assumption

end Sys2Proof.Laws
end

