-- ==== Sys2Proof/Laws/KeepsIrq.lean ====
section
/-!
SUPPORT. What every operation of Machine/Irq.lean keeps (`Keeps`, Laws/Keeps.lean).
-/

namespace Sys2Proof.Laws

open Sys2Proof.Machine

theorem keeps_wdReset {s0 s : State} (hk : Keeps s0 s) {reason : Nat} :
    Keeps s0 (wdReset reason s) := by
  unfold wdReset
  extract_lets +onlyGivenNames v0
  refine cut (P := Keeps s0 v0) ?_ fun k1 => ?_
  · unfold v0
    exact keeps_State_setFld ‹_›
  clear_value v0
  exact keeps_assertReset (keeps_setSticky ‹_›)

theorem keeps_plainWrite {s0 s : State} (hk : Keeps s0 s) {a : Nat} {w : Word} :
    Keeps s0 (plainWrite a w s) := by
  unfold plainWrite
  split
  · rename_i x0 x1 e2
    exact keeps_State_wr ‹_›
  rename_i x3 e4
  assumption

theorem keeps_wdCtrlWrite {s0 s : State} (hk : Keeps s0 s) {w : Word} :
    Keeps s0 (wdCtrlWrite w s) := by
  unfold wdCtrlWrite
  refine Keeps.ite ?_ ?_
  · assumption
  extract_lets +onlyGivenNames v0
  clear_value v0
  extract_lets +onlyGivenNames v1
  clear_value v1
  extract_lets +onlyGivenNames v2
  clear_value v2
  extract_lets +onlyGivenNames v3
  clear_value v3
  extract_lets +onlyGivenNames v4
  refine cut (P := Keeps s0 v4) ?_ fun k5 => ?_
  · unfold v4
    exact keeps_State_wr ‹_›
  clear_value v4
  refine Keeps.ite ?_ ?_
  · refine Keeps.onSergeSame ?_ (fun _ => rfl) (fun _ => rfl) (fun _ => rfl) (fun _ => rfl)
    assumption
  assumption

theorem keeps_wdService {s0 s : State} (hk : Keeps s0 s) {v : Nat} :
    Keeps s0 (wdService v s) := by
  unfold wdService
  extract_lets +onlyGivenNames v0
  clear_value v0
  refine Keeps.ite ?_ ?_
  · assumption
  refine Keeps.ite ?_ ?_
  · refine Keeps.onSergeSame ?_ (fun _ => rfl) (fun _ => rfl) (fun _ => rfl) (fun _ => rfl)
    assumption
  refine Keeps.ite ?_ ?_
  · split
    · rename_i x1 e2
      assumption
    rename_i x3 x4 e5
    extract_lets +onlyGivenNames v6
    refine cut (P := Keeps s0 v6) ?_ fun k7 => ?_
    · unfold v6
      refine Keeps.onSergeSame ?_ (fun _ => rfl) (fun _ => rfl) (fun _ => rfl) (fun _ => rfl)
      assumption
    clear_value v6
    refine Keeps.ite ?_ ?_
    · assumption
    refine Keeps.ite ?_ ?_
    · exact keeps_wdReset ‹_›
    refine Keeps.onSergeSame ?_ (fun _ => rfl) (fun _ => rfl) (fun _ => rfl) (fun _ => rfl)
    assumption
  refine keeps_wdReset ?_
  refine Keeps.onSergeSame ?_ (fun _ => rfl) (fun _ => rfl) (fun _ => rfl) (fun _ => rfl)
  assumption

theorem keeps_swi {s0 s : State} (hk : Keeps s0 s) {n : Nat} {b : Bool} :
    Keeps s0 (swi n b s) := by
  unfold swi
  refine Keeps.ite ?_ ?_
  · exact keeps_State_setFlag ‹_›
  assumption

theorem keeps_pushLevel {s0 s : State} (hk : Keeps s0 s) {n : Nat} {p : Nat} :
    Keeps s0 (pushLevel n p s) := by
  unfold pushLevel
  extract_lets +onlyGivenNames v0
  clear_value v0
  extract_lets +onlyGivenNames v1
  refine cut (P := Keeps s0 v1) ?_ fun k2 => ?_
  · unfold v1
    refine Keeps.onSergeSame ?_ (fun _ => rfl) (fun _ => rfl) (fun _ => rfl) (fun _ => rfl)
    assumption
  clear_value v1
  exact keeps_State_wr ‹_›

theorem keeps_lowWspWrite {s0 s : State} (hk : Keeps s0 s) :
    Keeps s0 (lowWspWrite s) := by
  unfold lowWspWrite
  exact keeps_State_wr ‹_›

theorem keeps_serrWrite {s0 s : State} (hk : Keeps s0 s) {w : Word} :
    Keeps s0 (serrWrite w s) := by
  unfold serrWrite
  extract_lets +onlyGivenNames v0
  refine cut (P := Keeps s0 v0) ?_ fun k1 => ?_
  · unfold v0
    exact keeps_plainWrite ‹_›
  clear_value v0
  refine Keeps.ite ?_ ?_
  · refine Keeps.onSergeSame ?_ (fun _ => rfl) (fun _ => rfl) (fun _ => rfl) (fun _ => rfl)
    assumption
  assumption

theorem keeps_eoi {s0 s : State} (hk : Keeps s0 s) :
    Keeps s0 (eoi s) := by
  unfold eoi
  split
  · rename_i x0 e1
    assumption
  rename_i x2 x3 x4 e5
  refine keeps_State_wr ?_
  refine Keeps.onSergeSame ?_ (fun _ => rfl) (fun _ => rfl) (fun _ => rfl) (fun _ => rfl)
  assumption

theorem keeps_timerCtrl {s0 s : State} (hk : Keeps s0 s) {n : Nat} {w : Word} {tie : Bool} :
    Keeps s0 (timerCtrl n w tie s) := by
  unfold timerCtrl
  extract_lets +onlyGivenNames v0
  clear_value v0
  extract_lets +onlyGivenNames v1
  refine cut (P := Keeps s0 v1) ?_ fun k2 => ?_
  · unfold v1
    exact keeps_State_wr ‹_›
  clear_value v1
  refine Keeps.ite ?_ ?_
  · exact keeps_State_wr ‹_›
  refine Keeps.ite ?_ ?_
  · refine Keeps.ite ?_ ?_
    · exact keeps_State_wr (keeps_State_setFlag ‹_›)
    exact keeps_State_fresh (keeps_State_wr ‹_›)
  assumption

theorem keeps_coreWrite {s0 s : State} (hk : Keeps s0 s) {a : Nat} {w : Word} {env : WriteEnv} :
    Keeps s0 (coreWrite a w env s) := by
  unfold coreWrite
  refine Keeps.ite ?_ ?_
  · refine Keeps.ite ?_ ?_
    · exact keeps_plainWrite ‹_›
    assumption
  refine Keeps.ite ?_ ?_
  · exact keeps_eoi ‹_›
  refine Keeps.ite ?_ ?_
  · exact keeps_swi ‹_›
  refine Keeps.ite ?_ ?_
  · exact keeps_swi ‹_›
  refine Keeps.ite ?_ ?_
  · exact keeps_serrWrite ‹_›
  refine Keeps.ite ?_ ?_
  · exact keeps_lowWspWrite ‹_›
  split
  · rename_i x0 x1 e2
    exact keeps_timerCtrl ‹_›
  rename_i x3 e4
  exact keeps_plainWrite ‹_›

theorem keeps_timerExpiry {s0 s : State} (hk : Keeps s0 s) {n : Nat} :
    Keeps s0 (timerExpiry n s) := by
  unfold timerExpiry
  refine Keeps.ite ?_ ?_
  · extract_lets +onlyGivenNames v0
    refine cut (P := Keeps s0 v0) ?_ fun k1 => ?_
    · unfold v0
      exact keeps_State_setFlag ‹_›
    clear_value v0
    refine Keeps.ite ?_ ?_
    · exact keeps_State_wr ‹_›
    exact keeps_State_wr (keeps_State_setFlag ‹_›)
  assumption

theorem keeps_wdExpiry {s0 s : State} (hk : Keeps s0 s) :
    Keeps s0 (wdExpiry s) := by
  unfold wdExpiry
  refine Keeps.ite ?_ ?_
  · exact keeps_wdReset ‹_›
  assumption

theorem keeps_wdWarning {s0 s : State} (hk : Keeps s0 s) :
    Keeps s0 (wdWarning s) := by
  unfold wdWarning
  refine Keeps.ite ?_ ?_
  · exact keeps_State_setFlag ‹_›
  assumption

end Sys2Proof.Laws
end

