-- ==== Sys2Proof/Laws/KeepsBus.lean ====
section
/-!
SUPPORT. What every operation of Machine/Bus.lean keeps (`Keeps`, Laws/Keeps.lean).
-/

namespace Sys2Proof.Laws

open Sys2Proof.Machine

theorem keeps_wrPk {s0 s : State} (hk : Keeps s0 s) {a : Nat} {w : Word} {env : WriteEnv} :
    Keeps s0 (wrPk a w env s) := by
  unfold wrPk
  refine Keeps.ite ?_ ?_
  · exact keeps_pkSubmit ‹_›
  refine Keeps.ite ?_ ?_
  · exact keeps_pkAbort ‹_›
  exact keeps_plainWrite ‹_›

theorem keeps_wrTweed {s0 s : State} (hk : Keeps s0 s) {a : Nat} {w : Word} {env : WriteEnv} :
    Keeps s0 (wrTweed a w env s) := by
  unfold wrTweed
  refine Keeps.ite ?_ ?_
  · refine Keeps.ite ?_ ?_
    · exact keeps_resetRequest ‹_›
    assumption
  refine Keeps.ite ?_ ?_
  · exact keeps_pwrCmd ‹_›
  refine Keeps.ite ?_ ?_
  · exact keeps_feltPost ‹_›
  refine Keeps.ite ?_ ?_
  · exact keeps_wdCtrlWrite ‹_›
  refine Keeps.ite ?_ ?_
  · exact keeps_wdService ‹_›
  refine Keeps.ite ?_ ?_
  · exact keeps_pllOutWrite ‹_›
  refine Keeps.ite ?_ ?_
  · exact keeps_feltPost ‹_›
  refine Keeps.ite ?_ ?_
  · exact keeps_diagPush ‹_›
  split
  · rename_i x0 x1 e2
    exact keeps_rootSelWrite ‹_›
  rename_i x3 e4
  split
  · rename_i x5 x6 e7
    exact keeps_ckenWrite ‹_›
  rename_i x8 e9
  split
  · rename_i x10 x11 e12
    exact keeps_clkoutWrite ‹_›
  rename_i x13 e14
  exact keeps_plainWrite ‹_›

theorem keeps_wrBoot {s0 s : State} (hk : Keeps s0 s) {a : Nat} {w : Word} {env : WriteEnv} :
    Keeps s0 (wrBoot a w env s) := by
  unfold wrBoot
  refine Keeps.ite ?_ ?_
  · exact keeps_progCmd ‹_›
  refine Keeps.ite ?_ ?_
  · exact keeps_confirm ‹_›
  refine Keeps.ite ?_ ?_
  · exact keeps_warmWrite ‹_›
  refine Keeps.ite ?_ ?_
  · refine Keeps.ite ?_ ?_
    · exact keeps_certGo ‹_›
    assumption
  exact keeps_plainWrite ‹_›

theorem keeps_wrChecker {s0 s : State} (hk : Keeps s0 s) {a : Nat} {w : Word} :
    Keeps s0 (wrChecker a w s) := by
  unfold wrChecker
  extract_lets +onlyGivenNames v0
  clear_value v0
  extract_lets +onlyGivenNames v1
  clear_value v1
  refine Keeps.ite ?_ ?_
  · refine Keeps.ite ?_ ?_
    · assumption
    exact keeps_plainWrite ‹_›
  extract_lets +onlyGivenNames v2
  refine cut (P := Keeps s0 v2) ?_ fun k3 => ?_
  · unfold v2
    exact keeps_plainWrite ‹_›
  clear_value v2
  refine Keeps.ite ?_ ?_
  · exact keeps_State_setFlag ‹_›
  assumption

theorem keeps_canvasCtrl {s0 s : State} (hk : Keeps s0 s) {w : Word} {env : WriteEnv} :
    Keeps s0 (canvasCtrl w env s) := by
  unfold canvasCtrl
  extract_lets +onlyGivenNames v0
  clear_value v0
  extract_lets +onlyGivenNames v1
  refine cut (P := Keeps s0 v1) ?_ fun k2 => ?_
  · unfold v1
    exact keeps_plainWrite ‹_›
  clear_value v1
  refine Keeps.ite ?_ ?_
  · exact keeps_canvasEnable ‹_›
  refine Keeps.ite ?_ ?_
  · exact keeps_canvasDisable ‹_›
  assumption

theorem keeps_wrCanvas {s0 s : State} (hk : Keeps s0 s) {a : Nat} {w : Word} {env : WriteEnv} :
    Keeps s0 (wrCanvas a w env s) := by
  unfold wrCanvas
  refine Keeps.ite ?_ ?_
  · exact keeps_canvasCtrl ‹_›
  refine Keeps.ite ?_ ?_
  · refine Keeps.ite ?_ ?_
    · exact keeps_slotApply ‹_›
    assumption
  exact keeps_plainWrite ‹_›

theorem keeps_doorWrite {s0 s : State} (hk : Keeps s0 s) {d : Nat} {off : Nat} {w : Word} :
    Keeps s0 (doorWrite d off w s) := by
  unfold doorWrite
  extract_lets +onlyGivenNames v0
  clear_value v0
  refine Keeps.ite ?_ ?_
  · exact keeps_writeDoorCfg ‹_›
  refine Keeps.ite ?_ ?_
  · refine Keeps.ite ?_ ?_
    · assumption
    exact keeps_plainWrite ‹_›
  assumption

theorem keeps_wrMuslin {s0 s : State} (hk : Keeps s0 s) {a : Nat} {w : Word} :
    Keeps s0 (wrMuslin a w s) := by
  unfold wrMuslin
  refine Keeps.ite ?_ ?_
  · refine Keeps.ite ?_ ?_
    · exact keeps_inval ‹_›
    assumption
  refine Keeps.ite ?_ ?_
  · exact keeps_doorWrite ‹_›
  split
  · rename_i x0 x1 e2
    split
    · rename_i x3 x4 e5
      exact keeps_portCfgWrite ‹_›
    rename_i x6 e7
    assumption
  rename_i x8 e9
  split
  · rename_i x10 x11 e12
    refine Keeps.ite ?_ ?_
    · exact keeps_setCust ‹_›
    assumption
  rename_i x13 e14
  exact keeps_plainWrite ‹_›

theorem keeps_linenCmd {s0 s : State} (hk : Keeps s0 s) {w : Word} :
    Keeps s0 (linenCmd w s) := by
  unfold linenCmd
  extract_lets +onlyGivenNames v0
  refine cut (P := Keeps s0 v0) ?_ fun k1 => ?_
  · unfold v0
    refine Keeps.ite ?_ ?_
    · exact keeps_anchorRequest ‹_›
    assumption
  clear_value v0
  extract_lets +onlyGivenNames v2
  refine cut (P := Keeps s0 v2) ?_ fun k3 => ?_
  · unfold v2
    refine Keeps.ite ?_ ?_
    · exact keeps_epochRequest ‹_›
    assumption
  clear_value v2
  refine Keeps.ite ?_ ?_
  · exact keeps_timemap ‹_›
  assumption

theorem keeps_wrLinen {s0 s : State} (hk : Keeps s0 s) {a : Nat} {w : Word} :
    Keeps s0 (wrLinen a w s) := by
  unfold wrLinen
  refine Keeps.ite ?_ ?_
  · exact keeps_linenCmd ‹_›
  refine Keeps.ite ?_ ?_
  · extract_lets +onlyGivenNames v0
    refine cut (P := Keeps s0 v0) ?_ fun k1 => ?_
    · unfold v0
      exact keeps_plainWrite ‹_›
    clear_value v0
    refine Keeps.ite ?_ ?_
    · exact keeps_keywrap ‹_›
    assumption
  exact keeps_plainWrite ‹_›

theorem keeps_wrUnit {s0 s : State} (hk : Keeps s0 s) {u : UnitId} {off : Nat} {a : Nat} {w : Word} {env : WriteEnv} :
    Keeps s0 (wrUnit u off a w env s) := by
  unfold wrUnit
  refine Keeps.ite ?_ ?_
  · exact keeps_submitJob ‹_›
  refine Keeps.ite ?_ ?_
  · exact keeps_abortJob ‹_›
  exact keeps_plainWrite ‹_›

theorem keeps_wrCipher {s0 s : State} (hk : Keeps s0 s) {a : Nat} {w : Word} {env : WriteEnv} :
    Keeps s0 (wrCipher a w env s) := by
  unfold wrCipher
  refine Keeps.ite ?_ ?_
  · refine Keeps.ite ?_ ?_
    · exact keeps_ctxCommit ‹_›
    exact keeps_plainWrite ‹_›
  split
  · rename_i x0 x1 e2
    exact keeps_State_onCtx ‹_›
  rename_i x3 e4
  exact keeps_wrUnit ‹_›

theorem keeps_ksOp {s0 s : State} (hk : Keeps s0 s) {op : Nat} {slot : Nat} {arg : Nat} :
    Keeps s0 (ksOp op slot arg s) := by
  unfold ksOp
  split
  · rename_i x0
    refine keeps_ksCommand ?_ (fun h => ?_)
    · assumption
    exact keeps_ksAlloc ‹_›
  · rename_i x1
    refine keeps_ksCommand ?_ (fun h => ?_)
    · assumption
    exact keeps_ksZeroize ‹_›
  · rename_i x2
    refine keeps_ksCommand ?_ (fun h => ?_)
    · assumption
    exact keeps_ksNarrow ‹_›
  · rename_i x3
    refine keeps_ksCommand ?_ (fun h => ?_)
    · assumption
    exact keeps_ksGenerate ‹_›
  · rename_i x4
    refine keeps_ksCommand ?_ (fun h => ?_)
    · assumption
    exact keeps_ksImport ‹_›
  · rename_i x5
    refine keeps_ksCommand ?_ (fun h => ?_)
    · assumption
    exact keeps_ksKeymove ‹_›
  · rename_i x6
    refine keeps_ksCommand ?_ (fun h => ?_)
    · assumption
    exact keeps_ksRestore ‹_›
  rename_i x7 e8 e9 e10 e11 e12 e13 e14
  assumption

theorem keeps_ksIssue {s0 s : State} (hk : Keeps s0 s) {op : Nat} {slot : Nat} {arg : Nat} :
    Keeps s0 (ksIssue op slot arg s) := by
  unfold ksIssue
  exact keeps_ksOp (keeps_State_wr ‹_›)

theorem keeps_wrKeys {s0 s : State} (hk : Keeps s0 s) {a : Nat} {w : Word} :
    Keeps s0 (wrKeys a w s) := by
  unfold wrKeys
  refine Keeps.ite ?_ ?_
  · refine Keeps.ite ?_ ?_
    · exact keeps_ksIssue ‹_›
    exact keeps_plainWrite ‹_›
  split
  · rename_i x0 x1 e2
    exact keeps_State_onKeys ‹_›
  rename_i x3 e4
  exact keeps_plainWrite ‹_›

theorem keeps_wrTwill {s0 s : State} (hk : Keeps s0 s) {a : Nat} {w : Word} {env : WriteEnv} :
    Keeps s0 (wrTwill a w env s) := by
  unfold wrTwill
  refine Keeps.ite ?_ ?_
  · exact keeps_rdAbort ‹_›
  refine Keeps.ite ?_ ?_
  · exact keeps_rrWrite ‹_›
  refine Keeps.ite ?_ ?_
  · exact keeps_pairWrite ‹_›
  refine Keeps.ite ?_ ?_
  · refine Keeps.ite ?_ ?_
    · exact keeps_ckRequest ‹_›
    assumption
  split
  · rename_i x0 x1 e2
    exact keeps_offWrite ‹_›
  rename_i x3 e4
  refine Keeps.ite ?_ ?_
  · split
    · rename_i x5 x6 e7
      exact keeps_cptWr ‹_›
    rename_i x8 e9
    assumption
  exact keeps_plainWrite ‹_›

theorem keeps_wrCham {s0 s : State} (hk : Keeps s0 s) {a : Nat} {w : Word} {env : WriteEnv} :
    Keeps s0 (wrCham a w env s) := by
  unfold wrCham
  refine Keeps.ite ?_ ?_
  · extract_lets +onlyGivenNames v0
    clear_value v0
    extract_lets +onlyGivenNames v1
    clear_value v1
    refine Keeps.ite ?_ ?_
    · extract_lets +onlyGivenNames v2
      refine cut (P := Keeps s0 v2) ?_ fun k3 => ?_
      · unfold v2
        exact keeps_plainWrite ‹_›
      clear_value v2
      refine Keeps.ite ?_ ?_
      · exact keeps_reinit ‹_›
      assumption
    refine Keeps.ite ?_ ?_
    · exact keeps_cardCmd ‹_›
    refine Keeps.ite ?_ ?_
    · refine Keeps.ite ?_ ?_
      · exact keeps_pabort ‹_›
      assumption
    exact keeps_plainWrite ‹_›
  exact keeps_plainWrite ‹_›

theorem keeps_sctlWrite {s0 s : State} (hk : Keeps s0 s) {i : Nat} {w : Word} :
    Keeps s0 (sctlWrite i w s) := by
  unfold sctlWrite
  extract_lets +onlyGivenNames v0
  refine cut (P := Keeps s0 v0) ?_ fun k1 => ?_
  · unfold v0
    exact keeps_plainWrite ‹_›
  clear_value v0
  extract_lets +onlyGivenNames v2
  refine cut (P := Keeps s0 v2) ?_ fun k3 => ?_
  · unfold v2
    refine Keeps.ite ?_ ?_
    · exact keeps_deact ‹_›
    assumption
  clear_value v2
  refine Keeps.ite ?_ ?_
  · exact keeps_activate ‹_›
  assumption

theorem keeps_wrPerc {s0 s : State} (hk : Keeps s0 s) {a : Nat} {w : Word} {env : WriteEnv} :
    Keeps s0 (wrPerc a w env s) := by
  unfold wrPerc
  refine Keeps.ite ?_ ?_
  · exact keeps_authStart ‹_›
  refine Keeps.ite ?_ ?_
  · exact keeps_preqSubmit ‹_›
  split
  · rename_i x0 x1 e2
    exact keeps_authRsp ‹_›
  rename_i x3 e4
  split
  · rename_i x5 x6 e7
    exact keeps_txWrite ‹_›
  rename_i x8 e9
  split
  · rename_i x10 x11 e12
    exact keeps_sctlWrite ‹_›
  rename_i x13 e14
  exact keeps_plainWrite ‹_›

theorem keeps_wrCan {s0 s : State} (hk : Keeps s0 s) {n : Nat} {off : Nat} {a : Nat} {w : Word} {env : WriteEnv} :
    Keeps s0 (wrCan n off a w env s) := by
  unfold wrCan
  refine Keeps.ite ?_ ?_
  · exact keeps_cctrlWrite ‹_›
  refine Keeps.ite ?_ ?_
  · exact keeps_txReq ‹_›
  refine Keeps.ite ?_ ?_
  · exact keeps_txCancel ‹_›
  refine Keeps.ite ?_ ?_
  · refine Keeps.ite ?_ ?_
    · exact keeps_rxPop ‹_›
    assumption
  exact keeps_plainWrite ‹_›

theorem keeps_wrGing {s0 s : State} (hk : Keeps s0 s) {a : Nat} {w : Word} {env : WriteEnv} :
    Keeps s0 (wrGing a w env s) := by
  unfold wrGing
  refine Keeps.ite ?_ ?_
  · exact keeps_fwNotify ‹_›
  refine Keeps.ite ?_ ?_
  · exact keeps_wrCan ‹_›
  split
  · rename_i x0 x1 e2
    refine Keeps.ite ?_ ?_
    · exact keeps_sessCloseGo ‹_›
    assumption
  rename_i x3 e4
  exact keeps_plainWrite ‹_›

theorem keeps_readDoorWrite {s0 s : State} (hk : Keeps s0 s) {r : Nat} {off : Nat} {w : Word} {env : WriteEnv} :
    Keeps s0 (readDoorWrite r off w env s) := by
  unfold readDoorWrite
  extract_lets +onlyGivenNames v0
  clear_value v0
  refine Keeps.ite ?_ ?_
  · refine Keeps.ite ?_ ?_
    · exact keeps_rdStart ‹_›
    refine Keeps.ite ?_ ?_
    · exact keeps_rdoorAbort ‹_›
    assumption
  refine Keeps.ite ?_ ?_
  · exact keeps_rdPtrWrite ‹_›
  refine Keeps.ite ?_ ?_
  · exact keeps_rdPtrWrite ‹_›
  exact keeps_plainWrite ‹_›

theorem keeps_wrPcie {s0 s : State} (hk : Keeps s0 s) {a : Nat} {w : Word} {env : WriteEnv} :
    Keeps s0 (wrPcie a w env s) := by
  unfold wrPcie
  refine Keeps.ite ?_ ?_
  · exact keeps_readDoorWrite ‹_›
  exact keeps_plainWrite ‹_›

theorem keeps_wrDeng {s0 s : State} (hk : Keeps s0 s) {a : Nat} {w : Word} :
    Keeps s0 (wrDeng a w s) := by
  unfold wrDeng
  refine Keeps.ite ?_ ?_
  · exact keeps_fwServe ‹_›
  refine Keeps.ite ?_ ?_
  · exact keeps_fwRsp ‹_›
  refine Keeps.ite ?_ ?_
  · exact keeps_lsubmit ‹_›
  exact keeps_plainWrite ‹_›

theorem keeps_blockWrite {s0 s : State} (hk : Keeps s0 s) {a : Nat} {w : Word} {env : WriteEnv} :
    Keeps s0 (blockWrite a w env s) := by
  unfold blockWrite
  refine Keeps.ite ?_ ?_
  · exact keeps_wrTweed ‹_›
  refine Keeps.ite ?_ ?_
  · exact keeps_feltWrite ‹_›
  refine Keeps.ite ?_ ?_
  · exact keeps_wrBoot ‹_›
  refine Keeps.ite ?_ ?_
  · exact keeps_wrChecker ‹_›
  refine Keeps.ite ?_ ?_
  · exact keeps_wrCanvas ‹_›
  refine Keeps.ite ?_ ?_
  · exact keeps_wrMuslin ‹_›
  refine Keeps.ite ?_ ?_
  · exact keeps_wrLinen ‹_›
  refine Keeps.ite ?_ ?_
  · exact keeps_wrUnit ‹_›
  refine Keeps.ite ?_ ?_
  · exact keeps_wrCipher ‹_›
  refine Keeps.ite ?_ ?_
  · exact keeps_wrPk ‹_›
  refine Keeps.ite ?_ ?_
  · exact keeps_wrKeys ‹_›
  refine Keeps.ite ?_ ?_
  · exact keeps_wrTwill ‹_›
  refine Keeps.ite ?_ ?_
  · exact keeps_wrCham ‹_›
  refine Keeps.ite ?_ ?_
  · exact keeps_wrPerc ‹_›
  refine Keeps.ite ?_ ?_
  · exact keeps_wrGing ‹_›
  refine Keeps.ite ?_ ?_
  · exact keeps_wrPcie ‹_›
  refine Keeps.ite ?_ ?_
  · exact keeps_wrBoot ‹_›
  refine Keeps.ite ?_ ?_
  · exact keeps_wrDeng ‹_›
  exact keeps_plainWrite ‹_›

theorem keeps_regWrite {s0 s : State} (hk : Keeps s0 s) {a : Nat} {w : Word} {env : WriteEnv} :
    Keeps s0 (regWrite a w env s) := by
  unfold regWrite
  refine Keeps.ite ?_ ?_
  · assumption
  exact keeps_wrapUp (keeps_blockWrite ‹_›)

theorem keeps_msixRelease {s0 s : State} (hk : Keeps s0 s) {n : Nat} :
    Keeps s0 (msixRelease n s) := by
  unfold msixRelease
  extract_lets +onlyGivenNames v0
  clear_value v0
  refine Keeps.ite ?_ ?_
  · exact keeps_msix (keeps_State_onPcie ‹_›)
  assumption

theorem keeps_latch {s0 s : State} (hk : Keeps s0 s) {l : List (Nat × Word)} :
    Keeps s0 (latch l s) := by
  unfold latch
  exact Keeps.mkSame ‹_›

theorem keeps_regRead {s0 s : State} (hk : Keeps s0 s) {a : Nat} :
    Keeps s0 (regRead a s).2 := by
  unfold regRead
  refine Keeps.iteSnd ?_ ?_
  · exact Keeps.pair ‹_›
  refine Keeps.iteSnd ?_ ?_
  · exact Keeps.pair (keeps_State_fresh ‹_›)
  refine Keeps.iteSnd ?_ ?_
  · exact Keeps.pair ‹_›
  refine Keeps.iteSnd ?_ ?_
  · extract_lets +onlyGivenNames v0
    refine cut (P := Keeps s0 v0) ?_ fun k1 => ?_
    · unfold v0
      exact keeps_outRead ‹_›
    clear_value v0
    exact Keeps.pair ‹_›
  split
  · rename_i x2 x3 e4
    exact Keeps.pair (keeps_setCSlot ‹_›)
  rename_i x5 e6
  split
  · rename_i x7 x8 e9
    exact Keeps.pair (Keeps.mkSame ‹_›)
  rename_i x10 e11
  extract_lets +onlyGivenNames v12
  clear_value v12
  extract_lets +onlyGivenNames v13
  refine cut (P := Keeps s0 v13) ?_ fun k14 => ?_
  · unfold v13
    refine Keeps.ite ?_ ?_
    · exact keeps_State_fresh ‹_›
    assumption
  clear_value v13
  exact Keeps.pair (keeps_latch ‹_›)

theorem keeps_msixWrite {s0 s : State} (hk : Keeps s0 s) {n : Nat} {k : Nat} {w : Word} :
    Keeps s0 (msixWrite n k w s) := by
  unfold msixWrite
  extract_lets +onlyGivenNames v0
  split
  · rename_i x1
    unfold v0
    exact keeps_State_onPcie ‹_›
  · rename_i x2
    unfold v0
    exact keeps_State_onPcie ‹_›
  · rename_i x3
    unfold v0
    exact keeps_State_onPcie ‹_›
  rename_i x4 e5 e6 e7
  refine keeps_msixRelease ?_
  unfold v0
  exact keeps_State_onPcie ‹_›

theorem keeps_bar0Write {s0 s : State} (hk : Keeps s0 s) {off : Nat} {w : Word} {env : WriteEnv} :
    Keeps s0 (bar0Write off w env s) := by
  unfold bar0Write
  refine Keeps.ite ?_ ?_
  · assumption
  refine Keeps.ite ?_ ?_
  · exact keeps_plainWrite ‹_›
  refine Keeps.ite ?_ ?_
  · refine keeps_wrapUp ?_
    refine Keeps.foldl ?_ fun t0 x1 k2 => ?_
    · assumption
    refine Keeps.ite ?_ ?_
    · exact keeps_mboxRing ‹_›
    assumption
  refine Keeps.ite ?_ ?_
  · refine Keeps.foldl ?_ fun t3 x4 k5 => ?_
    · assumption
    refine Keeps.ite ?_ ?_
    · exact keeps_rspClear ‹_›
    assumption
  refine Keeps.ite ?_ ?_
  · refine Keeps.ite ?_ ?_
    · exact keeps_notifyPop ‹_›
    assumption
  refine Keeps.ite ?_ ?_
  · exact keeps_doorbell ‹_›
  refine Keeps.ite ?_ ?_
  · exact keeps_msixWrite ‹_›
  refine Keeps.ite ?_ ?_
  · exact keeps_State_store ‹_›
  refine Keeps.ite ?_ ?_
  · exact keeps_wrapUp (keeps_readDoorWrite ‹_›)
  assumption

theorem keeps_bar2Write {s0 s : State} (hk : Keeps s0 s) {off : Nat} {w : Word} :
    Keeps s0 (bar2Write off w s) := by
  unfold bar2Write
  extract_lets +onlyGivenNames v0
  clear_value v0
  extract_lets +onlyGivenNames v1
  clear_value v1
  refine Keeps.ite ?_ ?_
  · assumption
  refine Keeps.ite ?_ ?_
  · exact keeps_doorbell ‹_›
  refine Keeps.ite ?_ ?_
  · exact keeps_vselWrite ‹_›
  refine Keeps.ite ?_ ?_
  · exact keeps_doorWrite ‹_›
  assumption

theorem keeps_iteRead {s0 s : State} (hk : Keeps s0 s) (a : Nat) : Keeps s0 (if (regAt a).isSome then regRead a s else (0#32, s)).2 :=
  Keeps.iteSnd (keeps_regRead hk) (Keeps.pair hk)

theorem Keeps.numeral {s : State} {F : Nat → Word × State} (h : ∀ a, Keeps s (F a).2) (v : Nat) : Keeps s (F v).2 := h v

theorem keeps_bar0Read {s0 s : State} (hk : Keeps s0 s) {off : Nat} : Keeps s0 (bar0Read off s).2 := by
  unfold bar0Read
  refine Keeps.iteSnd (Keeps.pair hk) (Keeps.iteSnd (Keeps.pair hk) (Keeps.iteSnd (Keeps.pair hk) (Keeps.iteSnd (Keeps.pair hk)
    (Keeps.iteSnd ?_ (keeps_iteRead hk _)))))
  exact Keeps.numeral (F := fun a => if (regAt a).isSome then regRead a s else (0#32, s)) (keeps_iteRead hk) (off - 0xC000 + 0x400F1000)

end Sys2Proof.Laws
end

