-- ==== Sys2Proof/Laws/KeepsSerge.lean ====
section
/-!
SUPPORT. What every operation of Machine/Serge.lean keeps (`Keeps`, Laws/Keeps.lean).
-/

namespace Sys2Proof.Laws

open Sys2Proof.Machine

theorem keeps_retire {s0 s : State} (hk : Keeps s0 s) {pc : Word} {cost : Nat} :
    Keeps s0 (retire pc cost s) := by
  unfold retire
  refine keeps_State_fresh ?_
  refine Keeps.onSergeSame ?_ (fun _ => rfl) (fun _ => rfl) (fun _ => rfl) (fun _ => rfl)
  assumption

theorem keeps_takeNmi {s0 s : State} (hk : Keeps s0 s) :
    Keeps s0 (takeNmi s) := by
  unfold takeNmi
  extract_lets +onlyGivenNames v0
  clear_value v0
  refine Keeps.onSergeSame ?_ (fun _ => rfl) (fun _ => rfl) (fun _ => rfl) (fun _ => rfl)
  exact keeps_State_wr ‹_›

theorem keeps_doubleFault {s0 s : State} (hk : Keeps s0 s) {cause : Nat} :
    Keeps s0 (doubleFault cause s) := by
  unfold doubleFault
  extract_lets +onlyGivenNames v0
  clear_value v0
  extract_lets +onlyGivenNames v1
  refine cut (P := Keeps s0 v1) ?_ fun k2 => ?_
  · unfold v1
    refine Keeps.onSergeEmpty ?_ (fun _ => rfl) (fun _ => rfl) (fun _ => rfl) (fun _ => rfl)
    assumption
  clear_value v1
  extract_lets +onlyGivenNames v3
  refine cut (P := Keeps s0 v3) ?_ fun k4 => ?_
  · unfold v3
    exact keeps_State_wr (keeps_State_wr ‹_›)
  clear_value v3
  exact keeps_assertReset (keeps_setSticky ‹_›)

theorem keeps_takeTrap {s0 s : State} (hk : Keeps s0 s) {cause : Nat} {eval : Word} :
    Keeps s0 (takeTrap cause eval s) := by
  unfold takeTrap
  refine Keeps.ite ?_ ?_
  · exact keeps_doubleFault ‹_›
  refine Keeps.onSergeSame ?_ (fun _ => rfl) (fun _ => rfl) (fun _ => rfl) (fun _ => rfl)
  assumption

theorem keeps_storeErr {s0 s : State} (hk : Keeps s0 s) {kind : Nat} {addr : Nat} :
    Keeps s0 (storeErr kind addr s) := by
  unfold storeErr
  extract_lets +onlyGivenNames v0
  refine cut (P := Keeps s0 v0) ?_ fun k1 => ?_
  · unfold v0
    exact keeps_State_setFld (keeps_State_wr ‹_›)
  clear_value v0
  extract_lets +onlyGivenNames v2
  refine cut (P := Keeps s0 v2) ?_ fun k3 => ?_
  · unfold v2
    refine Keeps.ite ?_ ?_
    · assumption
    refine Keeps.onSergeSame ?_ (fun _ => rfl) (fun _ => rfl) (fun _ => rfl) (fun _ => rfl)
    exact keeps_State_setFlag ‹_›
  clear_value v2
  exact keeps_State_incFld ‹_›

theorem keeps_performStore {s0 s : State} (hk : Keeps s0 s) {e : StoreEnt} :
    Keeps s0 (performStore e s) := by
  unfold performStore
  refine Keeps.ite ?_ ?_
  · refine Keeps.ite ?_ ?_
    · exact keeps_State_hostStore ‹_›
    exact keeps_storeErr ‹_›
  exact keeps_State_store ‹_›

theorem keeps_drainOne {s0 s : State} (hk : Keeps s0 s) : Keeps s0 (drainOne s) := by
  unfold drainOne
  split
  · exact hk
  · rename_i e q h
    exact keeps_performStore (Keeps.onSerge hk (buf_tail h))

theorem keeps_drainAll {s0 s : State} (hk : Keeps s0 s) :
    Keeps s0 (drainAll s) := by
  unfold drainAll
  exact keeps_drainOne (keeps_drainOne (keeps_drainOne (keeps_drainOne ‹_›)))

theorem keeps_spillMem {s0 s : State} (hk : Keeps s0 s) {a : Nat} :
    Keeps s0 (spillMem a s) := by
  unfold spillMem
  extract_lets +onlyGivenNames v0
  refine cut (P := Keeps s0 v0) ?_ fun k1 => ?_
  · unfold v0
    exact keeps_State_store ‹_›
  clear_value v0
  extract_lets +onlyGivenNames v2
  refine cut (P := Keeps s0 v2) ?_ fun k3 => ?_
  · unfold v2
    exact keeps_State_addSat (keeps_State_wr ‹_›)
  clear_value v2
  refine Keeps.ite ?_ ?_
  · exact keeps_State_wr ‹_›
  assumption

theorem keeps_takeStoreErr {s0 s : State} (hk : Keeps s0 s) :
    Keeps s0 (takeStoreErr s) := by
  unfold takeStoreErr
  extract_lets +onlyGivenNames v0
  clear_value v0
  refine Keeps.onSergeSame ?_ (fun _ => rfl) (fun _ => rfl) (fun _ => rfl) (fun _ => rfl)
  assumption

theorem keeps_takeIrq {s0 s : State} (hk : Keeps s0 s) {n : Nat} {p : Nat} :
    Keeps s0 (takeIrq n p s) := by
  unfold takeIrq
  refine Keeps.onSergeSame ?_ (fun _ => rfl) (fun _ => rfl) (fun _ => rfl) (fun _ => rfl)
  exact keeps_pushLevel ‹_›

theorem keeps_State_setX {s0 s : State} (hk : Keeps s0 s) {r : BitVec 5} {w : Word} : Keeps s0 (State.setX r w s) :=
  hk.onSerge (setX_win _ _ _).core

theorem keeps_next {s0 s : State} (hk : Keeps s0 s) {cost : Nat} :
    Keeps s0 (next cost s) := by
  unfold next
  exact keeps_retire ‹_›

theorem keeps_srWrite {s0 s : State} (hk : Keeps s0 s) {n : Nat} {w : Word} : Keeps s0 (srWrite n w s) := by
  refine hk.onSerge (SameWin.core ?_)
  split <;> exact ⟨rfl, rfl, rfl, Nat.le_refl _⟩

theorem keeps_spillAccess {s0 s : State} (hk : Keeps s0 s) {kind : Access} {a : Nat} :
    ActKeeps s0 (spillAccess kind a s) := by
  unfold spillAccess
  refine ActKeeps.ite ?_ ?_
  · split
    · rename_i x0 x1 x2 e3
      refine cut (P := Keeps s0 x2) ?_ fun k4 => ?_
      · exact Keeps.snd e3 (keeps_transact ‹_›)
      exact ActKeeps.ok ‹_›
    rename_i x5 x6 e7
    refine cut (P := Keeps s0 x6) ?_ fun k8 => ?_
    · exact Keeps.snd e7 (keeps_transact ‹_›)
    exact ActKeeps.trap ‹_›
  exact ActKeeps.trap ‹_›

theorem spillAccess_serge {kind : Access} {a : Nat} {s t : State} {u : Unit} (h : spillAccess kind a s = .ok u t) :
    t.serge = s.serge := by
  unfold spillAccess at h
  split at h
  · split at h
    · rename_i x t1 e
      have hs := transact_serge 1 (coreTxn true kind a) s
      rw [e] at hs
      simp only [Act.ok.injEq] at h
      rw [← h.2]
      exact hs
    · simp at h
  · simp at h

theorem dropOldest_core {c : Serge} (h2 : 2 ≤ c.count) (w : Core.wf c = true) : Core.wf (dropOldest c) = true := by
  simp only [Core.wf, decide_eq_true_eq] at w ⊢
  show c.cwp < 15 ∧ (c.oldest + 1) % 15 < 15 ∧ 1 ≤ c.count - 1 ∧ c.count - 1 ≤ 14 ∧
    ((c.oldest + 1) % 15 + (c.count - 1)) % 15 = (c.cwp + 1) % 15 ∧ c.buf.length ≤ 4
  have ho : (c.oldest + 1) % 15 = c.oldest + 1 ∨ (c.oldest + 1) % 15 = 0 ∧ c.oldest = 14 := by omega
  rcases ho with ho | ⟨ho, ho'⟩
  · rw [ho, show c.oldest + 1 + (c.count - 1) = c.oldest + c.count by omega]
    omega
  · rw [ho]
    rw [ho', show 14 + c.count = 15 + (c.count - 1) by omega, Nat.add_mod_left] at w
    omega

/-- What a spill leads to: the state with one frame less from the oldest end. -/
def SpillKeeps (s : State) : Act Unit → Prop
  | .ok _ t => ∃ u, Keeps s u ∧ u.serge.count = s.serge.count ∧ t = u.onSerge dropOldest
  | .trap _ _ t => Keeps s t
  | .noUnit t => Keeps s t

theorem spillMem_serge (a : Nat) (s : State) : (spillMem a s).serge = s.serge := by
  simp only [spillMem, apply_ite State.serge, wr_serge, addSat_serge, store_serge, ite_self]

theorem spillOldest_keeps (limit : Nat) (s : State) : SpillKeeps s (spillOldest limit s) := by
  unfold spillOldest
  extract_lets a
  clear_value a
  by_cases h0 : a < limit
  · rw [if_pos h0]; exact Keeps.refl s
  · rw [if_neg h0]
    have ka : ActKeeps s (spillAccess .write a (drainAll s)) := keeps_spillAccess (keeps_drainAll (Keeps.refl s))
    have kf : ∀ t, Keeps s t → Keeps s (if inCore a 64 then (t.store a (freeBytes t.freeCtr 64)).fresh else t) :=
      fun t kt => Keeps.ite (keeps_State_fresh (keeps_State_store kt)) kt
    cases e : spillAccess .write a (drainAll s) with
    | trap c v t =>
      rw [e] at ka
      exact kf t ka
    | noUnit t => rw [e] at ka; exact ka
    | ok x t =>
      rw [e] at ka
      have kt : Keeps s t := ka
      have hw : t.serge = (drainAll s).serge := spillAccess_serge e
      exact ⟨spillMem a t, keeps_spillMem kt, by rw [spillMem_serge, hw]; exact (drainAll_win s).2.2.1, rfl⟩

theorem keeps_spillOldest {s0 s : State} (hk : Keeps s0 s) (h2 : 2 ≤ s.serge.count) {limit : Nat} :
    ActKeeps s0 (spillOldest limit s) := by
  have h := spillOldest_keeps limit s
  cases e : spillOldest limit s with
  | trap c v t => rw [e] at h; exact hk.trans h
  | noUnit t => rw [e] at h; exact hk.trans h
  | ok x t =>
    rw [e] at h
    obtain ⟨u, ku, hc, rfl⟩ := h
    exact Keeps.onSerge (hk.trans ku) (dropOldest_core (by omega))

/-- A spill that goes through takes one frame. -/
theorem spillOldest_count {limit : Nat} {s t : State} {u : Unit} (h : spillOldest limit s = .ok u t) :
    t.serge.count = s.serge.count - 1 := by
  have k := spillOldest_keeps limit s
  rw [h] at k
  obtain ⟨u, ku, hc, rfl⟩ := k
  show u.serge.count - 1 = _
  rw [hc]

/-- The rotation to a new window, when a frame is free. -/
theorem enter_core {c : Serge} (w : Core.wf c = true) (h : c.count ≤ 13) (d : Serge) (h1 : d.cwp = (c.cwp + 1) % 15)
    (h2 : d.oldest = c.oldest) (h3 : d.count = c.count + 1) (h4 : d.buf = c.buf) : Core.wf d = true := by
  simp only [Core.wf, decide_eq_true_eq] at w ⊢
  rw [h1, h2, h3, h4]
  omega

theorem keeps_enterOp {s0 s : State} (hk : Keeps s0 s) {f : Word} {limit : Nat} : ActKeeps s0 (enterOp f limit s) := by
  refine (?_ : ActKeeps s (enterOp f limit s) → _) ?_
  · intro h
    cases e : enterOp f limit s with
    | ok a t => rw [e] at h; exact hk.trans h
    | trap c v t => rw [e] at h; exact hk.trans h
    | noUnit t => rw [e] at h; exact hk.trans h
  unfold enterOp
  dsimp only
  by_cases h14 : s.serge.count = 14
  · rw [if_pos h14]
    have ks := keeps_spillOldest (.refl s) (by omega : 2 ≤ s.serge.count) (limit := limit)
    cases e : spillOldest limit s with
    | ok u t =>
      rw [e] at ks
      have hc := spillOldest_count e
      exact Keeps.onSerge (ks : Keeps s t) fun w => enter_core w (by omega) _ rfl rfl rfl rfl
    | trap c v t => rw [e] at ks; exact ks
    | noUnit t => rw [e] at ks; exact ks
  · rw [if_neg h14]
    refine Keeps.onSerge (.refl s) fun w => enter_core w ?_ _ rfl rfl rfl rfl
    simp only [Core.wf, decide_eq_true_eq] at w
    omega

theorem keeps_bufferStore {s0 s : State} (hk : Keeps s0 s) {e : StoreEnt} : Keeps s0 (bufferStore e s) := by
  refine hk.trans ?_
  have kv : Keeps s (if 4 ≤ s.serge.buf.length then drainOne s else s) := Keeps.ite (keeps_drainOne (.refl s)) (.refl s)
  refine ⟨kv.pending, kv.now, kv.mem, fun w => ?_, kv.fuse⟩
  have w' := kv.core w
  have hl : (if 4 ≤ s.serge.buf.length then drainOne s else s).serge.buf.length ≤ 3 := by
    split
    · exact drainOne_length s (by simp only [Core.wf, decide_eq_true_eq] at w; exact w.2.2.2.2.2)
    · omega
  simp only [Core.wf, decide_eq_true_eq] at w' ⊢
  refine ⟨w'.1, w'.2.1, w'.2.2.1, w'.2.2.2.1, w'.2.2.2.2.1, ?_⟩
  show (_ ++ [e]).length ≤ 4
  simp only [List.length_append, List.length_singleton]
  omega

theorem keeps_noteEcc {s0 s : State} (hk : Keeps s0 s) {e : Ecc} {a : Nat} :
    Keeps s0 (noteEcc e a s) := by
  unfold noteEcc
  split
  · rename_i x0
    assumption
  · rename_i x1
    refine Keeps.ite ?_ ?_
    · exact keeps_State_addSat ‹_›
    refine Keeps.ite ?_ ?_
    · exact keeps_State_addSat ‹_›
    assumption
  rename_i x2
  refine Keeps.ite ?_ ?_
  · exact keeps_State_addSat ‹_›
  refine Keeps.ite ?_ ?_
  · exact keeps_State_addSat ‹_›
  assumption

theorem keeps_readTarget {s0 s : State} (hk : Keeps s0 s) {a : Nat} {n : Nat} {env : CoreEnv} :
    ActKeeps s0 (readTarget a n env s) := by
  unfold readTarget
  extract_lets +onlyGivenNames v0
  clear_value v0
  refine ActKeeps.ite ?_ ?_
  · refine ActKeeps.ok ?_
    refine Keeps.ite ?_ ?_
    · exact keeps_State_fresh ‹_›
    assumption
  refine ActKeeps.ite ?_ ?_
  · split
    · rename_i x1 e2
      exact ActKeeps.trap (keeps_noteEcc ‹_›)
    rename_i x3 e4
    exact ActKeeps.ok (keeps_State_fresh (keeps_noteEcc ‹_›))
  refine ActKeeps.ite ?_ ?_
  · exact ActKeeps.ok ‹_›
  refine ActKeeps.ite ?_ ?_
  · exact ActKeeps.ok ‹_›
  refine ActKeeps.ite ?_ ?_
  · exact ActKeeps.noUnit ‹_›
  refine ActKeeps.ite ?_ ?_
  · refine ActKeeps.ite ?_ ?_
    · exact ActKeeps.trap ‹_›
    split
    rename_i x5 x6 x7 e8
    refine cut (P := Keeps s0 x7) ?_ fun k9 => ?_
    · exact Keeps.snd e8 (keeps_regRead ‹_›)
    exact ActKeeps.ok ‹_›
  refine ActKeeps.ite ?_ ?_
  · exact ActKeeps.ok ‹_›
  refine ActKeeps.ite ?_ ?_
  · split
    · rename_i x10 x11 e12
      refine ActKeeps.ite ?_ ?_
      · exact ActKeeps.ok ‹_›
      exact ActKeeps.trap ‹_›
    rename_i x13 e14
    exact ActKeeps.trap ‹_›
  exact ActKeeps.ok ‹_›

theorem keeps_request {s0 s : State} (hk : Keeps s0 s) {kinds : List Access} {a n : Nat} : ActKeeps s0 (request kinds a n s) := by
  unfold request
  dsimp only
  refine ActKeeps.ite hk (ActKeeps.ite (ActKeeps.ite hk (ActKeeps.ite hk hk)) ?_)
  split
  · exact hk
  · rename_i x k1 at1 e1
    have h : ActKeeps s0 (Act.ok (({} : Attr)) s) := hk
    revert h
    generalize (Act.ok (({} : Attr)) s) = r
    intro h
    induction kinds generalizing r with
    | nil => exact h
    | cons kind l ih =>
      refine ih _ (ActKeeps.bind h fun _ t kt => ?_)
      split
      · rename_i attr s1 e2; exact Keeps.snd e2 (keeps_transact kt)
      · rename_i s1 e2; exact Keeps.snd e2 (keeps_transact kt)

theorem keeps_loadAt {s0 s : State} (hk : Keeps s0 s) {a : Nat} {n : Nat} {env : CoreEnv} :
    ActKeeps s0 (loadAt a n env s) := by
  unfold loadAt
  refine ActKeeps.bind ?_ fun x1 t0 k2 => ?_
  · exact keeps_request ‹_›
  refine keeps_readTarget ?_
  refine Keeps.ite ?_ ?_
  · exact keeps_drainAll ‹_›
  assumption

theorem keeps_storeFailure {s0 s : State} (hk : Keeps s0 s) : Keeps s0 (storeFailure s) := by
  unfold storeFailure
  split
  · exact hk
  · rename_i e q h
    dsimp only
    refine Keeps.ite hk (keeps_storeErr (Keeps.onSerge hk (buf_tail h)))

theorem fillWords_win (v : Nat) (l : List Word) (c : Serge) : SameWin c (fillWords v l c) := by
  unfold fillWords
  generalize l.zipIdx = z
  induction z generalizing c with
  | nil => exact .refl c
  | cons p z ih => exact SameWin.trans (setFile_win ..) (ih _)

/-- What a fill leads to: the frame below the current window is the oldest, and the caller makes it the current one. -/
def FillKeeps (s : State) : Act Unit → Prop
  | .ok _ t => ∃ u l, Keeps s u ∧ SameWin s.serge u.serge ∧ t = u.onSerge (takeFrame l)
  | .trap _ _ t => Keeps s t
  | .noUnit t => Keeps s t

theorem fillBelow_keeps (env : CoreEnv) (s : State) : FillKeeps s (fillBelow env s) := by
  unfold fillBelow
  extract_lets a
  by_cases h0 : (s.rd rSPILL_WSB).toNat < add32 a 64
  · rw [if_pos h0]; exact Keeps.refl s
  · rw [if_neg h0]
    have ka : ActKeeps s (spillAccess .read a (drainAll s)) := keeps_spillAccess (keeps_drainAll (Keeps.refl s))
    cases e : spillAccess .read a (drainAll s) with
    | trap c v t1 => rw [e] at ka; exact ka
    | noUnit t1 => rw [e] at ka; exact ka
    | ok x t1 =>
      rw [e] at ka
      have hn : (noteEcc env.data a t1).serge = (drainAll s).serge := by rw [noteEcc_serge]; exact spillAccess_serge e
      have hd : SameWin s.serge (noteEcc env.data a t1).serge := by rw [hn]; exact drainAll_win s
      have k2 : Keeps s (noteEcc env.data a t1) := keeps_noteEcc ka
      unfold Act.bind
      by_cases h1 : env.data = .uncorrectable
      · simp only [if_pos h1]; exact k2
      · simp only [if_neg h1]
        exact ⟨_, _, keeps_State_addSat (keeps_State_wr k2), hd, rfl⟩

theorem leave_core {c u : Serge} (w : Core.wf u = true) (h : SameWin c u) (h1 : c.count = 1) (l : List Word) (x : Serge → Word) :
    Core.wf { (takeFrame l u).setFile 7 (x (takeFrame l u)) with cwp := ((takeFrame l u).cwp + 14) % 15 } = true := by
  have e1 : (takeFrame l u).cwp = u.cwp := (fillWords_win _ l u).1
  have e3 : (takeFrame l u).count = u.count := (fillWords_win _ l u).2.2.1
  have e4 : (takeFrame l u).buf.length ≤ u.buf.length := (fillWords_win _ l u).2.2.2
  simp only [Core.wf, decide_eq_true_eq] at w ⊢
  show ((takeFrame l u).cwp + 14) % 15 < 15 ∧ (u.cwp + 14) % 15 < 15 ∧ 1 ≤ (takeFrame l u).count ∧ (takeFrame l u).count ≤ 14 ∧
    ((u.cwp + 14) % 15 + (takeFrame l u).count) % 15 = (((takeFrame l u).cwp + 14) % 15 + 1) % 15 ∧ (takeFrame l u).buf.length ≤ 4
  have := h.2.2.1
  rw [e1, e3]
  omega

theorem keeps_leaveOp {s0 s : State} (hk : Keeps s0 s) {env : CoreEnv} : ActKeeps s0 (leaveOp env s) := by
  refine (?_ : ActKeeps s (leaveOp env s) → _) ?_
  · intro h
    cases e : leaveOp env s with
    | ok a t => rw [e] at h; exact hk.trans h
    | trap c v t => rw [e] at h; exact hk.trans h
    | noUnit t => rw [e] at h; exact hk.trans h
  unfold leaveOp
  dsimp only
  by_cases h1 : s.serge.count = 1
  · rw [if_pos h1]
    have hf := fillBelow_keeps env s
    cases e : fillBelow env s with
    | trap c v t => rw [e] at hf; exact hf
    | noUnit t => rw [e] at hf; exact hf
    | ok x t =>
      rw [e] at hf
      obtain ⟨u, l, ku, hw, rfl⟩ := hf
      exact ku.trans ⟨rfl, Nat.le_refl _, id, fun w => leave_core w hw h1 l (fun c => c.file (16 * c.cwp + 15)), Fuse_grows_refl _⟩
  · rw [if_neg h1]
    refine Keeps.onSerge (s := s) (t := s) (.refl s) (g := fun c =>
      { { c with count := c.count - 1 }.setFile 7 (c.file (16 * c.cwp + 15)) with cwp := (c.cwp + 14) % 15 }) fun w => ?_
    simp only [Core.wf, decide_eq_true_eq] at w ⊢
    show (s.serge.cwp + 14) % 15 < 15 ∧ s.serge.oldest < 15 ∧ 1 ≤ s.serge.count - 1 ∧ s.serge.count - 1 ≤ 14 ∧
      (s.serge.oldest + (s.serge.count - 1)) % 15 = ((s.serge.cwp + 14) % 15 + 1) % 15 ∧ s.serge.buf.length ≤ 4
    omega

theorem keeps_writeTarget {s0 s : State} (hk : Keeps s0 s) {a : Nat} {n : Nat} {w : Word} {attr : Attr} {env : CoreEnv} :
    ActKeeps s0 (writeTarget a n w attr env s) := by
  unfold writeTarget
  extract_lets +onlyGivenNames v0
  clear_value v0
  refine ActKeeps.ite ?_ ?_
  · exact ActKeeps.ok (keeps_coreWrite (keeps_drainAll ‹_›))
  refine ActKeeps.ite ?_ ?_
  · extract_lets +onlyGivenNames v1
    clear_value v1
    refine ActKeeps.ite ?_ ?_
    · exact ActKeeps.ok (keeps_bufferStore ‹_›)
    refine ActKeeps.ite ?_ ?_
    · exact ActKeeps.ok (keeps_storeErr (keeps_noteEcc (keeps_drainAll ‹_›)))
    exact ActKeeps.ok (keeps_performStore (keeps_drainAll ‹_›))
  refine ActKeeps.ite ?_ ?_
  · extract_lets +onlyGivenNames v2
    clear_value v2
    refine ActKeeps.ite ?_ ?_
    · exact ActKeeps.ok (keeps_bufferStore ‹_›)
    refine ActKeeps.ite ?_ ?_
    · exact ActKeeps.ok (keeps_performStore (keeps_drainAll ‹_›))
    exact ActKeeps.trap (keeps_drainAll ‹_›)
  refine ActKeeps.ite ?_ ?_
  · exact ActKeeps.noUnit ‹_›
  refine ActKeeps.ite ?_ ?_
  · refine ActKeeps.ite ?_ ?_
    · exact ActKeeps.trap ‹_›
    exact ActKeeps.ok (keeps_regWrite (keeps_drainAll ‹_›))
  exact ActKeeps.trap ‹_›

theorem keeps_storeAt {s0 s : State} (hk : Keeps s0 s) {a : Nat} {n : Nat} {w : Word} {env : CoreEnv} :
    ActKeeps s0 (storeAt a n w env s) := by
  unfold storeAt
  refine ActKeeps.bind ?_ fun x1 t0 k2 => ?_
  · exact keeps_request ‹_›
  exact keeps_writeTarget ‹_›

theorem keeps_srRead {s0 s : State} (hk : Keeps s0 s) {n : Nat} :
    Keeps s0 (srRead n s).2 := by
  unfold srRead
  extract_lets +onlyGivenNames v0
  clear_value v0
  extract_lets +onlyGivenNames v1
  extract_lets +onlyGivenNames v2
  split
  · rename_i x3
    exact Keeps.pair ‹_›
  · rename_i x4
    exact Keeps.pair ‹_›
  · rename_i x5
    exact Keeps.pair ‹_›
  · rename_i x6
    exact Keeps.pair ‹_›
  · rename_i x7
    exact Keeps.pair ‹_›
  · rename_i x8
    exact Keeps.pair ‹_›
  · rename_i x9
    exact Keeps.pair ‹_›
  · rename_i x10
    unfold v1
    exact Keeps.pair (keeps_latch ‹_›)
  · rename_i x11
    unfold v2
    split
    · rename_i x12 x13 e14
      exact Keeps.pair (Keeps.mkSame ‹_›)
    rename_i x15 e16
    exact Keeps.pair ‹_›
  · rename_i x17
    unfold v1
    exact Keeps.pair (keeps_latch ‹_›)
  · rename_i x18
    unfold v2
    split
    · rename_i x19 x20 e21
      exact Keeps.pair (Keeps.mkSame ‹_›)
    rename_i x22 e23
    exact Keeps.pair ‹_›
  rename_i x24 e25 e26 e27 e28 e29 e30 e31 e32 e33 e34 e35
  exact Keeps.pair ‹_›

theorem keeps_fetchCheck {s0 s : State} (hk : Keeps s0 s) {env : CoreEnv} :
    ActKeeps s0 (fetchCheck env s) := by
  unfold fetchCheck
  extract_lets +onlyGivenNames v0
  clear_value v0
  split
  · rename_i x1 e2
    exact ActKeeps.trap ‹_›
  rename_i x3 x4 x5 e6
  split
  · rename_i x7 x8 e9
    refine cut (P := Keeps s0 x8) ?_ fun k10 => ?_
    · exact Keeps.snd e9 (keeps_transact ‹_›)
    exact ActKeeps.trap ‹_›
  rename_i x11 x12 x13 e14
  refine cut (P := Keeps s0 x13) ?_ fun k15 => ?_
  · exact Keeps.snd e14 (keeps_transact ‹_›)
  extract_lets +onlyGivenNames v16
  refine cut (P := Keeps s0 v16) ?_ fun k17 => ?_
  · unfold v16
    exact keeps_noteEcc ‹_›
  clear_value v16
  refine ActKeeps.ite ?_ ?_
  · exact ActKeeps.trap ‹_›
  exact ActKeeps.ok ‹_›

theorem keeps_flushOp {s0 s : State} (hk : Keeps s0 s) {limit n j : Nat} : ActKeeps s0 (flushOp limit n j s) := by
  induction n generalizing s j with
  | zero => exact hk
  | succ n ih =>
    unfold flushOp
    split
    · exact hk
    · exact ActKeeps.bind (keeps_spillOldest hk (by omega)) fun _ t kt => ih kt

theorem keeps_atomicAt {s0 s : State} (hk : Keeps s0 s) {a : Nat} {g : Word → Option Word} {env : CoreEnv} :
    ActKeeps s0 (atomicAt a g env s) := by
  unfold atomicAt
  refine ActKeeps.bind ?_ fun x1 t0 k2 => ?_
  · exact keeps_request ‹_›
  refine ActKeeps.ite ?_ ?_
  · refine ActKeeps.bind ?_ fun x4 t3 k5 => ?_
    · exact keeps_readTarget (keeps_drainAll ‹_›)
    split
    · rename_i x6 x7 e8
      exact ActKeeps.ok (keeps_State_store ‹_›)
    rename_i x9 e10
    exact ActKeeps.ok ‹_›
  exact ActKeeps.trap ‹_›

end Sys2Proof.Laws
end

