-- ==== Sys2Proof/Laws/KeepsEvents.lean ====
section
/-!
SUPPORT. What every operation of Machine/Events.lean keeps (`Keeps`, Laws/Keeps.lean).
-/

namespace Sys2Proof.Laws

open Sys2Proof.Machine

theorem keeps_fuseCommand {s0 s : State} (hk : Keeps s0 s) {op : Nat} {addr : Nat} {data : Word} {temp : Int} :
    Keeps s0 (fuseCommand op addr data temp s) := by
  unfold fuseCommand
  exact keeps_fuseStart (keeps_State_wr ‹_›)

theorem keeps_jobFails {s0 s : State} (hk : Keeps s0 s) {u : UnitId} {l : Nat} :
    Keeps s0 (jobFails u l s) := by
  unfold jobFails
  split
  · rename_i x0 e1
    assumption
  rename_i x2 x3 e4
  exact keeps_endJob (keeps_dropJob (keeps_State_addSat ‹_›))

theorem keeps_firstPassRow {s0 s : State} (hk : Keeps s0 s) {id : Nat} :
    Keeps s0 (firstPassRow id s) := by
  unfold firstPassRow
  refine Keeps.ite ?_ ?_
  · exact keeps_rdFirstPass ‹_›
  exact keeps_expFirstPass ‹_›

theorem keeps_interruptRow {s0 s : State} (hk : Keeps s0 s) :
    Keeps s0 (interruptRow s) := by
  unfold interruptRow
  refine Keeps.ite ?_ ?_
  · assumption
  split
  · rename_i x0 x1 x2 e3
    exact keeps_takeIrq ‹_›
  rename_i x4 e5
  assumption

theorem keeps_linkLossRow {s0 s : State} (hk : Keeps s0 s) {c : LinkCause} :
    Keeps s0 (linkLossRow c s) := by
  unfold linkLossRow
  split
  · rename_i x0
    exact keeps_perstLow ‹_›
  · rename_i x1
    exact keeps_linkDown ‹_›
  · rename_i x2
    exact keeps_linkDown ‹_›
  · rename_i x3
    exact keeps_flrStart ‹_›
  · rename_i x4
    exact keeps_d3Enter ‹_›
  rename_i x5
  exact keeps_bmeWrite ‹_›

theorem keeps_challengeRow {s0 s : State} (hk : Keeps s0 s) :
    Keeps s0 (challengeRow s) := by
  unfold challengeRow
  exact keeps_debugChallenge ‹_›

theorem keeps_nmiRow {s0 s : State} (hk : Keeps s0 s) :
    Keeps s0 (nmiRow s) := by
  unfold nmiRow
  refine Keeps.ite ?_ ?_
  · exact keeps_takeNmi ‹_›
  assumption

theorem keeps_linkUpRow {s0 s : State} (hk : Keeps s0 s) {speed : Nat} {width : Nat} {bme : Bool} {msixEn : Bool} :
    Keeps s0 (linkUpRow speed width bme msixEn s) := by
  unfold linkUpRow
  extract_lets +onlyGivenNames v0
  refine cut (P := Keeps s0 v0) ?_ fun k1 => ?_
  · unfold v0
    exact keeps_linkUp ‹_›
  clear_value v0
  exact keeps_bmeWrite (keeps_State_onPcie ‹_›)

theorem keeps_encryptRead {s0 s : State} (hk : Keeps s0 s) {jsn : Nat} {ue : Option Word} :
    Keeps s0 (encryptRead jsn ue s) := by
  unfold encryptRead
  split
  · rename_i x0
    exact keeps_stripeEncrypt ‹_›
  rename_i x1 x2
  exact keeps_stripeEncrypt (keeps_setSticky (keeps_State_addSat ‹_›))

theorem keeps_scrub {s0 s : State} (hk : Keeps s0 s) {core : Nat} {stripe : Nat} :
    Keeps s0 (scrub core stripe s) := by
  unfold scrub
  exact keeps_State_addSat (keeps_State_addSat ‹_›)

theorem keeps_lockstepMismatch {s0 s : State} (hk : Keeps s0 s) {parity : Bool} :
    Keeps s0 (lockstepMismatch parity s) := by
  unfold lockstepMismatch
  extract_lets +onlyGivenNames v0
  refine cut (P := Keeps s0 v0) ?_ fun k1 => ?_
  · unfold v0
    exact keeps_setSticky ‹_›
  clear_value v0
  extract_lets +onlyGivenNames v2
  refine cut (P := Keeps s0 v2) ?_ fun k3 => ?_
  · unfold v2
    refine Keeps.ite ?_ ?_
    · exact keeps_setSticky ‹_›
    assumption
  clear_value v2
  extract_lets +onlyGivenNames v4
  refine cut (P := Keeps s0 v4) ?_ fun k5 => ?_
  · unfold v4
    refine Keeps.ite ?_ ?_
    · assumption
    refine Keeps.onSergeEmpty ?_ (fun _ => rfl) (fun _ => rfl) (fun _ => rfl) (fun _ => rfl)
    assumption
  clear_value v4
  exact keeps_assertReset ‹_›

theorem keeps_storeErrRow {s0 s : State} (hk : Keeps s0 s) :
    Keeps s0 (storeErrRow s) := by
  unfold storeErrRow
  refine Keeps.ite ?_ ?_
  · exact keeps_takeStoreErr ‹_›
  assumption

theorem keeps_warmRow {s0 s : State} (hk : Keeps s0 s) :
    Keeps s0 (warmRow s) := by
  unfold warmRow
  refine Keeps.ite ?_ ?_
  · exact keeps_wrapUp (keeps_warmStart ‹_›)
  assumption

theorem keeps_popRow {s0 s : State} (hk : Keeps s0 s) {q : Option (Fin 2)} :
    Keeps s0 (popRow q s) := by
  unfold popRow
  split
  · rename_i x0 x1
    refine Keeps.ite ?_ ?_
    · assumption
    exact keeps_rxPop ‹_›
  rename_i x2
  refine Keeps.ite ?_ ?_
  · assumption
  exact keeps_notifyPop ‹_›

theorem keeps_procRow {s0 s : State} (hk : Keeps s0 s) {key : Nat} {princ : Nat} {d : Bytes} {env : ProcEnv} :
    Keeps s0 (procRow key princ d env s) := by
  unfold procRow
  exact keeps_wrapUp (keeps_runProc ‹_›)

theorem keeps_lockRegion {s0 s : State} (hk : Keeps s0 s) {k : Nat} {r : Nat} {w : Word} :
    Keeps s0 (lockRegion k r w s) := by
  unfold lockRegion
  exact keeps_wrChecker ‹_›

theorem keeps_jobEnds {s0 s : State} (hk : Keeps s0 s) {u : UnitId} {l : Nat} {ue : Bool} :
    Keeps s0 (jobEnds u l ue s) := by
  unfold jobEnds
  refine Keeps.ite ?_ ?_
  · exact keeps_jobFails ‹_›
  exact keeps_jobDone ‹_›

theorem keeps_timerEnable {s0 s : State} (hk : Keeps s0 s) {n : Nat} {w : Word} :
    Keeps s0 (timerEnable n w s) := by
  unfold timerEnable
  exact keeps_timerCtrl ‹_›

theorem keeps_pkJobDone {s0 s : State} (hk : Keeps s0 s) {c : PkCheck} :
    Keeps s0 (pkJobDone c s) := by
  unfold pkJobDone
  exact keeps_wrapUp (keeps_kwKeygenDone (keeps_pkDone ‹_›))

end Sys2Proof.Laws
end

