-- ==== Sys2Proof/Laws/KeepsInstructions.lean ====
section
/-!
SUPPORT. What every operation of Machine/Instructions.lean keeps (`Keeps`, Laws/Keeps.lean).
-/

namespace Sys2Proof.Laws

open Sys2Proof.Machine

theorem keeps_jumpOp {s0 s : State} (hk : Keeps s0 s) {off : BitVec 20} :
    ActKeeps s0 (jumpOp off s) := by
  unfold jumpOp
  exact ActKeeps.ok (keeps_retire ‹_›)

theorem keeps_illegal {s0 s : State} (hk : Keeps s0 s) {w : Word} :
    ActKeeps s0 (illegal w s) := by
  unfold illegal
  exact ActKeeps.trap ‹_›

theorem keeps_jalrOp {s0 s : State} (hk : Keeps s0 s) {rd : BitVec 5} {rs1 : BitVec 5} {imm : BitVec 14} :
    ActKeeps s0 (jalrOp rd rs1 imm s) := by
  unfold jalrOp
  exact ActKeeps.ok (keeps_retire (keeps_State_setX ‹_›))

theorem keeps_branchOp {s0 s : State} (hk : Keeps s0 s) {off : BitVec 14} {taken : State → Bool} :
    ActKeeps s0 (branchOp off taken s) := by
  unfold branchOp
  refine ActKeeps.ok ?_
  refine Keeps.ite ?_ ?_
  · exact keeps_retire ‹_›
  exact keeps_next ‹_›

theorem keeps_tdropInstr {s0 s : State} (hk : Keeps s0 s) {imm : BitVec 14} :
    ActKeeps s0 (tdropInstr imm s) := by
  unfold tdropInstr
  refine ActKeeps.ite ?_ ?_
  · exact keeps_illegal ‹_›
  refine ActKeeps.bind ?_ fun x1 t0 k2 => ?_
  · exact keeps_enterOp ‹_›
  extract_lets +onlyGivenNames v3
  refine cut (P := Keeps s0 v3) ?_ fun k4 => ?_
  · unfold v3
    refine Keeps.onSergeSame ?_ (fun _ => rfl) (fun _ => rfl) (fun _ => rfl) (fun _ => rfl)
    assumption
  clear_value v3
  exact ActKeeps.ok (keeps_next ‹_›)

theorem keeps_movsInstr {s0 s : State} (hk : Keeps s0 s) {imm : BitVec 11} {rs1 : BitVec 5} :
    ActKeeps s0 (movsInstr imm rs1 s) := by
  unfold movsInstr
  refine ActKeeps.ite ?_ ?_
  · exact keeps_illegal ‹_›
  refine ActKeeps.ite ?_ ?_
  · exact ActKeeps.trap ‹_›
  exact ActKeeps.ok (keeps_next (keeps_srWrite ‹_›))

theorem keeps_trapInstr {s0 s : State} (hk : Keeps s0 s) {imm : BitVec 11} :
    ActKeeps s0 (trapInstr imm s) := by
  unfold trapInstr
  exact ActKeeps.trap ‹_›

theorem keeps_wfiInstr {s0 s : State} (hk : Keeps s0 s) :
    ActKeeps s0 (wfiInstr s) := by
  unfold wfiInstr
  refine ActKeeps.ite ?_ ?_
  · exact ActKeeps.trap ‹_›
  refine ActKeeps.ok (keeps_next ?_)
  refine Keeps.onSergeSame ?_ (fun _ => rfl) (fun _ => rfl) (fun _ => rfl) (fun _ => rfl)
  assumption

theorem keeps_leaveInstr {s0 s : State} (hk : Keeps s0 s) {env : CoreEnv} :
    ActKeeps s0 (leaveInstr env s) := by
  unfold leaveInstr
  refine ActKeeps.ite ?_ ?_
  · exact keeps_illegal ‹_›
  refine ActKeeps.bind ?_ fun x1 t0 k2 => ?_
  · exact keeps_leaveOp ‹_›
  exact ActKeeps.ok (keeps_next ‹_›)

theorem keeps_storeOp {s0 s : State} (hk : Keeps s0 s) {rd : BitVec 5} {rs1 : BitVec 5} {imm : BitVec 14} {n : Nat} {env : CoreEnv} :
    ActKeeps s0 (storeOp rd rs1 imm n env s) := by
  unfold storeOp
  refine ActKeeps.bind ?_ fun x1 t0 k2 => ?_
  · exact keeps_storeAt ‹_›
  exact ActKeeps.ok (keeps_next ‹_›)

theorem keeps_loadOp {s0 s : State} (hk : Keeps s0 s) {rd : BitVec 5} {rs1 : BitVec 5} {imm : BitVec 14} {n : Nat} {ext : Word → Word} {env : CoreEnv} :
    ActKeeps s0 (loadOp rd rs1 imm n ext env s) := by
  unfold loadOp
  extract_lets +onlyGivenNames v0
  clear_value v0
  refine ActKeeps.bind ?_ fun x2 t1 k3 => ?_
  · exact keeps_loadAt ‹_›
  exact ActKeeps.ok (keeps_next (keeps_State_setX ‹_›))

theorem keeps_callOp {s0 s : State} (hk : Keeps s0 s) {off : BitVec 20} :
    ActKeeps s0 (callOp off s) := by
  unfold callOp
  exact ActKeeps.ok (keeps_retire (keeps_State_setX ‹_›))

theorem keeps_tretInstr {s0 s : State} (hk : Keeps s0 s) :
    ActKeeps s0 (tretInstr s) := by
  unfold tretInstr
  refine ActKeeps.ite ?_ ?_
  · exact ActKeeps.trap ‹_›
  extract_lets +onlyGivenNames v0
  clear_value v0
  refine ActKeeps.ok (keeps_retire ?_)
  refine Keeps.onSergeSame ?_ (fun _ => rfl) (fun _ => rfl) (fun _ => rfl) (fun _ => rfl)
  assumption

theorem keeps_movgInstr {s0 s : State} (hk : Keeps s0 s) {rd : BitVec 5} {imm : BitVec 11} :
    ActKeeps s0 (movgInstr rd imm s) := by
  unfold movgInstr
  refine ActKeeps.ite ?_ ?_
  · exact keeps_illegal ‹_›
  refine ActKeeps.ite ?_ ?_
  · exact ActKeeps.trap ‹_›
  split
  rename_i x0 x1 x2 e3
  refine cut (P := Keeps s0 x2) ?_ fun k4 => ?_
  · exact Keeps.snd e3 (keeps_srRead ‹_›)
  exact ActKeeps.ok (keeps_next (keeps_State_setX ‹_›))

theorem keeps_atomicOp {s0 s : State} (hk : Keeps s0 s) {rd : BitVec 5} {addr : State → Nat} {g : State → Word → Option Word} {env : CoreEnv} :
    ActKeeps s0 (atomicOp rd addr g env s) := by
  unfold atomicOp
  refine ActKeeps.bind ?_ fun x1 t0 k2 => ?_
  · exact keeps_atomicAt ‹_›
  exact ActKeeps.ok (keeps_next (keeps_State_setX ‹_›))

theorem keeps_enterInstr {s0 s : State} (hk : Keeps s0 s) {imm : BitVec 14} :
    ActKeeps s0 (enterInstr imm s) := by
  unfold enterInstr
  refine ActKeeps.ite ?_ ?_
  · exact keeps_illegal ‹_›
  refine ActKeeps.bind ?_ fun x1 t0 k2 => ?_
  · exact keeps_enterOp ‹_›
  exact ActKeeps.ok (keeps_next ‹_›)

theorem keeps_wflushInstr {s0 s : State} (hk : Keeps s0 s) :
    ActKeeps s0 (wflushInstr s) := by
  unfold wflushInstr
  refine ActKeeps.ite ?_ ?_
  · exact keeps_illegal ‹_›
  refine ActKeeps.ite ?_ ?_
  · exact ActKeeps.trap ‹_›
  refine ActKeeps.bind ?_ fun x1 t0 k2 => ?_
  · exact keeps_flushOp ‹_›
  exact ActKeeps.ok (keeps_next ‹_›)

theorem keeps_fenceInstr {s0 s : State} (hk : Keeps s0 s) {imm : BitVec 11} :
    ActKeeps s0 (fenceInstr imm s) := by
  unfold fenceInstr
  refine ActKeeps.ite ?_ ?_
  · exact keeps_illegal ‹_›
  exact ActKeeps.ok (keeps_next (keeps_drainAll ‹_›))

theorem keeps_aluTimed {s0 s : State} (hk : Keeps s0 s) {rd : BitVec 5} {cost : State → Nat} {f : State → Word} :
    ActKeeps s0 (aluTimed rd cost f s) := by
  unfold aluTimed
  exact ActKeeps.ok (keeps_next (keeps_State_setX ‹_›))

theorem keeps_alu {s0 s : State} (hk : Keeps s0 s) {rd : BitVec 5} {cost : Nat} {f : State → Word} :
    ActKeeps s0 (alu rd cost f s) := by
  unfold alu
  exact keeps_aluTimed ‹_›

end Sys2Proof.Laws
end

