-- ==== Sys2Proof/Laws/KeepsExec.lean ====
section
/-!
SUPPORT. What every command keeps (`Keeps`), command by command, and what every step keeps.
-/

namespace Sys2Proof.Laws

open Sys2Proof.Machine

/-- A next state, where there is one, keeps what `Keeps` says. -/
def NextKeeps (s : State) (o : Host.Outcome State Fault Refusal) : Prop := ∀ t, o = .next t → Keeps s t

theorem NextKeeps.next {s t : State} (h : Keeps s t) : NextKeeps s (.next t) := by
  intro u e; cases e; exact h

theorem NextKeeps.fault (s : State) (f : Fault) : NextKeeps s (.fault f) := by intro u e; cases e

theorem NextKeeps.refused (s : State) (r : Refusal) : NextKeeps s (.refused r) := by intro u e; cases e

theorem NextKeeps.ite {s : State} {c : Prop} [Decidable c] {a b : Host.Outcome State Fault Refusal} (ha : NextKeeps s a)
    (hb : NextKeeps s b) : NextKeeps s (if c then a else b) := by split <;> assumption

theorem nextKeeps_always {t : Nat} {g : State → State} {s : State} (hg : ∀ {u}, Keeps s u → Keeps s (g u)) :
    NextKeeps s (always t g s) := .next (hg (keeps_State_at (.refl s)))

theorem nextKeeps_onUnits {t : Nat} {l : List (Nat × Nat)} {g : State → State} {s : State}
    (hg : ∀ {u}, Keeps s u → Keeps s (g u)) : NextKeeps s (onUnits t l g s) := by
  have ka := keeps_State_at (.refl s) (n := t)
  exact .ite (.next ka) (.ite (.fault s _) (.next (hg ka)))

theorem nextKeeps_outcome {s : State} {r : Act Unit} (h : ActKeeps s r) : NextKeeps s r.outcome := by
  cases r with
  | ok a t => exact .next h
  | trap c e t => exact .next (keeps_takeTrap h)
  | noUnit t => exact .refused s _

theorem keeps_boundaryTrap {s0 s t : State} (hk : Keeps s0 s) (h : boundaryTrap s = some t) : Keeps s0 t := by
  unfold boundaryTrap at h
  split at h
  · cases h; exact keeps_takeNmi hk
  · split at h
    · cases h; exact keeps_takeStoreErr hk
    · split at h
      · cases h; exact keeps_takeIrq hk
      · cases h

theorem nextKeeps_issue {env : CoreEnv} {g : State → Act Unit} {s : State} (hg : ∀ {u}, Keeps s u → ActKeeps s (g u)) :
    NextKeeps s (issue env g s) := by
  have ka := keeps_State_at (.refl s) (n := env.t)
  unfold issue
  extract_lets a
  refine .ite (.next ka) ?_
  split
  · rename_i t e; exact .next (keeps_boundaryTrap ka e)
  · have kb : Keeps s ((s.at env.t).onSerge (fun c => { c with waiting := false })) :=
      Keeps.onSergeSame ka (fun _ => rfl) (fun _ => rfl) (fun _ => rfl) (fun _ => rfl)
    exact nextKeeps_outcome (ActKeeps.bind (keeps_fetchCheck kb) fun _ _ k => hg k)

theorem keeps_execRefFrameStart {t : Nat} {lf : LaneFails} {s : State} :
    NextKeeps s (execRefFrameStart t lf s) :=
  nextKeeps_onUnits fun k => keeps_refFrameStart k

theorem keeps_execFlywheelFrameStart {t : Nat} {lf : LaneFails} {s : State} :
    NextKeeps s (execFlywheelFrameStart t lf s) :=
  nextKeeps_onUnits fun k => keeps_flywheelFrameStart k

theorem keeps_execReflostTakeover {t : Nat} {lf : LaneFails} {s : State} :
    NextKeeps s (execReflostTakeover t lf s) :=
  nextKeeps_onUnits fun k => keeps_reflostTakeover k

theorem keeps_execFrameEnd {t : Nat} {lf : LaneFails} {s : State} :
    NextKeeps s (execFrameEnd t lf s) :=
  nextKeeps_onUnits fun k => keeps_canvasFrameEnd k

theorem keeps_execLineTick {t : Nat} {lf : LaneFails} {s : State} :
    NextKeeps s (execLineTick t lf s) :=
  nextKeeps_onUnits fun k => keeps_lineTick k

theorem keeps_execCommitPointTimer {t : Nat} {s : State} :
    NextKeeps s (execCommitPointTimer t s) :=
  nextKeeps_onUnits fun k => keeps_commitTimer k

theorem keeps_execFsyncOutFramePulse {t : Nat} {n : Fin 2} {s : State} :
    NextKeeps s (execFsyncOutFramePulse t n s) :=
  nextKeeps_onUnits fun k => keeps_fsyncPulse k

theorem keeps_execPulseEnd {t : Nat} {n : Fin 32} {s : State} :
    NextKeeps s (execPulseEnd t n s) :=
  nextKeeps_onUnits fun k => keeps_pulseEnd k

theorem keeps_execCanvasDisable {t : Nat} {lf : LaneFails} {s : State} :
    NextKeeps s (execCanvasDisable t lf s) :=
  nextKeeps_onUnits fun k => keeps_canvasDisable k

theorem keeps_execCanvasEnable {t : Nat} {lf : LaneFails} {s : State} :
    NextKeeps s (execCanvasEnable t lf s) :=
  nextKeeps_onUnits fun k => keeps_canvasEnable k

theorem keeps_execApply {t : Nat} {s : State} :
    NextKeeps s (execApply t s) :=
  nextKeeps_onUnits fun k => keeps_slotApply k

theorem keeps_execLongPacket {t : Nat} {p : Fin 4} {vc : Fin 16} {dt : BitVec 6} {wc : BitVec 16} {payload : Bytes} {h : Header} {crcOk : Bool} {s : State} :
    NextKeeps s (execLongPacket t p vc dt wc payload h crcOk s) :=
  nextKeeps_onUnits fun k => keeps_longPacket k

theorem keeps_execFsPacket {t : Nat} {p : Fin 4} {vc : Fin 16} {s : State} :
    NextKeeps s (execFsPacket t p vc s) :=
  nextKeeps_onUnits fun k => keeps_framePacket k

theorem keeps_execFePacket {t : Nat} {p : Fin 4} {vc : Fin 16} {s : State} :
    NextKeeps s (execFePacket t p vc s) :=
  nextKeeps_onUnits fun k => keeps_framePacket k

theorem keeps_execDeskewSequence {t : Nat} {p : Fin 4} {aligned : Bool} {s : State} :
    NextKeeps s (execDeskewSequence t p aligned s) :=
  nextKeeps_onUnits fun k => keeps_deskew k

theorem keeps_execByteAccepted {t : Nat} {cam : Fin 4} {s : State} :
    NextKeeps s (execByteAccepted t cam s) :=
  nextKeeps_onUnits fun k => keeps_byteAccepted k

theorem keeps_execStripeRecordWritten {t : Nat} {c : Fin 64} {s : State} :
    NextKeeps s (execStripeRecordWritten t c s) :=
  nextKeeps_onUnits fun k => keeps_stripeRecordWritten k

theorem keeps_execInval {t : Nat} {n : Fin 64} {applyAt : Bool} {s : State} :
    NextKeeps s (execInval t n applyAt s) :=
  nextKeeps_onUnits fun k => keeps_inval k

theorem keeps_execDoorbell {t : Nat} {d : Fin 64} {tail : BitVec 10} {s : State} :
    NextKeeps s (execDoorbell t d tail s) :=
  nextKeeps_onUnits fun k => keeps_doorbell k

theorem keeps_execDescriptorFetchDone {t : Nat} {d : Fin 64} {ok : Bool} {b : Bytes} {s : State} :
    NextKeeps s (execDescriptorFetchDone t d ok b s) :=
  nextKeeps_onUnits fun k => keeps_descriptorFetched k

theorem keeps_execDoorDataReadDone {t : Nat} {d : Fin 64} {ok : Bool} {b : Bytes} {s : State} :
    NextKeeps s (execDoorDataReadDone t d ok b s) :=
  nextKeeps_onUnits fun k => keeps_doorDataRead k

theorem keeps_execDoorDisable {t : Nat} {d : Fin 64} {w : Word} {s : State} :
    NextKeeps s (execDoorDisable t d w s) :=
  nextKeeps_onUnits fun k => keeps_writeDoorCfg k

theorem keeps_execAnchorNow {t : Nat} {s : State} :
    NextKeeps s (execAnchorNow t s) :=
  nextKeeps_onUnits fun k => keeps_anchorRequest k

theorem keeps_execAnchorSigned {t : Nat} {s : State} :
    NextKeeps s (execAnchorSigned t s) :=
  nextKeeps_onUnits fun k => keeps_lbAnchorDone (keeps_anchorSigned k)

theorem keeps_execEpochNow {t : Nat} {s : State} :
    NextKeeps s (execEpochNow t s) :=
  nextKeeps_onUnits fun k => keeps_epochRequest k

theorem keeps_execTimemapNow {t : Nat} {s : State} :
    NextKeeps s (execTimemapNow t s) :=
  nextKeeps_onUnits fun k => keeps_timemap k

theorem keeps_execTimemapPeriod {t : Nat} {s : State} :
    NextKeeps s (execTimemapPeriod t s) :=
  nextKeeps_onUnits fun k => keeps_timemapPeriod k

theorem keeps_execEpochSequenceStart {t : Nat} {s : State} :
    NextKeeps s (execEpochSequenceStart t s) :=
  nextKeeps_onUnits fun k => keeps_epochStart k

theorem keeps_execEpochKeygenDone {t : Nat} {s : State} :
    NextKeeps s (execEpochKeygenDone t s) :=
  nextKeeps_onUnits fun k => keeps_epochKeygenDone k

theorem keeps_execEpochSigned {t : Nat} {s : State} :
    NextKeeps s (execEpochSigned t s) :=
  nextKeeps_onUnits fun k => keeps_epochSigned k

theorem keeps_execKeywrap {t : Nat} {c : Fin 64} {kind : BitVec 2} {alg : BitVec 2} {src : BitVec 16} {s : State} :
    NextKeeps s (execKeywrap t c kind alg src s) :=
  nextKeeps_onUnits fun k => keeps_keywrap k

theorem keeps_execKeywrapDone {t : Nat} {s : State} :
    NextKeeps s (execKeywrapDone t s) :=
  nextKeeps_onUnits fun k => keeps_wrapUp (keeps_keywrapDone k)

theorem keeps_execAlloc {t : Nat} {n : Fin 256} {s : State} :
    NextKeeps s (execAlloc t n s) :=
  nextKeeps_onUnits fun k => keeps_ksIssue k

theorem keeps_execZeroize {t : Nat} {h : BitVec 16} {s : State} :
    NextKeeps s (execZeroize t h s) :=
  nextKeeps_onUnits fun k => keeps_ksIssue k

theorem keeps_execNarrow {t : Nat} {h : BitVec 16} {s : State} :
    NextKeeps s (execNarrow t h s) :=
  nextKeeps_onUnits fun k => keeps_ksIssue k

theorem keeps_execGenerate {t : Nat} {n : Fin 256} {h : BitVec 16} {s : State} :
    NextKeeps s (execGenerate t n h s) :=
  nextKeeps_onUnits fun k => keeps_ksIssue k

theorem keeps_execImportKey {t : Nat} {h : BitVec 16} {s : State} :
    NextKeeps s (execImportKey t h s) :=
  nextKeeps_onUnits fun k => keeps_ksIssue k

theorem keeps_execKeymove {t : Nat} {n : Fin 256} {ctx : BitVec 16} {s : State} :
    NextKeeps s (execKeymove t n ctx s) :=
  nextKeeps_onUnits fun k => keeps_ksIssue k

theorem keeps_execRestore {t : Nat} {n : Fin 256} {ctx : BitVec 16} {s : State} :
    NextKeeps s (execRestore t n ctx s) :=
  nextKeeps_onUnits fun k => keeps_ksIssue k

theorem keeps_execFeltWriteThroughDone {t : Nat} {n : Fin 16} {s : State} :
    NextKeeps s (execFeltWriteThroughDone t n s) :=
  nextKeeps_onUnits fun k => keeps_feltWriteThrough k

theorem keeps_execDigestSubmit {t : Nat} {a : Word} {s : State} :
    NextKeeps s (execDigestSubmit t a s) :=
  nextKeeps_onUnits fun k => keeps_submitJob k

theorem keeps_execDigestJobStart {t : Nat} {s : State} :
    NextKeeps s (execDigestJobStart t s) :=
  nextKeeps_onUnits fun k => keeps_startJob k

theorem keeps_execDigestJobDone {t : Nat} {l : Fin 8} {ue : Bool} {s : State} :
    NextKeeps s (execDigestJobDone t l ue s) :=
  nextKeeps_onUnits fun k => keeps_wrapUp (keeps_jobEnds k)

theorem keeps_execDigestAbort {t : Nat} {a : Word} {tie : Bool} {s : State} :
    NextKeeps s (execDigestAbort t a tie s) :=
  nextKeeps_onUnits fun k => keeps_wrapUp (keeps_abortJob k)

theorem keeps_execCipherSubmit {t : Nat} {a : Word} {s : State} :
    NextKeeps s (execCipherSubmit t a s) :=
  nextKeeps_onUnits fun k => keeps_submitJob k

theorem keeps_execCipherJobStart {t : Nat} {s : State} :
    NextKeeps s (execCipherJobStart t s) :=
  nextKeeps_onUnits fun k => keeps_startJob k

theorem keeps_execCipherJobDone {t : Nat} {l : Fin 8} {ue : Bool} {s : State} :
    NextKeeps s (execCipherJobDone t l ue s) :=
  nextKeeps_onUnits fun k => keeps_wrapUp (keeps_jobEnds k)

theorem keeps_execCipherAbort {t : Nat} {a : Word} {tie : Bool} {s : State} :
    NextKeeps s (execCipherAbort t a tie s) :=
  nextKeeps_onUnits fun k => keeps_wrapUp (keeps_abortJob k)

theorem keeps_execCtxselCommit {t : Nat} {ctx : BitVec 7} {ty : BitVec 3} {du : Bool} {s : State} :
    NextKeeps s (execCtxselCommit t ctx ty du s) :=
  nextKeeps_onUnits fun k => keeps_ctxCommit k

theorem keeps_execStripeEncrypt {t : Nat} {jsn : Nat} {ue : Option Word} {s : State} :
    NextKeeps s (execStripeEncrypt t jsn ue s) :=
  nextKeeps_onUnits fun k => keeps_encryptRead k

theorem keeps_execLaneMismatch {t : Nat} {u : UnitId} {l : Fin 8} {s : State} :
    NextKeeps s (execLaneMismatch t u l s) :=
  nextKeeps_onUnits fun k => keeps_laneMismatch k

theorem keeps_execSelftest {t : Nat} {princ : BitVec 4} {env : ProcEnv} {s : State} :
    NextKeeps s (execSelftest t princ env s) :=
  nextKeeps_onUnits fun k => keeps_procRow k

theorem keeps_execHealthTestFailure {t : Nat} {s : State} :
    NextKeeps s (execHealthTestFailure t s) :=
  nextKeeps_onUnits fun k => keeps_healthFail k

theorem keeps_execStartUpTestDone {t : Nat} {s : State} :
    NextKeeps s (execStartUpTestDone t s) :=
  nextKeeps_onUnits fun k => keeps_startUpDone k

theorem keeps_execDrbgRequest {t : Nat} {n : Fin 4096} {s : State} :
    NextKeeps s (execDrbgRequest t n s) :=
  nextKeeps_onUnits fun k => keeps_drbgAsk k

theorem keeps_execDrbgWaitExpiry {t : Nat} {s : State} :
    NextKeeps s (execDrbgWaitExpiry t s) :=
  nextKeeps_onUnits fun k => keeps_waitExpiry k

theorem keeps_execOutRead {t : Nat} {s : State} :
    NextKeeps s (execOutRead t s) :=
  nextKeeps_onUnits fun k => keeps_outRead k

theorem keeps_execPkSubmit {t : Nat} {a : Word} {s : State} :
    NextKeeps s (execPkSubmit t a s) :=
  nextKeeps_onUnits fun k => keeps_pkSubmit k

theorem keeps_execPkJobStart {t : Nat} {s : State} :
    NextKeeps s (execPkJobStart t s) :=
  nextKeeps_onUnits fun k => keeps_pkStart k

theorem keeps_execPkJobDone {t : Nat} {check : PkCheck} {s : State} :
    NextKeeps s (execPkJobDone t check s) :=
  nextKeeps_onUnits fun k => keeps_pkJobDone k

theorem keeps_execPreempt {t : Nat} {s : State} :
    NextKeeps s (execPreempt t s) :=
  nextKeeps_onUnits fun k => keeps_pkPreempt k

theorem keeps_execPkAbort {t : Nat} {a : Word} {tie : Bool} {s : State} :
    NextKeeps s (execPkAbort t a tie s) :=
  nextKeeps_onUnits fun k => keeps_wrapUp (keeps_pkAbort k)

theorem keeps_execPkGate {t : Nat} {s : State} :
    NextKeeps s (execPkGate t s) :=
  nextKeeps_onUnits fun k => keeps_pkGate k

theorem keeps_execPkWipeDone {t : Nat} {s : State} :
    NextKeeps s (execPkWipeDone t s) :=
  nextKeeps_onUnits fun k => keeps_pkWipeDone k

theorem keeps_execNandOperationDone {t : Nat} {n : Fin 8} {j : Fin 16} {res : NandRes} {badLane : Option (Fin 20)} {s : State} :
    NextKeeps s (execNandOperationDone t n j res badLane s) :=
  nextKeeps_onUnits fun k => keeps_wrapUp (keeps_nandDone k)

theorem keeps_execNandOperationIssue {t : Nat} {n : Fin 8} {rbHigh : Bool} {s : State} :
    NextKeeps s (execNandOperationIssue t n rbHigh s) :=
  nextKeeps_onUnits fun k => keeps_nandIssue k

theorem keeps_execMediaInit {t : Nat} {princ : BitVec 4} {env : ProcEnv} {s : State} :
    NextKeeps s (execMediaInit t princ env s) :=
  nextKeeps_onUnits fun k => keeps_procRow k

theorem keeps_execPairdataWrite {t : Nat} {v : BitVec 16} {s : State} :
    NextKeeps s (execPairdataWrite t v s) :=
  nextKeeps_onUnits fun k => keeps_pairWrite k

theorem keeps_execRrdataWrite {t : Nat} {w : Word} {s : State} :
    NextKeeps s (execRrdataWrite t w s) :=
  nextKeeps_onUnits fun k => keeps_rrWrite k

theorem keeps_execOffdataWrite {t : Nat} {n : Fin 8} {v : BitVec 8} {s : State} :
    NextKeeps s (execOffdataWrite t n v s) :=
  nextKeeps_onUnits fun k => keeps_offWrite k

theorem keeps_execSuperpageProgram {t : Nat} {n : Fin 17} {s : State} :
    NextKeeps s (execSuperpageProgram t n s) :=
  nextKeeps_onUnits fun k => keeps_superpageProgram k

theorem keeps_execFillmaxExpiry {t : Nat} {n : Fin 17} {s : State} :
    NextKeeps s (execFillmaxExpiry t n s) :=
  nextKeeps_onUnits fun k => keeps_fillmax k

theorem keeps_execPairmaxExpiry {t : Nat} {k : Nat} {s : State} :
    NextKeeps s (execPairmaxExpiry t k s) :=
  nextKeeps_onUnits fun k => keeps_pairmax k

theorem keeps_execProbe {t : Nat} {n : Fin 8} {j : Fin 16} {decoded : Bool} {mism : List Nat} {s : State} :
    NextKeeps s (execProbe t n j decoded mism s) :=
  nextKeeps_onUnits fun k => keeps_probe k

theorem keeps_execScrubPatrol {t : Nat} {s : State} :
    NextKeeps s (execScrubPatrol t s) :=
  nextKeeps_onUnits fun k => keeps_scrubPatrol k

theorem keeps_execOperationOverdue {t : Nat} {n : Fin 8} {j : Fin 16} {s : State} :
    NextKeeps s (execOperationOverdue t n j s) :=
  nextKeeps_onUnits fun k => keeps_opOverdue k

theorem keeps_execOperationTimeout {t : Nat} {n : Fin 8} {j : Fin 16} {completed : Bool} {s : State} :
    NextKeeps s (execOperationTimeout t n j completed s) :=
  nextKeeps_onUnits fun k => keeps_opTimeout k

theorem keeps_execRbstuckExpiry {t : Nat} {n : Fin 8} {s : State} :
    NextKeeps s (execRbstuckExpiry t n s) :=
  nextKeeps_onUnits fun k => keeps_rbStuck k

theorem keeps_execEncoderLaneFailure {t : Nat} {lane : Fin 4} {s : State} :
    NextKeeps s (execEncoderLaneFailure t lane s) :=
  nextKeeps_onUnits fun k => keeps_parkLdpc k

theorem keeps_execRdabort {t : Nat} {id : BitVec 16} {tie : Bool} {s : State} :
    NextKeeps s (execRdabort t id tie s) :=
  nextKeeps_onUnits fun k => keeps_rdAbort k

theorem keeps_execCheckpointNow {t : Nat} {s : State} :
    NextKeeps s (execCheckpointNow t s) :=
  nextKeeps_onUnits fun k => keeps_ckRequest k

theorem keeps_execCheckpointStart {t : Nat} {s : State} :
    NextKeeps s (execCheckpointStart t s) :=
  nextKeeps_onUnits fun k => keeps_ckAuto k

theorem keeps_execCheckpointDone {t : Nat} {s : State} :
    NextKeeps s (execCheckpointDone t s) :=
  nextKeeps_onUnits fun k => keeps_wrapUp (keeps_ckDone k)

theorem keeps_execTimeck {t : Nat} {s : State} :
    NextKeeps s (execTimeck t s) :=
  nextKeeps_onUnits fun k => keeps_timeck k

theorem keeps_execMramScrub {t : Nat} {corrected : Nat} {s : State} :
    NextKeeps s (execMramScrub t corrected s) :=
  nextKeeps_onUnits fun k => keeps_mramScrub k

theorem keeps_execFieldSensorAssert {t : Nat} {s : State} :
    NextKeeps s (execFieldSensorAssert t s) :=
  nextKeeps_onUnits fun k => keeps_fieldOn k

theorem keeps_execFieldSensorDeassert {t : Nat} {corrected : Nat} {badTile : Bool} {s : State} :
    NextKeeps s (execFieldSensorDeassert t corrected badTile s) :=
  nextKeeps_onUnits fun k => keeps_fieldOff k

theorem keeps_execHoldRelease {t : Nat} {princ : BitVec 4} {n : BitVec 8} {lo : BitVec 64} {hi : BitVec 64} {s : State} :
    NextKeeps s (execHoldRelease t princ n lo hi s) :=
  nextKeeps_onUnits fun k => keeps_procRow k

theorem keeps_execNsPurge {t : Nat} {princ : BitVec 4} {n : BitVec 8} {s : State} :
    NextKeeps s (execNsPurge t princ n s) :=
  nextKeeps_onUnits fun k => keeps_procRow k

theorem keeps_execSegmentAllocation {t : Nat} {n : Fin 17} {gc : Bool} {s : State} :
    NextKeeps s (execSegmentAllocation t n gc s) :=
  nextKeeps_onUnits fun k => keeps_segAllocate k

theorem keeps_execSegmentEraseDone {t : Nat} {k : Nat} {s : State} :
    NextKeeps s (execSegmentEraseDone t k s) :=
  nextKeeps_onUnits fun k => keeps_segEraseDone k

theorem keeps_execGcCopy {t : Nat} {s : State} :
    NextKeeps s (execGcCopy t s) :=
  nextKeeps_onUnits fun k => keeps_gcCopy k

theorem keeps_execReadJobEnd {t : Nat} {id : Nat} {s : State} :
    NextKeeps s (execReadJobEnd t id s) :=
  nextKeeps_onUnits fun k => keeps_readJobEnd k

theorem keeps_execTablePagesRead {t : Nat} {s : State} :
    NextKeeps s (execTablePagesRead t s) :=
  nextKeeps_onUnits fun k => keeps_tablesRead k

theorem keeps_execPfailNFall {t : Nat} {s : State} :
    NextKeeps s (execPfailNFall t s) :=
  nextKeeps_always fun k => keeps_pfailFall k

theorem keeps_execLastBreathFlush {t : Nat} {s : State} :
    NextKeeps s (execLastBreathFlush t s) :=
  nextKeeps_always fun k => keeps_lbFlush k

theorem keeps_execNandPark {t : Nat} {s : State} :
    NextKeeps s (execNandPark t s) :=
  nextKeeps_always fun k => keeps_nandPark k

theorem keeps_execPark {t : Nat} {s : State} :
    NextKeeps s (execPark t s) :=
  nextKeeps_onUnits fun k => keeps_startLastBreath k

theorem keeps_execOpenRecording {t : Nat} {s : State} :
    NextKeeps s (execOpenRecording t s) :=
  nextKeeps_onUnits fun k => keeps_recordingResume k

theorem keeps_execIgnitionPark {t : Nat} {s : State} :
    NextKeeps s (execIgnitionPark t s) :=
  nextKeeps_always fun k => keeps_ignitionPark k

theorem keeps_execWake {t : Nat} {src : Fin 4} {s : State} :
    NextKeeps s (execWake t src s) :=
  nextKeeps_always fun k => keeps_wake k

theorem keeps_execWarmporHold {t : Nat} {s : State} :
    NextKeeps s (execWarmporHold t s) :=
  nextKeeps_always fun k => keeps_warmporHold k

theorem keeps_execPor {t : Nat} {o : BootOut} {s : State} :
    NextKeeps s (execPor t o s) :=
  nextKeeps_always fun k => keeps_por k

theorem keeps_execSupplyMonitorFall {t : Nat} {io18Lost : Bool} {s : State} :
    NextKeeps s (execSupplyMonitorFall t io18Lost s) :=
  nextKeeps_always fun k => keeps_monitorFall k

theorem keeps_execFullReset {t : Nat} {o : BootOut} {s : State} :
    NextKeeps s (execFullReset t o s) :=
  nextKeeps_always fun k => keeps_fullReset k

theorem keeps_execRstreq {t : Nat} {s : State} :
    NextKeeps s (execRstreq t s) :=
  nextKeeps_onUnits fun k => keeps_resetRequest k

theorem keeps_execReset {t : Nat} {s : State} :
    NextKeeps s (execReset t s) :=
  nextKeeps_onUnits fun k => keeps_resetRequest k

theorem keeps_execRstNFall {t : Nat} {s : State} :
    NextKeeps s (execRstNFall t s) :=
  nextKeeps_always fun k => keeps_rstFall k

theorem keeps_execRstNRise {t : Nat} {s : State} :
    NextKeeps s (execRstNRise t s) :=
  nextKeeps_always fun k => keeps_rstRise k

theorem keeps_execRstholdMaxExpiry {t : Nat} {s : State} :
    NextKeeps s (execRstholdMaxExpiry t s) :=
  nextKeeps_always fun k => keeps_rstStuck k

theorem keeps_execRstNRearm {t : Nat} {s : State} :
    NextKeeps s (execRstNRearm t s) :=
  nextKeeps_always fun k => keeps_rstRearm k

theorem keeps_execPfailStuckCheck {t : Nat} {s : State} :
    NextKeeps s (execPfailStuckCheck t s) :=
  nextKeeps_always fun k => keeps_pfailStuck k

theorem keeps_execIngestOpenAfterPfail {t : Nat} {s : State} :
    NextKeeps s (execIngestOpenAfterPfail t s) :=
  nextKeeps_always fun k => keeps_ingestOpen k

theorem keeps_execRecordingResume {t : Nat} {s : State} :
    NextKeeps s (execRecordingResume t s) :=
  nextKeeps_always fun k => keeps_recordingResume k

theorem keeps_execRead {t : Nat} {r : ReqIn} {env : ProcEnv} {tie : Bool} {s : State} :
    NextKeeps s (execRead t r env tie s) :=
  nextKeeps_onUnits fun k => keeps_wrapUp (keeps_takeReq k)

theorem keeps_execWrite {t : Nat} {r : ReqIn} {env : ProcEnv} {tie : Bool} {s : State} :
    NextKeeps s (execWrite t r env tie s) :=
  nextKeeps_onUnits fun k => keeps_wrapUp (keeps_takeReq k)

theorem keeps_execReadSeg {t : Nat} {r : ReqIn} {env : ProcEnv} {tie : Bool} {s : State} :
    NextKeeps s (execReadSeg t r env tie s) :=
  nextKeeps_onUnits fun k => keeps_wrapUp (keeps_takeReq k)

theorem keeps_execWriteSeg {t : Nat} {r : ReqIn} {env : ProcEnv} {tie : Bool} {s : State} :
    NextKeeps s (execWriteSeg t r env tie s) :=
  nextKeeps_onUnits fun k => keeps_wrapUp (keeps_takeReq k)

theorem keeps_execSegment {t : Nat} {r : ReqIn} {env : ProcEnv} {tie : Bool} {s : State} :
    NextKeeps s (execSegment t r env tie s) :=
  nextKeeps_onUnits fun k => keeps_wrapUp (keeps_takeReq k)

theorem keeps_execBlockAck {t : Nat} {r : ReqIn} {env : ProcEnv} {tie : Bool} {s : State} :
    NextKeeps s (execBlockAck t r env tie s) :=
  nextKeeps_onUnits fun k => keeps_wrapUp (keeps_takeReq k)

theorem keeps_execAbort {t : Nat} {r : ReqIn} {env : ProcEnv} {tie : Bool} {s : State} :
    NextKeeps s (execAbort t r env tie s) :=
  nextKeeps_onUnits fun k => keeps_wrapUp (keeps_takeReq k)

theorem keeps_execBlockGapExpiry {t : Nat} {n : Nat} {s : State} :
    NextKeeps s (execBlockGapExpiry t n s) :=
  nextKeeps_onUnits fun k => keeps_gapExpiry k

theorem keeps_execSegtmoExpiry {t : Nat} {n : Nat} {s : State} :
    NextKeeps s (execSegtmoExpiry t n s) :=
  nextKeeps_onUnits fun k => keeps_segTimeout k

theorem keeps_execLsubmit {t : Nat} {a : Word} {s : State} :
    NextKeeps s (execLsubmit t a s) :=
  nextKeeps_onUnits fun k => keeps_lsubmit k

theorem keeps_execFwrsp {t : Nat} {w : Word} {s : State} :
    NextKeeps s (execFwrsp t w s) :=
  nextKeeps_onUnits fun k => keeps_wrapUp (keeps_fwRsp k)

theorem keeps_execFwtmoExpiry {t : Nat} {i : Fin 8} {s : State} :
    NextKeeps s (execFwtmoExpiry t i s) :=
  nextKeeps_onUnits fun k => keeps_wrapUp (keeps_fwTimeout k)

theorem keeps_execFwserve {t : Nat} {v : Bool} {s : State} :
    NextKeeps s (execFwserve t v s) :=
  nextKeeps_onUnits fun k => keeps_fwServe k

theorem keeps_execRestoreDefaults {t : Nat} {princ : BitVec 4} {arg : BitVec 16} {s : State} :
    NextKeeps s (execRestoreDefaults t princ arg s) :=
  nextKeeps_onUnits fun k => keeps_procRow k

theorem keeps_execClearSticky {t : Nat} {princ : BitVec 4} {n : BitVec 8} {s : State} :
    NextKeeps s (execClearSticky t princ n s) :=
  nextKeeps_onUnits fun k => keeps_procRow k

theorem keeps_execCanFrameReceive {t : Nat} {n : Fin 2} {fr : CanFrame} {ts : BitVec 16} {env : ProcEnv} {tie : Bool} {s : State} :
    NextKeeps s (execCanFrameReceive t n fr ts env tie s) :=
  nextKeeps_onUnits fun k => keeps_wrapUp (keeps_canReceive k)

theorem keeps_execSessionOpen {t : Nat} {c : Fin 3} {id : BitVec 29} {p : Bytes} {s : State} :
    NextKeeps s (execSessionOpen t c id p s) :=
  nextKeeps_onUnits fun k => keeps_takeOpen k

theorem keeps_execResponse {t : Nat} {c : Fin 3} {id : BitVec 29} {p : Bytes} {s : State} :
    NextKeeps s (execResponse t c id p s) :=
  nextKeeps_onUnits fun k => keeps_takeOpen k

theorem keeps_execPhase3Timeout {t : Nat} {i : Fin 8} {s : State} :
    NextKeeps s (execPhase3Timeout t i s) :=
  nextKeeps_onUnits fun k => keeps_phase3Timeout k

theorem keeps_execSessionClose {t : Nat} {r : ReqIn} {env : ProcEnv} {tie : Bool} {s : State} :
    NextKeeps s (execSessionClose t r env tie s) :=
  nextKeeps_onUnits fun k => keeps_wrapUp (keeps_takeReq k)

theorem keeps_execIdleExpiry {t : Nat} {i : Fin 8} {s : State} :
    NextKeeps s (execIdleExpiry t i s) :=
  nextKeeps_onUnits fun k => keeps_wrapUp (keeps_idleExpiry k)

theorem keeps_execSuspendExpiry {t : Nat} {i : Fin 8} {s : State} :
    NextKeeps s (execSuspendExpiry t i s) :=
  nextKeeps_onUnits fun k => keeps_wrapUp (keeps_suspendExpiry k)

theorem keeps_execHeartbeat {t : Nat} {r : ReqIn} {env : ProcEnv} {tie : Bool} {s : State} :
    NextKeeps s (execHeartbeat t r env tie s) :=
  nextKeeps_onUnits fun k => keeps_wrapUp (keeps_takeReq k)

theorem keeps_execHeartbeatPeriod {t : Nat} {s : State} :
    NextKeeps s (execHeartbeatPeriod t s) :=
  nextKeeps_onUnits fun k => keeps_heartbeat k

theorem keeps_execFwnotify {t : Nat} {w : Word} {s : State} :
    NextKeeps s (execFwnotify t w s) :=
  nextKeeps_onUnits fun k => keeps_fwNotify k

theorem keeps_execTxreq {t : Nat} {n : Fin 2} {mask : Word} {s : State} :
    NextKeeps s (execTxreq t n mask s) :=
  nextKeeps_onUnits fun k => keeps_txReq k

theorem keeps_execTxcancel {t : Nat} {n : Fin 2} {mask : Word} {late : Word} {s : State} :
    NextKeeps s (execTxcancel t n mask late s) :=
  nextKeeps_onUnits fun k => keeps_txCancel k

theorem keeps_execCanTxDone {t : Nat} {n : Fin 2} {err : Bool} {s : State} :
    NextKeeps s (execCanTxDone t n err s) :=
  nextKeeps_onUnits fun k => keeps_txDone k

theorem keeps_execSessCloseGo {t : Nat} {i : Fin 8} {s : State} :
    NextKeeps s (execSessCloseGo t i s) :=
  nextKeeps_onUnits fun k => keeps_wrapUp (keeps_sessCloseGo k)

theorem keeps_execBusOff {t : Nat} {n : Fin 2} {s : State} :
    NextKeeps s (execBusOff t n s) :=
  nextKeeps_onUnits fun k => keeps_busOff k

theorem keeps_execBusOffRecovery {t : Nat} {n : Fin 2} {s : State} :
    NextKeeps s (execBusOffRecovery t n s) :=
  nextKeeps_onUnits fun k => keeps_busOffRecovery k

theorem keeps_execCctrlModeWrite {t : Nat} {n : Fin 2} {w : Word} {s : State} :
    NextKeeps s (execCctrlModeWrite t n w s) :=
  nextKeeps_onUnits fun k => keeps_cctrlWrite k

theorem keeps_execStuck {t : Nat} {n : Fin 2} {s : State} :
    NextKeeps s (execStuck t n s) :=
  nextKeeps_onUnits fun k => keeps_canStuck k

theorem keeps_execStuckRecheck {t : Nat} {n : Fin 2} {recessive : Bool} {s : State} :
    NextKeeps s (execStuckRecheck t n recessive s) :=
  nextKeeps_onUnits fun k => keeps_stuckRecheck k

theorem keeps_execTscntWrap {t : Nat} {n : Fin 2} {s : State} :
    NextKeeps s (execTscntWrap t n s) :=
  nextKeeps_onUnits fun k => keeps_tscntWrap k

theorem keeps_execPop {t : Nat} {q : Option (Fin 2)} {s : State} :
    NextKeeps s (execPop t q s) :=
  nextKeeps_onUnits fun k => keeps_popRow k

theorem keeps_execRspvalidClear {t : Nat} {k : Fin 4} {s : State} :
    NextKeeps s (execRspvalidClear t k s) :=
  nextKeeps_onUnits fun k => keeps_rspClear k

theorem keeps_execLinkLoss {t : Nat} {c : LinkCause} {s : State} :
    NextKeeps s (execLinkLoss t c s) :=
  nextKeeps_onUnits fun k => keeps_wrapUp (keeps_linkLossRow k)

theorem keeps_execStart {t : Nat} {r : Fin 8} {s : State} :
    NextKeeps s (execStart t r s) :=
  nextKeeps_onUnits fun k => keeps_rdStart k

theorem keeps_execFirstPassDone {t : Nat} {id : Fin 9} {s : State} :
    NextKeeps s (execFirstPassDone t id s) :=
  nextKeeps_onUnits fun k => keeps_wrapUp (keeps_firstPassRow k)

theorem keeps_execRdptrWrite {t : Nat} {r : Fin 8} {v : BitVec 64} {s : State} :
    NextKeeps s (execRdptrWrite t r v s) :=
  nextKeeps_onUnits fun k => keeps_rdPtrWrite k

theorem keeps_execStatusBlock {t : Nat} {r : Fin 8} {s : State} :
    NextKeeps s (execStatusBlock t r s) :=
  nextKeeps_onUnits fun k => keeps_rdStatusBlock k

theorem keeps_execStallExpiry {t : Nat} {r : Fin 8} {s : State} :
    NextKeeps s (execStallExpiry t r s) :=
  nextKeeps_onUnits fun k => keeps_rdStall k

theorem keeps_execReadDoorAbort {t : Nat} {r : Fin 8} {tie : Bool} {s : State} :
    NextKeeps s (execReadDoorAbort t r tie s) :=
  nextKeeps_onUnits fun k => keeps_rdoorAbort k

theorem keeps_execReadDoorCompletion {t : Nat} {r : Fin 8} {s : State} :
    NextKeeps s (execReadDoorCompletion t r s) :=
  nextKeeps_onUnits fun k => keeps_rdComplete k

theorem keeps_execVselWrite {t : Nat} {n : Fin 64} {v : BitVec 6} {s : State} :
    NextKeeps s (execVselWrite t n v s) :=
  nextKeeps_onUnits fun k => keeps_vselWrite k

theorem keeps_execInsertion {t : Nat} {p : Fin 2} {s : State} :
    NextKeeps s (execInsertion t p s) :=
  nextKeeps_onUnits fun k => keeps_insertion k

theorem keeps_execCardReady {t : Nat} {p : Fin 2} {r : CardInit} {s : State} :
    NextKeeps s (execCardReady t p r s) :=
  nextKeeps_onUnits fun k => keeps_cardReady k

theorem keeps_execRemoval {t : Nat} {p : Fin 2} {s : State} :
    NextKeeps s (execRemoval t p s) :=
  nextKeeps_onUnits fun k => keeps_wrapUp (keeps_removal k)

theorem keeps_execCmd {t : Nat} {p : Fin 2} {w : Word} {s : State} :
    NextKeeps s (execCmd t p w s) :=
  nextKeeps_onUnits fun k => keeps_cardCmd k

theorem keeps_execCardTransferDone {t : Nat} {p : Fin 2} {out : CardOut} {s : State} :
    NextKeeps s (execCardTransferDone t p out s) :=
  nextKeeps_onUnits fun k => keeps_wrapUp (keeps_cardDone k)

theorem keeps_execPabort {t : Nat} {p : Fin 2} {tie : Option CardOut} {s : State} :
    NextKeeps s (execPabort t p tie s) :=
  nextKeeps_onUnits fun k => keeps_wrapUp (keeps_pabort k)

theorem keeps_execBusyTimeout {t : Nat} {p : Fin 2} {s : State} :
    NextKeeps s (execBusyTimeout t p s) :=
  nextKeeps_onUnits fun k => keeps_wrapUp (keeps_busyTimeout k)

theorem keeps_execRetuneTrigger {t : Nat} {p : Fin 2} {temp : Int} {s : State} :
    NextKeeps s (execRetuneTrigger t p temp s) :=
  nextKeeps_onUnits fun k => keeps_retuneTrigger k

theorem keeps_execRetuneStep {t : Nat} {p : Fin 2} {mask : Nat} {temp : Int} {s : State} :
    NextKeeps s (execRetuneStep t p mask temp s) :=
  nextKeeps_onUnits fun k => keeps_retuneStep k

theorem keeps_execReinit {t : Nat} {p : Fin 2} {s : State} :
    NextKeeps s (execReinit t p s) :=
  nextKeeps_onUnits fun k => keeps_reinit k

theorem keeps_execSleep {t : Nat} {s : State} :
    NextKeeps s (execSleep t s) :=
  nextKeeps_onUnits fun k => keeps_cardSleep k

theorem keeps_execExportStart {t : Nat} {princ : BitVec 4} {s : State} :
    NextKeeps s (execExportStart t princ s) :=
  nextKeeps_onUnits fun k => keeps_procRow k

theorem keeps_execExportAbort {t : Nat} {princ : BitVec 4} {tie : Bool} {s : State} :
    NextKeeps s (execExportAbort t princ tie s) :=
  nextKeeps_onUnits fun k => keeps_wrapUp (keeps_exportAbort k)

theorem keeps_execExportCompletion {t : Nat} {s : State} :
    NextKeeps s (execExportCompletion t s) :=
  nextKeeps_onUnits fun k => keeps_wrapUp (keeps_expLatch k)

theorem keeps_execCourtCopy {t : Nat} {princ : BitVec 4} {target : BitVec 8} {s : State} :
    NextKeeps s (execCourtCopy t princ target s) :=
  nextKeeps_onUnits fun k => keeps_procRow k

theorem keeps_execCourtCopyTimeout {t : Nat} {s : State} :
    NextKeeps s (execCourtCopyTimeout t s) :=
  nextKeeps_onUnits fun k => keeps_wrapUp (keeps_courtTimeout k)

theorem keeps_execPresence {t : Nat} {i : Fin 2} {level : Bool} {s : State} :
    NextKeeps s (execPresence t i level s) :=
  nextKeeps_onUnits fun k => keeps_presence k

theorem keeps_execActivate {t : Nat} {i : Fin 2} {s : State} :
    NextKeeps s (execActivate t i s) :=
  nextKeeps_onUnits fun k => keeps_activate k

theorem keeps_execAtr {t : Nat} {i : Fin 2} {bs : Bytes} {parityBad : Bool} {s : State} :
    NextKeeps s (execAtr t i bs parityBad s) :=
  nextKeeps_onUnits fun k => keeps_atr k

theorem keeps_execAtrTimeout {t : Nat} {i : Fin 2} {s : State} :
    NextKeeps s (execAtrTimeout t i s) :=
  nextKeeps_onUnits fun k => keeps_atrTimeout k

theorem keeps_execPpsResponse {t : Nat} {i : Fin 2} {confirms : Bool} {s : State} :
    NextKeeps s (execPpsResponse t i confirms s) :=
  nextKeeps_onUnits fun k => keeps_ppsResponse k

theorem keeps_execDeact {t : Nat} {i : Fin 2} {s : State} :
    NextKeeps s (execDeact t i s) :=
  nextKeeps_onUnits fun k => keeps_deact k

theorem keeps_execIoStuck {t : Nat} {i : Fin 2} {s : State} :
    NextKeeps s (execIoStuck t i s) :=
  nextKeeps_onUnits fun k => keeps_ioStuck k

theorem keeps_execOvercurrent {t : Nat} {i : Fin 2} {s : State} :
    NextKeeps s (execOvercurrent t i s) :=
  nextKeeps_onUnits fun k => keeps_overcurrent k

theorem keeps_execClockStop {t : Nat} {i : Fin 2} {s : State} :
    NextKeeps s (execClockStop t i s) :=
  nextKeeps_onUnits fun k => keeps_clockStop k

theorem keeps_execTxfifoWrite {t : Nat} {i : Fin 2} {b : Byte} {sent : Nat} {refused : Bool} {s : State} :
    NextKeeps s (execTxfifoWrite t i b sent refused s) :=
  nextKeeps_onUnits fun k => keeps_txWrite k

theorem keeps_execCharacterReceived {t : Nat} {i : Fin 2} {b : Byte} {parityErr : Bool} {s : State} :
    NextKeeps s (execCharacterReceived t i b parityErr s) :=
  nextKeeps_onUnits fun k => keeps_charReceived k

theorem keeps_execAuthctlStart {t : Nat} {w : Word} {s : State} :
    NextKeeps s (execAuthctlStart t w s) :=
  nextKeeps_onUnits fun k => keeps_authStart k

theorem keeps_execAuthrspWrite {t : Nat} {k : Fin 4} {w : Word} {s : State} :
    NextKeeps s (execAuthrspWrite t k w s) :=
  nextKeeps_onUnits fun k => keeps_authRsp k

theorem keeps_execPreq {t : Nat} {a : Word} {s : State} :
    NextKeeps s (execPreq t a s) :=
  nextKeeps_onUnits fun k => keeps_preqSubmit k

theorem keeps_execAdd {rd : BitVec 5} {rs1 : BitVec 5} {rs2 : BitVec 5} {env : CoreEnv} {s : State} :
    NextKeeps s (execAdd rd rs1 rs2 env s) :=
  nextKeeps_issue fun k => keeps_alu k

theorem keeps_execSub {rd : BitVec 5} {rs1 : BitVec 5} {rs2 : BitVec 5} {env : CoreEnv} {s : State} :
    NextKeeps s (execSub rd rs1 rs2 env s) :=
  nextKeeps_issue fun k => keeps_alu k

theorem keeps_execAnd {rd : BitVec 5} {rs1 : BitVec 5} {rs2 : BitVec 5} {env : CoreEnv} {s : State} :
    NextKeeps s (execAnd rd rs1 rs2 env s) :=
  nextKeeps_issue fun k => keeps_alu k

theorem keeps_execOr {rd : BitVec 5} {rs1 : BitVec 5} {rs2 : BitVec 5} {env : CoreEnv} {s : State} :
    NextKeeps s (execOr rd rs1 rs2 env s) :=
  nextKeeps_issue fun k => keeps_alu k

theorem keeps_execXor {rd : BitVec 5} {rs1 : BitVec 5} {rs2 : BitVec 5} {env : CoreEnv} {s : State} :
    NextKeeps s (execXor rd rs1 rs2 env s) :=
  nextKeeps_issue fun k => keeps_alu k

theorem keeps_execAndn {rd : BitVec 5} {rs1 : BitVec 5} {rs2 : BitVec 5} {env : CoreEnv} {s : State} :
    NextKeeps s (execAndn rd rs1 rs2 env s) :=
  nextKeeps_issue fun k => keeps_alu k

theorem keeps_execSll {rd : BitVec 5} {rs1 : BitVec 5} {rs2 : BitVec 5} {env : CoreEnv} {s : State} :
    NextKeeps s (execSll rd rs1 rs2 env s) :=
  nextKeeps_issue fun k => keeps_alu k

theorem keeps_execSrl {rd : BitVec 5} {rs1 : BitVec 5} {rs2 : BitVec 5} {env : CoreEnv} {s : State} :
    NextKeeps s (execSrl rd rs1 rs2 env s) :=
  nextKeeps_issue fun k => keeps_alu k

theorem keeps_execSra {rd : BitVec 5} {rs1 : BitVec 5} {rs2 : BitVec 5} {env : CoreEnv} {s : State} :
    NextKeeps s (execSra rd rs1 rs2 env s) :=
  nextKeeps_issue fun k => keeps_alu k

theorem keeps_execRor {rd : BitVec 5} {rs1 : BitVec 5} {rs2 : BitVec 5} {env : CoreEnv} {s : State} :
    NextKeeps s (execRor rd rs1 rs2 env s) :=
  nextKeeps_issue fun k => keeps_alu k

theorem keeps_execSlt {rd : BitVec 5} {rs1 : BitVec 5} {rs2 : BitVec 5} {env : CoreEnv} {s : State} :
    NextKeeps s (execSlt rd rs1 rs2 env s) :=
  nextKeeps_issue fun k => keeps_alu k

theorem keeps_execSltu {rd : BitVec 5} {rs1 : BitVec 5} {rs2 : BitVec 5} {env : CoreEnv} {s : State} :
    NextKeeps s (execSltu rd rs1 rs2 env s) :=
  nextKeeps_issue fun k => keeps_alu k

theorem keeps_execMin {rd : BitVec 5} {rs1 : BitVec 5} {rs2 : BitVec 5} {env : CoreEnv} {s : State} :
    NextKeeps s (execMin rd rs1 rs2 env s) :=
  nextKeeps_issue fun k => keeps_alu k

theorem keeps_execMax {rd : BitVec 5} {rs1 : BitVec 5} {rs2 : BitVec 5} {env : CoreEnv} {s : State} :
    NextKeeps s (execMax rd rs1 rs2 env s) :=
  nextKeeps_issue fun k => keeps_alu k

theorem keeps_execMinu {rd : BitVec 5} {rs1 : BitVec 5} {rs2 : BitVec 5} {env : CoreEnv} {s : State} :
    NextKeeps s (execMinu rd rs1 rs2 env s) :=
  nextKeeps_issue fun k => keeps_alu k

theorem keeps_execMaxu {rd : BitVec 5} {rs1 : BitVec 5} {rs2 : BitVec 5} {env : CoreEnv} {s : State} :
    NextKeeps s (execMaxu rd rs1 rs2 env s) :=
  nextKeeps_issue fun k => keeps_alu k

theorem keeps_execCsel {rd : BitVec 5} {rs1 : BitVec 5} {rs2 : BitVec 5} {env : CoreEnv} {s : State} :
    NextKeeps s (execCsel rd rs1 rs2 env s) :=
  nextKeeps_issue fun k => keeps_alu k

theorem keeps_execClz {rd : BitVec 5} {rs1 : BitVec 5} {env : CoreEnv} {s : State} :
    NextKeeps s (execClz rd rs1 env s) :=
  nextKeeps_issue fun k => keeps_alu k

theorem keeps_execCtz {rd : BitVec 5} {rs1 : BitVec 5} {env : CoreEnv} {s : State} :
    NextKeeps s (execCtz rd rs1 env s) :=
  nextKeeps_issue fun k => keeps_alu k

theorem keeps_execPopc {rd : BitVec 5} {rs1 : BitVec 5} {env : CoreEnv} {s : State} :
    NextKeeps s (execPopc rd rs1 env s) :=
  nextKeeps_issue fun k => keeps_alu k

theorem keeps_execBswap {rd : BitVec 5} {rs1 : BitVec 5} {env : CoreEnv} {s : State} :
    NextKeeps s (execBswap rd rs1 env s) :=
  nextKeeps_issue fun k => keeps_alu k

theorem keeps_execSextb {rd : BitVec 5} {rs1 : BitVec 5} {env : CoreEnv} {s : State} :
    NextKeeps s (execSextb rd rs1 env s) :=
  nextKeeps_issue fun k => keeps_alu k

theorem keeps_execSexth {rd : BitVec 5} {rs1 : BitVec 5} {env : CoreEnv} {s : State} :
    NextKeeps s (execSexth rd rs1 env s) :=
  nextKeeps_issue fun k => keeps_alu k

theorem keeps_execZexth {rd : BitVec 5} {rs1 : BitVec 5} {env : CoreEnv} {s : State} :
    NextKeeps s (execZexth rd rs1 env s) :=
  nextKeeps_issue fun k => keeps_alu k

theorem keeps_execMul {rd : BitVec 5} {rs1 : BitVec 5} {rs2 : BitVec 5} {env : CoreEnv} {s : State} :
    NextKeeps s (execMul rd rs1 rs2 env s) :=
  nextKeeps_issue fun k => keeps_aluTimed k

theorem keeps_execMulh {rd : BitVec 5} {rs1 : BitVec 5} {rs2 : BitVec 5} {env : CoreEnv} {s : State} :
    NextKeeps s (execMulh rd rs1 rs2 env s) :=
  nextKeeps_issue fun k => keeps_aluTimed k

theorem keeps_execMulhu {rd : BitVec 5} {rs1 : BitVec 5} {rs2 : BitVec 5} {env : CoreEnv} {s : State} :
    NextKeeps s (execMulhu rd rs1 rs2 env s) :=
  nextKeeps_issue fun k => keeps_aluTimed k

theorem keeps_execMulhsu {rd : BitVec 5} {rs1 : BitVec 5} {rs2 : BitVec 5} {env : CoreEnv} {s : State} :
    NextKeeps s (execMulhsu rd rs1 rs2 env s) :=
  nextKeeps_issue fun k => keeps_aluTimed k

theorem keeps_execDiv {rd : BitVec 5} {rs1 : BitVec 5} {rs2 : BitVec 5} {env : CoreEnv} {s : State} :
    NextKeeps s (execDiv rd rs1 rs2 env s) :=
  nextKeeps_issue fun k => keeps_aluTimed k

theorem keeps_execDivu {rd : BitVec 5} {rs1 : BitVec 5} {rs2 : BitVec 5} {env : CoreEnv} {s : State} :
    NextKeeps s (execDivu rd rs1 rs2 env s) :=
  nextKeeps_issue fun k => keeps_aluTimed k

theorem keeps_execRem {rd : BitVec 5} {rs1 : BitVec 5} {rs2 : BitVec 5} {env : CoreEnv} {s : State} :
    NextKeeps s (execRem rd rs1 rs2 env s) :=
  nextKeeps_issue fun k => keeps_aluTimed k

theorem keeps_execRemu {rd : BitVec 5} {rs1 : BitVec 5} {rs2 : BitVec 5} {env : CoreEnv} {s : State} :
    NextKeeps s (execRemu rd rs1 rs2 env s) :=
  nextKeeps_issue fun k => keeps_aluTimed k

theorem keeps_execAddi {rd : BitVec 5} {rs1 : BitVec 5} {imm : BitVec 14} {env : CoreEnv} {s : State} :
    NextKeeps s (execAddi rd rs1 imm env s) :=
  nextKeeps_issue fun k => keeps_alu k

theorem keeps_execAndi {rd : BitVec 5} {rs1 : BitVec 5} {imm : BitVec 14} {env : CoreEnv} {s : State} :
    NextKeeps s (execAndi rd rs1 imm env s) :=
  nextKeeps_issue fun k => keeps_alu k

theorem keeps_execOri {rd : BitVec 5} {rs1 : BitVec 5} {imm : BitVec 14} {env : CoreEnv} {s : State} :
    NextKeeps s (execOri rd rs1 imm env s) :=
  nextKeeps_issue fun k => keeps_alu k

theorem keeps_execXori {rd : BitVec 5} {rs1 : BitVec 5} {imm : BitVec 14} {env : CoreEnv} {s : State} :
    NextKeeps s (execXori rd rs1 imm env s) :=
  nextKeeps_issue fun k => keeps_alu k

theorem keeps_execSlti {rd : BitVec 5} {rs1 : BitVec 5} {imm : BitVec 14} {env : CoreEnv} {s : State} :
    NextKeeps s (execSlti rd rs1 imm env s) :=
  nextKeeps_issue fun k => keeps_alu k

theorem keeps_execSltiu {rd : BitVec 5} {rs1 : BitVec 5} {imm : BitVec 14} {env : CoreEnv} {s : State} :
    NextKeeps s (execSltiu rd rs1 imm env s) :=
  nextKeeps_issue fun k => keeps_alu k

theorem keeps_execSlli {rd : BitVec 5} {rs1 : BitVec 5} {shamt : BitVec 5} {env : CoreEnv} {s : State} :
    NextKeeps s (execSlli rd rs1 shamt env s) :=
  nextKeeps_issue fun k => keeps_alu k

theorem keeps_execSrli {rd : BitVec 5} {rs1 : BitVec 5} {shamt : BitVec 5} {env : CoreEnv} {s : State} :
    NextKeeps s (execSrli rd rs1 shamt env s) :=
  nextKeeps_issue fun k => keeps_alu k

theorem keeps_execSrai {rd : BitVec 5} {rs1 : BitVec 5} {shamt : BitVec 5} {env : CoreEnv} {s : State} :
    NextKeeps s (execSrai rd rs1 shamt env s) :=
  nextKeeps_issue fun k => keeps_alu k

theorem keeps_execRori {rd : BitVec 5} {rs1 : BitVec 5} {shamt : BitVec 5} {env : CoreEnv} {s : State} :
    NextKeeps s (execRori rd rs1 shamt env s) :=
  nextKeeps_issue fun k => keeps_alu k

theorem keeps_execLui {rd : BitVec 5} {imm : BitVec 20} {env : CoreEnv} {s : State} :
    NextKeeps s (execLui rd imm env s) :=
  nextKeeps_issue fun k => keeps_alu k

theorem keeps_execPca {rd : BitVec 5} {imm : BitVec 20} {env : CoreEnv} {s : State} :
    NextKeeps s (execPca rd imm env s) :=
  nextKeeps_issue fun k => keeps_alu k

theorem keeps_execLb {rd : BitVec 5} {rs1 : BitVec 5} {imm : BitVec 14} {env : CoreEnv} {s : State} :
    NextKeeps s (execLb rd rs1 imm env s) :=
  nextKeeps_issue fun k => keeps_loadOp k

theorem keeps_execLbu {rd : BitVec 5} {rs1 : BitVec 5} {imm : BitVec 14} {env : CoreEnv} {s : State} :
    NextKeeps s (execLbu rd rs1 imm env s) :=
  nextKeeps_issue fun k => keeps_loadOp k

theorem keeps_execLh {rd : BitVec 5} {rs1 : BitVec 5} {imm : BitVec 14} {env : CoreEnv} {s : State} :
    NextKeeps s (execLh rd rs1 imm env s) :=
  nextKeeps_issue fun k => keeps_loadOp k

theorem keeps_execLhu {rd : BitVec 5} {rs1 : BitVec 5} {imm : BitVec 14} {env : CoreEnv} {s : State} :
    NextKeeps s (execLhu rd rs1 imm env s) :=
  nextKeeps_issue fun k => keeps_loadOp k

theorem keeps_execLw {rd : BitVec 5} {rs1 : BitVec 5} {imm : BitVec 14} {env : CoreEnv} {s : State} :
    NextKeeps s (execLw rd rs1 imm env s) :=
  nextKeeps_issue fun k => keeps_loadOp k

theorem keeps_execSb {rd : BitVec 5} {rs1 : BitVec 5} {imm : BitVec 14} {env : CoreEnv} {s : State} :
    NextKeeps s (execSb rd rs1 imm env s) :=
  nextKeeps_issue fun k => keeps_storeOp k

theorem keeps_execSh {rd : BitVec 5} {rs1 : BitVec 5} {imm : BitVec 14} {env : CoreEnv} {s : State} :
    NextKeeps s (execSh rd rs1 imm env s) :=
  nextKeeps_issue fun k => keeps_storeOp k

theorem keeps_execSw {rd : BitVec 5} {rs1 : BitVec 5} {imm : BitVec 14} {env : CoreEnv} {s : State} :
    NextKeeps s (execSw rd rs1 imm env s) :=
  nextKeeps_issue fun k => keeps_storeOp k

theorem keeps_execSwap {rd : BitVec 5} {rs1 : BitVec 5} {imm : BitVec 14} {env : CoreEnv} {s : State} :
    NextKeeps s (execSwap rd rs1 imm env s) :=
  nextKeeps_issue fun k => keeps_atomicOp k

theorem keeps_execCas {rd : BitVec 5} {rs1 : BitVec 5} {rs2 : BitVec 5} {env : CoreEnv} {s : State} :
    NextKeeps s (execCas rd rs1 rs2 env s) :=
  nextKeeps_issue fun k => keeps_atomicOp k

theorem keeps_execBeq {rs1 : BitVec 5} {rs2 : BitVec 5} {off : BitVec 14} {env : CoreEnv} {s : State} :
    NextKeeps s (execBeq rs1 rs2 off env s) :=
  nextKeeps_issue fun k => keeps_branchOp k

theorem keeps_execBne {rs1 : BitVec 5} {rs2 : BitVec 5} {off : BitVec 14} {env : CoreEnv} {s : State} :
    NextKeeps s (execBne rs1 rs2 off env s) :=
  nextKeeps_issue fun k => keeps_branchOp k

theorem keeps_execBlt {rs1 : BitVec 5} {rs2 : BitVec 5} {off : BitVec 14} {env : CoreEnv} {s : State} :
    NextKeeps s (execBlt rs1 rs2 off env s) :=
  nextKeeps_issue fun k => keeps_branchOp k

theorem keeps_execBge {rs1 : BitVec 5} {rs2 : BitVec 5} {off : BitVec 14} {env : CoreEnv} {s : State} :
    NextKeeps s (execBge rs1 rs2 off env s) :=
  nextKeeps_issue fun k => keeps_branchOp k

theorem keeps_execBltu {rs1 : BitVec 5} {rs2 : BitVec 5} {off : BitVec 14} {env : CoreEnv} {s : State} :
    NextKeeps s (execBltu rs1 rs2 off env s) :=
  nextKeeps_issue fun k => keeps_branchOp k

theorem keeps_execBgeu {rs1 : BitVec 5} {rs2 : BitVec 5} {off : BitVec 14} {env : CoreEnv} {s : State} :
    NextKeeps s (execBgeu rs1 rs2 off env s) :=
  nextKeeps_issue fun k => keeps_branchOp k

theorem keeps_execJmp {off : BitVec 20} {env : CoreEnv} {s : State} :
    NextKeeps s (execJmp off env s) :=
  nextKeeps_issue fun k => keeps_jumpOp k

theorem keeps_execCall {off : BitVec 20} {env : CoreEnv} {s : State} :
    NextKeeps s (execCall off env s) :=
  nextKeeps_issue fun k => keeps_callOp k

theorem keeps_execJalr {rd : BitVec 5} {rs1 : BitVec 5} {imm : BitVec 14} {env : CoreEnv} {s : State} :
    NextKeeps s (execJalr rd rs1 imm env s) :=
  nextKeeps_issue fun k => keeps_jalrOp k

theorem keeps_execEnter {imm : BitVec 14} {env : CoreEnv} {s : State} :
    NextKeeps s (execEnter imm env s) :=
  nextKeeps_issue fun k => keeps_enterInstr k

theorem keeps_execLeave {env : CoreEnv} {s : State} :
    NextKeeps s (execLeave env s) :=
  nextKeeps_issue fun k => keeps_leaveInstr k

theorem keeps_execTdrop {imm : BitVec 14} {env : CoreEnv} {s : State} :
    NextKeeps s (execTdrop imm env s) :=
  nextKeeps_issue fun k => keeps_tdropInstr k

theorem keeps_execTrap {imm : BitVec 11} {env : CoreEnv} {s : State} :
    NextKeeps s (execTrap imm env s) :=
  nextKeeps_issue fun k => keeps_trapInstr k

theorem keeps_execTret {env : CoreEnv} {s : State} :
    NextKeeps s (execTret env s) :=
  nextKeeps_issue fun k => keeps_tretInstr k

theorem keeps_execWfi {env : CoreEnv} {s : State} :
    NextKeeps s (execWfi env s) :=
  nextKeeps_issue fun k => keeps_wfiInstr k

theorem keeps_execFence {imm : BitVec 11} {env : CoreEnv} {s : State} :
    NextKeeps s (execFence imm env s) :=
  nextKeeps_issue fun k => keeps_fenceInstr k

theorem keeps_execMovs {imm : BitVec 11} {rs1 : BitVec 5} {env : CoreEnv} {s : State} :
    NextKeeps s (execMovs imm rs1 env s) :=
  nextKeeps_issue fun k => keeps_movsInstr k

theorem keeps_execMovg {rd : BitVec 5} {imm : BitVec 11} {env : CoreEnv} {s : State} :
    NextKeeps s (execMovg rd imm env s) :=
  nextKeeps_issue fun k => keeps_movgInstr k

theorem keeps_execWflush {env : CoreEnv} {s : State} :
    NextKeeps s (execWflush env s) :=
  nextKeeps_issue fun k => keeps_wflushInstr k

theorem keeps_execInterrupt {t : Nat} {s : State} :
    NextKeeps s (execInterrupt t s) :=
  nextKeeps_onUnits fun k => keeps_interruptRow k

theorem keeps_execNmi {t : Nat} {s : State} :
    NextKeeps s (execNmi t s) :=
  nextKeeps_onUnits fun k => keeps_nmiRow k

theorem keeps_execStoreerr {t : Nat} {s : State} :
    NextKeeps s (execStoreerr t s) :=
  nextKeeps_onUnits fun k => keeps_storeErrRow k

theorem keeps_execStoreFailure {t : Nat} {s : State} :
    NextKeeps s (execStoreFailure t s) :=
  nextKeeps_onUnits fun k => keeps_storeFailure k

theorem keeps_execStoreBufferDrain {t : Nat} {s : State} :
    NextKeeps s (execStoreBufferDrain t s) :=
  nextKeeps_onUnits fun k => keeps_drainOne k

theorem keeps_execEoi {t : Nat} {s : State} :
    NextKeeps s (execEoi t s) :=
  nextKeeps_onUnits fun k => keeps_eoi k

theorem keeps_execSwiset {t : Nat} {n : BitVec 8} {s : State} :
    NextKeeps s (execSwiset t n s) :=
  nextKeeps_onUnits fun k => keeps_swi k

theorem keeps_execSwiclr {t : Nat} {n : BitVec 8} {s : State} :
    NextKeeps s (execSwiclr t n s) :=
  nextKeeps_onUnits fun k => keeps_swi k

theorem keeps_execTimerEnable {t : Nat} {n : Fin 4} {w : Word} {s : State} :
    NextKeeps s (execTimerEnable t n w s) :=
  nextKeeps_onUnits fun k => keeps_timerEnable k

theorem keeps_execTimerExpiry {t : Nat} {n : Fin 4} {s : State} :
    NextKeeps s (execTimerExpiry t n s) :=
  nextKeeps_onUnits fun k => keeps_timerExpiry k

theorem keeps_execLowwspWrite {t : Nat} {s : State} :
    NextKeeps s (execLowwspWrite t s) :=
  nextKeeps_onUnits fun k => keeps_lowWspWrite k

theorem keeps_execWdservice {t : Nat} {v : BitVec 16} {s : State} :
    NextKeeps s (execWdservice t v s) :=
  nextKeeps_onUnits fun k => keeps_wdService k

theorem keeps_execWatchdogTimeout {t : Nat} {s : State} :
    NextKeeps s (execWatchdogTimeout t s) :=
  nextKeeps_onUnits fun k => keeps_wdExpiry k

theorem keeps_execWatchdogWarning {t : Nat} {s : State} :
    NextKeeps s (execWatchdogWarning t s) :=
  nextKeeps_onUnits fun k => keeps_wdWarning k

theorem keeps_execLockstepMismatch {t : Nat} {parity : Bool} {s : State} :
    NextKeeps s (execLockstepMismatch t parity s) :=
  nextKeeps_onUnits fun k => keeps_lockstepMismatch k

theorem keeps_execScrub {t : Nat} {core : Nat} {stripe : Nat} {s : State} :
    NextKeeps s (execScrub t core stripe s) :=
  nextKeeps_onUnits fun k => keeps_scrub k

theorem keeps_execLock {t : Nat} {k : Fin 12} {r : Fin 32} {w : Word} {s : State} :
    NextKeeps s (execLock t k r w s) :=
  nextKeeps_onUnits fun k => keeps_lockRegion k

theorem keeps_execRootselGo {t : Nat} {r : Fin 41} {src : BitVec 2} {idle : Bool} {s : State} :
    NextKeeps s (execRootselGo t r src idle s) :=
  nextKeeps_onUnits fun k => keeps_rootSelWrite k

theorem keeps_execRootSwitchDone {t : Nat} {r : Fin 41} {s : State} :
    NextKeeps s (execRootSwitchDone t r s) :=
  nextKeeps_onUnits fun k => keeps_rootDone k

theorem keeps_execRootSwitchTimeout {t : Nat} {r : Fin 41} {oldAlive : Bool} {s : State} :
    NextKeeps s (execRootSwitchTimeout t r oldAlive s) :=
  nextKeeps_onUnits fun k => keeps_rootTimeout k

theorem keeps_execXinWindowFail {t : Nat} {count : Nat} {ended : Bool} {s : State} :
    NextKeeps s (execXinWindowFail t count ended s) :=
  nextKeeps_onUnits fun k => keeps_xinWindow k

theorem keeps_execXinok1s {t : Nat} {s : State} :
    NextKeeps s (execXinok1s t s) :=
  nextKeeps_onUnits fun k => keeps_xinOk1s k

theorem keeps_execRefclkWindowFail {t : Nat} {count : Nat} {ended : Bool} {s : State} :
    NextKeeps s (execRefclkWindowFail t count ended s) :=
  nextKeeps_onUnits fun k => keeps_refclkWindow k

theorem keeps_execPllLockLoss {t : Nat} {p : Fin 6} {s : State} :
    NextKeeps s (execPllLockLoss t p s) :=
  nextKeeps_onUnits fun k => keeps_pllLoss k

theorem keeps_execPllRetryExpiry {t : Nat} {p : Fin 6} {locked : Bool} {s : State} :
    NextKeeps s (execPllRetryExpiry t p locked s) :=
  nextKeeps_onUnits fun k => keeps_pllRetry k

theorem keeps_execPllReferenceLoss {t : Nat} {p : Fin 6} {returned : Bool} {s : State} :
    NextKeeps s (execPllReferenceLoss t p returned s) :=
  nextKeeps_onUnits fun k => keeps_pllRefLoss k

theorem keeps_execIrc96TrimWindow {t : Nat} {count : Nat} {s : State} :
    NextKeeps s (execIrc96TrimWindow t count s) :=
  nextKeeps_onUnits fun k => keeps_trimWindow k

theorem keeps_execSscApply {t : Nat} {p : Fin 6} {s : State} :
    NextKeeps s (execSscApply t p s) :=
  nextKeeps_onUnits fun k => keeps_sscApply k

theorem keeps_execPlloutWrite {t : Nat} {w : Word} {s : State} :
    NextKeeps s (execPlloutWrite t w s) :=
  nextKeeps_onUnits fun k => keeps_pllOutWrite k

theorem keeps_execClkoutcfgWrite {t : Nat} {n : Fin 2} {w : Word} {s : State} :
    NextKeeps s (execClkoutcfgWrite t n w s) :=
  nextKeeps_onUnits fun k => keeps_clkoutWrite k

theorem keeps_execGateRequest {t : Nat} {r : Fin 3} {b : Fin 16} {idle : Bool} {s : State} :
    NextKeeps s (execGateRequest t r b idle s) :=
  nextKeeps_onUnits fun k => keeps_gateRequest k

theorem keeps_execGateTimeout {t : Nat} {r : Fin 3} {b : Fin 16} {s : State} :
    NextKeeps s (execGateTimeout t r b s) :=
  nextKeeps_onUnits fun k => keeps_gateTimeout k

theorem keeps_execGateOpen {t : Nat} {r : Fin 3} {b : Fin 16} {s : State} :
    NextKeeps s (execGateOpen t r b s) :=
  nextKeeps_onUnits fun k => keeps_gateOpen_ k

theorem keeps_execAlarm {t : Nat} {s : State} :
    NextKeeps s (execAlarm t s) :=
  nextKeeps_always fun k => keeps_alarm k

theorem keeps_execPpsEdge {t : Nat} {cap : BitVec 64} {s : State} :
    NextKeeps s (execPpsEdge t cap s) :=
  nextKeeps_always fun k => keeps_ppsEdge k

theorem keeps_execPpsLoss {t : Nat} {s : State} :
    NextKeeps s (execPpsLoss t s) :=
  nextKeeps_always fun k => keeps_ppsLoss k

theorem keeps_execLeapSecond {t : Nat} {s : State} :
    NextKeeps s (execLeapSecond t s) :=
  nextKeeps_always fun k => keeps_leapSecond k

theorem keeps_execSetTime {t : Nat} {princ : BitVec 4} {d : Bytes} {s : State} :
    NextKeeps s (execSetTime t princ d s) :=
  nextKeeps_onUnits fun k => keeps_procRow k

theorem keeps_execTamperSample {t : Nat} {src : Fin 20} {v : Bool} {s : State} :
    NextKeeps s (execTamperSample t src v s) :=
  nextKeeps_always fun k => keeps_tamperSample k

theorem keeps_execCellOut {t : Nat} {s : State} :
    NextKeeps s (execCellOut t s) :=
  nextKeeps_always fun k => keeps_cellOut k

theorem keeps_execGlitch {t : Nat} {s : State} :
    NextKeeps s (execGlitch t s) :=
  nextKeeps_always fun k => keeps_glitch k

theorem keeps_execXrtcMonitorWindow {t : Nat} {count : Nat} {s : State} :
    NextKeeps s (execXrtcMonitorWindow t count s) :=
  nextKeeps_always fun k => keeps_xrtcWindow k

theorem keeps_execShadowMismatch {t : Nat} {a : Word} {s : State} :
    NextKeeps s (execShadowMismatch t a s) :=
  nextKeeps_always fun k => keeps_shadowMismatch k

theorem keeps_execShadowWrite {t : Nat} {a : Word} {w : Word} {inTime : Bool} {s : State} :
    NextKeeps s (execShadowWrite t a w inTime s) :=
  nextKeeps_onUnits fun k => keeps_feltWrite k

theorem keeps_execTbist {t : Nat} {princ : BitVec 4} {src : BitVec 8} {s : State} :
    NextKeeps s (execTbist t princ src s) :=
  nextKeeps_onUnits fun k => keeps_procRow k

theorem keeps_execTbistDone {t : Nat} {pass : Bool} {s : State} :
    NextKeeps s (execTbistDone t pass s) :=
  nextKeeps_onUnits fun k => keeps_wrapUp (keeps_tbistDone k)

theorem keeps_execSupplySwitchover {t : Nat} {toVbat : Bool} {s : State} :
    NextKeeps s (execSupplySwitchover t toVbat s) :=
  nextKeeps_always fun k => keeps_supplySwitch k

theorem keeps_execFeltWriteLands {t : Nat} {s : State} :
    NextKeeps s (execFeltWriteLands t s) :=
  nextKeeps_always fun k => keeps_feltLand k

theorem keeps_execFuseData {t : Nat} {a : BitVec 10} {d : Word} {temp : Int} {s : State} :
    NextKeeps s (execFuseData t a d temp s) :=
  nextKeeps_onUnits fun k => keeps_fuseCommand k

theorem keeps_execFuseCritical {t : Nat} {a : BitVec 10} {d : Word} {temp : Int} {s : State} :
    NextKeeps s (execFuseCritical t a d temp s) :=
  nextKeeps_onUnits fun k => keeps_fuseCommand k

theorem keeps_execFuseThermo {t : Nat} {a : BitVec 10} {d : Word} {temp : Int} {s : State} :
    NextKeeps s (execFuseThermo t a d temp s) :=
  nextKeeps_onUnits fun k => keeps_fuseCommand k

theorem keeps_execGenroot {t : Nat} {temp : Int} {s : State} :
    NextKeeps s (execGenroot t temp s) :=
  nextKeeps_onUnits fun k => keeps_fuseCommand k

theorem keeps_execFuseProgrammingDone {t : Nat} {good : Nat} {part : Word} {s : State} :
    NextKeeps s (execFuseProgrammingDone t good part s) :=
  nextKeeps_onUnits fun k => keeps_wrapUp (keeps_fuseDone k)

theorem keeps_execFuseResense {t : Nat} {l : List Sense} {temp : Int} {s : State} :
    NextKeeps s (execFuseResense t l temp s) :=
  nextKeeps_onUnits fun k => keeps_fuseResense k

theorem keeps_execLifecycleAdvance {t : Nat} {princ : BitVec 4} {target : BitVec 8} {s : State} :
    NextKeeps s (execLifecycleAdvance t princ target s) :=
  nextKeeps_onUnits fun k => keeps_procRow k

theorem keeps_execCertcmdGo {t : Nat} {s : State} :
    NextKeeps s (execCertcmdGo t s) :=
  nextKeeps_onUnits fun k => keeps_certGo k

theorem keeps_execRecoveryBlock {t : Nat} {d : Bytes} {crcOk : Bool} {s : State} :
    NextKeeps s (execRecoveryBlock t d crcOk s) :=
  nextKeeps_onUnits fun k => keeps_recoveryBlock k

theorem keeps_execFwOffset {t : Nat} {v : Word} {s : State} :
    NextKeeps s (execFwOffset t v s) :=
  nextKeeps_onUnits fun k => keeps_fwOffset k

theorem keeps_execFwChunk {t : Nat} {d : Bytes} {s : State} :
    NextKeeps s (execFwChunk t d s) :=
  nextKeeps_onUnits fun k => keeps_fwChunk k

theorem keeps_execOspiOperationDone {t : Nat} {s : State} :
    NextKeeps s (execOspiOperationDone t s) :=
  nextKeeps_onUnits fun k => keeps_wrapUp (keeps_ospiDone k)

theorem keeps_execFwCommit {t : Nat} {princ : BitVec 4} {s : State} :
    NextKeeps s (execFwCommit t princ s) :=
  nextKeeps_onUnits fun k => keeps_procRow k

theorem keeps_execConfirm {t : Nat} {key : BitVec 16} {temp : Int} {s : State} :
    NextKeeps s (execConfirm t key temp s) :=
  nextKeeps_onUnits fun k => keeps_confirm k

theorem keeps_execWarmRestart {t : Nat} {s : State} :
    NextKeeps s (execWarmRestart t s) :=
  nextKeeps_onUnits fun k => keeps_warmRow k

theorem keeps_execDebugChallenge {t : Nat} {s : State} :
    NextKeeps s (execDebugChallenge t s) :=
  nextKeeps_onUnits fun k => keeps_challengeRow k

theorem keeps_execDebugResponse {t : Nat} {sig : Bytes} {s : State} :
    NextKeeps s (execDebugResponse t sig s) :=
  nextKeeps_onUnits fun k => keeps_debugResponse k

theorem keeps_execDiagpush {t : Nat} {w : Word} {s : State} :
    NextKeeps s (execDiagpush t w s) :=
  nextKeeps_onUnits fun k => keeps_diagPush k

theorem keeps_execStandingReset {t : Nat} {n : BitVec 8} {s : State} :
    NextKeeps s (execStandingReset t n s) :=
  nextKeeps_onUnits fun k => keeps_standingReset k

theorem keeps_execHsBurstEnd {t : Nat} {p : Fin 4} {s : State} :
    NextKeeps s (execHsBurstEnd t p s) :=
  nextKeeps_onUnits fun k => keeps_burstEnd k

theorem keeps_execCanIntegration {t : Nat} {n : Fin 2} {s : State} :
    NextKeeps s (execCanIntegration t n s) :=
  nextKeeps_onUnits fun k => keeps_canIntegration k

theorem keeps_execCanBusError {t : Nat} {n : Fin 2} {tx : Bool} {eight : Bool} {s : State} :
    NextKeeps s (execCanBusError t n tx eight s) :=
  nextKeeps_onUnits fun k => keeps_canBusError k

theorem keeps_execWaitingTimeExpiry {t : Nat} {i : Fin 2} {s : State} :
    NextKeeps s (execWaitingTimeExpiry t i s) :=
  nextKeeps_onUnits fun k => keeps_waitingExpiry k

theorem keeps_execLinkUp {t : Nat} {speed : BitVec 2} {width : BitVec 3} {bme : Bool} {msixEn : Bool} {s : State} :
    NextKeeps s (execLinkUp t speed width bme msixEn s) :=
  nextKeeps_onUnits fun k => keeps_linkUpRow k

theorem keeps_execFlrComplete {t : Nat} {s : State} :
    NextKeeps s (execFlrComplete t s) :=
  nextKeeps_onUnits fun k => keeps_flrComplete k

theorem keeps_execXrtcCycle {t : Nat} {s : State} :
    NextKeeps s (execXrtcCycle t s) :=
  nextKeeps_always fun k => keeps_xrtcCycle k

theorem keeps_execVbatApplied {t : Nat} {above2V : Bool} {s : State} :
    NextKeeps s (execVbatApplied t above2V s) :=
  nextKeeps_always fun k => keeps_vbatApplied k

theorem keeps_execFeltSupplyLoss {t : Nat} {s : State} :
    NextKeeps s (execFeltSupplyLoss t s) :=
  nextKeeps_always fun k => keeps_feltSupplyLoss k

theorem keeps_execPowerUpPmicEn {t : Nat} {s : State} :
    NextKeeps s (execPowerUpPmicEn t s) :=
  nextKeeps_always fun k => keeps_powerUp k

theorem keeps_devWrite {a : Nat} {w : Word} {env : WriteEnv} {s0 s : State} (hk : Keeps s0 s) : NextKeeps s0 (devWrite a w env s) := by
  unfold devWrite
  exact .ite (.refused _ _) (.ite (.fault _ _) (.ite (.next (keeps_coreWrite hk)) (.ite (.fault _ _) (.next (keeps_regWrite hk)))))

theorem keeps_execRegisterWrite {t : Nat} {a : RegAddr} {w : Word} {env : WriteEnv} {s : State} :
    NextKeeps s (execRegisterWrite t a w env s) := by
  have ka := keeps_State_at (.refl s) (n := t)
  unfold execRegisterWrite
  extract_lets b
  refine .ite (.next ka) ?_
  split
  · exact keeps_devWrite ka
  · exact .next (Keeps.ite (keeps_bar0Write ka) ka)
  · exact .next (Keeps.ite (keeps_bar2Write ka) ka)

theorem keeps_execIllegalInstruction {w : Word} {env : CoreEnv} {s : State} : NextKeeps s (execIllegalInstruction w env s) :=
  .ite (.refused _ _) (nextKeeps_issue fun k => keeps_illegal k)

/-- What every command keeps. -/
theorem keeps_exec (c : Instr) (s : State) : NextKeeps s (exec c s) := by
  cases c
  · exact keeps_execRefFrameStart
  · exact keeps_execFlywheelFrameStart
  · exact keeps_execReflostTakeover
  · exact keeps_execFrameEnd
  · exact keeps_execLineTick
  · exact keeps_execCommitPointTimer
  · exact keeps_execFsyncOutFramePulse
  · exact keeps_execPulseEnd
  · exact keeps_execCanvasDisable
  · exact keeps_execCanvasEnable
  · exact keeps_execApply
  · exact keeps_execLongPacket
  · exact keeps_execFsPacket
  · exact keeps_execFePacket
  · exact keeps_execDeskewSequence
  · exact keeps_execByteAccepted
  · exact keeps_execStripeRecordWritten
  · exact keeps_execInval
  · exact keeps_execDoorbell
  · exact keeps_execDescriptorFetchDone
  · exact keeps_execDoorDataReadDone
  · exact keeps_execDoorDisable
  · exact keeps_execAnchorNow
  · exact keeps_execAnchorSigned
  · exact keeps_execEpochNow
  · exact keeps_execTimemapNow
  · exact keeps_execTimemapPeriod
  · exact keeps_execEpochSequenceStart
  · exact keeps_execEpochKeygenDone
  · exact keeps_execEpochSigned
  · exact keeps_execKeywrap
  · exact keeps_execKeywrapDone
  · exact keeps_execAlloc
  · exact keeps_execZeroize
  · exact keeps_execNarrow
  · exact keeps_execGenerate
  · exact keeps_execImportKey
  · exact keeps_execKeymove
  · exact keeps_execRestore
  · exact keeps_execFeltWriteThroughDone
  · exact keeps_execDigestSubmit
  · exact keeps_execDigestJobStart
  · exact keeps_execDigestJobDone
  · exact keeps_execDigestAbort
  · exact keeps_execCipherSubmit
  · exact keeps_execCipherJobStart
  · exact keeps_execCipherJobDone
  · exact keeps_execCipherAbort
  · exact keeps_execCtxselCommit
  · exact keeps_execStripeEncrypt
  · exact keeps_execLaneMismatch
  · exact keeps_execSelftest
  · exact keeps_execHealthTestFailure
  · exact keeps_execStartUpTestDone
  · exact keeps_execDrbgRequest
  · exact keeps_execDrbgWaitExpiry
  · exact keeps_execOutRead
  · exact keeps_execPkSubmit
  · exact keeps_execPkJobStart
  · exact keeps_execPkJobDone
  · exact keeps_execPreempt
  · exact keeps_execPkAbort
  · exact keeps_execPkGate
  · exact keeps_execPkWipeDone
  · exact keeps_execNandOperationDone
  · exact keeps_execNandOperationIssue
  · exact keeps_execMediaInit
  · exact keeps_execPairdataWrite
  · exact keeps_execRrdataWrite
  · exact keeps_execOffdataWrite
  · exact keeps_execSuperpageProgram
  · exact keeps_execFillmaxExpiry
  · exact keeps_execPairmaxExpiry
  · exact keeps_execProbe
  · exact keeps_execScrubPatrol
  · exact keeps_execOperationOverdue
  · exact keeps_execOperationTimeout
  · exact keeps_execRbstuckExpiry
  · exact keeps_execEncoderLaneFailure
  · exact keeps_execRdabort
  · exact keeps_execCheckpointNow
  · exact keeps_execCheckpointStart
  · exact keeps_execCheckpointDone
  · exact keeps_execTimeck
  · exact keeps_execMramScrub
  · exact keeps_execFieldSensorAssert
  · exact keeps_execFieldSensorDeassert
  · exact keeps_execHoldRelease
  · exact keeps_execNsPurge
  · exact keeps_execSegmentAllocation
  · exact keeps_execSegmentEraseDone
  · exact keeps_execGcCopy
  · exact keeps_execReadJobEnd
  · exact keeps_execTablePagesRead
  · exact keeps_execPfailNFall
  · exact keeps_execLastBreathFlush
  · exact keeps_execNandPark
  · exact keeps_execPark
  · exact keeps_execOpenRecording
  · exact keeps_execIgnitionPark
  · exact keeps_execWake
  · exact keeps_execWarmporHold
  · exact keeps_execPor
  · exact keeps_execSupplyMonitorFall
  · exact keeps_execFullReset
  · exact keeps_execRstreq
  · exact keeps_execReset
  · exact keeps_execRstNFall
  · exact keeps_execRstNRise
  · exact keeps_execRstholdMaxExpiry
  · exact keeps_execRstNRearm
  · exact keeps_execPfailStuckCheck
  · exact keeps_execIngestOpenAfterPfail
  · exact keeps_execRecordingResume
  · exact keeps_execRead
  · exact keeps_execWrite
  · exact keeps_execReadSeg
  · exact keeps_execWriteSeg
  · exact keeps_execSegment
  · exact keeps_execBlockAck
  · exact keeps_execAbort
  · exact keeps_execBlockGapExpiry
  · exact keeps_execSegtmoExpiry
  · exact keeps_execLsubmit
  · exact keeps_execFwrsp
  · exact keeps_execFwtmoExpiry
  · exact keeps_execFwserve
  · exact keeps_execRestoreDefaults
  · exact keeps_execClearSticky
  · exact keeps_execCanFrameReceive
  · exact keeps_execSessionOpen
  · exact keeps_execResponse
  · exact keeps_execPhase3Timeout
  · exact keeps_execSessionClose
  · exact keeps_execIdleExpiry
  · exact keeps_execSuspendExpiry
  · exact keeps_execHeartbeat
  · exact keeps_execHeartbeatPeriod
  · exact keeps_execFwnotify
  · exact keeps_execTxreq
  · exact keeps_execTxcancel
  · exact keeps_execCanTxDone
  · exact keeps_execSessCloseGo
  · exact keeps_execBusOff
  · exact keeps_execBusOffRecovery
  · exact keeps_execCctrlModeWrite
  · exact keeps_execStuck
  · exact keeps_execStuckRecheck
  · exact keeps_execTscntWrap
  · exact keeps_execPop
  · exact keeps_execRspvalidClear
  · exact keeps_execLinkLoss
  · exact keeps_execStart
  · exact keeps_execFirstPassDone
  · exact keeps_execRdptrWrite
  · exact keeps_execStatusBlock
  · exact keeps_execStallExpiry
  · exact keeps_execReadDoorAbort
  · exact keeps_execReadDoorCompletion
  · exact keeps_execVselWrite
  · exact keeps_execInsertion
  · exact keeps_execCardReady
  · exact keeps_execRemoval
  · exact keeps_execCmd
  · exact keeps_execCardTransferDone
  · exact keeps_execPabort
  · exact keeps_execBusyTimeout
  · exact keeps_execRetuneTrigger
  · exact keeps_execRetuneStep
  · exact keeps_execReinit
  · exact keeps_execSleep
  · exact keeps_execExportStart
  · exact keeps_execExportAbort
  · exact keeps_execExportCompletion
  · exact keeps_execCourtCopy
  · exact keeps_execCourtCopyTimeout
  · exact keeps_execPresence
  · exact keeps_execActivate
  · exact keeps_execAtr
  · exact keeps_execAtrTimeout
  · exact keeps_execPpsResponse
  · exact keeps_execDeact
  · exact keeps_execIoStuck
  · exact keeps_execOvercurrent
  · exact keeps_execClockStop
  · exact keeps_execTxfifoWrite
  · exact keeps_execCharacterReceived
  · exact keeps_execAuthctlStart
  · exact keeps_execAuthrspWrite
  · exact keeps_execPreq
  · exact keeps_execAdd
  · exact keeps_execSub
  · exact keeps_execAnd
  · exact keeps_execOr
  · exact keeps_execXor
  · exact keeps_execAndn
  · exact keeps_execSll
  · exact keeps_execSrl
  · exact keeps_execSra
  · exact keeps_execRor
  · exact keeps_execSlt
  · exact keeps_execSltu
  · exact keeps_execMin
  · exact keeps_execMax
  · exact keeps_execMinu
  · exact keeps_execMaxu
  · exact keeps_execCsel
  · exact keeps_execClz
  · exact keeps_execCtz
  · exact keeps_execPopc
  · exact keeps_execBswap
  · exact keeps_execSextb
  · exact keeps_execSexth
  · exact keeps_execZexth
  · exact keeps_execMul
  · exact keeps_execMulh
  · exact keeps_execMulhu
  · exact keeps_execMulhsu
  · exact keeps_execDiv
  · exact keeps_execDivu
  · exact keeps_execRem
  · exact keeps_execRemu
  · exact keeps_execAddi
  · exact keeps_execAndi
  · exact keeps_execOri
  · exact keeps_execXori
  · exact keeps_execSlti
  · exact keeps_execSltiu
  · exact keeps_execSlli
  · exact keeps_execSrli
  · exact keeps_execSrai
  · exact keeps_execRori
  · exact keeps_execLui
  · exact keeps_execPca
  · exact keeps_execLb
  · exact keeps_execLbu
  · exact keeps_execLh
  · exact keeps_execLhu
  · exact keeps_execLw
  · exact keeps_execSb
  · exact keeps_execSh
  · exact keeps_execSw
  · exact keeps_execSwap
  · exact keeps_execCas
  · exact keeps_execBeq
  · exact keeps_execBne
  · exact keeps_execBlt
  · exact keeps_execBge
  · exact keeps_execBltu
  · exact keeps_execBgeu
  · exact keeps_execJmp
  · exact keeps_execCall
  · exact keeps_execJalr
  · exact keeps_execEnter
  · exact keeps_execLeave
  · exact keeps_execTdrop
  · exact keeps_execTrap
  · exact keeps_execTret
  · exact keeps_execWfi
  · exact keeps_execFence
  · exact keeps_execMovs
  · exact keeps_execMovg
  · exact keeps_execWflush
  · exact keeps_execInterrupt
  · exact keeps_execNmi
  · exact keeps_execStoreerr
  · exact keeps_execStoreFailure
  · exact keeps_execStoreBufferDrain
  · exact keeps_execEoi
  · exact keeps_execSwiset
  · exact keeps_execSwiclr
  · exact keeps_execTimerEnable
  · exact keeps_execTimerExpiry
  · exact keeps_execLowwspWrite
  · exact keeps_execWdservice
  · exact keeps_execWatchdogTimeout
  · exact keeps_execWatchdogWarning
  · exact keeps_execLockstepMismatch
  · exact keeps_execScrub
  · exact keeps_execLock
  · exact keeps_execRootselGo
  · exact keeps_execRootSwitchDone
  · exact keeps_execRootSwitchTimeout
  · exact keeps_execXinWindowFail
  · exact keeps_execXinok1s
  · exact keeps_execRefclkWindowFail
  · exact keeps_execPllLockLoss
  · exact keeps_execPllRetryExpiry
  · exact keeps_execPllReferenceLoss
  · exact keeps_execIrc96TrimWindow
  · exact keeps_execSscApply
  · exact keeps_execPlloutWrite
  · exact keeps_execClkoutcfgWrite
  · exact keeps_execGateRequest
  · exact keeps_execGateTimeout
  · exact keeps_execGateOpen
  · exact keeps_execAlarm
  · exact keeps_execPpsEdge
  · exact keeps_execPpsLoss
  · exact keeps_execLeapSecond
  · exact keeps_execSetTime
  · exact keeps_execTamperSample
  · exact keeps_execCellOut
  · exact keeps_execGlitch
  · exact keeps_execXrtcMonitorWindow
  · exact keeps_execShadowMismatch
  · exact keeps_execShadowWrite
  · exact keeps_execTbist
  · exact keeps_execTbistDone
  · exact keeps_execSupplySwitchover
  · exact keeps_execFeltWriteLands
  · exact keeps_execFuseData
  · exact keeps_execFuseCritical
  · exact keeps_execFuseThermo
  · exact keeps_execGenroot
  · exact keeps_execFuseProgrammingDone
  · exact keeps_execFuseResense
  · exact keeps_execLifecycleAdvance
  · exact keeps_execCertcmdGo
  · exact keeps_execRecoveryBlock
  · exact keeps_execFwOffset
  · exact keeps_execFwChunk
  · exact keeps_execOspiOperationDone
  · exact keeps_execFwCommit
  · exact keeps_execConfirm
  · exact keeps_execWarmRestart
  · exact keeps_execDebugChallenge
  · exact keeps_execDebugResponse
  · exact keeps_execDiagpush
  · exact keeps_execStandingReset
  · exact keeps_execRegisterWrite
  · exact keeps_execIllegalInstruction
  · exact keeps_execHsBurstEnd
  · exact keeps_execCanIntegration
  · exact keeps_execCanBusError
  · exact keeps_execWaitingTimeExpiry
  · exact keeps_execLinkUp
  · exact keeps_execFlrComplete
  · exact keeps_execXrtcCycle
  · exact keeps_execVbatApplied
  · exact keeps_execFeltSupplyLoss
  · exact keeps_execPowerUpPmicEn

/-- What every step keeps, but for the queue: time, the canonical form, Serge's windows, the fuses. -/
theorem keeps_step_rest {c : Instr} {q : List Instr} {s t : State} (hp : s.pending = c :: q) (h : step s = .next t) :
    Keeps { s with pending := q } t := by
  unfold step at h
  rw [hp] at h
  exact keeps_exec c _ t h

end Sys2Proof.Laws
end

