-- ==== Sys2Proof/Laws/Registers.lean ====
section
/-!
SUPPORT. Reads of registers after writes: a register, a field, a flag and a counter read back what was put into them, and every
other register reads as before.
-/

namespace Sys2Proof.Laws

open Sys2Proof Sys2Proof.Machine

/-- A register reads back the word put into it. -/
@[simp] theorem rd_wr_self (s : State) (a : Nat) (w : Word) : (s.wr a w).rd a = w := sget_sset_self _ _ _ _

/-- Every other register reads as before. -/
theorem rd_wr_other (s : State) {a b : Nat} (w : Word) (h : b ≠ a) : (s.wr a w).rd b = s.rd b := sget_sset_other _ _ _ _ _ h

/-- Bit `i` of a word with a field replaced. -/
theorem bit_setBits (w : Word) (hi lo v i : Nat) (h : i < 32) :
    bit (setBits w hi lo v) i = if lo ≤ i ∧ i < hi + 1 then v.testBit (i - lo) else bit w i := by
  unfold bit setBits
  simp only [BitVec.getLsbD_or, BitVec.getLsbD_and, BitVec.getLsbD_not, BitVec.getLsbD_ofNat, Nat.testBit_shiftLeft,
    Nat.testBit_two_pow_sub_one, h, decide_true, Bool.true_and]
  by_cases h1 : lo ≤ i
  · by_cases h2 : i < hi + 1
    · have : i - lo < hi + 1 - lo := by omega
      simp [h1, h2, this]
    · have : ¬ i - lo < hi + 1 - lo := by omega
      simp [h1, h2, this]
  · simp [h1]

/-- A bit reads back what was put into it. -/
@[simp] theorem bit_setBit_self (w : Word) (i : Nat) (b : Bool) (h : i < 32) : bit (setBit w i b) i = b := by
  unfold setBit; rw [bit_setBits _ _ _ _ _ h]; cases b <;> simp

/-- Every other bit reads as before. -/
theorem bit_setBit_other (w : Word) {i j : Nat} (b : Bool) (hj : j < 32) (h : j ≠ i) : bit (setBit w i b) j = bit w j := by
  unfold setBit; rw [bit_setBits _ _ _ _ _ hj, if_neg (by omega)]

/-- A flag reads back what was put into it. -/
@[simp] theorem flag_setFlag_self (s : State) (a i : Nat) (b : Bool) (h : i < 32) : (s.setFlag a i b).flag a i = b := by
  unfold State.setFlag State.setFld State.flag
  rw [rd_wr_self]; exact bit_setBit_self _ _ _ h

/-- Every other flag reads as before. -/
theorem flag_setFlag_other (s : State) {a c i j : Nat} (b : Bool) (hj : j < 32) (h : c ≠ a ∨ j ≠ i) :
    (s.setFlag a i b).flag c j = s.flag c j := by
  unfold State.setFlag State.setFld State.flag
  by_cases e : c = a
  · subst e
    rw [rd_wr_self]; exact bit_setBit_other _ _ hj (h.resolve_left (fun k => k rfl))
  · rw [rd_wr_other _ _ e]

/-- A raised event flag reads 1. -/
@[simp] theorem flag_raise_self (s : State) (a i : Nat) (h : i < 32) : (s.raise a i).flag a i = true := flag_setFlag_self _ _ _ _ h

/-- Every other flag reads as before. -/
theorem flag_raise_other (s : State) {a c i j : Nat} (hj : j < 32) (h : c ≠ a ∨ j ≠ i) : (s.raise a i).flag c j = s.flag c j :=
  flag_setFlag_other s _ hj h

/-- A bit of a field, by the field's number. -/
theorem bits_testBit (w : Word) (hi lo i : Nat) : (bits w hi lo).testBit i = (decide (i < hi + 1 - lo) && bit w (lo + i)) := by
  unfold bits bit
  rw [Nat.testBit_mod_two_pow, Nat.testBit_shiftRight]; rfl

/-- A field reads back the low bits of what was put into it. -/
theorem bits_setBits_self (w : Word) (hi lo v : Nat) (h : hi < 32) : bits (setBits w hi lo v) hi lo = v % 2 ^ (hi + 1 - lo) := by
  apply Nat.eq_of_testBit_eq
  intro i
  rw [bits_testBit, Nat.testBit_mod_two_pow]
  by_cases hi' : i < hi + 1 - lo
  · rw [bit_setBits _ _ _ _ _ (by omega), if_pos (by omega)]
    simp [hi']
  · simp [hi']

/-- A field of a register reads back what fits of what was put into it. -/
theorem fld_setFld_self (s : State) (a hi lo v : Nat) (h : hi < 32) : (s.setFld a hi lo v).fld a hi lo = v % 2 ^ (hi + 1 - lo) := by
  unfold State.setFld State.fld
  rw [rd_wr_self]; exact bits_setBits_self _ _ _ _ h

/-- The fields of every other register read as before. -/
theorem fld_setFld_other (s : State) {a b : Nat} (hi lo v hi' lo' : Nat) (h : b ≠ a) :
    (s.setFld a hi lo v).fld b hi' lo' = s.fld b hi' lo' := by
  unfold State.setFld State.fld
  rw [rd_wr_other _ _ h]

/-- A byte of memory reads back. -/
@[simp] theorem byte_setByte_self (s : State) (a : Nat) (b : Byte) : (s.setByte a b).byte a = b := sget_sset_self _ _ _ _

/-- Every other byte reads as before. -/
theorem byte_setByte_other (s : State) {a c : Nat} (b : Byte) (h : c ≠ a) : (s.setByte a b).byte c = s.byte c :=
  sget_sset_other _ _ _ _ _ h

/-- What a store leaves at an address: the byte stored there, or what stood there. -/
theorem byte_store (s : State) (a : Nat) (bs : Bytes) (c : Nat) :
    (s.store a bs).byte c = if a ≤ c ∧ c < a + bs.length then bs.getD (c - a) 0 else s.byte c := by
  induction bs generalizing s a with
  | nil =>
    rw [if_neg (by rw [List.length_nil]; omega)]
    rfl
  | cons b bs ih =>
    rw [State.store, ih]
    by_cases h : c = a
    · subst h
      rw [if_neg (by omega), byte_setByte_self, if_pos ⟨Nat.le_refl _, by simp⟩]
      simp
    · rw [byte_setByte_other _ _ h]
      by_cases h1 : a + 1 ≤ c ∧ c < a + 1 + bs.length
      · rw [if_pos h1, if_pos ⟨by omega, by simp; omega⟩]
        rw [show c - a = (c - (a + 1)) + 1 by omega]
        simp
      · rw [if_neg h1, if_neg]
        simp only [List.length_cons]
        omega

end Sys2Proof.Laws
end

