-- ==== Sys2Proof/Tests/Slice0.lean ====
section
/-!
SUPPORT. Tests: the checks of WellFormed refuse an ill-formed term each, the words of Serge's instructions are those of the encodings,
one small test for each family, and for every statement a state and operands that meet its hypotheses.
-/

namespace Sys2Proof.Tests

set_option Elab.async false

open Sys2Proof Sys2Proof.Machine

/-! ## What the tests ask -/

/-- The blocks act, as a Bool. -/
def actsB (l : List (Nat × Nat)) (t : Nat) (s : State) : Bool :=
  (s.at t).live && l.all (fun u => !(s.at t).gated u.1 u.2) && l.all (fun u => !s.tweed.lost.contains u)

theorem acts_of {l : List (Nat × Nat)} {t : Nat} {s : State} (h : actsB l t s = true) : Acts l t s := by
  simp only [actsB, Bool.and_eq_true, List.all_eq_true, Bool.not_eq_true'] at h
  exact ⟨h.1.1, h.1.2, h.2⟩

/-- An effect that goes on in a state with a property. -/
def okIn (a : Act Unit) (p : State → Bool) : Bool := match a with | .ok _ t => p t | _ => false

/-- An access that is admitted with an attribute, in a state with a property. -/
def okAttr (a : Act Attr) (p : Attr → State → Bool) : Bool := match a with | .ok x t => p x t | _ => false

/-- No wait and no fault: the instruction's environment. -/
def env0 : CoreEnv := {}

/-- Serge issues, and the state in which it executes has a property. -/
def issuesB (s : State) (p : State → Bool) : Bool :=
  !stalled (s.at 0) && (boundaryTrap (s.at 0)).isNone &&
    okIn (fetchCheck env0 ((s.at 0).onSerge fun c => { c with waiting := false })) p

theorem okIn_spec {a : Act Unit} {p : State → Bool} (h : okIn a p = true) : ∃ t, a = .ok () t ∧ p t = true := by
  cases a with
  | ok x t => exact ⟨t, rfl, h⟩
  | _ => simp [okIn] at h

theorem okAttr_spec {a : Act Attr} {p : Attr → State → Bool} (h : okAttr a p = true) : ∃ x t, a = .ok x t ∧ p x t = true := by
  cases a with
  | ok x t => exact ⟨x, t, rfl, h⟩
  | _ => simp [okAttr] at h

theorem issues_of {s : State} {p : State → Bool} (h : issuesB s p = true) : ∃ s', Issues env0 s s' ∧ p s' = true := by
  simp only [issuesB, Bool.and_eq_true, Bool.not_eq_true', Option.isNone_iff_eq_none] at h
  obtain ⟨t, h1, h2⟩ := okIn_spec h.2
  exact ⟨t, ⟨h.1.1, h.1.2, h1⟩, h2⟩

/-- What exec answers has a property and is a next state. -/
def nextB (o : Host.Outcome State Fault Refusal) (p : State → Bool) : Bool := match o with | .next t => p t | _ => false

/-- What exec answers is this fault or this refusal. -/
def stopsB (o : Host.Outcome State Fault Refusal) (f : Option Fault) (r : Option Refusal) : Bool :=
  match o with | .fault x => f == some x | .refused x => r == some x | .next _ => false

/-! ## Small states -/

/-- The state after reset. -/
def z : State := State.reset

/-- Serge at reset with three registers of its current window set. -/
def regs3 (c2 c3 c5 : Word) : State := z.onSerge fun c => ((c.setX 2 c2).setX 3 c3).setX 5 c5

/-- User mode, with a region that admits its fetches from the ROM. -/
def user : State :=
  ((((z.wr (rCHK_CFG 0 0) 0x15#32).wr (rCHK_LIMIT 0 0) 0x7F000#32).wr (rCHK_MASKLO 0 0) 2#32).onSerge fun c => { c with priv := false })

/-- The trap window. -/
def trapped : State := z.onSerge fun c => { c with tw := true, epc := 0x40#32, epstat := 1#32 }

/-! ## Well-formedness refuses -/

theorem test_wf_longPacket : Instr.wf (.longPacket 0 0 0 0 1 [1, 2] .ok true) = false := by decide
theorem test_wf_descriptor : Instr.wf (.descriptorFetchDone 0 0 true (zeros 31)) = false := by decide
theorem test_wf_doorData : Instr.wf (.doorDataReadDone 0 0 true (zeros 513)) = false := by decide +kernel
theorem test_wf_canLength : Instr.wf (.canFrameReceive 0 0 { data := zeros 9 } 0 {} false) = false := by decide
theorem test_wf_canId : Instr.wf (.canFrameReceive 0 0 { id := 2 ^ 11, xtd := false } 0 {} false) = false := by decide
theorem test_wf_request : Instr.wf (.read 0 (.ydp 0 0 (zeros 65)) {} false) = false := by decide
theorem test_wf_sessionOpen : Instr.wf (.sessionOpen 0 0 0 (zeros 65)) = false := by decide
theorem test_wf_response : Instr.wf (.response 0 0 0 (zeros 65)) = false := by decide
theorem test_wf_cardReady : Instr.wf (.cardReady 0 0 { cid := zeros 15 }) = false := by decide
theorem test_wf_cardTransfer : Instr.wf (.cardTransferDone 0 0 (.done [0, 0, 0, 0, 0] [])) = false := by decide
theorem test_wf_recoveryBlock : Instr.wf (.recoveryBlock 0 (zeros 1023) true) = false := by decide +kernel
theorem test_wf_debugResponse : Instr.wf (.debugResponse 0 (zeros 63)) = false := by decide
theorem test_wf_registerAddress : Instr.wf (.registerWrite 0 (.dev 0x40000002#32) 0 {}) = false := by decide
theorem test_wf_illegalWord : Instr.wf (.illegalInstruction 0x0B000005#32 {}) = false := by decide

/-! ## Words that are instructions (table *Code* of 14_serge_core.md), and one that is not -/

theorem test_allocated : [0x0B000005#32, 0x6C00003F#32, 0x74000004#32, 0x03084000#32, 0x74004000#32, 0x701F0000#32, 0x01180000#32].all
    allocated = true ∧ allocated 0xFFFFFFFF#32 = false := by decide

/-! ## Witnesses: the machine and Serge -/

theorem witness_StepRunsFrontCommand : z.pending = [] ∧ ({ z with pending := [.timeck 0] } : State).pending = .timeck 0 :: [] := by decide +kernel

theorem witness_StepKeepsCanonicalForm : Memory.wf z = true ∧ nextB (step { z with pending := [.timeck 0] }) (fun _ => true) = true := by
  decide +kernel

theorem witness_StepKeepsWindowsConsistent :
    Core.wf z.serge = true ∧ nextB (step { z with pending := [.enter 4#14 env0] }) (fun t => decide (t.serge.count = 2)) = true := by
  decide +kernel

theorem witness_FuseBitsNeverReturn : nextB (step { z with pending := [.fuseData 0 200#10 1#32 250] }) (fun _ => true) = true := by decide +kernel

/-- Serge issues at reset, with its windows consistent: the hypotheses of the statements of register instructions. -/
theorem witness_ArithmeticAndLogicResults : ∃ s', Issues env0 z s' ∧ Core.wf s'.serge = true := issues_of (by decide +kernel)
theorem witness_ShiftResults : ∃ s', Issues env0 z s' ∧ Core.wf s'.serge = true := witness_ArithmeticAndLogicResults
theorem witness_CompareCountAndExtendResults : ∃ s', Issues env0 z s' ∧ Core.wf s'.serge = true := witness_ArithmeticAndLogicResults
theorem witness_MultiplyResults : ∃ s', Issues env0 z s' ∧ Core.wf s'.serge = true := witness_ArithmeticAndLogicResults
theorem witness_BranchResults : ∃ s', Issues env0 z s' ∧ Core.wf s'.serge = true := witness_ArithmeticAndLogicResults
theorem witness_JumpResults : ∃ s', Issues env0 z s' ∧ Core.wf s'.serge = true := witness_ArithmeticAndLogicResults

/-- The divisors 0 and −1 and the dividend 0x8000_0000, each clause's own. -/
theorem witness_DivideResults :
    (∃ s', Issues env0 (regs3 0 0x80000000#32 0xFFFFFFFF#32) s' ∧
      (Core.wf s'.serge && decide (s'.x 2 = 0 ∧ s'.x 3 = 0x80000000#32 ∧ s'.x 5 = 0xFFFFFFFF#32)) = true) ∧
    (∃ s', Issues env0 (regs3 1 0x80000000#32 0xFFFFFFFE#32) s' ∧
      (Core.wf s'.serge && decide (s'.x 2 ≠ 0 ∧ s'.x 5 ≠ 0xFFFFFFFF#32)) = true) :=
  ⟨issues_of (by decide +kernel), issues_of (by decide +kernel)⟩

/-- Core SRAM at its first and last bytes, read, written and both. -/
theorem witness_LoadResults : env0.data = .ok ∧
    (∃ s', Issues env0 (regs3 0x10000000#32 0x101FFFFC#32 0) s' ∧ (Core.wf s'.serge &&
      okAttr (request [.read] (s'.x 2 + (0#14).signExtend 32).toNat 1 s') (fun a t => decide (t = s' ∧ a.ord = 0)) &&
      okAttr (request [.read] (s'.x 2 + (0#14).signExtend 32).toNat 2 s') (fun a t => decide (t = s' ∧ a.ord = 0)) &&
      inCore (s'.x 3 + (0#14).signExtend 32).toNat 4 &&
      okAttr (request [.read] (s'.x 3 + (0#14).signExtend 32).toNat 4 s') (fun a t => decide (t = s' ∧ a.ord = 0))) = true) :=
  ⟨rfl, issues_of (by decide +kernel)⟩

theorem witness_StoresAreSeen : env0.data = .ok ∧
    (∃ s', Issues env0 (regs3 0x10000001#32 0x10000002#32 0x101FFFFC#32) s' ∧ (Core.wf s'.serge &&
      okAttr (request [.write] (s'.x 2 + (0#14).signExtend 32).toNat 1 s') (fun _ t => decide (t = s')) &&
      okAttr (request [.write] (s'.x 3 + (0#14).signExtend 32).toNat 2 s') (fun _ t => decide (t = s')) &&
      okAttr (request [.write] (s'.x 5 + (0#14).signExtend 32).toNat 4 s') (fun _ t => decide (t = s'))) = true) :=
  ⟨rfl, issues_of (by decide +kernel)⟩

/-- A swap, and compares that find the old word and that do not. -/
theorem witness_AtomicResults : env0.data = .ok ∧
    (∃ s', Issues env0 (regs3 0x10000000#32 0 1) s' ∧ (Core.wf s'.serge && inCore (s'.x 2).toNat 4 &&
      okAttr (request [.read, .write] (s'.x 2).toNat 4 s') (fun _ t => decide (t = s')) &&
      decide (byteSeen s' 0x10000003 ++ byteSeen s' 0x10000002 ++ byteSeen s' 0x10000001 ++ byteSeen s' 0x10000000 = s'.x 3) &&
      decide (byteSeen s' 0x10000003 ++ byteSeen s' 0x10000002 ++ byteSeen s' 0x10000001 ++ byteSeen s' 0x10000000 ≠ s'.x 5)) = true) :=
  ⟨rfl, issues_of (by decide +kernel)⟩

theorem witness_MisalignedAccessTraps : ∃ s', Issues env0 (regs3 0x10000001#32 0x10000002#32 0) s' ∧
    (decide (s'.serge.tw = false ∧ (s'.x 2).toNat % 2 ≠ 0 ∧ (s'.x 3).toNat % 4 ≠ 0)) = true := issues_of (by decide +kernel)

/-- A store waits in the buffer. -/
def oneStore : State := z.onSerge fun c => { c with buf := [{ addr := 0x10000010, size := 2, data := 0xABCD#32 }] }

theorem witness_DrainingIsNotSeen : Acts [] 0 oneStore ∧ nextB (exec (.storeBufferDrain 0) oneStore) (fun _ => true) = true ∧
    inCore 0x10000010 1 = true := ⟨acts_of (by decide +kernel), by decide +kernel⟩

/-- Windows with 13, 14 and 1 resident frames, and a WSP that leaves room below it, above it, or none. -/
theorem witness_EnterResults :
    (∃ s', Issues env0 (z.onSerge fun c => { c with cwp := 12, count := 13 }) s' ∧
      (Core.wf s'.serge && decide (s'.serge.tw = false ∧ s'.serge.count < 14)) = true) ∧
    (∃ s', Issues env0 (z.onSerge fun c => { c with cwp := 13, count := 14 }) s' ∧ (Core.wf s'.serge &&
      decide (s'.serge.tw = false ∧ s'.serge.count = 14 ∧ 64 ≤ wsp s' ∧ (s'.rd rSPILL_WSL).toNat ≤ wsp s' - 64) &&
      okIn (spillAccess .write (wsp s' - 64) (drainAll s')) (fun _ => true)) = true) ∧
    (∃ s', Issues env0 ((z.onSerge fun c => { c with cwp := 13, count := 14 }).wr rSPILL_WSP 0x101FC000#32) s' ∧ (Core.wf s'.serge &&
      decide (s'.serge.tw = false ∧ s'.serge.count = 14 ∧ 64 ≤ wsp s' ∧ wsp s' - 64 < (s'.rd rSPILL_WSL).toNat)) = true) :=
  ⟨issues_of (by decide +kernel), issues_of (by decide +kernel), issues_of (by decide +kernel)⟩

theorem witness_LeaveResults : env0.data = .ok ∧
    (∃ s', Issues env0 (z.onSerge fun c => { c with cwp := 1, count := 2 }) s' ∧
      (Core.wf s'.serge && decide (s'.serge.tw = false ∧ 1 < s'.serge.count)) = true) ∧
    (∃ s', Issues env0 (z.wr rSPILL_WSP 0x101FFFC0#32) s' ∧ (Core.wf s'.serge &&
      decide (s'.serge.tw = false ∧ s'.serge.count = 1 ∧ wsp s' + 64 < 2 ^ 32 ∧ wsp s' + 64 ≤ (s'.rd rSPILL_WSB).toNat) &&
      okIn (spillAccess .read (wsp s') (drainAll s')) (fun _ => true)) = true) ∧
    (∃ s', Issues env0 z s' ∧ (Core.wf s'.serge &&
      decide (s'.serge.tw = false ∧ s'.serge.count = 1 ∧ wsp s' + 64 < 2 ^ 32 ∧ (s'.rd rSPILL_WSB).toNat < wsp s' + 64)) = true) :=
  ⟨rfl, issues_of (by decide +kernel), issues_of (by decide +kernel), issues_of (by decide +kernel)⟩

/-- The trap window; and outside it one frame, and two frames that a flush spills. -/
theorem witness_TdropAndWflush :
    (∃ s', Issues env0 trapped s' ∧ (Core.wf s'.serge && decide (s'.serge.tw = true ∧ s'.serge.count < 14)) = true) ∧
    (∃ s', Issues env0 z s' ∧ (Core.wf s'.serge && decide (s'.serge.tw = false ∧ s'.serge.priv = true ∧ s'.serge.count = 1)) = true) ∧
    (∃ s', Issues env0 (z.onSerge fun c => { c with cwp := 1, count := 2 }) s' ∧
      (Core.wf s'.serge && (match flushOp (s'.rd rSPILL_WSL).toNat 14 0 s' with | .ok k _ => k == 1 | _ => false)) = true) :=
  ⟨issues_of (by decide +kernel), issues_of (by decide +kernel), issues_of (by decide +kernel)⟩

theorem witness_TrapEntryAndReturn :
    (∃ s', Issues env0 z s' ∧ decide (s'.serge.tw = false ∧ s'.serge.priv = true) = true) ∧
    (∃ s', Issues env0 trapped s' ∧ decide (s'.serge.tw = true ∧ s'.power.st ≠ .lastBreath ∧ s'.power.rst = none) = true) :=
  ⟨issues_of (by decide +kernel), issues_of (by decide +kernel)⟩

theorem witness_IllegalAndPrivilegedTraps : allocated 0x0B000005#32 = true ∧ allocated 0xFFFFFFFF#32 = false ∧ srListed 7 = false ∧
    srListed 15 = false ∧ srListed 8 = true ∧
    (∃ s', Issues env0 user s' ∧ decide (s'.serge.tw = false ∧ s'.serge.priv = false) = true) :=
  ⟨by decide +kernel, by decide +kernel, by decide +kernel, by decide +kernel, by decide +kernel, issues_of (by decide +kernel)⟩

theorem witness_SystemResults : ∃ s', Issues env0 oneStore s' ∧ (Core.wf s'.serge && decide (s'.serge.priv = true)) = true :=
  issues_of (by decide +kernel)

theorem witness_MovgResults : (∃ s', Issues env0 z s' ∧
      (Core.wf s'.serge && decide (s'.serge.priv = true ∧ s'.latches.lookup (srLatch 0x11) = none)) = true) ∧
    (∃ s', Issues env0 { z with latches := [(srLatch 0x11, 3#32), (srLatch 0x13, 4#32)] } s' ∧
      (Core.wf s'.serge && decide (s'.latches.lookup (srLatch 0x11) = some 3#32 ∧ s'.latches.lookup (srLatch 0x13) = some 4#32)) = true) :=
  ⟨issues_of (by decide +kernel), issues_of (by decide +kernel)⟩

/-! ## Witnesses: the data plane -/

/-- Canvas with its state, reference selection and run of qualifying starts. -/
def canvasAt (st : CanvasSt) (sel run : Nat) (step : Bool) : State :=
  z.onCanvas fun c => { c with
    st := st, ctl := { c.ctl with refsel := sel, reacq := false }, qualRun := run, stepNext := step, refAt := some 0, nextFrameAt := 0 }

theorem witness_CanvasFrameStarts :
    Acts [(0, 1)] 0 (canvasAt .locked 1 0 false) ∧ (canvasAt .locked 1 0 false).canvas.enabled = true ∧
    (canvasAt .locked 1 0 false).canvas.ctl.refsel < 2 ∧ Acts [(0, 1)] 0 (canvasAt .pullin 0 0 false) ∧
    -- ACQUIRE with one start behind, 33,333,333 ns after the last: the second qualifies; at 1 ns it does not
    Acts [(0, 1)] 33333333 (canvasAt .acquire 1 1 true) ∧
    qualifies ((canvasAt .acquire 1 1 true).at 33333333) 33333333 = true ∧ (canvasAt .acquire 1 1 true).canvas.stepNext = true ∧
    qualifies ((canvasAt .acquire 1 1 true).at 1) 1 = false ∧
    (canvasAt .flywheel 1 1 false).canvas.stepNext = false ∧ (canvasAt .flywheel 1 1 false).canvas.ctl.reacq = false ∧
    qualifies ((canvasAt .flywheel 1 1 false).at 33333333) 33333333 = true ∧
    2 ≤ (canvasAt .acquire 2 0 true).canvas.ctl.refsel ∧ (canvasAt .flywheel 2 0 true).canvas.nextFrameAt ≤ 0 ∧
    nominalPeriod ((canvasAt .locked 1 0 false).at 50000000) * 3 ≤ 50000000 * 2 :=
  ⟨acts_of (by decide +kernel), by decide +kernel, by decide +kernel, acts_of (by decide +kernel), acts_of (by decide +kernel),
   by decide +kernel, by decide +kernel, by decide +kernel, by decide +kernel, by decide +kernel, by decide +kernel, by decide +kernel,
   by decide +kernel, by decide +kernel⟩

theorem witness_CanvasLinesTimersAndSwitches :
    Acts [(0, 1)] 0 z ∧ z.canvas.enabled = true ∧ z.canvas.blank = false ∧
    (z.onCanvas fun c => { c with pos := { c.pos with line := 0xFFFF } }).canvas.pos.line = 0xFFFF ∧
    (z.onCanvas fun c => { c with pos := { c.pos with line := 0xFFFE } }).canvas.pos.line < 0xFFFF ∧ (∀ x ∈ z.canvas.slots, x.armed = false) ∧
    z.canvas.lastCommitAt + commitSpan (z.at 1000000) ≤ 1000000 ∧ 999999 < z.canvas.lastCommitAt + commitSpan (z.at 999999) :=
  ⟨acts_of (by decide +kernel), by decide +kernel⟩

theorem witness_CanvasPulsesAndSwitches :
    Acts [(0, 1)] 0 (z.onCanvas fun c => { c with fsDue := [true, true] }) ∧ z.canvas.enabled = true ∧
    nth (z.onCanvas fun c => { c with fsDue := [true, true] }).canvas.fsDue 1 = true ∧
    (z.onCanvas fun c => { c with enabled := false }).canvas.enabled = false := ⟨acts_of (by decide +kernel), by decide +kernel⟩

theorem witness_FramesCountAsOne : ({ epoch := 65535, frame := 2 ^ 32 - 1, line := 3 } : Pos).frame < 2 ^ 32 := by decide

/-- Port 3 enabled, and custody 5 bound to its virtual channel 2 with data type 0x2A. -/
def camera : State :=
  setCust 5 (fun c => { c with mDesc := { valid := true, door := false, src := 3 * 16 + 2, dt := 0x2A } }) (z.wr rMUSLIN_CTRL 0xF#32)

theorem witness_CameraPackets :
    Acts [(0, 2), (1, 8 + 3)] 0 camera ∧ camera.flag rMUSLIN_CTRL 3 = true ∧ z.flag rMUSLIN_CTRL 3 = false ∧
    (camera.port 3).discard = false ∧ cameraCust camera 3 0 = none ∧
    (camera.cust 5).mDesc.dtAny = false ∧ (camera.cust 5).mDesc.dt ≠ (0x2B#6).toNat ∧ (camera.cust 5).mDesc.dt = (0x2A#6).toNat ∧
    131072 < ((setPort 3 (fun p => { p with lines := [.data 5 (List.replicate 65538 0) false] }) camera).port 3).held + (65535#16).toNat ∧
    (camera.port 3).held + (2#16).toNat ≤ 131072 ∧ ([1, 2] : Bytes).length = (2#16).toNat ∧
    bit (camera.port 3).cfg 2 = true ∧ bit ((setPort 3 (fun p => { p with cfg := 0 }) camera).port 3).cfg 2 = false ∧
    (camera.port 3).short = none := ⟨acts_of (by decide +kernel), by decide +kernel⟩

/-- A custody descriptor of 16 KiB stripes, with its CRC. -/
def desc16 : Bytes := zeros 4 ++ [16] ++ zeros 55

/-- Custody 0 takes door 0, whose ring of 16 is enabled and holds a descriptor of 100 bytes; ingest is open, the link is up, and checker 11
admits the doors' reads. -/
def doorOn : State :=
  setDoor 0 (fun d => { d with en := true, tail := 1, buf := [1, 2], descs := [{ index := 0, addr := 0x1000, len := 100 }] })
    (setCust 0 (fun c => { c with mDesc := { valid := true, door := true, src := 0 } })
      (((((((z.onPower fun p => { p with ingest := true }).onPcie fun p => { p with up := true, bme := true, perst := false }).wr
        (rMUSLIN_DOOR_CFG 0) 0x104#32).wr (rCHK_CFG 11 0) 5#32).wr (rCHK_LIMIT 11 0) 0xFF#32).wr (rCHK_MASKLO 11 0) 0x100#32).store
          0x20000000 (desc16 ++ le 4 (crc32c desc16).toNat)))

set_option maxRecDepth 1000000 in
theorem witness_MuslinBytesAndDoors :
    Acts [(0, 2)] 0 z ∧ z.power.ingest = false ∧ z.power.st ≠ .lastBreath ∧ Acts [(0, 2)] 0 doorOn ∧ doorOn.power.ingest = true ∧
    ((setPort 1 (fun p => { p with lines := [.data 5 [1] false] }) doorOn).port 1).lines.length = 1 ∧
    (∀ p < 4, (doorOn.port p).lines = []) ∧ (doorTurn doorOn).isSome = true ∧
    (fetchDesc 0 doorOn).1.isSome = true ∧ (fetchDesc 1 doorOn).1 = none ∧ ((fetchDesc 0 doorOn).2.cust 0).openStripe = none ∧
    ringSize doorOn 0 ≤ (16#10).toNat ∧ (15#10).toNat < ringSize doorOn 0 ∧ (doorOn.door 0).en = true ∧ bit 0#32 9 = false ∧
    fetchDue doorOn 0 = true ∧ (doorRead 0 (headAddr doorOn 0) doorOn).1 = true ∧
    doorCust doorOn 0 = some 0 ∧ (doorRead 0 (0x1000 + 0) doorOn).1 = true ∧ ([7] : Bytes).length ≤ min 512 (100 - 0) :=
  ⟨acts_of (by decide +kernel), by decide +kernel, by decide +kernel, acts_of (by decide +kernel), by decide +kernel⟩

/-- A lifecycle, for a device otherwise at reset. -/
def inLife (l : Life) (s : State) : State := s.onFuse fun f => { f with life := l }

/-- A device out of BLANK, with a result of Linen's job `j` delivered. -/
def delivered (j : LinenJob) (ok : Bool) (s : State) : State :=
  (inLife .fieldLife s).onPk fun p => { p with delivered := [(j, ok)] }

/-- An ANCHOR that is being signed, for the first or the second time. -/
def signing (retried : Bool) : State := z.onLinen fun l => { l with anchor := some { signing := true, retried := retried } }

theorem witness_LinenRecordsAndAnchors :
    Acts [(0, 3)] 0 z ∧ ((setCust 7 (fun c => { c with sealing := [{}] }) z).cust 7).sealing = [{}] ∧
    (inLife .fieldLife z).fuse.life ≠ .blank ∧ z.power.st ≠ .lastBreath ∧ (signing false).linen.anchor.isSome = true ∧
    z.linen.anchor = none ∧ z.linen.anchorNext = none ∧ z.linen.epochSeq = none ∧
    (z.onLinen fun l => { l with epochSeq := some {} }).linen.epochSeq.isSome = true ∧
    (takeDelivered .anchorSign (delivered .anchorSign true (signing false))).1 = some true ∧
    (takeDelivered .anchorSign (delivered .anchorSign false (signing false))).1 = some false ∧
    (delivered .anchorSign false (signing true)).linen.anchor = some { signing := true, retried := true } :=
  ⟨acts_of (by decide +kernel), by decide +kernel⟩

/-- The device chain is open. -/
def open1 : State := z.onLinen fun l => { l with chains := upd l.chains devChain (fun c => { c with seq := 1 }) }

/-- A key slot. -/
def withSlot (n : Nat) (k : KeySlot) (s : State) : State := putSlot n k s

/-- An escrow key of custody 5 in slot 40 and a source key in slot 41 that may be wrapped and moved. -/
def escrow : State :=
  setCust 5 (fun c => { c with lDesc := { c.lDesc with escrow := 0x128 } })
    (withSlot 40 { st := .loaded, attr := 0x00054010#32, key := zeros 32 }
      (withSlot 41 { st := .loaded, attr := 0x00034024#32, key := zeros 32 } z))

/-- A request of an epoch and an unanchored device out of BLANK. -/
def wantsEpoch : State := inLife .fieldLife z

/-- An epoch sequence, and a result of its job. -/
def sequence (j : LinenJob) (ok retried : Bool) : State :=
  delivered j ok (z.onLinen fun l => { l with epochSeq := some { retried := retried } })

theorem witness_LinenEpochsTimemapAndEscrow :
    Acts [(0, 3)] 0 z ∧ z.linen.epochQ.length < 65535 ∧
    65535 ≤ (z.onLinen fun l => { l with epochQ := List.replicate 65535 {} }).linen.epochQ.length ∧
    (z.chain devChain).seq = 0 ∧ (open1.chain devChain).seq ≠ 0 ∧ (z.wr rLINEN_TMAPPER 0#32).fld rLINEN_TMAPPER 15 0 = 0 ∧
    (z.wr rLINEN_TMAPPER 1#32).fld rLINEN_TMAPPER 15 0 = 1 ∧ (z.onFelt fun f => { f with evt := 2 ^ 24 }).linen.tmapEvt + 1 * 2 ^ 24 = 2 ^ 24 ∧
    wantsEpoch.fuse.life ≠ .blank ∧ wantsEpoch.power.st ≠ .lastBreath ∧ wantsEpoch.linen.anchor = none ∧ wantsEpoch.linen.epochSeq = none ∧
    wantsEpoch.linen.epochHold = false ∧ nextEpoch wantsEpoch = some { reason := .genesis } ∧
    (takeDelivered .epochKeygen (sequence .epochKeygen true false)).1 = some true ∧
    (takeDelivered .epochKeygen (sequence .epochKeygen false false)).1 = some false ∧
    (takeDelivered .epochSign (sequence .epochSign true false)).1 = some true ∧
    (takeDelivered .epochSign (sequence .epochSign false true)).1 = some false ∧
    (sequence .epochSign false true).linen.epochSeq = some { retried := true } ∧
    kwBusy (z.onLinen fun l => { l with kw := some {} }) = true ∧ kwBusy escrow = false ∧ kwCheck escrow 5 1 2 0x129 = 0 ∧
    kwCheck escrow 5 1 2 0x229 ≠ 0 ∧ (takeDelivered .kwEcdh (delivered .kwEcdh true escrow)).1 = some true ∧
    useKey escrow 0x129 (kwNeed 1) (some 5) = .key (zeros 32) :=
  ⟨acts_of (by decide +kernel), by decide +kernel⟩

/-- A slot of generation 1 in a state, whose handle is `0x100 + n`. -/
def slot20 (st : SlotSt) (attr : Word) : State := withSlot 20 { st := st, attr := attr, key := zeros 32 } z

theorem witness_KeyStoreCommands :
    Acts [(0, 7)] 0 z ∧ ksBusy { z with keys := { z.keys with waiting := some {} } } = true ∧ ksBusy z = false ∧
    (z.slot 255).st = .empty ∧ aKtype (z.rd rKEYSTORE_ATTRIN) < 9 ∧ current z 0x1FF = true ∧ current z 0x2FF = false ∧
    current (slot20 .loaded 4#32) 0x114 = true ∧ ((slot20 .loaded 4#32).slot (hSlot 0x114)).st = .loaded ∧
    ((slot20 .reserved 0x10#32).slot 20).st = .reserved ∧ aUsage ((slot20 .reserved 0x10#32).slot 20).attr = uPUB ∧
    (inLife .fieldLife (slot20 .reserved 4#32)).fuse.life = .fieldLife ∧ aUsage ((slot20 .reserved 4#32).slot 20).attr ≠ uPUB ∧
    hasUsage ((slot20 .loaded 0x30004#32).slot 20).attr uMOVE = true ∧ ctxType (aKtype ((slot20 .loaded 0x30004#32).slot 20).attr) = some 1 ∧
    aKtype ((slot20 .loaded 0x30004#32).slot 20).attr = 3 ∧
    nth ((slot20 .loaded 0x30004#32).onLinen fun l => { l with kcv := upd l.kcv 63 (fun _ => [(1, kcvOf (zeros 32))]) }).linen.kcv 63 =
      (1, kcvOf ((slot20 .loaded 0x30004#32).slot 20).key) :: [] ∧
    restoreBank (slot20 .loaded 0x30004#32) 63 1 = some false ∧ ((slot20 .loaded 0x30004#32).bank 63 false).ver ≠ some 1 ∧
    (withSlot 15 {} z).keys.landing.contains 15 = true ∧
    ({ withSlot 15 {} z with keys := { (withSlot 15 {} z).keys with doneAt := some (15, 0, 0) } } : State).keys.doneAt = some (15, 0, 0) :=
  ⟨acts_of (by decide +kernel), by decide +kernel, by decide +kernel, by decide +kernel, by decide +kernel, by decide +kernel, by decide +kernel,
   by decide +kernel, by decide +kernel, by decide +kernel, by decide +kernel, by decide +kernel, by decide +kernel, by decide +kernel,
   by decide +kernel, by decide +kernel, rfl, by decide +kernel⟩

theorem witness_KeyStoreGenerate : ∃ b v, drbgRequest 1 { z with rng := { z.rng with drbg := .ready } } = (.served b, v) := ⟨_, _, rfl⟩

/-- A source that failed twice in the last second. -/
def failing : State := { z with rng := { z.rng with failSecs := [0, 0] } }

theorem witness_RandomNumbers :
    Acts [(0, 8)] 0 z ∧ 3 ≤ (failing.rng.failSecs.filter (fun e => decide (failing.felt.evt < e + 2 ^ 24)) ++ [failing.felt.evt]).length ∧
    (z.rng.failSecs.filter (fun e => decide (z.felt.evt < e + 2 ^ 24)) ++ [z.felt.evt]).length < 3 ∧ z.rng.es ≠ .parked ∧
    ({ z with rng := { z.rng with es := .startup } } : State).rng.es = .startup ∧
    reseedDue { z with rng := { z.rng with drbg := .ready } } = false ∧
    ({ z with rng := { z.rng with drbg := .error } } : State).rng.drbg = .error ∧
    ({ z with rng := { z.rng with waits := [{ user := .out, bytes := 4 }] } } : State).rng.waits = { user := .out, bytes := 4 } :: [] ∧
    ({ z with keys := { z.keys with waiting := some {} } } : State).keys.waiting = some {} :=
  ⟨acts_of (by decide +kernel), by decide +kernel⟩

/-- Core SRAM admits the job units. -/
def jobOn (s : State) : State :=
  ((s.wr (rCHK_CFG 1 0) 0xD#32).wr (rCHK_LIMIT 1 0) 0xFFFFF000#32).wr (rCHK_MASKLO 1 0) 0xE000#32

/-- Digest and cipher with one job each in core SRAM: SHA-256 of no byte; an XTS encryption of 16 bytes under context 64. -/
def jobs : State :=
  setGctx 64 { ktype := 3, key := zeros 32 } ((jobOn { { z with
    digest := { z.digest with queue := [0x10000000] } } with cipher := { z.cipher with queue := [0x10000020] } }).store 0x10000000
      ([1#8] ++ zeros 31 ++ [1#8, 64#8] ++ zeros 22 ++ le 4 16 ++ le 4 0x10000100))

theorem witness_DigestAndCipherJobs :
    Acts [(0, 4)] 0 jobs ∧ Acts [(0, 5)] 0 jobs ∧ Acts [] 0 jobs ∧ jobs.power.st ≠ .lastBreath ∧ (jobs.unit .digest).queue.length < 16 ∧
    16 ≤ (({ z with cipher := { z.cipher with queue := List.replicate 16 0 } } : State).unit .cipher).queue.length ∧
    (jobs.unit .cipher).running.find? (fun j => j.addr == 0x10000020) = none ∧ (jobs.unit .cipher).queue.contains 0x10000020 = true ∧
    (z.unit .cipher).queue.contains 0x10000020 = false ∧
    (jobAccess (uMaster .digest) none false 0x10200000 32 { z with digest := { z.digest with queue := [0x10200000] } }).1 = false ∧
    (jobAccess 0x0D none false 0x10000000 32 jobs).1 = true ∧ digestDescOk jobs (jobs.load 0x10000000 32) = true ∧
    dfld (jobs.load 0x10000000 32) 0 1 = 1 ∧ dfld (jobs.load 0x10000000 32) 1 1 < 3 ∧ (pickLane .digest false jobs).isSome = true ∧
    (jobAccess 0x0E none false 0x10000020 32 jobs).1 = true ∧ (pickLane .cipher false jobs).isSome = true ∧
    cipherDescOk (jobs.load 0x10000020 32) (ofLe (jobs.load (dfld (jobs.load 0x10000020 32) 0x1C 4 + 0x0C) 4)) = true ∧
    cipherKey jobs (jobs.load 0x10000020 32) = (.key (zeros 32), 4096) ∧
    (({ z with digest := { z.digest with running := [{ lane := 7 }] } } : State).digest.running.find? (fun j => j.lane == 7)) = some { lane := 7 } :=
  ⟨acts_of (by decide +kernel), acts_of (by decide +kernel), acts_of (by decide +kernel), by decide +kernel⟩

theorem witness_CipherContexts :
    Acts [(0, 5)] 0 z ∧ Acts [(0, 5), (0, 9)] 0 z ∧ (63#7).toNat < 64 ∧ 78 < (79#7).toNat ∧ 64 ≤ (78#7).toNat ∧ (78#7).toNat ≤ 78 ∧
    1 ≤ (4#3).toNat ∧ (4#3).toNat ≤ 4 := ⟨acts_of (by decide +kernel), acts_of (by decide +kernel), by decide +kernel⟩

/-- The PK unit changed. -/
def pkAs (g : Pk → Pk) : State := z.onPk g

theorem witness_PublicKeyJobs :
    Acts [(0, 6)] 0 z ∧ z.power.st ≠ .lastBreath ∧ (pkAs fun p => { p with queue := List.replicate 7 0 }).pk.queue.length < 8 ∧
    8 ≤ (pkAs fun p => { p with queue := List.replicate 8 0 }).pk.queue.length ∧ z.pk.running = none ∧ z.pk.wiping = false ∧
    z.pk.linenQ = [] ∧ pkGated (pkAs fun p => { p with linenQ := [.epochSign] }) = false ∧
    (pkWipeDone (pkAs fun p => { p with wiping := true, running := some (.linen .kwEcdh 5) })).pk.running = some (.linen .kwEcdh 5) ∧
    (pkWipeDone (pkAs fun p => { p with running := some (.firmware 0x10000000 (zeros 32) []) })).pk.running =
      some (.firmware 0x10000000 (zeros 32) []) ∧
    (z.wr rPK_CTRL 3#32).flag rPK_CTRL 0 = true ∧ (z.wr rPK_CTRL 3#32).flag rPK_CTRL 1 = true ∧
    (pkAs fun p => { p with awake := true }).pk.awake = true ∧ (pkAs fun p => { p with wiping := true }).pk.wiping = true :=
  ⟨acts_of (by decide +kernel), by decide +kernel⟩

/-! ## Witnesses: storage, power, dictionary -/

/-- Twill's channels with one entry changed. -/
def chanAs (n : Nat) (g : Channel → Channel) (s : State) : State := setChan n g s

/-- Channel 7 is READY with LUN 15 active and an operation of a kind on it. -/
def nand (k : NandKind) (issued : Bool) : State :=
  chanAs 7 (fun c => { c with
    st := .ready, ops := [{ kind := k, lun := 15, issued := issued }], luns := upd c.luns 15 (fun l => { l with st := .active }) }) z

/-- Channel 7 is READY with nothing outstanding, LUN 15 active, and a CAL window with class 0 is open for 30 ms. -/
def calm : State :=
  (chanAs 7 (fun c => { c with st := .ready, ops := [], luns := upd c.luns 15 (fun l => { l with st := .active }) }) z).onCanvas fun c =>
    { c with calOpen := 1, gcOpen := true, nextFrameAt := 30000000 }

theorem witness_NandChannelOperations :
    Acts [(0, 9), (1, 7)] 0 z ∧ ((nand .program true).chan 7).ops.findIdx? (fun o => o.issued && decide (o.lun = 15)) = some 0 ∧
    (nth ((nand .program true).chan 7).ops 0).kind = .program ∧ (nth ((nand .erase true).chan 7).ops 0).kind = .erase ∧
    (nth ((nand .read true).chan 7).ops 0).kind = .read ∧ chanUp (nand .read false) 7 = true ∧ (nand .read false).power.st ≠ .lastBreath ∧
    ((nand .read false).chan 7).draining = false ∧
    ((nand .read false).chan 7).ops.findIdx? (fun o => !o.issued && !((nand .read false).chan 7).ops.any
      (fun q => q.issued && decide (q.lun = o.lun))) = some 0 ∧
    ((nand .read true).chan 7).ops.any (fun o => o.issued && decide (o.lun = 15)) = true ∧ (calm.chan 7).st ≠ .absent ∧
    (calm.chan 7).st ≠ .parked ∧ (calm.chan 7).ops.any (fun o => o.issued) = false ∧
    7 ≤ (z.wr (rTWILL_OFFIDX 7) 7#32).fld (rTWILL_OFFIDX 7) 2 0 ∧ (z.wr (rTWILL_OFFIDX 7) 6#32).fld (rTWILL_OFFIDX 7) 2 0 ≤ 6 ∧
    (calm.lun 7 15).st = .active ∧ calMay calm 0 = true ∧ 5 * (nth (calm.chan 7).targets (15 / 4)).geom.tr + 20 ≤ calRem calm :=
  ⟨acts_of (by decide +kernel), by decide +kernel⟩

/-- Namespace 3 fills a superpage of segment 0, of three members, with `n` slots. -/
def filling (n : Nat) : State :=
  setNs 3 (fun x => { x with filling := some { seg := 0, slots := List.replicate n .pad } }) (setSeg 0 (fun g => { g with members := [0, 1, 2] }) z)

/-- A page whose closer, page 1, has not been programmed; it was formed 65,535 ms ago or more. -/
def unsafePage : State :=
  (setSeg 0 (fun g => { g with members := [0] }) z).onMedia fun m =>
    { m with geo := some { geom := { cell := 1 } }, pairTable := [(0, 1)], superpages := [{ seg := 0, idx := 0, passed := [0] }] }

theorem witness_TwillPagesAndTables :
    Acts [(0, 9)] 0 z ∧ Acts [(0, 9)] 70000000000 unsafePage ∧ slotsPer (filling 4) 0 ≤ 4 ∧ (1 : Nat) < slotsPer (filling 1) 0 ∧
    ((filling 4).nspace 3).filling.isSome = true ∧ z.power.st ≠ .lastBreath ∧
    0 + (filling 1).fld rTWILL_FILLCFG 15 0 * 1000000 ≤ ((filling 1).at 70000000000).now ∧
    ((unsafePage.at 70000000000).media.superpages.find? (fun x => decide (x.seg = 0) && !x.mapped && !x.abandoned &&
      pagesPassed (unsafePage.at 70000000000) x && !pageSafe (unsafePage.at 70000000000) 0 (pagesPerBlock (unsafePage.at 70000000000)) x.idx &&
      decide (x.formedAt + (unsafePage.at 70000000000).fld rTWILL_FILLCFG 31 16 * 1000000 ≤ (unsafePage.at 70000000000).now))).isSome = true ∧
    (mediaInit [] (inLife .fieldLife z)).1 = .state ∧ (mediaInit [] z).1 ≠ .state ∧ nsClass z 15 ≠ 2 ∧ (0#64).toNat ≤ (1#64).toNat ∧
    (1#64).toNat < (2#64).toNat ∧ anyReady calm = true ∧ anyReady z = false ∧
    z.media.jobs.find? (fun j => decide (j.id = (9#16).toNat) && !j.aborted) = none ∧
    (z.onMedia fun m => { m with jobs := [{ id := 9 }] }).media.jobs.find? (fun j => decide (j.id = (9#16).toNat) && !j.aborted) =
      some { id := 9 } ∧ z.media.ldpcParked.contains (16 + 3) = false ∧
    (z.media.ldpcParked.filter (fun l => decide (l < 16) == false)).length < 3 :=
  ⟨acts_of (by decide +kernel), acts_of (by decide +kernel), by decide +kernel⟩

/-- A checkpoint runs. -/
def checkpointing : State := z.onJrn fun j => { j with ckRunning := some 0 }

/-- Four channels offer LUN set 0 to segment 0; the table pages are read. -/
def pool : State :=
  (([0, 1, 2, 3].foldl (fun s n => chanAs n (fun c => { c with st := .ready, luns := upd c.luns 0 (fun l => { l with st := .active }) }) s) z).onMedia
    fun m => { m with geo := some { geom := { blkm1 := 9 }, lunSets := [0] }, segCount := 2000 }).onJrn fun j => { j with tablesRead := true }

/-- Segment 5 with a state, in a GC window. -/
def seg5 (g : Seg) : State := (setSeg 5 (fun _ => g) calm).onJrn fun j => { j with tablesRead := true }

/-- Garbage collection collects segment 5 of namespace 3 into segment 6, and one unit of it is live. -/
def collecting (live : Bool) : State :=
  (setSeg 6 (fun g => { g with ns := 3, st := .openSeg }) (setNs 3 (fun x => { x with
    wp := 1, runs := if live then [{ unit := 0, seg := 5, slot := 0, count := 1 }] else [] })
      (seg5 { ns := 3, st := .closed, gcsrc := true, filled := 1, members := [0] }))).onJrn fun j => { j with gc := { src := some 5, dst := some 6 } }

theorem witness_TwillCheckpoints :
    Acts [(0, 9)] 0 z ∧ z.power.st ≠ .lastBreath ∧ checkpointing.jrn.ckRunning = some 0 ∧ checkpointing.jrn.ckPages = 0 ∧
    z.jrn.ckRunning = none ∧
    (z.wr rTWILL_JCTRL 0xFF#32).jrn.logFree < logLow (z.wr rTWILL_JCTRL 0xFF#32) ∧
    z.jrn.timeckEvt / 2 ^ 24 < (z.onFelt fun f => { f with evt := 2 ^ 24 }).felt.evt / 2 ^ 24 ∧ z.felt.evt / 2 ^ 24 ≤ z.jrn.timeckEvt / 2 ^ 24 ∧
    z.jrn.scrubEvt + (z.wr rTWILL_JCTRL 0#32).fld rTWILL_JCTRL 31 24 * 86400 * 2 ^ 24 ≤ z.felt.evt ∧ gcWindow calm = true ∧
    z.media.patrolEvt + (z.wr rTWILL_SCRUBCFG 0#32).fld rTWILL_SCRUBCFG 31 24 * 3600 * 2 ^ 24 ≤ z.felt.evt ∧
    (z.onJrn fun j => { j with field := true }).jrn.field = true := ⟨acts_of (by decide +kernel), by decide +kernel⟩

theorem witness_TwillJournalAndSegments :
    pool.media.geo.isSome = true ∧ pool.jrn.tablesRead = true ∧ pool.power.st ≠ .lastBreath ∧ widthOk pool = true ∧
    (pool.nspace 2).ahead = none ∧ nsQuota pool 2 = 0 ∧ nsClass (pool.wr (rTWILL_NSCFG 2) 0x1000000#32) 2 ≠ 0 ∧
    pool.fld rTWILL_GCCFG2 31 16 ≤ freeSegs pool ∧ poolOk pool 2 = true ∧
    (chooseSeg (pool.onMedia fun m => { m with segCount := 10 })) = some 0 ∧
    ((seg5 { st := .allocating, members := [0, 1, 2, 3] }).seg 5).st = .allocating ∧
    (seg5 { st := .allocating, members := [0, 1, 2, 3] }).media.ch.any (fun c => c.ops.any (fun o => decide (o.kind = .erase ∧ o.seg = 5))) = false ∧
    minWidth z ≤ [0, 1, 2, 3].length ∧ gcMay (seg5 {}) = true ∧ (seg5 {}).jrn.gc.reading = [] ∧ (seg5 {}).jrn.gc.got = [] ∧
    (markCold (seg5 {})).jrn.gc.src = none ∧ gcSelect (markCold (seg5 {})) = none ∧
    (markCold (collecting true)).jrn.gc.src = some 5 ∧ ((markCold (collecting true)).seg 5).gcsrc = true ∧
    segValid (markCold (collecting false)) 5 = 0 ∧ segValid (markCold (collecting true)) 5 ≠ 0 ∧
    (gcDest (segNs (markCold (collecting true)) 5) (markCold (collecting true))).1 = some 6 ∧ z.jrn.replaying = false := by decide +kernel

theorem witness_PowerStates :
    Acts [] 0 z ∧ z.power.st = .run ∧ z.live = true ∧ z.power.resumed = false ∧ z.flag rTWEED_WAKECFG 8 = false ∧
    (z.wr rTWEED_WAKECFG 0x102#32).flag rTWEED_WAKECFG 8 = true ∧ (z.onPower fun p => { p with resumed := true }).power.resumed = true ∧
    (z.onPower fun p => { p with st := .lastBreath }).power.st = .lastBreath ∧ z.power.lbDone.contains 3 = false ∧
    z.power.lbDone.contains 5 = false ∧ mayResume z = true ∧ mayResume (z.onPower fun p => { p with pfailN := false }) = false ∧
    (z.onPower fun p => { p with st := .parked, pmicEn := false }).power.st = .parked ∧
    (z.onPower fun p => { p with st := .parked, pmicEn := false }).power.pmicEn = false ∧ z.power.parkedAt + 100000000 ≤ (z.at 100000000).now ∧
    (z.wr rTWEED_WAKECFG 0x102#32).flag rTWEED_WAKECFG 1 = true ∧ z.power.warmHold = false ∧ z.power.released = true ∧ z.felt.vbat = true ∧
    (z.onPower fun p => { p with st := .off }).power.st = .off ∧ (z.onPower fun p => { p with io18 := false }).power.io18 = false ∧
    (z.onPower fun p => { p with pfailN := false }).power.pfailN = false ∧ z.power.releasedAt + 1000000000 ≤ (z.at 1000000000).now ∧
    (z.onPower fun p => { p with st := .parked }).live = true ∧ z.power.configured = true := ⟨acts_of (by decide +kernel), by decide +kernel⟩

theorem witness_Resets :
    Acts [] 0 z ∧ (z.onPower fun p => { p with rails := false, released := false }).live = false ∧ z.power.pmicEn = true ∧ z.power.rstN = true ∧
    (z.onPower fun p => { p with rst := some 2 }).power.rst = some 2 ∧ z.power.rails = true ∧ z.power.rst = none ∧
    z.power.rstIgnored = false ∧ z.power.released = true ∧ z.now < z.power.rstEdge + 3000000000 ∧
    z.power.rstEdge + 3000000000 ≤ (z.at 3000000000).now ∧ (z.at 8000000000).now ≤ z.power.rstEdge + z.fld rTWEED_RSTHOLD 4 0 * 1000000000 ∧
    z.power.rstEdge + z.fld rTWEED_RSTHOLD 4 0 * 1000000000 < (z.at 8000000001).now ∧ z.power.rstEdge + 100000000 ≤ (z.at 100000000).now ∧
    (z.onPower fun p => { p with rstN := false }).power.rstN = false := ⟨acts_of (by decide +kernel), by decide +kernel⟩

/-- A local descriptor waits at an address of core SRAM, with OP 2 at its first byte or 1. -/
def local1 (op : Byte) : State := (z.onDict fun d => { d with localQ := [0x10000000] }).store 0x10000000 [op]

/-- A YDP payload of a message code and FLAGS. -/
def ydp (m f : Byte) : ReqIn := .ydp 2 0#29 [m, 0, 0, f]

theorem witness_DictionaryRequests :
    Acts [] 0 z ∧ Acts [(0, 10)] 0 z ∧ reqKind (local1 1) .loc = some (mREAD, false) ∧ reqKind (local1 2) .loc = some (mWRITE, false) ∧
    reqKind z (ydp (BitVec.ofNat 8 mREADSEG) 2) = some (mREADSEG, true) ∧ reqKind z (ydp (BitVec.ofNat 8 mABORT) 0) = some (mABORT, false) ∧
    reqKind z (.mbox 3) = some (0, false) ∧ z.gated 0 11 = false ∧ z.gated 2 4 = false ∧ z.gated 2 (5 + 2) = false ∧
    (z.onCards fun c => { c with preq := [(0x10000000, 1)] }).cards.preq = (0x10000000, 1) :: [] ∧
    (z.wr (rPERC_SSTAT 1) 0x40#32).flag (rPERC_SSTAT 1) 6 = true ∧ z.byte (reqBuf 0) ≠ 1 ∧ z.dict.localQ.length < 4 ∧
    4 ≤ (z.onDict fun d => { d with localQ := [0, 32, 64, 96] }).dict.localQ.length ∧
    ({ write := true, gap := true } : Xfer).at_ + 100000000 ≤ (z.at 100000000).now ∧
    0 + max 1 (z.fld rDENG_SEGTMO 15 0) * 1000000 ≤ (z.at 65535000000).now ∧
    (z.onDict fun d => { d with fw := upd d.fw 7 (fun _ => some {}) }).dict.fw.getD 7 none = some {} ∧ bits 1#32 15 0 ≠ aOK ∧
    z.dict.fw.getD 7 none = none ∧ 0 + max 1 (z.fld rDENG_FWTMO 15 0) * 1000000 ≤ (z.at 65535000000).now ∧ z.boot.warm = .idle ∧
    (restoreGroup 256).isSome = true ∧ stickyListed 230 = true ∧ stickyListed 231 = false :=
  ⟨acts_of (by decide +kernel), acts_of (by decide +kernel), by decide +kernel⟩

/-- Principal 1 is enabled. -/
def p1 : State := z.onDict fun d => { d with held := [(okey 0x1111 4, [1])] }

/-- An object's property. -/
def objB (i sub : Nat) (p : Obj → Bool) : Bool :=
  match indexOf i with | some x => (match x.entry sub with | some e => p e | none => false) | none => false

theorem witness_DictionaryChecks :
    z.gated 0 10 = false ∧ ((indexOf 0x2000).bind fun x => x.entry 0xFE).isNone = true ∧ princOk p1 1 = true ∧ princOk z 15 = false ∧
    objB 0x1002 1 (fun e => !mayWrite p1 1 (okey 0x1002 1) e) = true ∧ objB 0x1111 4 (fun e => !mayRead p1 1 (okey 0x1111 4) e) = true ∧
    objB 0x1100 2 (fun e => mayWrite z 0 (okey 0x1100 2) e && typeOf e true != 0x3F && formOk e { type := 0x3F } &&
      !lengthFits e 3) = true := by decide +kernel

/-! ## Witnesses: Gingham, PCI Express, cards -/

/-- CAN controller 1 in a state, buffer 23 requested. -/
def canAs (st : CanSt) : State :=
  (setCan 1 (fun c => { c with st := st }) z).setFlag (rGING_TXREQ 1) 23 true

/-- The state after a filter that takes every 11-bit identifier. -/
def filter0 : State := (canAs .active).wr (rGING_RXFILT_CTL 1 0) 1#32

theorem witness_CanControllers :
    Acts [(2, 4), (2, 5 + 1)] 0 z ∧ canLength (bits 64#32 6 0) true = true ∧ canLength (bits 9#32 6 0) true = false ∧
    (canAs .active).flag (rGING_TXREQ 1) 23 = true ∧ ((canAs .active).can 1).onBus = true ∧ (canAs .active).fld (rGING_CCTRL 1) 1 0 ≠ 2 ∧
    (txOffer (notifyFlush 1 (canAs .active)) 1).map Prod.fst = some 23 ∧ isYdp (canAs .active) { id := 0x1E400000 } = true ∧
    isYdp filter0 { xtd := false } = false ∧ rxFilter filter0 1 { xtd := false } = some 0 ∧ rxFilter (canAs .active) 1 { xtd := false } = none ∧
    (filter0.can 1).fifo.length < 32 ∧ 32 ≤ ((setCan 1 (fun c => { c with fifo := List.replicate 32 {} }) filter0).can 1).fifo.length ∧
    ((canAs .busoff).can 1).st = .busoff ∧ (z.wr (rGING_CCTRL 1) 0x31#32).flag (rGING_CCTRL 1) 4 = true ∧
    (z.wr (rGING_CCTRL 1) 0x21#32).flag (rGING_CCTRL 1) 4 = false ∧ (regAt (rGING_CCTRL 1)).isSome = true ∧
    ((canAs .stuck).can 1).st = .stuck ∧ (z.can 1).st = .integrating ∧ ((setCan 1 (fun c => { c with tec := 247 }) z).can 1).tec + 8 ≤ 255 ∧
    255 < ((setCan 1 (fun c => { c with tec := 248 }) z).can 1).tec + 8 := ⟨acts_of (by decide +kernel), by decide +kernel⟩

/-- Session 7 with a key in slot 20. -/
def sess7 (st : SessSt) : State :=
  setSess 7 (fun x => { x with st := st, princ := 7, carrier := 2, handle := 0x114 }) (withSlot 20 { st := .loaded, attr := 0x00014001#32, key := zeros 32 } z)

/-- A SESSION_OPEN payload of a phase: 12 bytes and more, with a body of 20 for phases 1 and 3. -/
def openFrame (phase kind princ : Byte) : Bytes := [BitVec.ofNat 8 mOPEN, 0, 20, 0x10] ++ [phase, princ, kind, 0] ++ zeros 24

theorem witness_YdpSessions :
    Acts [] 0 z ∧ Acts [(2, 4)] 0 z ∧ z.gated 2 4 = false ∧ z.gated 2 (5 + 1) = false ∧ dfld (openFrame 1 1 7) 0 1 = mOPEN ∧
    dfld (openFrame 1 1 7) 4 1 = 1 ∧ dfld (openFrame 3 1 7) 4 1 = 3 ∧ (z.wr rGING_GCTRL 0x1000000#32).flag rGING_GCTRL 24 = true ∧
    (0x04400000#29).toNat / 2 ^ 16 % 256 = nodeId z ∧ frameOk ((0x04400000#29).toNat / 2 ^ 24 % 32) (openFrame 1 1 7) = true ∧
    dfld (openFrame 1 1 7) 2 1 = 20 ∧ dfld ((openFrame 1 1 7).drop 4) 2 1 = 1 ∧ dfld ((openFrame 1 1 7).drop 4) 1 1 = 7 ∧ princK z 7 = none ∧
    ((sess7 .challenged).sess 7).st = .challenged ∧ useKey (sess7 .challenged) ((sess7 .challenged).sess 7).handle uHMAC = .key (zeros 32) ∧
    z.now ≤ ((sess7 .challenged).sess 7).chalAt + 500000000 ∧ ((sess7 .challenged).sess 7).chalAt + 500000000 ≤ (z.at 500000000).now ∧
    (z.at 499999999).now < ((sess7 .challenged).sess 7).chalAt + 500000000 ∧ ((sess7 .openSess).sess 7).st = .openSess ∧
    ((sess7 .openSess).sess 7).heardAt + 60000000000 ≤ (z.at 60000000000).now ∧
    (z.at 59999999999).now < ((sess7 .openSess).sess 7).heardAt + 60000000000 ∧ ((sess7 .suspended).sess 7).st = .suspended ∧
    ((sess7 .suspended).sess 7).suspAt + 10000000000 ≤ (z.at 10000000000).now ∧ (z.wr rGING_GCTRL 0#32).fld rGING_GCTRL 15 0 = 0 ∧
    (z.wr rGING_GCTRL 1#32).fld rGING_GCTRL 15 0 ≠ 0 ∧ ((setCan 0 (fun c => { c with st := .active }) z).can 0).onBus = true ∧
    (z.can 1).onBus = false ∧ bits 0x7FFF0000#32 31 16 < 0x8000 ∧ 0x8000 ≤ bits 0x80000000#32 31 16 ∧
    (z.wr rGING_NOTIFYEN 0#32).flag rGING_NOTIFYEN (notifyBit 1) = false ∧ (z.wr rGING_NOTIFYEN 1#32).flag rGING_NOTIFYEN (notifyBit 1) = true ∧
    16 ≤ (z.onPcie fun p => { p with notifyQ := List.replicate 16 [] }).pcie.notifyQ.length :=
  ⟨acts_of (by decide +kernel), acts_of (by decide +kernel), by decide +kernel⟩

theorem fit_length (n : Nat) (b : Bytes) : (fit n b).length = n := by
  induction n generalizing b with
  | zero => rfl
  | succ n ih => cases b <;> simp [fit, ih]

/-- A frame that fails its tag: the tag is free, and the frame need only not end in it. -/
theorem witness_YdpTagFails : ∃ p : Bytes, dfld p 2 1 = 20 ∧ dfld (p.drop 4) 2 1 = 1 ∧ tagOk (zeros 32) 0 0 p = false := by
  have hb : ∀ d : Bytes, d.length = 8 → ∃ e : Bytes, e.length = 8 ∧ e ≠ d := fun d hd =>
    if h : d = zeros 8 then ⟨[1, 0, 0, 0, 0, 0, 0, 0], rfl, by subst h; decide⟩ else ⟨zeros 8, rfl, fun e => h e.symm⟩
  let q : Bytes := [BitVec.ofNat 8 mOPEN, 0, 20, 0x10, 1, 7, 1, 0] ++ zeros 16
  obtain ⟨e, he, hne⟩ := hb ((ydpTag (zeros 32) 0 0 q)) (by simp [ydpTag, hmac256, fit_length])
  refine ⟨q ++ e, ?_, ?_, ?_⟩
  · simp [q, dfld, slice, ofLe]
  · simp [q, dfld, slice, ofLe]
  · have h1 : (q ++ e).length - 8 = q.length := by simp [he]
    simp only [tagOk, h1, List.take_left', List.drop_left']
    simpa using hne

/-- Read door 7 with a job whose package is there, all moved but one byte; or with one that awaits its first pass. -/
def door7 (j : ExpJob) (wr : Nat) : State := setRd 7 (fun d => { d with job := some j, wrptr := wr }) z

theorem witness_ReadDoors :
    Acts [(0, 11)] 0 z ∧ ((door7 {} 0).rdoor 7).job.isSome = true ∧ (z.rdoor 7).job = none ∧
    rdRight (z.onDict fun d => { d with held := [(okey 0x1126 0, [0x10])] }) = false ∧
    rdRight (z.onDict fun d => { d with held := [(okey 0x1126 0, [0x30])] }) = true ∧
    (z.wr64 (rPCIE_RD_LASTSEQ_LO 7) (rPCIE_RD_LASTSEQ_HI 7) 0).rd64 (rPCIE_RD_LASTSEQ_LO 7) (rPCIE_RD_LASTSEQ_HI 7) < 1 ∧
    16 ≤ bits 0x100000#32 20 16 ∧ bits 0x1E0000#32 20 16 ≤ 30 ∧ ((door7 {} 0).rdoor 7).job = some {} ∧ jobWaits (door7 {} 0) {} = false ∧
    z.rd64 (rPCIE_RD_RDPTR_LO 7) (rPCIE_RD_RDPTR_HI 7) < (1#64).toNat ∧
    (0#64).toNat ≤ z.rd64 (rPCIE_RD_RDPTR_LO 7) (rPCIE_RD_RDPTR_HI 7) ∧ readLost z 7 = false ∧
    readLost (z.onMedia fun m => { m with jobs := [{ id := 7, lostAny := true }] }) 7 = true ∧
    readAll (z.onMedia fun m => { m with jobs := [{ id := 7, done := true }] }) 7 = true ∧
    ((rdPush 7 1 (door7 { pkg := some [5] } 1)).rdoor 7).wrptr = 1 ∧
    ((rdPush 7 (0 + bits ((door7 { pkg := some [5] } 0).rdoor 7).cfg 31 24 * 4096) (door7 { pkg := some [5] } 0)).rdoor 7).wrptr ≠
      0 + bits ((door7 { pkg := some [5] } 0).rdoor 7).cfg 31 24 * 4096 := ⟨acts_of (by decide +kernel), by decide +kernel⟩

/-- The host's buffer is full and the last byte moved a second ago. -/
def stalledDoor : State :=
  (setRd 0 (fun d => { d with job := some { pkg := some (zeros 65537) }, cfg := 0x100000#32, wrptr := 65536 }) z).wr (rPCIE_RD_STALL 0) 1#32

theorem witness_ReadDoorsStall :
    (stalledDoor.rdoor 0).wrptr = stalledDoor.rd64 (rPCIE_RD_RDPTR_LO 0) (rPCIE_RD_RDPTR_HI 0) + 2 ^ bits (stalledDoor.rdoor 0).cfg 20 16 ∧
    (stalledDoor.rdoor 0).wrptr < 65537 ∧ stalledDoor.fld (rPCIE_RD_STALL 0) 15 0 ≠ 0 ∧
    (stalledDoor.rdoor 0).movedAt + stalledDoor.fld (rPCIE_RD_STALL 0) 15 0 * 1000000000 ≤ (stalledDoor.at 1000000000).now := by decide +kernel

theorem witness_LinkAndMailbox :
    Acts [(0, 11)] 0 z ∧ Acts [] 0 z ∧ z.pcie.held.getD 3 none = none ∧
    (z.onPcie fun p => { p with held := upd p.held 3 (fun _ => some [1]) }).pcie.held.getD 3 none = some [1] ∧ 10 ≤ (63#6).toNat ∧
    (9#6).toNat < 10 ∧ z.pcie.up = false ∧ z.pcie.flr = false ∧ z.pcie.bme = false ∧ bits (dataRead z (dataPhys 256 36)).1 15 0 = 0 ∧
    (z.onPcie fun p => { p with up := true, bme := true }).pcie.bme = true := ⟨acts_of (by decide +kernel), acts_of (by decide +kernel), by decide +kernel⟩

/-- A card port in a state of PSTAT, with a card in it and power on. -/
def portIn (p st : Nat) (g : CardPort → CardPort) : State :=
  (setCard p g ((z.setFlag (rCHAM_PSTAT p) 18 true).setFlag (rCHAM_PCTL p) 0 true)).setFld (rCHAM_PSTAT p) 2 0 st

/-- Port 1 holds a transfer. -/
def busyPort : State := portIn 1 cBUSY fun x => { x with xfer := some {} }

/-- Port 1 in a tuned mode, READY. -/
def tuned : State := (portIn 1 cREADY id).setFld (rCHAM_PSTAT 1) 7 4 11

theorem witness_CardPorts :
    Acts [(2, 0)] 0 z ∧ Acts [(2, 1)] 0 z ∧ cState z 1 = cEMPTY ∧ cState (portIn 1 cPOWERING id) 1 = cPOWERING ∧
    (z.setFlag (rCHAM_PCTL 1) 0 true).flag (rCHAM_PCTL 1) 0 = true ∧ (z.wr (rCHAM_PCTL 1) 0#32).flag (rCHAM_PCTL 1) 0 = false ∧ (z.cport 0).only33 = false ∧
    2 ≤ (z.setFld (rCHAM_PCTL 0) 7 4 2).fld (rCHAM_PCTL 0) 7 4 ∧ (portIn 1 cREADY id).flag (rCHAM_PSTAT 1) 18 = true ∧
    cUsable z 1 = false ∧ cUsable (portIn 1 cREADY id) 1 = true ∧ expHolds (portIn 1 cREADY id) 1 = false ∧ (z.cport 1).xfer = none ∧
    (busyPort.cport 1).xfer = some {} ∧ expHolds busyPort 1 = false ∧ busyPort.cards.courtRun ≠ some 1 ∧ cState (portIn 1 cFAILED id) 1 = cFAILED ∧
    (portIn 1 cFAILED id).flag (rCHAM_PCTL 1) 0 = true ∧ tunedMode (cSpeed tuned 1) = true ∧ cUsable tuned 1 = true ∧
    (tuned.cport 1).retuneAt = none ∧ (tuned.cport 1).tunedAt + tuned.fld rCHAM_XRETUNE 15 0 * 1000000000 ≤ (tuned.at 65535000000000).now ∧
    0 < (tuned.cport 1).tunedAt + (tuned.setFld rCHAM_XRETUNE 15 0 1).fld rCHAM_XRETUNE 15 0 * 1000000000 ∧
    (0 - (tuned.cport 1).tunedTemp).natAbs < 10 * (tuned.setFld rCHAM_XRETUNE 23 16 1).fld rCHAM_XRETUNE 23 16 ∧
    (0 : Nat) + 1000000000 ≤ (z.at 1000000000).now ∧ ((List.replicate 48 true) ++ (List.range 8).map (fun i => (255 : Nat).testBit i)).length < 64 ∧
    64 ≤ ((List.replicate 56 true) ++ (List.range 8).map (fun i => (255 : Nat).testBit i)).length ∧
    (z.setFlag rTWEED_CLKSTAT 2 true).flag rTWEED_CLKSTAT 2 = true ∧
    0 + z.fld rCHAM_XCFG 23 16 * 1000000000 ≤ (z.at 255000000000).now ∧
    0 < (z.setFld rCHAM_XCFG 23 16 1).fld rCHAM_XCFG 23 16 * 1000000000 :=
  ⟨acts_of (by decide +kernel), acts_of (by decide +kernel), by decide +kernel⟩

/-- An export in a phase. -/
def exporting (phase : Nat) : State := z.onCards fun c => { c with exp := { job := some {}, phase := phase } }

/-- A court copy that one principal has asked for. -/
def court : State := z.onCards fun c => { c with court := some { princ := 5 } }

theorem witness_CardExports :
    Acts [] 0 z ∧ (exporting 3).cards.exp.job.isSome = true ∧ (exporting 3).cards.exp.phase = 3 ∧ (exporting 2).cards.exp.phase = 2 ∧
    z.cards.exp.job = none ∧ 2 ≤ (2#8).toNat ∧ (1#8).toNat < 2 ∧ z.cards.courtRun = none ∧ z.cards.court = none ∧
    court.cards.court = some { princ := (5#4).toNat } ∧ z.now ≤ 0 + 60000000000 ∧ 0 + 60000000000 ≤ (z.at 60000000000).now ∧
    (z.at 59999999999).now < 0 + 60000000000 := ⟨acts_of (by decide +kernel), by decide +kernel⟩

/-- Percale's slot 1 in a state, with a card. -/
def slotIn (st : Nat) (g : CardSlot → CardSlot) : State :=
  (setCSlot 1 (fun x => g { x with present := true }) (z.wr (rPERC_SCTL 1) 0x71#32)).setFld (rPERC_SSTAT 1) 2 0 st

theorem witness_SmartCards :
    Acts [(2, 2)] 0 z ∧ Acts [(2, 3)] 0 z ∧ Acts [] 0 z ∧ (slotIn 1 id).flag (rPERC_SCTL 1) 5 = true ∧ (z.cslot 1).present = false ∧
    ((slotIn 1 id).cslot 1).present = true ∧ (slotIn 1 id).flag (rPERC_SCTL 1) 6 = true ∧ (z.wr (rPERC_SCTL 1) 0x20#32).flag (rPERC_SCTL 1) 6 = false ∧
    (slotIn 1 id).flag (rPERC_SCTL 1) 0 = true ∧ pState (slotIn 1 id) 1 = 1 ∧ pState (slotIn 2 id) 1 = 2 ∧ ((slotIn 2 id).cslot 1).pps = false ∧
    (atrAccept [0x3C#8, 0] false).isNone = true ∧ ((slotIn 2 fun x => { x with pps := true }).cslot 1).pps = true ∧ pState (slotIn 3 id) 1 = 3 ∧
    (slotIn 3 id).flag (rPERC_SCTL 1) 4 = true ∧ ((slotIn 3 id).setFld (rPERC_SSTAT 1) 13 12 1).fld (rPERC_SSTAT 1) 13 12 ≠ 0 ∧
    ((slotIn 3 id).cslot 1).tx = [] ∧ ((slotIn 3 fun x => { x with tx := zeros 63 }).cslot 1).tx.length < 64 ∧
    64 ≤ ((slotIn 3 fun x => { x with tx := zeros 64 }).cslot 1).tx.length ∧ (slotIn 3 id).flag (rPERC_SSTAT 1) 5 = false ∧
    ((slotIn 3 id).cslot 1).repeats < 3 ∧ (3#4 : BitVec 4).toNat = 3 ∧ z.cards.auth = none ∧
    (z.onCards fun c => { c with preq := List.replicate 3 (0, 0) }).cards.preq.length < 4 ∧
    4 ≤ (z.onCards fun c => { c with preq := List.replicate 4 (0, 0) }).cards.preq.length :=
  ⟨acts_of (by decide +kernel), acts_of (by decide +kernel), acts_of (by decide +kernel), by decide +kernel⟩

/-- The DRBG serves 16 bytes when it is ready, and refuses in ERROR. -/
theorem witness_SmartCardsChallenge :
    (drbgNow 16 { z with rng := { z.rng with drbg := .ready } }).1.isSome = true ∧
    (drbgNow 16 { z with rng := { z.rng with drbg := .error } }).1 = none := by decide +kernel

/-! ## Witnesses: Serge's events, Tweed, Felt -/

/-- A source of the interrupt controller that may interrupt, with interrupts enabled. -/
def irq5 : State := ((z.wr (rIC_SRC 128) 0x00010105#32)).onSerge fun c => { c with ie := true }

theorem witness_AsynchronousTraps :
    Acts [] 0 z ∧ stalled z = false ∧ nmiDue (z.wr rIC_NMIPEND 1#32) = true ∧ nmiDue z = false ∧ storeErrDue (z.wr rCFAULT_SERRINFO 1#32) = true ∧
    storeErrDue z = false ∧ (irqDue irq5).isSome = true ∧ irqDue z = none ∧ stalled (z.onSerge fun c => { c with halted := true }) = true ∧ inOutbound 0x7FFFFFFF = true ∧
    inOutbound 0x10000010 = false ∧ outboundUp (z.onPcie fun p => { p with up := true, bme := true }) = true ∧ outboundUp z = false ∧
    z.serge.buf = [] ∧ z.serge.levels = [] ∧ (z.onSerge fun c => { c with levels := [7] }).serge.levels = 7 :: [] ∧ 128 ≤ (128#8).toNat ∧
    (127#8).toNat < 128 := ⟨acts_of (by decide +kernel), by decide +kernel⟩

theorem witness_TimersAndMonitors :
    Acts [] 0 z ∧ (z.wr (rTIMER_CTRL 3) 1#32).flag (rTIMER_CTRL 3) 0 = true ∧ (z.wr (rTIMER_CTRL 3) 0#32).flag (rTIMER_CTRL 3) 0 = false ∧
    (z.wr (rTIMER_CTRL 3) 3#32).flag (rTIMER_CTRL 3) 1 = true ∧ (z.wr (rTIMER_CTRL 3) 1#32).flag (rTIMER_CTRL 3) 1 = false ∧
    (z.wr rTWEED_WDCTRL 0#32).flag rTWEED_WDCTRL 0 = false ∧ (z.wr rTWEED_WDCTRL 1#32).flag rTWEED_WDCTRL 0 = true ∧
    (z.onSerge fun c => { c with wdKey := some 0 }).serge.wdKey = some 0 ∧ 3 * ((z.at 106).now - 0) ≤ 320 ∧
    16 * (0 - z.serge.wdAt) < (z.onSerge fun c => { c with wdWin := 1 }).serge.wdWin * z.serge.wdTimeout * 1000000 ∧
    z.serge.wdWin * z.serge.wdTimeout * 1000000 ≤ 16 * (0 - z.serge.wdAt) ∧
    98 * 4 * z.serge.wdTimeout * 1000000 ≤ 400 * ((z.at 1960000000).now - z.serge.wdAt) ∧
    98 * 3 * z.serge.wdTimeout * 1000000 ≤ 400 * ((z.at 1470000000).now - z.serge.wdAt) ∧ z.dying = false ∧
    (z.onPower fun p => { p with st := .lastBreath }).dying = true ∧ (z.wr (rCHK_CFG 11 31) 2#32).flag (rCHK_CFG 11 31) 1 = true ∧
    z.flag (rCHK_CFG 11 31) 1 = false := ⟨acts_of (by decide +kernel), by decide +kernel⟩

theorem witness_ClocksAndGates :
    Acts [] 0 z ∧ (z.setFlag (rTWEED_ROOTSEL 40) 9 true).flag (rTWEED_ROOTSEL 40) 9 = true ∧ z.flag (rTWEED_ROOTSEL 6) 9 = false ∧
    (inLife .fieldLife z).locked = true ∧ (1#2 : BitVec 2) ≠ 0#2 ∧ srcLegal 40 (bits (field 8 8 1 ||| field 1 0 (0#2).toNat) 1 0) = true ∧
    idleNeeded 40 = false ∧ idleNeeded 31 = true ∧ z.flag rTWEED_CLKSTAT 1 = false ∧
    (z.setFlag rTWEED_CLKSTAT 1 true).flag rTWEED_CLKSTAT 1 = true ∧
    (nth (setRoot 40 (fun x => { x with target := some 0 }) z).tweed.roots 40).target = some 0 ∧
    windowFails 96 (xinMHz z) (xinTol z) 4096 true = false ∧ windowFails 96 (xinMHz z) (xinTol z) 0 true = true ∧
    windowFails (xinMHz z) 100 (z.fld rTWEED_MONTOL 12 8) 0 true = true ∧ windowFails (xinMHz z) 100 (z.fld rTWEED_MONTOL 12 8) 246 true = false ∧
    (List.range 6).any (fun p => decide (rootCur z p = 0)) = true ∧
    z.tweed.xinGood + 1000000000 ≤ (z.at 1000000000).now ∧ (z.at 999999999).now < z.tweed.xinGood + 1000000000 ∧
    (z.setFlag (rTWEED_PLLSTAT 5) 3 true).flag (rTWEED_PLLSTAT 5) 3 = true ∧ z.flag (rTWEED_PLLSTAT 5) 3 = false ∧
    (nth (setPll 5 (fun x => { x with retries := some 2 }) z).tweed.plls 5).retries = some 2 ∧
    (z.onFelt fun f => { f with xrtcFail := true }).felt.xrtcFail = true ∧ z.felt.xrtcFail = false ∧ z.flag (rTWEED_PLLSTAT 5) 0 = true ∧
    15 < ckenBits 0 ∧ z.dying = false ∧ ckenLocked 1 7 = true ∧ z.locked = false ∧ (z.setFlag (rTWEED_GATESTAT 2) 9 true).gated 2 9 = true ∧
    z.gated 2 9 = false ∧ ((2, 9) : Nat × Nat) ∉ z.tweed.gating ∧
    ((2, 9) : Nat × Nat) ∈ (z.onTweed fun x => { x with gating := [(2, 9)] }).tweed.gating := ⟨acts_of (by decide +kernel), by decide +kernel⟩

theorem witness_ClocksFallBack :
    (List.range 6).any (fun p => decide (rootCur ([0, 1, 2, 3, 4, 5].foldl (fun s p => setCur p 1 s) z) p = 0)) = false := by decide +kernel

/-- The paired registers hold their complements. -/
theorem witness_VaultTime :
    Acts [] 0 z ∧ (z.onPower fun p => { p with st := .off }).power.st = .off ∧ z.power.st ≠ .off ∧ z.sfld rFELT_LEAP 16 = 0 ∧
    (∀ a ∈ rwsRegs, z.rd (a + 4) = ~~~ (z.rd a)) ∧ (z.wr rFELT_ALARM_HI 0x80000000#32).flag rFELT_ALARM_HI 31 = true ∧
    (z.wr rFELT_ALARM_HI 0#32).flag rFELT_ALARM_HI 31 = false ∧
    z.felt.rtc = (z.rd rFELT_ALARM_LO).toNat + 2 ^ 32 * (z.wr rFELT_ALARM_HI 0x80000000#32).fld rFELT_ALARM_HI 15 0 ∧
    (z.wr rFELT_PPSCFG 1#32).flag rFELT_PPSCFG 0 = true ∧ (z.wr rFELT_PPSCFG 0#32).flag rFELT_PPSCFG 0 = false ∧ z.mainOn = true ∧
    z.felt.slewRem = 0 ∧ (z.onFelt fun f => { f with slewRem := 1 }).felt.slewRem ≠ 0 ∧ z.felt.ppsAt = none ∧
    (ppsErr (0#64).toNat).natAbs ≤ z.fld rFELT_PPSCFG 23 16 * 10000 ∧ z.fld rFELT_PPSCFG 23 16 * 10000 < (ppsErr (499999999#64).toNat).natAbs ∧
    (z.setFld rFELT_FSTAT 10 8 1).fld rFELT_FSTAT 10 8 = 1 ∧
    z.felt.ppsAt.getD 0 + z.fld rFELT_PPSCFG 31 24 * 1000000000 ≤ evtNs (256 * 2 ^ 24) ∧
    evtNs 0 < z.felt.ppsAt.getD 0 + z.fld rFELT_PPSCFG 31 24 * 1000000000 ∧
    (z.wr rFELT_LEAP 0x1#32).sfld rFELT_LEAP 16 ≠ 0 ∧ setTimeCheck z [] ≠ aOK ∧ z.felt.switchEnd ≤ z.now ∧
    (let y := z.onFelt fun f => { f with switchEnd := 1000000000000000 }; y.now < y.felt.switchEnd) ∧
    (z.onFelt fun f => { f with queue := [(rFELT_PPSCFG, 1#32)] }).felt.queue = (rFELT_PPSCFG, 1#32) :: [] :=
  ⟨acts_of (by decide +kernel), by decide +kernel⟩

theorem witness_TamperAndShadows :
    Acts [] 0 z ∧ (z.onPower fun p => { p with st := .off }).power.st = .off ∧ z.power.st ≠ .off ∧ z.felt.tbist ≠ some 7 ∧
    (z.onFelt fun f => { f with tbist := some 18 }).felt.tbist = some 18 ∧ (z.onFelt fun f => { f with tbist := some 8 }).felt.tbist = some 8 ∧ z.power.io18 = true ∧ z.power.st = .run ∧
    (230 : Nat) ≤ 294 ∧ (229 : Nat) < 230 ∧ (nth z.felt.src 13).tripped = false ∧ (∃ a ∈ rwsRegs, (BitVec.ofNat 32 a).toNat = a) ∧
    z.felt.half = none ∧ (18 : Nat) < (19#8).toNat ∧ (18#8).toNat ≤ 18 ∧ z.felt.tbist = none ∧
    (rwsRegs.head?.map fun a => decide (a ∈ rwsRegs ∧ a + 4 ∉ rwsRegs)) = some true :=
  ⟨acts_of (by decide +kernel), by decide +kernel, by decide +kernel, by decide +kernel, by decide +kernel, by decide +kernel,
   by decide +kernel, by decide +kernel, by decide +kernel, by decide +kernel, by decide +kernel, ⟨rwsRegs.headD 0, by decide +kernel, by decide +kernel⟩,
   by decide +kernel⟩

/-- A device of PERSONALISE. -/
def making : State := inLife .personalise z

/-- A programming of two words. -/
def burning : State := z.onFuse fun f => { f with op := some { op := 1, addr := 200, words := [(400, 1#32), (401, 2#32)] } }

theorem witness_FuseCommands :
    Acts [(0, 0)] 0 z ∧ burning.fuse.op.isSome = true ∧ z.dying = false ∧ z.fuse.op = none ∧ fuseCheck z 1 200 1#32 851 ≠ 0 ∧
    fuseCheck z 1 200 1#32 850 = 0 ∧ fuseCheck (inLife .scrap z) 2 20 1#32 250 ≠ 0 ∧ fuseCheck z 2 20 1#32 0 = 0 ∧
    fuseCheck (inLife .scrap z) 3 15 1#32 250 ≠ 0 ∧ fuseCheck z 3 15 1#32 250 = 0 ∧ fuseCheck (inLife .scrap z) 4 0 0#32 250 ≠ 0 ∧
    fuseCheck z 4 0 0#32 250 = 0 ∧ (drbgNow 32 { z with rng := { z.rng with drbg := .ready } }).1.isSome = true ∧
    (drbgNow 32 { z with rng := { z.rng with drbg := .error } }).1 = none ∧ [(400, 1#32), (401, 2#32)].length ≤ 2 ∧
    ([(400, 1#32), (401, 2#32)].drop 1).head? = some (401, 2#32) ∧ (z.onPower fun p => { p with st := .lastBreath }).dying = true ∧
    (449 - signed 16 (z.fld rFUSE_TEMPREF 15 0)).natAbs < 200 ∧ 200 ≤ (450 - signed 16 (z.fld rFUSE_TEMPREF 15 0)).natAbs ∧
    (0 : Nat) < (4#8 : BitVec 8).toNat ∧ lifeAllowed z 1 = false ∧ lifeAllowed z 4 = true ∧ z.fuse.life ≠ .personalise := ⟨acts_of (by decide +kernel), by decide +kernel⟩

/-- Recovery, with the flash at work, the challenge taken, and so on. -/
def bootAs (g : Boot → Boot) : State := z.onBoot g

set_option maxRecDepth 100000 in
theorem witness_FirmwareAndDebug :
    Acts [] 0 z ∧ Acts [(0, 12)] 0 z ∧ z.boot.recovery = true ∧ (bootAs fun b => { b with recovery := false }).boot.recovery = false ∧
    (z.boot.uart ++ zeros 511).length < 512 ∧ 512 ≤ (z.boot.uart ++ zeros 512).length ∧ hdrValid ((z.boot.uart ++ zeros 512).take 512) = false ∧
    (bootAs fun b => { b with flashOp := some (.erase true) }).boot.flashOp = some (.erase true) ∧ z.boot.flashOp = none ∧
    (0x1FFFFF#32).toNat ≤ 0x1FFFFF ∧ 0x1FFFFF < (0x7FFFFFFF#32).toNat ∧ (0x7FFFFFFF#32).toNat < 0x80000000 ∧ 0x80000000 ≤ (0x80000000#32).toNat ∧
    (bootAs fun b => { b with offset := 0x1FFFFF }).boot.offset + ([1] : Bytes).length ≤ 0x200000 ∧
    0x200000 < (bootAs fun b => { b with offset := 0x1FFFFF }).boot.offset + ([1, 2] : Bytes).length ∧
    z.boot.written.any (fun r => decide (r.1 < 0x1FFFFF + 1 ∧ 0x1FFFFF < r.1 + r.2)) = false ∧ z.boot.warm = .idle ∧
    (bootAs fun b => { b with warm := .loading }).boot.warm ≠ .idle ∧ (bootAs fun b => { b with header := zeros 512 }).boot.header ≠ [] ∧
    hfld (zeros 512) 0x14 1 ≤ thermoOf z 0 ∧ thermoOf z 0 < hfld (zeros 20 ++ [1] ++ zeros 491) 0x14 1 ∧
    debugShut (z.wr rBOOT_DBGSTAT 6#32) = true ∧ debugShut z = false ∧ debugAccepts z (zeros 64) = false ∧
    (drbgNow 32 { z with rng := { z.rng with drbg := .ready } }).1.isSome = true ∧ z.power.lb < 5 ∧
    (z.onDiag fun d => { d with pushes := 999 }).diag.pushes < 1000 ∧ 1000 ≤ (z.onDiag fun d => { d with pushes := 1000 }).diag.pushes ∧
    standing z 255 = none ∧ standing (z.onPower fun p => { p with pfailN := false }) 7 = some (8, 0) ∧
    standing (z.onFelt fun f => { f with cellOut := true }) 226 = some (9, 0) := ⟨acts_of (by decide +kernel), acts_of (by decide +kernel), by decide +kernel⟩

/-- A field of bits 7:1 of a type, whose legal values are 0–5. -/
def fldOf (ty : FieldTy) : Fld := { hi := 7, lo := 1, ty := ty, rst := .value, val := 0, legalLo := 0, legalHi := 5 }

theorem witness_FieldWrites :
    (fldOf .rw).lo ≤ (fldOf .rw).hi ∧ (fldOf .rw).hi < 32 ∧ (fldOf .rw).legalLo ≤ bits 10#32 7 1 ∧ bits 10#32 7 1 ≤ (fldOf .rw).legalHi ∧
    (fldOf .rw).legalHi < bits 12#32 7 1 ∧ (fldOf .w1c).ty = .w1c ∧ (fldOf .w1sk).ty = .w1sk ∧ (fldOf .ro).ty ≠ .rw ∧
    (fldOf .ro).ty ≠ .w1c ∧ (fldOf .ro).ty ≠ .w1sk := by decide

theorem witness_RegisterWrites :
    (z.onPower fun p => { p with released := false }).live = false ∧ z.live = true ∧ unitless 0x4014FFFF = true ∧ unitless 0x40150000 = false ∧
    (regAt 0x40000F00).isNone = true ∧ (0x40040001 : Nat) % 4 ≠ 0 ∧ (regAt (rIC_SRC 128)).isSome = true ∧ srcListed 128 = true ∧
    inPrivate (rIC_SRC 128) = true ∧ inPrivate rCANVAS_CTRL = false ∧ (z.wr (rTWEED_GATESTAT 0) 2#32).gated 0 1 = true ∧
    regGated (z.wr (rTWEED_GATESTAT 0) 2#32) rCANVAS_CTRL = true ∧ regGated z rCANVAS_CTRL = false ∧
    regLost (z.onTweed fun x => { x with lost := [(0, 1)] }) rCANVAS_CTRL = true ∧ regLost z rRNG_CTRL = false ∧ regGated z rRNG_CTRL = false ∧
    0x40120000 ≤ rRNG_CTRL ∧ (regAt rRNG_CTRL).isSome = true ∧ (regAt (rCHK_CFG 0 0)).isSome = true ∧ 0x40030000 ≤ rCHK_CFG 0 0 ∧
    rCHK_CFG 0 0 < 0x40040000 ∧ z.reached = false ∧ (z.onPcie fun p => { p with up := true }).reached = true ∧ regGated z (bar0 + 0x7FFC) = false ∧
    regGated z (bar0 + 0xFFFFC) = false ∧ z.gated 0 2 = false := by decide +kernel

/-! ## One step: the spec's worked examples -/

/-- Serge before the call of *Worked example — a call with a spill* of 14_serge_core.md; the example's word for each step. -/
def caller (pc : Word) (cwp oldest count : Nat) (g : Serge → Serge) : State :=
  (((z.wr rSPILL_WSP 0x101FE000#32).wr rSPILL_WSL 0x101FC000#32).wr rSPILL_WSB 0x10200000#32).onSerge fun c =>
    g (({ c with pc := pc, cwp := cwp, oldest := oldest, count := count } : Serge).setX 7 0x10018000#32)

/-- Steps 1 and 2: ADDI d0, c0, 5 and CALL f. -/
theorem test_addi : nextB (exec (.addi 24 0 5 env0) (caller 0x10000100#32 5 7 14 id))
    (fun t => decide (t.x 24 = 5#32 ∧ t.serge.pc = 0x10000104#32)) = true := by decide +kernel
theorem test_call : nextB (exec (.call 63 env0) (caller 0x10000104#32 5 7 14 id))
    (fun t => decide (t.x 31 = 0x10000108#32 ∧ t.serge.pc = 0x10000200#32)) = true := by decide +kernel

/-- Step 3: ENTER 4 spills frame 7; the caller's d0 is f's a0. -/
theorem test_enter_spills : nextB (exec (.enter 4 env0) (caller 0x10000200#32 5 7 14 fun c => c.setX 24 5#32))
    (fun t => decide (t.rd rSPILL_WSP = 0x101FDFC0#32 ∧ t.serge.oldest = 8 ∧ t.serge.cwp = 6 ∧ t.serge.count = 14 ∧
      t.x 23 = 0x10018000#32 ∧ t.x 7 = 0x10017FE0#32 ∧ t.x 8 = 5#32)) = true := by decide +kernel

/-- Step 4: ADD d0, a0, a0. -/
theorem test_add : nextB (exec (.add 24 8 8 env0) (caller 0x10000204#32 6 8 14 fun c => c.setX 8 5#32)) (fun t => decide (t.x 24 = 10#32)) = true := by
  decide +kernel

/-- Step 9: LEAVE needs no fill; c7 comes back from t7. -/
theorem test_leave : nextB (exec (.leave env0) (caller 0x10000210#32 6 8 14 fun c => c.setX 23 0x10018000#32))
    (fun t => decide (t.serge.cwp = 5 ∧ t.serge.count = 13 ∧ t.x 7 = 0x10018000#32 ∧ t.serge.pc = 0x10000214#32)) = true := by decide +kernel

/-- Step 4 of *Worked example — an interrupt that needs the reserve* (15_serge_traps_access.md): TDROP spills below WSL. -/
theorem test_tdrop_reserve : nextB (exec (.tdrop 2 env0) ((caller 0x10000040#32 3 5 14 fun c => { c with tw := true }).wr rSPILL_WSP 0x101FC000#32))
    (fun t => decide (t.rd rSPILL_WSP = 0x101FBFC0#32 ∧ t.serge.oldest = 6 ∧ t.serge.cwp = 4 ∧ t.serge.count = 14 ∧ t.serge.tw = false)) = true := by
  decide +kernel

/-- Step 8: ENTER finds the limit, and traps with EVAL the address it would have used. -/
theorem test_enter_limit : nextB (exec (.enter 2 env0) ((caller 0x10000200#32 4 6 14 id).wr rSPILL_WSP 0x101FBFC0#32))
    (fun t => decide (t.serge.tw = true ∧ t.serge.ecause.toNat % 64 = tSPILLLIMIT ∧ t.serge.eval = 0x101FBFC0#32 ∧
      t.serge.epc = 0x10000200#32)) = true := by decide +kernel

/-- *Worked example — a crystal failure and the return* (16_tweed_clocks.md): the bounds of the XIN monitor. -/
theorem test_xin_bounds : monLow 96 25 10 = 3735 ∧ monHigh 96 25 10 = 4129 := by decide

/-- *Worked example — an update with a trial boot* (18_fuses_lifecycle_boot.md), step 8: bit 12 of words 64 and 66. -/
theorem test_thermo_step : stepWords 0 13 = [(64, 0x1000#32), (66, 0x1000#32)] := by decide

/-- *Worked example — rotating custody 9's data key* (05_damask_keys_digest_cipher.md), steps 1 and 2: the handle 0x0728. -/
theorem test_alloc_handle : nextB (exec (.alloc 0 40) (withSlot 40 { gen := 6 } (z.wr rKEYSTORE_ATTRIN 0x03F40924#32)))
    (fun t => decide (t.fld rKEYSTORE_RESULT 15 0 = 0x0728 ∧ t.fld rKEYSTORE_RESULT 31 16 = ksOK ∧ (t.slot 40).st = .reserved ∧
      aOwner (t.slot 40).attr = 9 ∧ aKtype (t.slot 40).attr = 4 ∧ aLen (t.slot 40).attr = 64)) = true := by decide +kernel

/-- *Worked example — a channel lost twice* (19_long_run_and_faults.md): the entry of step 1, byte by byte. -/
theorem test_diag_entry : ({ evt := 0x002F669E85800000, type := 1, src := 0x2E, code := 0x63, arg := 0x502 } : DiagEntry).bytes =
    [0x00, 0x00, 0x80, 0x85, 0x9E, 0x66, 0x2F, 0x00, 0x01, 0x2E, 0x63, 0x00, 0x02, 0x05, 0x00, 0x00] := by decide

/-- *Worked example — a session and one read* (11_gingham_can_ydp.md): a copy of frame 5 lies 255 behind; a reissue with CTRLO 1 counts 1. -/
theorem test_ydp_counter : rxCount 1 0 = 256 ∧ rxCount 0 1 = 1 ∧ frameOk 4 ([0x07, 0x00, 0x14, 0x10] ++ zeros 28) = true := by decide

/-! ## One step: effects that the rules give in words -/

/-- R821: a division by 0 gives all ones, and its remainder the dividend. -/
theorem test_div_zero : nextB (exec (.div 8 3 2 env0) (regs3 0 7#32 0)) (fun t => decide (t.x 8 = 0xFFFFFFFF#32)) = true := by decide +kernel
theorem test_rem_zero : nextB (exec (.rem 8 3 2 env0) (regs3 0 7#32 0)) (fun t => decide (t.x 8 = 7#32)) = true := by decide +kernel

/-- c0 reads 0 whatever is written to it. -/
theorem test_c0 : nextB (exec (.addi 0 0 5 env0) z) (fun t => decide (t.x 0 = 0#32 ∧ t.serge.rf = [])) = true := by decide +kernel

/-- A store is seen by a load before it drains. -/
theorem test_store_forwards : nextB (exec (.lw 8 2 0 env0) ((regs3 0x10000010#32 0 0).onSerge fun c => { c with buf := oneStore.serge.buf }))
    (fun t => decide (t.x 8 = 0xABCD#32)) = true := by decide +kernel

/-- A shift by 32 is a shift by 0: the low five bits count. -/
theorem test_sll_amount : nextB (exec (.sll 8 3 2 env0) (regs3 33#32 3#32 0)) (fun t => decide (t.x 8 = 6#32)) = true := by decide +kernel

/-- An illegal word traps with the word in EVAL. -/
theorem test_illegal : nextB (exec (.illegalInstruction 0xFFFFFFFF#32 env0) z)
    (fun t => decide (t.serge.ecause.toNat = tILLEGAL ∧ t.serge.eval = 0xFFFFFFFF#32 ∧ t.serge.tw = true)) = true := by decide +kernel

/-- A full queue of 16 turns a job away; a full one of 8 at the PK unit. -/
theorem test_qerr : nextB (exec (.cipherSubmit 0 0x10000000#32) { z with cipher := { z.cipher with queue := List.replicate 16 0 } })
    (fun t => decide (t.cipher.queue.length = 16) && t.flag (rUIntstat .cipher) 2) = true := by decide +kernel

/-- A descriptor list of 4 is full. -/
theorem test_lsubmit_full : nextB (exec (.lsubmit 0 0x10000020#32) (z.onDict fun d => { d with localQ := [1, 2, 3, 4] }))
    (fun t => t.flag rDENG_INTSTAT 4) = true := by decide +kernel

/-- RST_N low for 3 s to RSTHOLD_MAX asks for service when it rises. -/
theorem test_svcreq : nextB (exec (.rstNRise 3000000000) (z.onPower fun p => { p with rstN := false }))
    (fun t => t.flag rTWEED_RSTCAUSE 14) = true := by decide +kernel

/-- The alarm compares RTC. -/
theorem test_alarm : nextB (exec (.alarm 0) ((z.wr rFELT_ALARM_HI 0x80000000#32).onFelt fun f => { f with rtc := 0 }))
    (fun t => t.flag rFELT_FINTSTAT 3) = true := by decide +kernel

/-- A write to an address without a register is a bus error; to the GPIO, a refusal. -/
theorem test_bus_error : stopsB (exec (.registerWrite 0 (.dev 0x40000F00#32) 0 {}) z) (some .busError) none = true ∧
    stopsB (exec (.registerWrite 0 (.dev 0x40130000#32) 0 {}) z) none (some .unitNotGiven) = true := by decide +kernel

/-- A command of a gated block has no effect. -/
theorem test_gated : nextB (exec (.checkpointNow 0) (z.wr (rTWEED_GATESTAT 0) 0x200#32)) (fun t => decide (t.jrn.ckRunning = none)) = true := by
  decide +kernel

/-- An idle step changes nothing. -/
theorem test_idle : step z = .next z := rfl

end Sys2Proof.Tests
end

section
/-!
Serge's registers as an instruction leaves them: what a read of a register returns after a write to the same and to another one (R787, R788),
and the state in which an instruction that writes one register has retired.
-/

namespace Sys2Proof.Proofs

open Sys2Proof Sys2Proof.Machine Sys2Proof.Laws

/-- Two register fields name the same place of the physical file only when they are equal: a registers lie in the window below, or with TW 1
in the current one, where the t and d registers are those of window 15. -/
theorem phys_inj {c : Serge} (h : c.cwp < 15) {r q : BitVec 5} (hr : r ≠ 0) (hq : q ≠ 0) (e : c.phys r.toNat = c.phys q.toNat) : r = q := by
  have hr0 : r.toNat ≠ 0 := fun k => hr (BitVec.eq_of_toNat_eq k)
  have hq0 : q.toNat ≠ 0 := fun k => hq (BitVec.eq_of_toNat_eq k)
  have hbelow : (c.cwp + 14) % 15 ≠ c.cwp ∧ (c.cwp + 14) % 15 < 15 := by omega
  have hr32 := r.isLt
  have hq32 := q.isLt
  apply BitVec.eq_of_toNat_eq
  cases ht : c.tw <;> simp only [Serge.phys, Serge.win, ht, if_true, Bool.false_eq_true, if_false] at e
  · split_ifs at e <;> omega
  · split_ifs at e <;> omega

@[simp] theorem file_setFile_self (c : Serge) (i : Nat) (w : Word) : (c.setFile i w).file i = w := sget_sset_self _ _ _ _

theorem file_setFile_other (c : Serge) {i j : Nat} (w : Word) (h : j ≠ i) : (c.setFile i w).file j = c.file j :=
  sget_sset_other _ _ _ _ _ h

/-- A write of c0 is discarded (R787). -/
@[simp] theorem setX_zero (c : Serge) (w : Word) : c.setX 0 w = c := if_pos rfl

theorem setX_of_ne (c : Serge) {r : BitVec 5} (w : Word) (h : r ≠ 0) : c.setX r w = c.setFile (c.phys r.toNat) w := if_neg h

/-- A register write touches no place of the file but its own. -/
theorem file_setX_other (c : Serge) {r : BitVec 5} {i : Nat} (w : Word) (h : r = 0 ∨ i ≠ c.phys r.toNat) : (c.setX r w).file i = c.file i := by
  by_cases hr : r = 0
  · subst hr; rw [setX_zero]
  · rw [setX_of_ne c w hr, file_setFile_other c w (h.resolve_left hr)]

/-- Every register after a write of one (R787, R788). -/
theorem x_setX {c : Serge} (h : c.cwp < 15) (r q : BitVec 5) (w : Word) : (c.setX r w).x q = if q = r ∧ q ≠ 0 then w else c.x q := by
  by_cases hq : q = 0
  · simp [Serge.x, hq]
  by_cases e : q = r
  · subst e
    rw [if_pos ⟨rfl, hq⟩, setX_of_ne c w hq]
    exact (if_neg hq).trans (file_setFile_self c _ w)
  · have hplace : r = 0 ∨ c.phys q.toNat ≠ c.phys r.toNat := or_iff_not_imp_left.mpr fun hr k => e (phys_inj h hq hr k)
    have hphys : (c.setX r w).phys q.toNat = c.phys q.toNat := by unfold Serge.setX; split <;> rfl
    simp [Serge.x, e, hphys, file_setX_other c w hplace]

/-- A register write and the retirement after it change nothing but what `Retired` lists. -/
theorem retire_setX (s : State) (pc : Word) (cost : Nat) (rd : BitVec 5) (w : Word) :
    retire pc cost (s.setX rd w) = Retired s pc cost (s.serge.setX rd w).rf := by
  by_cases h : rd = 0
  · subst h; rfl
  · simp only [retire, State.setX, State.onSerge, setX_of_ne _ w h]; rfl

/-- An instruction that ends in a write of `rd` leaves what `Writes` says. -/
theorem writes_retire_setX {s : State} (h : s.serge.cwp < 15) (pc : Word) (cost : Nat) (rd : BitVec 5) (w : Word) :
    Writes s (retire pc cost (s.setX rd w)) pc cost rd w :=
  ⟨⟨_, retire_setX s pc cost rd w⟩, fun r => x_setX h rd r w, fun _ hi => file_setX_other s.serge w hi⟩

@[simp] theorem setX_pc (c : Serge) (r : BitVec 5) (w : Word) : (c.setX r w).pc = c.pc := by
  unfold Serge.setX; split <;> rfl

/-- The same at the next instruction. -/
theorem writes_next_setX {s : State} (h : s.serge.cwp < 15) (cost : Nat) (rd : BitVec 5) (w : Word) :
    Writes s (next cost (s.setX rd w)) (s.serge.pc + 4) cost rd w := by
  have hpc : (s.setX rd w).serge.pc = s.serge.pc := setX_pc s.serge rd w
  rw [next, hpc]
  exact writes_retire_setX h _ cost rd w

theorem cwp_lt_of_wf {c : Serge} (h : Core.wf c = true) : c.cwp < 15 := (of_decide_eq_true h).1

end Sys2Proof.Proofs

/-! MOVG (R809, R22): what each special register reads, and the latch that a counter's low word leaves for its high word. -/

namespace Sys2Proof.Proofs

open Sys2Proof Sys2Proof.Machine Sys2Proof.Laws

/-- PSTAT's fields do not overlap, so the word is their sum. -/
theorem pstat_eq_sum (c : Serge) :
    c.pstat = (if c.priv then 1#32 else 0#32) + (if c.ie then 2#32 else 0#32) + (if c.tw then 4#32 else 0#32) +
      (if c.ct then 8#32 else 0#32) := by
  unfold Serge.pstat
  generalize c.priv = a, c.ie = b, c.tw = d, c.ct = e
  revert a b d e
  decide

/-- A value latched is the one its register's next read finds. -/
@[simp] theorem lookup_latch_self (a : Nat) (w : Word) (s : State) : (latch [(a, w)] s).latches.lookup a = some w := by
  simp [latch]

/-- The high word of a counter, read with a latched value: that value, which is released (R22). -/
theorem srRead_high_latched {n : Nat} (hn : n = 0x11 ∨ n = 0x13) {s : State} {w : Word} (h : s.latches.lookup (srLatch n) = some w) :
    srRead n s = (w, { s with latches := s.latches.filter (fun e => e.1 != srLatch n) }) := by
  rcases hn with rfl | rfl <;> simp only [srRead, h]

/-- CYCLE's high word, read with nothing latched: the present value (notes/assumptions/8.md). -/
theorem srRead_cycleHigh_unlatched {s : State} (h : s.latches.lookup (srLatch 0x11) = none) : srRead 0x11 s = (hiWord s.serge.cycles, s) := by
  simp only [srRead, h]

section
variable {env : CoreEnv} {s s' u : State} {rd : BitVec 5} {n : BitVec 11} {w : Word}

/-- MOVG of a listed register that the mode may read ends in a write of `rd` with what the register reads. -/
theorem exec_movg (hi : Issues env s s') (hn : srListed n.toNat = true) (hp : s'.serge.priv = true ∨ srAnyMode n.toNat = true)
    (hr : srRead n.toNat s' = (w, u)) : exec (.movg rd n env) s = .next (next 1 (u.setX rd w)) := by
  have hp' : (!s'.serge.priv && !srAnyMode n.toNat) = false := by rcases hp with h | h <;> simp [h]
  exact issue_ok (g := movgInstr rd n) hi (by simp [movgInstr, hn, hp', hr])

/-- MOVG of a register whose read changes nothing. -/
theorem movg_reads (hw : Core.wf s'.serge = true) (hi : Issues env s s') (hn : srListed n.toNat = true)
    (hp : s'.serge.priv = true ∨ srAnyMode n.toNat = true) (hr : srRead n.toNat s' = (w, s')) :
    ∃ t, exec (.movg rd n env) s = .next t ∧ Writes s' t (s'.serge.pc + 4) 1 rd w :=
  ⟨_, exec_movg hi hn hp hr, writes_next_setX (cwp_lt_of_wf hw) 1 rd w⟩

/-- MOVG of a counter's low word: `rd` takes it, and the high word is latched (R22). -/
theorem movg_low (hw : Core.wf s'.serge = true) (hi : Issues env s s') (hn : srListed n.toNat = true) (ha : srAnyMode n.toNat = true)
    {m v : Nat} (hr : srRead n.toNat s' = (loWord v, latch [(srLatch m, hiWord v)] s')) :
    ∃ t, exec (.movg rd n env) s = .next t ∧
      Writes { s' with latches := t.latches } t (s'.serge.pc + 4) 1 rd (BitVec.ofNat 32 v) ∧
      t.latches.lookup (srLatch m) = some (BitVec.ofNat 32 (v / 2 ^ 32)) :=
  ⟨_, exec_movg hi hn (.inr ha) hr,
    writes_next_setX (s := latch [(srLatch m, hiWord v)] s') (cwp_lt_of_wf hw) 1 rd (loWord v),
    lookup_latch_self _ (hiWord v) s'⟩

/-- MOVG of a counter's latched high word: `rd` takes the latched word, and the latch is released (R22). -/
theorem movg_high (hw : Core.wf s'.serge = true) (hi : Issues env s s') (hn : n.toNat = 0x11 ∨ n.toNat = 0x13)
    (hl : s'.latches.lookup (srLatch n.toNat) = some w) :
    ∃ t, exec (.movg rd n env) s = .next t ∧
      Writes { s' with latches := s'.latches.filter (fun e => e.1 != srLatch n.toNat) } t (s'.serge.pc + 4) 1 rd w :=
  have hlisted : srListed n.toNat = true := by rcases hn with h | h <;> rw [h] <;> rfl
  have hany : srAnyMode n.toNat = true := by rcases hn with h | h <;> rw [h] <;> rfl
  ⟨_, exec_movg hi hlisted (.inr hany) (srRead_high_latched hn hl),
    writes_next_setX (s := { s' with latches := s'.latches.filter (fun e => e.1 != srLatch n.toNat) }) (cwp_lt_of_wf hw) 1 rd w⟩

end

/-- Settles O24: each number is read by `srRead`'s own case for it. That the high word's read releases the latch, and gives the present value
when nothing is latched, is the model's reading (notes/assumptions/8.md). -/
theorem movgResults : Obligations.MovgResults := by
  intro env s s' rd hw hi
  refine ⟨fun hp => ⟨?_, ?_, ?_, ?_, ?_, ?_, ?_⟩, ?_, ?_, ?_, ?_, ?_, ?_⟩
  · rw [← pstat_eq_sum]
    exact movg_reads (n := 0) hw hi rfl (.inl hp) rfl
  · exact movg_reads (n := 1) hw hi rfl (.inl hp) rfl
  · exact movg_reads (n := 2) hw hi rfl (.inl hp) rfl
  · exact movg_reads (n := 3) hw hi rfl (.inl hp) rfl
  · exact movg_reads (n := 4) hw hi rfl (.inl hp) rfl
  · exact movg_reads (n := 5) hw hi rfl (.inl hp) rfl
  · exact movg_reads (n := 8) hw hi rfl (.inl hp) rfl
  · exact movg_reads (n := 0x20) hw hi rfl (.inr rfl) rfl
  · exact movg_low (n := 0x10) hw hi rfl rfl rfl
  · exact movg_low (n := 0x12) hw hi rfl rfl rfl
  · exact fun w hl => movg_high (n := 0x11) hw hi (.inl rfl) hl
  · exact fun w hl => movg_high (n := 0x13) hw hi (.inr rfl) hl
  · exact fun hl => movg_reads (n := 0x11) hw hi rfl (.inr rfl) (srRead_cycleHigh_unlatched hl)

end Sys2Proof.Proofs
end

section
/-! How one field takes a written value (R16, R19): `Fld.write` said once for each type, and the bits that result. -/

namespace Sys2Proof.Proofs

open Sys2Proof Sys2Proof.Machine Sys2Proof.Laws

/-- Bits `hi:lo` of `v`, moved back to where they stood: those bits of `v`, and 0 elsewhere. -/
theorem bit_field_bits (v : Word) {hi lo i : Nat} (h : i < 32) :
    bit (field hi lo (bits v hi lo)) i = (decide (lo ≤ i ∧ i ≤ hi) && bit v i) := by
  have hdef : bit (field hi lo (bits v hi lo)) i = (decide (lo ≤ i) && (decide (i - lo < hi + 1 - lo) && bit v (lo + (i - lo)))) := by
    unfold field
    rw [bits, Nat.mod_mod, ← bits]
    simp only [bit, BitVec.getLsbD_ofNat, Nat.testBit_shiftLeft, h, decide_true, Bool.true_and, bits_testBit, ge_iff_le]
  rw [hdef]
  by_cases hlo : lo ≤ i
  · have hfits : i - lo < hi + 1 - lo ↔ i ≤ hi := by omega
    simp only [hlo, true_and, decide_true, Bool.true_and, hfits, Nat.add_sub_cancel' hlo]
  · simp [hlo]

section
variable {x : Fld} {old v : Word}

/-- RW takes a legal value (R16). -/
theorem fldWrite_rw_legal (ht : x.ty = .rw) (hl : x.legalLo ≤ bits v x.hi x.lo) (hh : bits v x.hi x.lo ≤ x.legalHi) :
    x.write old v = setBits old x.hi x.lo (bits v x.hi x.lo) := by
  simp [Fld.write, ht, hl, hh]

/-- RW keeps its own value over a reserved one (R19). -/
theorem fldWrite_rw_reserved (ht : x.ty = .rw) (h : bits v x.hi x.lo < x.legalLo ∨ x.legalHi < bits v x.hi x.lo) :
    x.write old v = old := by
  have hn : ¬ (x.legalLo ≤ bits v x.hi x.lo ∧ bits v x.hi x.lo ≤ x.legalHi) := by omega
  simp only [Fld.write, ht, if_neg hn]

theorem fldWrite_w1c (ht : x.ty = .w1c) : x.write old v = old &&& ~~~ (field x.hi x.lo (bits v x.hi x.lo)) := by
  simp only [Fld.write, ht]

theorem fldWrite_w1sk (ht : x.ty = .w1sk) : x.write old v = old ||| field x.hi x.lo (bits v x.hi x.lo) := by
  simp only [Fld.write, ht]

/-- A write changes no field of another type. -/
theorem fldWrite_other (h1 : x.ty ≠ .rw) (h2 : x.ty ≠ .w1c) (h3 : x.ty ≠ .w1sk) : x.write old v = old := by
  unfold Fld.write
  split
  · exact absurd ‹_› h1
  · exact absurd ‹_› h2
  · exact absurd ‹_› h3
  · rfl

end

/-- Settles O59, by the type of the field. A reserved encoding is one outside the field's bounds
(notes/assumptions/84.md); only W1S bits that stay set (`w1sk`) are set by the write itself, so `w1s`, `rws` and `wo` stand with the types that
do not change. -/
theorem fieldWrites : Obligations.FieldWrites := by
  intro x old v _ hhi
  refine ⟨fun ht hl hh => ?_, fun ht hr => fldWrite_rw_reserved ht hr, fun ht i hi => ?_, fun ht i hi => ?_, fldWrite_other⟩
  · rw [fldWrite_rw_legal ht hl hh]
    constructor
    · rw [bits_setBits_self _ _ _ _ hhi, bits, Nat.mod_mod]
    · intro i hi hout
      rw [bit_setBits _ _ _ _ _ hi, if_neg (by omega)]
  · rw [fldWrite_w1c ht, ← bit_field_bits v hi]
    simp [bit, hi]
  · rw [fldWrite_w1sk ht, ← bit_field_bits v hi]
    simp [bit]

end Sys2Proof.Proofs
end

section
/-! REGISTER_WRITE: the outcome of each window, the writes that a block's register takes, and the host's windows by their offset. -/

namespace Sys2Proof.Proofs

open Sys2Proof Sys2Proof.Machine Sys2Proof.Laws

/-! ## A single byte and a window -/

theorem within_of_mem {base size a : Nat} (h : base ≤ a ∧ a < base + size) : within base size a 1 = true := decide_eq_true (by omega)

theorem within_of_notMem {base size a : Nat} (h : a < base ∨ base + size ≤ a) : within base size a 1 = false := decide_eq_false (by omega)

/-! ## The device's window -/

section
variable {a : Nat} {w : Word} {env : WriteEnv} {s : State} {r : RegDesc}

/-- A write of a mapped register is by its fields (R16). -/
theorem plainWrite_of_regAt (h : regAt a = some r) : plainWrite a w s = s.wr a (r.write (s.rd a) w) := by
  simp only [plainWrite, h]

theorem devWrite_unitless (h : unitless a = true) : devWrite a w env s = .refused .unitNotGiven := if_pos h

theorem devWrite_unmapped (hu : unitless a = false) (h : regAt a = none ∨ a % 4 ≠ 0) : devWrite a w env s = .fault .busError := by
  have hbad : ((regAt a).isNone || a % 4 != 0) = true := by simpa using h
  simp [devWrite, hu, hbad]

section
variable (hu : unitless a = false) (hr : regAt a = some r) (ha : a % 4 = 0)
include hu hr ha

theorem devWrite_inPrivate (hp : inPrivate a = true) : devWrite a w env s = .next (coreWrite a w env s) := by
  simp [devWrite, hu, hr, ha, hp]

/-- A gated block ignores the write (R965). -/
theorem devWrite_gated (hp : inPrivate a = false) (hg : regGated s a = true) : devWrite a w env s = .next s := by
  simp [devWrite, hu, hr, ha, hp, hg, regWrite]

/-- A block that lost its state is undefined (R962). -/
theorem devWrite_lost (hp : inPrivate a = false) (hg : regGated s a = false) (hl : regLost s a = true) :
    devWrite a w env s = .fault .blockUndefined := by
  simp [devWrite, hu, hr, ha, hp, hg, hl]

theorem devWrite_block (hp : inPrivate a = false) (hg : regGated s a = false) (hl : regLost s a = false) :
    devWrite a w env s = .next (wrapUp (blockWrite a w env s)) := by
  simp [devWrite, hu, hr, ha, hp, hg, hl, regWrite]

end

/-- The interrupt controller's source registers are written by their fields. -/
theorem coreWrite_src {n : Nat} (hn : n < 256) (hs : srcListed n = true) : coreWrite (rIC_SRC n) w env s = plainWrite (rIC_SRC n) w s := by
  have hlt : rIC_SRC n < 0xE0000400 := by unfold rIC_SRC; omega
  have hidx : (rIC_SRC n - 0xE0000000) / 4 = n := by unfold rIC_SRC; omega
  simp only [coreWrite, if_pos hlt, hidx, hs, if_true]

/-- Above the dictionary engine no register has a rule of its own. -/
theorem blockWrite_above_dict (h : 0x40120000 ≤ a) : blockWrite a w env s = plainWrite a w s := by
  simp (disch := omega) only [blockWrite, if_neg]

theorem blockWrite_checker (h1 : 0x40030000 ≤ a) (h2 : a < 0x40040000) : blockWrite a w env s = wrChecker a w s := by
  simp (disch := omega) only [blockWrite, if_neg, if_pos]

end

/-! ## The host's windows -/

section
variable {off : Nat} {w : Word} {env : WriteEnv} {s : State} (hg : regGated s (bar0 + off) = false)
include hg

/-- The mailbox's request data are memory. -/
theorem bar0Write_mailbox (h1 : 0x4000 ≤ off) (h2 : off < 0x8000) :
    bar0Write off w env s = s.store (bar0 + off) (le 4 w.toNat) := by
  simp (disch := omega) only [bar0Write, hg, if_neg, within_of_notMem, within_of_mem, if_true, Bool.false_eq_true, if_false]

theorem bar0Write_doorbell (h1 : 0x1000 ≤ off) (h2 : off < 0x1100) :
    bar0Write off w env s = doorbell ((off - 0x1000) / 4) (bits w 9 0) s := by
  simp (disch := omega) only [bar0Write, hg, if_neg, within_of_mem, if_true, Bool.false_eq_true, if_false]

/-- An unimplemented location ignores the write (R677). -/
theorem bar0Write_unimplemented (h : 0xE000 ≤ off) : bar0Write off w env s = s := by
  simp (disch := omega) only [bar0Write, hg, if_neg, within_of_notMem, Bool.false_eq_true, if_false, false_and]

variable (hgate : s.gated 0 2 = false) (hoff : off < 0x100000)
include hgate hoff

/-- A door that is there and not gated takes what is written at its offset (R675). -/
theorem bar2Write_open : bar2Write off w s =
    if off % 0x4000 = 0x18 then doorbell (off / 0x4000) (bits w 9 0) s
    else if off % 0x4000 = 0x20 then vselWrite (off / 0x4000) (bits w 5 0) s
    else if off % 0x4000 < 0x18 then doorWrite (off / 0x4000) (off % 0x4000) w s
    else s := by
  have hopen : ¬ (64 ≤ off / 0x4000 ∨ regGated s (bar0 + off) = true ∨ s.gated 0 2 = true) := by
    rw [hg, hgate]; simp; omega
  simp only [bar2Write, if_neg hopen]

end

/-! ## The command -/

section
variable {t : Nat} {w : Word} {env : WriteEnv} {s : State}

/-- A device held in reset or without power ignores every write. -/
theorem exec_registerWrite_dead (h : (s.at t).live = false) (a : RegAddr) : exec (.registerWrite t a w env) s = .next (s.at t) := by
  show execRegisterWrite t a w env s = _
  simp [execRegisterWrite, h]

variable (h : (s.at t).live = true)
include h

theorem exec_registerWrite_dev (a : Word) : exec (.registerWrite t (.dev a) w env) s = devWrite a.toNat w env (s.at t) := by
  show execRegisterWrite t (.dev a) w env s = _
  simp [execRegisterWrite, h]

theorem exec_registerWrite_bar0 (k : BitVec 14) :
    exec (.registerWrite t (.bar0 k) w env) s = .next (if (s.at t).reached then bar0Write (4 * k.toNat) w env (s.at t) else s.at t) := by
  show execRegisterWrite t (.bar0 k) w env s = _
  simp [execRegisterWrite, h]

theorem exec_registerWrite_bar2 (k : BitVec 18) :
    exec (.registerWrite t (.bar2 k) w env) s = .next (if (s.at t).reached then bar2Write (4 * k.toNat) w (s.at t) else s.at t) := by
  show execRegisterWrite t (.bar2 k) w env s = _
  simp [execRegisterWrite, h]

end

/-- Settles O60, window by window. That a write to a block with an undefined state faults is the model's choice (notes/assumptions/38.md); that
a host which does not reach the device changes nothing is its reading (notes/assumptions/80.md). -/
theorem registerWrites : Obligations.RegisterWrites := by
  intro t w env s
  refine ⟨exec_registerWrite_dead, fun hl => ⟨fun a => ?dev, fun hn k => ?_, fun hn k => ?_, fun hr k hg => ?bar0,
    fun hr k hg hgate hoff => ?bar2⟩⟩
  case dev =>
    rw [exec_registerWrite_dev hl]
    refine ⟨devWrite_unitless, devWrite_unmapped, fun r hu hr ha => ⟨fun n hn h256 hs hp => ?_, devWrite_gated hu hr ha, devWrite_lost hu hr ha,
      fun hp hg hlost hge => ?_, fun hp hg hlost hge hlt => ?_⟩⟩
    · rw [devWrite_inPrivate hu hr ha hp, ← plainWrite_of_regAt hr, hn, coreWrite_src h256 hs]
    · rw [devWrite_block hu hr ha hp hg hlost, blockWrite_above_dict hge, plainWrite_of_regAt hr]
    · rw [devWrite_block hu hr ha hp hg hlost, blockWrite_checker hge hlt]
  · rw [exec_registerWrite_bar0 hl, hn]; rfl
  · rw [exec_registerWrite_bar2 hl, hn]; rfl
  case bar0 =>
    rw [exec_registerWrite_bar0 hl, hr]
    refine ⟨fun h1 h2 => ?_, fun h1 h2 => ?_, fun h1 => ?_⟩
    · exact congrArg _ (bar0Write_mailbox hg h1 h2)
    · exact congrArg _ (bar0Write_doorbell hg h1 h2)
    · exact congrArg _ (bar0Write_unimplemented hg h1)
  case bar2 =>
    rw [exec_registerWrite_bar2 hl, hr, if_pos rfl, bar2Write_open hg hgate hoff]
    refine ⟨fun ho => ?_, fun ho => ?_, fun ho => ?_⟩
    · rw [if_pos ho]
    · rw [if_neg (by omega), if_pos ho]
    · rw [if_neg (by omega), if_neg (by omega), if_neg (by omega)]

end Sys2Proof.Proofs
end

section
/-!
Canvas (02_canvas_timebase.md): what each frame start of the reference, of the flywheel and of a takeover does, what a frame end, a line tick
and the commit timer do, and the switches of Canvas. Each lemma takes the command at the device's own instant.
-/

namespace Sys2Proof.Proofs

open Sys2Proof Sys2Proof.Machine Sys2Proof.Laws

/-- A command of blocks that act, by what its effect does at its instant. -/
theorem onUnits_acts_eq {l : List (Nat × Nat)} {t : Nat} {s v : State} {g : State → State} (h : Acts l t s) (e : g (s.at t) = v) :
    onUnits t l g s = .next v :=
  (onUnits_acts h g).trans (congrArg _ e)

/-- A device's own instant moves no time. -/
@[simp] theorem at_now_self (s : State) : s.at s.now = s := by
  simp [State.at]

/-! ## Frame starts of the reference -/

/-- The run of qualifying reference frame starts, with one that arrives now (R68, R69). -/
def nextQualRun (u : State) : Nat := if qualifies u u.now then u.canvas.qualRun + 1 else 0

/-- `v`, after the reference frame start that arrives in `u` is noted. -/
def refSeen (u v : State) : State :=
  v.onCanvas (fun c => { c with refAt := some u.now, qualRun := nextQualRun u, frameEndAt := none })

section
variable {u : State} (lf : LaneFails)

/-- Under REFSEL FLYWHEEL there is no reference (R65). -/
theorem refFrameStart_flywheelSel (hsel : 2 ≤ u.canvas.ctl.refsel) : refFrameStart u.now lf u = u := by
  simp [refFrameStart, hsel]

variable (hen : u.canvas.enabled = true) (hsel : u.canvas.ctl.refsel < 2)
include hen hsel

/-- An enabled Canvas with a reference is not stopped by the guard. -/
theorem not_disabled_or_flywheelSel : ¬ (u.canvas.enabled = false ∨ 2 ≤ u.canvas.ctl.refsel) := by
  simp [hen, hsel]

/-- LOCKED: the interval is measured (R67), and Canvas's frame starts with the reference's (R56). -/
theorem refFrameStart_locked (hst : u.canvas.st = .locked) :
    refFrameStart u.now lf u = markRef (canvasFrameStart u.now lf (refSeen u (u.onCanvas (measure u.now)))) := by
  simp only [refFrameStart, at_now_self, if_neg (not_disabled_or_flywheelSel hen hsel), hst, if_true, refSeen, nextQualRun]

/-- PULLIN: the phase decides (R76). -/
theorem refFrameStart_pullin (hst : u.canvas.st = .pullin) : refFrameStart u.now lf u = pullIn u.now lf (refSeen u u) := by
  simp only [refFrameStart, at_now_self, if_neg (not_disabled_or_flywheelSel hen hsel), hst, reduceCtorEq, if_false, refSeen, nextQualRun]

section
variable (hst : u.canvas.st = .acquire ∨ u.canvas.st = .flywheel)
include hst

/-- ACQUIRE and FLYWHEEL: two qualifying starts acquire the reference (R69), which then steps or pulls in (R75, R77). -/
theorem refFrameStart_acquiring :
    refFrameStart u.now lf u =
      if nextQualRun u < 2 then refSeen u u
      else if u.canvas.stepNext = true ∨ u.canvas.ctl.reacq = true then markRef (canvasFrameStart u.now lf (lock (refSeen u u)))
      else pullIn u.now lf ((refSeen u u).onCanvas fun c => { c with st := .pullin, qualRun := 0 }) := by
  rcases hst with hst | hst
  · simp only [refFrameStart, at_now_self, if_neg (not_disabled_or_flywheelSel hen hsel), hst, reduceCtorEq, if_false]
    rfl
  · simp only [refFrameStart, at_now_self, if_neg (not_disabled_or_flywheelSel hen hsel), hst, reduceCtorEq, if_false]
    rfl

theorem refFrameStart_unacquired (hrun : nextQualRun u < 2) : refFrameStart u.now lf u = refSeen u u := by
  rw [refFrameStart_acquiring lf hen hsel hst, if_pos hrun]

/-- The acquisition steps (R77, R78). -/
theorem refFrameStart_step (hrun : 2 ≤ nextQualRun u) (hstep : u.canvas.stepNext = true ∨ u.canvas.ctl.reacq = true) :
    refFrameStart u.now lf u = markRef (canvasFrameStart u.now lf (lock (refSeen u u))) := by
  rw [refFrameStart_acquiring lf hen hsel hst, if_neg (Nat.not_lt.mpr hrun), if_pos hstep]

/-- The acquisition pulls in (R75). -/
theorem refFrameStart_enterPullin (hrun : 2 ≤ nextQualRun u) (hstep : u.canvas.stepNext = false) (hreacq : u.canvas.ctl.reacq = false) :
    refFrameStart u.now lf u = pullIn u.now lf ((refSeen u u).onCanvas fun c => { c with st := .pullin, qualRun := 0 }) := by
  rw [refFrameStart_acquiring lf hen hsel hst, if_neg (Nat.not_lt.mpr hrun), if_neg (by simp [hstep, hreacq])]

end

end

/-! ## Frame starts that Canvas makes itself -/

section
variable {u : State} (lf : LaneFails) (hen : u.canvas.enabled = true)
include hen

/-- The flywheel's period has run out (R65, R72); in FLYWHEEL, SLIP counts the start. -/
theorem flywheelFrameStart_due (hst : u.canvas.st ≠ .locked) (hdue : u.canvas.nextFrameAt ≤ u.now) :
    flywheelFrameStart u.now lf u =
      if u.canvas.st = .flywheel then (canvasFrameStart u.now lf u).addSat rCANVAS_SLIP 1 else canvasFrameStart u.now lf u := by
  have hgo : ¬ (u.canvas.enabled = false ∨ u.canvas.st = .locked ∨ u.now < u.canvas.nextFrameAt) := by
    simp [hen, hst, hdue]
  simp only [flywheelFrameStart, at_now_self, if_neg hgo]

/-- The reference is lost (R71, R74). -/
theorem reflostTakeover_due {p : Nat} (href : u.canvas.refAt = some p) (hst : u.canvas.st = .locked)
    (hlost : nominalPeriod u * 3 ≤ (u.now - p) * 2) :
    reflostTakeover u.now lf u =
      let v := canvasFrameStart u.now lf (u.onCanvas fun c => { c with st := .flywheel, qualRun := 0 })
      let v := (((setSticky 64 16 u.canvas.refPos.frame v).raise rCANVAS_INTSTAT 0).addSat rCANVAS_LOSSCNT 1).wr rCANVAS_SLIP 1
      writeGaps gapREFLOST 0 (fun _ => u.canvas.refPos) (fun _ => { v.canvas.pos with line := 0 }) (refCusts u) v := by
  have hgo : ¬ (u.canvas.enabled = false ∨ u.canvas.st ≠ .locked ∨ (u.now - p) * 2 < nominalPeriod u * 3) := by
    simp [hen, hst, hlost]
  simp only [reflostTakeover, at_now_self, href, if_neg hgo]

end

/-- Settles O25, state by state. The takeover's frame start at the instant of the command, and its GAP records from the position of the last
reference frame start, are readings (notes/assumptions/42.md), as is the reference's frame start being a command apart from Muslin's packet
(notes/assumptions/7.md). R71 clears SLIP and R72 counts each frame start that the flywheel makes: the model takes the takeover's own as the
first, and so leaves SLIP at 1. -/
theorem canvasFrameStarts : Obligations.CanvasFrameStarts := by
  intro t lf s hacts hen
  have href {v : State} : refFrameStart (s.at t).now lf (s.at t) = v → exec (.refFrameStart t lf) s = .next v :=
    onUnits_acts_eq (g := fun s => refFrameStart s.now lf s) hacts
  refine ⟨fun hsel hst => ?locked, fun hsel hst => ?pullin, fun hsel hst => ⟨fun hrun => ?unacquired, fun hrun hstep => ?step,
    fun hrun hstep hreacq => ?enterPullin⟩, fun hsel => ?flywheelSel, fun hst hdue => ?flywheel, fun p hlast hst hlost => ?takeover⟩
  case locked => exact href (refFrameStart_locked lf hen hsel hst)
  case pullin => exact href (refFrameStart_pullin lf hen hsel hst)
  case unacquired => exact href (refFrameStart_unacquired lf hen hsel hst hrun)
  case step => exact href (refFrameStart_step lf hen hsel hst hrun hstep)
  case enterPullin => exact href (refFrameStart_enterPullin lf hen hsel hst hrun hstep hreacq)
  case flywheelSel => exact href (refFrameStart_flywheelSel lf hsel)
  case flywheel => exact onUnits_acts_eq (g := fun s => flywheelFrameStart s.now lf s) hacts (flywheelFrameStart_due lf hen hst hdue)
  case takeover => exact onUnits_acts_eq (g := fun s => reflostTakeover s.now lf s) hacts (reflostTakeover_due lf hen hlast hst hlost)

/-! ## Frame end, line ticks, the commit timer -/

/-- With no slot armed nothing fires (R85). -/
theorem fireSlots_unarmed (p : SlotState → Bool) (lf : LaneFails) {s : State} (h : ∀ x ∈ s.canvas.slots, x.armed = false) :
    fireSlots p lf s = s := by
  have hdue : dueSlots s.canvas.slots (fun x => x.armed && !x.fired && p x) = [] := by
    refine List.flatMap_eq_nil_iff.mpr fun a _ => ?_
    rw [List.map_eq_nil_iff, List.filter_eq_nil_iff]
    intro x hx
    simp [h x hx]
  have hslots : s.canvas.slots.map (fun x => if x.armed && !x.fired && p x then { x with fired := true } else x) = s.canvas.slots :=
    (List.map_congr_left fun x hx => by simp [h x hx]).trans (List.map_id _)
  unfold fireSlots
  split
  · rfl
  · simp only [hdue, runActions, State.onCanvas, hslots]

section
variable {u : State}

/-- A frame end opens blanking at tick 0, where the slots placed at the frame end fire (R81, R85). -/
theorem canvasFrameEnd_begins (lf : LaneFails) (hen : u.canvas.enabled = true) (hblank : u.canvas.blank = false) :
    canvasFrameEnd u.now lf u = fireSlots (fun x => x.slot.rel && decide (x.slot.line = 0)) lf
      (u.onCanvas fun c => { c with blank := true, blankTicks := 0, frameEndAt := some u.now }) := by
  simp [canvasFrameEnd, hen, hblank]

/-- LINE holds at 0xFFFF (R58). -/
theorem lineTick_full (lf : LaneFails) (hline : u.canvas.pos.line = 0xFFFF) : lineTick u.now lf u = u := by
  simp [lineTick, hline]

/-- The position after a line tick: LINE, and in blanking its tick (R58, R81). -/
def lineAdvanced (u : State) : State :=
  u.onCanvas fun c => { c with pos := { c.pos with line := c.pos.line + 1 }, blankTicks := if c.blank then c.blankTicks + 1 else 0 }

/-- LINE advances below 0xFFFF, and the armed slots at the new position fire (R58, R59, R85). -/
theorem lineTick_advances (lf : LaneFails) (hline : u.canvas.pos.line < 0xFFFF) :
    lineTick u.now lf u =
      fireSlots (fun x => if x.slot.rel then (lineAdvanced u).canvas.blank && decide (x.slot.line = (lineAdvanced u).canvas.blankTicks)
        else decide (x.slot.line = (lineAdvanced u).canvas.pos.line)) lf (lineAdvanced u) := by
  simp only [lineTick, at_now_self, if_neg (Nat.not_le.mpr hline)]
  rfl

/-- The commit timer's span is over (R99). -/
theorem commitTimer_due (h : u.canvas.lastCommitAt + commitSpan u ≤ u.now) : commitTimer u.now u = commitPoint u := by
  simp only [commitTimer, at_now_self, if_neg (Nat.not_lt.mpr h)]

theorem commitTimer_early (h : u.now < u.canvas.lastCommitAt + commitSpan u) : commitTimer u.now u = u := by
  simp only [commitTimer, at_now_self, if_pos h]

end

/-- Settles O26. Of a line tick the statement fixes the state only where no slot is armed; which armed slots fire is `lineTick_advances`. -/
theorem canvasLinesTimersAndSwitches : Obligations.CanvasLinesTimersAndSwitches := by
  intro t lf s hacts
  refine ⟨fun hen hblank => ?frameEnd, fun hline => ?full, fun hline harmed => ?tick, fun hdue => ?due, fun hearly => ?early⟩
  case frameEnd => exact onUnits_acts_eq (g := fun s => canvasFrameEnd s.now lf s) hacts (canvasFrameEnd_begins lf hen hblank)
  case full => exact onUnits_acts_eq (g := fun s => lineTick s.now lf s) hacts (lineTick_full lf hline)
  case tick =>
    exact onUnits_acts_eq (g := fun s => lineTick s.now lf s) hacts ((lineTick_advances lf hline).trans (fireSlots_unarmed _ lf harmed))
  case due => exact onUnits_acts_eq (g := fun s => commitTimer s.now s) hacts (commitTimer_due hdue)
  case early => exact onUnits_acts_eq (g := fun s => commitTimer s.now s) hacts (commitTimer_early hearly)

/-! ## FSYNC_OUT, enable and disable -/

section
variable {u : State}

/-- A pulse that is due begins, and is due no more (R103, R104). -/
theorem fsyncPulse_due {n : Nat} (hen : u.canvas.enabled = true) (hdue : nth u.canvas.fsDue n = true) :
    fsyncPulse n u = u.onCanvas fun c =>
      { c with fsDue := upd c.fsDue n (fun _ => false), pulses := upd c.pulses n (fun _ => true) } := by
  simp only [fsyncPulse, hen, hdue, and_self, if_true]
  rfl

/-- Disabling runs the catch-up and holds FRAME (R108). -/
theorem canvasDisable_enabled (lf : LaneFails) (hen : u.canvas.enabled = true) :
    canvasDisable u.now lf u = (catchUp lf (u.setFlag rCANVAS_CTRL 0 false)).onCanvas fun c =>
      { c with enabled := false, st := .acquire, fsDue := [false, false], qualRun := 0, refAt := none } := by
  have hgo : (u.setFlag rCANVAS_CTRL 0 false).canvas.enabled = true := hen
  simp [canvasDisable, hgo]

/-- Enabling starts a frame at once, in ACQUIRE (R110). -/
theorem canvasEnable_disabled (lf : LaneFails) (hen : u.canvas.enabled = false) :
    canvasEnable u.now lf u = canvasFrameStart u.now lf
      ((u.setFlag rCANVAS_CTRL 0 true).onCanvas fun c => { c with enabled := true, st := .acquire, stepNext := true }) := by
  have hgo : (u.setFlag rCANVAS_CTRL 0 true).canvas.enabled = false := hen
  simp [canvasEnable, hgo]

end

/-- Settles O27. PULSE_END and APPLY have one effect in every state; the others are the lemmas above. -/
theorem canvasPulsesAndSwitches : Obligations.CanvasPulsesAndSwitches := by
  intro t lf s hacts
  refine ⟨fun n hen hdue => ?pulse, fun n => ?pulseEnd, ?apply, fun hen => ?disable, fun hen => ?enable⟩
  case pulse => exact onUnits_acts_eq (g := fsyncPulse n.val) hacts (fsyncPulse_due hen hdue)
  case pulseEnd => exact onUnits_acts hacts (pulseEnd n.val)
  case apply => exact onUnits_acts hacts slotApply
  case disable => exact onUnits_acts_eq (g := fun s => canvasDisable s.now lf s) hacts (canvasDisable_enabled lf hen)
  case enable => exact onUnits_acts_eq (g := fun s => canvasEnable s.now lf s) hacts (canvasEnable_disabled lf hen)

/-! ## The count of frames -/

theorem nextFrame_counts {p : Pos} (h : p.frame + 1 < 2 ^ 32) : p.nextFrame = { epoch := p.epoch, frame := p.frame + 1, line := 0 } :=
  if_pos h

/-- The frame epoch advances as FRAME wraps (R57). -/
theorem nextFrame_wraps {p : Pos} (h : p.frame + 1 = 2 ^ 32) : p.nextFrame = { epoch := p.epoch + 1, frame := 0, line := 0 } :=
  if_neg (Nat.not_lt.mpr h.ge)

/-- Settles O28, by whether FRAME wraps. The frame epoch is not bounded: its 16 bits do not wrap within product life (table *Canvas
position*). -/
theorem framesCountAsOne : Obligations.FramesCountAsOne := by
  intro p hframe
  rcases Nat.lt_or_eq_of_le (Nat.succ_le_of_lt hframe) with hbelow | hlast
  · rw [nextFrame_counts hbelow]
    exact ⟨hbelow, rfl, (Nat.add_assoc ..).symm⟩
  · rw [nextFrame_wraps hlast]
    exact ⟨Nat.two_pow_pos 32, rfl, by dsimp only; omega⟩

end Sys2Proof.Proofs
end

section
/-! Linen's records and anchors (R87, R196–R201): the oldest closed stripe of a custody, a request for an ANCHOR, and its signature. -/

namespace Sys2Proof.Proofs

open Sys2Proof Sys2Proof.Machine Sys2Proof.Laws

section
variable {u v : State} {a : AnchorJob}

theorem stripeRecordWritten_cons {c : Nat} {z : ClosedStripe} {rest : List ClosedStripe} (h : (u.cust c).sealing = z :: rest) :
    stripeRecordWritten c u =
      anchorAfter c z.stripe.jsn (sealStripe c z (setCust c (fun x => { x with sealing := rest }) u)) := by
  simp only [stripeRecordWritten, h]

/-! ## A request for an ANCHOR -/

section
variable (r : Bool) (hlife : u.fuse.life ≠ .blank) (hst : u.power.st ≠ .lastBreath)
include hlife hst

/-- Outside BLANK and the last breath a request is not dropped (R197, R1057). -/
theorem anchorRequest_alive :
    anchorRequest r u =
      if u.linen.anchor.isSome = true ∨ u.linen.anchorNext.isSome = true then u.addSat rLINEN_ANCMERGE 1
      else if u.linen.epochSeq.isSome = true then u.onLinen fun l => { l with anchorNext := some { requested := r } }
      else anchorStart { requested := r } u := by
  simp only [anchorRequest, State.dying, hlife, hst, decide_false, Bool.false_eq_true, or_self, if_false]

/-- It merges into one that runs or waits (R200). -/
theorem anchorRequest_merges (h : u.linen.anchor.isSome = true ∨ u.linen.anchorNext.isSome = true) :
    anchorRequest r u = u.addSat rLINEN_ANCMERGE 1 := by
  rw [anchorRequest_alive r hlife hst, if_pos h]

variable (hnone : u.linen.anchor = none) (hnext : u.linen.anchorNext = none)
include hnone hnext

/-- It waits behind an epoch sequence. -/
theorem anchorRequest_waits (h : u.linen.epochSeq.isSome = true) :
    anchorRequest r u = u.onLinen fun l => { l with anchorNext := some { requested := r } } := by
  rw [anchorRequest_alive r hlife hst, if_neg (by simp [hnone, hnext]), if_pos h]

theorem anchorRequest_starts (h : u.linen.epochSeq = none) : anchorRequest r u = anchorStart { requested := r } u := by
  rw [anchorRequest_alive r hlife hst, if_neg (by simp [hnone, hnext]), if_neg (by simp [h])]

end

/-! ## The signature of an ANCHOR -/

section
variable (hrun : u.linen.anchor = some a)
include hrun

/-- A good signature: the record is written (R199). -/
theorem anchorSigned_ok (h : takeDelivered .anchorSign u = (some true, v)) : anchorSigned u = anchorWrite a v := by
  simp only [anchorSigned, h, hrun, if_true]

/-- A failed one sets ANCFAIL and is retried with a fresh snapshot (R201). -/
theorem anchorSigned_retry (h : takeDelivered .anchorSign u = (some false, v)) (hr : a.retried = false) :
    anchorSigned u = anchorSnapshot { a with retried := true } (v.raise rLINEN_INTSTAT 4) := by
  simp only [anchorSigned, h, hrun, hr, Bool.false_eq_true, if_false]

/-- A second failure ends the ANCHOR (R201). -/
theorem anchorSigned_giveUp (h : takeDelivered .anchorSign u = (some false, v)) (hr : a.retried = true) :
    anchorSigned u = (v.raise rLINEN_INTSTAT 4).onLinen fun l => { l with anchor := none } := by
  simp only [anchorSigned, h, hrun, hr, Bool.false_eq_true, if_false, if_true]

end

end

/-- Settles O31. That a request also merges into an ANCHOR that only waits is the model's reading of R200, which speaks of one between its first
step and its last. -/
theorem linenRecordsAndAnchors : Obligations.LinenRecordsAndAnchors := by
  intro t s hacts
  have hrequest {v : State} : anchorRequest true (s.at t) = v → exec (.anchorNow t) s = .next v :=
    onUnits_acts_eq (g := anchorRequest true) hacts
  have hsigned {v : State} (e : anchorSigned (s.at t) = v) : exec (.anchorSigned t) s = .next (lbAnchorDone v) :=
    onUnits_acts_eq (g := fun s => lbAnchorDone (anchorSigned s)) hacts (congrArg lbAnchorDone e)
  refine ⟨fun c z rest hseal => ?record, fun hlife hst => ⟨fun h => ?merges, fun hnone hnext h => ?waits, fun hnone hnext h => ?starts,
    fun v a h hrun => ?ok, fun v a h hrun hr => ?retry, fun v a h hrun hr => ?giveUp⟩⟩
  case record => exact onUnits_acts_eq (g := stripeRecordWritten c.val) hacts (stripeRecordWritten_cons hseal)
  case merges => exact hrequest (anchorRequest_merges true hlife hst h)
  case waits => exact hrequest (anchorRequest_waits true hlife hst hnone hnext h)
  case starts => exact hrequest (anchorRequest_starts true hlife hst hnone hnext h)
  case ok => exact hsigned (anchorSigned_ok hrun h)
  case retry => exact hsigned (anchorSigned_retry hrun h hr)
  case giveUp => exact hsigned (anchorSigned_giveUp hrun h hr)

end Sys2Proof.Proofs
end

section
/-!
Linen's epochs, TIMEMAP records and key escrow (R189, R202–R213, R346–R348). Each lemma takes the command at the device's own instant.
-/

namespace Sys2Proof.Proofs

open Sys2Proof Sys2Proof.Machine Sys2Proof.Laws

section
variable {u v : State}

/-! ## Requests for an epoch -/

theorem epochRequest_counts (r : EpochReq) (h : u.linen.epochQ.length < 65535) :
    epochRequest r u = u.onLinen fun l => { l with epochQ := l.epochQ ++ [r] } :=
  if_neg (Nat.not_le.mpr h)

/-- At saturation the request is lost (R204). -/
theorem epochRequest_saturated (r : EpochReq) (h : 65535 ≤ u.linen.epochQ.length) :
    epochRequest r u = setSticky 68 33 0 (u.onLinen fun l => { l with epochLost := satInc 16 l.epochLost }) :=
  if_pos h

/-! ## TIMEMAP -/

/-- No record comes before GENESIS (R178). -/
theorem timemap_closed (h : (u.chain devChain).seq = 0) : timemap u = u := if_pos h

theorem timemap_open (h : (u.chain devChain).seq ≠ 0) :
    timemap u =
      let w := write devChain (.timemap (u.rd64 rFELT_UTCOFF_LO rFELT_UTCOFF_HI) (u.fld rFELT_FSTAT 10 8) (u.fld rFELT_LEAP 7 0)
        (u.rd rFELT_PPSERR).toNat u.felt.mono) u
      w.onLinen fun l => { l with tmapEvt := w.felt.evt } :=
  if_neg h

theorem timemapPeriod_early
    (h : u.fld rLINEN_TMAPPER 15 0 = 0 ∨ u.felt.evt < u.linen.tmapEvt + u.fld rLINEN_TMAPPER 15 0 * 2 ^ 24) :
    timemapPeriod u = u :=
  if_pos h

theorem timemapPeriod_due (hper : u.fld rLINEN_TMAPPER 15 0 ≠ 0)
    (hdue : u.linen.tmapEvt + u.fld rLINEN_TMAPPER 15 0 * 2 ^ 24 ≤ u.felt.evt) : timemapPeriod u = timemap u :=
  if_neg (not_or.mpr ⟨hper, Nat.not_lt.mpr hdue⟩)

theorem timemapPeriod_closed (h : (u.chain devChain).seq = 0) : timemapPeriod u = u := by
  simp only [timemapPeriod, timemap_closed h, ite_self]

/-! ## The sequence of an epoch -/

/-- Step 1 of a sequence: the inactive slot is zeroised and allotted, and a key asked for (R205, R346). -/
theorem epochStart_issues {r : EpochReq} (hlife : u.fuse.life ≠ .blank) (hst : u.power.st ≠ .lastBreath)
    (hanchor : u.linen.anchor = none) (hseq : u.linen.epochSeq = none) (hhold : u.linen.epochHold = false) (hnext : nextEpoch u = some r) :
    epochStart u = pkIssue .epochKeygen
      ((allocSlot (inactiveSlot u) epochAttr (zeroizeSlot (inactiveSlot u) u)).onLinen fun l => { l with epochSeq := some { req := r } }) := by
  have hclear : ¬ (u.fuse.life = .blank ∨ u.dying = true ∨ u.linen.anchor.isSome = true ∨ u.linen.epochSeq.isSome = true
      ∨ u.linen.epochHold = true) := by
    simp [State.dying, hlife, hst, hanchor, hseq, hhold]
  simp only [epochStart, if_neg hclear, hnext]

/-- A job that failed is asked for once more (R348). -/
theorem epochFail_once {e : EpochSeq} (j : LinenJob) (h : e.retried = false) :
    epochFail e j v = pkIssue j (v.onLinen fun l => { l with epochSeq := some { e with retried := true } }) := by
  simp only [epochFail, h, Bool.false_eq_true, if_false]

/-- A second failure abandons the sequence (R348). -/
theorem epochFail_twice {e : EpochSeq} (j : LinenJob) (h : e.retried = true) : epochFail e j v = epochAbandon v := if_pos h

section
variable {e : EpochSeq} (hrun : u.linen.epochSeq = some e)
include hrun

/-- The key is there: the inactive slot is filled, and the signature asked for (R205, R346). -/
theorem epochKeygenDone_ok (h : takeDelivered .epochKeygen u = (some true, v)) :
    epochKeygenDone u =
      let key := fit 32 (Config.pkKeygen 1 v.freeCtr)
      pkIssue .epochSign ((fillSlot (handleOf v (inactiveSlot v)) key none v.fresh).2.onLinen fun l =>
        { l with epochSeq := some { e with step := .sign, retried := false, newPub := fit 64 (Config.pkPublic 1 key) } }) := by
  simp only [epochKeygenDone, h, hrun, Bool.not_true, Bool.false_eq_true, if_false]

theorem epochKeygenDone_failed (h : takeDelivered .epochKeygen u = (some false, v)) :
    epochKeygenDone u = epochFail e .epochKeygen v := by
  simp only [epochKeygenDone, h, hrun, Bool.not_false, if_true]

/-- The signature is there: the record is written (R205). -/
theorem epochSigned_ok (h : takeDelivered .epochSign u = (some true, v)) : epochSigned u = epochWrite e v := by
  simp only [epochSigned, h, hrun, if_true]

theorem epochSigned_failed (h : takeDelivered .epochSign u = (some false, v)) : epochSigned u = epochFail e .epochSign v := by
  simp only [epochSigned, h, hrun, Bool.false_eq_true, if_false]

end

/-! ## Key escrow -/

section
variable {c kind alg src : Nat} (hst : u.power.st ≠ .lastBreath)
include hst

/-- A request while one runs sets CODE 1 and is ignored (field KWCMD.GO). -/
theorem keywrap_busy (h : kwBusy u = true) : keywrap c kind alg src u = u.setFld rLINEN_KWSTAT 3 0 kwBUSY := by
  simp only [keywrap, State.dying, hst, decide_false, Bool.false_eq_true, if_false, h, if_true]

/-- Outside the last breath a request that finds no other comes to what its checks say (R213). -/
theorem keywrap_idle (h : kwBusy u = false) :
    keywrap c kind alg src u =
      if kwCheck u c kind alg src ≠ 0 then kwEnd (kwCheck u c kind alg src) u
      else pkIssue .kwKeygen ((u.setFld rLINEN_KWSTAT 3 0 0).onLinen fun l =>
        { l with kw := some { cust := c, kind := kind, alg := alg, source := src } }) := by
  simp only [keywrap, State.dying, hst, decide_false, Bool.false_eq_true, if_false, h]

end

/-- The shared secret is there: the record is held for the custody, and a key of KIND 1 loaded (R211, R267). -/
theorem keywrapDone_ok {k : KwJob} {key : Bytes} (hrun : u.linen.kw = some k) (h : takeDelivered .kwEcdh u = (some true, v))
    (hkey : useKey v k.source (kwNeed k.kind) (some k.cust) = .key key) :
    keywrapDone u =
      let w := v.onLinen fun l => { l with kwPending := upd l.kwPending k.cust (· ++ [kwBody v k key]) }
      kwEnd 0 (if k.kind = 1 then loadBank k.cust (kwGen v k.cust k.kind) key (aKtype (w.slot (hSlot k.source)).attr) w else w) := by
  simp only [keywrapDone, h, hrun, hkey, Bool.not_true, Bool.false_eq_true, if_false]

end

/-- Settles O32, on two readings that the spec does not fix: the slot that EPSLOT.ACTIVE names (notes/assumptions/28.md) and the order of
KWSTAT.CODE (notes/assumptions/29.md). The first failed SIGN, for which the statement has no clause, is `epochSigned_failed` with
`epochFail_once`. -/
theorem linenEpochsTimemapAndEscrow : Obligations.LinenEpochsTimemapAndEscrow := by
  intro t s hacts
  have hrequest {v : State} : epochRequest { reason := .request } (s.at t) = v → exec (.epochNow t) s = .next v :=
    onUnits_acts_eq (g := epochRequest { reason := .request }) hacts
  have hnow {v : State} : timemap (s.at t) = v → exec (.timemapNow t) s = .next v := onUnits_acts_eq (g := timemap) hacts
  have hperiod {v : State} : timemapPeriod (s.at t) = v → exec (.timemapPeriod t) s = .next v :=
    onUnits_acts_eq (g := timemapPeriod) hacts
  have hkeygen {v : State} : epochKeygenDone (s.at t) = v → exec (.epochKeygenDone t) s = .next v :=
    onUnits_acts_eq (g := epochKeygenDone) hacts
  have hsigned {v : State} : epochSigned (s.at t) = v → exec (.epochSigned t) s = .next v := onUnits_acts_eq (g := epochSigned) hacts
  refine ⟨fun hroom => ?counts, fun hfull => ?lost, fun hclosed => ?closed, fun hopen => ?timemaps,
    fun hlife hst hanchor hseq hhold r hnext => ?starts, fun v e h hrun => ?filled, fun v e h hrun hr => ?keygenAgain,
    fun v e h hrun => ?written, fun v e h hrun hr => ?abandoned, fun c kind alg src hst => ?keywrap, fun v k key h hrun hkey => ?held⟩
  case counts => exact hrequest (epochRequest_counts _ hroom)
  case lost => exact hrequest (epochRequest_saturated _ hfull)
  case closed => exact ⟨hnow (timemap_closed hclosed), hperiod (timemapPeriod_closed hclosed)⟩
  case timemaps =>
    have hrecord := timemap_open hopen
    exact ⟨hnow hrecord, fun hper hdue => hperiod ((timemapPeriod_due hper hdue).trans hrecord), fun h => hperiod (timemapPeriod_early h)⟩
  case starts => exact onUnits_acts_eq (g := epochStart) hacts (epochStart_issues hlife hst hanchor hseq hhold hnext)
  case filled => exact hkeygen (epochKeygenDone_ok hrun h)
  case keygenAgain => exact hkeygen ((epochKeygenDone_failed hrun h).trans (epochFail_once _ hr))
  case written => exact hsigned (epochSigned_ok hrun h)
  case abandoned => exact hsigned ((epochSigned_failed hrun h).trans (epochFail_twice _ hr))
  case keywrap =>
    have hexec {v : State} : keywrap c.val kind.toNat alg.toNat src.toNat (s.at t) = v → exec (.keywrap t c kind alg src) s = .next v :=
      onUnits_acts_eq (g := keywrap c.val kind.toNat alg.toNat src.toNat) hacts
    exact ⟨fun hbusy => hexec (keywrap_busy hst hbusy), fun hidle hpass => hexec ((keywrap_idle hst hidle).trans (if_neg (not_not.mpr hpass))),
      fun hidle hfail => hexec ((keywrap_idle hst hidle).trans (if_pos hfail))⟩
  case held => exact onUnits_acts_eq (g := fun s => wrapUp (keywrapDone s)) hacts (congrArg wrapUp (keywrapDone_ok hrun h hkey))

end Sys2Proof.Proofs
end

section
/-!
The key store's commands (R224–R239): each is written to CMD and runs while none is in progress. Each lemma takes the command at the
device's own instant, with its word in CMD.
-/

namespace Sys2Proof.Proofs

open Sys2Proof Sys2Proof.Machine Sys2Proof.Laws

section
variable {u v : State} {h n c : Nat}

/-! ## One command at a time -/

theorem ksCommand_busy (g : State → State) (hbusy : ksBusy u = true) : ksCommand g u = u.setFld rKEYSTORE_RESULT 31 16 ksBUSY :=
  if_pos hbusy

/-- A command in progress is in no register. -/
theorem ksBusy_wr (u : State) (a : Nat) (w : Word) : ksBusy (u.wr a w) = ksBusy u := rfl

theorem ksCommand_idle (g : State → State) (hidle : ksBusy u = false) : ksCommand g u = g u :=
  if_neg (by simp [hidle])

/-! ## Slots -/

/-- ALLOC of an EMPTY slot with a KTYPE that is not reserved (R230). -/
theorem ksAlloc_empty (hst : (u.slot n).st = .empty) (htype : aKtype (u.rd rKEYSTORE_ATTRIN) < 9) :
    ksAlloc n u =
      let v := allocSlot n (u.rd rKEYSTORE_ATTRIN) u
      ksDoneSlot n (handleOf v n) v := by
  simp only [ksAlloc, hst, ne_eq, not_true_eq_false, if_false, if_neg (Nat.not_le.mpr htype)]

/-- ZEROIZE by a handle that is not current (R231). -/
theorem ksZeroize_stale (hcur : current u h = false) : ksZeroize h u = ksDone ksSTALE h u :=
  if_pos (by simp [hcur])

/-! ## Commands by a current handle -/

section
variable (hcur : current u h = true)
include hcur

theorem ksZeroize_current :
    ksZeroize h u =
      let v := zeroizeSlot (hSlot h) u
      ksDoneSlot (hSlot h) (handleOf v (hSlot h)) v :=
  if_neg (by simp [hcur])

/-- NARROW of a LOADED slot takes usage bits away (table *Key-store commands*). -/
theorem ksNarrow_loaded (hst : (u.slot (hSlot h)).st = .loaded) :
    ksNarrow h u = ksDoneSlot (hSlot h) h (putSlot (hSlot h) { u.slot (hSlot h) with
      attr := (u.slot (hSlot h)).attr &&& ~~~(field 7 0 (bits (u.rd rKEYSTORE_ATTRIN) 7 0)) } u) := by
  simp only [ksNarrow, hcur, hst, Bool.not_true, Bool.false_eq_true, ne_eq, not_true_eq_false, if_false]

variable (hst : (u.slot (hSlot h)).st = .reserved)
include hst

/-- GENERATE with bytes that the DRBG gives at once (R234). -/
theorem ksGenerate_served {b : Bytes} (hreq : drbgRequest (aLen (u.slot (hSlot h)).attr) u = (.served b, v)) :
    ksGenerate n h u = ksGenFill h b v := by
  simp only [ksGenerate, hcur, hst, hreq, Bool.not_true, Bool.false_eq_true, ne_eq, not_true_eq_false, if_false]

/-- IMPORT into a RESERVED slot is refused by the lifecycle alone (R236). -/
theorem ksImport_reserved :
    ksImport h u =
      if u.fuse.life = .fieldLife ∧ aUsage (u.slot (hSlot h)).attr ≠ uPUB then ksDone ksLIFE h u
      else ksGenFill h ((u.keys.impwin.map (fun w => le 4 w.toNat)).flatten) u := by
  simp only [ksImport, hcur, hst, Bool.not_true, Bool.false_eq_true, ne_eq, not_true_eq_false, if_false]

end

/-! ## Contexts -/

/-- A bank holds no part of a handle. -/
theorem handleOf_setBank (b : Bool) (k : Bank) : handleOf (setBank c b k u) n = handleOf u n := rfl

section
variable (hst : (u.slot n).st = .loaded) (huse : hasUsage (u.slot n).attr uMOVE = true)
include hst huse

/-- A LOADED slot with MOVE is not stopped by the guard of KEYMOVE and RESTORE. -/
theorem not_unloaded_or_unmovable : ¬ ((u.slot n).st ≠ .loaded ∨ hasUsage (u.slot n).attr uMOVE = false) := by
  simp [hst, huse]

/-- KEYMOVE to a general context of a key whose KTYPE a context can hold (R265, R266). -/
theorem ksKeymove_general {ty : Nat} (hlo : 64 ≤ c) (hhi : c ≤ 78) (hty : ctxType (aKtype (u.slot n).attr) = some ty) :
    ksKeymove n c u = ksDone ksOK (handleOf u n)
      (setGctx c { u.gctx c with ktype := aKtype (u.slot n).attr, key := (u.slot n).key } u) := by
  have hgeneral : ¬ (c < 64 ∨ 78 < c) := by omega
  simp only [ksKeymove, if_neg hgeneral, if_neg (not_unloaded_or_unmovable hst huse), hty]

/-- RESTORE of a key whose check value is the present version's, into a bank that does not hold the version yet (R270, R271). -/
theorem ksRestore_present {ver : Nat} {b : Bool} {rest : List (Nat × Bytes)} (hctx : c < 64)
    (hty : aKtype (u.slot n).attr = 3 ∨ aKtype (u.slot n).attr = 4)
    (hkcv : nth u.linen.kcv c = (ver, kcvOf (u.slot n).key) :: rest) (hbank : restoreBank u c ver = some b)
    (hnew : (u.bank c b).ver ≠ some ver) :
    ksRestore n c u = ksDone ksOK (handleOf u n)
      (setBank c b { ver := some ver, key := (u.slot n).key, ktype := aKtype (u.slot n).attr } u) := by
  have hcustody : ¬ 63 < c := by omega
  have hxts : ¬ (aKtype (u.slot n).attr ≠ 3 ∧ aKtype (u.slot n).attr ≠ 4) := by omega
  have hload : ¬ ((u.bank c b).ver = some ver ∧ verWaits u c ver = true) := fun hheld => hnew hheld.1
  simp only [ksRestore, if_neg hcustody, if_neg (not_unloaded_or_unmovable hst huse), if_neg hxts, hkcv, List.take_succ_cons,
    List.take_zero, List.cons_append, List.find?_cons, beq_self_eq_true, hbank, if_neg hload, handleOf_setBank]

end

/-! ## The write-through of slots 0–15 -/

/-- The copy of slot `n` in Felt is written, and its write-through is over (R238). -/
def feltCopied (n : Nat) (s : State) : State :=
  s.onKeys fun k => { k with cell := upd k.cell n (fun _ => s.slot n), landing := k.landing.filter (· ≠ n) }

section
variable (hland : u.keys.landing.contains n = true)
include hland

theorem feltWriteThrough_copies (hnone : u.keys.doneAt = none) : feltWriteThrough n u = feltCopied n u := by
  simp only [feltWriteThrough, hland, if_true]
  split
  · next hsome => exact nomatch hnone.symm.trans hsome
  · rfl

/-- The command that waited for the copy completes (R233). -/
theorem feltWriteThrough_completes {code : Nat} (hdone : u.keys.doneAt = some (n, code, h)) :
    feltWriteThrough n u = ksDone code h (feltCopied n u) := by
  simp only [feltWriteThrough, hland, if_true, hdone]
  rfl

end

end

/-- Settles O33, command by command. BUSY is stated for ALLOC and ZEROIZE; `ksCommand_busy` says it for every command. -/
theorem keyStoreCommands : Obligations.KeyStoreCommands := by
  intro t s hacts
  dsimp only
  have hland {n : Fin 16} {v : State} : feltWriteThrough n.val (s.at t) = v → exec (.feltWriteThroughDone t n) s = .next v :=
    onUnits_acts_eq (g := feltWriteThrough n.val) hacts
  refine ⟨fun hbusy n h => ⟨?_, ?_⟩, fun hidle => ?idle, fun n code h hin hdone => hland (feltWriteThrough_completes hin hdone)⟩
  · exact onUnits_acts_eq (g := ksIssue 1 n.val 0) hacts (ksCommand_busy (ksAlloc n.val) hbusy)
  · exact onUnits_acts_eq (g := ksIssue 2 0 h.toNat) hacts (ksCommand_busy (ksZeroize h.toNat) hbusy)
  case idle =>
    have hrun {op slot arg : Nat} {v : State} (g : State → State) (hop : ∀ w, ksOp op slot arg w = ksCommand g w)
        (e : g ((s.at t).wr rKEYSTORE_CMD (field 26 24 op ||| field 23 16 slot ||| field 15 0 arg)) = v) :
        onUnits t [(0, 7)] (ksIssue op slot arg) s = .next v :=
      onUnits_acts_eq hacts ((hop _).trans ((ksCommand_idle g ((ksBusy_wr ..).trans hidle)).trans e))
    refine ⟨fun n hst hty => ?alloc, fun h => ⟨fun hcur => ?zeroize, fun hcur => ?stale⟩, fun h hcur hst => ?narrow,
      fun n h b v hcur hst hreq => ?generate, fun h hcur hst => ⟨fun hlife => ?importKey, fun hlife husage => ?refused⟩,
      fun n c ty hlo hhi hst huse hty => ?keymove, fun n c ver b rest hctx hst huse hty hkcv hbank hnew => ?restore, fun n hin => ?landed⟩
    case alloc => exact hrun _ (fun _ => rfl) (ksAlloc_empty hst hty)
    case zeroize => exact hrun _ (fun _ => rfl) (ksZeroize_current hcur)
    case stale => exact hrun _ (fun _ => rfl) (ksZeroize_stale hcur)
    case narrow => exact hrun _ (fun _ => rfl) (ksNarrow_loaded hcur hst)
    case generate => exact hrun _ (fun _ => rfl) (ksGenerate_served hcur hst hreq)
    case importKey =>
      have hallowed := fun hfield : _ ∧ _ => hlife.elim (fun hl => hl hfield.1) hfield.2
      exact hrun _ (fun _ => rfl) ((ksImport_reserved hcur hst).trans (if_neg hallowed))
    case refused => exact hrun _ (fun _ => rfl) ((ksImport_reserved hcur hst).trans (if_pos ⟨hlife, husage⟩))
    case keymove => exact hrun _ (fun _ => rfl) (ksKeymove_general hst huse hlo hhi hty)
    case restore => exact hrun _ (fun _ => rfl) (ksRestore_present hst huse hctx hty hkcv hbank hnew)
    case landed =>
      have hnone : (s.at t).keys.doneAt = none := by
        simpa using (Bool.or_eq_false_iff.mp hidle).2
      exact hland (feltWriteThrough_copies hin hnone)

end Sys2Proof.Proofs
end

section
/-! The entropy source, the DRBG and its requests (R288–R294). Each lemma takes the command at the device's own instant. -/

namespace Sys2Proof.Proofs

open Sys2Proof Sys2Proof.Machine Sys2Proof.Laws

section
variable {u : State}

/-! ## Health tests -/

/-- The instants of the failures within the last second of EVT, with one that occurs now (R289). -/
def recentFails (u : State) : List Nat := u.rng.failSecs.filter (fun e => decide (u.felt.evt < e + 2 ^ 24)) ++ [u.felt.evt]

/-- The state with a health-test failure counted. -/
def failNoted (u : State) : State :=
  { u.addSat rRNG_HTFAIL 1 with rng := { u.rng with failSecs := recentFails u } }

/-- The third failure within a second parks the source (R289). -/
theorem healthFail_third (h : 3 ≤ (recentFails u).length) :
    healthFail u = setSticky 70 38 0 { failNoted u with rng := { (failNoted u).rng with es := .parked } } :=
  if_pos h

/-- An earlier one reruns the start-up test, unless the source is parked (R289). -/
theorem healthFail_earlier (h : (recentFails u).length < 3) (hes : u.rng.es ≠ .parked) :
    healthFail u = { failNoted u with rng := { (failNoted u).rng with es := .retest } } :=
  (if_neg (Nat.not_le.mpr h)).trans (if_neg hes)

/-- A start-up test that passes serves the requests that waited for it (R293). -/
theorem startUpDone_testing (h : u.rng.es = .startup ∨ u.rng.es = .retest) :
    startUpDone u = serveWaits u.rng.waits { u with rng := { u.rng with es := .ok, waits := [] } } :=
  if_pos h

/-! ## Requests -/

theorem drbgRequest_served (n : Nat) (hst : u.rng.drbg ≠ .error) (hseed : reseedDue u = false) : drbgRequest n u = drbgServe n u := by
  simp only [drbgRequest, if_neg hst, hseed, Bool.false_eq_true, if_false]

/-- The DRBG in ERROR refuses every request (R294). -/
theorem drbgRequest_refused (n : Nat) (hst : u.rng.drbg = .error) : drbgRequest n u = (.entropy, u) := if_pos hst

/-- A request of another block, or of RNG.OUT, is delivered with what the DRBG answers. -/
theorem drbgAsk_eq {n : Nat} {a : DrbgAns} {v : State} (h : drbgRequest n u = (a, v)) : drbgAsk n u = otherDeliver n a v := by
  simp only [drbgAsk, h]

theorem outRead_eq {a : DrbgAns} {v : State} (h : drbgRequest 4 u = (a, v)) : outRead u = outDeliver a v := by
  simp only [outRead, h]

/-! ## Waits -/

section
variable {w : DrbgWait} {ws : List DrbgWait} (hwaits : u.rng.waits = w :: ws)
include hwaits

/-- The oldest wait expires: RNG.OUT reads 0 with UNDERRUN (R293, R294). -/
theorem waitExpiry_out (huser : w.user = .out) : waitExpiry u = outDeliver .entropy { u with rng := { u.rng with waits := ws } } := by
  simp only [waitExpiry, hwaits, huser]

/-- The oldest wait expires: the GENERATE that waited ends in ENTROPY (R293). -/
theorem waitExpiry_generate {k : KsWait} (huser : w.user = .generate) (hwait : u.keys.waiting = some k) :
    waitExpiry u = ksDone ksENTROPY k.arg { u with rng := { u.rng with waits := ws } } := by
  simp only [waitExpiry, hwaits, huser, hwait]

end

end

/-- Settles O34. That a start-up test which passes serves the requests that waited, in order and at once, is the model's reading
(notes/assumptions/44.md). The statement has no clause for a request that waits (R293). -/
theorem randomNumbers : Obligations.RandomNumbers := by
  intro t s hacts
  have hfail {v : State} : healthFail (s.at t) = v → exec (.healthTestFailure t) s = .next v := onUnits_acts_eq (g := healthFail) hacts
  have hask {v : State} (n : Fin 4096) : drbgAsk (n.val + 1) (s.at t) = v → exec (.drbgRequest t n) s = .next v :=
    onUnits_acts_eq (g := drbgAsk (n.val + 1)) hacts
  have hout {v : State} : outRead (s.at t) = v → exec (.outRead t) s = .next v := onUnits_acts_eq (g := outRead) hacts
  have hexpire {v : State} : waitExpiry (s.at t) = v → exec (.drbgWaitExpiry t) s = .next v := onUnits_acts_eq (g := waitExpiry) hacts
  refine ⟨fun hthird => ?parks, fun hfew hes => ?retests, fun hes => ?serves, fun hst hseed n => ⟨?asked, ?read⟩,
    fun hst n => ⟨?refused, ?underrun⟩, fun w ws hwaits huser => ?outExpires, fun w ws k hwaits huser hwait => ?generateExpires⟩
  case parks => exact hfail (healthFail_third hthird)
  case retests => exact hfail (healthFail_earlier hfew hes)
  case serves => exact onUnits_acts_eq (g := startUpDone) hacts (startUpDone_testing hes)
  case asked => exact hask n (drbgAsk_eq (drbgRequest_served _ hst hseed))
  case read => exact hout (outRead_eq (drbgRequest_served _ hst hseed))
  case refused => exact hask n (drbgAsk_eq (drbgRequest_refused _ hst))
  case underrun => exact hout (outRead_eq (drbgRequest_refused _ hst))
  case outExpires => exact hexpire (waitExpiry_out hwaits huser)
  case generateExpires => exact hexpire (waitExpiry_generate hwaits huser hwait)

end Sys2Proof.Proofs
end

section
/-!
The digest and cipher units (R246–R254, R296–R303) and the cipher contexts (R263–R279). What the two units share is said once for both. Each
lemma takes the command at the device's own instant.
-/

namespace Sys2Proof.Proofs

open Sys2Proof Sys2Proof.Machine Sys2Proof.Laws

section
variable {u v : State} {q : UnitId} {addr : Nat}

/-! ## Submission -/

section
variable (hst : u.power.st ≠ .lastBreath)
include hst

/-- Outside the last breath a submission is ignored only by a full queue (R250, R523). -/
theorem submitJob_alive :
    submitJob q addr u =
      if 16 ≤ (u.unit q).queue.length then u.raise (rUIntstat q) 2
      else u.setUnit q { u.unit q with queue := (u.unit q).queue ++ [addr] } := by
  simp only [submitJob, State.dying, hst, decide_false, Bool.false_eq_true, if_false]

theorem submitJob_queues (hroom : (u.unit q).queue.length < 16) :
    submitJob q addr u = u.setUnit q { u.unit q with queue := (u.unit q).queue ++ [addr] } :=
  (submitJob_alive hst).trans (if_neg (Nat.not_le.mpr hroom))

theorem submitJob_full (hfull : 16 ≤ (u.unit q).queue.length) : submitJob q addr u = u.raise (rUIntstat q) 2 :=
  (submitJob_alive hst).trans (if_pos hfull)

end

/-! ## Aborts of jobs that do not run -/

section
variable (tie : Bool) (hrun : (u.unit q).running.find? (fun j => j.addr == addr) = none)
include hrun

/-- The abort of a job that waits takes it out of the queue (R302). -/
theorem abortJob_queued (hin : (u.unit q).queue.contains addr = true) :
    abortJob q addr tie u =
      let v := (u.setUnit q { u.unit q with queue := (u.unit q).queue.erase addr }).store (addr + 3) [BitVec.ofNat 8 jABORTED]
      v.setUnit q { v.unit q with abortStat := 2 } := by
  simp only [abortJob, hrun, hin, if_true]

theorem abortJob_notFound (hout : (u.unit q).queue.contains addr = false) :
    abortJob q addr tie u = u.setUnit q { u.unit q with abortStat := 3 } := by
  simp only [abortJob, hrun, hout, Bool.false_eq_true, if_false]

end

/-! ## Starts -/

section
variable {rest : List Nat}

/-- A descriptor that cannot be read ends its job (R254). -/
theorem startJob_unreadable (hqueue : (u.unit q).queue = addr :: rest)
    (hbus : jobAccess (uMaster q) none false addr 32 u = (false, v)) :
    startJob q u = endJob q addr jBUS (v.setUnit q { v.unit q with queue := rest }) := by
  simp only [startJob, hqueue, hbus, Bool.not_false, if_true]

section
variable {l : Nat} {d : Bytes} (hdesc : v.load addr 32 = d) (halign : addr % 32 = 0)
include hdesc halign

/-- HASH with an ALG other than SHA-3 needs no key: it starts on the lane that is picked (R248, R251). -/
theorem startJob_hash (hqueue : (u.unit .digest).queue = addr :: rest) (hbus : jobAccess 0x0D none false addr 32 u = (true, v))
    (hok : digestDescOk v d = true) (hop : dfld d 0 1 = 1) (halg : dfld d 1 1 < 3) (hlane : pickLane .digest false v = some l) :
    startJob .digest u = v.setUnit .digest { v.digest with
      queue := rest, running := v.digest.running ++ [{ addr := addr, lane := l, desc := d }] } := by
  have hsha2 : decide (3 ≤ dfld d 1 1) = false := decide_eq_false (Nat.not_le.mpr halg)
  simp only [startJob, hqueue, uMaster, hbus, hdesc, halign, hok, hop, hsha2, hlane, Bool.not_true, Bool.false_and, Bool.false_eq_true,
    ne_eq, not_true_eq_false, if_false, if_true]
  rfl

/-- A cipher job starts on the lane that is picked, with the key it latches (R266). -/
theorem startJob_cipher {k : Bytes} {du : Nat} (hqueue : (u.unit .cipher).queue = addr :: rest)
    (hbus : jobAccess 0x0E none false addr 32 u = (true, v))
    (hok : cipherDescOk d (ofLe (v.load (dfld d 0x1C 4 + 0x0C) 4)) = true) (hlane : pickLane .cipher false v = some l)
    (hkey : cipherKey v d = (.key k, du)) :
    startJob .cipher u = v.setUnit .cipher { v.cipher with
      queue := rest, running := v.cipher.running ++ [{ addr := addr, lane := l, desc := d, key := k, du := du }] } := by
  simp only [startJob, hqueue, uMaster, hbus, hdesc, halign, hok, hlane, hkey, Bool.not_true, Bool.false_eq_true, ne_eq,
    not_true_eq_false, if_false]
  rfl

end

end

/-! ## Ends -/

/-- The job of a lane ends with the output of its unit (R252). -/
theorem jobEnds_digest {l : Nat} {j : Job} (hrun : (u.unit .digest).running.find? (fun j => j.lane == l) = some j) :
    jobEnds .digest l false u = digestDone j u := by
  simp only [jobEnds, jobDone, hrun, Bool.false_eq_true, if_false]

theorem jobEnds_cipher {l : Nat} {j : Job} (hrun : (u.unit .cipher).running.find? (fun j => j.lane == l) = some j) :
    jobEnds .cipher l false u = cipherDone j u := by
  simp only [jobEnds, jobDone, hrun, Bool.false_eq_true, if_false]

theorem runProc_selftest (princ : Nat) (d : Bytes) (env : ProcEnv) :
    runProc (okey 0x5021 0) princ d env u =
      (aOK, procRan (okey 0x5021 0) princ aOK (selfTest env.badDigest env.badCipher u)) :=
  rfl

/-- SELFTEST is DONE as it starts, with every lane tested (R296). -/
theorem procRow_selftest (princ : Nat) (d : Bytes) (env : ProcEnv) :
    procRow (okey 0x5021 0) princ d env u =
      wrapUp (procRan (okey 0x5021 0) princ aOK (selfTest env.badDigest env.badCipher u)) := by
  rw [procRow, runProc_selftest]

end

/-- Settles O35. What the two units share is proved for either. The statement has no clause for the abort of a job that runs (R301, R302). -/
theorem digestAndCipherJobs : Obligations.DigestAndCipherJobs := by
  intro t s a tie
  dsimp only
  refine ⟨fun q submit abort start hrows hacts => ?shared, fun hacts addr rest l v hqueue hbus halign hok hop halg hlane => ?hash,
    fun hacts addr rest l v k du hqueue hbus halign hok hlane hkey => ?cipher, fun hacts l j hrun => ?digestEnds,
    fun hacts l j hrun => ?cipherEnds, fun hacts princ env => ?selftest⟩
  case shared =>
    have hsubmit {v : State} (e : submitJob q a.toNat (s.at t) = v) : exec submit s = .next v := by
      rcases hrows with ⟨rfl, rfl, -, -⟩ | ⟨rfl, rfl, -, -⟩ <;> exact onUnits_acts_eq (g := submitJob _ a.toNat) hacts e
    have habort {v : State} (e : abortJob q a.toNat tie (s.at t) = v) : exec abort s = .next (wrapUp v) := by
      rcases hrows with ⟨rfl, -, rfl, -⟩ | ⟨rfl, -, rfl, -⟩ <;>
        exact onUnits_acts_eq (g := fun s => wrapUp (abortJob _ a.toNat tie s)) hacts (congrArg wrapUp e)
    have hstart {v : State} (e : startJob q (s.at t) = v) : exec start s = .next v := by
      rcases hrows with ⟨rfl, -, -, rfl⟩ | ⟨rfl, -, -, rfl⟩ <;> exact onUnits_acts_eq (g := startJob _) hacts e
    exact ⟨fun hst hroom => hsubmit (submitJob_queues hst hroom), fun hst hfull => hsubmit (submitJob_full hst hfull),
      fun hrun hin => habort (abortJob_queued tie hrun hin), fun hrun hout => habort (abortJob_notFound tie hrun hout),
      fun addr rest v hqueue hbus => hstart (startJob_unreadable hqueue hbus), fun l => onUnits_acts hacts (laneMismatch q l.val)⟩
  case hash => exact onUnits_acts_eq (g := startJob .digest) hacts (startJob_hash rfl halign hqueue hbus hok hop halg hlane)
  case cipher => exact onUnits_acts_eq (g := startJob .cipher) hacts (startJob_cipher rfl halign hqueue hbus hok hlane hkey)
  case digestEnds =>
    exact onUnits_acts_eq (g := fun s => wrapUp (jobEnds .digest l.val false s)) hacts (congrArg wrapUp (jobEnds_digest hrun))
  case cipherEnds =>
    exact onUnits_acts_eq (g := fun s => wrapUp (jobEnds .cipher l.val false s)) hacts (congrArg wrapUp (jobEnds_cipher hrun))
  case selftest => exact onUnits_acts_eq (g := procRow (okey 0x5021 0) princ.toNat [] env) hacts (procRow_selftest princ.toNat [] env)

/-! ## Cipher contexts -/

section
variable {u : State} {ctx ty : Nat} (du : Bool)

/-- CTXSEL as COMMIT leaves it (R263). -/
def ctxSelected (ctx ty : Nat) (du : Bool) (u : State) : State :=
  u.wr rCIPHER_CTXSEL (field 6 0 ctx ||| field 12 10 ty ||| field 13 13 du.toNat)

/-- A context that is not general is refused (R265); CTXWIN is cleared all the same (R264). -/
theorem ctxCommit_denied (hctx : ctx < 64 ∨ 78 < ctx) :
    ctxCommit ctx ty du u =
      ((ctxSelected ctx ty du u).raise rCIPHER_INTSTAT 3).onCtx fun c => { c with ctxwin := List.replicate 16 0#32 } := by
  simp only [ctxCommit, if_pos hctx]
  rfl

/-- A general context takes its key from CTXWIN, which is cleared (R263, R264). -/
theorem ctxCommit_loads (hlo : 64 ≤ ctx) (hhi : ctx ≤ 78) (htype : 1 ≤ ty ∧ ty ≤ 4) :
    ctxCommit ctx ty du u =
      (setGctx ctx
        { ktype := if ty = 1 then 3 else if ty = 2 then 4 else if ty = 3 then 1 else 2
          key := ((u.ctx.ctxwin.map (fun w => le 4 w.toNat)).flatten).take (ctxKeyLen ty)
          du512 := du } (ctxSelected ctx ty du u)).onCtx fun c => { c with ctxwin := List.replicate 16 0#32 } := by
  have hgeneral : ¬ (ctx < 64 ∨ 78 < ctx) := by omega
  simp only [ctxCommit, if_neg hgeneral, if_pos htype]
  rfl

end

/-- Settles O36. The statement counts the contexts above 79, which R265 does not name and no unit has, among those that are refused; what the
encryption of a stripe does, it leaves to `stripeEncrypt`. -/
theorem cipherContexts : Obligations.CipherContexts := by
  intro t s hacts
  refine ⟨fun ctx ty du => ⟨fun hctx => ?denied, fun hlo hhi hty1 hty4 => ?loads⟩, fun hboth jsn a => ⟨?fromSram, ?fromTile⟩⟩
  case denied => exact onUnits_acts_eq (g := ctxCommit ctx.toNat ty.toNat du) hacts (ctxCommit_denied du hctx)
  case loads => exact onUnits_acts_eq (g := ctxCommit ctx.toNat ty.toNat du) hacts (ctxCommit_loads du hlo hhi ⟨hty1, hty4⟩)
  case fromSram => exact onUnits_acts hboth (encryptRead jsn none)
  case fromTile => exact onUnits_acts hboth (encryptRead jsn (some a))

end Sys2Proof.Proofs
end

section
/-!
The public-key unit (R305–R354): submissions, starts, ends, preemption, aborts, gating and wipes. Each lemma takes the command at the device's
own instant.
-/

namespace Sys2Proof.Proofs

open Sys2Proof Sys2Proof.Machine Sys2Proof.Laws

section
variable {u : State}

/-- The last breath is the power state in which the device takes no firmware job (R354, R523). -/
theorem not_dying (hst : u.power.st ≠ .lastBreath) : ¬ u.dying = true := fun hdying => hst (of_decide_eq_true hdying)

/-! ## Submission -/

section
variable {addr : Nat} (hst : u.power.st ≠ .lastBreath)
include hst

/-- Outside the last breath a submission is ignored only by a full queue (R313, R523). -/
theorem pkSubmit_alive :
    pkSubmit addr u =
      if 8 ≤ u.pk.queue.length then u.raise rPK_INTSTAT 2 else u.onPk fun p => { p with queue := p.queue ++ [addr] } :=
  if_neg (not_dying hst)

theorem pkSubmit_queues (hroom : u.pk.queue.length < 8) :
    pkSubmit addr u = u.onPk fun p => { p with queue := p.queue ++ [addr] } :=
  (pkSubmit_alive hst).trans (if_neg (Nat.not_le.mpr hroom))

theorem pkSubmit_full (hfull : 8 ≤ u.pk.queue.length) : pkSubmit addr u = u.raise rPK_INTSTAT 2 :=
  (pkSubmit_alive hst).trans (if_pos hfull)

end

/-! ## Starts -/

section
variable (hrun : u.pk.running = none) (hwipe : u.pk.wiping = false)
include hrun hwipe

/-- The unit is free for the next job (R322, R331). -/
theorem pk_free : ¬ (u.pk.running.isSome = true ∨ u.pk.wiping = true) := by simp [hrun, hwipe]

/-- Linen's oldest job starts, whatever firmware has queued (R322). -/
theorem pkStart_linen {j : LinenJob} {rest : List LinenJob} (hqueue : u.pk.linenQ = j :: rest) (hclock : pkGated u = false) :
    pkStart u =
      let v := u.onPk fun p => { p with linenQ := rest }
      pkRun (.linen j (linenOwner j v)) v := by
  simp only [pkStart, if_neg (pk_free hrun hwipe), hqueue]
  exact if_neg (ne_true_of_eq_false hclock)

/-- With no job of Linen's, firmware's oldest job starts, but not in the last breath (R322, R354). -/
theorem pkStart_firmware {a : Nat} {rest : List Nat} (hlinen : u.pk.linenQ = []) (hqueue : u.pk.queue = a :: rest)
    (hst : u.power.st ≠ .lastBreath) : pkStart u = pkStartFirmware a rest u := by
  simp only [pkStart, if_neg (pk_free hrun hwipe), hlinen, hqueue]
  exact if_neg (not_dying hst)

end

/-! ## Ends -/

section
variable {c : PkCheck}

/-- A job of Linen's ends once the start wipe is done, and the escrow takes its key pair (R319, R331). -/
theorem pkJobDone_linen {j : LinenJob} {o : Nat} (hrun : (pkWipeDone u).pk.running = some (.linen j o)) :
    pkJobDone c u = wrapUp (kwKeygenDone (pkLinenDone j o c (pkWipeDone u))) := by
  simp only [pkJobDone, pkDone, hrun]

theorem pkJobDone_firmware {a : Nat} {d k : Bytes} (hrun : (pkWipeDone u).pk.running = some (.firmware a d k)) :
    pkJobDone c u = wrapUp (kwKeygenDone (pkFirmwareDone a d k c (pkWipeDone u))) := by
  simp only [pkJobDone, pkDone, hrun]

end

/-! ## Preemption and aborts -/

section
variable {a : Nat} {d k : Bytes} (hrun : u.pk.running = some (.firmware a d k))
include hrun

/-- The job that makes way is counted and goes back to the head of its queue (R323). -/
theorem pkPreempt_stops (hctrl : u.flag rPK_CTRL 0 = true) (hwaits : u.pk.linenQ ≠ []) :
    pkPreempt u = pkStop (((u.addSat rPK_PREEMPTCNT 1).raise rPK_INTSTAT 3).onPk fun p => { p with queue := a :: p.queue }) := by
  simp only [pkPreempt, hrun, if_pos (And.intro hctrl hwaits)]
  rfl

/-- A running job is stopped and wiped before its STATUS reads ABORTED (R352). -/
theorem pkAbort_running :
    pkAbort a false u =
      ((pkStop u).store (a + 3) [BitVec.ofNat 8 jABORTED]).onPk fun p => { p with abortStat := 2 } := by
  simp only [pkAbort, hrun, if_true, Bool.false_eq_true, if_false]
  rfl

/-- A completion latched by the edge that samples the abort wins (R350). -/
theorem pkAbort_late :
    pkAbort a true u = (pkFirmwareDone a d k .agree (pkWipeDone u)).onPk fun p => { p with abortStat := 1 } := by
  simp only [pkAbort, hrun, if_true]
  rfl

end

/-! ## Gating and wipes -/

/-- An idle unit wipes a RAM that has an owner and gates itself (R341, R342). -/
theorem pkGate_idle (hctrl : u.flag rPK_CTRL 1 = true) (hrun : u.pk.running = none) (hlinen : u.pk.linenQ = []) (hqueue : u.pk.queue = [])
    (hawake : u.pk.awake = true) :
    pkGate u = (if u.pk.owner.isSome then pkWipe u else u).onPk fun p => { p with awake := false } :=
  if_pos ⟨hctrl, hrun, hlinen, hqueue, hawake⟩

/-- A wipe that ends leaves the RAM without an owner (R328). -/
theorem pkWipeDone_wiping (hwipe : u.pk.wiping = true) : pkWipeDone u = u.onPk fun p => { p with wiping := false, owner := none } :=
  if_pos hwipe

end

/-- Settles O37, command by command. What a firmware job's start checks, and what an end delivers, the statement leaves to `pkStartFirmware`,
`pkFirmwareDone` and `pkLinenDone`; it has no clause for a Linen job while the unit's clock is gated (R326), nor for the abort of a job that does
not run (R352, R353). -/
theorem publicKeyJobs : Obligations.PublicKeyJobs := by
  intro t s hacts
  dsimp only
  have hsubmit {v : State} (a : Word) : pkSubmit a.toNat (s.at t) = v → exec (.pkSubmit t a) s = .next v :=
    onUnits_acts_eq (g := pkSubmit a.toNat) hacts
  have hstart {v : State} : pkStart (s.at t) = v → exec (.pkJobStart t) s = .next v := onUnits_acts_eq (g := pkStart) hacts
  have hdone {v : State} (c : PkCheck) : pkJobDone c (s.at t) = v → exec (.pkJobDone t c) s = .next v :=
    onUnits_acts_eq (g := pkJobDone c) hacts
  have habort {v : State} (a : Word) (tie : Bool) (e : pkAbort a.toNat tie (s.at t) = v) : exec (.pkAbort t a tie) s = .next (wrapUp v) :=
    onUnits_acts_eq (g := fun s => wrapUp (pkAbort a.toNat tie s)) hacts (congrArg wrapUp e)
  refine ⟨fun a hst => ⟨fun hroom => ?queues, fun hfull => ?queueFull⟩,
    fun hrun hwipe => ⟨fun j rest hqueue hclock => ?linenStarts, fun a rest hlinen hqueue hst => ?firmwareStarts⟩,
    fun c j o hrun => ?linenEnds, fun c a d k hrun => ?firmwareEnds, fun a d k hrun hctrl hwaits => ?preempted,
    fun a d k hrun => ⟨?aborted, ?late⟩, fun hctrl hrun hlinen hqueue hawake => ?gates, fun hwipe => ?wiped⟩
  case queues => exact hsubmit a (pkSubmit_queues hst hroom)
  case queueFull => exact hsubmit a (pkSubmit_full hst hfull)
  case linenStarts => exact hstart (pkStart_linen hrun hwipe hqueue hclock)
  case firmwareStarts => exact hstart (pkStart_firmware hrun hwipe hlinen hqueue hst)
  case linenEnds => exact hdone c (pkJobDone_linen hrun)
  case firmwareEnds => exact hdone c (pkJobDone_firmware hrun)
  case preempted => exact onUnits_acts_eq (g := pkPreempt) hacts (pkPreempt_stops hrun hctrl hwaits)
  case aborted => exact habort a false (pkAbort_running hrun)
  case late => exact habort a true (pkAbort_late hrun)
  case gates => exact onUnits_acts_eq (g := pkGate) hacts (pkGate_idle hctrl hrun hlinen hqueue hawake)
  case wiped => exact onUnits_acts_eq (g := pkWipeDone) hacts (pkWipeDone_wiping hwipe)

end Sys2Proof.Proofs
end

section
/-!
NAND operations of a channel (R376, R383–R409): ends, issues, overdue and timed-out operations, a stuck RB_N, offsets and probes. Each lemma
takes the command at the device's own instant.
-/

namespace Sys2Proof.Proofs

open Sys2Proof Sys2Proof.Machine Sys2Proof.Laws

section
variable {u : State} {n j : Nat}

/-! ## Ends -/

/-- The state once operation `i` has left its channel. -/
def opEnded (n i : Nat) (u : State) : State := setChan n (fun c => { c with ops := c.ops.eraseIdx i }) u

section
variable {i : Nat} {o : NandOp} (hend : (u.chan n).ops.findIdx? (fun o => o.issued && decide (o.lun = j)) = some i)
  (hop : nth (u.chan n).ops i = o)
include hend hop

/-- A program that passes counts for its superpage (R383). -/
theorem nandDone_programPassed (rb : Option Nat) (hkind : o.kind = .program) :
    nandDone n j (.pass rb) none u = pagePassed n o rb (opEnded n i u) := by
  simp only [nandDone, hend, hop, hkind]
  rfl

/-- A program that fails abandons its superpage, and its block is grown bad (R385, R404). -/
theorem nandDone_programFailed (hkind : o.kind = .program) :
    nandDone n j .fail none u =
      let v := opEnded n i u
      abandonPage o.seg o.page (growBad n o (segBlock v o.seg n) 1 v) := by
  simp only [nandDone, hend, hop, hkind]
  rfl

/-- An erase that passes clears the reads of its block (R400). -/
theorem nandDone_erasePassed (rb : Option Nat) (hkind : o.kind = .erase) :
    nandDone n j (.pass rb) none u =
      (setLun n j (fun l => { l with blockReads := serase l.blockReads o.page }) (opEnded n i u)).add64
        (rTWILL_ERASES_LO n) (rTWILL_ERASES_HI n) 1 := by
  simp only [nandDone, hend, hop, hkind]
  rfl

theorem nandDone_eraseFailed (hkind : o.kind = .erase) : nandDone n j .fail none u = eraseFail n o (opEnded n i u) := by
  simp only [nandDone, hend, hop, hkind]
  rfl

/-- A read is served from the rung at which it stops (R376). -/
theorem nandDone_read (hard retry : Option (Nat × Nat)) (soft : Option Nat) (rebuilt : Bool) (hkind : o.kind = .read) :
    nandDone n j (.read hard retry soft rebuilt) none u =
      let v := opEnded n i u
      let rung := rungOf v o hard retry soft rebuilt
      readServes o rung (readEffects n o hard retry soft rung v) := by
  simp only [nandDone, hend, hop, hkind]
  rfl

end

/-! ## Issues -/

/-- A channel that is up and not draining issues its first operation whose LUN has none outstanding, outside the last breath; the LUN's offsets
are sent before it (R355, R391, R408). -/
theorem nandIssue_issues {v : State} {i : Nat} (hv : setChan n (fun c => { c with rbLow := false }) u = v) (hup : chanUp v n = true)
    (hst : v.power.st ≠ .lastBreath) (hdrain : (v.chan n).draining = false)
    (hfree : (v.chan n).ops.findIdx? (fun o => !o.issued && !(v.chan n).ops.any (fun q => q.issued && decide (q.lun = o.lun))) = some i) :
    nandIssue n true u = setChan n (fun c => { c with ops := upd c.ops i (fun o => { o with issued := true }) })
      (setLun n (nth (v.chan n).ops i).lun (fun l => { l with sent := l.offsets }) v) := by
  have hgo : ¬ (!chanUp v n || v.dying) = true := by simp [hup, not_dying hst]
  simp only [nandIssue, Bool.not_true, hv, if_neg hgo, hdrain, Bool.false_eq_true, if_false, hfree]

/-! ## Overdue and timed-out operations -/

/-- An overdue operation sets the channel's flag, and the open segments on its LUN take no new superpage (R406). -/
theorem opOverdue_outstanding (hany : (u.chan n).ops.any (fun o => o.issued && decide (o.lun = j)) = true) :
    opOverdue n j u =
      let v := (setChan n (fun c => { c with ops := c.ops.map (fun o =>
        if o.issued && decide (o.lun = j) then { o with overdue := true } else o) }) u).raise (rTWILL_CHINTSTAT n) 4
      stopSegments ((segsOn v n (fun x => decide (x = j))).filter (fun k => decide ((v.seg k).st = .openSeg))) v :=
  if_pos hany

section
variable {o : NandOp} (hop : (u.chan n).ops.find? (fun o => o.issued && decide (o.lun = j)) = some o)
include hop

/-- A completion sampled by the timeout's edge counts (R413). -/
theorem opTimeout_completed : opTimeout n j true u = u := by
  simp only [opTimeout, hop, if_true]

/-- An operation that runs out of time parks its target (R407). -/
theorem opTimeout_parks :
    opTimeout n j false u =
      lastErr n 4 o.kind.op j (parkTarget n (j / 4) ((u.addSat (rTWILL_TIMEOUTS n) 1).raise (rTWILL_CHINTSTAT n) 1)) := by
  simp only [opTimeout, hop, Bool.false_eq_true, if_false]

end

/-- RB_N low with nothing outstanding parks a channel that is populated and not parked yet (R409). -/
theorem rbStuck_idle (hpresent : (u.chan n).st ≠ .absent) (hserves : (u.chan n).st ≠ .parked)
    (hidle : (u.chan n).ops.any (fun o => o.issued) = false) : rbStuck n u = parkChannel n u :=
  if_neg (by simp [hpresent, hserves, hidle])

/-! ## Offsets and probes -/

/-- Level 7 names no offset: OFFIDX moves on all the same (R391). -/
theorem offWrite_noLevel {v : Nat} (hlevel : 7 ≤ u.fld (rTWILL_OFFIDX n) 2 0) :
    offWrite n v u =
      ((u.setFld (rTWILL_OFFDATA n) 7 0 v).setFld (rTWILL_OFFIDX n) 7 4 (offNext u n).1).setFld (rTWILL_OFFIDX n) 2 0 (offNext u n).2 := by
  simp only [offWrite, if_neg (Nat.not_le.mpr hlevel)]

/-- The level that OFFIDX names takes the offset (R391). -/
theorem offWrite_level {v : Nat} (hlevel : u.fld (rTWILL_OFFIDX n) 2 0 ≤ 6) :
    offWrite n v u =
      let w := setOffset n (u.fld (rTWILL_OFFIDX n) 7 4) (u.fld (rTWILL_OFFIDX n) 2 0) (signed 8 v) u
      ((w.setFld (rTWILL_OFFDATA n) 7 0 v).setFld (rTWILL_OFFIDX n) 7 4 (offNext w n).1).setFld (rTWILL_OFFIDX n) 2 0 (offNext w n).2 := by
  simp only [offWrite, if_pos hlevel]

/-- A probe whose read does not decode moves no offset, and the next one takes the next level (R394, R395). -/
theorem probe_undecoded (mism : List Nat) (hup : chanUp u n = true) (hst : u.power.st ≠ .lastBreath) (hlun : (u.lun n j).st = .active)
    (hcal : calMay u 0 = true) (htime : 5 * (nth (u.chan n).targets (j / 4)).geom.tr + 20 ≤ calRem u) :
    probe n j false mism u = setLun n j (fun l => { l with probeLevel := ((u.lun n j).probeLevel + 1) % 7 }) u := by
  have hgo : ¬ (!chanUp u n || u.dying || (u.lun n j).st ≠ .active || !calMay u 0 ||
      decide (calRem u < 5 * (nth (u.chan n).targets (j / 4)).geom.tr + 20)) = true := by
    simp [hup, not_dying hst, hlun, hcal, htime]
  simp only [probe, if_neg hgo, Bool.not_false, Bool.true_or, if_true]

end

/-- Settles O38, command by command. That a failed program abandons its superpage and leaves the segment open is the model's reading
(notes/assumptions/11.md), as is the order in which OFFIDX moves on (notes/assumptions/30.md). Of probes the statement has only the one whose
read does not decode. -/
theorem nandChannelOperations : Obligations.NandChannelOperations := by
  intro t n s hacts
  dsimp only
  have hdone {v : State} (j : Fin 16) (res : NandRes) (e : nandDone n.val j.val res none (s.at t) = v) :
      exec (.nandOperationDone t n j res none) s = .next (wrapUp v) :=
    onUnits_acts_eq (g := fun s => wrapUp (nandDone n.val j.val res none s)) hacts (congrArg wrapUp e)
  have hoffset {w : State} (v : BitVec 8) : offWrite n.val v.toNat (s.at t) = w → exec (.offdataWrite t n v) s = .next w :=
    onUnits_acts_eq (g := offWrite n.val v.toNat) hacts
  refine ⟨fun j i hend => ⟨fun rb hkind => ?programPassed, fun hkind => ?programFailed, fun rb hkind => ?erasePassed,
      fun hkind => ?eraseFailed, fun hard retry soft rebuilt hkind => ?read⟩,
    fun i hup hst hdrain hfree => ?issued, fun j hany => ?overdue, fun j o hop => ⟨?completed, ?timedOut⟩,
    fun hpresent hserves hidle => ?stuck, fun v hlevel => ?noLevel, fun v hlevel => ?level,
    fun j mism hup hst hlun hcal htime => ?probe⟩
  case programPassed => exact hdone j _ (nandDone_programPassed hend rfl rb hkind)
  case programFailed => exact hdone j _ (nandDone_programFailed hend rfl hkind)
  case erasePassed => exact hdone j _ (nandDone_erasePassed hend rfl rb hkind)
  case eraseFailed => exact hdone j _ (nandDone_eraseFailed hend rfl hkind)
  case read => exact hdone j _ (nandDone_read hend rfl hard retry soft rebuilt hkind)
  case issued => exact onUnits_acts_eq (g := nandIssue n.val true) hacts (nandIssue_issues rfl hup hst hdrain hfree)
  case overdue => exact onUnits_acts_eq (g := opOverdue n.val j.val) hacts (opOverdue_outstanding hany)
  case completed => exact onUnits_acts_eq (g := opTimeout n.val j.val true) hacts (opTimeout_completed hop)
  case timedOut => exact onUnits_acts_eq (g := opTimeout n.val j.val false) hacts (opTimeout_parks hop)
  case stuck => exact onUnits_acts_eq (g := rbStuck n.val) hacts (rbStuck_idle hpresent hserves hidle)
  case noLevel => exact hoffset v (offWrite_noLevel hlevel)
  case level => exact hoffset v (offWrite_level hlevel)
  case probe => exact onUnits_acts_eq (g := probe n.val j.val false mism) hacts (probe_undecoded mism hup hst hlun hcal htime)

end Sys2Proof.Proofs
end

section
/-!
Superpages, media tables and the media procedures (R367, R382–R390, R399, R421–R426, R461, R462). Each lemma takes the command at the device's
own instant.
-/

namespace Sys2Proof.Proofs

open Sys2Proof Sys2Proof.Machine Sys2Proof.Laws

/-! ## Fields of an argument -/

theorem length_leBytes (n v : Nat) : (le n v).length = n := by
  induction n generalizing v with
  | zero => rfl
  | succ n ih => simp [le, ih]

/-- A number comes back from as many bytes as it was cut into, up to what they hold (R14). -/
theorem ofLe_leBytes (n v : Nat) : ofLe (le n v) = v % 256 ^ n := by
  induction n generalizing v with
  | zero => simp [le, ofLe, Nat.mod_one]
  | succ n ih =>
    rw [le, ofLe, ih, BitVec.toNat_ofNat, Nat.pow_succ' (m := 256)]
    exact Nat.mod_mul.symm

/-- A field reads the number that was put at its place. -/
theorem dfld_leBytes {a : Bytes} {off : Nat} (b : Bytes) {n v : Nat} (hoff : a.length = off) (hv : v < 256 ^ n) :
    dfld (a ++ (le n v ++ b)) off n = v := by
  rw [dfld, slice, List.drop_left' hoff, List.take_left' (length_leBytes n v), ofLe_leBytes, Nat.mod_eq_of_lt hv]

section
variable {u v : State}

/-! ## Superpages -/

section
variable {n : Nat} {f : Superpage} (hfill : (u.nspace n).filling = some f)
include hfill

/-- A full superpage is formed, and placement goes on (R382). -/
theorem superpageProgram_full (hfull : slotsPer u f.seg ≤ f.slots.length) (hst : u.power.st ≠ .lastBreath) :
    superpageProgram n u = place n (formFilling n f u) := by
  simp only [superpageProgram, hfill, if_pos (And.intro hfull (eq_false_of_ne_true (not_dying hst)))]

theorem superpageProgram_filling (hroom : f.slots.length < slotsPer u f.seg) : superpageProgram n u = u := by
  simp only [superpageProgram, hfill, if_neg (mt And.left (Nat.not_le.mpr hroom))]

/-- FILLMAX after its first slot a superpage is formed, with the open ledger unit in a free slot (R382, R470). -/
theorem fillmax_due (hdue : f.firstFill + u.fld rTWILL_FILLCFG 15 0 * 1000000 ≤ u.now) (hst : u.power.st ≠ .lastBreath) :
    fillmax n u = place n (formFilling n (addLedger n f u).1 (addLedger n f u).2) := by
  simp only [fillmax, hfill, if_pos (And.intro hdue (eq_false_of_ne_true (not_dying hst)))]

end

/-- A superpage that has waited PAIRMAX for its closer gets padding superpages up to it (R390). -/
theorem pairmax_late {k : Nat} {x : Superpage} (hst : u.power.st ≠ .lastBreath)
    (hlate : u.media.superpages.find? (fun x => decide (x.seg = k) && !x.mapped && !x.abandoned && pagesPassed u x &&
      !pageSafe u k (pagesPerBlock u) x.idx && decide (x.formedAt + u.fld rTWILL_FILLCFG 31 16 * 1000000 ≤ u.now)) = some x) :
    pairmax k u = padTo (segNs u k) k (pagesPerBlock u) (closerOf u x.idx) u := by
  simp only [pairmax, hlate, if_neg (not_dying hst)]

/-! ## MEDIA_INIT, HOLD_RELEASE and NS_PURGE -/

section
variable (princ : Nat) (d : Bytes) (env : ProcEnv)

theorem procRow_mediaInit : procRow (okey 0x4020 0) princ d env u = wrapUp (mediaRun princ env.bad u).2 := rfl

/-- MEDIA_INIT outside BLANK and PERSONALISE ends with STATE (R367). -/
theorem mediaRun_refused {bad : List (Nat × Nat × Nat)} (h : mediaInit bad u = (.state, v)) : (mediaRun princ bad u).2 = u := by
  simp only [mediaRun, h, if_true]

/-- MEDIA_INIT runs to its end, which has a code (R367, R389). -/
theorem mediaRun_ends {bad : List (Nat × Nat × Nat)} {r : ProcRes} (h : mediaInit bad u = (r, v)) (hr : r ≠ .state) :
    (mediaRun princ bad u).2 = procRan (okey 0x4020 0) princ r.abort v := by
  simp only [mediaRun, h, if_neg hr]

theorem procRow_holdRelease :
    procRow (okey 0x4050 0) princ d env u =
      wrapUp (nsRun (okey 0x4050 0) princ (holdRelease (dfld d 0 1) (dfld d 1 8) (dfld d 9 8) u)).2 :=
  rfl

theorem procRow_nsPurge :
    procRow (okey 0x4051 0) princ d env u = wrapUp (nsRun (okey 0x4051 0) princ (nsPurge (dfld d 0 1) u)).2 :=
  rfl

/-- HOLD_RELEASE takes NS, FROM and TO (R461). -/
theorem procRow_holdRelease_args {n lo hi : Nat} (hn : n < 256 ^ 1) (hlo : lo < 256 ^ 8) (hhi : hi < 256 ^ 8) :
    procRow (okey 0x4050 0) princ (le 1 n ++ le 8 lo ++ le 8 hi) env u =
      wrapUp (nsRun (okey 0x4050 0) princ (holdRelease n lo hi u)).2 := by
  have hns : dfld (le 1 n ++ (le 8 lo ++ le 8 hi)) 0 1 = n := dfld_leBytes (a := []) _ rfl hn
  have hfrom : dfld (le 1 n ++ (le 8 lo ++ le 8 hi)) 1 8 = lo := dfld_leBytes _ (length_leBytes 1 n) hlo
  have hto : dfld (le 1 n ++ (le 8 lo ++ le 8 hi)) 9 8 = hi := by
    have h := dfld_leBytes (a := le 1 n ++ le 8 lo) [] (off := 9) (by simp only [List.length_append, length_leBytes]) hhi
    rwa [List.append_nil, List.append_assoc] at h
  rw [procRow_holdRelease, List.append_assoc, hns, hfrom, hto]

/-- NS_PURGE takes NS (R462). -/
theorem procRow_nsPurge_args {n : Nat} (hn : n < 256 ^ 1) :
    procRow (okey 0x4051 0) princ (le 1 n) env u = wrapUp (nsRun (okey 0x4051 0) princ (nsPurge n u)).2 := by
  have hns : dfld (le 1 n) 0 1 = n := by
    have h := dfld_leBytes (a := []) [] rfl hn
    rwa [List.nil_append, List.append_nil] at h
  rw [procRow_nsPurge, hns]

end

/-- An empty range of units is refused. -/
theorem holdRelease_empty (n : Nat) {lo hi : Nat} (hempty : hi < lo) : holdRelease n lo hi u = (.range, u) := if_pos (.inr hempty)

section
variable {n : Nat} (hn : n < 16) (hclass : nsClass u n ≠ 2)
include hn hclass

/-- The units of a LOOP or HOLD namespace become dead (R461). -/
theorem holdRelease_releases {lo hi : Nat} (hrange : lo ≤ hi) :
    holdRelease n lo hi u = (.ok, freeDead (logAppend (.release n lo hi)
      (setNs n (fun x => { x with released := x.released ++ [(lo, hi)] }) u))) :=
  (if_neg (by omega)).trans (if_neg hclass)

/-- Every unit of a LOOP or HOLD namespace becomes dead, and LOW stands at WP (R462). -/
theorem nsPurge_purges :
    nsPurge n u =
      let v := setNs n (fun x => { x with low := x.wp }) u
      (.ok, freeDead (logAppend (.reclaim n (v.nspace n).low) v)) :=
  (if_neg (Nat.not_le.mpr hn)).trans (if_neg hclass)

end

/-! ## Pair and read-retry tables -/

/-- The pair table is closed while a channel is READY (R388). -/
theorem pairWrite_closed (w : Nat) (h : anyReady u = true) : pairWrite w u = u := if_pos h

/-- An entry goes to PAIRIDX, which moves on. -/
theorem pairWrite_open {w : Nat} (hw : w < 65536) (h : anyReady u = false) :
    pairWrite w u =
      let i := u.fld rTWILL_PAIRIDX 11 0
      ((u.onMedia fun m => { m with pairTable := sinsert (serase m.pairTable i) i w }).setFld rTWILL_PAIRDATA 15 0 w).setFld
        rTWILL_PAIRIDX 11 0 ((i + 1) % 4096) := by
  simp only [pairWrite, h, Bool.false_eq_true, if_false, Nat.mod_eq_of_lt hw]

/-! ## Read aborts -/

section
variable {id : Nat}

theorem rdAbort_notFound (tie : Bool) (hnone : u.media.jobs.find? (fun j => decide (j.id = id) && !j.aborted) = none) :
    rdAbort id tie u = u.onMedia fun m => { m with rdAbortStat := 3 } := by
  simp only [rdAbort, hnone]

/-- A completion latched by the edge that samples the abort wins (R425). -/
theorem rdAbort_late {j : ReadJob} (hjob : u.media.jobs.find? (fun j => decide (j.id = id) && !j.aborted) = some j) :
    rdAbort id true u = (setJob id (fun j => { j with done := true }) u).onMedia fun m => { m with rdAbortStat := 1 } := by
  simp only [rdAbort, hjob, Bool.or_true, if_true]

end

/-! ## Encoder lanes -/

/-- An encoder lane in service parks while another one stays (R424). -/
theorem parkLdpc_encoder {lane : Nat} (hserves : u.media.ldpcParked.contains (16 + lane) = false)
    (hothers : (u.media.ldpcParked.filter (fun l => decide (l < 16) == false)).length < 3) :
    parkLdpc (16 + lane) u =
      setSticky 103 40 (16 + lane) ((u.onMedia fun m => { m with ldpcParked := m.ldpcParked ++ [16 + lane] }).raise rTWILL_INTSTAT 3) := by
  have hencoder : ¬ 16 + lane < 16 := by omega
  have hlast : ¬ 4 ≤ (u.media.ldpcParked.filter (fun l => decide (l < 16) == false)).length + 1 := by omega
  simp only [parkLdpc, hserves, Bool.false_eq_true, decide_eq_false hencoder, if_false, if_neg hencoder, if_neg hlast]

end

/-- Settles O39, command by command. HW_FAULT of MEDIA_INIT, which the statement leaves to `mediaInit`, is the model's reading
(notes/assumptions/33.md), as is what the journal keeps of the emptied namespaces (notes/assumptions/85.md). RDABORT answers LATE, ABORTED or
NOTFOUND (R425); the statement has no clause for ABORTED, which ends a job that still runs (R426). -/
theorem twillPagesAndTables : Obligations.TwillPagesAndTables := by
  intro t s hacts
  dsimp only
  have hrelease {w : State} (princ : BitVec 4) (n : BitVec 8) (lo hi : BitVec 64)
      (e : (nsRun (okey 0x4050 0) princ.toNat (holdRelease n.toNat lo.toNat hi.toNat (s.at t))).2 = w) :
      exec (.holdRelease t princ n lo hi) s = .next (wrapUp w) :=
    onUnits_acts_eq (g := procRow (okey 0x4050 0) princ.toNat (le 1 n.toNat ++ le 8 lo.toNat ++ le 8 hi.toNat) {}) hacts
      ((procRow_holdRelease_args _ _ n.isLt lo.isLt hi.isLt).trans (congrArg wrapUp e))
  have hmedia {w : State} (princ : BitVec 4) (env : ProcEnv) (e : (mediaRun princ.toNat env.bad (s.at t)).2 = w) :
      exec (.mediaInit t princ env) s = .next (wrapUp w) :=
    onUnits_acts_eq (g := procRow (okey 0x4020 0) princ.toNat [] env) hacts ((procRow_mediaInit ..).trans (congrArg wrapUp e))
  refine ⟨fun n f hfill hst => ⟨fun hfull => ?full, fun hroom => ?filling, fun hdue => ?fillmax⟩, fun k x hst hlate => ?pairmax,
    fun princ env r v hinit => ⟨?refused, fun hr => ?initialised⟩,
    fun princ n lo hi hn hclass => ⟨fun hrange => ?released, fun hempty => ?emptyRange, ?purged⟩,
    fun v => ⟨fun hready => ?pairClosed, fun hready => ?pairOpen⟩, fun w => ?readRetry,
    fun id => ⟨fun hnone tie => ?notFound, fun j hjob => ?late⟩, fun lane hserves hothers => ?encoder⟩
  case full => exact onUnits_acts_eq (g := superpageProgram n.val) hacts (superpageProgram_full hfill hfull hst)
  case filling => exact onUnits_acts_eq (g := superpageProgram n.val) hacts (superpageProgram_filling hfill hroom)
  case fillmax => exact onUnits_acts_eq (g := fillmax n.val) hacts (fillmax_due hfill hdue hst)
  case pairmax => exact onUnits_acts_eq (g := pairmax k) hacts (pairmax_late hst hlate)
  case refused =>
    rintro rfl
    exact hmedia princ env (mediaRun_refused _ hinit)
  case initialised => exact hmedia princ env (mediaRun_ends _ hinit hr)
  case released =>
    exact hrelease princ n lo hi (by rw [holdRelease_releases hn hclass hrange]; rfl)
  case emptyRange =>
    exact hrelease princ n lo hi (by rw [holdRelease_empty _ hempty]; rfl)
  case purged =>
    exact onUnits_acts_eq (g := procRow (okey 0x4051 0) princ.toNat (le 1 n.toNat) {}) hacts
      ((procRow_nsPurge_args _ _ n.isLt).trans (by rw [nsPurge_purges hn hclass]; rfl))
  case pairClosed => exact onUnits_acts_eq (g := pairWrite v.toNat) hacts (pairWrite_closed v.toNat hready)
  case pairOpen => exact onUnits_acts_eq (g := pairWrite v.toNat) hacts (pairWrite_open v.isLt hready)
  case readRetry => exact onUnits_acts hacts (rrWrite w)
  case notFound => exact onUnits_acts_eq (g := rdAbort id.toNat tie) hacts (rdAbort_notFound tie hnone)
  case late => exact onUnits_acts_eq (g := rdAbort id.toNat true) hacts (rdAbort_late hjob)
  case encoder => exact onUnits_acts_eq (g := parkLdpc (16 + lane.val)) hacts (parkLdpc_encoder hserves hothers)

end Sys2Proof.Proofs
end

section
/-!
Twill's journal and segments (R400, R401, R439–R451, R475–R494): checkpoints, TIMECK, the scrubs, the field sensor, allocations, garbage
collection and the reload of the table pages. Each lemma takes the command at the device's own instant.
-/

namespace Sys2Proof.Proofs

open Sys2Proof Sys2Proof.Machine Sys2Proof.Laws

section
variable {u : State}

/-! ## Checkpoints -/

/-- A request merges into a checkpoint that runs, and is counted (R443). -/
theorem ckRequest_merges {l : Nat} (hst : u.power.st ≠ .lastBreath) (hrun : u.jrn.ckRunning = some l) :
    ckRequest u = u.onJrn fun j => { j with ckMerge := satInc 16 j.ckMerge } :=
  (if_neg (not_dying hst)).trans (if_pos (Option.isSome_of_eq_some hrun))

theorem ckRequest_starts (hst : u.power.st ≠ .lastBreath) (hnone : u.jrn.ckRunning = none) : ckRequest u = ckStart u :=
  (if_neg (not_dying hst)).trans (if_neg (by simp [hnone]))

/-- Low log space, or a log filled beyond AUTOPCT, asks for a checkpoint (R441, R443). -/
theorem ckAuto_due (h : u.jrn.logFree < logLow u ∨ u.fld rTWILL_JCTRL 23 16 * logSize < u.jrn.logUsed * 100) :
    ckAuto u = ckRequest u :=
  if_pos h

/-- A checkpoint whose table pages are written ends in the other slot (R440, R444). -/
theorem ckDone_written {l : Nat} (hst : u.power.st ≠ .lastBreath) (hrun : u.jrn.ckRunning = some l) (hpages : u.jrn.ckPages = 0) :
    ckDone u =
      let b := !u.jrn.ckSlot
      let v := logAppend (.ckpt b.toNat l)
        (u.store (if b then 0x307D4000 else 0x307C0000) (u.jrn.ckImage ++ le 4 (crc32c u.jrn.ckImage).toNat))
      let w := v.onJrn (fun j => { j with ckRunning := none, ckSlot := b, ckLsn := l, ckImage := [], log := dropLog l j.log })
      logRetry (logLevels ((w.addSat rTWILL_CKCNT 1).raise rTWILL_JINTSTAT 0)) := by
  have hgo : ¬ (u.dying = true ∨ u.jrn.ckPages ≠ 0) := by simp [not_dying hst, hpages]
  simp only [ckDone, hrun, if_neg hgo]

/-! ## Periodic work -/

/-- EVT has reached its next second (R439). -/
theorem timeck_due (hst : u.power.st ≠ .lastBreath) (hdue : u.jrn.timeckEvt / 2 ^ 24 < u.felt.evt / 2 ^ 24) : timeck u = timeckNow u :=
  if_pos ⟨eq_false_of_ne_true (not_dying hst), hdue⟩

theorem timeck_early (hearly : u.felt.evt / 2 ^ 24 ≤ u.jrn.timeckEvt / 2 ^ 24) : timeck u = u :=
  if_neg fun h => Nat.not_lt.mpr hearly h.2

/-- The MRAM is scrubbed every SCRUBD days (R428, R448). -/
theorem mramScrub_due (n : Nat) (hdue : u.jrn.scrubEvt + u.fld rTWILL_JCTRL 31 24 * 86400 * 2 ^ 24 ≤ u.felt.evt) :
    mramScrub n u = mramCorr n (u.onJrn fun j => { j with scrubEvt := u.felt.evt }) :=
  if_neg (Nat.not_lt.mpr hdue)

/-- Each segment with data is read every PATROLH hours, in a GC window, and one whose data is too old is marked (R400, R401). -/
theorem scrubPatrol_due (hst : u.power.st ≠ .lastBreath) (hwindow : gcWindow u = true)
    (hdue : u.media.patrolEvt + u.fld rTWILL_SCRUBCFG 31 24 * 3600 * 2 ^ 24 ≤ u.felt.evt) :
    scrubPatrol u =
      let v := u.onMedia fun m => { m with patrolEvt := u.felt.evt }
      ((v.jrn.segs.filter (fun e => decide (e.2.filled ≠ 0 ∧ (e.2.st = .closed ∨ e.2.st = .openSeg)))).map Prod.fst).foldl
        (fun s k => queueRead k 0 .scrub (if (s.seg k).openEvt + s.fld rTWILL_SCRUBCFG 15 0 * 86400 * 2 ^ 24 < s.felt.evt
          then markRefresh k s else s)) v := by
  have hgo : ¬ (u.dying || !gcWindow u || decide (u.felt.evt < u.media.patrolEvt + u.fld rTWILL_SCRUBCFG 31 24 * 3600 * 2 ^ 24)) = true := by
    simp only [Bool.or_eq_true, not_or]
    exact ⟨⟨not_dying hst, by simp [hwindow]⟩, by simpa using hdue⟩
  simp only [scrubPatrol, if_neg hgo]

/-- As the field falls the journal is corrected, and a checkpoint starts (R428, R451). -/
theorem fieldOff_intact (n : Nat) (hfield : u.jrn.field = true) :
    fieldOff n false u = ckRequest (mramCorr n (u.onJrn fun j => { j with field := false })) := by
  simp only [fieldOff, hfield, Bool.not_true, Bool.false_eq_true, if_false]

/-! ## Segments -/

/-- A namespace other than LOOP with no QUOTA takes the segment that is chosen, while free segments are not short (R459, R486, R488). -/
theorem segAllocate_takes {n k : Nat} (hgeo : u.media.geo.isSome = true) (htables : u.jrn.tablesRead = true)
    (hst : u.power.st ≠ .lastBreath) (hwidth : widthOk u = true) (hn : n < 17) (hahead : (u.nspace n).ahead = none)
    (hquota : nsQuota u n = 0) (hclass : nsClass u n ≠ 0) (hfree : u.fld rTWILL_GCCFG2 31 16 ≤ freeSegs u) (hpool : poolOk u n = true)
    (hchoice : chooseSeg u = some k) : segAllocate n false u = allocate n k false u := by
  have hgo : ¬ (u.media.geo = none ∨ u.jrn.tablesRead = false ∨ u.dying = true ∨ 16 < n ∨ widthOk u = false
      ∨ (u.nspace n).ahead.isSome = true) := by
    simp [Option.isSome_iff_ne_none.mp hgeo, htables, not_dying hst, Nat.le_of_lt_succ hn, hwidth, hahead]
  simp only [segAllocate, true_and, if_neg hgo, hquota, hclass, ne_eq, not_true_eq_false, false_and, and_false, if_false, if_neg (Nat.not_lt.mpr hfree),
    hpool, if_true, hchoice]

/-- A segment whose blocks are erased is ALLOCATED when enough members are left (R361, R486). -/
theorem segEraseDone_erased {k : Nat} (hst : (u.seg k).st = .allocating)
    (hidle : u.media.ch.any (fun c => c.ops.any (fun o => decide (o.kind = .erase ∧ o.seg = k))) = false)
    (hwidth : minWidth u ≤ (u.seg k).members.length) :
    segEraseDone k u = logSeg k (setSeg k (fun g => { g with st := .allocated }) u) := by
  simp only [segEraseDone, hst, hidle, ne_eq, not_true_eq_false, Bool.false_eq_true, or_self, if_false, if_neg (Nat.not_lt.mpr hwidth)]

/-- Placement begins once a channel is READY and the table pages are read (R494). -/
theorem tablesRead_ready (hreplay : u.jrn.replaying = false) (hready : anyReady u = true) :
    tablesRead u = (List.range 17).foldl (fun v n => place n v) (u.onJrn fun j => { j with tablesRead := true }) :=
  if_neg (by simp [hreplay, hready])

/-! ## Garbage collection -/

/-- Garbage collection works on segment `k`, in a window or by urgency (R483). -/
def gcCollects (k : Nat) (v : State) : State :=
  v.onJrn fun j => { j with gc := { j.gc with src := some k, st := if gcMay v then .copy else .urgent } }

section
variable (hst : u.power.st ≠ .lastBreath) (htables : u.jrn.tablesRead = true) (hmay : gcMay u = true ∨ gcUrgent u = true)
  (hreading : u.jrn.gc.reading = []) (hgot : u.jrn.gc.got = [])
include hst htables hmay hreading hgot

/-- Nothing keeps a copy from starting (R483, R494). -/
theorem gcCopy_goes :
    ¬ (u.dying = true ∨ u.jrn.tablesRead = false ∨ (gcMay u = false ∧ gcUrgent u = false) ∨ u.jrn.gc.reading ≠ [] ∨ u.jrn.gc.got ≠ []) := by
  have hclosed : ¬ (gcMay u = false ∧ gcUrgent u = false) := fun h => hmay.elim (ne_true_of_eq_false h.1) (ne_true_of_eq_false h.2)
  simp only [not_dying hst, htables, hclosed, hreading, hgot, reduceCtorEq, ne_eq, not_true_eq_false, or_self, not_false_eq_true]

theorem gcCopy_idle (hsrc : (markCold u).jrn.gc.src = none) (hselect : gcSelect (markCold u) = none) :
    gcCopy u = (markCold u).onJrn fun j => { j with gc := { j.gc with st := .idle } } := by
  simp only [gcCopy, if_neg (gcCopy_goes hst htables hmay hreading hgot), hsrc, hselect]

section
variable {k : Nat} (hsrc : (markCold u).jrn.gc.src = some k) (hflag : ((markCold u).seg k).gcsrc = true)
include hsrc hflag

/-- A source with no live unit left is freed (R479). -/
theorem gcCopy_frees (hdead : segValid (gcCollects k (markCold u)) k = 0) :
    gcCopy u = freeSeg k (gcCollects k (markCold u)) := by
  simp only [gcCopy, if_neg (gcCopy_goes hst htables hmay hreading hgot), hsrc, hflag, if_true]
  exact if_pos hdead

/-- The next live units of a source are read, for a destination of its namespace (R478, R479). -/
theorem gcCopy_reads {d : Nat} {w : State} (hlive : segValid (gcCollects k (markCold u)) k ≠ 0)
    (hdest : gcDest (segNs (gcCollects k (markCold u)) k) (gcCollects k (markCold u)) = (some d, w)) :
    gcCopy u = gcBatch (segNs w k) k d w := by
  rw [gcCollects] at hlive hdest
  simp only [gcCopy, if_neg (gcCopy_goes hst htables hmay hreading hgot), hsrc, hflag, if_true, if_neg hlive, hdest]

end

end

end

/-- Settles O40, command by command. That a QUOTA of 0 is no limit is the model's reading (notes/assumptions/34.md); the bytes of a checkpoint
slot that have no layout (notes/assumptions/35.md) and the one page that stands for the dirty ones (notes/assumptions/36.md) are behind
`ckStart`. -/
theorem twillJournalAndSegments : Obligations.TwillJournalAndSegments := by
  intro t s hacts
  dsimp only
  have hcopy {v : State} : gcCopy (s.at t) = v → exec (.gcCopy t) s = .next v := onUnits_acts_eq (g := gcCopy) hacts
  have htimeck {v : State} : timeck (s.at t) = v → exec (.timeck t) s = .next v := onUnits_acts_eq (g := timeck) hacts
  have hnow {v : State} : ckRequest (s.at t) = v → exec (.checkpointNow t) s = .next v := onUnits_acts_eq (g := ckRequest) hacts
  refine ⟨fun hst => ⟨fun l hrun => ?merged, fun hnone => ⟨?started, fun hdue => ?startsItself⟩, fun l hrun hpages => ?written,
      fun hdue => ?timeck, fun hearly => ?timeckEarly⟩,
    fun n hdue => ?scrubbed, fun hst hwindow hdue => ?patrol, ?fieldRises, fun hfield n => ?fieldFalls,
    fun hgeo htables hst hwidth n k hahead hquota hclass hfree hpool hchoice => ?allocated, fun k hst hidle hwidth => ?erased,
    fun hst htables hmay hreading hgot => ⟨fun hsrc hselect => ?gcIdle,
      fun k hsrc hflag => ⟨fun hdead => ?gcFrees, fun d w hlive hdest => ?gcReads⟩⟩,
    fun id => ?readJobEnds, fun hreplay hready => ?reloaded⟩
  case merged => exact hnow (ckRequest_merges hst hrun)
  case started => exact hnow (ckRequest_starts hst hnone)
  case startsItself => exact onUnits_acts_eq (g := ckAuto) hacts ((ckAuto_due hdue).trans (ckRequest_starts hst hnone))
  case written => exact onUnits_acts_eq (g := fun s => wrapUp (ckDone s)) hacts (congrArg wrapUp (ckDone_written hst hrun hpages))
  case timeck => exact htimeck (timeck_due hst hdue)
  case timeckEarly => exact htimeck (timeck_early hearly)
  case scrubbed => exact onUnits_acts_eq (g := mramScrub n) hacts (mramScrub_due n hdue)
  case patrol => exact onUnits_acts_eq (g := scrubPatrol) hacts (scrubPatrol_due hst hwindow hdue)
  case fieldRises => exact onUnits_acts hacts fieldOn
  case fieldFalls => exact onUnits_acts_eq (g := fieldOff n false) hacts (fieldOff_intact n hfield)
  case allocated =>
    exact onUnits_acts_eq (g := segAllocate n.val false) hacts
      (segAllocate_takes hgeo htables hst hwidth n.isLt hahead hquota hclass hfree hpool hchoice)
  case erased => exact onUnits_acts_eq (g := segEraseDone k) hacts (segEraseDone_erased hst hidle hwidth)
  case gcIdle => exact hcopy (gcCopy_idle hst htables hmay hreading hgot hsrc hselect)
  case gcFrees => exact hcopy (gcCopy_frees hst htables hmay hreading hgot hsrc hflag hdead)
  case gcReads => exact hcopy (gcCopy_reads hst htables hmay hreading hgot hsrc hflag hlive hdest)
  case readJobEnds => exact onUnits_acts hacts (readJobEnd id)
  case reloaded => exact onUnits_acts_eq (g := tablesRead) hacts (tablesRead_ready hreplay hready)

end Sys2Proof.Proofs
end

section
/-!
Power states (R498–R507, R512–R518, R537–R543, R969, R1022–R1025, R1119–R1122): parking and the last breath, wake, the supplies, and when
recording resumes. Each lemma takes the command at the device's own instant.
-/

namespace Sys2Proof.Proofs

open Sys2Proof Sys2Proof.Machine Sys2Proof.Laws

/-- A command that always acts, by what its effect does at its instant. -/
theorem always_eq_next {t : Nat} {s v : State} {g : State → State} (e : g (s.at t) = v) : always t g s = .next v :=
  congrArg _ e

/-! ## Parking and the last breath -/

section
variable {u : State}

theorem dying_of_lastBreath (hst : u.power.st = .lastBreath) : u.dying = true := decide_eq_true hst

section
variable (hst : u.power.st = .run) (hlive : u.live = true)
include hst hlive

/-- In RUN a power failure or a park acts. -/
theorem not_stopped_or_held : ¬ (u.power.st ≠ .run ∨ u.live = false) := by simp [hst, hlive]

/-- Once recording has resumed, a power failure or a park begins the last breath (R507, R510). -/
theorem startLastBreath_resumed (hres : u.power.resumed = true) : startLastBreath u = lastBreath u :=
  (if_neg (not_stopped_or_held hst hlive)).trans (if_pos hres)

/-- Before ingest first opens, it parks the NAND channels and the device (R540). -/
theorem startLastBreath_fresh (hres : u.power.resumed = false) :
    startLastBreath u = enterParked (parkNand (u.onFelt fun f => { f with lbstage := 0 })) :=
  (if_neg (not_stopped_or_held hst hlive)).trans (if_neg (ne_true_of_eq_false hres))

end

/-- IGN_IN parks the device when IGNPARK is set (R506). -/
theorem ignitionPark_enabled (hignpark : u.flag rTWEED_WAKECFG 8 = true) :
    ignitionPark u = startLastBreath (u.onPower fun p => { p with ignIn := false }) :=
  if_pos hignpark

theorem ignitionPark_disabled (hignpark : u.flag rTWEED_WAKECFG 8 = false) :
    ignitionPark u = u.onPower fun p => { p with ignIn := false } :=
  if_neg (ne_true_of_eq_false hignpark)

/-- Steps 2 and 3 are done once, and the anchor follows (R513–R516). -/
theorem lbFlush_due (hst : u.power.st = .lastBreath) (hdue : u.power.lbDone.contains 3 = false) :
    lbFlush u = lbAnchor (lbStep 3 (timeckNow (lbStep 2 (sealAll u)))) :=
  if_neg (by simp only [dying_of_lastBreath hst, hdue, Bool.true_eq_false, Bool.false_eq_true, or_self, not_false_eq_true])

/-- Step 5 is done once (R518). -/
theorem nandPark_due (hst : u.power.st = .lastBreath) (hdue : u.power.lbDone.contains 5 = false) :
    nandPark u = lbFinish (lbStep 5 (parkNand u)) :=
  if_neg (by simp only [dying_of_lastBreath hst, hdue, Bool.true_eq_false, Bool.false_eq_true, or_self, not_false_eq_true])

/-! ## Recording resume -/

theorem recordingResume_may (hmay : mayResume u = true) : recordingResume u = resume u := if_pos hmay

theorem recordingResume_mayNot (hmay : mayResume u = false) : recordingResume u = u := if_neg (ne_true_of_eq_false hmay)

/-- PFAIL_N, high again while the core waits in PARKED, brings RUN (R539). -/
theorem ingestOpen_parked (hst : u.power.st = .parked) (hlive : u.live = true) (hconf : u.power.configured = true) :
    ingestOpen u = recordingResume (u.onPower fun p => { p with pfailN := true, st := .run }) :=
  if_pos ⟨hst, hlive, hconf⟩

/-- PFAIL_N still low 1 s after reset release (R538). -/
theorem pfailStuck_due (hrel : u.power.released = true) (hlow : u.power.pfailN = false)
    (hdue : u.power.releasedAt + 1000000000 ≤ u.now) : pfailStuck u = setSticky 7 8 0 u :=
  if_pos ⟨hrel, hlow, hdue⟩

/-! ## Wake -/

/-- VDD_CORE still in range 10 ms after PMIC_EN fell: the core is held (R505). -/
theorem warmporHold_due (hst : u.power.st = .parked) (hoff : u.power.pmicEn = false) (hdue : u.power.parkedAt + 10000000 ≤ u.now) :
    warmporHold u = u.onPower fun p => { p with warmHold := true } :=
  if_pos ⟨hst, hoff, hdue⟩

section
variable {src : Fin 4} (hst : u.power.st = .parked) (hoff : u.power.pmicEn = false) (hdue : u.power.parkedAt + 100000000 ≤ u.now)
  (hen : u.flag rTWEED_WAKECFG src.val = true) (hign : src ≠ 0) (halarm : src = 3 → u.flag rFELT_FINTSTAT 3 = true)
include hst hoff hdue hen hign halarm

/-- A wake source other than IGN_IN, enabled and after its 100 ms, raises PMIC_EN; with the core held by WARMPOR it releases a full reset
(R503–R505). -/
theorem wake_enabled :
    wake src.val u =
      if u.power.warmHold then
        (u.wr rTWEED_RSTCAUSE 0#32).onPower fun p => { p with pmicEn := true, warmHold := false, warmPor := true, rst := some 1 }
      else u.onPower fun p => { p with pmicEn := true } := by
  have hign' : src.val ≠ 0 := fun h => hign (Fin.ext h)
  have hon : (decide (src.val < 4) && u.flag rTWEED_WAKECFG src.val && (decide (src.val ≠ 3) || u.flag rFELT_FINTSTAT 3)) = true := by
    rw [decide_eq_true src.isLt, hen, Bool.true_and, Bool.true_and, Bool.or_eq_true, decide_eq_true_iff]
    exact Decidable.or_iff_not_imp_left.mpr fun h => halarm (Fin.ext (Decidable.not_not.mp h))
  simp only [wake, if_neg hign']
  exact if_pos ⟨hst, hoff, hdue, hon⟩

theorem wake_powers (hwarm : u.power.warmHold = false) : wake src.val u = u.onPower fun p => { p with pmicEn := true } :=
  (wake_enabled hst hoff hdue hen hign halarm).trans (if_neg (ne_true_of_eq_false hwarm))

theorem wake_resets (hwarm : u.power.warmHold = true) :
    wake src.val u =
      (u.wr rTWEED_RSTCAUSE 0#32).onPower fun p => { p with pmicEn := true, warmHold := false, warmPor := true, rst := some 1 } :=
  (wake_enabled hst hoff hdue hen hign halarm).trans (if_pos hwarm)

end

/-! ## Supplies -/

/-- What a released core loses with its supply. -/
def coreSupplyLost (u : State) : State := keysPowerLoss (discPowerLoss (flashTorn u))

/-- A monitor's fall with VDD_IO18 gone leads to VAULT while the cell is there (R1022, R1119). -/
theorem monitorFall_vault (hrel : u.power.released = true) (hcell : (coreSupplyLost u).felt.vbat = true) :
    monitorFall true u = ((coreSupplyLost u).onPower fun p =>
      { p with st := .vault, rails := false, io18 := false, released := false, rst := some 1, ingest := false, warmHold := false
               pmicEn := false }).onFelt fun f => { f with onVbat := true } := by
  rw [coreSupplyLost] at hcell ⊢
  simp only [monitorFall, hrel, if_true, hcell, State.onFelt, State.onPower, Bool.not_true, Bool.and_false, and_false,
    Bool.true_eq_false, if_false]

/-- A core rail's fall alone keeps the power state (R1119). -/
theorem monitorFall_coreRail (hrel : u.power.released = true) (hst : u.power.st ≠ .lastBreath) :
    monitorFall false u = (coreSupplyLost u).onPower fun p =>
      { p with st := u.power.st, rails := false, released := false, rst := some 1, ingest := false, warmHold := false } := by
  cases hwas : u.power.st with
  | lastBreath => exact absurd hwas hst
  | _ => simp only [monitorFall, hrel, hwas, if_true, coreSupplyLost, Bool.false_eq_true, if_false, false_and, Bool.not_false, Bool.and_true]

/-- VDD_IO18 in its range raises PMIC_EN (R1122). -/
theorem powerUp_due (hst : u.power.st = .off ∨ u.power.st = .vault) :
    powerUp u = u.onPower fun p => { p with io18 := true, pmicEn := true } :=
  if_pos hst

/-- Felt once VBAT is in its range: source 8 re-arms, and above 2.0 V, which `b` says, CELLOUT clears (R1003, R1023). -/
def cellReturned (b : Bool) (u : State) : State := tripOff 8 (u.onFelt fun f => { f with vbat := true, cellOut := f.cellOut && !b })

theorem vbatApplied_off (b : Bool) (hst : u.power.st = .off) :
    vbatApplied b u = ((cellReturned b u).onFelt fun f => { f with onVbat := !u.power.io18 }).onPower fun p => { p with st := .vault } :=
  if_pos hst

theorem vbatApplied_supplied (b : Bool) (hst : u.power.st ≠ .off) : vbatApplied b u = cellReturned b u := if_neg hst

/-- With neither supply Felt loses all it holds (R1024). -/
theorem feltSupplyLoss_unsupplied (hio18 : u.power.io18 = false) :
    feltSupplyLoss u = feltLose (u.onPower fun p => { p with st := .off }) :=
  if_neg (ne_true_of_eq_false hio18)

end

/-- Settles O41, command by command. That IGN_IN and PARK, too, only park a device that has not resumed is the model's reading of R540, which
speaks of a power failure; that source 8 re-arms when VBAT returns is its reading of R1003 (notes/assumptions/88.md). The statement has no
clause for a wake by IGN_IN, nor for the fall of a core rail in the last breath (notes/assumptions/65.md). -/
theorem powerStates : Obligations.PowerStates := by
  intro t s
  dsimp only
  refine ⟨fun hst hlive => ⟨fun hres => ⟨?pfail, fun hignpark => ?ignition, fun hacts => ?park⟩,
      fun hres => ⟨?pfailFresh, fun hignpark => ?ignitionFresh, fun hacts => ?parkFresh⟩⟩,
    fun hignpark => ?ignitionOff, fun hst hdue => ?flushed, fun hst hdue => ?nandParked,
    fun hmay => ⟨fun hacts => ?opened, ?resumes⟩, fun hmay => ?resumesNot,
    fun hst hoff => ⟨fun hdue src hen hign halarm => ⟨fun hwarm => ?woken, fun hwarm => ?wokenByReset⟩, fun hdue => ?held⟩,
    fun hrel => ⟨fun hcell => ?vault, fun hst => ?coreRail⟩, fun hst => ?poweredUp,
    fun b => ⟨fun hst => ?cellOff, fun hst => ?cellOn⟩, fun hio18 => ?feltLost, fun hrel hlow hdue => ?pfailStuck,
    fun hst hlive hconf => ?ingestOpens⟩
  case pfail => exact always_eq_next (g := pfailFall) (startLastBreath_resumed hst hlive hres)
  case ignition =>
    exact always_eq_next (g := ignitionPark) ((ignitionPark_enabled hignpark).trans (startLastBreath_resumed hst hlive hres))
  case park => exact onUnits_acts_eq (g := startLastBreath) hacts (startLastBreath_resumed hst hlive hres)
  case pfailFresh => exact always_eq_next (g := pfailFall) (startLastBreath_fresh hst hlive hres)
  case ignitionFresh =>
    exact always_eq_next (g := ignitionPark) ((ignitionPark_enabled hignpark).trans (startLastBreath_fresh hst hlive hres))
  case parkFresh => exact onUnits_acts_eq (g := startLastBreath) hacts (startLastBreath_fresh hst hlive hres)
  case ignitionOff => exact always_eq_next (g := ignitionPark) (ignitionPark_disabled hignpark)
  case flushed => exact always_eq_next (g := lbFlush) (lbFlush_due hst hdue)
  case nandParked => exact always_eq_next (g := nandPark) (nandPark_due hst hdue)
  case opened => exact onUnits_acts_eq (g := recordingResume) hacts (recordingResume_may hmay)
  case resumes => exact always_eq_next (g := recordingResume) (recordingResume_may hmay)
  case resumesNot => exact always_eq_next (g := recordingResume) (recordingResume_mayNot hmay)
  case woken => exact always_eq_next (g := wake src.val) (wake_powers hst hoff hdue hen hign halarm hwarm)
  case wokenByReset => exact always_eq_next (g := wake src.val) (wake_resets hst hoff hdue hen hign halarm hwarm)
  case held => exact always_eq_next (g := warmporHold) (warmporHold_due hst hoff hdue)
  case vault => exact always_eq_next (g := monitorFall true) (monitorFall_vault hrel hcell)
  case coreRail => exact always_eq_next (g := monitorFall false) (monitorFall_coreRail hrel hst)
  case poweredUp => exact always_eq_next (g := powerUp) (powerUp_due hst)
  case cellOff => exact always_eq_next (g := vbatApplied b) (vbatApplied_off b hst)
  case cellOn => exact always_eq_next (g := vbatApplied b) (vbatApplied_supplied b hst)
  case feltLost => exact always_eq_next (g := feltSupplyLoss) (feltSupplyLoss_unsupplied hio18)
  case pfailStuck => exact always_eq_next (g := pfailStuck) (pfailStuck_due hrel hlow hdue)
  case ingestOpens => exact always_eq_next (g := ingestOpen) (ingestOpen_parked hst hlive hconf)

end Sys2Proof.Proofs
end

section
/-!
Resets (R525–R536, R1119): POR and the sequence that an asserted source runs, the sources of codes 0x08 and 0x09, and RST_N by how long it is
low. Each lemma takes the command at the device's own instant.
-/

namespace Sys2Proof.Proofs

open Sys2Proof Sys2Proof.Machine Sys2Proof.Laws

section
variable {u : State}

/-! ## The full reset -/

theorem fullReset_none (o : BootOut) (hrst : u.power.rst = none) : fullReset o u = u := by simp only [fullReset, hrst]

section
variable {c : Nat} (o : BootOut) (hrst : u.power.rst = some c)
include hrst

/-- An asserted source runs the sequence where the rails are up and RST_N does not hold it (R526, R533). -/
theorem fullReset_runs (hpmic : u.power.pmicEn = true) (hrails : u.power.rails = true)
    (hpin : u.power.rstN = true ∨ u.power.rstIgnored = true) : fullReset o u = resetSequence c o u := by
  have hgo : ¬ (u.power.pmicEn = false ∨ u.power.rails = false ∨ (u.power.rstN = false ∧ u.power.rstIgnored = false)) := by
    rcases hpin with h | h <;> simp [hpmic, hrails, h]
  simp only [fullReset, hrst, if_neg hgo]

theorem fullReset_held (hlow : u.power.rstN = false) (harmed : u.power.rstIgnored = false) : fullReset o u = u := by
  simp only [fullReset, hrst, hlow, harmed, and_self, or_true, if_true]

end

/-! ## POR -/

/-- The device as POR's release leaves it, with the last edge of RST_N kept (R532, R1119). -/
def porReleased (u : State) : State :=
  (u.wr rTWEED_RSTCAUSE 0#32).onPower fun p => { p with rails := true, io18 := true, rst := some 1, rstIgnored := false }

theorem porStart_pinHigh (hpin : u.power.rstN = true) : porStart u = porReleased u := by
  simp only [porStart, porReleased, State.onPower, wr_power, hpin, if_true]

/-- A low that is present at power-on is timed from POR (R536). -/
theorem porStart_pinLow (hpin : u.power.rstN = false) : porStart u = (porReleased u).onPower fun p => { p with rstEdge := u.now } := by
  simp only [porStart, porReleased, State.onPower, wr_power, hpin, Bool.false_eq_true, if_false]

section
variable (o : BootOut) (hpmic : u.power.pmicEn = true) (hlive : u.live = false)
include hpmic hlive

theorem por_starts : por o u = fullReset o (porStart u) :=
  if_neg (by simp only [hpmic, hlive, Bool.true_eq_false, Bool.false_eq_true, or_self, not_false_eq_true])

theorem por_pinHigh (hpin : u.power.rstN = true) : por o u = resetSequence 1 o (porReleased u) := by
  rw [por_starts o hpmic hlive, porStart_pinHigh hpin]
  exact fullReset_runs o rfl hpmic rfl (.inl hpin)

/-- RST_N, low at power-on, holds the sequence (R533, R536). -/
theorem por_pinLow (hpin : u.power.rstN = false) : por o u = (porReleased u).onPower fun p => { p with rstEdge := u.now } := by
  rw [por_starts o hpmic hlive, porStart_pinLow hpin]
  exact fullReset_held o rfl hpin rfl

end

/-! ## The sources 0x08 and 0x09 -/

/-- A source in the last breath is recorded, and no more (R525). -/
theorem resetRequest_deferred (c : Nat) (hst : u.power.st = .lastBreath) :
    resetRequest c u = u.onFelt fun f => { f with deferred := f.deferred ||| 2 ^ c } :=
  (if_pos (dying_of_lastBreath hst)).trans (if_pos hst)

/-- Elsewhere the close comes before the reset (R528). -/
theorem resetRequest_closes (c : Nat) (hst : u.power.st ≠ .lastBreath) : resetRequest c u = assertReset c (preResetClose u) :=
  if_neg (not_dying hst)

/-! ## RST_N -/

/-- RST_N at a level since this instant. -/
def rstPin (high : Bool) (u : State) : State := u.onPower fun p => { p with rstN := high, rstEdge := u.now }

theorem rstFall_without_effect (h : u.power.rstIgnored = true ∨ u.power.released = false) : rstFall u = rstPin false u := if_pos h

/-- An armed pin of a released core asserts its cause (R533). -/
theorem rstFall_asserts (harmed : u.power.rstIgnored = false) (hrel : u.power.released = true) :
    rstFall u = assertReset 2 (rstPin false u) :=
  if_neg fun h => h.elim (ne_true_of_eq_false harmed) (ne_false_of_eq_true hrel)

theorem rstRise_short (hshort : u.now < u.power.rstEdge + 3000000000) : rstRise u = rstPin true u :=
  if_neg fun ⟨_, _, hlong, _⟩ => by omega

/-- A low of 3 s to RSTHOLD_MAX, bounds included, is a service request (R533, R534). -/
theorem rstRise_service (hlow : u.power.rstN = false) (harmed : u.power.rstIgnored = false)
    (hlong : u.power.rstEdge + 3000000000 ≤ u.now) (hmax : u.now ≤ u.power.rstEdge + u.fld rTWEED_RSTHOLD 4 0 * 1000000000) :
    rstRise u = (rstPin true u).setFlag rTWEED_RSTCAUSE 14 true :=
  if_pos ⟨hlow, harmed, Nat.le_sub_of_add_le' hlong, Nat.sub_le_iff_le_add'.mpr hmax⟩

/-- A low beyond RSTHOLD_MAX is stuck (R533, R535). -/
theorem rstStuck_due (hlow : u.power.rstN = false) (harmed : u.power.rstIgnored = false)
    (hmax : u.power.rstEdge + u.fld rTWEED_RSTHOLD 4 0 * 1000000000 < u.now) :
    rstStuck u = feltSticky 224 0 ((u.onPower fun p => { p with rstIgnored := true }).setFlag rTWEED_RSTCAUSE 13 true) :=
  if_pos ⟨hlow, harmed, hmax⟩

/-- 100 ms high arm the pin again (R535). -/
theorem rstRearm_due (hhigh : u.power.rstN = true) (hdue : u.power.rstEdge + 100000000 ≤ u.now) :
    rstRearm u = u.onPower fun p => { p with rstIgnored := false } :=
  if_pos ⟨hhigh, hdue⟩

end

/-- Settles O42, command by command. That a reset runs its whole sequence in one command, with the close of codes 0x08 and 0x09 before it, is
the model's choice (notes/assumptions/46.md), as is the RSTHOLD_MAX that it takes from fuse values beyond R534's bounds
(notes/assumptions/60.md). -/
theorem resets : Obligations.Resets := by
  intro t s o
  dsimp only
  refine ⟨fun hpmic hlive => ⟨fun hpin => ?por, fun hpin => ?porHeld⟩, fun c hrst hpmic hrails hpin => ?runs, fun hrst => ?nothing,
    fun hacts => ⟨fun hst => ⟨?rstreqDeferred, ?resetDeferred⟩, fun hst => ⟨?rstreq, ?reset⟩⟩,
    ⟨fun h => ?falls, fun harmed hrel => ?asserts⟩, ⟨fun hshort => ?rises, fun hlow harmed hlong hmax => ?service⟩,
    fun hlow harmed hmax => ?stuck, fun hhigh hdue => ?rearmed⟩
  case por => exact always_eq_next (g := por o) (por_pinHigh o hpmic hlive hpin)
  case porHeld => exact always_eq_next (g := por o) (por_pinLow o hpmic hlive hpin)
  case runs => exact always_eq_next (g := fullReset o) (fullReset_runs o hrst hpmic hrails hpin)
  case nothing => exact always_eq_next (g := fullReset o) (fullReset_none o hrst)
  case rstreqDeferred => exact onUnits_acts_eq (g := resetRequest 8) hacts (resetRequest_deferred 8 hst)
  case resetDeferred => exact onUnits_acts_eq (g := resetRequest 9) hacts (resetRequest_deferred 9 hst)
  case rstreq => exact onUnits_acts_eq (g := resetRequest 8) hacts (resetRequest_closes 8 hst)
  case reset => exact onUnits_acts_eq (g := resetRequest 9) hacts (resetRequest_closes 9 hst)
  case falls => exact always_eq_next (g := rstFall) (rstFall_without_effect h)
  case asserts => exact always_eq_next (g := rstFall) (rstFall_asserts harmed hrel)
  case rises => exact always_eq_next (g := rstRise) (rstRise_short hshort)
  case service => exact always_eq_next (g := rstRise) (rstRise_service hlow harmed hlong hmax)
  case stuck => exact always_eq_next (g := rstStuck) (rstStuck_due hlow harmed hmax)
  case rearmed => exact always_eq_next (g := rstRearm) (rstRearm_due hhigh hdue)

end Sys2Proof.Proofs
end

section
/-!
The dictionary engine's checks (R576): what a hardware-served request is answered with at the first check that it fails, in the order of the
table of abort codes.
-/

namespace Sys2Proof.Proofs

open Sys2Proof Sys2Proof.Machine Sys2Proof.Laws

/-- An entry as the checks see it: sub 0 of a record or array is read-only (R548). -/
def checkedEntry (x : OIndex) (r : Request) (e : Obj) : Obj := if r.sub == 0 && x.isRecord then { e with cls := .ro } else e

/-- The state in which the engine has counted a request (REQCNT). -/
def requestCounted (s : State) : State := s.add64 rDENG_REQCNT_LO rDENG_REQCNT_HI 1

section
variable {r : Request} {u : State} {x : OIndex}

/-! ## Each check -/

theorem hwCheck_noSub (hsub : x.entry r.sub = none) : hwCheck u r x = .error aNOSUB := by
  simp only [hwCheck, hsub]

section
variable {e : Obj} (hsub : x.entry r.sub = some e)
include hsub

theorem hwCheck_session (hprinc : princOk u r.princ = false) : hwCheck u r x = .error aSESSION := by
  simp only [hwCheck, hsub, hprinc, Bool.not_false, if_true]

section
variable (hprinc : princOk u r.princ = true)
include hprinc

theorem hwCheck_noRight_read (hop : r.op ≠ 2) (hright : mayRead u r.princ (okey r.index r.sub) (checkedEntry x r e) = false) :
    hwCheck u r x = .error aNORIGHT := by
  have hreads : r.writes = false := decide_eq_false hop
  rw [checkedEntry] at hright
  simp only [hwCheck, hsub, hprinc, hreads, hright, Bool.not_true, Bool.not_false, Bool.false_eq_true, if_false, if_true]

section
variable (hop : r.op = 2)
include hop

theorem hwCheck_noRight_write (hright : mayWrite u r.princ (okey r.index r.sub) (checkedEntry x r e) = false) :
    hwCheck u r x = .error aNORIGHT := by
  have hwrites : r.writes = true := decide_eq_true hop
  rw [checkedEntry] at hright
  simp only [hwCheck, hsub, hprinc, hwrites, hright, Bool.not_true, Bool.not_false, Bool.false_eq_true, if_false, if_true]

section
variable (hright : mayWrite u r.princ (okey r.index r.sub) (checkedEntry x r e) = true)
include hright

/-- A write that a principal may make comes to the checks of its value. -/
theorem hwCheck_permitted : hwCheck u r x =
    if r.type ≠ typeOf (checkedEntry x r e) true ∨ formOk (checkedEntry x r e) r = false then .error aTYPE
    else if lengthFits (checkedEntry x r e) (if r.form = 2 then r.total else r.data.length) = false then .error aLENGTH
    else if r.form ≠ 2 ∧ rangeOk u (okey r.index r.sub) (checkedEntry x r e) r.data = false then .error aRANGE
    else .ok (checkedEntry x r e) := by
  have hwrites : r.writes = true := decide_eq_true hop
  rw [checkedEntry] at hright ⊢
  simp only [hwCheck, hsub, hprinc, hwrites, hright, Bool.not_true, Bool.false_eq_true, if_false, if_true, true_and]

theorem hwCheck_type (htype : r.type ≠ typeOf (checkedEntry x r e) true) : hwCheck u r x = .error aTYPE :=
  (hwCheck_permitted hsub hprinc hop hright).trans (if_pos (.inl htype))

theorem hwCheck_length (htype : r.type = typeOf (checkedEntry x r e) true) (hform : formOk (checkedEntry x r e) r = true)
    (hinit : r.form ≠ 2) (hlen : lengthFits (checkedEntry x r e) r.data.length = false) : hwCheck u r x = .error aLENGTH := by
  rw [hwCheck_permitted hsub hprinc hop hright, if_neg (not_or.mpr ⟨not_not.mpr htype, ne_false_of_eq_true hform⟩), if_neg hinit,
    if_pos hlen]

end
end
end
end
end

/-! ## The answer -/

/-- A request that fails a check is counted and answered with the check's code; no object is touched. -/
theorem serve_refused {r : Request} {s : State} {x : OIndex} {code : Nat} (hrun : s.gated 0 10 = false) (hindex : indexOf r.index = some x)
    (hcheck : hwCheck (requestCounted s) r x = .error code) : serve r s = reply r code [] false (requestCounted s) := by
  rw [requestCounted] at hcheck ⊢
  simp only [serve, hrun, hindex, hcheck, Bool.false_eq_true, if_false]

/-- Settles O44, check by check in the order of R576. -/
theorem dictionaryChecks : Obligations.DictionaryChecks := by
  intro r s x hrun hindex
  dsimp only
  have refused {code : Nat} := serve_refused (code := code) hrun hindex
  refine ⟨fun hsub => refused (hwCheck_noSub hsub), fun e hsub => ⟨fun hprinc => refused (hwCheck_session hsub hprinc),
    fun hprinc => ⟨fun hop hright => ?write, fun hop hright => ?read, fun hop hright htype => ?type,
      fun hop hright htype hform hinit hlen => ?length⟩⟩⟩
  case write => exact refused (hwCheck_noRight_write hsub hprinc hop hright)
  case read => exact refused (hwCheck_noRight_read hsub hprinc hop hright)
  case type => exact refused (hwCheck_type hsub hprinc hop hright htype)
  case length => exact refused (hwCheck_length hsub hprinc hop hright htype hform hinit hlen)

end Sys2Proof.Proofs
end

section
/-!
Requests (R576–R602): how a command that names a kind of request meets the request that waits, on each carrier; the queue of local
descriptors; the expiries of segmented transfers; the answers of firmware; and the two procedures that the opcode table names.
-/

namespace Sys2Proof.Proofs

open Sys2Proof Sys2Proof.Machine Sys2Proof.Laws

/-! ## Taking a request up -/

/-- Command `c` is the one for requests of message code `m`, as a data segment when `d`. -/
def CommandFor (t : Nat) (r : ReqIn) (env : ProcEnv) (tie : Bool) (c : Instr) (m : Nat) (d : Bool) : Prop :=
  c = .read t r env tie ∧ m = mREAD ∨ c = .write t r env tie ∧ m = mWRITE ∨ c = .readSeg t r env tie ∧ m = mREADSEG ∧ d = false ∨
    c = .writeSeg t r env tie ∧ m = mWRITESEG ∧ d = false ∨ c = .segment t r env tie ∧ (m = mREADSEG ∨ m = mWRITESEG) ∧ d = true ∨
    c = .blockAck t r env tie ∧ m = mBLOCKACK ∨ c = .abort t r env tie ∧ m = mABORT ∨ c = .sessionClose t r env tie ∧ m = mCLOSE ∨
    c = .heartbeat t r env tie ∧ m = mHEARTBEAT

section
variable {u : State} {r : ReqIn} {env : ProcEnv} {tie : Bool} {m : Nat} {d : Bool} (hkind : reqKind u r = some (m, d))
include hkind

/-- A waiting request of a listed code is taken up; READ_SEG and WRITE_SEG tell an init from a data segment. -/
theorem takeReq_listed {msgs : List Nat} {seg : Bool} (hm : m ∈ msgs) (hd : d = seg ∨ m ≠ mREADSEG ∧ m ≠ mWRITESEG) :
    takeReq msgs seg r env tie u = dispatchReq r env tie u := by
  have htake : (msgs.contains m && (d == seg || !(m == mREADSEG || m == mWRITESEG))) = true := by simpa [hm] using hd
  simp only [takeReq, hkind, htake, if_true]

theorem takeReq_unlisted {msgs : List Nat} (seg : Bool) (hm : m ∉ msgs) : takeReq msgs seg r env tie u = u := by
  simp only [takeReq, hkind, List.contains_eq_mem, hm, decide_false, Bool.false_and, Bool.false_eq_true, if_false]

end

/-- The command for the kind of the request that waits takes it up, whichever carrier it came by. -/
theorem exec_commandFor {t : Nat} {s : State} {r : ReqIn} {env : ProcEnv} {tie : Bool} {c : Instr} {m : Nat} {d : Bool}
    (hacts : Acts [] t s) (hkind : reqKind (s.at t) r = some (m, d)) (hc : CommandFor t r env tie c m d) :
    exec c s = .next (wrapUp (dispatchReq r env tie (s.at t))) := by
  have takes (msgs : List Nat) (seg : Bool) (hm : m ∈ msgs) (hd : d = seg ∨ m ≠ mREADSEG ∧ m ≠ mWRITESEG) :
      onUnits t [] (fun s => wrapUp (takeReq msgs seg r env tie s)) s = .next (wrapUp (dispatchReq r env tie (s.at t))) :=
    onUnits_acts_eq hacts (congrArg wrapUp (takeReq_listed hkind hm hd))
  rcases hc with ⟨rfl, rfl⟩ | ⟨rfl, rfl⟩ | ⟨rfl, rfl, hd⟩ | ⟨rfl, rfl, hd⟩ | ⟨rfl, hm, hd⟩ | ⟨rfl, rfl⟩ | ⟨rfl, rfl⟩ | ⟨rfl, rfl⟩ | ⟨rfl, rfl⟩
  · exact takes [mREAD] false (.head _) (.inr (by decide))
  · exact takes [mWRITE] false (.head _) (.inr (by decide))
  · exact takes [mREADSEG] false (.head _) (.inl hd)
  · exact takes [mWRITESEG] false (.head _) (.inl hd)
  · exact takes [mREADSEG, mWRITESEG] true (by simpa using hm) (.inl hd)
  · exact takes [mBLOCKACK] false (.head _) (.inr (by decide))
  · exact takes [mABORT] false (.head _) (.inr (by decide))
  · exact takes [mCLOSE] false (.head _) (.inr (by decide))
  · exact takes [mHEARTBEAT] false (.head _) (.inr (by decide))

section
variable {u : State} (env : ProcEnv) (tie : Bool)

/-! ## What each carrier does with a request taken up -/

theorem dispatchReq_loc {a : Nat} {q : List Nat} (hq : u.dict.localQ = a :: q) :
    dispatchReq .loc env tie u = serveDesc (.loc a) a 0 env (u.onDict fun x => { x with localQ := q }) := by
  simp only [dispatchReq, serveLocal, hq]

/-- With AUTH set a driver card's request carries its slot's principal (R778). -/
theorem dispatchReq_card {a i : Nat} {q : List (Nat × Nat)} (hq : u.cards.preq = (a, i) :: q) (hauth : u.flag (rPERC_SSTAT i) 6 = true) :
    dispatchReq .card env tie u =
      serveDesc (.card a i) a (u.fld (rPERC_SSTAT i) 11 8) env (u.onCards fun x => { x with preq := q }) := by
  simp only [dispatchReq, serveCard, hq]
  exact if_pos hauth

theorem dispatchReq_mbox (k : Fin 4) (hrun : u.gated 0 11 = false) : dispatchReq (.mbox k) env tie u = mboxRing k.val env tie u :=
  if_neg (ne_true_of_eq_false hrun)

theorem dispatchReq_ydp (n : Fin 3) (id : BitVec 29) (p : Bytes) (hrun : u.gated 2 4 = false) (hctl : u.gated 2 (5 + n.val) = false) :
    dispatchReq (.ydp n id p) env tie u = frameIn n.val id.toNat p env tie u := by
  simp only [dispatchReq, hrun, hctl, Bool.and_false, Bool.or_self, Bool.false_eq_true, if_false]

end

section
variable {u : State}

/-- READ leaves a mailbox request of another code where it waits. -/
theorem takeReq_read_mbox_other {k : Fin 4} (env : ProcEnv) (tie : Bool) (hcode : u.byte (reqBuf k.val) ≠ 1) :
    takeReq [mREAD] false (.mbox k) env tie u = u :=
  takeReq_unlisted rfl false fun hm => hcode (BitVec.eq_of_toNat_eq (List.mem_singleton.mp hm))

/-! ## Local descriptors -/

theorem lsubmit_room (addr : Nat) (hroom : u.dict.localQ.length < 4) :
    lsubmit addr u = u.onDict fun x => { x with localQ := x.localQ ++ [addr / 32 * 32] } :=
  if_neg (Nat.not_le.mpr hroom)

theorem lsubmit_full (addr : Nat) (hfull : 4 ≤ u.dict.localQ.length) : lsubmit addr u = u.raise rDENG_INTSTAT 4 := if_pos hfull

/-! ## Transfers that fall silent -/

section
variable {n : Nat} {x : Xfer} (hx : u.dict.xfers[n]? = some x)
include hx

/-- 100 ms after the last segment received while a gap remains, the receiver acknowledges (R649). -/
theorem gapExpiry_due (hwrite : x.write = true) (hgap : x.gap = true) (hdue : x.at_ + 100000000 ≤ u.now) :
    gapExpiry n u = blockAck x.carrier x.tag x.inBlk x.blk aOK false (putXfer { x with gap := false } u) := by
  simp only [gapExpiry, hx, hwrite, hgap, hdue, decide_true, Bool.and_self, if_true]

/-- SEGTMO without a frame ends the transfer (R591). -/
theorem segTimeout_due (hdue : x.at_ + max 1 (u.fld rDENG_SEGTMO 15 0) * 1000000 ≤ u.now) :
    segTimeout n u = answer x.carrier x.tag mABORT 0 (le 2 aTIMEOUT) true (dropXfer x.carrier x.tag u) := by
  simp only [segTimeout, hx, if_neg (Nat.not_lt.mpr hdue)]

end

/-! ## Firmware's answers -/

/-- What firmware refuses goes to the asker with its code (R596). -/
theorem fwRsp_refusal {w : Word} {q : FwReq} (hq : u.dict.fw.getD (bits w 18 16) none = some q) (hcode : bits w 15 0 ≠ aOK) :
    fwRsp w u = fwAnswer q (bits w 15 0) (setFw (bits w 18 16) none u) := by
  simp only [fwRsp, hq, if_pos hcode]

/-- An answer to no request counts as late (R583). -/
theorem fwRsp_late {w : Word} (hnone : u.dict.fw.getD (bits w 18 16) none = none) :
    fwRsp w u = u.setFld rDENG_FWSTAT 31 16 (satAdd 16 (u.fld rDENG_FWSTAT 31 16) 1) := by
  simp only [fwRsp, hnone]

theorem fwTimeout_due {i : Nat} {q : FwReq} (hq : u.dict.fw.getD i none = some q)
    (hdue : q.at_ + max 1 (u.fld rDENG_FWTMO 15 0) * 1000000 ≤ u.now) :
    fwTimeout i u =
      fwAnswer q aTIMEOUT ((setFw i none (u.setFld rDENG_FWSTAT 15 0 (satAdd 16 (u.fld rDENG_FWSTAT 15 0) 1))).raise rDENG_INTSTAT 3) := by
  simp only [fwTimeout, hq, if_neg (Nat.not_lt.mpr hdue)]

theorem fwServe_off (u : State) : fwServe false u = u.setFlag rDENG_CTRL 0 false := by
  simp only [fwServe, Bool.false_eq_true, false_and, if_false]

theorem fwServe_on (hwarm : u.boot.warm = .idle) :
    fwServe true u = (u.setFlag rDENG_CTRL 0 true).onDict fun x => { x with restarting := false } :=
  if_pos ⟨rfl, hwarm⟩

/-! ## RESTORE_DEFAULTS and CLEAR_STICKY -/

theorem runProc_restoreDefaults (princ : Nat) (d : Bytes) (env : ProcEnv) (u : State) :
    runProc (okey 0xF020 0) princ d env u = procAtOnce (okey 0xF020 0) princ (restoreDefaults (ofLe d) u) := rfl

theorem runProc_clearSticky (princ : Nat) (d : Bytes) (env : ProcEnv) (u : State) :
    runProc (okey 0xA001 0) princ d env u = procAtOnce (okey 0xA001 0) princ (clearStickyRun (ofLe d) u) := rfl

/-- An argument as wide as its bytes comes back from them. -/
theorem ofLe_leBytes_toNat {n w : Nat} (b : BitVec w) (hw : 2 ^ w ≤ 256 ^ n) : ofLe (le n b.toNat) = b.toNat := by
  rw [ofLe_leBytes, Nat.mod_eq_of_lt (b.isLt.trans_le hw)]

theorem procRow_restoreDefaults (princ : Nat) (arg : BitVec 16) (env : ProcEnv) {p : Nat → Bool} (hgroup : restoreGroup arg.toNat = some p) :
    procRow (okey 0xF020 0) princ (le 2 arg.toNat) env u = wrapUp (procRan (okey 0xF020 0) princ aOK (restoreAll p u)) := by
  rw [procRow, runProc_restoreDefaults, ofLe_leBytes_toNat arg (by decide), restoreDefaults, hgroup]
  rfl

section
variable (princ : Nat) (n : BitVec 8) (env : ProcEnv)

theorem procRow_clearSticky :
    procRow (okey 0xA001 0) princ (le 1 n.toNat) env u = wrapUp (procAtOnce (okey 0xA001 0) princ (clearStickyRun n.toNat u)).2 := by
  rw [procRow, runProc_clearSticky, ofLe_leBytes_toNat n (by decide)]

theorem procRow_clearSticky_listed (hlisted : stickyListed n.toNat = true) :
    procRow (okey 0xA001 0) princ (le 1 n.toNat) env u = wrapUp (procRan (okey 0xA001 0) princ aOK (clearSticky n.toNat u)) := by
  rw [procRow_clearSticky, clearStickyRun, if_pos hlisted]
  rfl

/-- A number of no sticky bit ends RANGE and clears nothing. -/
theorem procRow_clearSticky_unlisted (hlisted : stickyListed n.toNat = false) :
    procRow (okey 0xA001 0) princ (le 1 n.toNat) env u = wrapUp u := by
  rw [procRow_clearSticky, clearStickyRun, if_neg (ne_true_of_eq_false hlisted)]
  rfl

end
end

/-- Settles O43, row by row of the table. That LSUBMIT clears the low address bits is the model's reading (notes/assumptions/43.md); that a row
which names a request or a procedure stands for one that a carrier delivers, its checks left to the command that takes it up, is another
(notes/assumptions/79.md). The statement has no clause for firmware's OK answers, and speaks of a request that waits on for READ on the
mailbox only. -/
theorem dictionaryRequests : Obligations.DictionaryRequests := by
  intro t s
  dsimp only
  refine ⟨fun hacts r env tie c m d hkind hc => ?taken, fun hacts k env tie hcode => ?waits,
    fun hacts => ⟨fun a hroom => ?queued, fun a hfull => ?full, fun n x hx hwrite hgap hdue => ?acknowledged, fun n x hx hdue => ?silent,
      fun w q hq hcode => ?refusal, fun w hnone => ?late, fun i q hq hdue => ?fwTimeout, ?unserved, fun hwarm => ?served,
      fun princ arg p hgroup => ?restored⟩,
    fun hacts princ n => ⟨fun hlisted => ?cleared, fun hlisted => ?notCleared⟩⟩
  case taken =>
    rw [exec_commandFor hacts hkind hc]
    refine ⟨fun a q hr hq => ?loc, fun a i q hr hq hauth => ?card, fun k hr hrun => ?mbox, fun n id p hr hrun hctl => ?ydp⟩ <;> rw [hr]
    case loc => rw [dispatchReq_loc env tie hq]
    case card => rw [dispatchReq_card env tie hq hauth]
    case mbox => rw [dispatchReq_mbox env tie k hrun]
    case ydp => rw [dispatchReq_ydp env tie n id p hrun hctl]
  case waits =>
    exact onUnits_acts_eq (g := fun s => wrapUp (takeReq [mREAD] false (.mbox k) env tie s)) hacts
      (congrArg wrapUp (takeReq_read_mbox_other env tie hcode))
  case queued => exact onUnits_acts_eq (g := lsubmit a.toNat) hacts (lsubmit_room a.toNat hroom)
  case full => exact onUnits_acts_eq (g := lsubmit a.toNat) hacts (lsubmit_full a.toNat hfull)
  case acknowledged => exact onUnits_acts_eq (g := gapExpiry n) hacts (gapExpiry_due hx hwrite hgap hdue)
  case silent => exact onUnits_acts_eq (g := segTimeout n) hacts (segTimeout_due hx hdue)
  case refusal => exact onUnits_acts_eq (g := fun s => wrapUp (fwRsp w s)) hacts (congrArg wrapUp (fwRsp_refusal hq hcode))
  case late => exact onUnits_acts_eq (g := fun s => wrapUp (fwRsp w s)) hacts (congrArg wrapUp (fwRsp_late hnone))
  case fwTimeout => exact onUnits_acts_eq (g := fun s => wrapUp (fwTimeout i.val s)) hacts (congrArg wrapUp (fwTimeout_due hq hdue))
  case unserved => exact onUnits_acts_eq (g := fwServe false) hacts (fwServe_off (s.at t))
  case served => exact onUnits_acts_eq (g := fwServe true) hacts (fwServe_on hwarm)
  case restored =>
    exact onUnits_acts_eq (g := procRow (okey 0xF020 0) princ.toNat (le 2 arg.toNat) {}) hacts
      (procRow_restoreDefaults princ.toNat arg {} hgroup)
  case cleared =>
    exact onUnits_acts_eq (g := procRow (okey 0xA001 0) princ.toNat (le 1 n.toNat) {}) hacts
      (procRow_clearSticky_listed princ.toNat n {} hlisted)
  case notCleared =>
    exact onUnits_acts_eq (g := procRow (okey 0xA001 0) princ.toNat (le 1 n.toNat) {}) hacts
      (procRow_clearSticky_unlisted princ.toNat n {} hlisted)

end Sys2Proof.Proofs
end

section
/-!
Gingham's CAN controllers (R604–R612, R663–R669): firmware buffers requested, cancelled and sent; frames received; the states of a controller.
Each lemma takes the command at the device's own instant.
-/

namespace Sys2Proof.Proofs

open Sys2Proof Sys2Proof.Machine Sys2Proof.Laws

/-- Blocks that act are in a device that runs. -/
theorem acts_nil {l : List (Nat × Nat)} {t : Nat} {s : State} (h : Acts l t s) : Acts [] t s :=
  ⟨h.1, fun _ hu => absurd hu List.not_mem_nil, fun _ hu => absurd hu List.not_mem_nil⟩

/-! ## Masks that name one buffer -/

/-- A pass over the first numbers in which one alone has an effect. -/
theorem foldl_range_only {α : Type} {f : α → Nat → α} {n b : Nat} (hb : b < n) (hother : ∀ a k, k ≠ b → f a k = a) (a : α) :
    (List.range n).foldl f a = f a b := by
  induction n with
  | zero => exact absurd hb (Nat.not_lt_zero b)
  | succ n ih =>
    rw [List.range_succ, List.foldl_append, List.foldl_cons, List.foldl_nil]
    rcases Nat.lt_succ_iff_lt_or_eq.mp hb with hlt | rfl
    · rw [ih hlt, hother _ n hlt.ne']
    · have hbefore : (List.range b).foldl f a = a :=
        List.foldlRecOn (motive := (· = a)) _ _ rfl fun c hc k hk => (hother c k (List.mem_range.mp hk).ne).trans hc
      rw [hbefore]

theorem bit_two_pow_self {b : Nat} (hb : b < 32) : bit (BitVec.ofNat 32 (2 ^ b)) b = true := by
  rw [bit, BitVec.getLsbD_ofNat, Nat.testBit_two_pow_self, decide_eq_true hb, Bool.and_true]

theorem bit_two_pow_other {b k : Nat} (h : k ≠ b) : bit (BitVec.ofNat 32 (2 ^ b)) k = false := by
  rw [bit, BitVec.getLsbD_ofNat, Nat.testBit_two_pow_of_ne h.symm, Bool.and_false]

section
variable {u : State} {n : Nat}

/-! ## TXREQ and TXCANCEL -/

section
variable {b : Nat} (hb : b < 24)
include hb

/-- TXREQ looks at the data length of the buffer that it names (R606, R669). -/
theorem txReq_one :
    txReq n (BitVec.ofNat 32 (2 ^ b)) u =
      if canLength (bits (u.rd (rGING_TXBUF n b 1)) 6 0) (bit (u.rd (rGING_TXBUF n b 1)) 8) then u.setFlag (rGING_TXREQ n) b true
      else u.setFlag (rGING_TXCANCD n) b true := by
  rw [txReq, foldl_range_only hb fun _ _ hk => if_neg (ne_true_of_eq_false (bit_two_pow_other hk))]
  exact if_pos (bit_two_pow_self (by omega))

theorem txReq_valid (hlen : canLength (bits (u.rd (rGING_TXBUF n b 1)) 6 0) (bit (u.rd (rGING_TXBUF n b 1)) 8) = true) :
    txReq n (BitVec.ofNat 32 (2 ^ b)) u = u.setFlag (rGING_TXREQ n) b true :=
  (txReq_one hb).trans (if_pos hlen)

theorem txReq_badLength (hlen : canLength (bits (u.rd (rGING_TXBUF n b 1)) 6 0) (bit (u.rd (rGING_TXBUF n b 1)) 8) = false) :
    txReq n (BitVec.ofNat 32 (2 ^ b)) u = u.setFlag (rGING_TXCANCD n) b true :=
  (txReq_one hb).trans (if_neg (ne_true_of_eq_false hlen))

section
variable (hreq : u.flag (rGING_TXREQ n) b = true)
include hreq

/-- A cancel is early or late, by whether its buffer's frame has passed the arbitration point (R663, R664). -/
theorem txCancel_one (late : Word) :
    txCancel n (BitVec.ofNat 32 (2 ^ b)) late u =
      if bit late b then setCan n (fun c => { c with late := if b ∈ c.late then c.late else c.late ++ [b] }) u
      else (u.setFlag (rGING_TXREQ n) b false).setFlag (rGING_TXCANCD n) b true := by
  rw [txCancel, foldl_range_only hb fun _ _ hk => if_neg fun ⟨h, _⟩ => ne_true_of_eq_false (bit_two_pow_other hk) h]
  exact if_pos ⟨bit_two_pow_self (by omega), hreq⟩

theorem txCancel_early :
    txCancel n (BitVec.ofNat 32 (2 ^ b)) 0#32 u = (u.setFlag (rGING_TXREQ n) b false).setFlag (rGING_TXCANCD n) b true :=
  (txCancel_one hb hreq _).trans (if_neg (by simp [bit]))

theorem txCancel_late :
    txCancel n (BitVec.ofNat 32 (2 ^ b)) (BitVec.ofNat 32 (2 ^ b)) u =
      setCan n (fun c => { c with late := if b ∈ c.late then c.late else c.late ++ [b] }) u :=
  (txCancel_one hb hreq _).trans (if_pos (bit_two_pow_self (by omega)))

end
end

/-! ## The end of a transmission -/

/-- A firmware buffer that waits no longer: its request and its late cancel are gone. -/
def bufferFreed (n b : Nat) (v : State) : State :=
  setCan n (fun c => { c with late := c.late.filter (· ≠ b) }) (v.setFlag (rGING_TXREQ n) b false)

/-- A firmware buffer whose frame has left: TXDONE, and TXLATE after a late cancel (R664). -/
def bufferSent (n b : Nat) (v : State) : State :=
  let x := (bufferFreed n b v).setFlag (rGING_TXDONE n) b true
  if b ∈ (v.can n).late then x.setFlag (rGING_TXLATE n) b true else x

section
variable {v : State} {b k : Nat} (hbus : (u.can n).onBus = true) (hlive : u.fld (rGING_CCTRL n) 1 0 ≠ 2) (hflush : notifyFlush n u = v)
  (hoffer : txOffer v n = some (b, k)) (hb : b < 24)
include hbus hlive hflush hoffer hb

/-- In an error, a late cancel takes effect before any retransmission (R664). -/
theorem txDone_error_cancelled (hlate : b ∈ (v.can n).late) :
    txDone n true u = (bufferFreed n b v).setFlag (rGING_TXCANCD n) b true := by
  simp only [txDone, hbus, hlive, hflush, hoffer, hb, hlate, Bool.not_true, Bool.false_eq_true, decide_true, if_false, if_true, bufferFreed]

/-- In an error, a frame that no cancel stops is offered again. -/
theorem txDone_error_again (hlate : b ∉ (v.can n).late) : txDone n true u = v := by
  simp only [txDone, hbus, hlive, hflush, hoffer, hb, hlate, Bool.not_true, Bool.false_eq_true, decide_false, if_false, if_true]

theorem txDone_sent :
    txDone n false u = confine n (((setCan n (fun c => { c with sent := some (txFrame v n b), tec := c.tec - 1 })
      (bufferSent n b v)).raise (rGING_CINTSTAT n) 1).addSat (rGING_TXCNT n) 1) := by
  simp only [txDone, hbus, hlive, hflush, hoffer, hb, Bool.not_true, Bool.false_eq_true, if_false, if_true, decide_eq_true_eq, bufferSent,
    bufferFreed]

end

/-! ## Reception -/

section
variable {v : State} {fr : CanFrame}

section
variable {ts : Nat} {env : ProcEnv} {tie : Bool} (hbus : (u.can n).onBus = true) (hrtr : fr.rtr = false)
  (hgood : rxGood n (nodeClash n fr u) = v)
include hbus hrtr hgood

theorem canReceive_ydp (hydp : isYdp v fr = true) : canReceive n fr ts env tie u = ydpFrame n (fr.id % 2 ^ 29) fr.data env tie v := by
  simp only [canReceive, hbus, hgood, hrtr, hydp, Bool.not_true, Bool.false_eq_true, if_false, if_true]

theorem canReceive_firmware (hydp : isYdp v fr = false) : canReceive n fr ts env tie u = fwReceive n fr ts v := by
  simp only [canReceive, hbus, hgood, hrtr, hydp, Bool.not_true, Bool.false_eq_true, if_false]

end

theorem fwReceive_unfiltered (ts : Nat) (hfilter : rxFilter v n fr = none) : fwReceive n fr ts v = v := by
  simp only [fwReceive, hfilter]

section
variable {f : Nat} (hfilter : rxFilter v n fr = some f)
include hfilter

theorem fwReceive_full (ts : Nat) (hfull : 32 ≤ (v.can n).fifo.length) : fwReceive n fr ts v = v.raise (rGING_CINTSTAT n) 5 := by
  simp only [fwReceive, hfilter, if_pos hfull]

/-- The entry carries TSCNT and the EVT formed from it (R612). -/
theorem fwReceive_room (ts : Nat) (hroom : (v.can n).fifo.length < 32) :
    fwReceive n fr ts v = (setCan n (fun c => { c with fifo := c.fifo ++ [⟨fr, f, ts,
      (v.can n).wrapEvt + bitEvt ((v.can n).cfg.getD 1 0) ts⟩] }) v).raise (rGING_CINTSTAT n) 0 := by
  simp only [fwReceive, hfilter, if_neg (Nat.not_le.mpr hroom)]

end
end

/-- POP of a controller whose clocks run drops the head entry. -/
theorem popRow_fifo {n : Fin 2} (hging : u.gated 2 4 = false) (hctl : u.gated 2 (5 + n.val) = false) :
    popRow (some n) u = setCan n.val (fun c => { c with fifo := c.fifo.drop 1 }) u := by
  simp only [popRow, hging, hctl, Bool.or_self, Bool.false_eq_true, if_false, rxPop]

/-! ## Bus errors and bus-off -/

/-- A controller's counters after a bus error (ISO 11898-1). -/
def busErrorCounted (n : Nat) (tx eight : Bool) (u : State) : State :=
  setCan n (fun c => if tx then { c with tec := c.tec + 8 } else { c with rec_ := min 255 (c.rec_ + if eight then 8 else 1) })
    (u.addSat (rGING_ERRCNT n) 1)

section
variable (hbus : (u.can n).onBus = true)
include hbus

theorem busOff_onBus :
    busOff n u = suspendAll n
      (((setCan n (fun c => { c with st := .busoff }) u).raise (rGING_CINTSTAT n) 2).addSat (rGING_BUSOFFCNT n) 1) :=
  if_pos hbus

theorem canBusError_onBus (tx eight : Bool) :
    canBusError n tx eight u =
      if 255 < ((busErrorCounted n tx eight u).can n).tec then busOff n (busErrorCounted n tx eight u)
      else confine n (busErrorCounted n tx eight u) :=
  if_pos hbus

theorem canBusError_confines {tx eight : Bool} (htec : ((busErrorCounted n tx eight u).can n).tec ≤ 255) :
    canBusError n tx eight u = confine n (busErrorCounted n tx eight u) :=
  (canBusError_onBus hbus tx eight).trans (if_neg (Nat.not_lt.mpr htec))

/-- A transmit error counter above 255 is bus-off (R665). -/
theorem canBusError_busOff {tx eight : Bool} (htec : 255 < ((busErrorCounted n tx eight u).can n).tec) :
    canBusError n tx eight u = busOff n (busErrorCounted n tx eight u) :=
  (canBusError_onBus hbus tx eight).trans (if_pos htec)

end

theorem busOffRecovery_auto (hst : (u.can n).st = .busoff) (hauto : u.flag (rGING_CCTRL n) 4 = true) :
    busOffRecovery n u = integrated n (setCan n (fun c => { c with tec := 0, rec_ := 0 }) u) :=
  if_pos ⟨hst, hauto⟩

/-- Without AUTORECOV only a write of CCTRL restarts the controller (R665). -/
theorem busOffRecovery_waits (hauto : u.flag (rGING_CCTRL n) 4 = false) : busOffRecovery n u = u :=
  if_neg fun ⟨_, h⟩ => ne_true_of_eq_false hauto h

/-! ## CCTRL -/

section
variable {w : Word} {v : State} {r : RegDesc} (hreg : regAt (rGING_CCTRL n) = some r)
  (hv : u.wr (rGING_CCTRL n) (r.write (u.rd (rGING_CCTRL n)) w) = v)
include hreg hv

theorem cctrlWrite_off (hmode : v.fld (rGING_CCTRL n) 1 0 = 0) :
    cctrlWrite n w u = suspendAll n (setCan n (fun c => { c with st := .off, tec := 0, rec_ := 0 }) v) := by
  simp only [cctrlWrite, hreg, hv, hmode, if_true]

/-- A mode other than OFF restarts a controller in bus-off. -/
theorem cctrlWrite_busOff (hmode : v.fld (rGING_CCTRL n) 1 0 ≠ 0) (hst : (v.can n).st = .busoff) :
    cctrlWrite n w u = setCan n (fun c => { c with st := .integrating, tec := 0, rec_ := 0 }) v := by
  simp only [cctrlWrite, hreg, hv, if_neg hmode, hst, if_true]

end

/-! ## STUCK and integration -/

theorem canStuck_enters (hst : (u.can n).onBus = true ∨ (u.can n).st = .integrating) :
    canStuck n u = suspendAll n (setSticky 128 (65 + n) n (((setCan n (fun c => { c with st := .stuck, rxLow := true }) u).raise
      (rGING_CINTSTAT n) 3).addSat (rGING_STUCKCNT n) 1)) :=
  if_pos hst

theorem stuckRecheck_dominant : stuckRecheck n false u = u := if_neg fun ⟨_, h⟩ => Bool.false_ne_true h

/-- 11 recessive bits in the 1 ms watch (R666). -/
theorem stuckRecheck_recessive (hst : (u.can n).st = .stuck) :
    stuckRecheck n true u = integrated n (setCan n (fun c => { c with tec := 0, rec_ := 0, rxLow := false }) u) :=
  if_pos ⟨hst, rfl⟩

theorem canIntegration_ends (hst : (u.can n).st = .integrating) : canIntegration n u = integrated n u := if_pos hst

end

/-- Settles O45, command by command. That the NOTIFYs which wait leave with the transmit command is the model's reading
(notes/assumptions/16.md). The statement has no clause for the end of a frame of YDP's own buffers, and leaves what error confinement, the end of
integration and the suspension of sessions do to `confine`, `integrated` and `suspendAll`. -/
theorem canControllers : Obligations.CanControllers := by
  intro t n s hacts
  dsimp only
  have ⟨_, hrun, _⟩ := hacts
  refine ⟨fun b hb => ⟨fun hlen => ?requested, fun hlen => ?badLength⟩, fun b hb hreq => ⟨?cancelled, ?cancelledLate⟩,
    fun b k err hbus hlive hoffer hb => ⟨?errorCancelled, ?errorAgain, ?sent⟩,
    fun fr ts env tie hbus hrtr => ⟨fun hydp => ?ydp, fun hydp hfilter => ?unfiltered,
      fun f hydp hfilter => ⟨fun hfull => ?overflow, fun hroom => ?received⟩⟩,
    fun hbus => ?busOff, fun hst hauto => ?recovered, fun _ hauto => ?notRecovered,
    fun w r hreg => ⟨fun hmode => ?modeOff, fun hmode hst => ?restarted⟩, fun hst => ?stuck, fun hst => ⟨?dominant, ?recessive⟩, ?wrapped,
    fun hst => ?integrated, fun tx eight hbus => ⟨fun htec => ?counted, fun htec => ?tooMany⟩, ?popped⟩
  case requested => exact onUnits_acts_eq (g := txReq n.val _) hacts (txReq_valid hb hlen)
  case badLength => exact onUnits_acts_eq (g := txReq n.val _) hacts (txReq_badLength hb hlen)
  case cancelled => exact onUnits_acts_eq (g := txCancel n.val _ _) hacts (txCancel_early hb hreq)
  case cancelledLate => exact onUnits_acts_eq (g := txCancel n.val _ _) hacts (txCancel_late hb hreq)
  case errorCancelled =>
    rintro rfl hlate
    exact onUnits_acts_eq (g := txDone n.val true) hacts (txDone_error_cancelled hbus hlive rfl hoffer hb hlate)
  case errorAgain =>
    rintro rfl hlate
    exact onUnits_acts_eq (g := txDone n.val true) hacts (txDone_error_again hbus hlive rfl hoffer hb hlate)
  case sent =>
    rintro rfl
    exact onUnits_acts_eq (g := txDone n.val false) hacts (txDone_sent hbus hlive rfl hoffer hb)
  case ydp =>
    exact onUnits_acts_eq (g := fun s => wrapUp (canReceive n.val fr ts.toNat env tie s)) hacts
      (congrArg wrapUp (canReceive_ydp hbus hrtr rfl hydp))
  case unfiltered =>
    exact onUnits_acts_eq (g := fun s => wrapUp (canReceive n.val fr ts.toNat env tie s)) hacts
      (congrArg wrapUp ((canReceive_firmware hbus hrtr rfl hydp).trans (fwReceive_unfiltered _ hfilter)))
  case overflow =>
    exact onUnits_acts_eq (g := fun s => wrapUp (canReceive n.val fr ts.toNat env tie s)) hacts
      (congrArg wrapUp ((canReceive_firmware hbus hrtr rfl hydp).trans (fwReceive_full hfilter _ hfull)))
  case received =>
    exact onUnits_acts_eq (g := fun s => wrapUp (canReceive n.val fr ts.toNat env tie s)) hacts
      (congrArg wrapUp ((canReceive_firmware hbus hrtr rfl hydp).trans (fwReceive_room hfilter _ hroom)))
  case busOff => exact onUnits_acts_eq (g := busOff n.val) hacts (busOff_onBus hbus)
  case recovered => exact onUnits_acts_eq (g := busOffRecovery n.val) hacts (busOffRecovery_auto hst hauto)
  case notRecovered => exact onUnits_acts_eq (g := busOffRecovery n.val) hacts (busOffRecovery_waits hauto)
  case modeOff => exact onUnits_acts_eq (g := cctrlWrite n.val w) hacts (cctrlWrite_off hreg rfl hmode)
  case restarted => exact onUnits_acts_eq (g := cctrlWrite n.val w) hacts (cctrlWrite_busOff hreg rfl hmode hst)
  case stuck => exact onUnits_acts_eq (g := canStuck n.val) hacts (canStuck_enters hst)
  case dominant => exact onUnits_acts_eq (g := stuckRecheck n.val false) hacts stuckRecheck_dominant
  case recessive => exact onUnits_acts_eq (g := stuckRecheck n.val true) hacts (stuckRecheck_recessive hst)
  case wrapped => exact onUnits_acts hacts (tscntWrap n.val)
  case integrated => exact onUnits_acts_eq (g := canIntegration n.val) hacts (canIntegration_ends hst)
  case counted => exact onUnits_acts_eq (g := canBusError n.val tx eight) hacts (canBusError_confines hbus htec)
  case tooMany => exact onUnits_acts_eq (g := canBusError n.val tx eight) hacts (canBusError_busOff hbus htec)
  case popped =>
    exact onUnits_acts_eq (g := popRow (some n)) (acts_nil hacts)
      (popRow_fifo (hrun (2, 4) (by simp)) (hrun (2, 5 + n.val) (by simp)))

end Sys2Proof.Proofs
end

section
/-!
YDP sessions (R613–R640, R656–R658): their opening over each carrier, the timers and writes that close them, and the NOTIFYs and HEARTBEATs
that the device sends by itself. Each lemma takes the command at the device's own instant.
-/

namespace Sys2Proof.Proofs

open Sys2Proof Sys2Proof.Machine Sys2Proof.Laws

section
variable {u : State}

/-! ## SESSION_OPEN frames -/

section
variable {phase : Nat} {c : Fin 3} {id : BitVec 29} {p : Bytes} (hmsg : dfld p 0 1 = mOPEN)
include hmsg

/-- The command of a SESSION_OPEN frame's phase takes it from its carrier, whose clocks run. -/
theorem takeOpen_taken (hphase : dfld p 4 1 = phase) (hging : u.gated 2 4 = false) (hctl : c.val < 2 → u.gated 2 (5 + c.val) = false) :
    takeOpen phase c id p u = frameIn c.val id.toNat p {} false u := by
  have hclocks : (u.gated 2 4 || (decide (c.val < 2) && u.gated 2 (5 + c.val))) = false := by simpa [hging] using hctl
  simp only [takeOpen, hmsg, hphase, and_self, if_true, dispatchReq, hclocks, Bool.false_eq_true, if_false]

section
variable (huart : u.flag rGING_GCTRL 24 = true) (hnode : id.toNat / 2 ^ 16 % 256 = nodeId u)
  (hframe : frameOk (id.toNat / 2 ^ 24 % 32) p = true)
include huart hnode hframe

/-- A sound SESSION_OPEN frame on the service UART reaches the session machinery by its phase (R632, R634, R661). -/
theorem frameIn_uart_open (env : ProcEnv) (tie : Bool) :
    frameIn 2 id.toNat p env tie u =
      if dfld p 4 1 = 1 then phase1 2 id.toNat p u else if dfld p 4 1 = 3 then phase3 2 id.toNat p u else u := by
  have hid : id.toNat % 2 ^ 29 = id.toNat := Nat.mod_eq_of_lt id.isLt
  simp only [frameIn, Nat.lt_irrefl, if_false, uartReceive, huart, hnode, and_self, if_true, hid, ydpFrame, hframe, hmsg, Bool.not_true,
    Bool.false_eq_true]

theorem frameIn_uart_phase1 (env : ProcEnv) (tie : Bool) (hphase : dfld p 4 1 = 1) :
    frameIn 2 id.toNat p env tie u = phase1 2 id.toNat p u :=
  (frameIn_uart_open hmsg huart hnode hframe env tie).trans (if_pos hphase)

theorem frameIn_uart_phase3 (env : ProcEnv) (tie : Bool) (hphase : dfld p 4 1 = 3) :
    frameIn 2 id.toNat p env tie u = phase3 2 id.toNat p u := by
  rw [frameIn_uart_open hmsg huart hnode hframe env tie, hphase]
  rfl

end
end

/-! ## The phases -/

section
variable {carrier id : Nat} {p : Bytes} (hblen : dfld p 2 1 = 20)
include hblen

section
variable (hkind : dfld (p.drop 4) 2 1 = 1) (hprinc : dfld (p.drop 4) 1 1 < 16)
include hkind hprinc

/-- A phase 1 whose tag fails opens nothing and is not answered (R632). -/
theorem phase1_badTag {key : Bytes} (hkey : princK u (dfld (p.drop 4) 1 1) = some key) (htag : tagOk key id 0 p = false) :
    phase1 carrier id p u = authFail u := by
  simp only [phase1, hblen, hkind, hprinc, hkey, htag, ne_eq, not_true_eq_false, or_self, if_false, if_true, Bool.not_false]

/-- A principal without a current key of HMAC usage is refused (R632). -/
theorem phase1_noKey (hkey : princK u (dfld (p.drop 4) 1 1) = none) :
    phase1 carrier id p u = refuse carrier (id / 2 ^ 8 % 256) (id % 256) aSESSION u := by
  simp only [phase1, hblen, hkind, hprinc, hkey, ne_eq, not_true_eq_false, or_self, if_false, if_true, Bool.false_eq_true,
    Option.isNone_none, true_or]

end

/-- A frame of this carrier and identifier answers the challenge of session `i` in time (R634). -/
def AnswersChallenge (u : State) (carrier id i : Nat) : Prop :=
  i < 8 ∧ (u.sess i).st = .challenged ∧ (u.sess i).carrier = carrier ∧ (u.sess i).node = id / 2 ^ 8 % 256 ∧
    (u.sess i).tag = id % 256 ∧ u.now ≤ (u.sess i).chalAt + 500000000

section
variable {i : Nat} {key : Bytes} (hi : dfld (p.drop 4) 1 1 = i) (hanswers : AnswersChallenge u carrier id i)
  (hkey : useKey u (u.sess i).handle uHMAC = .key key)
include hi hanswers hkey

/-- A phase 3 that answers a challenge is judged by its tag, then by its RESP (R629, R634). -/
theorem phase3_judged :
    phase3 carrier id p u =
      if tagOk key id 0 p = false then authFail u
      else if slice (p.drop 4) 4 16 = (hmac256 key ([0x52] ++ (u.sess i).nonces)).take 16 then confirmSess i key u
      else refuse carrier (id / 2 ^ 8 % 256) (id % 256) aSESSION (setSess i (fun x => { x with st := .closed }) u) := by
  obtain ⟨hslot, hst, hcarrier, hnode, htag, hintime⟩ := hanswers
  have hchallenged : ¬ (8 ≤ i ∨ (u.sess i).st ≠ .challenged ∨ (u.sess i).carrier ≠ carrier ∨ (u.sess i).node ≠ id / 2 ^ 8 % 256 ∨
      (u.sess i).tag ≠ id % 256 ∨ (u.sess i).chalAt + phase3Limit < u.now) := by
    simp only [hst, hcarrier, hnode, htag, ne_eq, not_true_eq_false, false_or, phase3Limit]
    omega
  simp only [phase3, hblen, hi, if_neg hchallenged, hkey, ne_eq, not_true_eq_false, if_false, Bool.not_eq_true']

theorem phase3_badTag (hauth : tagOk key id 0 p = false) : phase3 carrier id p u = authFail u :=
  (phase3_judged hblen hi hanswers hkey).trans (if_pos hauth)

section
variable (hauth : tagOk key id 0 p = true)
include hauth

theorem phase3_confirms (hresp : slice (p.drop 4) 4 16 = (hmac256 key ([0x52] ++ (u.sess i).nonces)).take 16) :
    phase3 carrier id p u = confirmSess i key u := by
  rw [phase3_judged hblen hi hanswers hkey, if_neg (ne_false_of_eq_true hauth), if_pos hresp]

/-- A wrong RESP is refused, and frees the slot (R634). -/
theorem phase3_refuses (hresp : slice (p.drop 4) 4 16 ≠ (hmac256 key ([0x52] ++ (u.sess i).nonces)).take 16) :
    phase3 carrier id p u = refuse carrier (id / 2 ^ 8 % 256) (id % 256) aSESSION (setSess i (fun x => { x with st := .closed }) u) := by
  rw [phase3_judged hblen hi hanswers hkey, if_neg (ne_false_of_eq_true hauth), if_neg hresp]

end
end
end

/-! ## Closes -/

section
variable {i : Nat}

theorem phase3Timeout_due (hst : (u.sess i).st = .challenged) (hdue : (u.sess i).chalAt + 500000000 ≤ u.now) :
    phase3Timeout i u = setSess i (fun x => { x with st := .closed }) u :=
  if_pos ⟨hst, hdue⟩

theorem phase3Timeout_early (hearly : u.now < (u.sess i).chalAt + 500000000) : phase3Timeout i u = u :=
  if_neg fun ⟨_, hdue⟩ => Nat.not_le.mpr hearly hdue

theorem idleExpiry_due (hst : (u.sess i).st = .openSess) (hdue : (u.sess i).heardAt + 60000000000 ≤ u.now) :
    idleExpiry i u = sessClose i 2 u :=
  if_pos ⟨hst, hdue⟩

theorem idleExpiry_early (hearly : u.now < (u.sess i).heardAt + 60000000000) : idleExpiry i u = u :=
  if_neg fun ⟨_, hdue⟩ => Nat.not_le.mpr hearly hdue

theorem suspendExpiry_due (hst : (u.sess i).st = .suspended) (hdue : (u.sess i).suspAt + 10000000000 ≤ u.now) :
    suspendExpiry i u = sessClose i 6 u :=
  if_pos ⟨hst, hdue⟩

theorem sessCloseGo_closes (hst : (u.sess i).st = .openSess ∨ (u.sess i).st = .suspended) : sessCloseGo i u = sessClose i 0 u :=
  if_pos hst

end

/-! ## HEARTBEAT -/

/-- The HEARTBEAT that a device in this state broadcasts (R658). -/
def heartbeatMsg (u : State) : YMsg :=
  { cls := 0x1E, dest := 0, msg := 0x0A, auth := .none, ctrlo := u.ging.beats
    body := le 1 (powerCode u.power.st) ++ le 1 (lifeCode u.fuse.life) ++
      le 1 (u.power.ingest.toNat + 2 * (u.ging.sess.any (fun x => decide (x.st = .closed))).toNat) ++
      le 1 (u.ging.sess.filter (fun x => decide (x.st = .openSess))).length ++ le 8 u.felt.evt }

/-- The state in which a heartbeat is counted. -/
def beatCounted (u : State) : State := u.onGing fun g => { g with beats := (g.beats + 1) % 256 }

/-- A message that waits on controller `n` where it is on the bus. -/
def putOnBus (m : YMsg) (n : Nat) (s : State) : State := if (s.can n).onBus then ydpPut n m s else s

theorem putOnBus_on {m : YMsg} {n : Nat} (hbus : (u.can n).onBus = true) : putOnBus m n u = ydpPut n m u := if_pos hbus

theorem putOnBus_off {m : YMsg} {n : Nat} (hoff : (u.can n).onBus = false) : putOnBus m n u = u := if_neg (ne_true_of_eq_false hoff)

theorem nth_upd_other {α : Type} [Inhabited α] (l : List α) {i j : Nat} (f : α → α) (h : j ≠ i) : nth (upd l i f) j = nth l j := by
  rw [nth, nth, upd, List.getD_eq_getElem?_getD, List.getD_eq_getElem?_getD, List.getElem?_modify_ne f l h.symm]

/-- A message for one controller leaves every other one as it was. -/
theorem can_ydpPut_other {n k : Nat} (m : YMsg) (hn : n < 2) (h : k ≠ n) : (ydpPut n m u).can k = u.can k := by
  rw [ydpPut, if_pos hn]
  exact nth_upd_other u.ging.can _ h

theorem heartbeat_stopped (hms : u.fld rGING_GCTRL 15 0 = 0) : heartbeat u = u := if_pos hms

/-- HEARTBEAT goes out on both controllers, each as it is on the bus. -/
theorem heartbeat_broadcasts (hms : u.fld rGING_GCTRL 15 0 ≠ 0) :
    heartbeat u = putOnBus (heartbeatMsg u) 1 (putOnBus (heartbeatMsg u) 0 (beatCounted u)) :=
  if_neg hms

theorem heartbeat_firstOnly (hms : u.fld rGING_GCTRL 15 0 ≠ 0) (hbus : (u.can 0).onBus = true) (hoff : (u.can 1).onBus = false) :
    heartbeat u = ydpPut 0 (heartbeatMsg u) (beatCounted u) := by
  have hfirst : ((beatCounted u).can 0).onBus = true := hbus
  have hsecond : ((ydpPut 0 (heartbeatMsg u) (beatCounted u)).can 1).onBus = false := by
    rw [can_ydpPut_other _ (by decide) (by decide)]
    exact hoff
  rw [heartbeat_broadcasts hms, putOnBus_on hfirst, putOnBus_off hsecond]

/-! ## NOTIFY -/

theorem fwNotify_ignored {w : Word} (hevent : bits w 31 16 < 0x8000) : fwNotify w u = u := if_pos hevent

theorem fwNotify_raises {w : Word} (hevent : 0x8000 ≤ bits w 31 16) : fwNotify w u = notify (bits w 31 16) (bits w 15 0) u :=
  if_neg (Nat.not_lt.mpr hevent)

section
variable {event : Nat} (arg : Nat)

theorem notify_disabled (hen : u.flag rGING_NOTIFYEN (notifyBit event) = false) : notify event arg u = u :=
  if_neg (ne_true_of_eq_false hen)

/-- An enabled event reaches the open sessions; a full mailbox queue drops and counts it (R656, R657, R690). -/
theorem notify_mailboxFull (hen : u.flag rGING_NOTIFYEN (notifyBit event) = true) (hfull : 16 ≤ u.pcie.notifyQ.length) :
    notify event arg u = (({ u with ging := { u.ging with
      sess := u.ging.sess.map (Sess.pushNotify (notifyBody event arg u.felt.evt)) } }.addSat rGING_NOTIFYDROP
        (u.ging.sess.filter Sess.dropsNotify).length).incFld rBAR0_NQSTAT 31 16) :=
  (if_pos hen).trans (if_neg (Nat.not_lt.mpr hfull))

end
end

/-- Settles O46, command by command. That a phase 1 whose tag fails counts in AUTHFAIL is the model's reading (notes/assumptions/43.md); R632
only has it discarded. The statement has no clause for a NOTIFY that finds room in the mailbox queue, and speaks of HEARTBEAT with controller 0
on its bus and controller 1 off it only; `heartbeat_broadcasts` says it for both. -/
theorem ydpSessions : Obligations.YdpSessions := by
  intro t s
  dsimp only
  refine ⟨fun hacts c id p hging hctl hmsg => ⟨fun hphase => ?opened, fun hphase => ?answered,
      fun hc huart hnode hframe => ⟨fun hphase => ?uartPhase1, fun hphase => ?uartPhase3⟩⟩,
    fun carrier id p hblen => ⟨fun key hkind hprinc hkey htag => phase1_badTag hblen hkind hprinc hkey htag,
      fun hkind hprinc hkey => phase1_noKey hblen hkind hprinc hkey, fun hslot hst hcarrier hnode htag hintime key hkey =>
        have hanswers : AnswersChallenge (s.at t) carrier id _ := ⟨hslot, hst, hcarrier, hnode, htag, hintime⟩
        ⟨phase3_badTag hblen rfl hanswers hkey, phase3_confirms hblen rfl hanswers hkey, phase3_refuses hblen rfl hanswers hkey⟩⟩,
    fun hacts => ⟨fun i => ⟨fun hst hdue => ?unanswered, fun _ hearly => ?waits, fun hst hdue => ?idle, fun _ hearly => ?heard,
        fun hst hdue => ?expired, fun hst => ?requested⟩, fun hms => ?silent, fun m hms hm hbus hoff => ?beats,
      fun w => ⟨fun hevent => ?ignored, fun hevent => ?raised⟩⟩,
    fun event arg => ⟨notify_disabled arg, notify_mailboxFull arg⟩⟩
  case opened => exact onUnits_acts_eq (g := takeOpen 1 c id p) hacts (takeOpen_taken hmsg hphase hging hctl)
  case answered => exact onUnits_acts_eq (g := takeOpen 3 c id p) hacts (takeOpen_taken hmsg hphase hging hctl)
  case uartPhase1 =>
    exact onUnits_acts_eq (g := takeOpen 1 c id p) hacts
      ((takeOpen_taken hmsg hphase hging hctl).trans (by rw [hc, frameIn_uart_phase1 hmsg huart hnode hframe _ _ hphase]))
  case uartPhase3 =>
    exact onUnits_acts_eq (g := takeOpen 3 c id p) hacts
      ((takeOpen_taken hmsg hphase hging hctl).trans (by rw [hc, frameIn_uart_phase3 hmsg huart hnode hframe _ _ hphase]))
  case unanswered => exact onUnits_acts_eq (g := phase3Timeout i.val) hacts (phase3Timeout_due hst hdue)
  case waits => exact onUnits_acts_eq (g := phase3Timeout i.val) hacts (phase3Timeout_early hearly)
  case idle => exact onUnits_acts_eq (g := fun s => wrapUp (idleExpiry i.val s)) hacts (congrArg wrapUp (idleExpiry_due hst hdue))
  case heard => exact onUnits_acts_eq (g := fun s => wrapUp (idleExpiry i.val s)) hacts (congrArg wrapUp (idleExpiry_early hearly))
  case expired =>
    exact onUnits_acts_eq (g := fun s => wrapUp (suspendExpiry i.val s)) hacts (congrArg wrapUp (suspendExpiry_due hst hdue))
  case requested =>
    exact onUnits_acts_eq (g := fun s => wrapUp (sessCloseGo i.val s)) hacts (congrArg wrapUp (sessCloseGo_closes hst))
  case silent => exact onUnits_acts_eq (g := heartbeat) hacts (heartbeat_stopped hms)
  case beats =>
    subst hm
    exact onUnits_acts_eq (g := heartbeat) hacts (heartbeat_firstOnly hms hbus hoff)
  case ignored => exact onUnits_acts_eq (g := fwNotify w) hacts (fwNotify_ignored hevent)
  case raised => exact onUnits_acts_eq (g := fwNotify w) hacts (fwNotify_raises hevent)

end Sys2Proof.Proofs
end

section
/-!
Read doors (R695–R709): START, the first pass, the second pass as the host consumes it, and each way in which a job ends. Each lemma takes the
command at the device's own instant.
-/

namespace Sys2Proof.Proofs

open Sys2Proof Sys2Proof.Machine Sys2Proof.Laws

section
variable {u : State} {r : Nat}

/-! ## START -/

/-- Read door `r` as START leaves it before any check: pointers and OMITTED cleared, CFG taken, STATE RUNNING (R695, R696). -/
def rdStarted (r : Nat) (u : State) : State :=
  setRd r (fun _ => { cfg := u.rd (rPCIE_RD_CFG r), movedAt := u.now })
    (((u.wr64 (rPCIE_RD_RDPTR_LO r) (rPCIE_RD_RDPTR_HI r) 0).wr (rPCIE_RD_STATE r) 1#32).wr (rPCIE_RD_OMITTED r) 0#32)

/-- The job that START of read door `r` opens, and the state in which it has asked for the ANCHOR that its bounds need (R701). -/
def rdOpened (r : Nat) (u : State) : ExpJob × State :=
  jobOpen (bits (u.rd (rPCIE_RD_CFG r)) 5 0) (u.rd64 (rPCIE_RD_FIRSTSEQ_LO r) (rPCIE_RD_FIRSTSEQ_HI r))
    (u.rd64 (rPCIE_RD_LASTSEQ_LO r) (rPCIE_RD_LASTSEQ_HI r)) (bit (u.rd (rPCIE_RD_CFG r)) 8) (rdStarted r u)

theorem rdStart_running (right : Bool) (hjob : (u.rdoor r).job.isSome = true) : rdStart r right u = u := if_pos (.inr hjob)

section
variable (hr : r < 8) (hjob : (u.rdoor r).job = none)
include hr hjob

/-- START of an idle door passes the door as started on to the checks of right and range. -/
theorem rdStart_idle (right : Bool) :
    rdStart r right u =
      if right = false then rdEnd r xNORIGHT true (rdStarted r u)
      else if u.rd64 (rPCIE_RD_LASTSEQ_LO r) (rPCIE_RD_LASTSEQ_HI r) < u.rd64 (rPCIE_RD_FIRSTSEQ_LO r) (rPCIE_RD_FIRSTSEQ_HI r) ∨
          bits (u.rd (rPCIE_RD_CFG r)) 20 16 < 16 ∨ 30 < bits (u.rd (rPCIE_RD_CFG r)) 20 16 then
        rdEnd r xRANGE true (rdStarted r u)
      else setRd r (fun d => { d with job := some (rdOpened r u).1 }) (rdOpened r u).2 :=
  if_neg (by simp [hjob, hr])

theorem rdStart_noRight : rdStart r false u = rdEnd r xNORIGHT true (rdStarted r u) := (rdStart_idle hr hjob false).trans (if_pos rfl)

theorem rdStart_badRange (hrange : u.rd64 (rPCIE_RD_LASTSEQ_LO r) (rPCIE_RD_LASTSEQ_HI r) <
      u.rd64 (rPCIE_RD_FIRSTSEQ_LO r) (rPCIE_RD_FIRSTSEQ_HI r)) :
    rdStart r true u = rdEnd r xRANGE true (rdStarted r u) :=
  ((rdStart_idle hr hjob true).trans (if_neg Bool.noConfusion)).trans (if_pos (.inl hrange))

theorem rdStart_opens {j : ExpJob} {w : State}
    (hrange : u.rd64 (rPCIE_RD_FIRSTSEQ_LO r) (rPCIE_RD_FIRSTSEQ_HI r) ≤ u.rd64 (rPCIE_RD_LASTSEQ_LO r) (rPCIE_RD_LASTSEQ_HI r))
    (hlo : 16 ≤ bits (u.rd (rPCIE_RD_CFG r)) 20 16) (hhi : bits (u.rd (rPCIE_RD_CFG r)) 20 16 ≤ 30)
    (hopen : rdOpened r u = (j, w)) :
    rdStart r true u = setRd r (fun d => { d with job := some j }) w := by
  rw [rdStart_idle hr hjob, if_neg Bool.noConfusion, if_neg (by omega), hopen]

end

/-! ## The first pass -/

section
variable {j : ExpJob} {w : State} (hjob : (u.rdoor r).job = some j) (hpkg : j.pkg = none) (hready : jobWaits u j = false)
include hjob hpkg hready

theorem rdFirstPass_resolves {k : ExpJob} (hpass : firstPass r j u = (.ok k, w)) :
    rdFirstPass r u = (setRd r (fun d => { d with job := some k, movedAt := w.now }) w).wr (rPCIE_RD_OMITTED r) (loWord k.omitted) := by
  simp [rdFirstPass, hjob, hpkg, hready, hpass]

/-- A first pass that meets a record which is gone tells the host the lowest SEQ that still resolves (R704). -/
theorem rdFirstPass_gone {e : Nat} (hpass : firstPass r j u = (.error e, w)) (hgone : e = xRECLAIMED ∨ e = xLOST) :
    rdFirstPass r u = rdEnd r e true (w.wr64 (rPCIE_RD_OLDEST_LO r) (rPCIE_RD_OLDEST_HI r) (oldestSeq w j.cust)) := by
  simp [rdFirstPass, hjob, hpkg, hready, hpass, hgone]

end

theorem firstPassRow_door (hr : r < 8) : firstPassRow r u = rdFirstPass r u := if_pos hr

/-! ## RDPTR -/

/-- A host write of RDPTR is taken whole, and dates the job's last advance where it advances (R698, R700). -/
theorem rdPtrWrite_door (hr : r < 8) (p : BitVec 64) :
    rdPtrWrite r p.toNat u =
      if u.rd64 (rPCIE_RD_RDPTR_LO r) (rPCIE_RD_RDPTR_HI r) < p.toNat then
        setRd r (fun d => { d with movedAt := u.now }) (u.wr64 (rPCIE_RD_RDPTR_LO r) (rPCIE_RD_RDPTR_HI r) p.toNat)
      else u.wr64 (rPCIE_RD_RDPTR_LO r) (rPCIE_RD_RDPTR_HI r) p.toNat := by
  rw [rdPtrWrite, if_neg (Nat.not_le.mpr hr), Nat.mod_eq_of_lt p.isLt]
  rfl

/-! ## Status blocks -/

theorem rdStatusBlock_lost (hlost : readLost u r = true) : rdStatusBlock r u = rdEnd r xLOST true u := if_pos hlost

/-- The status block is due at WMARK × 4 KiB past the last one, once the second pass has come that far (R699). -/
theorem rdStatusBlock_pushes {target : Nat} {w : State} (hheld : readLost u r = false)
    (htarget : (u.rdoor r).marked + bits (u.rdoor r).cfg 31 24 * 4096 = target) (hw : rdPush r target u = w) :
    rdStatusBlock r u =
      if (w.rdoor r).wrptr = target ∧ (w.rdoor r).marked < target then rdStatus r (setRd r (fun d => { d with marked := target }) w)
      else w := by
  subst htarget hw
  exact if_neg (ne_true_of_eq_false hheld)

/-! ## The second pass's end -/

section
variable {j : ExpJob} {p : Bytes} (hjob : (u.rdoor r).job = some j) (hpkg : j.pkg = some p)
include hjob hpkg

/-- STALL_EXPIRY ends a sized job whose host's buffer is full, with package bytes left, once RDPTR has stood for STALL seconds (R700). -/
theorem rdStall_sized :
    rdStall r u =
      if ((u.rdoor r).wrptr = u.rd64 (rPCIE_RD_RDPTR_LO r) (rPCIE_RD_RDPTR_HI r) + 2 ^ bits (u.rdoor r).cfg 20 16 ∧
            (u.rdoor r).wrptr < p.length) ∧ u.fld (rPCIE_RD_STALL r) 15 0 ≠ 0 ∧
          (u.rdoor r).movedAt + u.fld (rPCIE_RD_STALL r) 15 0 * 1000000000 ≤ u.now then rdEnd r xSTALL true u
      else u := by
  obtain ⟨_, _, _, _, _, _, _⟩ := j
  subst hpkg
  simp only [rdStall, hjob, Bool.and_eq_true, decide_eq_true_eq]

/-- A sized job completes once no unit is LOST, every unit is read and the ring has taken the last byte (R709). -/
theorem rdComplete_sized :
    rdComplete r u =
      if readLost u r then rdEnd r xLOST true u
      else if readAll u r = false then u
      else if ((rdPush r p.length u).rdoor r).wrptr = p.length then
        rdEnd r (if j.omitted = 0 then xOK else xPARTIAL) true (rdPush r p.length u)
      else rdPush r p.length u := by
  obtain ⟨_, _, _, _, _, _, _⟩ := j
  subst hpkg
  simp only [rdComplete, hjob]

theorem rdComplete_lost (hlost : readLost u r = true) : rdComplete r u = rdEnd r xLOST true u :=
  (rdComplete_sized hjob hpkg).trans (if_pos hlost)

theorem rdComplete_ends (hheld : readLost u r = false) (hall : readAll u r = true)
    (hpushed : ((rdPush r p.length u).rdoor r).wrptr = p.length) :
    rdComplete r u = rdEnd r (if j.omitted = 0 then xOK else xPARTIAL) true (rdPush r p.length u) := by
  rw [rdComplete_sized hjob hpkg, if_neg (ne_true_of_eq_false hheld), if_neg (ne_false_of_eq_true hall), if_pos hpushed]

end

/-! ## ABORT -/

section
variable (hr : r < 8)
include hr

/-- Without a job ABORT answers LATE where one has ended, else NOTFOUND. -/
theorem rdoorAbort_idle (hjob : (u.rdoor r).job = none) (tie : Bool) :
    rdoorAbort r tie u = u.setFld (rPCIE_RD_STATE r) 3 2 (if u.fld (rPCIE_RD_STATE r) 1 0 = 2 then 1 else 3) := by
  rw [rdoorAbort, if_neg (Nat.not_le.mpr hr), hjob]
  exact (apply_ite (u.setFld (rPCIE_RD_STATE r) 3 2) ..).symm

/-- ABORT of a job is LATE where its completion is latched on the sampling edge (R709). -/
theorem rdoorAbort_running (hjob : (u.rdoor r).job.isSome = true) (tie : Bool) :
    rdoorAbort r tie u =
      if tie then rdComplete r (u.setFld (rPCIE_RD_STATE r) 3 2 1) else rdEnd r xABORTED true (u.setFld (rPCIE_RD_STATE r) 3 2 2) :=
  (if_neg (Nat.not_le.mpr hr)).trans (if_neg (by simpa using Option.ne_none_iff_isSome.mpr hjob))

end
end

/-- Settles O47, command by command. An ABORT that finds a job DONE answers 1, which the table of RD[r].STATE calls LATE. That the first pass
waits while an ANCHOR which it asked for runs or waits is the model's reading (notes/assumptions/62.md). The statement has no clause for a
BUFLOG2 outside 16–30, and leaves what the end of a job does to `rdEnd`. -/
theorem readDoors : Obligations.ReadDoors := by
  intro t r s hacts
  dsimp only
  have hr : r.val < 8 := r.isLt
  have hstart {v : State} : rdStart r.val (rdRight (s.at t)) (s.at t) = v → exec (.start t r) s = .next v :=
    onUnits_acts_eq (g := fun s => rdStart r.val (rdRight s) s) hacts
  have hpass {id : Fin 9} {v : State} (hid : id.val = r.val) (e : rdFirstPass r.val (s.at t) = v) :
      exec (.firstPassDone t id) s = .next (wrapUp v) :=
    onUnits_acts_eq (g := fun s => wrapUp (firstPassRow id.val s)) (acts_nil hacts)
      (congrArg wrapUp (hid ▸ (firstPassRow_door hr).trans e))
  have hblock {v : State} : rdStatusBlock r.val (s.at t) = v → exec (.statusBlock t r) s = .next v :=
    onUnits_acts_eq (g := rdStatusBlock r.val) hacts
  have hstall {v : State} : rdStall r.val (s.at t) = v → exec (.stallExpiry t r) s = .next v := onUnits_acts_eq (g := rdStall r.val) hacts
  have hcomplete {v : State} : rdComplete r.val (s.at t) = v → exec (.readDoorCompletion t r) s = .next v :=
    onUnits_acts_eq (g := rdComplete r.val) hacts
  have habort (tie : Bool) {v : State} : rdoorAbort r.val tie (s.at t) = v → exec (.readDoorAbort t r tie) s = .next v :=
    onUnits_acts_eq (g := rdoorAbort r.val tie) hacts
  refine ⟨fun hjob => ?running, fun hjob => ⟨fun hright => ?noRight, fun hright hrange => ?badRange,
      fun hright hrange hlo hhi j w hopen => ?opened⟩,
    fun j hjob hpkg hready id hid => ⟨fun k w hok => ?resolved, fun e w herr hgone => ?gone⟩,
    fun p => ⟨fun hmoves => ?moved, fun hstays => ?stayed⟩,
    fun hlost => ?blockLost, fun hheld => ⟨fun hthere hmark => ?marked, fun hshort => ?short⟩,
    fun j p hjob hpkg => ⟨fun hfull hleft hset hdue => ?stalled, fun hoff => ?neverStalls, fun hheld hall hpushed => ?completed,
      fun hlost => ?completionLost⟩,
    fun hjob tie => ?abortIdle, fun hjob => ⟨?aborted, ?abortLate⟩⟩
  case running => exact hstart (rdStart_running _ hjob)
  case noRight => exact hstart (hright ▸ rdStart_noRight hr hjob)
  case badRange => exact hstart (hright ▸ rdStart_badRange hr hjob hrange)
  case opened => exact hstart (hright ▸ rdStart_opens hr hjob hrange hlo hhi hopen)
  case resolved => exact hpass hid (rdFirstPass_resolves hjob hpkg hready hok)
  case gone => exact hpass hid (rdFirstPass_gone hjob hpkg hready herr hgone)
  case moved => exact onUnits_acts_eq (g := rdPtrWrite r.val p.toNat) hacts ((rdPtrWrite_door hr p).trans (if_pos hmoves))
  case stayed => exact onUnits_acts_eq (g := rdPtrWrite r.val p.toNat) hacts ((rdPtrWrite_door hr p).trans (if_neg (Nat.not_lt.mpr hstays)))
  case blockLost => exact hblock (rdStatusBlock_lost hlost)
  case marked => exact hblock ((rdStatusBlock_pushes hheld rfl rfl).trans (if_pos ⟨hthere, hmark⟩))
  case short => exact hblock ((rdStatusBlock_pushes hheld rfl rfl).trans (if_neg fun ⟨hthere, _⟩ => hshort hthere))
  case stalled => exact hstall ((rdStall_sized hjob hpkg).trans (if_pos ⟨⟨hfull, hleft⟩, hset, hdue⟩))
  case neverStalls => exact hstall ((rdStall_sized hjob hpkg).trans (if_neg fun ⟨_, hset, _⟩ => hset hoff))
  case completed => exact hcomplete (rdComplete_ends hjob hpkg hheld hall hpushed)
  case completionLost => exact hcomplete (rdComplete_lost hjob hpkg hlost)
  case abortIdle => exact habort tie (rdoorAbort_idle hr hjob tie)
  case aborted => exact habort false (rdoorAbort_running hr hjob false)
  case abortLate => exact habort true (rdoorAbort_running hr hjob true)

end Sys2Proof.Proofs
end

section
/-!
The PCIe link and the mailbox (R671, R679, R683, R690, R710–R713): the link's rise and each cause of its loss, the vectors of doors, mailbox
slots that the host frees, and the notify queue. Each lemma takes the command at the device's own instant.
-/

namespace Sys2Proof.Proofs

open Sys2Proof Sys2Proof.Machine Sys2Proof.Laws

section
variable {u : State}

/-! ## Mailbox slots, vectors and the notify queue -/

theorem rspClear_empty {k : Nat} (hheld : u.pcie.held.getD k none = none) : rspClear k u = u.setFlag rBAR0_MBSTAT (8 + k) false := by
  have hstill : (u.setFlag rBAR0_MBSTAT (8 + k) false).pcie.held.getD k none = none := hheld
  simp only [rspClear, hstill]

/-- A slot that the host frees takes the response that waits for it (R683). -/
theorem rspClear_held {k : Nat} {m : Bytes} (hheld : u.pcie.held.getD k none = some m) :
    rspClear k u =
      mboxPut k m ((u.setFlag rBAR0_MBSTAT (8 + k) false).onPcie fun p => { p with held := upd p.held k (fun _ => none) }) := by
  have hstill : (u.setFlag rBAR0_MBSTAT (8 + k) false).pcie.held.getD k none = some m := hheld
  simp only [rspClear, hstill]

/-- VSEL takes a vector from 10 on; its six bits hold none above 63 (R679). -/
theorem vselWrite_vector (n : Nat) {v : BitVec 6} (hlo : 10 ≤ v.toNat) :
    vselWrite n v.toNat u = u.onPcie fun p => { p with vsel := upd p.vsel n (fun _ => v.toNat) } :=
  if_pos ⟨hlo, v.isLt⟩

theorem vselWrite_ignored (n : Nat) {v : BitVec 6} (hlow : v.toNat < 10) : vselWrite n v.toNat u = u :=
  if_neg fun ⟨hlo, _⟩ => Nat.not_le.mpr hlow hlo

theorem popRow_notify (hrun : u.gated 0 11 = false) : popRow none u = notifyPop u := if_neg (ne_true_of_eq_false hrun)

/-! ## Bus Master Enable -/

theorem bmeWrite_linkDown (v : Bool) (hup : u.pcie.up = false) : bmeWrite v u = u := if_pos (.inl hup)

/-- Bus Master Enable as the host first sets it on a link that is up. -/
theorem bmeWrite_first (v : Bool) (hup : u.pcie.up = true) (hflr : u.pcie.flr = false) (hbme : u.pcie.bme = false) :
    bmeWrite v u = u.onPcie fun p => { p with bme := v } := by
  cases v with
  | true => simp [bmeWrite, hup, hflr, hbme]
  | false =>
    rw [bmeWrite, if_pos (.inr (.inr hbme)), ← hbme]
    rfl

/-- Bus Master Enable cleared by the host is link loss (R710). -/
theorem bmeWrite_clears (hup : u.pcie.up = true) (hflr : u.pcie.flr = false) (hbme : u.pcie.bme = true) :
    bmeWrite false u = linkLoss 4 (u.onPcie fun p => { p with bme := false }) := by
  simp [bmeWrite, hup, hflr, hbme]

/-! ## The link comes up -/

/-- VENDOR_ID, object 0x1000:01. -/
def vendorId (u : State) : Nat := bits (dataRead u (dataPhys 256 36)).1 15 0

/-- Without a VENDOR_ID PERST# is released and no link forms (R671). -/
theorem linkUpRow_blank (speed width : Nat) (bme msixEn : Bool) (hid : vendorId u = 0 ∨ vendorId u = 0xFFFF) (hup : u.pcie.up = false) :
    linkUpRow speed width bme msixEn u = u.onPcie fun p => { p with perst := false, msixEn := false } := by
  have hdown : linkUp speed width u = u.onPcie fun p => { p with perst := false } := if_pos hid
  rw [linkUpRow, hdown, bmeWrite_linkDown]
  · simp only [State.onPcie, hup, Bool.false_and]
  · exact hup

theorem linkUpRow_trains (speed width : Nat) (bme msixEn : Bool) (hzero : vendorId u ≠ 0) (hones : vendorId u ≠ 0xFFFF)
    (hflr : u.pcie.flr = false) (hbme : u.pcie.bme = false) :
    linkUpRow speed width bme msixEn u = u.onPcie fun p => { p with
      perst := false, up := true, dstate := 0, speed := speed, width := width, msixEn := msixEn, bme := bme } := by
  have hup : linkUp speed width u =
      u.onPcie fun p => { p with perst := false, up := true, dstate := 0, speed := speed, width := width } :=
    if_neg (not_or_intro hzero hones)
  rw [linkUpRow, hup]
  exact bmeWrite_first bme rfl hflr hbme

end

/-- Settles O48, command by command. That the function comes up in D0 is the model's reading (notes/assumptions/80.md); that VENDOR_ID 0 is
blank besides 0xFFFF, which alone R671 names, and that a hot reset shares the bit of a link-down event are others. The statement leaves the
shared effects of link loss to `linkLoss`. -/
theorem linkAndMailbox : Obligations.LinkAndMailbox := by
  intro t s
  dsimp only
  refine ⟨fun hacts => ⟨fun k => ⟨fun hheld => ?freed, fun m hheld => ?delivered⟩,
      fun n v => ⟨fun hlo => ?vector, fun hlow => ?noVector⟩, ?popped⟩,
    fun hacts => ?link⟩
  case freed => exact onUnits_acts_eq (g := rspClear k.val) hacts (rspClear_empty hheld)
  case delivered => exact onUnits_acts_eq (g := rspClear k.val) hacts (rspClear_held hheld)
  case vector => exact onUnits_acts_eq (g := vselWrite n.val v.toNat) hacts (vselWrite_vector n.val hlo)
  case noVector => exact onUnits_acts_eq (g := vselWrite n.val v.toNat) hacts (vselWrite_ignored n.val hlow)
  case popped =>
    have ⟨_, hrun, _⟩ := hacts
    exact onUnits_acts_eq (g := popRow none) (acts_nil hacts) (popRow_notify (hrun (0, 11) (.head _)))
  case link =>
    have hup (speed : BitVec 2) (width : BitVec 3) (bme msixEn : Bool) {v : State} :
        linkUpRow speed.toNat width.toNat bme msixEn (s.at t) = v → exec (.linkUp t speed width bme msixEn) s = .next v :=
      onUnits_acts_eq (g := linkUpRow speed.toNat width.toNat bme msixEn) hacts
    have hloss {c : LinkCause} {v : State} (e : linkLossRow c (s.at t) = v) : exec (.linkLoss t c) s = .next (wrapUp v) :=
      onUnits_acts_eq (g := fun s => wrapUp (linkLossRow c s)) hacts (congrArg wrapUp e)
    refine ⟨fun speed width bme msixEn => ⟨fun hid hdown => ?blank, fun hzero hones hflr hbme => ?trained⟩, hloss rfl, fun c hc => ?down,
      hloss rfl, hloss rfl, fun hlinked hflr hbme => ?bmeCleared, onUnits_acts hacts flrComplete⟩
    case blank => exact hup speed width bme msixEn (linkUpRow_blank _ _ bme msixEn hid hdown)
    case trained => exact hup speed width bme msixEn (linkUpRow_trains _ _ bme msixEn hzero hones hflr hbme)
    case down => rcases hc with rfl | rfl <;> exact hloss rfl
    case bmeCleared => exact hloss (bmeWrite_clears hlinked hflr hbme)

end Sys2Proof.Proofs
end

section
/-!
Chambray's ports (R718–R742): insertion and initialisation, removal, raw commands and their ends, busy time-outs, retuning and sleep. Each lemma
takes the command at the device's own instant.
-/

namespace Sys2Proof.Proofs

open Sys2Proof Sys2Proof.Machine Sys2Proof.Laws

section
variable {u : State} {p : Nat}

/-! ## A card comes and goes -/

section
variable (hp : p < 2)
include hp

/-- A card inserted into an EMPTY port is shown in PSTAT, and powered where PCTL has power on (R718). -/
theorem insertion_empty (hempty : cState u p = cEMPTY) :
    insertion p u =
      if (u.setFlag (rCHAM_PSTAT p) 18 true).flag (rCHAM_PCTL p) 0 then portPower p false (u.setFlag (rCHAM_PSTAT p) 18 true)
      else u.setFlag (rCHAM_PSTAT p) 18 true :=
  if_neg (not_or_intro (Nat.not_le.mpr hp) (not_not.mpr hempty))

/-- A card that does not reach ready in time fails (R719). -/
theorem cardReady_never {r : CardInit} (hst : cState u p = cPOWERING) (hready : r.ready = false) : cardReady p r u = cardFail p 3 u :=
  (if_neg (not_or_intro (Nat.not_le.mpr hp) (not_not.mpr hst))).trans (if_pos hready)

/-- The state in which a removal has ended what ran on the port and switched it off (R736–R739). -/
def cardGone (p : Nat) (u : State) : State :=
  setCard p (fun x => { x with exported := none, only33 := false }) (portOff p (portLost p xREMOVED aABORTED
    (if (u.cport p).xfer.isSome || expHolds u p || decide (u.cards.courtRun = some p) then xferEnd p 5 u else u)))

/-- A removal clears PSTAT, and tells of a card that was there. -/
theorem removal_port :
    removal p u =
      if (cardGone p u).flag (rCHAM_PSTAT p) 18 then ((cardGone p u).wr (rCHAM_PSTAT p) 0#32).raise (rCHAM_INTSTAT p) 1
      else (cardGone p u).wr (rCHAM_PSTAT p) 0#32 :=
  if_neg (Nat.not_le.mpr hp)

/-- REINIT starts a FAILED port that holds a card, with power on, at step 1 (R735). -/
theorem reinit_failed (hst : cState u p = cFAILED) (hcard : u.flag (rCHAM_PSTAT p) 18 = true) (hpower : u.flag (rCHAM_PCTL p) 0 = true) :
    reinit p u = portPower p false (portOff p u) :=
  if_pos ⟨hp, hst, hcard, hpower⟩

end

/-- A cartridge of less than 2,048 blocks fails (R717). -/
theorem cardReady_small {r : CardInit} (hst : cState u 1 = cPOWERING) (hready : r.ready = true) (hsize : r.blocks < 2048) :
    cardReady 1 r u = cardFail 1 3 u := by
  simp [cardReady, hst, hready, hsize]

/-- A failed switch to UHS-I voltage starts port A over at 3.3 V (R719). -/
theorem cardReady_switchFails {r : CardInit} (hst : cState u 0 = cPOWERING) (hready : r.ready = true) (huhs : r.uhs = true)
    (hfirst : (u.cport 0).only33 = false) (hspeed : 2 ≤ u.fld (rCHAM_PCTL 0) 7 4) (hfails : r.switchOk = false) :
    cardReady 0 r u = portPower 0 true (portOff 0 u) := by
  simp [cardReady, hst, hready, huhs, hfirst, hspeed, hfails]

/-- Port B sleeps once it has been idle for SLEEPS seconds, and not before (R722). -/
theorem cardSleep_idle (hst : cState u 1 = cREADY) (hexp : expHolds u 1 = false) (hxfer : (u.cport 1).xfer = none) :
    cardSleep u =
      if (u.cport 1).idleAt + u.fld rCHAM_XCFG 23 16 * 1000000000 ≤ u.now then setCState 1 cSLEEP u else u := by
  simp only [cardSleep, hst, hexp, hxfer, true_and]

/-! ## Raw commands -/

/-- CMD as a write of it leaves the register. -/
def cmdTaken (p : Nat) (w : Word) (u : State) : State := u.wr (rCHAM_CMD p) (w &&& 0x00000F3F#32)

/-- The command that CMD, ARG, BLKCNT and DMA of port `p` describe. -/
def cmdOf (p : Nat) (w : Word) (u : State) : CardCmd where
  index := bits w 5 0
  arg := u.rd (rCHAM_ARG p)
  rsp := bits w 9 8
  data := bit w 10
  write := bit w 11
  dma := u.rd64 (rCHAM_DMALO p) (rCHAM_DMAHI p)
  blocks := u.fld (rCHAM_BLKCNT p) 15 0

section
variable (hp : p < 2) {w : Word} (hgo : bit w 31 = true)
include hp hgo

theorem cardCmd_go :
    cardCmd p w u =
      if cUsable (cmdTaken p w u) p = false ∨ expHolds (cmdTaken p w u) p = true then (cmdTaken p w u).setFld (rCHAM_XSTAT p) 3 0 7
      else
        let b := boundary p (cmdTaken p w u)
        setCState p cBUSY (setCard p (fun x => { x with xfer := some (cmdOf p w b), retries := 0 })
          ((b.wr (rCHAM_XSTAT p) 0#32).wr (rCHAM_ABORTSTAT p) 0#32)) :=
  (if_neg (Nat.not_le.mpr hp)).trans (if_neg (ne_false_of_eq_true hgo))

/-- A port that is not usable, or that an exporting job holds, reads LOCKED in XSTAT (R741). -/
theorem cardCmd_locked (hlocked : cUsable (cmdTaken p w u) p = false ∨ expHolds (cmdTaken p w u) p = true) :
    cardCmd p w u = (cmdTaken p w u).setFld (rCHAM_XSTAT p) 3 0 7 :=
  (cardCmd_go hp hgo).trans (if_pos hlocked)

theorem cardCmd_issues (huse : cUsable (cmdTaken p w u) p = true) (hexp : expHolds (cmdTaken p w u) p = false) :
    cardCmd p w u =
      let b := boundary p (cmdTaken p w u)
      setCState p cBUSY (setCard p (fun x => { x with xfer := some (cmdOf p w b), retries := 0 })
        ((b.wr (rCHAM_XSTAT p) 0#32).wr (rCHAM_ABORTSTAT p) 0#32)) :=
  (cardCmd_go hp hgo).trans (if_neg (not_or_intro (ne_false_of_eq_true huse) (ne_true_of_eq_false hexp)))

end

/-! ## The end of a transfer -/

section
variable (hexp : expHolds u p = false) (hcourt : u.cards.courtRun ≠ some p)
include hexp hcourt

/-- A port with no transfer, no exporting job and no court copy has nothing to end. -/
theorem cardDone_nothing (hxfer : (u.cport p).xfer = none) (out : CardOut) : cardDone p out u = u := by
  cases out <;> simp [cardDone, hexp, hcourt, hxfer]

section
variable {k : CardCmd} (hxfer : (u.cport p).xfer = some k)
include hxfer

theorem cardDone_raw_silent : cardDone p .silent u = boundary p (setCState p cREADY (xferEnd p 3 u)) := by
  simp [cardDone, hexp, hcourt, hxfer]

theorem cardDone_raw_done (resp : List Word) (data : Bytes) : cardDone p (.done resp data) u = rawDone p k resp data u := by
  simp [cardDone, hexp, hcourt, hxfer]

end
end

theorem cardDone_raw_crc {k : CardCmd} (hxfer : (u.cport p).xfer = some k) (sweep : Nat) : cardDone p (.crc sweep) u = crcFail p sweep u :=
  if_pos (.inl (Option.isSome_of_eq_some hxfer))

section
variable (hp : p < 2)
include hp

/-- PABORT with no transfer answers NOTFOUND where XSTAT shows the end of none, else LATE. -/
theorem pabort_idle (hxfer : (u.cport p).xfer = none) (tie : Option CardOut) :
    pabort p tie u = u.setFld (rCHAM_ABORTSTAT p) 1 0 (if u.fld (rCHAM_XSTAT p) 3 0 = 0 ∨ u.fld (rCHAM_XSTAT p) 3 0 = 7 then 3 else 1) := by
  simp only [pabort, if_neg (Nat.not_le.mpr hp), hxfer]
  exact (apply_ite (u.setFld (rCHAM_ABORTSTAT p) 1 0) ..).symm

section
variable {k : CardCmd} (hxfer : (u.cport p).xfer = some k)
include hxfer

theorem pabort_aborts :
    pabort p none u = boundary p (setCState p cREADY (xferEnd p 6 (u.setFld (rCHAM_ABORTSTAT p) 1 0 2))) := by
  simp only [pabort, if_neg (Nat.not_le.mpr hp), hxfer]

/-- A transfer whose completion is latched on the sampling edge ends as it completes (R742). -/
theorem pabort_late (out : CardOut) : pabort p (some out) u = cardDone p out (u.setFld (rCHAM_ABORTSTAT p) 1 0 1) := by
  simp only [pabort, if_neg (Nat.not_le.mpr hp), hxfer]

end

theorem busyTimeout_fails (hbusy : (u.cport p).xfer.isSome = true ∨ expHolds u p = true ∨ u.cards.courtRun = some p) :
    busyTimeout p u = setSticky 129 (56 + p) p (portOff p (cardFail p 4 ((u.addSat (rCHAM_ERRCNT p) 1).raise (rCHAM_INTSTAT p) 4))) :=
  if_pos ⟨hp, hbusy⟩

/-! ## Retuning -/

/-- A usable port in a tuned mode starts a retune by time or by temperature, unless one runs (R725). -/
theorem retuneTrigger_tuned (temp : Int) (huse : cUsable u p = true) (hmode : tunedMode (cSpeed u p) = true)
    (hidle : (u.cport p).retuneAt = none) :
    retuneTrigger p temp u =
      if (u.cport p).tunedAt + u.fld rCHAM_XRETUNE 15 0 * 1000000000 ≤ u.now ∨
          10 * u.fld rCHAM_XRETUNE 23 16 ≤ (temp - (u.cport p).tunedTemp).natAbs then
        (setCard p (fun x => { x with retuneAt := some u.now, sweep := [] }) u).setFlag (rCHAM_PSTAT p) 19 true
      else u := by
  simp only [retuneTrigger, hp, huse, hmode, hidle, decide_true, Bool.true_or, Bool.and_self, Bool.or_eq_true, decide_eq_true_eq, true_and, and_true]

end

/-- The taps tried so far by the sweep of port `p`, with 8 more. -/
def tapsTried (p mask : Nat) (u : State) : List Bool := (u.cport p).sweep ++ (List.range 8).map (fun i => mask.testBit i)

section
variable (mask : Nat) (temp : Int) {at_ : Nat} (hrun : (u.cport p).retuneAt = some at_) (hxfer : (u.cport p).xfer = none)
  (hst : cState u p = cREADY) (hwindow : calMay u 1 = true ∨ at_ + 1000000000 ≤ u.now)
include hrun hxfer hst hwindow

/-- Nothing keeps a step from being taken: no command is on the port, and a window is open or a second has passed (R724, R726). -/
theorem retuneStep_goes :
    retuneStep p mask temp u =
      if (tapsTried p mask u).length < 64 then setCard p (fun x => { x with sweep := tapsTried p mask u }) u
      else tuneWhole p ((tapsTried p mask u).zipIdx.map (fun b => if b.1 then 2 ^ b.2 else 0)).sum (some temp)
        (if u.flag rTWEED_CLKSTAT 2 then u else setCard p (fun x => { x with wanted := none }) (setCSpeed p (tuneGoal u p) u)) := by
  have hgo : ¬ (((u.cport p).xfer.isNone && (decide (cState u p = cREADY) || expHolds u p)) = false ∨
      (calMay u 1 = false ∧ u.now < at_ + 1000000000)) := by
    have hopen : ¬ (calMay u 1 = false ∧ u.now < at_ + 1000000000) := fun ⟨hshut, hearly⟩ =>
      hwindow.elim (ne_true_of_eq_false hshut) (Nat.not_le.mpr hearly)
    simp [hxfer, hst, hopen]
  simp only [retuneStep, hrun, if_neg hgo]
  rfl

theorem retuneStep_sweeps (hshort : (tapsTried p mask u).length < 64) :
    retuneStep p mask temp u = setCard p (fun x => { x with sweep := tapsTried p mask u }) u :=
  (retuneStep_goes mask temp hrun hxfer hst hwindow).trans (if_pos hshort)

/-- The last step of a sweep while CLKFAIL holds tunes for the mode in use (R732). -/
theorem retuneStep_ends (hfull : 64 ≤ (tapsTried p mask u).length) (hclk : u.flag rTWEED_CLKSTAT 2 = true) :
    retuneStep p mask temp u =
      tuneWhole p ((tapsTried p mask u).zipIdx.map (fun b => if b.1 then 2 ^ b.2 else 0)).sum (some temp) u := by
  rw [retuneStep_goes mask temp hrun hxfer hst hwindow, if_neg (Nat.not_lt.mpr hfull), if_pos hclk]

end
end

/-- Settles O49, command by command. That the card's answers and a transfer's bytes come with the commands that end them is the model's
reading (notes/assumptions/50.md). The statement has no clause for a card that comes READY; what a sweep finds, and what a CRC failure leads
to, it leaves to `tuneWhole` and `crcFail`. -/
theorem cardPorts : Obligations.CardPorts := by
  intro t p s hacts
  dsimp only
  have hp : p.val < 2 := p.isLt
  have hready {r : CardInit} {v : State} : cardReady p.val r (s.at t) = v → exec (.cardReady t p r) s = .next v :=
    onUnits_acts_eq (g := cardReady p.val r) hacts
  have hremoval {v : State} (e : removal p.val (s.at t) = v) : exec (.removal t p) s = .next (wrapUp v) :=
    onUnits_acts_eq (g := fun s => wrapUp (removal p.val s)) hacts (congrArg wrapUp e)
  have hcmd {w : Word} {v : State} : cardCmd p.val (setBit w 31 true) (s.at t) = v → exec (.cmd t p w) s = .next v :=
    onUnits_acts_eq (g := cardCmd p.val (setBit w 31 true)) hacts
  have hgo (w : Word) : bit (setBit w 31 true) 31 = true := bit_setBit_self w 31 true (by decide)
  have hdone {out : CardOut} {v : State} (e : cardDone p.val out (s.at t) = v) : exec (.cardTransferDone t p out) s = .next (wrapUp v) :=
    onUnits_acts_eq (g := fun s => wrapUp (cardDone p.val out s)) hacts (congrArg wrapUp e)
  have habort {tie : Option CardOut} {v : State} (e : pabort p.val tie (s.at t) = v) : exec (.pabort t p tie) s = .next (wrapUp v) :=
    onUnits_acts_eq (g := fun s => wrapUp (pabort p.val tie s)) hacts (congrArg wrapUp e)
  refine ⟨fun hempty => ⟨fun hpower => ?powered, fun hoff => ?unpowered⟩,
    fun hst r => ⟨fun hnever => ?neverReady, fun hup hB hsize => ?small, fun hup hA huhs hfirst hspeed hfails => ?switchFails⟩,
    ⟨fun hthere => ?removed, fun habsent => ?removedUnseen⟩,
    fun w => ⟨fun hlocked => ?locked, fun huse hexp => ?issued⟩,
    fun hxfer hexp hcourt out => ?nothing,
    fun k hxfer hexp hcourt => ⟨?silent, fun resp data => ?done, fun sweep => ?crc⟩,
    fun tie hxfer => ?abortIdle, fun k hxfer => ⟨?aborted, fun out => ?abortLate⟩,
    fun hbusy => ?timedOut,
    fun temp huse hmode hidle => ⟨fun hdue => ?triggered, fun hearly hcool => ?notTriggered⟩,
    fun mask temp at_ hrun hxfer hst hwindow => ⟨fun hshort => ?swept, fun hfull hclk => ?tuned⟩,
    fun hst hcard hpower => ?reinit,
    fun hB hst hexp hxfer => ?sleeps⟩
  case powered => exact onUnits_acts_eq (g := insertion p.val) hacts ((insertion_empty hp hempty).trans (if_pos hpower))
  case unpowered => exact onUnits_acts_eq (g := insertion p.val) hacts ((insertion_empty hp hempty).trans (if_neg (ne_true_of_eq_false hoff)))
  case neverReady => exact hready (cardReady_never hp hst hnever)
  case small =>
    rw [hB] at hst
    exact hready (hB ▸ cardReady_small hst hup hsize)
  case switchFails =>
    rw [hA] at hst hfirst
    exact hready (hA ▸ cardReady_switchFails hst hup huhs hfirst hspeed hfails)
  case removed => exact hremoval ((removal_port hp).trans (if_pos hthere))
  case removedUnseen => exact hremoval ((removal_port hp).trans (if_neg (ne_true_of_eq_false habsent)))
  case locked => exact hcmd (cardCmd_locked hp (hgo w) hlocked)
  case issued => exact hcmd (cardCmd_issues hp (hgo w) huse hexp)
  case nothing => exact hdone (cardDone_nothing hexp hcourt hxfer out)
  case silent => exact hdone (cardDone_raw_silent hexp hcourt hxfer)
  case done => exact hdone (cardDone_raw_done hexp hcourt hxfer resp data)
  case crc => exact hdone (cardDone_raw_crc hxfer sweep)
  case abortIdle => exact habort (pabort_idle hp hxfer tie)
  case aborted => exact habort (pabort_aborts hp hxfer)
  case abortLate => exact habort (pabort_late hp hxfer out)
  case timedOut =>
    exact onUnits_acts_eq (g := fun s => wrapUp (busyTimeout p.val s)) hacts (congrArg wrapUp (busyTimeout_fails hp hbusy))
  case triggered =>
    exact onUnits_acts_eq (g := retuneTrigger p.val temp) hacts ((retuneTrigger_tuned hp temp huse hmode hidle).trans (if_pos (.inl hdue)))
  case notTriggered =>
    exact onUnits_acts_eq (g := retuneTrigger p.val temp) hacts
      ((retuneTrigger_tuned hp temp huse hmode hidle).trans (if_neg (not_or_intro (Nat.not_le.mpr hearly) (Nat.not_le.mpr hcool))))
  case swept => exact onUnits_acts_eq (g := retuneStep p.val mask temp) hacts (retuneStep_sweeps mask temp hrun hxfer hst hwindow hshort)
  case tuned => exact onUnits_acts_eq (g := retuneStep p.val mask temp) hacts (retuneStep_ends mask temp hrun hxfer hst hwindow hfull hclk)
  case reinit => exact onUnits_acts_eq (g := reinit p.val) hacts (reinit_failed hp hst hcard hpower)
  case sleeps =>
    rw [hB] at hacts hxfer ⊢
    have hidle := cardSleep_idle hst hexp hxfer
    exact ⟨fun hdue => onUnits_acts_eq (g := cardSleep) hacts (hidle.trans (if_pos hdue)),
      fun hearly => onUnits_acts_eq (g := cardSleep) hacts (hidle.trans (if_neg (Nat.not_le.mpr hearly)))⟩

end Sys2Proof.Proofs
end

section
/-!
Exports to a card and the court copy (R744–R761): the start, the completion's latch, the abort, and the two runs of COURT_COPY with their
time-out. Each lemma takes the command at the device's own instant.
-/

namespace Sys2Proof.Proofs

open Sys2Proof Sys2Proof.Machine Sys2Proof.Laws

section
variable {u : State} (princ : Nat)

/-! ## EXPORT_START -/

theorem procRow_exportStart (d : Bytes) (env : ProcEnv) : procRow (okey 0x5801 0) princ d env u = wrapUp (exportStart princ u).2 := rfl

/-- A job that runs is not disturbed by another start: the run answers BUSY. -/
theorem exportStart_busy (hjob : u.cards.exp.job.isSome = true) : exportStart princ u = (aBUSY, u) := if_pos hjob

/-! ## The completion and EXPORT_ABORT -/

/-- The end of the record block's busy period latches the completion, and the job is PROTECTING (R750). -/
theorem expLatch_latches (hjob : u.cards.exp.job.isSome = true) (hphase : u.cards.exp.phase = 2) :
    expLatch u = (u.setFld rCHAM_XSTATE 2 0 3).onCards fun c => { c with exp := { c.exp with phase := 3 } } :=
  if_pos ⟨hjob, hphase⟩

/-- EXPORT_ABORT's procedure as every run leaves it: DONE with OK. -/
def abortRan (princ : Nat) (u : State) : State := procRan (okey 0x5803 0) princ aOK u

/-- Without a job EXPORT_ABORT answers LATE where one has ended, else NOTFOUND. -/
theorem exportAbort_idle (tie : Bool) (hjob : u.cards.exp.job = none) :
    (exportAbort princ tie u).2 =
      (abortRan princ u).setFld rCHAM_XSTATE 5 4 (if (abortRan princ u).fld rCHAM_XSTATE 2 0 = 4 then 1 else 3) := by
  have hnone : (abortRan princ u).cards.exp.job.isNone = true := Option.isNone_iff_eq_none.mpr hjob
  exact (if_pos hnone).trans (apply_ite ((abortRan princ u).setFld rCHAM_XSTATE 5 4) ..).symm

section
variable (hjob : u.cards.exp.job.isSome = true)
include hjob

/-- EXPORT_ABORT of a job is resolved against the latch of its completion (R753). -/
theorem exportAbort_running (tie : Bool) :
    (exportAbort princ tie u).2 =
      if u.cards.exp.phase = 3 then (abortRan princ u).setFld rCHAM_XSTATE 5 4 1
      else if tie = true ∧ u.cards.exp.phase = 2 then expLatch ((abortRan princ u).setFld rCHAM_XSTATE 5 4 1)
      else expEnd xABORTED ((abortRan princ u).setFld rCHAM_XSTATE 5 4 2) := by
  have hsome : ¬ (abortRan princ u).cards.exp.job.isNone = true := ne_true_of_eq_false (Option.isNone_eq_false_iff.mpr hjob)
  exact if_neg hsome

theorem exportAbort_latched (tie : Bool) (hphase : u.cards.exp.phase = 3) :
    (exportAbort princ tie u).2 = (abortRan princ u).setFld rCHAM_XSTATE 5 4 1 :=
  (exportAbort_running princ hjob tie).trans (if_pos hphase)

theorem exportAbort_aborts (hphase : u.cards.exp.phase ≠ 3) :
    (exportAbort princ false u).2 = expEnd xABORTED ((abortRan princ u).setFld rCHAM_XSTATE 5 4 2) :=
  ((exportAbort_running princ hjob false).trans (if_neg hphase)).trans (if_neg fun h => Bool.noConfusion h.1)

/-- An abort on the edge that latches the completion is LATE, and the job goes on to PROTECTING (R753). -/
theorem exportAbort_tie (hphase : u.cards.exp.phase = 2) :
    (exportAbort princ true u).2 =
      (((abortRan princ u).setFld rCHAM_XSTATE 5 4 1).setFld rCHAM_XSTATE 2 0 3).onCards fun c =>
        { c with exp := { c.exp with phase := 3 } } := by
  rw [exportAbort_running princ hjob, if_neg (by rw [hphase]; decide), if_pos ⟨rfl, hphase⟩]
  exact expLatch_latches hjob hphase

end

/-! ## The court copy -/

theorem procRow_courtCopy (target : BitVec 8) (env : ProcEnv) :
    procRow (okey 0x5804 0) princ (le 1 target.toNat) env u = wrapUp (courtCopy princ target.toNat u).2 := by
  have hrun (d : Bytes) : runProc (okey 0x5804 0) princ d env u = courtCopy princ (ofLe d) u := rfl
  rw [procRow, hrun, ofLe_leBytes_toNat target (by decide)]

/-- No port but A and B: the run answers RANGE. -/
theorem courtCopy_badTarget {target : Nat} (htarget : 2 ≤ target) : courtCopy princ target u = (aRANGE, u) := if_pos htarget

section
variable {target : Nat} (htarget : target < 2) (hidle : u.cards.courtRun = none)
include htarget hidle

/-- A first run arms the copy (R758). -/
theorem courtCopy_arms (hcourt : u.cards.court = none) :
    (courtCopy princ target u).2 =
      ((procStart (okey 0x5804 0) princ u).wr rCHAM_XCOURT (field 3 0 princ ||| field 8 8 1 ||| field 9 9 target)).onCards fun c =>
        { c with court := some { princ := princ, target := target, at_ := u.now } } := by
  simp only [courtCopy, if_neg (Nat.not_le.mpr htarget), hidle, Option.isSome_none, Bool.false_eq_true, if_false, hcourt]
  rfl

/-- A second run by the arming principal ends the copy TIMEOUT (R760). -/
theorem courtCopy_samePrincipal {c : Court} (hcourt : u.cards.court = some c) (hintime : u.now ≤ c.at_ + 60000000000)
    (hsame : c.princ = princ) : (courtCopy princ target u).2 = courtEnd aTIMEOUT u := by
  simp only [courtCopy, if_neg (Nat.not_le.mpr htarget), hidle, Option.isSome_none, Bool.false_eq_true, if_false, hcourt,
    if_neg (Nat.not_lt.mpr hintime), if_pos hsame]

end

/-- An armed copy whose second run has not come ends TIMEOUT after 60 s, and not before (R760). -/
theorem courtTimeout_armed {c : Court} (hcourt : u.cards.court = some c) (hidle : u.cards.courtRun = none) :
    courtTimeout u = if c.at_ + 60000000000 ≤ u.now then courtEnd aTIMEOUT u else u := by
  simp only [courtTimeout, hcourt, hidle, true_and]

end

/-- Settles O50, command by command. That EXPORT_ABORT answers NOTFOUND where no job runs is the model's reading (notes/assumptions/50.md), as
is LATE where the last job has ended. The statement has no clause for the run of a second principal (R759). -/
theorem cardExports : Obligations.CardExports := by
  intro t s hacts
  dsimp only
  have hstart {princ : BitVec 4} {v : State} (e : (exportStart princ.toNat (s.at t)).2 = v) : exec (.exportStart t princ) s = .next (wrapUp v) :=
    onUnits_acts_eq (g := procRow (okey 0x5801 0) princ.toNat [] {}) hacts ((procRow_exportStart _ [] {}).trans (congrArg wrapUp e))
  have habort {princ : BitVec 4} {tie : Bool} {v : State} (e : (exportAbort princ.toNat tie (s.at t)).2 = v) :
      exec (.exportAbort t princ tie) s = .next (wrapUp v) :=
    onUnits_acts_eq (g := fun s => wrapUp (exportAbort princ.toNat tie s).2) hacts (congrArg wrapUp e)
  have hcourt {princ : BitVec 4} {target : BitVec 8} {v : State} (e : (courtCopy princ.toNat target.toNat (s.at t)).2 = v) :
      exec (.courtCopy t princ target) s = .next (wrapUp v) :=
    onUnits_acts_eq (g := procRow (okey 0x5804 0) princ.toNat (le 1 target.toNat) {}) hacts
      ((procRow_courtCopy _ target {}).trans (congrArg wrapUp e))
  have htimeout {v : State} (e : courtTimeout (s.at t) = v) : exec (.courtCopyTimeout t) s = .next (wrapUp v) :=
    onUnits_acts_eq (g := fun s => wrapUp (courtTimeout s)) hacts (congrArg wrapUp e)
  refine ⟨fun princ => ⟨fun hjob => ?busy, fun code v _ hran => ?ran, fun tie => ⟨fun hnone => ?abortIdle, fun hjob hphase => ?abortLatched,
        fun hjob hphase huntied => ?aborted, fun hjob hphase htie => ?abortTie⟩⟩,
    fun hjob hphase => ?latched,
    fun princ => ⟨fun target htarget => ?badTarget, fun target htarget hidle hnone => ?armed,
      fun target c htarget hidle harmed hintime hsame => ?samePrincipal⟩,
    fun c harmed hidle => ⟨fun hdue => ?timedOut, fun hearly => ?waits⟩⟩
  case busy => exact hstart (congrArg Prod.snd (exportStart_busy _ hjob))
  case ran => exact hstart (congrArg Prod.snd hran)
  case abortIdle => exact habort (exportAbort_idle _ tie hnone)
  case abortLatched => exact habort (exportAbort_latched _ hjob tie hphase)
  case aborted => exact habort (huntied ▸ exportAbort_aborts _ hjob hphase)
  case abortTie => exact habort (htie ▸ exportAbort_tie _ hjob hphase)
  case latched => exact onUnits_acts_eq (g := fun s => wrapUp (expLatch s)) hacts (congrArg wrapUp (expLatch_latches hjob hphase))
  case badTarget => exact hcourt (congrArg Prod.snd (courtCopy_badTarget _ htarget))
  case armed => exact hcourt (courtCopy_arms _ htarget hidle hnone)
  case samePrincipal => exact hcourt (courtCopy_samePrincipal _ htarget hidle harmed hintime hsame)
  case timedOut => exact htimeout ((courtTimeout_armed harmed hidle).trans (if_pos hdue))
  case waits => exact htimeout ((courtTimeout_armed harmed hidle).trans (if_neg (Nat.not_le.mpr hearly)))

end Sys2Proof.Proofs
end

section
/-!
Percale's slots (R762–R779): presence, activation with its ATR and PPS, deactivation and faults, characters, the challenge of a driver card and
the requests of its principal. Each lemma takes the command at the device's own instant.
-/

namespace Sys2Proof.Proofs

open Sys2Proof Sys2Proof.Machine Sys2Proof.Laws

section
variable {u : State} {i : Nat}

/-! ## The transmit FIFO -/

theorem txDrain_none : txDrain i 0 u = u := by simp [txDrain]

theorem txDrain_empty (n : Nat) (htx : (u.cslot i).tx = []) : txDrain i n u = u := by simp [txDrain, htx]

section
variable (hi : i < 2)
include hi

/-! ## Presence and activation -/

section
variable (hpol : u.flag (rPERC_SCTL i) 5 = true)
include hpol

/-- A card that appears is shown, and activated where SCTL.AUTOACT says so (R762, table *Activation*). -/
theorem presence_appears (habsent : (u.cslot i).present = false) :
    presence i true u =
      let v := (setPState i 1 (setCSlot i (fun x => { x with present := true, noPps := false }) u)).raise (rPERC_INTSTAT i) 0
      if v.flag (rPERC_SCTL i) 6 then activate i v else v :=
  ((if_neg (Nat.not_le.mpr hi)).trans (if_pos hpol.symm)).trans (if_neg (ne_true_of_eq_false habsent))

/-- A card that goes is deactivated, and the slot is EMPTY (R762, R772). -/
theorem presence_goes (hpresent : (u.cslot i).present = true) :
    presence i false u =
      (setPState i 0 (setCSlot i (fun x => { x with present := false, noPps := false }) (deactivate i u))).raise (rPERC_INTSTAT i) 1 :=
  ((if_neg (Nat.not_le.mpr hi)).trans (if_neg (by rw [hpol]; decide))).trans (if_pos hpresent)

end

theorem activate_present (hen : u.flag (rPERC_SCTL i) 0 = true) (hpresent : (u.cslot i).present = true)
    (hst : pState u i = 1 ∨ pState u i = 6) : activate i u = activateSlot i u :=
  if_pos ⟨hi, hen, hpresent, hst⟩

/-- An ATR that is rejected is captured all the same, and the next class is tried (R763, R765). -/
theorem atr_rejected {bs : Bytes} {bad : Bool} (hst : pState u i = 2) (hpps : (u.cslot i).pps = false) (hrej : atrAccept bs bad = none) :
    atr i bs bad u =
      nextClass i ((u.wrWords (rPERC_ATR i 0) (wordsOf 9 (fit 33 bs))).wr (rPERC_ATRLEN i) (field 5 0 (min 33 bs.length))) := by
  simp [atr, hi, hst, hpps, hrej]

theorem atrTimeout_activating (hst : pState u i = 2) (hpps : (u.cslot i).pps = false) : atrTimeout i u = nextClass i u :=
  if_pos ⟨hi, hst, hpps⟩

/-! ## PPS -/

section
variable (hpps : (u.cslot i).pps = true)
include hpps

/-- A confirming response to a PPS request applies FI and DI (R767). -/
theorem ppsResponse_confirms :
    ppsResponse i true u = setPState i 3 (setCSlot i (fun x => { x with
      pps := false, fi := bits (u.rd (rPERC_FIDI i)) 3 0, di := bits (u.rd (rPERC_FIDI i)) 7 4 }) u) := by
  simp [ppsResponse, hi, hpps]

theorem ppsResponse_refuses : ppsResponse i false u = ppsFail i u := by
  simp [ppsResponse, hi, hpps]

/-- No response to a PPS request fails as another response does (R767). -/
theorem waitingExpiry_pps : waitingExpiry i u = ppsFail i u := (if_neg (Nat.not_le.mpr hi)).trans (if_pos hpps)

end

/-- Without a PPS request the transfer of an active card ends with WT (R770). -/
theorem waitingExpiry_active (hpps : (u.cslot i).pps = false) (hst : pState u i = 3) :
    waitingExpiry i u =
      ((setCSlot i (fun x => { x with blk := [], repeats := 0 }) u).setFld (rPERC_FIFOSTAT i) 19 16 2).raise (rPERC_INTSTAT i) 5 :=
  ((if_neg (Nat.not_le.mpr hi)).trans (if_neg (ne_true_of_eq_false hpps))).trans (if_pos hst)

/-! ## Deactivation, faults and clock stop -/

theorem deact_slot : deact i u = deactivate i u := if_pos hi

section
variable (hon : pState u i = 2 ∨ pState u i = 3 ∨ pState u i = 4)
include hon

theorem ioStuck_fails : ioStuck i u = setSticky 130 (59 + i) i (slotFail i (deactivate i u)) := if_pos ⟨hi, hon⟩

theorem overcurrent_fails :
    overcurrent i u = setSticky 131 (59 + i) i (slotFail i ((deactivate i u).raise (rPERC_INTSTAT i) 7)) :=
  if_pos ⟨hi, hon⟩

end

theorem clockStop_stops (hst : pState u i = 3) (hen : u.flag (rPERC_SCTL i) 4 = true) (hcard : u.fld (rPERC_SSTAT i) 13 12 ≠ 0)
    (htx : (u.cslot i).tx = []) : clockStop i u = setPState i 4 u :=
  if_pos ⟨hi, hst, hen, hcard, htx⟩

/-! ## Characters -/

/-- A character to send restarts the clock, and is queued while TXFIFO has room (R771). -/
theorem txWrite_queues (b : Byte) (hst : pState u i = 3 ∨ pState u i = 4) :
    txWrite i b 0 false u =
      if ((setPState i 3 u).cslot i).tx.length < 64 then setCSlot i (fun x => { x with tx := x.tx ++ [b] }) (setPState i 3 u)
      else setPState i 3 u := by
  have hgo : ¬ (i ≥ 2 ∨ (pState u i ≠ 3 ∧ pState u i ≠ 4)) :=
    not_or_intro (Nat.not_le.mpr hi) fun ⟨hactive, hstopped⟩ => hst.elim hactive hstopped
  simp only [txWrite, if_neg hgo, txDrain_none, Bool.false_eq_true, false_and, if_false]

section
variable (b : Byte) (hst : pState u i = 3) (hT0 : u.flag (rPERC_SSTAT i) 5 = false) (htx : (u.cslot i).tx = [])
include hst hT0 htx

/-- A character under T=0 that finds nothing to send: it is taken, or with a parity error asked for again up to 3 times (R770). -/
theorem charReceived_T0 (parityErr : Bool) :
    charReceived i b parityErr u =
      if parityErr then
        if (u.cslot i).repeats < 3 then setCSlot i (fun x => { x with repeats := x.repeats + 1 }) u
        else slotErr i 1 (setCSlot i (fun x => { x with repeats := 0 }) u)
      else (rxPush i b (setCSlot i (fun x => { x with repeats := 0 }) u)).raise (rPERC_INTSTAT i) 3 := by
  have hgo : ¬ (i ≥ 2 ∨ pState u i ≠ 3) := not_or_intro (Nat.not_le.mpr hi) (not_not.mpr hst)
  simp only [charReceived, if_neg hgo, txDrain_empty 64 htx, hT0, if_true]

theorem charReceived_good :
    charReceived i b false u = (rxPush i b (setCSlot i (fun x => { x with repeats := 0 }) u)).raise (rPERC_INTSTAT i) 3 :=
  (charReceived_T0 hi b hst hT0 htx false).trans (if_neg Bool.noConfusion)

theorem charReceived_repeats (hfew : (u.cslot i).repeats < 3) :
    charReceived i b true u = setCSlot i (fun x => { x with repeats := x.repeats + 1 }) u :=
  ((charReceived_T0 hi b hst hT0 htx true).trans (if_pos rfl)).trans (if_pos hfew)

end
end

/-! ## Driver cards -/

section
variable {w : Word} {v : State} (hgo : bit w 31 = true)
include hgo

/-- START places 16 bytes of the DRBG in AUTHCHAL, and waits for the response (R776). -/
theorem authStart_challenges {b : Bytes} (hdraw : drbgNow 16 (u.wr rPERC_AUTHCTL (w &&& 0x0000010F#32)) = (some b, v)) :
    authStart w u =
      ((v.wrWords (rPERC_AUTHCHAL 0) (wordsOf 4 b)).wr rPERC_AUTHSTAT 1#32).onCards fun c =>
        { c with auth := some (bits w 8 8, bits w 3 0) } := by
  simp only [authStart, hgo, hdraw, Bool.true_eq_false, if_false]

theorem authStart_noDrbg (hdraw : drbgNow 16 (u.wr rPERC_AUTHCTL (w &&& 0x0000010F#32)) = (none, v)) :
    authStart w u = (v.wr rPERC_AUTHSTAT 3#32).onCards fun c => { c with auth := none } := by
  simp only [authStart, hgo, hdraw, Bool.true_eq_false, if_false]

end

/-- A word of a card's response as AUTHRSP takes it. -/
def rspTaken (k : Nat) (w : Word) (u : State) : State := u.onCards fun c => { c with authRsp := upd c.authRsp k (fun _ => w) }

theorem authRsp_word {k : Nat} (w : Word) (hk : k ≠ 3) : authRsp k w u = rspTaken k w u := if_pos hk

/-- A response that no challenge waits for fails. -/
theorem authRsp_unasked (w : Word) (hauth : u.cards.auth = none) :
    authRsp 3 w u = ((rspTaken 3 w u).wr rPERC_AUTHSTAT 3#32).onCards fun c => { c with auth := none } := by
  have hstill : (rspTaken 3 w u).cards.auth = none := hauth
  rw [rspTaken] at hstill ⊢
  simp only [authRsp, hstill, ne_eq, not_true_eq_false, if_false]

/-- The response of an active card to its principal's challenge sets AUTH (R777). -/
theorem authRsp_accepted {w : Word} {v : State} {pr : Nat} {key : Bytes} (hv : rspTaken 3 w u = v) (hauth : u.cards.auth = some (i, pr))
    (hkey : useKey v (princKey v pr) uHMAC = .key key) (hpresent : (v.cslot i).present = true) (hst : pState v i = 3)
    (hen : enabledOf v pr = true) (hkind : kindOf v pr = 5) (hnode : princNode v pr = i)
    (hrsp : v.cards.authRsp.flatMap (fun w => le 4 w.toNat) = authExpect v key i) :
    authRsp 3 w u = (((v.setFlag (rPERC_SSTAT i) 6 true).setFld (rPERC_SSTAT i) 11 8 pr).wr rPERC_AUTHSTAT 2#32).onCards fun c =>
      { c with auth := none } := by
  have hstill : v.cards.auth = some (i, pr) := hv ▸ hauth
  rw [rspTaken] at hv
  simp [authRsp, hv, hstill, hkey, hpresent, hst, hen, hkind, hnode, hrsp]

/-! ## PREQ -/

theorem preqSubmit_queues (a : Nat) (hroom : u.cards.preq.length < 4) :
    preqSubmit a u = u.onCards fun c => { c with preq := c.preq ++ [(a / 32 * 32, u.fld rPERC_AUTHCTL 8 8)] } :=
  if_neg (Nat.not_le.mpr hroom)

theorem preqSubmit_full (a : Nat) (hfull : 4 ≤ u.cards.preq.length) : preqSubmit a u = u := if_pos hfull

end

/-- Settles O51, command by command. That PREQ clears the low bits of an address and ignores a fifth request are the model's readings
(notes/assumptions/43.md); the places of an ATR's fields are those of the standard that the spec cites (notes/assumptions/51.md). The
statement has no clause for an ATR that is accepted, for T=1, or for the response of a card whose clock is stopped. -/
theorem smartCards : Obligations.SmartCards := by
  intro t s
  dsimp only
  refine ⟨fun i hacts => ?slot, fun hacts => ⟨fun w b v => ?challenge, fun k w => ⟨fun hk => ?word, fun hk hauth => ?unasked,
    fun i pr key hk hauth hkey hpresent hst hen hkind hnode hrsp => ?accepted⟩, fun a => ⟨fun hroom => ?preq, fun hfull => ?preqFull⟩⟩⟩
  case slot =>
    have hi : i.val < 2 := i.isLt
    have hpresence (level : Bool) {v : State} : presence i.val level (s.at t) = v → exec (.presence t i level) s = .next v :=
      onUnits_acts_eq (g := presence i.val level) hacts
    have hexpiry {v : State} : waitingExpiry i.val (s.at t) = v → exec (.waitingTimeExpiry t i) s = .next v :=
      onUnits_acts_eq (g := waitingExpiry i.val) hacts
    have hpps (confirms : Bool) {v : State} : ppsResponse i.val confirms (s.at t) = v → exec (.ppsResponse t i confirms) s = .next v :=
      onUnits_acts_eq (g := ppsResponse i.val confirms) hacts
    have htx (b : Byte) {v : State} : txWrite i.val b 0 false (s.at t) = v → exec (.txfifoWrite t i b 0 false) s = .next v :=
      onUnits_acts_eq (g := txWrite i.val b 0 false) hacts
    have hrx (b : Byte) (bad : Bool) {v : State} : charReceived i.val b bad (s.at t) = v → exec (.characterReceived t i b bad) s = .next v :=
      onUnits_acts_eq (g := charReceived i.val b bad) hacts
    refine ⟨fun hpol habsent => ⟨fun hwait => ?appears, fun hauto => ?activates⟩, fun hpol hpresent => ?goes,
      fun hen hpresent hst => ?activated, fun bs bad hst hnone hrej => ?rejected, fun hst hnone => ?noAtr,
      fun hasked => ⟨?confirmed, ?refused, ?unanswered⟩, fun hnone hst => ?expired, ?deactivated, fun hon => ⟨?stuck, ?overcurrent⟩,
      fun hst hen hcard hempty => ?clockStops, fun b hst => ⟨fun hroom => ?sends, fun hfull => ?txFull⟩,
      fun b hst hT0 hempty => ⟨?received, fun hfew => ?repeated⟩⟩
    case appears => exact hpresence true ((presence_appears hi hpol habsent).trans (if_neg (ne_true_of_eq_false hwait)))
    case activates => exact hpresence true ((presence_appears hi hpol habsent).trans (if_pos hauto))
    case goes => exact hpresence false (presence_goes hi hpol hpresent)
    case activated => exact onUnits_acts_eq (g := activate i.val) hacts (activate_present hi hen hpresent hst)
    case rejected => exact onUnits_acts_eq (g := atr i.val bs bad) hacts (atr_rejected hi hst hnone hrej)
    case noAtr => exact onUnits_acts_eq (g := atrTimeout i.val) hacts (atrTimeout_activating hi hst hnone)
    case confirmed => exact hpps true (ppsResponse_confirms hi hasked)
    case refused => exact hpps false (ppsResponse_refuses hi hasked)
    case unanswered => exact hexpiry (waitingExpiry_pps hi hasked)
    case expired => exact hexpiry (waitingExpiry_active hi hnone hst)
    case deactivated => exact onUnits_acts_eq (g := deact i.val) hacts (deact_slot hi)
    case stuck => exact onUnits_acts_eq (g := ioStuck i.val) hacts (ioStuck_fails hi hon)
    case overcurrent => exact onUnits_acts_eq (g := overcurrent i.val) hacts (overcurrent_fails hi hon)
    case clockStops => exact onUnits_acts_eq (g := clockStop i.val) hacts (clockStop_stops hi hst hen hcard hempty)
    case sends => exact htx b ((txWrite_queues hi b hst).trans (if_pos hroom))
    case txFull => exact htx b ((txWrite_queues hi b hst).trans (if_neg (Nat.not_lt.mpr hfull)))
    case received => exact hrx b false (charReceived_good hi b hst hT0 hempty)
    case repeated => exact hrx b true (charReceived_repeats hi b hst hT0 hempty hfew)
  case challenge =>
    have hgo : bit (setBit w 31 true) 31 = true := bit_setBit_self w 31 true (by decide)
    exact ⟨fun hdraw => onUnits_acts_eq (g := authStart (setBit w 31 true)) hacts (authStart_challenges hgo hdraw),
      fun hdraw => onUnits_acts_eq (g := authStart (setBit w 31 true)) hacts (authStart_noDrbg hgo hdraw)⟩
  case word => exact onUnits_acts_eq (g := authRsp k.val w) hacts (authRsp_word w hk)
  case unasked => exact onUnits_acts_eq (g := authRsp k.val w) hacts (hk ▸ authRsp_unasked w hauth)
  case accepted =>
    rw [hk] at hkey hpresent hst hen hkind hnode hrsp ⊢
    exact onUnits_acts_eq (g := authRsp k.val w) hacts (hk ▸ authRsp_accepted rfl hauth hkey hpresent hst hen hkind hnode hrsp)
  case preq => exact onUnits_acts_eq (g := preqSubmit a.toNat) hacts (preqSubmit_queues a.toNat hroom)
  case preqFull => exact onUnits_acts_eq (g := preqSubmit a.toNat) hacts (preqSubmit_full a.toNat hfull)

end Sys2Proof.Proofs
end

section
/-!
The machine as a whole: a step by the queue it finds, the state after reset, and the three invariants of a step, each a field of `Keeps`.
-/

namespace Sys2Proof.Proofs

open Sys2Proof Sys2Proof.Machine Sys2Proof.Laws

theorem step_cons (c : Instr) (q : List Instr) (s : State) : step { s with pending := c :: q } = exec c { s with pending := q } := rfl

theorem step_empty {s : State} (h : s.pending = []) : step s = .next s := by
  simp only [step, h]

/-- An invariant that the queue does not enter into and that every part of a command keeps is kept by every step. -/
theorem step_keeps_of_keeps {P : State → State → Prop} (hrefl : ∀ s, P s s) (hkeeps : ∀ {s t q}, Keeps { s with pending := q } t → P s t)
    {s t : State} (h : step s = .next t) : P s t := by
  cases hq : s.pending with
  | nil =>
    rw [step_empty hq] at h
    cases h
    exact hrefl s
  | cons c q => exact hkeeps (keeps_step_rest hq h)

/-- Settles O1, by the queue that the step finds. That a device with an empty queue idles is the model's choice (notes/assumptions/1.md). -/
theorem stepRunsFrontCommand : Obligations.StepRunsFrontCommand := ⟨step_cons, fun _ => step_empty⟩

/-- The registers, the memories and the host's memory of the reset state are listed in rising order, none at its default. -/
theorem memory_wf_reset : Memory.wf State.reset = true := by decide +kernel

/-- Settles O2. -/
theorem resetState : Obligations.ResetState :=
  ⟨memory_wf_reset, core_fresh _ rfl rfl rfl rfl, rfl, rfl, rfl, rfl, rfl, rfl, fun _ => rfl⟩

/-- Settles O3: canonical form is the field `mem` of `Keeps`. -/
theorem stepKeepsCanonicalForm : Obligations.StepKeepsCanonicalForm := fun _ _ hwf hstep =>
  step_keeps_of_keeps (P := fun s t => Memory.wf s = true → Memory.wf t = true) (fun _ => id) Keeps.mem hstep hwf

/-- Settles O4: the windows and the store buffer are the field `core` of `Keeps`. -/
theorem stepKeepsWindowsConsistent : Obligations.StepKeepsWindowsConsistent := fun _ _ hwf hstep =>
  step_keeps_of_keeps (P := fun s t => Core.wf s.serge = true → Core.wf t.serge = true) (fun _ => id) Keeps.core hstep hwf

/-- Settles O5: the fuses are the field `fuse` of `Keeps`, since `fuseProgram` is the one operation that writes them. -/
theorem fuseBitsNeverReturn : Obligations.FuseBitsNeverReturn := fun _ _ hstep =>
  step_keeps_of_keeps (P := fun s t => Fuse.grows s.fuse t.fuse) (fun s => Fuse_grows_refl s.fuse) Keeps.fuse hstep

end Sys2Proof.Proofs
end

section
/-!
Serge's register instructions (tables *Register operations* and *Multiply and divide*): each ends in a write of `rd`, so that what is left to
say of one is the value and the time it takes.
-/

namespace Sys2Proof.Proofs

open Sys2Proof Sys2Proof.Machine Sys2Proof.Laws

section
variable {env : CoreEnv} {s s' : State} {rd : BitVec 5} {w : Word} {f : State → Word}

/-- A timed register operation that issues leaves its value in `rd`. -/
theorem issue_aluTimed (hw : Core.wf s'.serge = true) (hi : Issues env s s') (c : State → Nat) {cost : Nat} (hc : c s' = cost)
    (hf : f s' = w) : ∃ t, issue env (aluTimed rd c f) s = .next t ∧ Writes s' t (s'.serge.pc + 4) cost rd w := by
  subst hc hf
  exact ⟨_, issue_ok hi rfl, writes_next_setX (cwp_lt_of_wf hw) _ rd _⟩

theorem issue_alu (hw : Core.wf s'.serge = true) (hi : Issues env s s') (hf : f s' = w) :
    ∃ t, issue env (alu rd 1 f) s = .next t ∧ Writes s' t (s'.serge.pc + 4) 1 rd w :=
  issue_aluTimed hw hi _ rfl hf

end

/-! ## Arithmetic and logic -/

/-- The upper immediate stands above twelve zeros. -/
theorem upperImmediate_eq (b : BitVec 20) : b.setWidth 32 <<< 12 = b ++ 0#12 := by
  apply BitVec.eq_of_toNat_eq
  rw [BitVec.toNat_shiftLeft, BitVec.toNat_setWidth_of_le (by decide), BitVec.toNat_append, BitVec.toNat_ofNat, Nat.zero_mod, Nat.or_zero,
    Nat.shiftLeft_eq]
  omega

/-- An offset in words, sign-extended and shifted, is four times the offset. -/
theorem signExtend_shiftLeft_two {n : Nat} (b : BitVec n) : b.signExtend 32 <<< 2 = BitVec.ofInt 32 (4 * b.toInt) := by
  have hmul : b.signExtend 32 <<< 2 = b.signExtend 32 * 4#32 := BitVec.shiftLeft_eq_mul_twoPow ..
  rw [hmul, BitVec.mul_comm, BitVec.ofInt_mul]
  rfl

/-- Settles O6, row by row. -/
theorem arithmeticAndLogicResults : Obligations.ArithmeticAndLogicResults := by
  intro env s s' rd rs1 rs2 imm big hw hi
  have hzext : imm.setWidth 32 = BitVec.ofNat 32 imm.toNat := (BitVec.ofNat_toNat 32 imm).symm
  refine ⟨issue_alu hw hi rfl, issue_alu hw hi rfl, issue_alu hw hi rfl, issue_alu hw hi rfl, issue_alu hw hi rfl, issue_alu hw hi rfl,
    issue_alu hw hi rfl, issue_alu hw hi ?andi, issue_alu hw hi ?ori, issue_alu hw hi ?xori, issue_alu hw hi (upperImmediate_eq big),
    issue_alu hw hi ?pca⟩
  case andi => rw [hzext]
  case ori => rw [hzext]
  case xori => rw [hzext]
  case pca => rw [signExtend_shiftLeft_two]

/-! ## Shifts -/

/-- The arithmetic shift divides, rounding down. -/
theorem sshiftRight_eq_ofInt_div (a : Word) (n : Nat) : a.sshiftRight n = BitVec.ofInt 32 (a.toInt / 2 ^ n) := by
  rw [BitVec.sshiftRight, Int.shiftRight_eq_div_pow]
  norm_cast

/-- Bits 4:0 of a word, as an amount. -/
theorem shamtOf_eq (a : Word) : shamtOf a = (a.setWidth 5).toNat := (BitVec.toNat_setWidth 5 a).symm

/-- A rotation by less than the width is the two shifts. -/
theorem rotateRight_amount (a : Word) (n : BitVec 5) : a.rotateRight n.toNat = a >>> n.toNat ||| a <<< (32 - n.toNat) := by
  rw [BitVec.rotateRight_def, Nat.mod_eq_of_lt n.isLt]

/-- Settles O7. The immediate forms have the amount in their rs2 field. -/
theorem shiftResults : Obligations.ShiftResults := by
  intro env s s' rd rs1 rs2 hw hi
  refine ⟨issue_alu hw hi ?sll, issue_alu hw hi ?srl, issue_alu hw hi ?sra, issue_alu hw hi ?ror, issue_alu hw hi rfl, issue_alu hw hi rfl,
    issue_alu hw hi (sshiftRight_eq_ofInt_div _ _), issue_alu hw hi (rotateRight_amount _ _)⟩
  case sll => rw [shamtOf_eq]
  case srl => rw [shamtOf_eq]
  case sra => rw [shamtOf_eq, sshiftRight_eq_ofInt_div]
  case ror => rw [shamtOf_eq, rotateRight_amount]

/-! ## Compare, count, extend -/

theorem boolWord_slt (a b : Word) : boolWord (a.slt b) = if a.toInt < b.toInt then 1 else 0 := by
  simp [boolWord, BitVec.slt]

theorem boolWord_ult (a b : Word) : boolWord (a.ult b) = if a.toNat < b.toNat then 1 else 0 := by
  simp [boolWord, BitVec.ult]

/-- A selection by a signed compare is the smaller number, or the larger. -/
theorem ite_slt_eq_ofInt_min (a b : Word) : (if a.slt b then a else b) = BitVec.ofInt 32 (min a.toInt b.toInt) := by
  by_cases h : a.toInt < b.toInt
  · simp [BitVec.slt, h, min_eq_left (le_of_lt h)]
  · simp [BitVec.slt, h, min_eq_right (not_lt.mp h)]

theorem ite_slt_eq_ofInt_max (a b : Word) : (if a.slt b then b else a) = BitVec.ofInt 32 (max a.toInt b.toInt) := by
  by_cases h : a.toInt < b.toInt
  · simp [BitVec.slt, h, max_eq_right (le_of_lt h)]
  · simp [BitVec.slt, h, max_eq_left (not_lt.mp h)]

/-- The same of unsigned numbers. -/
theorem ite_ult_eq_ofNat_min (a b : Word) : (if a.ult b then a else b) = BitVec.ofNat 32 (min a.toNat b.toNat) := by
  by_cases h : a.toNat < b.toNat
  · simp [BitVec.ult, h, min_eq_left (le_of_lt h)]
  · simp [BitVec.ult, h, min_eq_right (not_lt.mp h)]

theorem ite_ult_eq_ofNat_max (a b : Word) : (if a.ult b then b else a) = BitVec.ofNat 32 (max a.toNat b.toNat) := by
  by_cases h : a.toNat < b.toNat
  · simp [BitVec.ult, h, max_eq_right (le_of_lt h)]
  · simp [BitVec.ult, h, max_eq_left (not_lt.mp h)]

/-- The number of leading zeros. -/
def leadingZeros (a : Word) : Nat := if a = 0 then 32 else 31 - a.toNat.log2

theorem clz_eq_leadingZeros (a : Word) : clz a = BitVec.ofNat 32 (leadingZeros a) := by
  unfold clz leadingZeros
  split <;> rfl

theorem leadingZeros_le (a : Word) : leadingZeros a ≤ 32 := by
  unfold leadingZeros
  split <;> omega

/-- The highest one bit of a word other than 0. -/
theorem log2_toNat_lt {a : Word} (h : a ≠ 0) : a.toNat.log2 < 32 := by
  have hne : a.toNat ≠ 0 := fun k => h (BitVec.eq_of_toNat_eq k)
  exact (Nat.log2_lt hne).mpr a.isLt

theorem bit_above_leadingZeros (a : Word) {i : Nat} (h : i < leadingZeros a) : a.getLsbD (31 - i) = false := by
  by_cases hz : a = 0
  · simp [hz]
  · rw [leadingZeros, if_neg hz] at h
    exact Nat.testBit_lt_two_pow (Nat.lt_of_lt_of_le Nat.lt_log2_self (Nat.pow_le_pow_right (by decide) (by omega)))

theorem bit_at_leadingZeros (a : Word) (h : leadingZeros a < 32) : a.getLsbD (31 - leadingZeros a) = true := by
  have hz : a ≠ 0 := fun k => by simp [leadingZeros, k] at h
  have hne : a.toNat ≠ 0 := fun k => hz (BitVec.eq_of_toNat_eq k)
  have hlog := log2_toNat_lt hz
  have hat : 31 - leadingZeros a = a.toNat.log2 := by
    rw [leadingZeros, if_neg hz]
    omega
  rw [hat]
  exact Nat.testBit_log2 hne

/-- The number of trailing zeros. -/
def trailingZeros (a : Word) : Nat := ((List.range 32).find? (fun i => bit a i)).getD 32

/-- It is where the first one bit stands, or 32 where there is none. -/
theorem trailingZeros_spec (a : Word) : trailingZeros a ≤ 32 ∧ (∀ i < trailingZeros a, a.getLsbD i = false) ∧
    (trailingZeros a < 32 → a.getLsbD (trailingZeros a) = true) := by
  unfold trailingZeros
  cases h : (List.range 32).find? (fun i => bit a i) with
  | none => exact ⟨Nat.le_refl _, by simpa [bit] using h, fun k => absurd k (Nat.lt_irrefl _)⟩
  | some n =>
    obtain ⟨hone, hlt, hbelow⟩ := List.find?_range_eq_some.mp h
    exact ⟨(List.mem_range.mp hlt).le, fun i hi => by simpa [bit] using hbelow i hi, fun _ => hone⟩

/-- A byte below a string of bits. -/
theorem toNat_append_byte {n : Nat} (x : BitVec n) (b : Byte) : (x ++ b).toNat = b.toNat + 256 * x.toNat := by
  rw [BitVec.toNat_append, ← Nat.shiftLeft_add_eq_or_of_lt b.isLt, Nat.shiftLeft_eq, Nat.mul_comm, Nat.add_comm]

/-- Four bytes, the first the lowest (R14). -/
theorem wordOf_four (b₀ b₁ b₂ b₃ : Byte) : wordOf [b₀, b₁, b₂, b₃] = b₃ ++ b₂ ++ b₁ ++ b₀ := by
  apply BitVec.eq_of_toNat_eq
  have h₀ := b₀.isLt
  have h₁ := b₁.isLt
  have h₂ := b₂.isLt
  have h₃ := b₃.isLt
  simp only [wordOf, ofLe, List.take, BitVec.toNat_ofNat, toNat_append_byte]
  omega

/-- A byte of a word's bytes (R14). -/
theorem getD_leBytes {w k n : Nat} (a : BitVec w) (h : k < n) : (le n a.toNat).getD k 0 = a.extractLsb' (8 * k) 8 := by
  have hdiv (v : Nat) : (le n v).getD k 0 = BitVec.ofNat 8 (v / 256 ^ k) := by
    induction k generalizing n v with
    | zero =>
      cases n with
      | zero => cases h
      | succ n => simp [le]
    | succ k ih =>
      cases n with
      | zero => cases h
      | succ n => simpa [le, Nat.div_div_eq_div_mul, Nat.pow_succ'] using ih (Nat.lt_of_succ_lt_succ h) (v / 256)
  rw [hdiv, BitVec.extractLsb', Nat.shiftRight_eq_div_pow, Nat.pow_mul]

theorem leBytes_word (a : Word) :
    le 4 a.toNat = [a.extractLsb' 0 8, a.extractLsb' 8 8, a.extractLsb' 16 8, a.extractLsb' 24 8] := by
  refine List.ext_getElem (length_leBytes 4 _) fun k hk _ => ?_
  rw [length_leBytes] at hk
  rw [← List.getD_eq_getElem _ 0, getD_leBytes a hk]
  interval_cases k <;> rfl

/-- The bytes in reverse. -/
theorem bswap_eq_append (a : Word) :
    bswap a = a.extractLsb' 0 8 ++ a.extractLsb' 8 8 ++ a.extractLsb' 16 8 ++ a.extractLsb' 24 8 := by
  rw [bswap, leBytes_word]
  exact wordOf_four ..

/-- Settles O8. -/
theorem compareCountAndExtendResults : Obligations.CompareCountAndExtendResults := by
  intro env s s' rd rs1 rs2 hw hi
  refine ⟨issue_alu hw hi (boolWord_slt _ _), issue_alu hw hi (boolWord_ult _ _), issue_alu hw hi (ite_slt_eq_ofInt_min _ _),
    issue_alu hw hi (ite_slt_eq_ofInt_max _ _), issue_alu hw hi (ite_ult_eq_ofNat_min _ _), issue_alu hw hi (ite_ult_eq_ofNat_max _ _),
    issue_alu hw hi (ite_not ..).symm, fun imm => issue_alu hw hi ?slti, fun imm => issue_alu hw hi (boolWord_ult _ _), ?clz, ?ctz,
    issue_alu hw hi ?popc, issue_alu hw hi (bswap_eq_append _), issue_alu hw hi ?sextb, issue_alu hw hi ?sexth, issue_alu hw hi ?zexth⟩
  case slti => rw [boolWord_slt, BitVec.toInt_signExtend_of_le (by decide)]
  case clz =>
    obtain ⟨t, ht, hwrites⟩ := issue_alu (rd := rd) hw hi (f := fun s => clz (s.x rs1)) (clz_eq_leadingZeros (s'.x rs1))
    exact ⟨t, _, ht, hwrites, leadingZeros_le _, fun i => bit_above_leadingZeros _, bit_at_leadingZeros _⟩
  case ctz =>
    obtain ⟨t, ht, hwrites⟩ := issue_alu (rd := rd) hw hi (f := fun s => ctz (s.x rs1)) (w := BitVec.ofNat 32 (trailingZeros (s'.x rs1))) rfl
    exact ⟨t, _, ht, hwrites, trailingZeros_spec _⟩
  case popc => rw [List.countP_eq_length_filter]; rfl
  case sextb => rw [BitVec.setWidth_eq_extractLsb' (by decide : 8 ≤ 32)]
  case sexth => rw [BitVec.setWidth_eq_extractLsb' (by decide : 16 ≤ 32)]
  case zexth => rw [BitVec.setWidth_eq_extractLsb' (by decide : 16 ≤ 32)]

/-! ## Multiply and divide -/

/-- Bits 63:32 of the product, whatever its sign. -/
theorem hiWord_unsigned (i : Int) : hiWord (unsigned 64 i) = BitVec.ofInt 32 (i / 2 ^ 32) := by
  apply BitVec.eq_of_toNat_eq
  rw [hiWord, unsigned, BitVec.toNat_ofNat, BitVec.toNat_ofInt]
  omega

theorem mulHigh_eq_ofInt (s₁ s₂ : Bool) (a b : Word) : mulHigh s₁ s₂ a b = BitVec.ofInt 32 (asInt s₁ a * asInt s₂ b / 2 ^ 32) :=
  hiWord_unsigned _

/-- Of two unsigned numbers the high word is a natural number's. -/
theorem mulHigh_unsigned (a b : Word) : mulHigh false false a b = BitVec.ofNat 32 (a.toNat * b.toNat / 2 ^ 32) := by
  rw [mulHigh_eq_ofInt, ← BitVec.ofInt_natCast]
  norm_cast

/-- The MUL family takes the time of its table (R830). -/
theorem mulTime_mulCost (s : State) (b : Word) : mulTime s.serge.ct b (mulCost s b) := by
  simp [mulTime, mulCost]

/-- Settles O9. -/
theorem multiplyResults : Obligations.MultiplyResults := by
  intro env s s' rd rs1 rs2 hw hi
  exact ⟨mulCost s' (s'.x rs2), mulTime_mulCost s' _, issue_aluTimed hw hi _ rfl rfl, issue_aluTimed hw hi _ rfl (mulHigh_eq_ofInt true true _ _),
    issue_aluTimed hw hi _ rfl (mulHigh_unsigned _ _), issue_aluTimed hw hi _ rfl (mulHigh_eq_ofInt true false _ _)⟩

theorem bitLen_toNat_le (a : Word) : bitLen a.toNat ≤ 32 := by
  unfold bitLen
  split
  · exact Nat.zero_le _
  · exact (Nat.log2_lt ‹_›).mpr a.isLt

/-- The DIV family takes a time of its table (R830). -/
theorem divTime_divCost (s : State) (a b : Word) : divTime s.serge.ct (divCost s a b) := by
  have hlen := bitLen_toNat_le a
  unfold divTime divCost
  cases s.serge.ct with
  | true => simp
  | false =>
    simp only [Bool.false_eq_true, if_false, false_implies, true_and]
    split <;> omega

section
variable {a b : Word} (hb : b ≠ 0)
include hb

theorem divU_toNat : (divU a b).toNat = a.toNat / b.toNat := by
  rw [divU, if_neg hb, BitVec.toNat_ofNat, Nat.mod_eq_of_lt (Nat.lt_of_le_of_lt (Nat.div_le_self _ _) a.isLt)]

theorem remU_toNat : (remU a b).toNat = a.toNat % b.toNat := by
  rw [remU, if_neg hb, BitVec.toNat_ofNat, Nat.mod_eq_of_lt (Nat.lt_of_le_of_lt (Nat.mod_le _ _) a.isLt)]

/-- The signed quotient is the library's, which rounds toward 0. -/
theorem divS_eq_sdiv : divS a b = a.sdiv b := by
  apply BitVec.eq_of_toInt_eq
  rw [divS, if_neg hb, BitVec.toInt_ofInt, BitVec.toInt_sdiv]

theorem remS_eq_srem : remS a b = a.srem b := by
  rw [remS, if_neg hb, ← BitVec.toInt_srem, BitVec.ofInt_toInt]

end

/-- Settles O10. R821 and R822 are the corners of `divS`, `divU`, `remS` and `remU`; elsewhere these are the library's divisions. -/
theorem divideResults : Obligations.DivideResults := by
  intro env s s' rd rs1 rs2 hw hi
  refine ⟨_, divS (s'.x rs1) (s'.x rs2), remS (s'.x rs1) (s'.x rs2), divU (s'.x rs1) (s'.x rs2), remU (s'.x rs1) (s'.x rs2),
    divTime_divCost s' (s'.x rs1) (s'.x rs2), issue_aluTimed hw hi _ rfl rfl, issue_aluTimed hw hi _ rfl rfl, issue_aluTimed hw hi _ rfl rfl,
    issue_aluTimed hw hi _ rfl rfl, fun hzero => ?zero, fun hne => ⟨divU_toNat hne, remU_toNat hne⟩, fun hmin hone => ?overflow,
    fun hne hfits => ⟨?quotient, ?remainder⟩⟩
  case zero => exact ⟨if_pos hzero, if_pos hzero, if_pos hzero, if_pos hzero⟩
  case overflow =>
    rw [hmin, hone]
    decide
  case quotient => rw [divS_eq_sdiv hne, BitVec.toInt_sdiv_of_ne_or_ne _ _ hfits]
  case remainder => rw [remS_eq_srem hne, BitVec.toInt_srem]

end Sys2Proof.Proofs
end

section
/-! Serge's branches and jumps (R819, R790, R827): where each goes, and the return address that CALL and JALR leave. -/

namespace Sys2Proof.Proofs

open Sys2Proof Sys2Proof.Machine Sys2Proof.Laws

/-- An instruction that writes no register retires with the register file it found. -/
theorem retire_eq_retired (pc : Word) (cost : Nat) (s : State) : retire pc cost s = Retired s pc cost s.serge.rf := rfl

/-- A target in words is the PC plus 4 times the offset (R819). -/
theorem target_eq {n : Nat} (off : BitVec n) (s : State) : target off s = s.serge.pc + BitVec.ofInt 32 (4 * off.toInt) := by
  rw [target, signExtend_shiftLeft_two]

section
variable {env : CoreEnv} {s s' : State}

/-- A branch that issues, by its condition. -/
theorem issue_branch (hi : Issues env s s') (off : BitVec 14) {taken : State → Bool} {c : Prop} [Decidable c]
    (hc : taken s' = true ↔ c) : issue env (branchOp off taken) s =
      .next (if c then Retired s' (s'.serge.pc + BitVec.ofInt 32 (4 * off.toInt)) 3 s'.serge.rf
        else Retired s' (s'.serge.pc + 4) 1 s'.serge.rf) := by
  refine issue_ok hi (congrArg (Act.ok ()) ?_)
  simp only [hc, target_eq, next, retire_eq_retired]

end

theorem not_slt_iff (a b : Word) : (!a.slt b) = true ↔ b.toInt ≤ a.toInt := by
  simp [BitVec.slt]

theorem not_ult_iff (a b : Word) : (!a.ult b) = true ↔ b.toNat ≤ a.toNat := by
  simp [BitVec.ult]

/-- Settles O16, by what each condition compares. -/
theorem branchResults : Obligations.BranchResults := by
  intro env s s' rs1 rs2 off hi
  exact ⟨issue_branch hi off beq_iff_eq, issue_branch hi off bne_iff_ne, issue_branch hi off BitVec.slt_iff_toInt_lt,
    issue_branch hi off (not_slt_iff _ _), issue_branch hi off BitVec.ult_iff_toNat_lt, issue_branch hi off (not_ult_iff _ _)⟩

/-- Settles O17. JALR's target comes from the state before its write of `rd`, CALL writes d7, which is register field 31. -/
theorem jumpResults : Obligations.JumpResults := by
  intro env s s' rd rs1 imm off hw hi
  have hcwp := cwp_lt_of_wf hw
  refine ⟨?jmp, ⟨_, issue_ok hi rfl, ?call⟩, ⟨_, issue_ok hi rfl, writes_retire_setX hcwp _ _ _ _⟩⟩
  case jmp =>
    rw [← target_eq]
    exact issue_ok (g := jumpOp off) hi rfl
  case call =>
    rw [target_eq]
    exact writes_retire_setX hcwp _ _ _ _

end Sys2Proof.Proofs
end

section
/-! A synchronous trap of Serge with TW 0 (R860), and misaligned accesses, which raise one before any access is made (R833). -/

namespace Sys2Proof.Proofs

open Sys2Proof Sys2Proof.Machine Sys2Proof.Laws

/-- With TW 0 a synchronous trap is entered at its cause's vector. -/
theorem takeTrap_eq_trapped {s : State} (htw : s.serge.tw = false) (cause : Nat) (eval : Word) :
    takeTrap cause eval s = Trapped s cause eval (vectorOf cause) := by
  have hpstat : ({ s.serge with tw := false } : Serge).pstat =
      (if s.serge.priv then 1#32 else 0#32) + (if s.serge.ie then 2#32 else 0#32) + (if s.serge.ct then 8#32 else 0#32) := by
    simp [pstat_eq_sum]
  simp only [takeTrap, htw, Bool.false_eq_true, if_false, State.onSerge, enterTrap, hpstat, Trapped]

section
variable {env : CoreEnv} {s s' : State}

/-- An instruction that issues and raises a trap of the vector 0. -/
theorem issue_trapped (hi : Issues env s s') (htw : s'.serge.tw = false) {g : State → Act Unit} {cause : Nat} {eval : Word}
    (hvec : vectorOf cause = 0) (hg : g s' = .trap cause eval s') : issue env g s = .next (Trapped s' cause eval 0) := by
  rw [issue_trap hi hg, takeTrap_eq_trapped htw, hvec]

/-- A misaligned access is refused before its address is looked at (R833). -/
theorem request_misaligned (kinds : List Access) {a : Word} {n : Nat} (h : a.toNat % n ≠ 0) :
    request kinds a.toNat n s = .trap tALIGN a s := by
  rw [request, if_pos h, loWord, BitVec.ofNat_toNat, BitVec.setWidth_eq]

section
variable (hi : Issues env s s') (htw : s'.serge.tw = false) (rd rs1 : BitVec 5) (imm : BitVec 14)
include hi htw

theorem issue_load_misaligned {n : Nat} (ext : Word → Word) (h : (s'.x rs1 + imm.signExtend 32).toNat % n ≠ 0) :
    issue env (loadOp rd rs1 imm n ext env) s = .next (Trapped s' 0x05 (s'.x rs1 + imm.signExtend 32) 0) :=
  issue_trapped hi htw rfl (by simp only [loadOp, loadAt, ea, request_misaligned _ h, Act.bind]; rfl)

theorem issue_store_misaligned {n : Nat} (h : (s'.x rs1 + imm.signExtend 32).toNat % n ≠ 0) :
    issue env (storeOp rd rs1 imm n env) s = .next (Trapped s' 0x05 (s'.x rs1 + imm.signExtend 32) 0) :=
  issue_trapped hi htw rfl (by simp only [storeOp, storeAt, ea, request_misaligned _ h, Act.bind]; rfl)

omit imm rs1 in
theorem issue_atomic_misaligned {addr : State → Nat} {a : Word} (g : State → Word → Option Word) (ha : addr s' = a.toNat)
    (h : a.toNat % 4 ≠ 0) : issue env (atomicOp rd addr g env) s = .next (Trapped s' 0x05 a 0) :=
  issue_trapped hi htw rfl (by simp only [atomicOp, atomicAt, ha, request_misaligned _ h, Act.bind]; rfl)

end

end

/-- Settles O14. -/
theorem misalignedAccessTraps : Obligations.MisalignedAccessTraps := by
  intro env s s' rd rs1 rs2 imm hi htw
  refine ⟨fun hodd => ⟨?_, ?_, ?_⟩, fun hword => ⟨?_, ?_, ?_⟩, fun hword => issue_atomic_misaligned hi htw rd _ rfl hword⟩
  · exact issue_load_misaligned hi htw rd rs1 imm _ hodd
  · exact issue_load_misaligned hi htw rd rs1 imm _ hodd
  · exact issue_store_misaligned hi htw rd rs1 imm hodd
  · exact issue_load_misaligned hi htw rd rs1 imm _ hword
  · exact issue_store_misaligned hi htw rd rs1 imm hword
  · exact issue_atomic_misaligned hi htw rd _ rfl hword

end Sys2Proof.Proofs
end

section
/-!
Core SRAM as Serge sees it (R837–R842): a byte is that of the latest buffered store that holds it, or else that of memory, so that
performing the oldest store changes no byte that is seen; and what loads, stores and atomics of core SRAM do.
-/

namespace Sys2Proof.Proofs

open Sys2Proof Sys2Proof.Machine Sys2Proof.Laws

/-! ## Core SRAM's place -/

/-- A byte of core SRAM, by its address. -/
theorem inCore_iff {a n : Nat} : inCore a n = true ↔ 0x10000000 ≤ a ∧ a + n ≤ 0x10000000 + 0x200000 := decide_eq_true_iff

section
variable {a : Nat} (h : inCore a 1 = true)
include h

theorem inCore_notPrivate : inPrivate a = false := within_of_notMem (.inl (by have := inCore_iff.mp h; omega))

theorem inCore_notOutbound : inOutbound a = false := within_of_notMem (.inl (by have := inCore_iff.mp h; omega))

theorem inCore_notStripe : inStripe a 1 = false := within_of_notMem (.inl (by have := inCore_iff.mp h; omega))

/-- The cycles of a load from core SRAM (table *Instruction timing*). -/
theorem loadCost_core : loadCost a = 2 := by
  have hmram : inMram a 1 = false := within_of_notMem (.inl (by have := inCore_iff.mp h; omega))
  have hperiph : inPeriph a = false := within_of_notMem (.inl (by have := inCore_iff.mp h; omega))
  simp [loadCost, inCore_notStripe h, hmram, hperiph]

/-- A byte of core SRAM is seen behind the buffered stores, the latest first (R840). -/
theorem byteSeen_core {s : State} {l : List StoreEnt} (hbuf : s.serge.buf = l) : byteSeen s a =
    match l.reverse.find? (fun e => within e.addr e.size a 1) with
    | some e => (le e.size e.data.toNat).getD (a - e.addr) 0
    | none => s.byte a := by
  have hplain : within 0x20001000 0xFFF000 a 1 = false := within_of_notMem (.inl (by have := inCore_iff.mp h; omega))
  simp only [byteSeen, hbuf, hplain, Bool.false_eq_true, if_false] <;> rfl

/-- What is seen of core SRAM depends on the buffer and the memory alone. -/
theorem byteSeen_core_congr {s t : State} (hbuf : t.serge.buf = s.serge.buf) (hmem : t.mem = s.mem) : byteSeen t a = byteSeen s a := by
  rw [byteSeen_core h hbuf, byteSeen_core h rfl, State.byte, hmem]
  rfl

/-- With nothing buffered the memory is seen. -/
theorem byteSeen_core_empty {s : State} (hbuf : s.serge.buf = []) : byteSeen s a = s.byte a := by
  rw [byteSeen_core h hbuf]
  rfl

/-- The latest store is seen first. -/
theorem byteSeen_core_append {s t : State} (e : StoreEnt) (hbuf : t.serge.buf = s.serge.buf ++ [e]) (hmem : t.mem = s.mem) :
    byteSeen t a = if e.addr ≤ a ∧ a < e.addr + e.size then (le e.size e.data.toNat).getD (a - e.addr) 0 else byteSeen s a := by
  have hbyte : t.byte a = s.byte a := by rw [State.byte, hmem]; rfl
  rw [byteSeen_core h hbuf, byteSeen_core h rfl, hbyte, List.reverse_append, List.reverse_singleton, List.singleton_append, List.find?_cons]
  by_cases hin : e.addr ≤ a ∧ a < e.addr + e.size
  · rw [if_pos hin, within_of_mem hin]
  · rw [if_neg hin, within_of_notMem (by omega)]

end

theorem inCore_byte {a n k : Nat} (h : inCore a n = true) (hk : k < n) : inCore (a + k) 1 = true := by
  rw [inCore_iff] at *
  omega

theorem inCore_first {a n : Nat} (h : inCore a n = true) (hn : 0 < n) : inCore a 1 = true := inCore_byte h hn

/-! ## The store buffer drains -/

/-- A store that fails changes no memory. -/
theorem storeErr_mem (kind addr : Nat) (s : State) : (storeErr kind addr s).mem = s.mem := by
  unfold storeErr
  dsimp only
  split <;> rfl

theorem hostStore_mem (s : State) (a : Nat) (bs : Bytes) : (s.hostStore a bs).mem = s.mem := by
  induction bs generalizing s a with
  | nil => rfl
  | cons b bs ih => exact ih { s with hostMem := sset hostDefault s.hostMem a b } (a + 1)

/-- Of Serge, a store that fails changes no more than whether its trap is due. -/
theorem storeErr_serge (kind addr : Nat) (s : State) : ∃ b, (storeErr kind addr s).serge = { s.serge with storeErrTaken := b } := by
  unfold storeErr
  dsimp only
  split
  · exact ⟨s.serge.storeErrTaken, rfl⟩
  · exact ⟨false, rfl⟩

/-- Of Serge, a store that is performed changes no more than that. -/
theorem performStore_serge (e : StoreEnt) (s : State) : ∃ b, (performStore e s).serge = { s.serge with storeErrTaken := b } := by
  unfold performStore
  split
  · split
    · exact ⟨s.serge.storeErrTaken, hostStore_serge ..⟩
    · exact storeErr_serge ..
  · exact ⟨s.serge.storeErrTaken, store_serge ..⟩

/-- What performing a store leaves in core SRAM: its bytes where it reaches, the others as before (R837). -/
theorem performStore_byte_core (e : StoreEnt) (s : State) {a : Nat} (h : inCore a 1 = true) : (performStore e s).byte a =
    if e.addr ≤ a ∧ a < e.addr + e.size then (le e.size e.data.toNat).getD (a - e.addr) 0 else s.byte a := by
  have hcore := inCore_iff.mp h
  unfold performStore
  by_cases hout : inOutbound e.addr = true
  · have haddr : 0x70000000 ≤ e.addr := (of_decide_eq_true hout).1
    have hfar : ¬ (e.addr ≤ a ∧ a < e.addr + e.size) := by omega
    rw [if_pos hout, if_neg hfar]
    split
    · exact congrArg (sget memDefault · a) (hostStore_mem ..)
    · exact congrArg (sget memDefault · a) (storeErr_mem ..)
  · rw [if_neg hout, byte_store, length_leBytes]

/-- The oldest store leaves the buffer. -/
theorem drainOne_serge (s : State) : ∃ b, (drainOne s).serge = { s.serge with buf := s.serge.buf.tail, storeErrTaken := b } := by
  unfold drainOne
  split
  · rename_i hbuf
    exact ⟨s.serge.storeErrTaken, by rw [hbuf, List.tail_nil, ← hbuf]⟩
  · rename_i e q hbuf
    obtain ⟨b, hb⟩ := performStore_serge e (s.onSerge fun c => { c with buf := q })
    exact ⟨b, by rw [hb, hbuf]; rfl⟩

/-- Performing the oldest store changes no byte of core SRAM that Serge sees (R840). -/
theorem byteSeen_drainOne (s : State) {a : Nat} (h : inCore a 1 = true) : byteSeen (drainOne s) a = byteSeen s a := by
  cases hbuf : s.serge.buf with
  | nil => simp only [drainOne, hbuf]
  | cons e q =>
    obtain ⟨b, hserge⟩ := performStore_serge e (s.onSerge fun c => { c with buf := q })
    have hdrain : drainOne s = performStore e (s.onSerge fun c => { c with buf := q }) := by simp only [drainOne, hbuf]
    have hq : (performStore e (s.onSerge fun c => { c with buf := q })).serge.buf = q := by rw [hserge]; rfl
    rw [hdrain, byteSeen_core h hq, byteSeen_core h hbuf, performStore_byte_core _ _ h, List.reverse_cons, List.find?_append]
    cases hfind : q.reverse.find? (fun e => within e.addr e.size a 1) with
    | some _ => rfl
    | none =>
      by_cases hin : e.addr ≤ a ∧ a < e.addr + e.size
      · simp [within_of_mem hin, hin]
      · simp [within_of_notMem (show a < e.addr ∨ e.addr + e.size ≤ a by omega), hin]
        rfl

theorem byteSeen_drainAll (s : State) {a : Nat} (h : inCore a 1 = true) : byteSeen (drainAll s) a = byteSeen s a := by
  simp only [drainAll, byteSeen_drainOne _ h]

/-- A buffer of at most 4 stores is empty after it has drained. -/
theorem drainAll_serge {s : State} (hwf : Core.wf s.serge = true) :
    ∃ b, (drainAll s).serge = { s.serge with buf := [], storeErrTaken := b } := by
  have hlen : s.serge.buf.length ≤ 4 := (of_decide_eq_true hwf).2.2.2.2.2
  obtain ⟨_, h₁⟩ := drainOne_serge s
  obtain ⟨_, h₂⟩ := drainOne_serge (drainOne s)
  obtain ⟨_, h₃⟩ := drainOne_serge (drainOne (drainOne s))
  obtain ⟨b, h₄⟩ := drainOne_serge (drainOne (drainOne (drainOne s)))
  have hempty : s.serge.buf.tail.tail.tail.tail = [] := List.eq_nil_of_length_eq_zero (by simp only [List.length_tail]; omega)
  exact ⟨b, by rw [drainAll, h₄, h₃, h₂, h₁]; simp only [hempty]⟩

/-- Settles O15. -/
theorem drainingIsNotSeen : Obligations.DrainingIsNotSeen := by
  intro t s hacts u hdrain b hcore
  cases (onUnits_acts hacts drainOne).symm.trans hdrain
  rw [byteSeen_drainOne _ hcore]
  exact byteSeen_core_congr hcore rfl rfl

/-! ## Loads -/

theorem wordOf_one (b₀ : Byte) : (wordOf [b₀]).setWidth 8 = b₀ := by
  apply BitVec.eq_of_toNat_eq
  have h₀ := b₀.isLt
  simp only [wordOf, ofLe, List.take, BitVec.toNat_setWidth, BitVec.toNat_ofNat]
  omega

theorem wordOf_two (b₀ b₁ : Byte) : (wordOf [b₀, b₁]).setWidth 16 = b₁ ++ b₀ := by
  apply BitVec.eq_of_toNat_eq
  have h₀ := b₀.isLt
  have h₁ := b₁.isLt
  simp only [wordOf, ofLe, List.take, BitVec.toNat_setWidth, BitVec.toNat_ofNat, toNat_append_byte]
  omega

section
variable {env : CoreEnv} {s s' : State} {a n : Nat} {attr : Attr}

/-- An admitted read of core SRAM returns the bytes as Serge sees them. -/
theorem readTarget_core (hcore : inCore a 1 = true) (hdata : env.data = .ok) :
    readTarget a n env s = .ok (wordOf (bytesSeen s a n)) s.fresh := by
  simp only [readTarget, inCore_notPrivate hcore, hcore, hdata, noteEcc, Bool.false_eq_true, if_false, Bool.true_or, if_true]

/-- A plain load from core SRAM waits for no store (R840). -/
theorem loadAt_core (hcore : inCore a 1 = true) (hdata : env.data = .ok) (hord : attr.ord = 0)
    (hreq : request [.read] a n s = .ok attr s) : loadAt a n env s = .ok (wordOf (bytesSeen s a n)) s.fresh := by
  have hplain : readDrains a attr = false := by simp [readDrains, hcore, hord]
  simp only [loadAt, hreq, Act.bind, hplain, Bool.false_eq_true, if_false, readTarget_core hcore hdata]

/-- A load from core SRAM that issues leaves the extended bytes in `rd`, in 2 cycles. -/
theorem issue_load_core {rd rs1 : BitVec 5} {imm : BitVec 14} {ext : Word → Word} {w : Word} (hwf : Core.wf s'.serge = true)
    (hi : Issues env s s') (hdata : env.data = .ok) (hord : attr.ord = 0) (hn : 0 < n)
    (hcore : inCore (s'.x rs1 + imm.signExtend 32).toNat n = true)
    (hreq : request [.read] (s'.x rs1 + imm.signExtend 32).toNat n s' = .ok attr s')
    (hw : ext (wordOf (bytesSeen s' (s'.x rs1 + imm.signExtend 32).toNat n)) = w) :
    ∃ t, issue env (loadOp rd rs1 imm n ext env) s = .next t ∧ Writes s'.fresh t (s'.serge.pc + 4) 2 rd w := by
  have hfirst := inCore_first hcore hn
  subst hw
  refine ⟨_, issue_ok hi ?_, writes_next_setX (s := s'.fresh) (cwp_lt_of_wf hwf) 2 rd _⟩
  simp only [loadOp, ea, loadAt_core hfirst hdata hord hreq, Act.bind, loadCost_core hfirst]

end

/-- Settles O11, by the width of the access. -/
theorem loadResults : Obligations.LoadResults := by
  intro env s s' rd rs1 imm attr hwf hi hdata hord
  refine ⟨fun hcore hreq => ⟨?_, ?_⟩, fun hcore hreq => ⟨?_, ?_⟩, fun hcore hreq => ?_⟩
  · exact issue_load_core hwf hi hdata hord (by decide) hcore hreq (congrArg (BitVec.signExtend 32) (wordOf_one _))
  · exact issue_load_core hwf hi hdata hord (by decide) hcore hreq (congrArg (BitVec.setWidth 32) (wordOf_one _))
  · exact issue_load_core hwf hi hdata hord (by decide) hcore hreq (congrArg (BitVec.signExtend 32) (wordOf_two _ _))
  · exact issue_load_core hwf hi hdata hord (by decide) hcore hreq (congrArg (BitVec.setWidth 32) (wordOf_two _ _))
  · exact issue_load_core hwf hi hdata hord (by decide) hcore hreq (wordOf_four ..)

/-! ## Stores -/

/-- After an admitted store of core SRAM: it is buffered with B 1, and performed behind the drained buffer with B 0 or ORD 2 (R838, R842). -/
def coreStored (a n : Nat) (w : Word) (attr : Attr) (s : State) : State :=
  if attr.b = true ∧ attr.ord ≠ 2 then bufferStore { addr := a, size := n, data := w, ord := attr.ord } s
  else (drainAll s).store a (le n w.toNat)

section
variable {env : CoreEnv} {s s' : State} {a n : Nat} {attr : Attr}

theorem writeTarget_core (hcore : inCore a 1 = true) (hdata : env.data = .ok) (w : Word) :
    writeTarget a n w attr env s = .ok () (coreStored a n w attr s) := by
  simp only [writeTarget, coreStored, performStore, inCore_notPrivate hcore, inCore_notOutbound hcore, hcore, hdata, Bool.false_eq_true,
    if_false, Bool.true_or, if_true, reduceCtorEq, and_false, Bool.and_eq_true, bne_iff_ne]
  split <;> rfl

/-- A store changes neither the PC nor a register. -/
theorem coreStored_pc_rf (w : Word) : (coreStored a n w attr s).serge.pc = s.serge.pc ∧ (coreStored a n w attr s).serge.rf = s.serge.rf := by
  have hdrain (s : State) : (drainOne s).serge.pc = s.serge.pc ∧ (drainOne s).serge.rf = s.serge.rf := by
    obtain ⟨b, hserge⟩ := drainOne_serge s
    rw [hserge]
    exact ⟨rfl, rfl⟩
  unfold coreStored
  split
  · unfold bufferStore
    dsimp only
    split
    · exact hdrain s
    · exact ⟨rfl, rfl⟩
  · simp only [store_serge, drainAll, hdrain, and_self]

/-- Serge sees the stored bytes, and every other byte as before (R840). -/
theorem seesStore_coreStored (hwf : Core.wf s.serge = true) (w : Word) : SeesStore s (coreStored a n w attr s) a n w := by
  intro c hc
  have hbytes : (if a ≤ c ∧ c < a + n then (le n w.toNat).getD (c - a) 0 else byteSeen s c) =
      if a ≤ c ∧ c < a + n then w.extractLsb' (8 * (c - a)) 8 else byteSeen s c :=
    ite_congr rfl (fun hin => getD_leBytes w (by omega)) fun _ => rfl
  rw [← hbytes]
  unfold coreStored
  split
  · have hroom : byteSeen (if 4 ≤ s.serge.buf.length then drainOne s else s) c = byteSeen s c := by
      split
      · exact byteSeen_drainOne s hc
      · rfl
    rw [← hroom]
    exact byteSeen_core_append hc { addr := a, size := n, data := w, ord := attr.ord } rfl rfl
  · obtain ⟨b, hserge⟩ := drainAll_serge hwf
    have hempty : (drainAll s).serge.buf = [] := by rw [hserge]
    have hstored : ((drainAll s).store a (le n w.toNat)).serge.buf = [] := by rw [store_serge, hempty]
    rw [byteSeen_core_empty hc hstored, byte_store, length_leBytes, ← byteSeen_drainAll s hc, byteSeen_core_empty hc hempty]

/-- A store to core SRAM that issues. -/
theorem issue_store_core {rd rs1 : BitVec 5} {imm : BitVec 14} (hwf : Core.wf s'.serge = true) (hi : Issues env s s')
    (hdata : env.data = .ok) (hn : 0 < n) (hcore : inCore (s'.x rs1 + imm.signExtend 32).toNat n = true)
    (hreq : request [.write] (s'.x rs1 + imm.signExtend 32).toNat n s' = .ok attr s') :
    let t := Retired (coreStored (s'.x rs1 + imm.signExtend 32).toNat n (s'.x rd) attr s') (s'.serge.pc + 4) 1 s'.serge.rf
    issue env (storeOp rd rs1 imm n env) s = .next t ∧ SeesStore s' t (s'.x rs1 + imm.signExtend 32).toNat n (s'.x rd) := by
  obtain ⟨hpc, hrf⟩ := coreStored_pc_rf (a := (s'.x rs1 + imm.signExtend 32).toNat) (n := n) (attr := attr) (s := s') (s'.x rd)
  refine ⟨issue_ok hi ?_, fun c hc => ?_⟩
  · simp only [storeOp, ea, storeAt, hreq, Act.bind, writeTarget_core (inCore_first hcore hn) hdata, next, retire_eq_retired, hpc, hrf]
  · rw [← seesStore_coreStored hwf (s'.x rd) c hc]
    exact byteSeen_core_congr hc rfl rfl

end

/-- Settles O12, by the width of the access. -/
theorem storesAreSeen : Obligations.StoresAreSeen := by
  intro env s s' rd rs1 imm attr hwf hi hdata
  exact ⟨issue_store_core hwf hi hdata (by decide), issue_store_core hwf hi hdata (by decide), issue_store_core hwf hi hdata (by decide)⟩

/-! ## Atomics -/

/-- A byte of four. -/
theorem extractLsb'_four (b : Nat → Byte) {k : Nat} (hk : k < 4) : (b 3 ++ b 2 ++ b 1 ++ b 0).extractLsb' (8 * k) 8 = b k := by
  apply BitVec.eq_of_toNat_eq
  have h₀ := (b 0).isLt
  have h₁ := (b 1).isLt
  have h₂ := (b 2).isLt
  have h₃ := (b 3).isLt
  rw [BitVec.extractLsb'_toNat, Nat.shiftRight_eq_div_pow]
  simp only [toNat_append_byte]
  interval_cases k <;> omega

/-- The word at `a` as Serge sees it. -/
def wordSeen (s : State) (a : Nat) : Word := byteSeen s (a + 3) ++ byteSeen s (a + 2) ++ byteSeen s (a + 1) ++ byteSeen s a

section
variable {env : CoreEnv} {s s' : State} {a : Nat} {attr : Attr}

theorem wordSeen_drainAll (hcore : inCore a 4 = true) : wordSeen (drainAll s) a = wordSeen s a := by
  have hbyte {k : Nat} (hk : k < 4) : byteSeen (drainAll s) (a + k) = byteSeen s (a + k) := byteSeen_drainAll s (inCore_byte hcore hk)
  simp only [wordSeen, hbyte (k := 3) (by decide), hbyte (k := 2) (by decide), hbyte (k := 1) (by decide)]
  rw [byteSeen_drainAll s (inCore_first hcore (by decide))]

/-- A byte of the word that is seen. -/
theorem extractLsb'_wordSeen {c : Nat} (h : a ≤ c ∧ c < a + 4) : (wordSeen s a).extractLsb' (8 * (c - a)) 8 = byteSeen s c := by
  obtain ⟨k, hk, rfl⟩ : ∃ k, k < 4 ∧ c = a + k := ⟨c - a, by omega, by omega⟩
  rw [Nat.add_sub_cancel_left]
  exact extractLsb'_four (fun k => byteSeen s (a + k)) hk

/-- After an atomic's write of core SRAM, where there is one, behind the drained buffer. -/
def atomicStored (a : Nat) (w : Option Word) (s : State) : State :=
  match w with
  | some w => (drainAll s).fresh.store a (le 4 w.toNat)
  | none => (drainAll s).fresh

/-- An atomic of core SRAM returns the old word, and stores what `g` makes of it (R834–R836). -/
theorem atomicAt_core (g : Word → Option Word) (hcore : inCore a 4 = true) (hdata : env.data = .ok)
    (hreq : request [.read, .write] a 4 s = .ok attr s) :
    atomicAt a g env s = .ok (wordSeen s a) (atomicStored a (g (wordSeen s a)) s) := by
  have hold : wordOf (bytesSeen (drainAll s) a 4) = wordSeen s a := (wordOf_four ..).trans (wordSeen_drainAll hcore)
  simp only [atomicAt, hreq, Act.bind, hcore, Bool.true_or, if_true, readTarget_core (inCore_first hcore (by decide)) hdata, hold]
  cases g (wordSeen s a) <;> rfl

theorem atomicStored_serge (hwf : Core.wf s.serge = true) (w : Option Word) :
    ∃ b, (atomicStored a w s).serge = { s.serge with buf := [], storeErrTaken := b } := by
  obtain ⟨b, hserge⟩ := drainAll_serge hwf
  cases w with
  | none => exact ⟨b, hserge⟩
  | some w => exact ⟨b, by rw [atomicStored, store_serge]; exact hserge⟩

/-- Serge sees the word written, or the old one where none was. -/
theorem seesStore_atomicStored (hwf : Core.wf s.serge = true) (w : Option Word) :
    SeesStore s (atomicStored a w s) a 4 (w.getD (wordSeen s a)) := by
  intro c hc
  obtain ⟨b, hserge⟩ := atomicStored_serge (a := a) hwf w
  have hempty : (drainAll s).serge.buf = [] := by
    obtain ⟨_, hdrain⟩ := drainAll_serge hwf
    rw [hdrain]
  have hold : (drainAll s).fresh.byte c = byteSeen s c := by
    rw [← byteSeen_drainAll s hc, byteSeen_core_empty hc hempty]
    rfl
  rw [byteSeen_core_empty hc (by rw [hserge])]
  cases w with
  | none =>
    refine hold.trans ?_
    by_cases hin : a ≤ c ∧ c < a + 4
    · rw [if_pos hin, Option.getD_none, extractLsb'_wordSeen hin]
    · rw [if_neg hin]
  | some w =>
    rw [atomicStored, byte_store, length_leBytes, hold]
    exact ite_congr rfl (fun hin => getD_leBytes w (by omega)) fun _ => rfl

@[simp] theorem setX_buf (c : Serge) (r : BitVec 5) (w : Word) : (c.setX r w).buf = c.buf := by
  unfold Serge.setX; split <;> rfl

/-- An atomic of core SRAM that issues, by what it writes. -/
theorem issue_atomic_core {rd : BitVec 5} {addr : State → Nat} {g : State → Word → Option Word} {w : Option Word}
    (hwf : Core.wf s'.serge = true) (hi : Issues env s s') (hdata : env.data = .ok) (ha : addr s' = a) (hcore : inCore a 4 = true)
    (hreq : request [.read, .write] a 4 s' = .ok attr s') (hg : g s' (wordSeen s' a) = w) :
    ∃ t, issue env (atomicOp rd addr g env) s = .next t ∧ SeesStore s' t a 4 (w.getD (wordSeen s' a)) ∧
      Writes (atomicStored a w s') t (s'.serge.pc + 4) 4 rd (wordSeen s' a) := by
  obtain ⟨b, hserge⟩ := atomicStored_serge (a := a) hwf w
  have hcwp : (atomicStored a w s').serge.cwp < 15 := by
    rw [hserge]
    exact (cwp_lt_of_wf hwf : s'.serge.cwp < 15)
  have hpc : (atomicStored a w s').serge.pc = s'.serge.pc := by rw [hserge]
  refine ⟨next 4 ((atomicStored a w s').setX rd (wordSeen s' a)), issue_ok hi ?_, fun c hc => ?_, ?_⟩
  · simp only [atomicOp, ha, atomicAt_core _ hcore hdata hreq, hg, Act.bind]
  · rw [← seesStore_atomicStored hwf w c hc]
    exact byteSeen_core_congr hc (setX_buf ..) rfl
  · rw [← hpc]
    exact writes_next_setX hcwp 4 rd _

end

/-- Settles O13, by what each writes. -/
theorem atomicResults : Obligations.AtomicResults := by
  intro env s s' rd rs1 rs2 imm attr hwf hi hdata
  refine ⟨fun hcore hreq => ?swap, fun hcore hreq => ⟨fun heq => ?swapped, fun hne => ?kept⟩⟩
  case swap => exact issue_atomic_core (w := some (s'.x rd)) hwf hi hdata rfl hcore hreq rfl
  case swapped => exact issue_atomic_core (w := some (s'.x rd)) hwf hi hdata rfl hcore hreq (if_pos heq)
  case kept => exact issue_atomic_core (w := none) hwf hi hdata rfl hcore hreq (if_neg hne)

end Sys2Proof.Proofs
end

section
/-!
Serge's windows: the register file after ENTER (R796, R801), and the spill of the oldest frame (R795, R797).
-/

namespace Sys2Proof.Proofs

open Sys2Proof Sys2Proof.Machine Sys2Proof.Laws

/-! ## Reading a register by its number -/

/-- A register other than c0 is read at its place. -/
theorem x_ofNat (c : Serge) {n : Nat} (h0 : 0 < n) (h32 : n < 32) : c.x (BitVec.ofNat 5 n) = c.file (c.phys n) := by
  have hn : (BitVec.ofNat 5 n).toNat = n := Nat.mod_eq_of_lt h32
  have hne : BitVec.ofNat 5 n ≠ 0 := fun k => by simp [k] at hn; omega
  rw [Serge.x, if_neg hne, hn]

/-- A c register does not depend on the window. -/
theorem x_c (c : Serge) {n : Nat} (h0 : 0 < n) (h8 : n < 8) : c.x (BitVec.ofNat 5 n) = c.file n := by
  rw [x_ofNat c h0 (by omega), Serge.phys, if_pos h8]

/-- The a registers are the d registers of the window below, but in the trap window those of the current one (R788, R789). -/
theorem x_a (c : Serge) {k : Nat} (h : k < 8) :
    c.x (BitVec.ofNat 5 (8 + k)) = c.file (16 * (if c.tw then c.cwp else (c.cwp + 14) % 15) + 16 + k) := by
  rw [x_ofNat c (by omega) (by omega), Serge.phys, if_neg (by omega), if_pos (by omega)]
  congr 1
  omega

/-- The t registers, and after them the d registers, are the window's own (R788). -/
theorem x_td {c : Serge} (htw : c.tw = false) {k : Nat} (h : k < 16) : c.x (BitVec.ofNat 5 (16 + k)) = c.file (16 * c.cwp + 8 + k) := by
  have hwin : c.win = c.cwp := if_neg (ne_true_of_eq_false htw)
  rw [x_ofNat c (by omega) (by omega), Serge.phys, if_neg (by omega), if_neg (by omega), hwin]
  congr 1
  omega

theorem x_d {c : Serge} (htw : c.tw = false) {k : Nat} (h : k < 8) : c.x (BitVec.ofNat 5 (24 + k)) = c.file (16 * c.cwp + 16 + k) := by
  rw [show 24 + k = 16 + (8 + k) by omega, x_td htw (by omega)]
  congr 1
  omega

theorem x_t7 {c : Serge} (htw : c.tw = false) : c.x 23 = c.file (16 * c.cwp + 15) := x_td htw (k := 7) (by decide)

theorem x_sp (c : Serge) : c.x 7 = c.file 7 := x_c c (n := 7) (by decide) (by decide)

/-! ## The frame that ENTER makes -/

/-- Entries taken out of a map read as unlisted. -/
theorem sget_filter_not {α : Type} (d : Nat → α) (p : Nat → Bool) (m : List (Nat × α)) (i : Nat) :
    sget d (m.filter fun e => !p e.1) i = if p i then d i else sget d m i := by
  induction m with
  | nil => simp [sget]
  | cons e m ih =>
    obtain ⟨j, v⟩ := e
    by_cases hj : p j
    · have hskip : ((j, v) :: m).filter (fun e => !p e.1) = m.filter fun e => !p e.1 := List.filter_cons_of_neg (by simp [hj])
      rw [hskip, ih]
      by_cases hij : i = j
      · simp [hij, hj]
      · simp [sget, hij]
    · have hkeep : ((j, v) :: m).filter (fun e => !p e.1) = (j, v) :: m.filter fun e => !p e.1 := List.filter_cons_of_pos (by simp [hj])
      rw [hkeep]
      simp only [sget, ih]
      by_cases hij : i = j
      · simp [hij, hj]
      · simp [hij]

/-- A cleared window reads 0 (R801). -/
theorem file_clearWindow (v i : Nat) (c : Serge) :
    (clearWindow v c).file i = if 16 * v + 8 ≤ i ∧ i < 16 * v + 24 then 0 else c.file i := by
  rw [Serge.file, clearWindow, sget_filter_not rfDefault (fun k => within (16 * v + 8) 16 k 1)]
  by_cases h : 16 * v + 8 ≤ i ∧ i < 16 * v + 24
  · rw [if_pos (within_of_mem (by omega)), if_pos h]; rfl
  · rw [if_neg (ne_true_of_eq_false (within_of_notMem (by omega))), if_neg h]; rfl

/-- The window above the current one. -/
def above (c : Serge) : Nat := (c.cwp + 1) % 15

/-- Serge in a new frame of `f` bytes (R796, R801). -/
def entered (f : Word) (c : Serge) : Serge :=
  ((clearWindow (above c) { c with cwp := above c, count := c.count + 1 }).setFile (16 * above c + 15) (c.file 7)).setFile 7 (c.file 7 - f)

/-- Nothing but the window, the count of frames and the register file is changed. -/
theorem entered_eq (f : Word) (c : Serge) : entered f c = { c with cwp := above c, count := c.count + 1, rf := (entered f c).rf } := rfl

theorem file_entered_sp (f : Word) (c : Serge) : (entered f c).file 7 = c.file 7 - f := file_setFile_self ..

theorem file_entered_t7 (f : Word) (c : Serge) : (entered f c).file (16 * above c + 15) = c.file 7 := by
  rw [entered, file_setFile_other _ _ (by omega), file_setFile_self]

/-- The rest of the new window reads 0, and every other place as before. -/
theorem file_entered (f : Word) (c : Serge) {i : Nat} (h7 : i ≠ 7) (ht7 : i ≠ 16 * above c + 15) :
    (entered f c).file i = if 16 * above c + 8 ≤ i ∧ i < 16 * above c + 24 then 0 else c.file i := by
  rw [entered, file_setFile_other _ _ h7, file_setFile_other _ _ ht7, file_clearWindow]
  rfl

theorem frameOf_eq (imm : BitVec 14) : frameOf imm = BitVec.ofNat 32 (8 * imm.toNat) := by
  apply BitVec.eq_of_toNat_eq
  have hfits := imm.isLt
  rw [frameOf, BitVec.toNat_shiftLeft, BitVec.toNat_setWidth_of_le (by decide), BitVec.toNat_ofNat, Nat.shiftLeft_eq]
  omega

section
variable {s : State} (f : Word) (limit : Nat)

/-- With a window free, ENTER makes its frame at once. -/
theorem enterOp_free (h : s.serge.count < 14) : enterOp f limit s = .ok false (s.onSerge (entered f)) := by
  simp only [enterOp, if_neg (Nat.ne_of_lt h)]
  rfl

/-- With none free, the oldest frame is spilled first. -/
theorem enterOp_full (h : s.serge.count = 14) :
    enterOp f limit s = (spillOldest limit s).bind fun _ s => .ok true (s.onSerge (entered f)) := by
  simp only [enterOp, if_pos h]
  rfl

end

/-- What an instruction that ends in a normal window of a new frame sees there, in the order of the register fields; a register that no part of
ENTER writes is as before. -/
theorem x_entered {c d : Serge} {f : Word} (hcwp : c.cwp < 15) (htw : d.tw = false) (hwin : d.cwp = above c)
    (hfile : ∀ i, 8 ≤ i → d.file i = (entered f c).file i) :
    (∀ k, k < 8 → d.x (BitVec.ofNat 5 (8 + k)) = c.file (16 * c.cwp + 16 + k)) ∧ (∀ k, k < 7 → d.x (BitVec.ofNat 5 (16 + k)) = 0) ∧
      d.x 23 = c.file 7 ∧ ∀ k, k < 8 → d.x (BitVec.ofNat 5 (24 + k)) = 0 := by
  have hbelow : (above c + 14) % 15 = c.cwp := by unfold above; omega
  have hother : above c ≠ c.cwp := by unfold above; omega
  have hzero {i : Nat} (hlo : 16 * above c + 8 ≤ i) (hhi : i < 16 * above c + 24) (ht7 : i ≠ 16 * above c + 15) : d.file i = 0 := by
    rw [hfile _ (by omega), file_entered _ _ (by omega) ht7, if_pos ⟨hlo, hhi⟩]
  refine ⟨fun k hk => ?_, fun k hk => ?_, ?_, fun k hk => ?_⟩
  · rw [x_a d hk, htw, hwin, if_neg Bool.false_ne_true, hbelow, hfile _ (by omega), file_entered _ _ (by omega) (by omega),
      if_neg (by omega)]
  · rw [x_td htw (by omega), hwin]
    exact hzero (by omega) (by omega) (by omega)
  · rw [x_t7 htw, hwin, hfile _ (by omega)]
    exact file_entered_t7 f c
  · rw [x_d htw hk, hwin]
    exact hzero (by omega) (by omega) (by omega)

/-! ## The spill -/

section
variable {s u : State} {limit : Nat}

/-- Of Serge, a drained buffer changes no more than the buffer and whether the trap of a failed store is due. -/
theorem drainAll_serge_frame (s : State) : ∃ q b, (drainAll s).serge = { s.serge with buf := q, storeErrTaken := b } := by
  obtain ⟨_, h₁⟩ := drainOne_serge s
  obtain ⟨_, h₂⟩ := drainOne_serge (drainOne s)
  obtain ⟨_, h₃⟩ := drainOne_serge (drainOne (drainOne s))
  obtain ⟨b, h₄⟩ := drainOne_serge (drainOne (drainOne (drainOne s)))
  exact ⟨_, b, by rw [drainAll, h₄, h₃, h₂, h₁]⟩

theorem sub32_of_le {a : Nat} (h : 64 ≤ a) (hlt : a < 2 ^ 32) : sub32 a 64 = a - 64 := by
  unfold sub32
  omega

theorem wsp_lt (s : State) : wsp s < 2 ^ 32 := (s.rd rSPILL_WSP).isLt

/-- A spill that its limit admits (R797) stores the oldest frame 64 bytes below WSP. -/
theorem spillOldest_ok (hroom : 64 ≤ wsp s) (hlimit : limit ≤ wsp s - 64) (hacc : spillAccess .write (wsp s - 64) (drainAll s) = .ok () u) :
    spillOldest limit s = .ok () ((spillMem (wsp s - 64) u).onSerge dropOldest) := by
  simp only [spillOldest, sub32_of_le hroom (wsp_lt s), if_neg (Nat.not_lt.mpr hlimit), hacc]

/-- A spill that would pass its limit traps before anything is stored (R797). -/
theorem spillOldest_limit (hroom : 64 ≤ wsp s) (hlimit : wsp s - 64 < limit) :
    spillOldest limit s = .trap tSPILLLIMIT (s.rd rSPILL_WSP) s := by
  simp only [spillOldest, sub32_of_le hroom (wsp_lt s), if_pos hlimit]

/-- Of Serge, the access of a spill or a fill and what it stores leave what a drained buffer leaves. -/
theorem spilled_serge {a : Nat} {kind : Access} (hacc : spillAccess kind a (drainAll s) = .ok () u) :
    ∃ q b, u.serge = { s.serge with buf := q, storeErrTaken := b } := by
  rw [spillAccess_serge hacc]
  exact drainAll_serge_frame s

end

/-! ## ENTER -/

section
variable {env : CoreEnv} {s s' : State} {imm : BitVec 14}

theorem enterInstr_normal (htw : s'.serge.tw = false) : enterInstr imm s' =
    (enterOp (BitVec.ofNat 32 (8 * imm.toNat)) (s'.rd rSPILL_WSL).toNat s').bind fun spilled s => .ok () (next (if spilled then 19 else 1) s) := by
  rw [enterInstr, if_neg (ne_true_of_eq_false htw), frameOf_eq]

end

/-- Where ENTER has spilled a frame, the new one takes its place in the count. -/
theorem next_entered_full {v : State} (f : Word) (hcount : v.serge.count = 14) :
    next 19 ((v.onSerge dropOldest).onSerge (entered f)) =
      Retired (v.onSerge fun c => { c with cwp := (v.serge.cwp + 1) % 15, count := 14, oldest := (v.serge.oldest + 1) % 15 })
        (v.serge.pc + 4) 19 (entered f (dropOldest v.serge)).rf := by
  have hstays : 14 = v.serge.count - 1 + 1 := by omega
  rw [hstays]
  rfl

/-- Settles O18. The spill clause says nothing of the registers: the frame is `entered` of what the spill leaves, as in the first clause. -/
theorem enterResults : Obligations.EnterResults := by
  intro env s s' imm hwf hi htw
  have hcwp := cwp_lt_of_wf hwf
  refine ⟨fun hfree => ?free, fun u hfull hroom hlimit hacc => ?spills, fun hfull hroom hlimit => ?limit⟩
  case free =>
    obtain ⟨ha, ht, ht7, hd⟩ := x_entered (f := BitVec.ofNat 32 (8 * imm.toNat)) (d := entered _ s'.serge) hcwp htw rfl fun _ _ => rfl
    refine ⟨next 1 (s'.onSerge (entered (BitVec.ofNat 32 (8 * imm.toNat)))),
      issue_ok hi (by rw [enterInstr_normal htw, enterOp_free _ _ hfree]; rfl), fun k hk => (ha k hk).trans ?_, ht, ht7, hd,
      file_entered_sp _ _, fun i h7 hout => ?_, rfl⟩
    · exact (x_d htw hk).symm
    · exact (file_entered _ _ h7 (by unfold above; omega)).trans (if_neg (by unfold above; omega))
  case spills =>
    obtain ⟨q, b, hserge⟩ := spilled_serge hacc
    have hspilled : (spillMem (wsp s' - 64) u).serge = { s'.serge with buf := q, storeErrTaken := b } := (spillMem_serge _ u).trans hserge
    have hretires := next_entered_full (v := spillMem (wsp s' - 64) u) (BitVec.ofNat 32 (8 * imm.toNat)) (by rw [hspilled]; exact hfull)
    rw [hspilled] at hretires
    refine ⟨_, Eq.trans ?_ (congrArg Host.Outcome.next hretires)⟩
    refine issue_ok (g := enterInstr imm) hi ?_
    rw [enterInstr_normal htw, enterOp_full _ _ hfull, spillOldest_ok hroom hlimit hacc]
    rfl
  case limit =>
    refine issue_trapped hi htw rfl ?_
    rw [enterInstr_normal htw, enterOp_full _ _ hfull, spillOldest_limit hroom hlimit]
    rfl

end Sys2Proof.Proofs
end

section
/-!
LEAVE (R796): the frame below is resident, or is filled from WSP (R795, R800); and the register file after either.
-/

namespace Sys2Proof.Proofs

open Sys2Proof Sys2Proof.Machine Sys2Proof.Laws

/-! ## The register file after a fill -/

/-- The place of word `k` of the unit of window `v`: a0–a7, which are the d registers of the window below, then t0–t7 (R794). -/
def fillPlace (v k : Nat) : Nat := if k < 8 then 16 * ((v + 14) % 15) + 16 + k else 16 * v + k

/-- Words put into places of the file leave every other place as it was. -/
theorem file_foldl_setFile_other (place : Nat → Nat) {i : Nat} (l : List Word) (n : Nat) (c : Serge)
    (h : ∀ k, k < l.length → i ≠ place (n + k)) : ((l.zipIdx n).foldl (fun c p => c.setFile (place p.2) p.1) c).file i = c.file i := by
  induction l generalizing n c with
  | nil => rfl
  | cons w l ih =>
    have hrest (k : Nat) (hk : k < l.length) : i ≠ place (n + 1 + k) := by
      rw [show n + 1 + k = n + (k + 1) by omega]
      exact h (k + 1) (Nat.succ_lt_succ hk)
    rw [List.zipIdx_cons, List.foldl_cons]
    exact (ih _ _ hrest).trans (file_setFile_other _ _ (h 0 (Nat.zero_lt_succ _)))

/-- A word stands at its place, where no later word has the same. -/
theorem file_foldl_setFile (place : Nat → Nat) (l : List Word) (n : Nat) (c : Serge) {k : Nat} (hk : k < l.length)
    (hplace : ∀ j, k < j → j < l.length → place (n + k) ≠ place (n + j)) :
    ((l.zipIdx n).foldl (fun c p => c.setFile (place p.2) p.1) c).file (place (n + k)) = l.getD k 0 := by
  induction l generalizing n c k with
  | nil => cases hk
  | cons w l ih =>
    have hnext (j : Nat) : n + (j + 1) = n + 1 + j := by omega
    rw [List.zipIdx_cons, List.foldl_cons]
    cases k with
    | zero =>
      rw [file_foldl_setFile_other place l (n + 1) _ fun j hj => ?_]
      · exact file_setFile_self ..
      · rw [← hnext]
        exact hplace (j + 1) (Nat.succ_pos j) (Nat.succ_lt_succ hj)
    | succ k =>
      rw [hnext k, ih (n + 1) _ (Nat.lt_of_succ_lt_succ hk) fun j hj hlen => ?_]
      · simp
      · rw [← hnext, ← hnext]
        exact hplace (j + 1) (Nat.succ_lt_succ hj) (Nat.succ_lt_succ hlen)

/-- A fill changes nothing of Serge but the register file. -/
theorem fillWords_eq (v : Nat) (l : List Word) (c : Serge) : fillWords v l c = { c with rf := (fillWords v l c).rf } := by
  unfold fillWords
  generalize l.zipIdx = ps
  induction ps generalizing c with
  | nil => rfl
  | cons p ps ih => exact ih (c.setFile _ p.1)

section
variable {v : Nat} (hv : v < 15) {l : List Word} (hl : l.length = 16) (c : Serge)
include hv hl

/-- A fill puts each word of the unit at its place. -/
theorem file_fillWords {k : Nat} (hk : k < 16) : (fillWords v l c).file (fillPlace v k) = l.getD k 0 := by
  have h := file_foldl_setFile (fillPlace v) l 0 c (k := k) (by omega) fun j hj hlen => by unfold fillPlace; split_ifs <;> omega
  rwa [Nat.zero_add] at h

omit hv in
/-- It leaves every other place as it was. -/
theorem file_fillWords_other {i : Nat} (h : ∀ k, k < 16 → i ≠ fillPlace v k) : (fillWords v l c).file i = c.file i :=
  file_foldl_setFile_other (fillPlace v) l 0 c fun k hk => by rw [Nat.zero_add]; exact h k (by omega)

end

/-! ## The words of a unit -/

theorem length_wordsOf (n : Nat) (bs : Bytes) : (wordsOf n bs).length = n := by
  induction n generalizing bs with
  | zero => rfl
  | succ n ih => exact congrArg Nat.succ (ih _)

theorem drop_load (s : State) (a k n : Nat) : (s.load a (k + n)).drop k = s.load (a + k) n := by
  induction k generalizing a with
  | zero => rw [Nat.zero_add]; rfl
  | succ k ih =>
    rw [Nat.succ_add_eq_add_succ, show k + n.succ = (k + n) + 1 by omega]
    exact (ih (a + 1)).trans (by rw [show a + 1 + k = a + (k + 1) by omega])

/-- Word `k` of bytes that are loaded. -/
theorem getD_wordsOf_load (s : State) (a : Nat) {n k : Nat} (hk : k < n) :
    (wordsOf n (s.load a (4 * n))).getD k 0 = BitVec.ofNat 32 (ofLe (s.load (a + 4 * k) 4)) := by
  induction n generalizing a k with
  | zero => cases hk
  | succ n ih =>
    cases k with
    | zero => rfl
    | succ k =>
      have hdrop : (s.load a (4 * (n + 1))).drop 4 = s.load (a + 4) (4 * n) := by
        rw [show 4 * (n + 1) = 4 + 4 * n by omega]
        exact drop_load s a 4 _
      rw [wordsOf, hdrop, List.getD_cons_succ, ih (a + 4) (Nat.lt_of_succ_lt_succ hk), show a + 4 + 4 * k = a + 4 * (k + 1) by omega]

/-! ## The frame that LEAVE returns to -/

/-- The window below the current one. -/
def below (c : Serge) : Nat := (c.cwp + 14) % 15

/-- Serge in the frame below: c7 is t7 again (R796). -/
def left (c : Serge) : Serge := { c.setFile 7 (c.file (16 * c.cwp + 15)) with cwp := below c }

theorem left_eq (c : Serge) : left c = { c with cwp := below c, rf := (left c).rf } := rfl

theorem file_left_sp (c : Serge) : (left c).file 7 = c.file (16 * c.cwp + 15) := file_setFile_self ..

theorem file_left (c : Serge) {i : Nat} (h : i ≠ 7) : (left c).file i = c.file i := file_setFile_other _ _ h

section
variable {env : CoreEnv} {s s' u : State}

theorem leaveInstr_normal (htw : s'.serge.tw = false) :
    leaveInstr env s' = (leaveOp env s').bind fun filled s => .ok () (next (if filled then 21 else 1) s) :=
  if_neg (ne_true_of_eq_false htw)

theorem leaveOp_resident (h : 1 < s.serge.count) :
    leaveOp env s = .ok false ((s.onSerge fun c => { c with count := c.count - 1 }).onSerge left) := by
  simp only [leaveOp, if_neg (Nat.ne_of_gt h)]
  rfl

theorem leaveOp_fills (h : s.serge.count = 1) : leaveOp env s = (fillBelow env s).bind fun _ s => .ok true (s.onSerge left) := by
  simp only [leaveOp, if_pos h]
  rfl

theorem add32_of_lt {a : Nat} (h : a + 64 < 2 ^ 32) : add32 a 64 = a + 64 := Nat.mod_eq_of_lt h

/-- `u` once WSP has moved over the 64 bytes at `a` and FILLCNT has counted the fill (R795). -/
def fillCounted (a : Nat) (u : State) : State := (u.wr rSPILL_WSP (BitVec.ofNat 32 (a + 64))).addSat rSPILL_FILLCNT 1

theorem fillCounted_serge (a : Nat) (u : State) : (fillCounted a u).serge = u.serge := rfl

/-- A fill that WSB admits takes the 64 bytes at WSP (R795). -/
theorem fillBelow_ok (hdata : env.data = .ok) (hfits : wsp s + 64 < 2 ^ 32) (hlimit : wsp s + 64 ≤ (s.rd rSPILL_WSB).toNat)
    (hacc : spillAccess .read (wsp s) (drainAll s) = .ok () u) :
    fillBelow env s = .ok () ((fillCounted (wsp s) u).onSerge (takeFrame (wordsOf 16 (u.load (wsp s) 64)))) := by
  simp only [fillBelow, add32_of_lt hfits, if_neg (Nat.not_lt.mpr hlimit), hacc, Act.bind, hdata, noteEcc, reduceCtorEq, if_false]
  rfl

/-- A fill that would pass WSB traps before anything is read (R795). -/
theorem fillBelow_limit (hfits : wsp s + 64 < 2 ^ 32) (hlimit : (s.rd rSPILL_WSB).toNat < wsp s + 64) :
    fillBelow env s = .trap tFILLUNDER (s.rd rSPILL_WSP) s := by
  have hwsp : loWord (wsp s) = s.rd rSPILL_WSP := by rw [loWord, wsp, BitVec.ofNat_toNat, BitVec.setWidth_eq]
  simp only [fillBelow, add32_of_lt hfits, if_pos hlimit, hwsp]

end

/-- Of Serge, the frame that is filled changes the register file and OLDEST alone. -/
theorem takeFrame_eq (l : List Word) (c : Serge) : takeFrame l c = { c with oldest := below c, rf := (takeFrame l c).rf } := by
  rw [takeFrame, fillWords_eq]
  rfl

/-- What LEAVE sees after a fill: the unit in the a and t registers, the old a registers as d registers, and t7 in c7 (R794, R796). -/
theorem x_left_takeFrame {c : Serge} (htw : c.tw = false) {l : List Word} (hl : l.length = 16) :
    (left (takeFrame l c)).x 7 = c.x 23 ∧ ∀ k, k < 8 →
      (left (takeFrame l c)).x (BitVec.ofNat 5 (8 + k)) = l.getD k 0 ∧
      (left (takeFrame l c)).x (BitVec.ofNat 5 (16 + k)) = l.getD (8 + k) 0 ∧
      (left (takeFrame l c)).x (BitVec.ofNat 5 (24 + k)) = c.x (BitVec.ofNat 5 (8 + k)) := by
  have hcwp' : (takeFrame l c).cwp = c.cwp := by rw [takeFrame_eq]
  have htw' : (left (takeFrame l c)).tw = false := by rw [left_eq, takeFrame_eq]; exact htw
  have hwin : (left (takeFrame l c)).cwp = below c := congrArg (fun n => (n + 14) % 15) hcwp'
  have hbelow : below c < 15 ∧ below c ≠ c.cwp ∧ (below c + 14) % 15 ≠ c.cwp := by unfold below; omega
  have hunit {i k : Nat} (hk : k < 16) (hi : i = fillPlace (below c) k) : (left (takeFrame l c)).file i = l.getD k 0 := by
    rw [hi, file_left _ (by unfold fillPlace; split_ifs <;> omega)]
    exact file_fillWords hbelow.1 hl c hk
  have hold {i : Nat} (h : ∀ k, k < 16 → i ≠ fillPlace (below c) k) : (takeFrame l c).file i = c.file i := file_fillWords_other hl c h
  refine ⟨?_, fun k hk => ⟨?_, ?_, ?_⟩⟩
  · rw [x_sp, file_left_sp, hcwp', hold fun k _ => by unfold fillPlace; split_ifs <;> omega, x_t7 htw]
  · rw [x_a _ hk, htw', hwin]
    exact hunit (by omega) (by rw [fillPlace, if_pos hk]; rfl)
  · rw [x_td htw' (by omega), hwin]
    exact hunit (by omega) (by rw [fillPlace, if_neg (by omega), Nat.add_assoc])
  · rw [x_d htw' hk, hwin, file_left _ (by omega), hold fun j _ => by unfold fillPlace; split_ifs <;> omega, x_a c hk, htw]
    rfl

/-- A register after a LEAVE that fills. -/
theorem x_next_left_takeFrame (v : State) (l : List Word) (r : BitVec 5) :
    (next 21 ((v.onSerge (takeFrame l)).onSerge left)).x r = (left (takeFrame l v.serge)).x r := rfl

theorem rf_next_left_takeFrame (v : State) (l : List Word) :
    (next 21 ((v.onSerge (takeFrame l)).onSerge left)).serge.rf = (left (takeFrame l v.serge)).rf := rfl

/-- The state in which a LEAVE that fills retires. -/
theorem next_left_takeFrame (v : State) (l : List Word) :
    next 21 ((v.onSerge (takeFrame l)).onSerge left) =
      Retired (v.onSerge fun c => { c with cwp := below v.serge, oldest := below v.serge }) (v.serge.pc + 4) 21
        (left (takeFrame l v.serge)).rf := by
  have hserge : ((v.onSerge (takeFrame l)).onSerge left).serge =
      { v.serge with cwp := below v.serge, oldest := below v.serge, rf := (left (takeFrame l v.serge)).rf } := by
    show left (takeFrame l v.serge) = _
    rw [left_eq, takeFrame_eq]
    rfl
  rw [next, retire_eq_retired, Retired, hserge]
  rfl

/-- Settles O19. In the fill clause c7 and the a, t and d registers are stated; no other register changes, by `file_fillWords_other`. -/
theorem leaveResults : Obligations.LeaveResults := by
  intro env s s' hwf hi htw
  have hcwp := cwp_lt_of_wf hwf
  refine ⟨fun hresident => ?resident, fun u hlast hdata hfits hlimit hacc => ?fills, fun hlast hfits hlimit => ?limit⟩
  case resident =>
    refine ⟨_, issue_ok (g := leaveInstr env) hi (by rw [leaveInstr_normal htw, leaveOp_resident hresident]; rfl), fun k hk => ?_, ?_,
      fun i h7 => file_left _ h7, rfl⟩
    · refine (x_d (c := left s'.serge) htw hk).trans ?_
      rw [file_left _ (by omega)]
      exact ((x_a s'.serge hk).trans (by rw [htw]; rfl)).symm
    · exact (x_sp _).trans ((file_left_sp _).trans (x_t7 htw).symm)
  case fills =>
    obtain ⟨q, b, hserge⟩ := spilled_serge hacc
    have hx (r : BitVec 5) : u.serge.x r = s'.x r := by rw [hserge]; rfl
    have htw' : u.serge.tw = false := by rw [hserge]; exact htw
    have hexec : exec (.leave env) s =
        .next (next 21 (((fillCounted (wsp s') u).onSerge (takeFrame (wordsOf 16 (u.load (wsp s') 64)))).onSerge left)) := by
      refine issue_ok (g := leaveInstr env) hi ?_
      rw [leaveInstr_normal htw, leaveOp_fills hlast, fillBelow_ok hdata hfits hlimit hacc]
      rfl
    have hlen := length_wordsOf 16 (u.load (wsp s') 64)
    have hword {k : Nat} (hk : k < 16) := getD_wordsOf_load u (wsp s') hk
    generalize wordsOf 16 (u.load (wsp s') 64) = l at hexec hlen hword
    obtain ⟨hsp, hregs⟩ := x_left_takeFrame htw' hlen
    refine ⟨_, hexec, ?_, fun k hk => ?_, (next_left_takeFrame _ l).trans ?_⟩
    · rw [x_next_left_takeFrame, fillCounted_serge, hsp, hx]
    · obtain ⟨ha, ht, hd⟩ := hregs k hk
      rw [x_next_left_takeFrame, x_next_left_takeFrame, x_next_left_takeFrame, fillCounted_serge, ha, ht, hd, hx, hword (by omega),
        hword (by omega), show wsp s' + 4 * (8 + k) = wsp s' + 32 + 4 * k by omega]
      exact ⟨rfl, rfl, rfl⟩
    · have hpc : u.serge.pc = s'.serge.pc := by rw [hserge]
      have hbelow : below u.serge = (s'.serge.cwp + 14) % 15 := by rw [hserge]; rfl
      rw [rf_next_left_takeFrame, fillCounted_serge, hpc, hbelow]
      rfl
  case limit =>
    refine issue_trapped hi htw rfl ?_
    rw [leaveInstr_normal htw, leaveOp_fills hlast, fillBelow_limit hfits hlimit]
    rfl

end Sys2Proof.Proofs
end

section
/-! TDROP (R802, R826), and WFLUSH, which spills every frame but the current one (R804). -/

namespace Sys2Proof.Proofs

open Sys2Proof Sys2Proof.Machine Sys2Proof.Laws

/-! ## TDROP -/

/-- Serge after TDROP has entered its frame: EPC and EPSTAT are in c4 and c5, and TW is 0 (R802). -/
def dropped (f : Word) (c : Serge) : Serge :=
  { ((entered f c).setFile 4 (entered f c).epc).setFile 5 (entered f c).epstat with tw := false }

theorem dropped_eq (f : Word) (c : Serge) :
    dropped f c = { c with cwp := above c, count := c.count + 1, tw := false, rf := (dropped f c).rf } := rfl

theorem file_dropped_c4 (f : Word) (c : Serge) : (dropped f c).file 4 = c.epc := by
  refine (file_setFile_other _ _ (by decide)).trans ((file_setFile_self ..).trans ?_)
  rw [entered_eq]

theorem file_dropped_c5 (f : Word) (c : Serge) : (dropped f c).file 5 = c.epstat := by
  refine (file_setFile_self ..).trans ?_
  rw [entered_eq]

theorem file_dropped (f : Word) (c : Serge) {i : Nat} (h4 : i ≠ 4) (h5 : i ≠ 5) : (dropped f c).file i = (entered f c).file i :=
  (file_setFile_other _ _ h5).trans (file_setFile_other _ _ h4)

/-- What TDROP leaves in the registers: the new frame as after ENTER, the a registers as they were, and the other c registers too. -/
theorem x_dropped (f : Word) {c : Serge} (hcwp : c.cwp < 15) (htw : c.tw = true) :
    (dropped f c).x 4 = c.epc ∧ (dropped f c).x 5 = c.epstat ∧ (dropped f c).x 7 = c.x 7 - f ∧ (dropped f c).x 23 = c.x 7 ∧
      (∀ k, k < 8 → (dropped f c).x (BitVec.ofNat 5 (8 + k)) = c.x (BitVec.ofNat 5 (8 + k))) ∧
      (∀ k, k < 7 → (dropped f c).x (BitVec.ofNat 5 (16 + k)) = 0) ∧ (∀ k, k < 8 → (dropped f c).x (BitVec.ofNat 5 (24 + k)) = 0) ∧
      ∀ n, 0 < n → n < 4 ∨ n = 6 → (dropped f c).x (BitVec.ofNat 5 n) = c.x (BitVec.ofNat 5 n) := by
  obtain ⟨ha, ht, ht7, hd⟩ := x_entered hcwp (f := f) (d := dropped f c) rfl rfl fun i h => file_dropped f c (by omega) (by omega)
  refine ⟨?_, ?_, ?_, ?_, fun k hk => ?_, ht, hd, fun n h0 hn => ?_⟩
  · exact (x_c (dropped f c) (n := 4) (by decide) (by decide)).trans (file_dropped_c4 f c)
  · exact (x_c (dropped f c) (n := 5) (by decide) (by decide)).trans (file_dropped_c5 f c)
  · rw [x_sp, x_sp, file_dropped f c (by decide) (by decide), file_entered_sp]
  · rw [ht7, x_sp]
  · rw [ha k hk, x_a c hk, htw, if_pos rfl]
  · rw [x_c _ h0 (by omega), x_c _ h0 (by omega), file_dropped f c (by omega) (by omega), file_entered f c (by omega) (by omega),
      if_neg (by omega)]

section
variable {env : CoreEnv} {s s' : State} {imm : BitVec 14}

theorem tdropInstr_trapped (htw : s'.serge.tw = true) (hfree : s'.serge.count < 14) :
    tdropInstr imm s' = .ok () (next 2 (s'.onSerge (dropped (BitVec.ofNat 32 (8 * imm.toNat))))) := by
  have hgo : (!s'.serge.tw) = false := by rw [htw]; rfl
  rw [tdropInstr, hgo, if_neg Bool.false_ne_true, frameOf_eq, enterOp_free _ _ hfree]
  rfl

theorem tdropInstr_normal (htw : s'.serge.tw = false) : tdropInstr imm s' = .trap tILLEGAL (encI 0x1D 0 0 2 imm) s' := by
  have hgo : (!s'.serge.tw) = true := by rw [htw]; rfl
  exact if_pos hgo

/-- The word of TDROP. -/
theorem encI_tdrop (imm : BitVec 14) : encI 0x1D 0 0 2 imm = 0x74008000#32 ||| imm.setWidth 32 := by
  have himm : field 13 0 imm.toNat = imm.setWidth 32 := by
    rw [field, Nat.mod_eq_of_lt imm.isLt, Nat.shiftLeft_zero, BitVec.ofNat_toNat]
  rw [encI, himm]
  rfl

/-! ## WFLUSH -/

/-- A spill that goes through takes a frame from the count, and leaves the window, the PC and the registers. -/
theorem spillOldest_frame {limit : Nat} {u : State} (h : spillOldest limit s = .ok () u) :
    u.serge.count = s.serge.count - 1 ∧ u.serge.cwp = s.serge.cwp ∧ u.serge.pc = s.serge.pc ∧ u.serge.rf = s.serge.rf := by
  unfold spillOldest at h
  dsimp only at h
  split at h
  · cases h
  · split at h
    · rename_i v hacc
      obtain ⟨q, b, hserge⟩ := spilled_serge hacc
      rw [← (Act.ok.inj h).2]
      simp only [onSerge_serge, spillMem_serge, hserge, dropOldest, and_self]
    · cases h
    · cases h

/-- WFLUSH of `n` frames at most, from a window of which no more are resident: one is left (R804). -/
theorem flushOp_ok {limit n k k' : Nat} {u : State} (hlow : 1 ≤ s.serge.count) (hfuel : s.serge.count ≤ n + 1)
    (h : flushOp limit n k s = .ok k' u) :
    u.serge.count = 1 ∧ k' = k + (s.serge.count - 1) ∧ u.serge.cwp = s.serge.cwp ∧ u.serge.pc = s.serge.pc ∧ u.serge.rf = s.serge.rf := by
  induction n generalizing s k with
  | zero =>
    cases h
    exact ⟨by omega, by omega, rfl, rfl, rfl⟩
  | succ n ih =>
    rw [flushOp] at h
    by_cases hone : s.serge.count ≤ 1
    · rw [if_pos hone] at h
      cases h
      exact ⟨by omega, by omega, rfl, rfl, rfl⟩
    · rw [if_neg hone] at h
      cases hspill : spillOldest limit s with
      | trap c e t => rw [hspill] at h; cases h
      | noUnit t => rw [hspill] at h; cases h
      | ok _ t =>
        rw [hspill] at h
        obtain ⟨hcount, hcwp, hpc, hrf⟩ := spillOldest_frame hspill
        obtain ⟨h1, hk, hcwp', hpc', hrf'⟩ := ih (by omega) (by omega) h
        exact ⟨h1, by omega, hcwp'.trans hcwp, hpc'.trans hpc, hrf'.trans hrf⟩

theorem wflushInstr_privileged (htw : s'.serge.tw = false) (hpriv : s'.serge.priv = true) :
    wflushInstr s' = (flushOp (s'.rd rSPILL_WSL).toNat 14 0 s').bind fun k s => .ok () (next (1 + 18 * k) s) := by
  have hgo : (!s'.serge.priv) = false := by rw [hpriv]; rfl
  rw [wflushInstr, if_neg (ne_true_of_eq_false htw), hgo, if_neg Bool.false_ne_true]

/-- With one frame resident nothing is spilled. -/
theorem flushOp_one {limit n k : Nat} (h : s.serge.count = 1) : flushOp limit n k s = .ok k s := by
  cases n with
  | zero => rfl
  | succ n => exact if_pos h.le

end

/-- Settles O20. WFLUSH with TW 1, a double fault by its trap (R880), has no clause. -/
theorem tdropAndWflush : Obligations.TdropAndWflush := by
  intro env s s' imm hwf hi
  have hcwp := cwp_lt_of_wf hwf
  refine ⟨fun htw hfree => ?tdrop, fun htw => ?illegal, fun htw hpriv => ⟨fun hone => ?single, fun k u hflush => ?flushes⟩⟩
  case tdrop =>
    obtain ⟨hc4, hc5, hsp, ht7, ha, ht, hd, hc⟩ := x_dropped (BitVec.ofNat 32 (8 * imm.toNat)) hcwp htw
    have hx (r : BitVec 5) : (next 2 (s'.onSerge (dropped (BitVec.ofNat 32 (8 * imm.toNat))))).x r =
        (dropped (BitVec.ofNat 32 (8 * imm.toNat)) s'.serge).x r := rfl
    refine ⟨_, issue_ok (g := tdropInstr imm) hi (tdropInstr_trapped htw hfree), ?_, ?_, ?_, ?_, fun k hk => ⟨?_, ?_⟩, fun k hk => ?_, ?_, ?_,
      ?_, ?_, rfl⟩
    · rw [hx, hc4]
    · rw [hx, hc5]
    · rw [hx, hsp]; rfl
    · rw [hx, ht7]; rfl
    · rw [hx, ha k hk]; rfl
    · rw [hx, hd k hk]
    · rw [hx, ht k hk]
    · exact (hx 1).trans (hc 1 (by decide) (by decide))
    · exact (hx 2).trans (hc 2 (by decide) (by decide))
    · exact (hx 3).trans (hc 3 (by decide) (by decide))
    · exact (hx 6).trans (hc 6 (by decide) (by decide))
  case illegal =>
    rw [← encI_tdrop]
    exact issue_trapped (g := tdropInstr imm) hi htw rfl (tdropInstr_normal htw)
  case single =>
    refine issue_ok (g := wflushInstr) hi ?_
    rw [wflushInstr_privileged htw hpriv, flushOp_one hone]
    rfl
  case flushes =>
    have hcount : 1 ≤ s'.serge.count ∧ s'.serge.count ≤ 14 := by
      obtain ⟨_, _, hlow, hhigh, _⟩ := of_decide_eq_true hwf
      exact ⟨hlow, hhigh⟩
    obtain ⟨h1, hk, hcwp', hpc, hrf⟩ := flushOp_ok hcount.1 (by omega) hflush
    refine ⟨issue_ok (g := wflushInstr) hi ?_, h1, hcwp', by omega⟩
    rw [wflushInstr_privileged htw hpriv, hflush]
    simp only [Act.bind, next, retire_eq_retired, hpc, hrf]

end Sys2Proof.Proofs
end

section
/-!
Traps and system instructions: what a sticky bit's occurrence leaves alone, TRAP and the window double fault (R857, R880), TRET (R815), the traps
of illegal and of privileged instructions (R818, R825, R810), WFI, FENCE and MOVS (R811, R812, R828, R843).
-/

namespace Sys2Proof.Proofs

open Sys2Proof Sys2Proof.Machine Sys2Proof.Laws

/-! ## A sticky bit's occurrence -/

/-- The registers that a diagnostic entry and a NOTIFY count in. -/
def logRegs : List Nat := [rTWEED_DIAGSTAT, rTWEED_DIAGCNT_LO, rTWEED_DIAGCNT_HI, rGING_NOTIFYDROP, rBAR0_NQSTAT]

theorem hostStore_regs (s : State) (a : Nat) (bs : Bytes) : (s.hostStore a bs).regs = s.regs := by
  induction bs generalizing s a with
  | nil => rfl
  | cons b bs ih => exact ih { s with hostMem := sset hostDefault s.hostMem a b } (a + 1)

theorem store_regs (s : State) (a : Nat) (bs : Bytes) : (s.store a bs).regs = s.regs := by
  induction bs generalizing s a with
  | nil => rfl
  | cons b bs ih => exact ih (s.setByte a b) (a + 1)

theorem store_power (s : State) (a : Nat) (bs : Bytes) : (s.store a bs).power = s.power := by
  induction bs generalizing s a with
  | nil => rfl
  | cons b bs ih => exact ih (s.setByte a b) (a + 1)

theorem hostStore_power (s : State) (a : Nat) (bs : Bytes) : (s.hostStore a bs).power = s.power := by
  induction bs generalizing s a with
  | nil => rfl
  | cons b bs ih => exact ih { s with hostMem := sset hostDefault s.hostMem a b } (a + 1)

theorem msix_regs (v : Nat) (s : State) : (msix v s).regs = s.regs := by
  simp only [msix, apply_ite State.regs, hostStore_regs, ite_self]

theorem msix_power (v : Nat) (s : State) : (msix v s).power = s.power := by
  simp only [msix, apply_ite State.power, hostStore_power, ite_self]

section
variable {a : Nat}

theorem diagEntry_rd (e : DiagEntry) (s : State) (ha : a ∉ logRegs) : (diagEntry e s).rd a = s.rd a := by
  obtain ⟨hstat, hlo, hhi, -, -⟩ : a ≠ rTWEED_DIAGSTAT ∧ a ≠ rTWEED_DIAGCNT_LO ∧ a ≠ rTWEED_DIAGCNT_HI ∧ a ≠ rGING_NOTIFYDROP ∧
    a ≠ rBAR0_NQSTAT := by simpa [logRegs] using ha
  unfold diagEntry
  split
  · rfl
  · split
    · rfl
    · rw [diagWrite, State.add64, State.wr64, rd_wr_other _ _ hhi, rd_wr_other _ _ hlo, State.setFld, rd_wr_other _ _ hstat, State.rd,
        store_regs]
      rfl

theorem notify_rd (event arg : Nat) (s : State) (ha : a ∉ logRegs) : (notify event arg s).rd a = s.rd a := by
  obtain ⟨-, -, -, hdrop, hnq⟩ : a ≠ rTWEED_DIAGSTAT ∧ a ≠ rTWEED_DIAGCNT_LO ∧ a ≠ rTWEED_DIAGCNT_HI ∧ a ≠ rGING_NOTIFYDROP ∧
    a ≠ rBAR0_NQSTAT := by simpa [logRegs] using ha
  unfold notify
  split
  · dsimp only
    split
    · rw [State.rd, msix_regs, ← State.rd]
      simp only [State.addSat, State.rd, State.wr, sget_sset_other _ _ _ _ _ hdrop]
    · simp only [State.incFld, State.setFld, State.addSat, State.rd, State.wr, sget_sset_other _ _ _ _ _ hnq, sget_sset_other _ _ _ _ _ hdrop]
  · rfl

/-- A sticky bit's occurrence writes its word, STKNEW and the registers of the log alone. -/
theorem setSticky_rd (n src arg : Nat) (s : State) (ha : a ∉ logRegs) (hword : a ≠ stickyReg n) (hnew : a ≠ rTWEED_STKNEW) :
    (setSticky n src arg s).rd a = s.rd a := by
  unfold setSticky
  split
  · rfl
  · rw [notify_rd _ _ _ ha, diagEntry_rd _ _ ha]
    exact (rd_wr_other _ _ hnew).trans (rd_wr_other _ _ hword)

end

theorem stickyReg_notin_logRegs (n : Nat) (hn : n < 256) : stickyReg n ∉ logRegs ∧ stickyReg n ≠ rTWEED_STKNEW := by
  have hword : n / 32 < 8 := by omega
  unfold stickyReg
  generalize n / 32 = k at hword
  revert k
  decide

/-- After an occurrence the bit stands. -/
theorem setSticky_flag {n : Nat} (hn : n < 256) (src arg : Nat) (s : State) : (setSticky n src arg s).flag (stickyReg n) (n % 32) = true := by
  obtain ⟨hlog, hnew⟩ := stickyReg_notin_logRegs n hn
  have hbit : n % 32 < 32 := Nat.mod_lt _ (by decide)
  unfold setSticky
  split
  · assumption
  · rw [State.flag, notify_rd _ _ _ hlog, diagEntry_rd _ _ hlog, ← State.flag, flag_setFlag_other _ _ hbit (.inl hnew),
      flag_setFlag_self _ _ _ _ hbit]

theorem diagEntry_power (e : DiagEntry) (s : State) : (diagEntry e s).power = s.power := by
  unfold diagEntry
  split
  · rfl
  · split
    · rfl
    · simp only [diagWrite, State.add64, State.wr64, State.setFld, wr_power, store_power]

theorem notify_power (event arg : Nat) (s : State) : (notify event arg s).power = s.power := by
  unfold notify
  split
  · dsimp only
    split
    · simp only [msix_power, State.addSat, wr_power]
    · simp only [State.incFld, State.setFld, State.addSat, wr_power]
  · rfl

theorem setSticky_power (n src arg : Nat) (s : State) : (setSticky n src arg s).power = s.power := by
  unfold setSticky
  split
  · rfl
  · simp only [notify_power, diagEntry_power, State.setFlag, State.setFld, wr_power]

/-! ## The window double fault -/

/-- Outside the last breath, with no reset asserted, a source asserts the full reset (R526). -/
theorem assertReset_first {s : State} (hst : s.power.st ≠ .lastBreath) (hrst : s.power.rst = none) (cause : Nat) :
    assertReset cause s = ((s.setFlag rTWEED_RSTCAUSE 13 false).onPower fun p => { p with rst := some cause, ingest := false }).onSerge
      fun c => { c with halted := true, buf := [] } := by
  simp only [assertReset, if_neg hst, hrst, Option.isSome_none, Bool.false_eq_true, if_false]

/-- The low byte of DFCAUSE is the cause (table *Core fault registers*). -/
theorem toNat_dfcause {cause : Nat} (h : cause < 256) : (field 7 0 cause ||| field 31 31 1).toNat % 256 = cause := by
  have hlow : (field 7 0 cause).toNat % 2 ^ 8 = cause := by
    rw [field, Nat.mod_eq_of_lt (show cause < 2 ^ (7 + 1 - 0) from h), Nat.shiftLeft_zero, BitVec.toNat_ofNat]
    omega
  have hhigh : (field 31 31 1).toNat % 2 ^ 8 = 0 := by decide
  rw [BitVec.toNat_or, show 256 = 2 ^ 8 from rfl, Nat.or_mod_two_pow, hlow, hhigh, Nat.or_zero]

/-- What a double fault leaves (R880, R881). -/
theorem doubleFault_spec {s : State} {cause : Nat} (hcause : cause < 256) (hst : s.power.st ≠ .lastBreath) (hrst : s.power.rst = none) :
    (doubleFault cause s).serge = { s.serge with halted := true, buf := [] } ∧ (doubleFault cause s).power.rst = some 6 ∧
      (doubleFault cause s).rd rCFAULT_DFPC = s.serge.pc ∧ ((doubleFault cause s).rd rCFAULT_DFCAUSE).toNat % 256 = cause ∧
      (doubleFault cause s).flag (rTWEED_STICKY 0) 0 = true := by
  generalize hv : ((s.onSerge fun c => { c with halted := true, buf := [] }).wr rCFAULT_DFPC s.serge.pc).wr rCFAULT_DFCAUSE
    (field 7 0 cause ||| field 31 31 1) = v
  have hdef : doubleFault cause s = assertReset 6 (setSticky 0 0xFF s.serge.pc.toNat v) := by rw [doubleFault, hv]
  have hpower : (setSticky 0 0xFF s.serge.pc.toNat v).power = s.power := by
    rw [setSticky_power, ← hv, wr_power, wr_power, onSerge_power]
  have hserge : (setSticky 0 0xFF s.serge.pc.toNat v).serge = { s.serge with halted := true, buf := [] } := by
    rw [setSticky_serge, ← hv, wr_serge, wr_serge, onSerge_serge]
  have hkeep {a : Nat} (ha : a ≠ rTWEED_RSTCAUSE) :
      (doubleFault cause s).rd a = (setSticky 0 0xFF s.serge.pc.toNat v).rd a := by
    rw [hdef, assertReset_first (by rw [hpower]; exact hst) (by rw [hpower]; exact hrst)]
    exact rd_wr_other _ _ ha
  have hlog {a : Nat} (hlog : a ∉ logRegs) (hword : a ≠ stickyReg 0) (hnew : a ≠ rTWEED_STKNEW) := setSticky_rd 0 0xFF s.serge.pc.toNat v hlog
    hword hnew
  refine ⟨?_, ?_, ?_, ?_, ?_⟩
  · rw [hdef, assertReset_first (by rw [hpower]; exact hst) (by rw [hpower]; exact hrst)]
    simp only [onSerge_serge, onPower_serge, setFlag_serge, hserge]
  · rw [hdef, assertReset_first (by rw [hpower]; exact hst) (by rw [hpower]; exact hrst)]
    rfl
  · rw [hkeep (by decide), hlog (by decide) (by decide) (by decide)]
    rw [← hv, rd_wr_other _ _ (by decide), rd_wr_self]
  · rw [hkeep (by decide), hlog (by decide) (by decide) (by decide)]
    rw [← hv, rd_wr_self]
    exact toNat_dfcause hcause
  · rw [State.flag, hkeep (by decide)]
    exact setSticky_flag (n := 0) (by decide) ..

/-! ## TRAP and TRET -/

section
variable {env : CoreEnv} {s s' : State}

theorem takeTrap_trapWindow (htw : s.serge.tw = true) (cause : Nat) (eval : Word) : takeTrap cause eval s = doubleFault cause s := if_pos htw

theorem tretInstr_privileged (hpriv : s.serge.priv = true) : tretInstr s = .ok () (retire s.serge.epc 3 (s.onSerge trapReturn)) := by
  have hgo : (!s.serge.priv) = false := by rw [hpriv]; rfl
  rw [tretInstr, hgo, if_neg Bool.false_ne_true]

end

/-- Settles O21. That any TRET makes a STOREERR due whose VALID still stands is the model's reading (notes/assumptions/69.md). -/
theorem trapEntryAndReturn : Obligations.TrapEntryAndReturn := by
  intro env s s' imm hi
  refine ⟨fun htw => issue_trapped (g := trapInstr imm) hi htw rfl rfl, fun htw hst hrst => ?doubleFault, fun hpriv => ?tret⟩
  case doubleFault =>
    refine ⟨_, issue_trap (g := trapInstr imm) hi rfl, ?_⟩
    rw [takeTrap_trapWindow htw]
    exact doubleFault_spec (by decide) hst hrst
  case tret => exact issue_ok (g := tretInstr) hi (tretInstr_privileged hpriv)

/-! ## Illegal and privileged instructions -/

section
variable {s : State} {n : BitVec 11} {r : BitVec 5}

theorem movsInstr_unlisted (h : srListed n.toNat = false) : movsInstr n r s = .trap tILLEGAL (encS 0 r 4 n) s := by
  simp [movsInstr, h, illegal]

theorem movgInstr_unlisted (h : srListed n.toNat = false) : movgInstr r n s = .trap tILLEGAL (encS r 0 5 n) s := by
  simp [movgInstr, h, illegal]

/-- A listed register takes a privileged write in 1 cycle, PSTAT in 2 (table *Instruction timing*). -/
theorem movsInstr_listed (h : srListed n.toNat = true) (hpriv : s.serge.priv = true) :
    movsInstr n r s = .ok () (next (if n = 0 then 2 else 1) (srWrite n.toNat (s.x r) s)) := by
  simp [movsInstr, h, hpriv]

section
variable (huser : s.serge.priv = false)
include huser

theorem tretInstr_user : tretInstr s = .trap tPRIV 0xFC000800#32 s := by
  rw [tretInstr, huser]; rfl

theorem wfiInstr_user : wfiInstr s = .trap tPRIV 0xFC001000#32 s := by
  rw [wfiInstr, huser]; rfl

theorem wflushInstr_user (htw : s.serge.tw = false) : wflushInstr s = .trap tPRIV 0xFC003000#32 s := by
  rw [wflushInstr, htw, huser]; rfl

theorem movsInstr_user (h : srListed n.toNat = true) : movsInstr n r s = .trap tPRIV (encS 0 r 4 n) s := by
  simp [movsInstr, h, huser]

/-- The registers below 0x10 are privileged to read, too (table *Special registers*). -/
theorem movgInstr_user (h : srListed n.toNat = true) (hlow : n.toNat < 0x10) : movgInstr r n s = .trap tPRIV (encS r 0 5 n) s := by
  have hmode : srAnyMode n.toNat = false := decide_eq_false (Nat.not_le.mpr hlow)
  simp [movgInstr, h, huser, hmode]

end

end

/-- Settles O22. -/
theorem illegalAndPrivilegedTraps : Obligations.IllegalAndPrivilegedTraps := by
  intro env s s'
  refine ⟨fun w h => if_pos h, fun hi htw => ⟨fun w h => (if_neg (ne_true_of_eq_false h)).trans ?illegal, fun n r h => ⟨?movs, ?movg⟩,
    fun huser => ⟨?tret, ?wfi, ?wflush, fun n r h => ⟨?userMovs, fun hlow => ?userMovg⟩⟩⟩⟩
  case illegal => exact issue_trapped (g := illegal w) hi htw rfl rfl
  case movs => exact issue_trapped (g := movsInstr n r) hi htw rfl (movsInstr_unlisted h)
  case movg => exact issue_trapped (g := movgInstr r n) hi htw rfl (movgInstr_unlisted h)
  case tret => exact issue_trapped (g := tretInstr) hi htw rfl (tretInstr_user huser)
  case wfi => exact issue_trapped (g := wfiInstr) hi htw rfl (wfiInstr_user huser)
  case wflush => exact issue_trapped (g := wflushInstr) hi htw rfl (wflushInstr_user huser htw)
  case userMovs => exact issue_trapped (g := movsInstr n r) hi htw rfl (movsInstr_user huser h)
  case userMovg => exact issue_trapped (g := movgInstr r n) hi htw rfl (movgInstr_user huser h hlow)

/-! ## WFI, FENCE and MOVS -/

theorem wfiInstr_privileged {s : State} (hpriv : s.serge.priv = true) :
    wfiInstr s = .ok () (next 1 (s.onSerge fun c => { c with waiting := true })) := by
  rw [wfiInstr, hpriv]; rfl

/-- FENCE of kinds that are not reserved. -/
theorem fenceInstr_kinds {s : State} {kinds : BitVec 11} (h : kinds.toNat < 8) : fenceInstr kinds s = .ok () (next 1 (drainAll s)) :=
  if_neg (Nat.not_le.mpr h)

/-- The registers of the table that no MOVS changes. -/
theorem readOnly_listed {n : BitVec 11} (h : n ∈ [3#11, 4#11, 8#11, 0x10#11, 0x11#11, 0x12#11, 0x13#11, 0x20#11]) :
    srListed n.toNat = true ∧ n ≠ 0 ∧ n.toNat ∉ [0, 1, 2, 5] := by
  simp only [List.mem_cons, List.not_mem_nil, or_false] at h
  rcases h with rfl | rfl | rfl | rfl | rfl | rfl | rfl | rfl <;> decide

/-- A read-only register ignores its write (R16). -/
theorem srWrite_readOnly {n : Nat} (w : Word) (s : State) (h : n ∉ [0, 1, 2, 5]) : srWrite n w s = s.onSerge id := by
  refine congrArg (State.onSerge · s) (funext fun c => ?_)
  split
  · exact absurd (by decide) h
  · exact absurd (by decide) h
  · exact absurd (by decide) h
  · exact absurd (by decide) h
  · rfl

/-- MOVS that issues, by what it makes of Serge. -/
theorem exec_movs {env : CoreEnv} {s s' : State} (hi : Issues env s s') (hpriv : s'.serge.priv = true) {n : BitVec 11} {r : BitVec 5}
    (h : srListed n.toNat = true) {f : Serge → Serge} (hwrite : srWrite n.toNat (s'.x r) s' = s'.onSerge f)
    (hpc : (f s'.serge).pc = s'.serge.pc) (hrf : (f s'.serge).rf = s'.serge.rf) :
    exec (.movs n r env) s = .next (Retired (s'.onSerge f) (s'.serge.pc + 4) (if n = 0 then 2 else 1) s'.serge.rf) := by
  refine issue_ok (g := movsInstr n r) hi ?_
  rw [movsInstr_listed h hpriv, hwrite, next, retire_eq_retired, onSerge_serge, hpc, hrf]

/-- Settles O23. FENCE of a reserved kind, which raises ILLEGAL (R818), has no clause. -/
theorem systemResults : Obligations.SystemResults := by
  intro env s s' rs1 kinds hwf hi
  refine ⟨fun hkinds => ⟨?fence, ?drained⟩, fun hpriv => ⟨?wfi, ?pstat, ?epc, ?epstat, ?tvec, fun n hn => ?readOnly⟩⟩
  case fence =>
    obtain ⟨b, hserge⟩ := drainAll_serge hwf
    refine issue_ok (g := fenceInstr kinds) hi ?_
    rw [fenceInstr_kinds hkinds, next, retire_eq_retired, hserge]
  case drained =>
    obtain ⟨b, hserge⟩ := drainAll_serge hwf
    rw [hserge]
  case wfi => exact issue_ok (g := wfiInstr) hi (wfiInstr_privileged hpriv)
  case pstat => exact exec_movs (n := 0) hi hpriv rfl rfl rfl rfl
  case epc => exact exec_movs (n := 1) hi hpriv rfl rfl rfl rfl
  case epstat => exact exec_movs (n := 2) hi hpriv rfl rfl rfl rfl
  case tvec => exact exec_movs (n := 5) hi hpriv rfl rfl rfl rfl
  case readOnly =>
    obtain ⟨hlisted, hzero, hwrite⟩ := readOnly_listed hn
    have h := exec_movs hi hpriv hlisted (srWrite_readOnly (s'.x rs1) s' hwrite) rfl rfl
    rwa [if_neg hzero] at h

end Sys2Proof.Proofs
end

section
/-!
Serge's asynchronous traps, interrupt controller, store buffer at a boundary (R837, R859, R864–R868, R881–R883), and the timers and monitors
(R847–R851, R887–R897, R908).
-/

namespace Sys2Proof.Proofs

open Sys2Proof Sys2Proof.Machine Sys2Proof.Laws

section
variable {u : State}

/-! ## Traps at a boundary -/

section
variable (hruns : stalled u = false)
include hruns

theorem nmiRow_due (hnmi : nmiDue u = true) :
    nmiRow u = (u.wr rIC_NMIPEND 0#32).onSerge (enterTrap tNMI (u.rd rIC_NMIPEND)) := by
  simp only [nmiRow, hruns, hnmi, Bool.not_false, Bool.and_self, if_true, takeNmi]

theorem storeErrRow_due (hnmi : nmiDue u = false) (herr : storeErrDue u = true) :
    storeErrRow u = u.onSerge fun c => { enterTrap tSTOREERR (u.rd rCFAULT_SERRADDR) c with storeErrTaken := true } := by
  simp only [storeErrRow, hruns, hnmi, herr, Bool.not_false, Bool.and_self, if_true, takeStoreErr]

theorem interruptRow_due (hnmi : nmiDue u = false) (herr : storeErrDue u = false) {n p : Nat} (hirq : irqDue u = some (n, p)) :
    interruptRow u = (pushLevel n p u).onSerge (enterTrap tINTERRUPT (BitVec.ofNat 32 n)) := by
  simp only [interruptRow, hruns, hnmi, herr, hirq, Bool.or_self, Bool.false_eq_true, if_false, takeIrq]

end

/-- An NMI is taken only where one is due and the core issues instructions. -/
theorem nmiRow_idle (h : stalled u = true ∨ nmiDue u = false) : nmiRow u = u :=
  if_neg (by rcases h with h | h <;> simp [h])

/-- A STOREERR waits for the core to issue instructions, and for an NMI that is due. -/
theorem storeErrRow_idle (h : stalled u = true ∨ nmiDue u = true ∨ storeErrDue u = false) : storeErrRow u = u :=
  if_neg (by rcases h with h | h | h <;> simp [h])

/-- An interrupt waits for the core to issue instructions, and for an NMI or a STOREERR that is due. -/
theorem interruptRow_waits (h : stalled u = true ∨ nmiDue u = true ∨ storeErrDue u = true) : interruptRow u = u :=
  if_pos (by rcases h with h | h | h <;> simp [h])

theorem interruptRow_none (hirq : irqDue u = none) : interruptRow u = u := by
  simp only [interruptRow, hirq, ite_self]

/-! ## The store buffer -/

section
variable {e : StoreEnt} {q : List StoreEnt} (hbuf : u.serge.buf = e :: q)
include hbuf

theorem storeFailure_outbound (hout : inOutbound e.addr = true) :
    storeFailure u = storeErr 1 e.addr (u.onSerge fun c => { c with buf := q }) := by
  simp [storeFailure, hbuf, hout]

theorem storeFailure_narrow (hout : inOutbound e.addr = false) (hsize : e.size < 4) :
    storeFailure u = storeErr 2 e.addr (u.onSerge fun c => { c with buf := q }) := by
  simp [storeFailure, hbuf, hout, Nat.not_le.mpr hsize]

theorem storeFailure_word (hout : inOutbound e.addr = false) (hsize : 4 ≤ e.size) : storeFailure u = u := by
  simp [storeFailure, hbuf, hout, hsize]

theorem drainOne_cons : drainOne u = performStore e (u.onSerge fun c => { c with buf := q }) := by
  simp only [drainOne, hbuf]

end

theorem performStore_inside {e : StoreEnt} (hout : inOutbound e.addr = false) :
    performStore e u = u.store e.addr (le e.size e.data.toNat) :=
  if_neg (ne_true_of_eq_false hout)

theorem performStore_posted {e : StoreEnt} (hout : inOutbound e.addr = true) (hup : outboundUp u = true) :
    performStore e u = u.hostStore (outboundAddr u e.addr) (le e.size e.data.toNat) :=
  (if_pos hout).trans (if_pos hup)

theorem performStore_fails {e : StoreEnt} (hout : inOutbound e.addr = true) (hdown : outboundUp u = false) :
    performStore e u = storeErr 1 e.addr u :=
  (if_pos hout).trans (if_neg (ne_true_of_eq_false hdown))

theorem storeFailure_empty (hbuf : u.serge.buf = []) : storeFailure u = u := by
  simp only [storeFailure, hbuf]

theorem drainOne_empty (hbuf : u.serge.buf = []) : drainOne u = u := by
  simp only [drainOne, hbuf]

/-! ## The interrupt controller -/

theorem eoi_pops {l : Nat} {ls : List Nat} (hlevels : u.serge.levels = l :: ls) :
    eoi u = (u.onSerge fun c => { c with levels := ls, taken := c.taken.drop 1 }).wr rIC_CURLVL (curlvlWord l ls.length) := by
  simp only [eoi, hlevels]

theorem eoi_empty (hlevels : u.serge.levels = []) : eoi u = u := by
  simp only [eoi, hlevels]

theorem swi_software {n : Nat} (b : Bool) (hn : 128 ≤ n) (hlt : n < 256) : swi n b u = u.setFlag (rIC_SRC n) 16 b := if_pos ⟨hn, hlt⟩

theorem swi_hardware {n : Nat} (b : Bool) (hn : n < 128) : swi n b u = u := if_neg fun h => Nat.not_le.mpr hn h.1

end

/-- Settles O52, boundary by boundary in the order of R859. That a STOREERR is taken once until VALID is cleared or a TRET makes it due again is
the model's reading (notes/assumptions/69.md); the statement sees it in `storeErrDue` alone. -/
theorem asynchronousTraps : Obligations.AsynchronousTraps := by
  intro t s hacts
  dsimp only
  have hnmi {v : State} : nmiRow (s.at t) = v → exec (.nmi t) s = .next v := onUnits_acts_eq (g := nmiRow) hacts
  have herr {v : State} : storeErrRow (s.at t) = v → exec (.storeerr t) s = .next v := onUnits_acts_eq (g := storeErrRow) hacts
  have hirq {v : State} : interruptRow (s.at t) = v → exec (.interrupt t) s = .next v := onUnits_acts_eq (g := interruptRow) hacts
  have hfail {v : State} : storeFailure (s.at t) = v → exec (.storeFailure t) s = .next v := onUnits_acts_eq (g := storeFailure) hacts
  have hdrain {v : State} : drainOne (s.at t) = v → exec (.storeBufferDrain t) s = .next v := onUnits_acts_eq (g := drainOne) hacts
  have hset (n : BitVec 8) {v : State} : swi n.toNat true (s.at t) = v → exec (.swiset t n) s = .next v :=
    onUnits_acts_eq (g := swi n.toNat true) hacts
  have hclr (n : BitVec 8) {v : State} : swi n.toNat false (s.at t) = v → exec (.swiclr t n) s = .next v :=
    onUnits_acts_eq (g := swi n.toNat false) hacts
  refine ⟨fun hruns => ⟨fun h => ?nmi, fun hno h => ?storeerr, fun n p hno hok h => ?irq, fun hno hok h => ?noIrq⟩, fun hstalled => ?stalled,
    fun e q hbuf => ?buffered, fun hbuf => ?empty, fun l ls hlevels => ?pops, fun hlevels => ?noLevel,
    fun n => ⟨fun hn => ?software, fun hn => ?hardware⟩⟩
  case nmi => exact ⟨hnmi (nmiRow_due hruns h), herr (storeErrRow_idle (.inr (.inl h))), hirq (interruptRow_waits (.inr (.inl h)))⟩
  case storeerr =>
    exact ⟨herr (storeErrRow_due hruns hno h), hnmi (nmiRow_idle (.inr hno)), hirq (interruptRow_waits (.inr (.inr h)))⟩
  case irq => exact hirq (interruptRow_due hruns hno hok h)
  case noIrq => exact hirq (interruptRow_none h)
  case stalled =>
    exact ⟨hirq (interruptRow_waits (.inl hstalled)), hnmi (nmiRow_idle (.inl hstalled)), herr (storeErrRow_idle (.inl hstalled))⟩
  case buffered =>
    have hperf := drainOne_cons hbuf
    exact ⟨fun hout => hfail (storeFailure_outbound hbuf hout), fun hout hsize => hfail (storeFailure_narrow hbuf hout hsize),
      fun hout hsize => hfail (storeFailure_word hbuf hout hsize), fun hout => hdrain (hperf.trans (performStore_inside hout)),
      fun hout hup => hdrain (hperf.trans (performStore_posted hout hup)),
      fun hout hdown => hdrain (hperf.trans (performStore_fails hout hdown))⟩
  case empty => exact ⟨hfail (storeFailure_empty hbuf), hdrain (drainOne_empty hbuf)⟩
  case pops => exact onUnits_acts_eq (g := eoi) hacts (eoi_pops hlevels)
  case noLevel => exact onUnits_acts_eq (g := eoi) hacts (eoi_empty hlevels)
  case software => exact ⟨hset n (swi_software true hn n.isLt), hclr n (swi_software false hn n.isLt)⟩
  case hardware => exact ⟨hset n (swi_hardware true hn), hclr n (swi_hardware false hn)⟩

section
variable {u : State}

/-! ## Timers -/

section
variable (n : Nat) (w : Word)

/-- An enabling write that finds the timer stopped starts COUNT from LOAD. -/
theorem timerEnable_starts (hstopped : u.flag (rTIMER_CTRL n) 0 = false) :
    timerEnable n w u = (u.wr (rTIMER_CTRL n) (setBit w 0 true &&& 0x0000FF07#32)).wr (rTIMER_COUNT n)
      ((u.wr (rTIMER_CTRL n) (setBit w 0 true &&& 0x0000FF07#32)).rd (rTIMER_LOAD n)) := by
  have hen : bit (setBit w 0 true) 0 = true := bit_setBit_self w 0 true (by decide)
  simp only [timerEnable, timerCtrl, hstopped, hen, and_self, if_true]

theorem timerEnable_runs (hruns : u.flag (rTIMER_CTRL n) 0 = true) :
    timerEnable n w u = u.wr (rTIMER_CTRL n) (setBit w 0 true &&& 0x0000FF07#32) := by
  have hen : bit (setBit w 0 true) 0 = true := bit_setBit_self w 0 true (by decide)
  simp only [timerEnable, timerCtrl, hruns, hen, Bool.true_eq_false, false_and, and_false, if_false]

theorem timerExpiry_stopped (hstopped : u.flag (rTIMER_CTRL n) 0 = false) : timerExpiry n u = u :=
  if_neg (ne_true_of_eq_false hstopped)

theorem timerExpiry_periodic (hruns : u.flag (rTIMER_CTRL n) 0 = true)
    (hperiodic : (u.setFlag (rTIMER_STAT n) 0 true).flag (rTIMER_CTRL n) 1 = true) : timerExpiry n u =
      (u.setFlag (rTIMER_STAT n) 0 true).wr (rTIMER_COUNT n) ((u.setFlag (rTIMER_STAT n) 0 true).rd (rTIMER_LOAD n)) :=
  (if_pos hruns).trans (if_pos hperiodic)

theorem timerExpiry_oneShot (hruns : u.flag (rTIMER_CTRL n) 0 = true)
    (honce : (u.setFlag (rTIMER_STAT n) 0 true).flag (rTIMER_CTRL n) 1 = false) : timerExpiry n u =
      ((u.setFlag (rTIMER_STAT n) 0 true).setFlag (rTIMER_CTRL n) 0 false).wr (rTIMER_COUNT n) 0#32 :=
  (if_pos hruns).trans (if_neg (ne_true_of_eq_false honce))

end

/-! ## The watchdog -/

section
variable (hoff : u.flag rTWEED_WDCTRL 0 = false)
include hoff

theorem wdService_off (v : Nat) : wdService v u = u := if_pos hoff

theorem wdReached_off (num : Nat) : wdReached u num = false := by
  simp only [wdReached, hoff, Bool.false_and]

theorem wdExpiry_off : wdExpiry u = u := if_neg (ne_true_of_eq_false (wdReached_off hoff 4))

theorem wdWarning_off : wdWarning u = u := if_neg (ne_true_of_eq_false (wdReached_off hoff 3))

end

section
variable (hon : u.flag rTWEED_WDCTRL 0 = true)
include hon

theorem wdService_firstKey : wdService 0xA5C3 u = u.onSerge fun c => { c with wdKey := some u.now } := by
  simp only [wdService, hon, Bool.true_eq_false, if_false, if_true]

theorem wdService_wrong {v : Nat} (hfirst : v ≠ 0xA5C3) (hsecond : v ≠ 0x5A3C) :
    wdService v u = wdReset 2 (u.onSerge fun c => { c with wdKey := none }) := by
  simp only [wdService, hon, Bool.true_eq_false, if_false, if_neg hfirst, if_neg hsecond]

section
variable {k : Nat} (hkey : u.serge.wdKey = some k) (hsoon : 3 * (u.now - k) ≤ 320)
include hkey hsoon

theorem wdService_early (hearly : 16 * (u.now - u.serge.wdAt) < u.serge.wdWin * u.serge.wdTimeout * 1000000) :
    wdService 0x5A3C u = wdReset 1 (u.onSerge fun c => { c with wdKey := none }) := by
  simp [wdService, hon, hkey, Nat.not_lt.mpr hsoon, hearly]

theorem wdService_inTime (hopen : u.serge.wdWin * u.serge.wdTimeout * 1000000 ≤ 16 * (u.now - u.serge.wdAt)) :
    wdService 0x5A3C u = (u.onSerge fun c => { c with wdKey := none }).onSerge fun c => { c with
      wdAt := u.now, wdTimeout := u.fld rTWEED_WDCTRL 31 16, wdWin := u.fld rTWEED_WDCTRL 7 4 } := by
  simp [wdService, hon, hkey, Nat.not_lt.mpr hsoon, Nat.not_lt.mpr hopen, State.fld, State.rd, State.onSerge]

end

theorem wdExpiry_due (hdue : 98 * 4 * u.serge.wdTimeout * 1000000 ≤ 400 * (u.now - u.serge.wdAt)) : wdExpiry u = wdReset 0 u := by
  simp only [wdExpiry, wdReached, hon, Bool.true_and, decide_eq_true hdue, if_true]

theorem wdWarning_due (hdue : 98 * 3 * u.serge.wdTimeout * 1000000 ≤ 400 * (u.now - u.serge.wdAt)) :
    wdWarning u = u.setFlag rTWEED_WDSTAT 0 true := by
  simp only [wdWarning, wdReached, hon, Bool.true_and, decide_eq_true hdue, if_true]

end

/-! ## Lockstep and locks -/

/-- The sticky bits of a mismatch: the comparison's, and the register file's where its parity failed. -/
theorem lockstepMismatch_eq (parity : Bool) {w : State}
    (hw : (if parity then setSticky 2 0xFF 0 (setSticky 1 0xFF 0 u) else setSticky 1 0xFF 0 u) = w) :
    lockstepMismatch parity u = assertReset 4 (if w.dying then w else w.onSerge fun c => { c with halted := true, buf := [] }) := by
  simp only [lockstepMismatch, hw]

/-- The write of a region's CFG meets that region's own LOCK. -/
theorem lockRegion_eq {k r : Nat} (hr : r < 32) (w : Word) :
    lockRegion k r w u = if u.flag (rCHK_CFG k r) 1 then u else plainWrite (rCHK_CFG k r) (setBit w 1 true) u := by
  have hchecker : (rCHK_CFG k r - 0x40030000) / 0x1000 = k := by unfold rCHK_CFG; omega
  have hregion : rCHK_CFG k r % 0x1000 < 0x400 := by unfold rCHK_CFG; omega
  have hindex : rCHK_CFG k r % 0x1000 / 0x20 = r := by unfold rCHK_CFG; omega
  simp only [lockRegion, wrChecker, hchecker, hindex, if_pos hregion]

end

/-- Settles O53, command by command. That a service while EN is 0 is ignored, and that time-out and warning may come as soon as a clock at its
limit of 2 % allows, are the model's readings (notes/assumptions/67.md), as is that a mismatch in the last breath halts nothing (R886). -/
theorem timersAndMonitors : Obligations.TimersAndMonitors := by
  intro t s hacts
  dsimp only
  have hservice (v : BitVec 16) {x : State} : wdService v.toNat (s.at t) = x → exec (.wdservice t v) s = .next x :=
    onUnits_acts_eq (g := wdService v.toNat) hacts
  have hexpiry {x : State} : wdExpiry (s.at t) = x → exec (.watchdogTimeout t) s = .next x := onUnits_acts_eq (g := wdExpiry) hacts
  have hwarning {x : State} : wdWarning (s.at t) = x → exec (.watchdogWarning t) s = .next x := onUnits_acts_eq (g := wdWarning) hacts
  refine ⟨fun n w => ⟨fun hstopped => ?starts, fun hruns => ?runs⟩,
    fun n => ⟨fun hstopped => ?stopped, fun hruns hperiodic => ?periodic, fun hruns honce => ?oneShot⟩, ?lowwsp, fun hoff v => ?off,
    fun hon => ⟨?firstKey, fun v hfirst hsecond => ?wrongKey, fun k hkey hsoon => ⟨fun hearly => ?early, fun hopen => ?inTime⟩,
      fun hdue => ?timeout, fun hdue => ?warning⟩,
    fun parity => ⟨fun hlive => ?halts, fun hdying => ?deferred⟩, fun core stripe => ?scrub,
    fun k r w => ⟨fun hlocked => ?locked, fun hopen => ?locks⟩⟩
  case starts => exact onUnits_acts_eq (g := timerEnable n.val w) hacts (timerEnable_starts n.val w hstopped)
  case runs => exact onUnits_acts_eq (g := timerEnable n.val w) hacts (timerEnable_runs n.val w hruns)
  case stopped => exact onUnits_acts_eq (g := timerExpiry n.val) hacts (timerExpiry_stopped n.val hstopped)
  case periodic => exact onUnits_acts_eq (g := timerExpiry n.val) hacts (timerExpiry_periodic n.val hruns hperiodic)
  case oneShot => exact onUnits_acts_eq (g := timerExpiry n.val) hacts (timerExpiry_oneShot n.val hruns honce)
  case lowwsp => exact onUnits_acts hacts lowWspWrite
  case off => exact ⟨hservice v (wdService_off hoff v.toNat), hexpiry (wdExpiry_off hoff), hwarning (wdWarning_off hoff)⟩
  case firstKey => exact hservice 0xA5C3#16 (wdService_firstKey hon)
  case wrongKey =>
    exact hservice v (wdService_wrong hon (fun h => hfirst (BitVec.eq_of_toNat_eq h)) fun h => hsecond (BitVec.eq_of_toNat_eq h))
  case early => exact hservice 0x5A3C#16 (wdService_early hon hkey hsoon hearly)
  case inTime => exact hservice 0x5A3C#16 (wdService_inTime hon hkey hsoon hopen)
  case timeout => exact hexpiry (wdExpiry_due hon hdue)
  case warning => exact hwarning (wdWarning_due hon hdue)
  case halts =>
    exact onUnits_acts_eq (g := lockstepMismatch parity) hacts
      ((lockstepMismatch_eq parity rfl).trans (congrArg _ (if_neg (ne_true_of_eq_false hlive))))
  case deferred =>
    exact onUnits_acts_eq (g := lockstepMismatch parity) hacts ((lockstepMismatch_eq parity rfl).trans (congrArg _ (if_pos hdying)))
  case scrub => exact onUnits_acts hacts (scrub core stripe)
  case locked => exact onUnits_acts_eq (g := lockRegion k.val r.val w) hacts ((lockRegion_eq r.isLt w).trans (if_pos hlocked))
  case locks =>
    exact onUnits_acts_eq (g := lockRegion k.val r.val w) hacts ((lockRegion_eq r.isLt w).trans (if_neg (ne_true_of_eq_false hopen)))

end Sys2Proof.Proofs
end

section
/-!
Tweed's clocks: switching of roots and its outcomes (R922–R928), the monitors (R944–R952), the PLLs (R918, R932, R937, R957, R958), the IRC96
trim (R941–R943), CLKOUT (R939) and the gates (R961–R968). Each lemma takes the command at the device's own instant.
-/

namespace Sys2Proof.Proofs

open Sys2Proof Sys2Proof.Machine Sys2Proof.Laws

section
variable {u : State}

/-! ## Roots -/

/-- ROOTSEL with GO and a source, as ROOTSEL_GO writes it. -/
theorem bits_goWord (n : Fin 4) : bits (field 8 8 1 ||| field 1 0 n.val) 1 0 = n.val ∧ bit (field 8 8 1 ||| field 1 0 n.val) 8 = true := by
  revert n; decide

section
variable {r : Nat} {w : Word} (idle : Bool)

theorem rootSelWrite_busy (hbusy : u.flag (rTWEED_ROOTSEL r) 9 = true) : rootSelWrite r w idle u = u := if_pos hbusy

/-- The roots 6, 7 and 8 keep SRC 0 where protective settings are locked (R928). -/
theorem rootSelWrite_locked (hr : r = 6 ∨ r = 7 ∨ r = 8) (hlocked : u.locked = true) (hsrc : bits w 1 0 ≠ 0) : rootSelWrite r w idle u = u := by
  simp only [rootSelWrite, hr, hlocked, hsrc, ne_eq, not_false_eq_true, and_self, if_true, ite_self]

/-- A switch of root `r` to the source in its SRC field has begun. -/
def rootSwitching (r : Nat) (v : State) : State :=
  (setRoot r (fun x => { x with target := some (v.fld (rTWEED_ROOTSEL r) 1 0), old := rootCur v r }) v).setFlag (rTWEED_ROOTSEL r) 9 true

/-- GO with a legal source, once SRC and the outcome flags are written (`v`): refused for XIN or for a busy block, or a switch. -/
theorem rootSelWrite_go (hfree : u.flag (rTWEED_ROOTSEL r) 9 = false) (hr : r ≤ 5 ∨ 9 ≤ r) (hgo : bit w 8 = true)
    (hlegal : srcLegal r (bits w 1 0) = true) {v : State}
    (hv : (u.wr (rTWEED_ROOTSEL r) (u.rd (rTWEED_ROOTSEL r) &&& ~~~(w &&& 0x1C00#32))).setFld (rTWEED_ROOTSEL r) 1 0 (bits w 1 0) = v) :
    rootSelWrite r w idle u =
      if r ≤ 5 ∧ v.fld (rTWEED_ROOTSEL r) 1 0 = 0 ∧ v.flag rTWEED_CLKSTAT 1 = false then v.setFlag (rTWEED_ROOTSEL r) 11 true
      else if idleNeeded r ∧ idle = false then v.setFlag (rTWEED_ROOTSEL r) 11 true
      else if r ≤ 5 then pllHold r (rootSwitching r v) else rootSwitching r v := by
  have hopen : ¬((r = 6 ∨ r = 7 ∨ r = 8) ∧ u.locked = true ∧ bits w 1 0 ≠ 0) := fun h => by omega
  simp only [rootSelWrite, hfree, if_neg hopen, hlegal, hgo, hv, rootSwitching, Bool.false_eq_true, if_false, if_true, Bool.not_true]

theorem idleNeeded_ge (h : idleNeeded r = true) : 13 ≤ r := by
  have := of_decide_eq_true h
  omega

section
variable {src : Nat} (htarget : (nth u.tweed.roots r).target = some src)
include htarget

theorem rootDone_switched : rootDone r u =
    (setCur r src (((setRoot r (fun x => { x with target := none }) u).setFlag (rTWEED_ROOTSEL r) 9 false).setFlag
      (rTWEED_ROOTSEL r) 10 true)).raise rTWEED_CLKINT 5 := by
  simp only [rootDone, htarget]

/-- The state in which a switch that timed out leaves root `r`, before a source is chosen. -/
theorem rootTimeout_back {w : State}
    (hw : (((setRoot r (fun x => { x with target := none }) u).setFlag (rTWEED_ROOTSEL r) 9 false).setFlag (rTWEED_ROOTSEL r) 12 true).raise
      rTWEED_CLKINT 6 = w) : rootTimeout r true u = setCur r (nth u.tweed.roots r).old w := by
  simp only [rootTimeout, htarget, hw, if_true]

theorem rootTimeout_irc {w : State}
    (hw : (((setRoot r (fun x => { x with target := none }) u).setFlag (rTWEED_ROOTSEL r) 9 false).setFlag (rTWEED_ROOTSEL r) 12 true).raise
      rTWEED_CLKINT 6 = w) : rootTimeout r false u = setSticky 33 8 r (setCur r (ircSrc r) w) := by
  simp only [rootTimeout, htarget, hw, Bool.false_eq_true, if_false]

end

end

/-! ## Monitors -/

section
variable (count : Nat) (ended : Bool) {v : State}

theorem xinWindow_passes (hv : u.setFld rTWEED_MONCNT 15 0 count = v) (hpass : windowFails 96 (xinMHz v) (xinTol v) count ended = false) :
    xinWindow count ended u = v.setFlag rTWEED_CLKSTAT 0 true := by
  simp only [xinWindow, hv, hpass, Bool.false_eq_true, if_false]

/-- A window that fails: XINOK and XINOK1S clear (`w`), the references fall back (`x`), and CLKFAIL is reported where one ran from XIN. -/
theorem xinWindow_fails (hv : u.setFld rTWEED_MONCNT 15 0 count = v) (hfail : windowFails 96 (xinMHz v) (xinTol v) count ended = true)
    {w x : State} (hw : (((v.onTweed fun x => { x with xinGood := v.now }).setFlag rTWEED_CLKSTAT 0 false).setFlag rTWEED_CLKSTAT 1 false).raise
      rTWEED_CLKINT 0 = w) (hx : (List.range 6).foldl (fun s p => refFallback p s) w = x) :
    xinWindow count ended u = if (List.range 6).any (fun p => decide (rootCur w p = 0)) then
      clkFail (setSticky 32 8 0 (x.setFlag rTWEED_CLKSTAT 3 true)) else x := by
  simp only [xinWindow, hv, hfail, hw, hx, if_true]

theorem refclkWindow_fails (hv : u.setFld rTWEED_MONCNT 31 16 count = v)
    (hfail : windowFails (xinMHz v) 100 (v.fld rTWEED_MONTOL 12 8) count ended = true) :
    refclkWindow count ended u = setSticky 34 8 0 ((v.setFlag rTWEED_CLKSTAT 4 true).raise rTWEED_CLKINT 3) := by
  simp only [refclkWindow, hv, hfail, if_true]

theorem refclkWindow_passes (hv : u.setFld rTWEED_MONCNT 31 16 count = v)
    (hpass : windowFails (xinMHz v) 100 (v.fld rTWEED_MONTOL 12 8) count ended = false) :
    refclkWindow count ended u = v.setFlag rTWEED_CLKSTAT 4 false := by
  simp only [refclkWindow, hv, hpass, Bool.false_eq_true, if_false]

end

theorem xinOk1s_sets (hclear : u.flag rTWEED_CLKSTAT 1 = false) (hsecond : u.tweed.xinGood + 1000000000 ≤ u.now) :
    xinOk1s u = ((u.setFlag rTWEED_CLKSTAT 0 true).setFlag rTWEED_CLKSTAT 1 true).raise rTWEED_CLKINT 1 := if_pos ⟨hsecond, hclear⟩

theorem xinOk1s_early (hearly : u.now < u.tweed.xinGood + 1000000000) : xinOk1s u = u := if_neg fun h => Nat.not_le.mpr hearly h.1

/-! ## PLLs -/

section
variable {p : Nat}

section
variable (hparked : u.flag (rTWEED_PLLSTAT p) 3 = true)
include hparked

theorem pllLoss_parked : pllLoss p u = u := if_pos hparked

theorem pllRetry_parked (locked : Bool) : pllRetry p locked u = u := if_pos hparked

theorem pllRefLoss_parked (returned : Bool) : pllRefLoss p returned u = u := if_pos hparked

end

section
variable (hruns : u.flag (rTWEED_PLLSTAT p) 3 = false)
include hruns

theorem pllLoss_moves : pllLoss p u = (rootsOn u p).foldl (fun s r => setCur r (ircSrc r) s)
    (setPll p (fun x => { x with retries := some (x.retries.getD 0), moved := x.moved ++ rootsOn u p })
      ((u.setFlag (rTWEED_PLLSTAT p) 0 false).raise rTWEED_CLKINT 4)) := if_neg (ne_true_of_eq_false hruns)

theorem pllRetry_again {k : Nat} (hretries : (nth u.tweed.plls p).retries = some k) (hk : k < 2) :
    pllRetry p false u = setPll p (fun x => { x with retries := some (k + 1) }) u := by
  simp only [pllRetry, hruns, hretries, hk, Bool.false_eq_true, if_false, if_true]

theorem pllRetry_parks {k : Nat} (hretries : (nth u.tweed.plls p).retries = some k) (hk : 2 ≤ k) :
    pllRetry p false u = clkFail (setSticky 35 8 p
      (((setPll p (fun x => { x with retries := none, moved := [] }) u).setFlag (rTWEED_PLLSTAT p) 3 true).onTweed fun x =>
        { x with parkFail := true })) := by
  simp only [pllRetry, hruns, hretries, Nat.not_lt.mpr hk, Bool.false_eq_true, if_false]

theorem pllRefLoss_holds : pllRefLoss p false u = pllHold p u := by
  simp only [pllRefLoss, hruns, Bool.false_eq_true, if_false]

theorem pllRefLoss_returns : pllRefLoss p true u = pllRetry p true (pllHold p u) := by
  simp only [pllRefLoss, hruns, Bool.false_eq_true, if_false, if_true]

end

theorem sscApply_locked (hp : p = 0 ∨ p = 1 ∨ p = 3 ∨ p = 5) (hlock : u.flag (rTWEED_PLLSTAT p) 0 = true) :
    sscApply p u = setPll p (fun x => { x with ssc := u.rd (rTWEED_SSC p) }) u := if_pos ⟨hp, hlock⟩

theorem sscApply_none (hp : p = 2 ∨ p = 4) : sscApply p u = u := if_neg fun h => by omega

end

/-! ## The IRC96 trim -/

theorem trimWindow_xrtcFails (count : Nat) (hfail : u.felt.xrtcFail = true) : trimWindow count u = u.setFlag rTWEED_IRC96TRIM 16 true :=
  if_pos hfail

section
variable {count : Nat} (hxrtc : u.felt.xrtcFail = false) {v : State} (hv : u.setFlag rTWEED_IRC96TRIM 16 false = v)
include hxrtc hv

/-- Within 0.25 % the code stays, and the window counts as good. -/
theorem trimWindow_good (hlow : 2992500 ≤ count) (hhigh : count ≤ 3007500) :
    trimWindow count u = (v.onTweed fun x => { x with trimGood := min 4 (v.tweed.trimGood + 1) }).setFlag rTWEED_IRC96TRIM 17
      (decide (min 4 (v.tweed.trimGood + 1) = 4)) := by
  have herr : (if count < 3000000 then 3000000 - count else count - 3000000) ≤ 7500 := by split <;> omega
  simp only [trimWindow, hxrtc, hv, Nat.not_lt.mpr herr, herr.trans (by decide : 7500 ≤ 15000), Bool.false_eq_true, if_false, if_true]

/-- More than 0.5 % too fast, the code steps down in frequency and the run of good windows ends. -/
theorem trimWindow_fast (hfast : 3015000 < count) :
    trimWindow count u = ((v.setFld rTWEED_IRC96TRIM 9 0 (if Config.trimUp then v.fld rTWEED_IRC96TRIM 9 0 - 1
      else min 1023 (v.fld rTWEED_IRC96TRIM 9 0 + 1))).onTweed fun x => { x with trimGood := 0 }).setFlag rTWEED_IRC96TRIM 17
        (decide ((0 : Nat) = 4)) := by
  have hslow : ¬ count < 3000000 := by omega
  have herr : 7500 < count - 3000000 ∧ ¬ count - 3000000 ≤ 15000 := by omega
  simp only [trimWindow, hxrtc, hv, hslow, herr, decide_false, Bool.false_eq_true, if_false, if_true]
  cases Config.trimUp <;> rfl

end

/-! ## Gates -/

section
variable {r b : Nat}

theorem gateRequest_locked (idle : Bool) (hlocked : u.locked = true) (hL : ckenLocked r b = true) : gateRequest r b idle u = u :=
  if_pos (.inr (.inr ⟨hlocked, hL⟩))

section
variable (hb : b < ckenBits r) (hlive : u.dying = false)
include hb hlive

theorem gateRequest_open (idle : Bool) (hopen : u.locked = false) {v : State} (hv : u.setFlag (rTWEED_CKEN r) b false = v) :
    gateRequest r b idle u = if v.gated r b then v else if idle then gateClose r b v else v.onTweed fun x => { x with
      gating := if (r, b) ∈ x.gating then x.gating else x.gating ++ [(r, b)] } := by
  simp only [gateRequest, Nat.not_le.mpr hb, hlive, hopen, hv, Bool.false_eq_true, false_and, or_self, if_false]

theorem gateOpen_opens : gateOpen_ r b u = ((u.setFlag (rTWEED_CKEN r) b true).setFlag (rTWEED_GATESTAT r) b false).onTweed fun x =>
    { x with gating := x.gating.filter (· ≠ (r, b)) } := by
  simp only [gateOpen_, Nat.not_le.mpr hb, hlive, Bool.false_eq_true, or_self, if_false]

end

theorem gateTimeout_idle (hidle : (r, b) ∉ u.tweed.gating) : gateTimeout r b u = u := if_neg hidle

theorem gateTimeout_closes (hbusy : (r, b) ∈ u.tweed.gating) {v : State}
    (hv : (((gateClose r b u).wr rTWEED_GATELAST (field 7 0 b ||| field 15 8 r)).onTweed fun x =>
      { x with lost := x.lost ++ [(r, b)] }) = v) :
    gateTimeout r b u = setSticky 36 8 (v.rd rTWEED_GATELAST).toNat (v.raise rTWEED_CLKINT 7) := by
  simp only [gateTimeout, hbusy, hv, if_true]

end

end

/-- Settles O54, command by command. The direction in which the trim code moves IRC96 is a constant of the device (notes/assumptions/55.md); that
a command names whether a block is idle, and that CLKFAIL raises NMI source 0, are the model's readings (notes/assumptions/39.md and 58.md). -/
theorem clocksAndGates : Obligations.ClocksAndGates := by
  intro t s hacts
  dsimp only
  refine ⟨fun r src idle => ?rootsel, fun r src htarget => ?outcome, fun count ended hpass => ?xinPasses, fun count ended hfail => ?xinFails,
    fun hclear => ⟨fun hsecond => ?ok1s, fun hearly => ?early⟩, fun count ended => ⟨fun hfail => ?refFails, fun hpass => ?refPasses⟩,
    fun p => ⟨fun hparked => ?parked, fun hruns => ?pll⟩, fun hfail count => ?xrtcFails,
    fun hxrtc count => ⟨fun hlow hhigh => ?good, fun hfast => ?fast⟩, fun p hp hlock => ?ssc, fun p hp => ?noSsc, fun w => ?pllout,
    fun n w => ?clkout, fun r b hb hlive => ⟨fun hlocked hL idle => ?gateLocked, fun hopen => ⟨fun hgated idle => ?gated, fun hclosed => ?gate⟩,
      ?gateOpens⟩, fun r b => ⟨fun hidle => ?noTimeout, fun hbusy => ?timeout⟩⟩
  case rootsel =>
    obtain ⟨hsrc, hgo⟩ : bits (field 8 8 1 ||| field 1 0 src.toNat) 1 0 = src.toNat ∧ bit (field 8 8 1 ||| field 1 0 src.toNat) 8 = true :=
      bits_goWord src.toFin
    have hwrite {v : State} : rootSelWrite r.val (field 8 8 1 ||| field 1 0 src.toNat) idle (s.at t) = v →
        exec (.rootselGo t r src idle) s = .next v := onUnits_acts_eq (g := rootSelWrite r.val (field 8 8 1 ||| field 1 0 src.toNat) idle) hacts
    refine ⟨fun hbusy => hwrite (rootSelWrite_busy idle hbusy), fun hr _ hlocked hne => ?locked, fun hfree hlegal => ?go⟩
    case locked => exact hwrite (rootSelWrite_locked idle (.inl hr) hlocked fun h => hne (BitVec.eq_of_toNat_eq (hsrc.symm.trans h)))
    case go =>
      refine ⟨fun hr hidle => ?switches, fun hneeds hbusy => ?busy, fun hr hxin hbad => ?noXin, fun hr hgood => ?reference⟩
      case switches =>
        have hready : ¬(idleNeeded r.val = true ∧ idle = false) := fun h => by simp [h] at hidle
        exact hwrite ((rootSelWrite_go idle hfree (.inr hr) hgo hlegal rfl).trans
          ((if_neg fun h => by omega).trans ((if_neg hready).trans (if_neg (by omega)))))
      case busy =>
        have hr := idleNeeded_ge hneeds
        exact hwrite ((rootSelWrite_go idle hfree (.inr (by omega)) hgo hlegal rfl).trans
          ((if_neg fun h => by omega).trans (if_pos ⟨hneeds, hbusy⟩)))
      case noXin => exact hwrite ((rootSelWrite_go idle hfree (.inl hr) hgo hlegal rfl).trans (if_pos ⟨hr, hxin, hbad⟩))
      case reference =>
        have hready : ¬(idleNeeded r.val = true ∧ idle = false) := fun h => by have := idleNeeded_ge h.1; omega
        exact hwrite ((rootSelWrite_go idle hfree (.inl hr) hgo hlegal rfl).trans
          ((if_neg fun h => Bool.noConfusion (hgood.symm.trans h.2.2)).trans ((if_neg hready).trans (if_pos hr))))
  case outcome =>
    exact ⟨onUnits_acts_eq (g := rootDone r.val) hacts (rootDone_switched htarget),
      onUnits_acts_eq (g := rootTimeout r.val true) hacts (rootTimeout_back htarget rfl),
      onUnits_acts_eq (g := rootTimeout r.val false) hacts (rootTimeout_irc htarget rfl)⟩
  case xinPasses => exact onUnits_acts_eq (g := xinWindow count ended) hacts (xinWindow_passes count ended rfl hpass)
  case xinFails =>
    have hwindow := xinWindow_fails count ended rfl hfail rfl rfl
    exact ⟨fun hmoves => onUnits_acts_eq (g := xinWindow count ended) hacts (hwindow.trans (if_pos hmoves)),
      fun hstays => onUnits_acts_eq (g := xinWindow count ended) hacts (hwindow.trans (if_neg (ne_true_of_eq_false hstays)))⟩
  case ok1s => exact onUnits_acts_eq (g := xinOk1s) hacts (xinOk1s_sets hclear hsecond)
  case early => exact onUnits_acts_eq (g := xinOk1s) hacts (xinOk1s_early hearly)
  case refFails => exact onUnits_acts_eq (g := refclkWindow count ended) hacts (refclkWindow_fails count ended rfl hfail)
  case refPasses => exact onUnits_acts_eq (g := refclkWindow count ended) hacts (refclkWindow_passes count ended rfl hpass)
  case parked =>
    exact ⟨onUnits_acts_eq (g := pllLoss p.val) hacts (pllLoss_parked hparked),
      onUnits_acts_eq (g := pllRetry p.val true) hacts (pllRetry_parked hparked true),
      onUnits_acts_eq (g := pllRefLoss p.val true) hacts (pllRefLoss_parked hparked true)⟩
  case pll =>
    exact ⟨onUnits_acts_eq (g := pllLoss p.val) hacts (pllLoss_moves hruns), fun k hretries =>
      ⟨fun hk => onUnits_acts_eq (g := pllRetry p.val false) hacts (pllRetry_again hruns hretries hk),
        fun hk => onUnits_acts_eq (g := pllRetry p.val false) hacts (pllRetry_parks hruns hretries hk)⟩,
      onUnits_acts_eq (g := pllRefLoss p.val false) hacts (pllRefLoss_holds hruns),
      onUnits_acts_eq (g := pllRefLoss p.val true) hacts (pllRefLoss_returns hruns)⟩
  case xrtcFails => exact onUnits_acts_eq (g := trimWindow count) hacts (trimWindow_xrtcFails count hfail)
  case good => exact onUnits_acts_eq (g := trimWindow count) hacts (trimWindow_good hxrtc rfl hlow hhigh)
  case fast => exact onUnits_acts_eq (g := trimWindow count) hacts (trimWindow_fast hxrtc rfl hfast)
  case ssc => exact onUnits_acts_eq (g := sscApply p.val) hacts (sscApply_locked hp hlock)
  case noSsc => exact onUnits_acts_eq (g := sscApply p.val) hacts (sscApply_none hp)
  case pllout => exact onUnits_acts hacts (pllOutWrite w)
  case clkout => exact onUnits_acts hacts (clkoutWrite n.val w)
  case gateLocked => exact onUnits_acts_eq (g := gateRequest r.val b.val idle) hacts (gateRequest_locked idle hlocked hL)
  case gated =>
    exact onUnits_acts_eq (g := gateRequest r.val b.val idle) hacts ((gateRequest_open hb hlive idle hopen rfl).trans (if_pos hgated))
  case gate =>
    have hrequest (idle : Bool) := (gateRequest_open hb hlive idle hopen rfl).trans (if_neg (ne_true_of_eq_false hclosed))
    exact ⟨onUnits_acts_eq (g := gateRequest r.val b.val true) hacts ((hrequest true).trans (if_pos rfl)),
      onUnits_acts_eq (g := gateRequest r.val b.val false) hacts ((hrequest false).trans (if_neg Bool.false_ne_true))⟩
  case gateOpens => exact onUnits_acts_eq (g := gateOpen_ r.val b.val) hacts (gateOpen_opens hb hlive)
  case noTimeout => exact onUnits_acts_eq (g := gateTimeout r.val b.val) hacts (gateTimeout_idle hidle)
  case timeout => exact onUnits_acts_eq (g := gateTimeout r.val b.val) hacts (gateTimeout_closes hbusy rfl)

end Sys2Proof.Proofs
end

section
/-!
The vault's time: XRTC's cycle and the alarm (R973–R980), the PPS discipline (R982–R989), the leap second (R991), SET_TIME (R992–R995) and the
posted writes (R1029). Each lemma takes the command at the device's own instant.
-/

namespace Sys2Proof.Proofs

open Sys2Proof Sys2Proof.Machine Sys2Proof.Laws

section
variable {u : State}

/-! ## XRTC's cycle -/

/-- Shadows that hold their registers' complements pass the comparison (R1021). -/
theorem shadowCheck_agreeing (hagree : ∀ a ∈ rwsRegs, u.rd (a + 4) = ~~~ (u.rd a)) : shadowCheck u = u := by
  have hfold : ∀ l : List Nat, (∀ a ∈ l, u.rd (a + 4) = ~~~ (u.rd a)) →
      l.foldl (fun s a => if s.rd (a + 4) = ~~~ (s.rd a) then s else shadowMismatch a s) u = u := by
    intro l
    induction l with
    | nil => exact fun _ => rfl
    | cons a l ih =>
      intro hl
      rw [List.foldl_cons, if_pos (hl a List.mem_cons_self)]
      exact ih fun b hb => hl b (List.mem_cons_of_mem a hb)
  exact hfold rwsRegs hagree

theorem leapSecond_none (hleap : u.sfld rFELT_LEAP 16 = 0) : leapSecond u = u := if_pos hleap

theorem leapSecond_due (hleap : u.sfld rFELT_LEAP 16 ≠ 0) {v : State}
    (hv : (u.wr64 rFELT_UTCOFF_LO rFELT_UTCOFF_HI (unsigned 64 (signed 64 (u.rd64 rFELT_UTCOFF_LO rFELT_UTCOFF_HI) -
      u.sfld rFELT_LEAP 16 * 2 ^ 24))).wr rFELT_LEAP 0#32 = v) : leapSecond u = if v.mainOn then timemap v else v := by
  simp only [leapSecond, hleap, hv, if_false]

theorem xrtcCycle_off (hoff : u.power.st = .off) : xrtcCycle u = u := if_pos hoff

/-- A cycle in which no leap second is due and every shadow agrees: ADJ for the cycle (`v`), SUB and EVT moved on by the adjusted rate (`w`),
RTC counted and its alarm compared unless XRTC has failed (`x`). -/
theorem xrtcCycle_plain (hon : u.power.st ≠ .off) {v w x : State} (hv : adjCycle u = v)
    (hw : (v.onFelt fun f => { f with
      sub := v.felt.sub + ((if v.felt.xrtcFail then 524 else 512) * 2 ^ 16 + adjOf v).toNat
      evt := max f.evt ((v.felt.sub + ((if v.felt.xrtcFail then 524 else 512) * 2 ^ 16 + adjOf v).toNat) / 2 ^ 16) }) = w)
    (hx : (if w.felt.xrtcFail then w else alarm (w.onFelt fun f => { f with rtc := (f.rtc + 1) % 2 ^ 48 })) = x)
    (hleap : x.sfld rFELT_LEAP 16 = 0) (hagree : ∀ a ∈ rwsRegs, x.rd (a + 4) = ~~~ (x.rd a)) : xrtcCycle u = x := by
  have hbase : (if v.felt.xrtcFail then 524 * 2 ^ 16 else 512 * 2 ^ 16 : Int) = (if v.felt.xrtcFail then 524 else 512) * 2 ^ 16 :=
    (ite_mul ..).symm
  simp only [xrtcCycle, if_neg hon, hv, hbase, hw, hx, leapSecond_none hleap, ite_self, shadowCheck_agreeing hagree]

theorem alarm_due (hen : u.flag rFELT_ALARM_HI 31 = true)
    (hrtc : u.felt.rtc = (u.rd rFELT_ALARM_LO).toNat + 2 ^ 32 * u.fld rFELT_ALARM_HI 15 0) : alarm u = u.raise rFELT_FINTSTAT 3 :=
  if_pos ⟨hen, hrtc⟩

theorem alarm_other (hrtc : u.felt.rtc ≠ (u.rd rFELT_ALARM_LO).toNat + 2 ^ 32 * u.fld rFELT_ALARM_HI 15 0) : alarm u = u :=
  if_neg fun h => hrtc h.2

theorem alarm_disabled (hoff : u.flag rFELT_ALARM_HI 31 = false) : alarm u = u := if_neg fun h => ne_true_of_eq_false hoff h.1

/-! ## PPS -/

section
variable {cap : Nat}

theorem ppsEdge_disabled (hoff : u.flag rFELT_PPSCFG 0 = false) : ppsEdge cap u = u := if_pos (.inl hoff)

/-- The capture itself leaves the vault alone. -/
theorem ppsErr_felt {v : State} (hv : (u.wr rFELT_PPSERR (loWord (unsigned 32 (ppsErr cap)))).raise rFELT_FINTSTAT 4 = v) :
    v.felt = u.felt := by
  rw [← hv, State.raise, State.setFlag, State.setFld, wr_felt, wr_felt]

section
variable (hen : u.flag rFELT_PPSCFG 0 = true) (hmain : u.mainOn = true) {v : State}
  (hv : (u.wr rFELT_PPSERR (loWord (unsigned 32 (ppsErr cap)))).raise rFELT_FINTSTAT 4 = v)
include hen hmain hv

/-- A captured edge does nothing more while a step is absorbed, disciplines the clock within the window, or is an outlier. -/
theorem ppsEdge_captured : ppsEdge cap u = if v.felt.slewRem ≠ 0 then v
    else if (ppsErr cap).natAbs ≤ v.fld rFELT_PPSCFG 23 16 * 10000 ∧ ppsSpaced cap v = true then
      ppsLock (ppsAdjust (ppsErr cap) (v.onFelt fun f => { f with
        ppsRun := f.ppsRun + 1, ppsAt := some cap, outliers := [], adjHeld := false, adjUntil := f.evt + 2 ^ 24 }))
    else ppsOutlier (ppsErr cap) v := by
  simp only [ppsEdge, hen, hmain, hv, Bool.true_eq_false, or_self, if_false]

theorem ppsEdge_slewing (hslew : u.felt.slewRem ≠ 0) : ppsEdge cap u = v := by
  have hfelt : v.felt = u.felt := ppsErr_felt hv
  rw [ppsEdge_captured hen hmain hv, hfelt, if_pos hslew]

section
variable (hslew : u.felt.slewRem = 0)
include hslew

theorem ppsEdge_first (hfirst : u.felt.ppsAt = none) (hwindow : (ppsErr cap).natAbs ≤ v.fld rFELT_PPSCFG 23 16 * 10000) :
    ppsEdge cap u = ppsLock (ppsAdjust (ppsErr cap) (v.onFelt fun f => { f with
      ppsRun := f.ppsRun + 1, ppsAt := some cap, outliers := [], adjHeld := false, adjUntil := f.evt + 2 ^ 24 })) := by
  have hfelt : v.felt = u.felt := ppsErr_felt hv
  have hspaced : ppsSpaced cap v = true := by simp only [ppsSpaced, hfelt, hfirst]
  rw [ppsEdge_captured hen hmain hv, hfelt, if_neg (not_not_intro hslew), if_pos ⟨hwindow, hspaced⟩]

theorem ppsEdge_outside (hwindow : v.fld rFELT_PPSCFG 23 16 * 10000 < (ppsErr cap).natAbs) : ppsEdge cap u = ppsOutlier (ppsErr cap) v := by
  have hfelt : v.felt = u.felt := ppsErr_felt hv
  rw [ppsEdge_captured hen hmain hv, hfelt, if_neg (not_not_intro hslew), if_neg fun h => Nat.not_le.mpr hwindow h.1]

end

end

end

theorem ppsLoss_lost (hlocked : u.fld rFELT_FSTAT 10 8 = 1)
    (hlate : u.felt.ppsAt.getD 0 + u.fld rFELT_PPSCFG 31 24 * 1000000000 ≤ evtNs u.felt.evt) :
    ppsLoss u = setDisc 3 (u.onFelt fun f => { f with ppsRun := 0 }) := if_pos ⟨hlocked, hlate⟩

theorem ppsLoss_early (hearly : evtNs u.felt.evt < u.felt.ppsAt.getD 0 + u.fld rFELT_PPSCFG 31 24 * 1000000000) : ppsLoss u = u :=
  if_neg fun h => Nat.not_le.mpr hearly h.2

/-! ## SET_TIME -/

section
variable (d : Bytes) (princ : Nat)

theorem procRow_setTime : procRow (okey 0x8001 0) princ d {} u = wrapUp (procAtOnce (okey 0x8001 0) princ (setTime d u)).2 := rfl

theorem procRow_setTime_refused (hbad : setTimeCheck u d ≠ aOK) : procRow (okey 0x8001 0) princ d {} u = wrapUp u := by
  have hset : setTime d u = (setTimeCheck u d, u) := if_pos hbad
  rw [procRow_setTime, hset, procAtOnce, if_neg hbad]

/-- A request that passes its checks is answered OK. -/
theorem setTime_code (hgood : setTimeCheck u d = aOK) : (setTime d u).1 = aOK := by
  rw [setTime, if_neg (not_not_intro hgood)]

theorem procRow_setTime_runs (hgood : setTimeCheck u d = aOK) :
    procRow (okey 0x8001 0) princ d {} u = wrapUp (procRan (okey 0x8001 0) princ aOK (setTime d u).2) := by
  rw [procRow_setTime, procAtOnce, if_pos (setTime_code d hgood)]

end

/-! ## Posted writes -/

theorem feltLand_switching (h : u.now < u.felt.switchEnd) : feltLand u = u := if_pos (decide_eq_true h)

theorem feltLand_lands (hsteady : u.felt.switchEnd ≤ u.now) {a : Nat} {w : Word} {q : List (Nat × Word)} (hqueue : u.felt.queue = (a, w) :: q) :
    feltLand u = feltApply a w (u.onFelt fun f => { f with queue := q }) := by
  have hdone : u.switching = false := decide_eq_false (Nat.not_lt.mpr hsteady)
  simp only [feltLand, hdone, Bool.false_eq_true, if_false, feltPop, hqueue]

end

/-- Settles O55, command by command. That with no accepted edge before it the window alone decides of a PPS edge, and that a cycle is one of
IRC32K while XRTC has failed, are the model's readings (notes/assumptions/18.md and 57.md). -/
theorem vaultTime : Obligations.VaultTime := by
  intro t s
  dsimp only
  refine ⟨fun hoff => ?off, fun hon hleap hagree => ?cycle, fun hen => ⟨fun hrtc => ?alarm, fun hrtc => ?noAlarm⟩, fun hoff => ?alarmOff,
    fun cap => ⟨fun hoff => ?ppsOff, fun hen hmain hslew => ?slewing, fun hen hmain hslew hfirst => ⟨fun hwindow => ?first,
      fun hwindow => ?outlier⟩⟩, fun hlocked => ⟨fun hlate => ?lost, fun hearly => ?notLost⟩, fun hleap => ?noLeap, fun hleap => ?leap,
    fun hacts princ d => ⟨fun hbad => ?refused, fun hgood => ?set⟩, fun hswitch => ?switching, fun a w q hsteady hqueue => ?lands⟩
  case off => exact congrArg _ (xrtcCycle_off hoff)
  case cycle => exact congrArg _ (xrtcCycle_plain hon rfl rfl rfl hleap hagree)
  case alarm => exact congrArg _ (alarm_due hen hrtc)
  case noAlarm => exact congrArg _ (alarm_other hrtc)
  case alarmOff => exact congrArg _ (alarm_disabled hoff)
  case ppsOff => exact congrArg _ (ppsEdge_disabled hoff)
  case slewing => exact congrArg _ (ppsEdge_slewing hen hmain rfl hslew)
  case first => exact congrArg _ (ppsEdge_first hen hmain rfl hslew hfirst hwindow)
  case outlier => exact congrArg _ (ppsEdge_outside hen hmain rfl hslew hwindow)
  case lost => exact congrArg _ (ppsLoss_lost hlocked hlate)
  case notLost => exact congrArg _ (ppsLoss_early hearly)
  case noLeap => exact congrArg _ (leapSecond_none hleap)
  case leap => exact congrArg _ (leapSecond_due hleap rfl)
  case refused =>
    exact onUnits_acts_eq (g := procRow (okey 0x8001 0) princ.toNat d {}) hacts (procRow_setTime_refused d princ.toNat hbad)
  case set => exact onUnits_acts_eq (g := procRow (okey 0x8001 0) princ.toNat d {}) hacts (procRow_setTime_runs d princ.toNat hgood)
  case switching => exact congrArg _ (feltLand_switching hswitch)
  case lands => exact congrArg _ (feltLand_lands hsteady hqueue)

end Sys2Proof.Proofs
end

section
/-!
Fuse programming and its outcomes (R1046–R1056), the re-sense (R1048), lifecycle advances (R1060, R1061) and the certificate chain (R1063). Each
lemma takes the command at the device's own instant.
-/

namespace Sys2Proof.Proofs

open Sys2Proof Sys2Proof.Machine Sys2Proof.Laws

section
variable {u : State}

/-! ## PROGCMD -/

theorem wr_dying (a : Nat) (w : Word) : (u.wr a w).dying = u.dying := by rw [State.dying, State.dying, wr_power]

section
variable (addr : Nat) (d : Word) (temp : Int)

theorem fuseCommand_busy (op : Nat) (hbusy : u.fuse.op.isSome = true) : fuseCommand op addr d temp u = u.wr rFUSE_PROGDATA d := by
  rw [fuseCommand, fuseStart, wr_fuse, if_pos (.inr hbusy)]

section
variable (hlive : u.dying = false) (hidle : u.fuse.op = none)
include hlive hidle

theorem fuseCommand_refused (op : Nat) (hcode : fuseCheck (u.wr rFUSE_PROGDATA d) op addr d temp ≠ 0) :
    fuseCommand op addr d temp u = fuseCode (fuseCheck (u.wr rFUSE_PROGDATA d) op addr d temp) (u.wr rFUSE_PROGDATA d) := by
  simp only [fuseCommand, fuseStart, wr_dying, hlive, wr_fuse, hidle, Option.isSome_none, Bool.false_eq_true, or_self, if_false, if_pos hcode]

/-- A PROGCMD of DATA, CRITICAL or THERMO that is not refused puts the words of its operation to work. -/
theorem fuseCommand_starts {op : Nat} (hop : op = 1 ∨ op = 2 ∨ op = 3) (hcode : fuseCheck (u.wr rFUSE_PROGDATA d) op addr d temp = 0) :
    fuseCommand op addr d temp u =
      if op = 1 then fuseBegin 1 addr (dataWords addr d) (u.wr rFUSE_PROGDATA d)
      else if op = 2 then fuseBegin 2 addr (critWords addr d) (u.wr rFUSE_PROGDATA d)
      else fuseBegin 3 addr ((List.range (d.toNat - thermoOf (u.wr rFUSE_PROGDATA d) addr)).flatMap fun i =>
        stepWords addr (thermoOf (u.wr rFUSE_PROGDATA d) addr + i + 1)) (u.wr rFUSE_PROGDATA d) := by
  rw [fuseCommand, fuseStart, wr_dying, wr_fuse, if_neg (by simp [hlive, hidle]), hcode, if_neg (not_not_intro rfl)]
  rcases hop with rfl | rfl | rfl <;> rfl

theorem fuseCommand_genroot {b : Bytes} {w : State} (hcode : fuseCheck (u.wr rFUSE_PROGDATA d) 4 addr d temp = 0)
    (hdraw : drbgNow 32 (u.wr rFUSE_PROGDATA d) = (some b, w)) : fuseCommand 4 addr d temp u = fuseBegin 4 0 (rootWords b) w := by
  simp [fuseCommand, fuseStart, wr_dying, hlive, hidle, hcode, hdraw]

theorem fuseCommand_noEntropy {w : State} (hcode : fuseCheck (u.wr rFUSE_PROGDATA d) 4 addr d temp = 0)
    (hdraw : drbgNow 32 (u.wr rFUSE_PROGDATA d) = (none, w)) : fuseCommand 4 addr d temp u = fuseCode fcENTROPY w := by
  simp [fuseCommand, fuseStart, wr_dying, hlive, hidle, hcode, hdraw]

end

end

/-! ## The end of an operation -/

section
variable {o : FuseOp} {good : Nat} (part : Word) (hop : u.fuse.op = some o)
include hop

theorem fuseDone_good (hgood : o.words.length ≤ good) : fuseDone good part u =
    fuseCode 0 (((fuseProgramAll (o.words.take good) u).onFuse fun f => { f with op := none }).setFlag rFUSE_STAT 5 false) := by
  simp only [fuseDone, hop, List.drop_eq_nil_of_le hgood, List.head?_nil, Option.isNone_none, if_true]

/-- A word short of its bits ends the operation with READBACK, or just stops it in the last breath. -/
theorem fuseDone_short {p : Nat} {w : Word} (hshort : (o.words.drop good).head? = some (p, w)) {v : State}
    (hv : (((fuseProgram p (w &&& part) (fuseProgramAll (o.words.take good) u)).onFuse fun f => { f with op := none }).setFlag rFUSE_STAT 5
      false) = v) :
    fuseDone good part u = if v.dying then v.setFlag rFUSE_PROGSTAT 0 false else setSticky 16 10 o.addr (fuseCode fcREADBACK v) := by
  simp only [fuseDone, hop, hshort, hv, Option.isNone_some, Bool.false_eq_true, if_false]

end

/-! ## Re-sense -/

section
variable (l : List Sense) (temp : Int)

theorem fuseResense_near (hnear : (temp - signed 16 (u.fld rFUSE_TEMPREF 15 0)).natAbs < 200) : fuseResense l temp u = u :=
  if_pos (.inr hnear)

/-- Values and marginal status that read as they are latched change TEMPREF alone. -/
theorem fuseResense_same (hidle : u.fuse.op = none) (hfar : 200 ≤ (temp - signed 16 (u.fld rFUSE_TEMPREF 15 0)).natAbs) {v : State}
    (hv : u.wr rFUSE_TEMPREF (loWord (unsigned 16 temp)) = v)
    (hsame : (List.range 37).find? (fun k => decide ((senseAll l v).getD k (0, false) ≠
      (if k < 21 then (critOf v k).toNat else thermoOf v (k - 21), v.fuse.marginal.contains k))) = none) :
    fuseResense l temp u = v := by
  simp only [fuseResense, hidle, Option.isSome_none, Bool.false_eq_true, Nat.not_lt.mpr hfar, or_self, if_false, hv, hsame]

end

/-! ## Lifecycle -/

section
variable (princ : Nat) {x : BitVec 8}

theorem procRow_lifecycle (hlow : 1 ≤ x.toNat) (hhigh : x.toNat ≤ 4) :
    procRow (okey 0xF001 0) princ (le 1 x.toNat) {} u = wrapUp (lifecycleAdvance x.toNat u).2 := by
  have hrun (d : Bytes) : runProc (okey 0xF001 0) princ d {} u = if ofLe d < 1 ∨ 4 < ofLe d then (aRANGE, u) else lifecycleAdvance (ofLe d) u := rfl
  rw [procRow, hrun, ofLe_leBytes_toNat x (by decide), if_neg (by omega)]

theorem lifecycleAdvance_refused {target : Nat} (hbad : lifeAllowed u target = false) : (lifecycleAdvance target u).2 = u :=
  congrArg Prod.snd (if_pos (.inl hbad))

theorem lifecycleAdvance_goes {target : Nat} (hgood : lifeAllowed u target = true) (hlive : u.dying = false) (hidle : u.fuse.op = none) :
    (lifecycleAdvance target u).2 = resetRequest 9 (fuseProgramAll (critWords 0 (BitVec.ofNat 32 (2 ^ (target - 1)))) u) := by
  simp only [lifecycleAdvance, hgood, hlive, hidle, Option.isSome_none, Bool.true_eq_false, Bool.false_eq_true, or_self, if_false]

end

/-! ## The certificate chain -/

theorem certGo_late (hlife : u.fuse.life ≠ .personalise) : certGo u = u.wr rBOOT_CERTSTAT 2#32 := if_pos (.inl hlife)

/-- A chain that passes every check is stored, and its digest and C4 bit 2 are programmed. -/
theorem certGo_stores {a n : Nat} {chain : Bytes} (ha : (u.rd rBOOT_CERTADDR).toNat = a) (hn : u.fld rBOOT_CERTLEN 13 0 = n)
    (hchain : u.load a n = chain) (hlife : u.fuse.life = .personalise) (hopen : bit (critOf u 4) 2 = false)
    (hblank : areaProgrammed u 256 28 1 = false) (hpos : 0 < n) (hmax : n ≤ 8192) (hcore : inCore a n = true) (hlive : u.dying = false)
    (hidle : u.fuse.op = none) (hkey : fit 64 (Config.certPub chain) = slotPub u 17) :
    certGo u = ((fuseProgramAll ((List.range 8).flatMap (fun i =>
      dataWords (dataPhys 256 (28 + i)) (wordOf (slice (fit 32 (Config.sha256 chain)) (4 * i) 4))) ++ critWords 4 4#32)
        (u.onBoot fun b => { b with chain := chain, chainBad := false })).wr rBOOT_CERTSTAT 1#32) := by
  simp only [certGo, ha, hn, hchain, hlife, hopen, hblank, Nat.ne_of_gt hpos, Nat.not_lt.mpr hmax, hcore, hlive, hidle, hkey, ne_eq,
    not_true_eq_false, Bool.false_eq_true, Bool.true_eq_false, Option.isSome_none, or_self, if_false]

end

/-- Settles O57, command by command. That a PROGCMD is ignored while an operation runs is the model's reading (notes/assumptions/45.md), as is
that CERTCMD is done within its command (notes/assumptions/61.md). -/
theorem fuseCommands : Obligations.FuseCommands := by
  intro t s hacts
  dsimp only
  have hall : Acts [] t s := acts_nil hacts
  have hdata (a : BitVec 10) (d : Word) (temp : Int) {v : State} : fuseCommand 1 a.toNat d temp (s.at t) = v →
      exec (.fuseData t a d temp) s = .next v := onUnits_acts_eq (g := fuseCommand 1 a.toNat d temp) hacts
  have hcrit (a : BitVec 10) (d : Word) (temp : Int) {v : State} : fuseCommand 2 a.toNat d temp (s.at t) = v →
      exec (.fuseCritical t a d temp) s = .next v := onUnits_acts_eq (g := fuseCommand 2 a.toNat d temp) hacts
  have hthermo (a : BitVec 10) (d : Word) (temp : Int) {v : State} : fuseCommand 3 a.toNat d temp (s.at t) = v →
      exec (.fuseThermo t a d temp) s = .next v := onUnits_acts_eq (g := fuseCommand 3 a.toNat d temp) hacts
  have hroot (temp : Int) {v : State} : fuseCommand 4 0 0#32 temp (s.at t) = v → exec (.genroot t temp) s = .next v :=
    onUnits_acts_eq (g := fuseCommand 4 0 0#32 temp) hacts
  have hdone (good : Nat) (part : Word) {v : State} (e : fuseDone good part (s.at t) = v) :
      exec (.fuseProgrammingDone t good part) s = .next (wrapUp v) :=
    onUnits_acts_eq (g := fun s => wrapUp (fuseDone good part s)) hacts (congrArg wrapUp e)
  refine ⟨fun a d temp => ⟨fun hbusy => ?busy, fun hlive hidle => ?command⟩, fun temp hlive hidle => ?genroot,
    fun o good part hop => ⟨fun hgood => ?good, fun p w hshort => ?short⟩, fun l temp hnear => ?near, fun l temp hidle hfar hsame => ?same,
    fun princ x hlow hhigh => ?lifecycle, fun hlife => ?late,
    fun hlife hopen hblank hpos hmax hcore hlive hidle hkey => ?stores⟩
  case busy =>
    exact ⟨hdata a d temp (fuseCommand_busy _ d temp 1 hbusy), hcrit a d temp (fuseCommand_busy _ d temp 2 hbusy),
      hthermo a d temp (fuseCommand_busy _ d temp 3 hbusy)⟩
  case command =>
    exact ⟨fun h => hdata a d temp (fuseCommand_refused _ d temp hlive hidle 1 h),
      fun h => hdata a d temp (fuseCommand_starts _ d temp hlive hidle (.inl rfl) h),
      fun h => hcrit a d temp (fuseCommand_refused _ d temp hlive hidle 2 h),
      fun h => hcrit a d temp (fuseCommand_starts _ d temp hlive hidle (.inr (.inl rfl)) h),
      fun h => hthermo a d temp (fuseCommand_refused _ d temp hlive hidle 3 h),
      fun h => hthermo a d temp (fuseCommand_starts _ d temp hlive hidle (.inr (.inr rfl)) h)⟩
  case genroot =>
    exact ⟨fun h => hroot temp (fuseCommand_refused 0 _ temp hlive hidle 4 h),
      fun b w h hdraw => hroot temp (fuseCommand_genroot 0 _ temp hlive hidle h hdraw),
      fun w h hdraw => hroot temp (fuseCommand_noEntropy 0 _ temp hlive hidle h hdraw)⟩
  case good => exact hdone good part (fuseDone_good part hop hgood)
  case short =>
    exact ⟨fun hlive => hdone good part ((fuseDone_short part hop hshort rfl).trans (if_neg (ne_true_of_eq_false hlive))),
      fun hdying => hdone good part ((fuseDone_short part hop hshort rfl).trans (if_pos hdying))⟩
  case near => exact onUnits_acts_eq (g := fuseResense l temp) hacts (fuseResense_near l temp hnear)
  case same => exact onUnits_acts_eq (g := fuseResense l temp) hacts (fuseResense_same l temp hidle hfar rfl hsame)
  case lifecycle =>
    have hrow {v : State} (e : (lifecycleAdvance x.toNat (s.at t)).2 = v) : exec (.lifecycleAdvance t princ x) s = .next (wrapUp v) :=
      onUnits_acts_eq (g := procRow (okey 0xF001 0) princ.toNat (le 1 x.toNat) {}) hall
        ((procRow_lifecycle princ.toNat hlow hhigh).trans (congrArg wrapUp e))
    exact ⟨fun hbad => hrow (lifecycleAdvance_refused hbad), fun hgood hlive hidle => hrow (lifecycleAdvance_goes hgood hlive hidle)⟩
  case late => exact onUnits_acts_eq (g := certGo) hall (certGo_late hlife)
  case stores =>
    exact onUnits_acts_eq (g := certGo) hall (certGo_stores rfl rfl rfl hlife hopen hblank hpos hmax hcore hlive hidle hkey)

end Sys2Proof.Proofs
end

section
/-!
Recovery (R1070), firmware update and its trial (R1075–R1081), the warm restart (R1082), debug unlock (R1087–R1090), the diagnostic log's push
(R1106) and standing sticky bits (R1100). Each lemma takes the command at the device's own instant.
-/

namespace Sys2Proof.Proofs

open Sys2Proof Sys2Proof.Machine Sys2Proof.Laws

section
variable {u : State}

/-! ## Recovery -/

section
variable (d : Bytes)

theorem recoveryBlock_ignored (ok : Bool) (hoff : u.boot.recovery = false) : recoveryBlock d ok u = u := if_pos hoff

section
variable (hrecovery : u.boot.recovery = true)
include hrecovery

theorem recoveryBlock_nak : recoveryBlock d false u = u.onBoot fun b => { b with uartAns := some 0x15 } := by
  simp only [recoveryBlock, hrecovery, Bool.true_eq_false, if_false, if_true]

theorem recoveryBlock_gathers (hshort : (u.boot.uart ++ d).length < 512) :
    recoveryBlock d true u = u.onBoot fun b => { b with uart := u.boot.uart ++ d, uartAns := some 0x06 } := by
  simp only [recoveryBlock, hrecovery, Bool.true_eq_false, if_false, if_pos hshort]

/-- A header that is not valid drops what was gathered. -/
theorem recoveryBlock_drops (hlong : 512 ≤ (u.boot.uart ++ d).length) (hbad : hdrValid ((u.boot.uart ++ d).take 512) = false) :
    recoveryBlock d true u = u.onBoot fun b => { b with uart := [], uartAns := some 0x06 } := by
  simp only [recoveryBlock, hrecovery, Bool.true_eq_false, if_false, if_neg (Nat.not_lt.mpr hlong), hbad, if_true, State.onBoot]

end

end

/-! ## The inactive slot -/

theorem fwOffset_busy (v : Nat) (hbusy : u.boot.flashOp.isSome = true) : (fwOffset v u).2 = u := congrArg Prod.snd (if_pos hbusy)

theorem fwChunk_refused (d : Bytes) (hover : 0x200000 < u.boot.offset + d.length) : (fwChunk d u).2 = u := by
  simp only [fwChunk, hover, true_or, if_true, apply_ite Prod.snd, ite_self]

section
variable (hfree : u.boot.flashOp = none)
include hfree

theorem fwOffset_sets {v : Nat} (hv : v ≤ 0x1FFFFF) : (fwOffset v u).2 = u.onBoot fun b => { b with offset := v } := by
  simp only [fwOffset, hfree, Option.isSome_none, Bool.false_eq_true, if_false, if_neg (Nat.not_lt.mpr hv),
    if_neg (show ¬0x80000000 ≤ v by omega)]

theorem fwOffset_beyond {v : Nat} (hlow : 0x1FFFFF < v) (hhigh : v < 0x80000000) : (fwOffset v u).2 = u := by
  simp only [fwOffset, hfree, Option.isSome_none, Bool.false_eq_true, if_false, if_neg (Nat.not_le.mpr hhigh), if_pos hlow]

theorem fwOffset_erases {v : Nat} (hv : 0x80000000 ≤ v) : (fwOffset v u).2 =
    ospiStat (u.onBoot fun b => { b with offset := 0, flashOp := some (.erase (inactiveB u)) }) := by
  simp only [fwOffset, hfree, Option.isSome_none, Bool.false_eq_true, if_false, if_pos hv]

/-- A chunk that fits and overlaps nothing written is programmed at the offset, which moves on. -/
theorem fwChunk_programs {d : Bytes} (hd : d ≠ []) (hfits : u.boot.offset + d.length ≤ 0x200000)
    (honce : u.boot.written.any (fun r => decide (r.1 < u.boot.offset + d.length ∧ u.boot.offset < r.1 + r.2)) = false) :
    (fwChunk d u).2 = ospiStat (u.onBoot fun b => { b with
      offset := u.boot.offset + d.length, written := b.written ++ [(u.boot.offset, d.length)]
      flashOp := some (.program (slotBase (inactiveB u) + u.boot.offset) d) }) := by
  simp only [fwChunk, hfree, Option.isSome_none, Bool.false_eq_true, Nat.not_lt.mpr hfits, honce, or_self, if_false,
    if_neg (mt List.length_eq_zero_iff.mp hd)]

theorem ospiDone_none : ospiDone u = u := by simp only [ospiDone, hfree]

end

theorem ospiDone_erased {b : Bool} (hop : u.boot.flashOp = some (.erase b)) :
    ospiDone u = ospiStat (u.onBoot fun x => { x with flashOp := none, flash := flashErase b x.flash, written := [] }) := by
  simp only [ospiDone, hop]

theorem ospiDone_programmed {off : Nat} {d : Bytes} (hop : u.boot.flashOp = some (.program off d)) :
    ospiDone u = ospiStat (u.onBoot fun x => { x with flashOp := none, flash := flashPut off d x.flash }) := by
  simp only [ospiDone, hop]

/-! ## FW_COMMIT, CONFIRM and the warm restart -/

section
variable (princ : Nat)

theorem procRow_fwCommit : procRow (okey 0xF030 3) princ [] {} u = wrapUp (procAtOnce (okey 0xF030 3) princ (fwCommit u)).2 := rfl

theorem procRow_fwCommit_busy (hbusy : u.boot.flashOp.isSome = true) : procRow (okey 0xF030 3) princ [] {} u = wrapUp u := by
  have hcommit : fwCommit u = (aBUSY, u) := if_pos (.inr hbusy)
  rw [procRow_fwCommit, hcommit, procAtOnce, if_neg (show ¬aBUSY = aOK by decide)]

theorem procRow_fwCommit_good (hwarm : u.boot.warm = .idle) (hfree : u.boot.flashOp = none)
    (hgood : imageCheck u (slotImage u (inactiveB u)).1 (slotImage u (inactiveB u)).2 = 0) :
    procRow (okey 0xF030 3) princ [] {} u = wrapUp (procRan (okey 0xF030 3) princ aOK
      (prefPut { prefOf u with slotB := inactiveB u, trial := true, tries := 3 } u)) := by
  have hcommit : fwCommit u = (aOK, prefPut { prefOf u with slotB := inactiveB u, trial := true, tries := 3 } u) := by
    simp only [fwCommit, hwarm, hfree, hgood, ne_eq, not_true_eq_false, Option.isSome_none, Bool.false_eq_true, or_self, if_false]
  rw [procRow_fwCommit, hcommit, procAtOnce, if_pos rfl]

end

section
variable (temp : Int)

theorem confirm_wrongKey {key : Nat} (hkey : key ≠ 0xC0F1) : confirm key temp u = u := if_pos (.inl hkey)

/-- CONFIRM ends the trial, and raises counter T0 where it is below the rollback number of the image. -/
theorem confirm_ends (hheader : u.boot.header ≠ []) {rb : Nat} (hrb : hfld u.boot.header 0x14 1 = rb) {v : State}
    (hv : (prefPut { prefOf u with trial := false, rbmin := rb } u).setFlag rBOOT_BOOTSTAT 4 false = v) :
    confirm 0xC0F1 temp u = if thermoOf v 0 < rb then fuseStart 3 0 (loWord rb) temp v else v := by
  simp only [confirm, ne_eq, not_true_eq_false, hheader, or_self, if_false, hrb, hv]

end

theorem warmRow_idle (hidle : u.boot.warm = .idle) : warmRow u = wrapUp (warmStart u) := if_pos hidle

theorem warmRow_busy (hbusy : u.boot.warm ≠ .idle) : warmRow u = u := if_neg hbusy

/-! ## Debug unlock -/

section
variable (sig : Bytes)

section
variable (hshut : debugShut u = true)
include hshut

theorem debugResponse_shut : (debugResponse sig u).2 = u := congrArg Prod.snd (if_pos hshut)

theorem challengeRow_shut : challengeRow u = u := by simp only [challengeRow, debugChallenge, hshut, if_true]

end

section
variable (hopen : debugShut u = false)
include hopen

/-- A challenge is what the DRBG gives, and the instant it was given at. -/
theorem challengeRow_served {b : Bytes} {v : State} (hdraw : drbgNow 32 (u.onBoot fun b => { b with challenge := none }) = (some b, v)) :
    challengeRow u = v.onBoot fun x => { x with challenge := some (b, v.now) } := by
  simp only [challengeRow, debugChallenge, hopen, hdraw, Bool.false_eq_true, if_false]

theorem debugResponse_accepted (hgood : debugAccepts u sig = true) : (debugResponse sig u).2 = setSticky 12 10 0
    (((epochRequest { reason := .request } (u.onBoot fun b => { b with challenge := none })).onBoot fun b =>
      { b with unlocked := true }).setFlag rBOOT_DBGSTAT 0 true) := by
  simp only [debugResponse, hopen, hgood, Bool.false_eq_true, if_false, if_true]

theorem debugResponse_rejected (hbad : debugAccepts u sig = false) : (debugResponse sig u).2 =
    (u.onBoot fun b => { b with challenge := none }).setFld rBOOT_DBGSTAT 3 1 (u.fld rBOOT_DBGSTAT 3 1 + 1) := by
  simp only [debugResponse, hopen, hbad, Bool.false_eq_true, if_false]

end

end

/-! ## The diagnostic log and standing bits -/

section
variable (w : Word) {sec n : Nat} (hsec : u.felt.evt / 2 ^ 24 = sec) (hn : (if u.diag.pushSec = sec then u.diag.pushes else 0) = n)
  (hlive : u.power.lb < 5)
include hsec hn hlive

theorem diagPush_writes (hroom : n < 1000) : diagPush w u = diagEntry
    { evt := u.felt.evt, type := 3, src := bits w 7 0, code := bits w 31 16, arg := (u.rd rTWEED_DIAGARG).toNat }
    (u.onDiag fun d => { d with pushSec := sec, pushes := n + 1 }) := by
  simp only [diagPush, if_neg (Nat.not_le.mpr hlive), hsec, hn, if_neg (Nat.not_le.mpr hroom)]

theorem diagPush_full (hfull : 1000 ≤ n) :
    diagPush w u = u.setFld rTWEED_DIAGSTAT 31 16 (satInc 16 (u.fld rTWEED_DIAGSTAT 31 16)) := by
  simp only [diagPush, if_neg (Nat.not_le.mpr hlive), hsec, hn, if_pos hfull]

end

section
variable {n : Nat}

theorem standingReset_none (hnone : standing u n = none) : standingReset n u = u := by simp only [standingReset, hnone]

theorem standingReset_holds {src arg : Nat} (hholds : standing u n = some (src, arg)) :
    standingReset n u = if n / 32 = 7 then feltSticky n arg u else setSticky n src arg u := by simp only [standingReset, hholds]

end

end

/-- Settles O58, command by command. That FW_OFFSET, FW_CHUNK and FW_COMMIT are busy while the flash is being changed, and that a recovery image
that fails its checks is dropped, are the model's readings (notes/assumptions/61.md); the statement also rests on those of
notes/assumptions/88.md. -/
theorem firmwareAndDebug : Obligations.FirmwareAndDebug := by
  intro t s hacts
  dsimp only
  have hblock (d : Bytes) (ok : Bool) {v : State} : recoveryBlock d ok (s.at t) = v → exec (.recoveryBlock t d ok) s = .next v :=
    onUnits_acts_eq (g := recoveryBlock d ok) hacts
  have hoffset (w : Word) {v : State} : (fwOffset w.toNat (s.at t)).2 = v → exec (.fwOffset t w) s = .next v :=
    onUnits_acts_eq (g := fun s => (fwOffset w.toNat s).2) hacts
  have hchunk (d : Bytes) {v : State} : (fwChunk d (s.at t)).2 = v → exec (.fwChunk t d) s = .next v :=
    onUnits_acts_eq (g := fun s => (fwChunk d s).2) hacts
  have hcommit (princ : BitVec 4) {v : State} : procRow (okey 0xF030 3) princ.toNat [] {} (s.at t) = v → exec (.fwCommit t princ) s = .next v :=
    onUnits_acts_eq (g := procRow (okey 0xF030 3) princ.toNat [] {}) hacts
  have hconfirm (key : BitVec 16) (temp : Int) {v : State} : confirm key.toNat temp (s.at t) = v → exec (.confirm t key temp) s = .next v :=
    onUnits_acts_eq (g := confirm key.toNat temp) hacts
  have hresponse (sig : Bytes) {v : State} : (debugResponse sig (s.at t)).2 = v → exec (.debugResponse t sig) s = .next v :=
    onUnits_acts_eq (g := fun s => (debugResponse sig s).2) hacts
  have hchallenge {v : State} : challengeRow (s.at t) = v → exec (.debugChallenge t) s = .next v := onUnits_acts_eq (g := challengeRow) hacts
  have hpush (w : Word) {v : State} : diagPush w (s.at t) = v → exec (.diagpush t w) s = .next v := onUnits_acts_eq (g := diagPush w) hacts
  have hstanding (n : BitVec 8) {v : State} : standingReset n.toNat (s.at t) = v → exec (.standingReset t n) s = .next v :=
    onUnits_acts_eq (g := standingReset n.toNat) hacts
  refine ⟨fun d ok => ⟨fun hoff => ?ignored, fun hrec hbad => ?nak, fun hrec hok hshort => ?gathers, fun hrec hok hlong hbad => ?drops⟩,
    fun w => ⟨fun hbusy => ?offsetBusy, fun hfree hw => ?offsetSet, fun hfree hlow hhigh => ?offsetBeyond, fun hfree hw => ?erases⟩,
    fun d hfree hd hfits honce => ?programs, fun d _ hover => ?chunkRefused, fun hospi => ?flashDone, fun princ hwarm hfree hgood => ?commits,
    fun princ hbusy => ?commitBusy, fun key temp => ⟨fun hkey => ?wrongKey, fun hkey hheader => ?confirms⟩, fun hidle => ?warm,
    fun hbusy => ?warmBusy, fun hshut => ?shut, fun b v hopen hdraw => ?challenge, fun sig hopen hgood => ?accepted,
    fun sig hopen hbad => ?rejected, fun w => ⟨fun hlive hroom => ?pushes, fun hlive hfull => ?pushFull⟩,
    fun n => ⟨fun hnone => ?notStanding, fun src arg hholds hmain => ?standing, fun src arg hholds hfelt => ?standingFelt⟩⟩
  case ignored => exact hblock d ok (recoveryBlock_ignored d ok hoff)
  case nak => exact hblock d ok (hbad ▸ recoveryBlock_nak d hrec)
  case gathers => exact hblock d ok (hok ▸ recoveryBlock_gathers d hrec hshort)
  case drops => exact hblock d ok (hok ▸ recoveryBlock_drops d hrec hlong hbad)
  case offsetBusy => exact hoffset w (fwOffset_busy w.toNat hbusy)
  case offsetSet => exact hoffset w (fwOffset_sets hfree hw)
  case offsetBeyond => exact hoffset w (fwOffset_beyond hfree hlow hhigh)
  case erases => exact hoffset w (fwOffset_erases hfree hw)
  case programs => exact hchunk d (fwChunk_programs hfree hd hfits honce)
  case chunkRefused => exact hchunk d (fwChunk_refused d hover)
  case flashDone =>
    have hdone {v : State} (e : ospiDone (s.at t) = v) : exec (.ospiOperationDone t) s = .next (wrapUp v) :=
      onUnits_acts_eq (g := fun s => wrapUp (ospiDone s)) hospi (congrArg wrapUp e)
    exact ⟨fun hfree => hdone (ospiDone_none hfree), fun b hop => hdone (ospiDone_erased hop),
      fun off d hop => hdone (ospiDone_programmed hop)⟩
  case commits => exact hcommit princ (procRow_fwCommit_good princ.toNat hwarm hfree hgood)
  case commitBusy => exact hcommit princ (procRow_fwCommit_busy princ.toNat hbusy)
  case wrongKey => exact hconfirm key temp (confirm_wrongKey temp fun h => hkey (BitVec.eq_of_toNat_eq h))
  case confirms =>
    subst hkey
    have hends := confirm_ends temp hheader rfl rfl
    exact ⟨fun hreached => hconfirm 0xC0F1#16 temp (hends.trans (if_neg (Nat.not_lt.mpr hreached))),
      fun hbelow => hconfirm 0xC0F1#16 temp (hends.trans (if_pos hbelow))⟩
  case warm => exact onUnits_acts_eq (g := warmRow) hacts (warmRow_idle hidle)
  case warmBusy => exact onUnits_acts_eq (g := warmRow) hacts (warmRow_busy hbusy)
  case shut => exact ⟨fun sig => hresponse sig (debugResponse_shut sig hshut), hchallenge (challengeRow_shut hshut)⟩
  case challenge => exact hchallenge (challengeRow_served hopen hdraw)
  case accepted => exact hresponse sig (debugResponse_accepted sig hopen hgood)
  case rejected => exact hresponse sig (debugResponse_rejected sig hopen hbad)
  case pushes => exact hpush w (diagPush_writes w rfl rfl hlive hroom)
  case pushFull => exact hpush w (diagPush_full w rfl rfl hlive hfull)
  case notStanding => exact hstanding n (standingReset_none hnone)
  case standing => exact hstanding n ((standingReset_holds hholds).trans (if_neg hmain))
  case standingFelt => exact hstanding n ((standingReset_holds hholds).trans (if_pos hfelt))

end Sys2Proof.Proofs
end
